-- ==== Sys2Proof/Word.lean ====
section
/-!
DEFINITION. The word types of the machine and the operand types of its instructions (R79, R89, R107, R110, R113).
-/
namespace Sys2Proof

abbrev Word := BitVec 64
abbrev Byte := BitVec 8
abbrev Half := BitVec 16
/-- A vector register, 1 KiB (R126). -/
abbrev Vec := BitVec 8192
/-- A predicate register, one bit a lane (R126). -/
abbrev Pred := BitVec 256

/-- A 6-bit GPR code: 0–31 name g0–g31, 32–63 name c0–c31 (R110). -/
abbrev Gpr := BitVec 6
/-- A 6-bit vector code: 0–31 name v0–v31, 32–63 name w0–w31 (R110). -/
abbrev Vr := BitVec 6
/-- A predicate code p0–p7. -/
abbrev Pr := BitVec 3
/-- A capability register code k0–k15. -/
abbrev Kr := BitVec 4
/-- An operand-buffer code ob0–ob7. -/
abbrev Ob := BitVec 3
/-- An accumulator code acc0–acc3. -/
abbrev Acc := BitVec 2

/-- The guard that `RX` carries: the predicate gp and the inversion gn (R107). -/
structure Guard where
  neg : Bool
  p : Pr
deriving DecidableEq, Repr

/-- A capability or any other 128-bit granule with its validity tag (R47, R49). -/
structure Cap where
  bits : BitVec 128
  tag : Bool
deriving DecidableEq, Repr

/-- The width class of R113. -/
inductive Width where
  | w64 | w32 | w16 | w8
deriving DecidableEq, Repr

/-- The number of bits of a width. -/
def Width.bits : Width → Nat
  | .w64 => 64 | .w32 => 32 | .w16 => 16 | .w8 => 8

/-- The memory class of R113: the width and, with `nat`, the natural (zero-extended) reading. -/
inductive MemTy where
  | i64 | i32 | i16 | i8 | n32 | n16 | n8
deriving DecidableEq, Repr

/-- Bytes an element of a memory type takes. -/
def MemTy.bytes : MemTy → Nat
  | .i64 => 8 | .i32 => 4 | .i16 => 2 | .i8 => 1 | .n32 => 4 | .n16 => 2 | .n8 => 1

/-- Codes 5–7 zero-extend, the others sign-extend (R211). -/
def MemTy.isNat : MemTy → Bool
  | .n32 => true | .n16 => true | .n8 => true
  | .i64 => false | .i32 => false | .i16 => false | .i8 => false

/-- The types the atomic family accepts (R205). -/
inductive AmoTy where
  | i64 | i32 | n32
deriving DecidableEq, Repr

/-- The float class of R113. -/
inductive FTy where
  | f32 | f64 | f16 | bf16 | e4m3 | e5m2
deriving DecidableEq, Repr

/-- The float types pages 1–2 arithmetic accepts: codes 0–3 of the float class (R167). -/
inductive VTy where
  | f32 | f64 | f16 | bf16
deriving DecidableEq, Repr

/-- The float types of the MX conversions and transcendentals: codes 0, 2 and 3 (R167). -/
inductive STy where
  | f32 | f16 | bf16
deriving DecidableEq, Repr

/-- The MX class of R113. -/
inductive MTy where
  | mx8 | mx8e5 | mx6 | mx6e2 | mx4 | mxi8
deriving DecidableEq, Repr

/-- The integer types of `VCVT` (R182). -/
inductive ITy where
  | i64 | i32 | i16 | i8 | n64 | n32 | n16 | n8
deriving DecidableEq, Repr

/-- The six rounding modes of R89. -/
inductive Rnd where
  | rne | rtz | rup | rdn | rna | rsr
deriving DecidableEq, Repr

/-- The scopes of R53, by their code. -/
inductive Scope where
  | lane | slot | core | vault | quad | die | pkg | pod | sys
deriving DecidableEq, Repr

/-- The code of a scope (R53). -/
def Scope.code : Scope → Nat
  | .lane => 0 | .slot => 1 | .core => 2 | .vault => 3 | .quad => 4
  | .die => 5 | .pkg => 6 | .pod => 7 | .sys => 8

/-- An immediate: how many `IMX` prefixes lengthen it, and the concatenated bits (R98, R104). -/
structure Imm where
  ext : Nat
  val : Nat
deriving DecidableEq, Repr

/-- An index operand: a register or an immediate (R206). -/
inductive Idx where
  | reg (b : Gpr)
  | imm (i : Imm)
deriving DecidableEq, Repr

/-- The second float source: a vector or an immediate (R167). -/
inductive FSrc where
  | vec (b : Vr)
  | imm (i : Imm)
deriving DecidableEq, Repr

/-- The index forms of `VLD` and `VST` (R212). -/
inductive VIdx where
  | contiguous (b : Gpr)
  | strided (b : Gpr)
  | gather (b : Vr)
deriving DecidableEq, Repr

/-- The targets of `JMP` and `CALL` (R159). -/
inductive Target where
  | rel (i : Imm)
  | reg (b : Gpr)
  | cap (k : Kr) (b : Gpr)
deriving DecidableEq, Repr

/-- The targets of `RET`, which has no relative form (R159). -/
inductive RetTarget where
  | reg (b : Gpr)
  | cap (k : Kr) (b : Gpr)
deriving DecidableEq, Repr

/-- The buffer or accumulator an `OBPUT` or `OBGET` names (R225). -/
inductive ObAcc where
  | ob (o : Ob)
  | acc (c : Acc)
deriving DecidableEq, Repr

/-- The conversions of `VCVT`, source first (R182). -/
inductive Cvt where
  | floatFloat (src dst : FTy)
  | floatInt (src : FTy) (dst : ITy)
  | intFloat (src : ITy) (dst : FTy)
deriving DecidableEq, Repr

/-- The operand format of `MFMT` (R237). -/
inductive MFmt where
  | float (t : FTy)
  | mx (t : MTy)
  | int8
deriving DecidableEq, Repr

/-- The element sizes of a tile, by code (R226). -/
inductive TElem where
  | b64 | b32 | b16 | b8 | b6 | b4
deriving DecidableEq, Repr

/-- The encoding-trap causes of R115. -/
inductive IllCause where
  | illOp | illPrefix | illField
deriving DecidableEq, Repr

end Sys2Proof
end

