-- ==== Sys2Proof/Config.lean ====
section
/-!
DEFINITION. What the spec leaves to the part, its firmware or its free choice: opaque constants, so that no proof can
see a value of them.
-/
namespace Sys2Proof.Config

/-- The supervisor code capability that the firmware gives the core at a physical position (R393); free. -/
opaque supervisorCode : Nat → BitVec 128
/-- The package's number within its pod, set by the firmware (R393); free. -/
opaque pkg : BitVec 6
/-- The pod identifier, set by the firmware (R393); free. -/
opaque pod : BitVec 16
/-- The firmware image that Phaekus finds at power-on (R399); free. -/
opaque firmwareImage : List (BitVec 8)
/-- The Ed25519 public key in ROM key slot 0 (R400), by byte; free. -/
opaque ed25519Key : Nat → BitVec 8
/-- The ML-DSA-65 public key in ROM key slot 1 (R400), by byte; free. -/
opaque mldsa65Key : Nat → BitVec 8
/-- Whether Ed25519 verification multiplies its group equation by the cofactor 8: RFC 8032 allows both; free. -/
opaque ed25519Cofactor : Bool
/-- Which of the two values R426 allows an overlapping destination byte receives: the source byte as the command found
it (true), or as an earlier segment left it. The argument is the free counter of the state. -/
opaque overlapKeepsOld : Nat → Bool
/-- The temperature in °C that a core measures, by its position, whether it is the vault's (true) or the logic's, and the clock
of the sample (R404); free. -/
opaque temperature : Nat → Bool → Nat → Nat
/-- The contents of host memory that the device has not written (R391), by address; free. -/
opaque hostByte : Nat → BitVec 8
/-- The other packages of the pod, by number; free. -/
opaque podOthers : List Nat
/-- The live cores of a die of another package of the pod, as its `HMAP` shows them (R318); free. -/
opaque podHmap : Nat → Nat → BitVec 36

end Sys2Proof.Config
end

