-- ==== Sys2Proof/Syntax.lean ====
section
/-!
DEFINITION. The instructions and events of the machine: one constructor for each row of spec/opcode_table.json.
The instructions of the opcode map (R114) come first, those without operands last among them; then the events that the spec lists
as steps, whose arguments the state holds (State.evt). The guard of a chain is no operand: it stands in State.issue.
-/

namespace Sys2Proof

/-- One constructor per row of the table of operations and events. -/
inductive Instr where
  /-- ADD (R146) -/
  | add (w : Width) (d : Gpr) (a : Gpr) (b : Gpr)
  /-- MIN (R146) -/
  | min (w : Width) (d : Gpr) (a : Gpr) (b : Gpr)
  /-- MAX (R146) -/
  | max (w : Width) (d : Gpr) (a : Gpr) (b : Gpr)
  /-- MINN (R146) -/
  | minn (w : Width) (d : Gpr) (a : Gpr) (b : Gpr)
  /-- MAXN (R146) -/
  | maxn (w : Width) (d : Gpr) (a : Gpr) (b : Gpr)
  /-- ADDI (R146) -/
  | addi (w : Width) (d : Gpr) (a : Gpr) (i : Imm)
  /-- SUB (R146) -/
  | sub (w : Width) (d : Gpr) (a : Gpr) (b : Gpr)
  /-- AND (R147) -/
  | and (w : Width) (d : Gpr) (a : Gpr) (b : Gpr)
  /-- OR (R147) -/
  | or (w : Width) (d : Gpr) (a : Gpr) (b : Gpr)
  /-- XOR (R147) -/
  | xor (w : Width) (d : Gpr) (a : Gpr) (b : Gpr)
  /-- ANDN (R147) -/
  | andn (w : Width) (d : Gpr) (a : Gpr) (b : Gpr)
  /-- ORN (R147) -/
  | orn (w : Width) (d : Gpr) (a : Gpr) (b : Gpr)
  /-- XNOR (R147) -/
  | xnor (w : Width) (d : Gpr) (a : Gpr) (b : Gpr)
  /-- SHL (R148) -/
  | shl (w : Width) (d : Gpr) (a : Gpr) (b : Gpr)
  /-- SHR (R148) -/
  | shr (w : Width) (d : Gpr) (a : Gpr) (b : Gpr)
  /-- SRA (R148) -/
  | sra (w : Width) (d : Gpr) (a : Gpr) (b : Gpr)
  /-- ROL (R148) -/
  | rol (w : Width) (d : Gpr) (a : Gpr) (b : Gpr)
  /-- ROR (R148) -/
  | ror (w : Width) (d : Gpr) (a : Gpr) (b : Gpr)
  /-- SHLI (R148) -/
  | shli (w : Width) (d : Gpr) (a : Gpr) (i : Imm)
  /-- SHRI (R148) -/
  | shri (w : Width) (d : Gpr) (a : Gpr) (i : Imm)
  /-- SRAI (R148) -/
  | srai (w : Width) (d : Gpr) (a : Gpr) (i : Imm)
  /-- ROLI (R148) -/
  | roli (w : Width) (d : Gpr) (a : Gpr) (i : Imm)
  /-- RORI (R148) -/
  | rori (w : Width) (d : Gpr) (a : Gpr) (i : Imm)
  /-- MUL (R149) -/
  | mul (w : Width) (d : Gpr) (a : Gpr) (b : Gpr)
  /-- MULH (R149) -/
  | mulh (w : Width) (d : Gpr) (a : Gpr) (b : Gpr)
  /-- MULHN (R149) -/
  | mulhn (w : Width) (d : Gpr) (a : Gpr) (b : Gpr)
  /-- DIV (R149) -/
  | div (w : Width) (d : Gpr) (a : Gpr) (b : Gpr)
  /-- DIVN (R149) -/
  | divn (w : Width) (d : Gpr) (a : Gpr) (b : Gpr)
  /-- REM (R149) -/
  | rem (w : Width) (d : Gpr) (a : Gpr) (b : Gpr)
  /-- REMN (R149) -/
  | remn (w : Width) (d : Gpr) (a : Gpr) (b : Gpr)
  /-- CMPEQ (R150) -/
  | cmpeq (w : Width) (d : Pr) (a : Gpr) (b : Gpr)
  /-- CMPNE (R150) -/
  | cmpne (w : Width) (d : Pr) (a : Gpr) (b : Gpr)
  /-- CMPLT (R150) -/
  | cmplt (w : Width) (d : Pr) (a : Gpr) (b : Gpr)
  /-- CMPLE (R150) -/
  | cmple (w : Width) (d : Pr) (a : Gpr) (b : Gpr)
  /-- CMPLTN (R150) -/
  | cmpltn (w : Width) (d : Pr) (a : Gpr) (b : Gpr)
  /-- CMPLEN (R150) -/
  | cmplen (w : Width) (d : Pr) (a : Gpr) (b : Gpr)
  /-- CMPEQI (R150) -/
  | cmpeqi (w : Width) (d : Pr) (a : Gpr) (i : Imm)
  /-- CMPNEI (R150) -/
  | cmpnei (w : Width) (d : Pr) (a : Gpr) (i : Imm)
  /-- CMPLTI (R150) -/
  | cmplti (w : Width) (d : Pr) (a : Gpr) (i : Imm)
  /-- CMPLEI (R150) -/
  | cmplei (w : Width) (d : Pr) (a : Gpr) (i : Imm)
  /-- CMPLTNI (R150) -/
  | cmpltni (w : Width) (d : Pr) (a : Gpr) (i : Imm)
  /-- CMPLENI (R150) -/
  | cmpleni (w : Width) (d : Pr) (a : Gpr) (i : Imm)
  /-- MOV (R152) -/
  | mov (d : Gpr) (a : Gpr)
  /-- MOV_CAP (R152) -/
  | movCap (d : Kr) (a : Kr)
  /-- NEG (R151) -/
  | neg (w : Width) (d : Gpr) (a : Gpr)
  /-- NOT (R151) -/
  | not (w : Width) (d : Gpr) (a : Gpr)
  /-- CLZ (R151) -/
  | clz (w : Width) (d : Gpr) (a : Gpr)
  /-- CTZ (R151) -/
  | ctz (w : Width) (d : Gpr) (a : Gpr)
  /-- POPC (R151) -/
  | popc (w : Width) (d : Gpr) (a : Gpr)
  /-- SEXT (R151) -/
  | sext (w : Width) (d : Gpr) (a : Gpr)
  /-- ZEXT (R151) -/
  | zext (w : Width) (d : Gpr) (a : Gpr)
  /-- BSWAP (R151) -/
  | bswap (w : Width) (d : Gpr) (a : Gpr)
  /-- SEL (R153) -/
  | sel (d : Gpr) (a : Gpr) (b : Gpr)
  /-- LIH (R154) -/
  | lih (d : Gpr) (i : Imm)
  /-- BR (R105) -/
  | br (o : BitVec 12)
  /-- LI (R106) -/
  | li (d : Gpr) (i : Imm)
  /-- JMP (R160) -/
  | jmp (t : Target)
  /-- CALL (R160) -/
  | call (d : Gpr) (t : Target)
  /-- RET (R160) -/
  | ret (t : RetTarget)
  /-- VADD (R168) -/
  | vadd (w : Width) (d : Vr) (a : Vr) (b : Vr)
  /-- VSUB (R168) -/
  | vsub (w : Width) (d : Vr) (a : Vr) (b : Vr)
  /-- VMIN (R168) -/
  | vmin (w : Width) (d : Vr) (a : Vr) (b : Vr)
  /-- VMAX (R168) -/
  | vmax (w : Width) (d : Vr) (a : Vr) (b : Vr)
  /-- VMINN (R168) -/
  | vminn (w : Width) (d : Vr) (a : Vr) (b : Vr)
  /-- VMAXN (R168) -/
  | vmaxn (w : Width) (d : Vr) (a : Vr) (b : Vr)
  /-- VADDS (R168) -/
  | vadds (w : Width) (n : Bool) (d : Vr) (a : Vr) (b : Vr)
  /-- VSUBS (R168) -/
  | vsubs (w : Width) (n : Bool) (d : Vr) (a : Vr) (b : Vr)
  /-- VMUL (R169) -/
  | vmul (w : Width) (d : Vr) (a : Vr) (b : Vr)
  /-- VMULH (R169) -/
  | vmulh (w : Width) (d : Vr) (a : Vr) (b : Vr)
  /-- VMULHN (R169) -/
  | vmulhn (w : Width) (d : Vr) (a : Vr) (b : Vr)
  /-- VMAD (R169) -/
  | vmad (w : Width) (d : Vr) (a : Vr) (b : Vr)
  /-- VDOT4 (R169) -/
  | vdot4 (n : Bool) (d : Vr) (a : Vr) (b : Vr)
  /-- VAND (R170) -/
  | vand (w : Width) (d : Vr) (a : Vr) (b : Vr)
  /-- VOR (R170) -/
  | vor (w : Width) (d : Vr) (a : Vr) (b : Vr)
  /-- VXOR (R170) -/
  | vxor (w : Width) (d : Vr) (a : Vr) (b : Vr)
  /-- VANDN (R170) -/
  | vandn (w : Width) (d : Vr) (a : Vr) (b : Vr)
  /-- VSHL (R170) -/
  | vshl (w : Width) (d : Vr) (a : Vr) (b : Vr)
  /-- VSHR (R170) -/
  | vshr (w : Width) (d : Vr) (a : Vr) (b : Vr)
  /-- VSRA (R170) -/
  | vsra (w : Width) (d : Vr) (a : Vr) (b : Vr)
  /-- VCMPEQ (R171) -/
  | vcmpeq (w : Width) (d : Pr) (a : Vr) (b : Vr)
  /-- VCMPNE (R171) -/
  | vcmpne (w : Width) (d : Pr) (a : Vr) (b : Vr)
  /-- VCMPLT (R171) -/
  | vcmplt (w : Width) (d : Pr) (a : Vr) (b : Vr)
  /-- VCMPLE (R171) -/
  | vcmple (w : Width) (d : Pr) (a : Vr) (b : Vr)
  /-- VCMPLTN (R171) -/
  | vcmpltn (w : Width) (d : Pr) (a : Vr) (b : Vr)
  /-- VCMPLEN (R171) -/
  | vcmplen (w : Width) (d : Pr) (a : Vr) (b : Vr)
  /-- VSEL (R172) -/
  | vsel (d : Vr) (a : Vr) (b : Vr)
  /-- VBCAST (R173) -/
  | vbcast (w : Width) (d : Vr) (a : Gpr)
  /-- VBCAST_IMM (R173) -/
  | vbcastImm (w : Width) (d : Vr) (i : Imm)
  /-- VIOTA (R173) -/
  | viota (w : Width) (d : Vr) (a : Gpr)
  /-- VMOVP_TO_PRED (R173) -/
  | vmovpToPred (d : Pr) (a : Vr)
  /-- VMOVP_TO_VEC (R173) -/
  | vmovpToVec (d : Vr) (a : Pr)
  /-- VPERM (R174) -/
  | vperm (w : Width) (d : Vr) (a : Vr) (b : Vr)
  /-- VROT (R174) -/
  | vrot (w : Width) (d : Vr) (a : Vr) (b : Gpr)
  /-- VZIP (R174) -/
  | vzip (w : Width) (d : Vr) (a : Vr) (b : Vr)
  /-- VUNZIP (R174) -/
  | vunzip (w : Width) (d : Vr) (a : Vr) (b : Vr)
  /-- VREDADD (R176) -/
  | vredadd (w : Width) (d : Gpr) (a : Vr)
  /-- VREDMIN (R176) -/
  | vredmin (w : Width) (n : Bool) (d : Gpr) (a : Vr)
  /-- VREDMAX (R176) -/
  | vredmax (w : Width) (n : Bool) (d : Gpr) (a : Vr)
  /-- VREDAND (R176) -/
  | vredand (w : Width) (d : Gpr) (a : Vr)
  /-- VREDOR (R176) -/
  | vredor (w : Width) (d : Gpr) (a : Vr)
  /-- VSCANADD (R177) -/
  | vscanadd (w : Width) (d : Vr) (a : Vr)
  /-- VSCANMAX (R177) -/
  | vscanmax (w : Width) (n : Bool) (d : Vr) (a : Vr)
  /-- VEXTR (R175) -/
  | vextr (w : Width) (n : Bool) (d : Gpr) (a : Vr) (b : Gpr)
  /-- VINS (R175) -/
  | vins (w : Width) (d : Vr) (a : Gpr) (b : Gpr)
  /-- PAND (R178) -/
  | pand (d : Pr) (a : Pr) (b : Pr)
  /-- POR (R178) -/
  | por (d : Pr) (a : Pr) (b : Pr)
  /-- PXOR (R178) -/
  | pxor (d : Pr) (a : Pr) (b : Pr)
  /-- PNOT (R178) -/
  | pnot (d : Pr) (a : Pr)
  /-- PCNT (R178) -/
  | pcnt (d : Gpr) (a : Pr)
  /-- PFIRST (R178) -/
  | pfirst (d : Pr) (a : Pr)
  /-- VFADD (R179) -/
  | vfadd (t : VTy) (r : Rnd) (d : Vr) (a : Vr) (b : FSrc)
  /-- VFSUB (R179) -/
  | vfsub (t : VTy) (r : Rnd) (d : Vr) (a : Vr) (b : FSrc)
  /-- VFMUL (R179) -/
  | vfmul (t : VTy) (r : Rnd) (d : Vr) (a : Vr) (b : FSrc)
  /-- VFMIN (R179) -/
  | vfmin (t : VTy) (d : Vr) (a : Vr) (b : FSrc)
  /-- VFMAX (R179) -/
  | vfmax (t : VTy) (d : Vr) (a : Vr) (b : FSrc)
  /-- VFMA (R179) -/
  | vfma (t : VTy) (r : Rnd) (d : Vr) (a : Vr) (b : FSrc)
  /-- VFMS (R179) -/
  | vfms (t : VTy) (r : Rnd) (d : Vr) (a : Vr) (b : FSrc)
  /-- VFNMA (R179) -/
  | vfnma (t : VTy) (r : Rnd) (d : Vr) (a : Vr) (b : FSrc)
  /-- VFDIV (R180) -/
  | vfdiv (t : VTy) (r : Rnd) (d : Vr) (a : Vr) (b : Vr)
  /-- VFSQRT (R180) -/
  | vfsqrt (t : VTy) (r : Rnd) (d : Vr) (a : Vr)
  /-- VFRCP (R180) -/
  | vfrcp (t : VTy) (d : Vr) (a : Vr)
  /-- VFRSQ (R180) -/
  | vfrsq (t : VTy) (d : Vr) (a : Vr)
  /-- VFCMPEQ (R171) -/
  | vfcmpeq (t : VTy) (d : Pr) (a : Vr) (b : Vr)
  /-- VFCMPNE (R171) -/
  | vfcmpne (t : VTy) (d : Pr) (a : Vr) (b : Vr)
  /-- VFCMPLT (R171) -/
  | vfcmplt (t : VTy) (d : Pr) (a : Vr) (b : Vr)
  /-- VFCMPLE (R171) -/
  | vfcmple (t : VTy) (d : Pr) (a : Vr) (b : Vr)
  /-- VFCMPUN (R171) -/
  | vfcmpun (t : VTy) (d : Pr) (a : Vr) (b : Vr)
  /-- VCVT (R182) -/
  | vcvt (c : Cvt) (r : Rnd) (n : Bool) (d : Vr) (a : Vr)
  /-- VQMX (R183) -/
  | vqmx (t : STy) (m : MTy) (n : Bool) (d : Vr) (a : Vr)
  /-- VDQMX (R183) -/
  | vdqmx (t : STy) (m : MTy) (d : Vr) (a : Vr)
  /-- VFEXP2 (R184) -/
  | vfexp2 (t : STy) (d : Vr) (a : Vr)
  /-- VFLOG2 (R184) -/
  | vflog2 (t : STy) (d : Vr) (a : Vr)
  /-- VFTANH (R184) -/
  | vftanh (t : STy) (d : Vr) (a : Vr)
  /-- VFSIGM (R184) -/
  | vfsigm (t : STy) (d : Vr) (a : Vr)
  /-- VSMX (R185) -/
  | vsmx (c : BitVec 3) (d : Vr) (a : Vr) (b : Vr)
  /-- VFREDADD (R176) -/
  | vfredadd (t : VTy) (r : Rnd) (d : Gpr) (a : Vr)
  /-- VFREDMAX (R176) -/
  | vfredmax (t : VTy) (d : Gpr) (a : Vr)
  /-- VFREDMIN (R176) -/
  | vfredmin (t : VTy) (d : Gpr) (a : Vr)
  /-- VFABS (R181) -/
  | vfabs (t : VTy) (d : Vr) (a : Vr)
  /-- VFNEG (R181) -/
  | vfneg (t : VTy) (d : Vr) (a : Vr)
  /-- VFCLASS (R181) -/
  | vfclass (t : VTy) (d : Vr) (a : Vr)
  /-- LD (R211) -/
  | ld (t : MemTy) (d : Gpr) (k : Kr) (b : Gpr)
  /-- LDI (R211) -/
  | ldi (t : MemTy) (d : Gpr) (k : Kr) (i : Imm)
  /-- ST (R211) -/
  | st (t : MemTy) (d : Gpr) (k : Kr) (b : Gpr)
  /-- STI (R211) -/
  | sti (t : MemTy) (d : Gpr) (k : Kr) (i : Imm)
  /-- VLD (R212) -/
  | vld (w : Width) (d : Vr) (k : Kr) (x : VIdx)
  /-- VST (R212) -/
  | vst (w : Width) (d : Vr) (k : Kr) (x : VIdx)
  /-- TLD (R232) -/
  | tld (e : TElem) (s : BitVec 4) (tr : BitVec 2) (d : Ob) (k : Kr) (x : Idx)
  /-- ROWACT (R231) -/
  | rowact (k : Kr) (x : Idx)
  /-- ROWPRE (R231) -/
  | rowpre (k : Kr) (x : Idx)
  /-- CAPLD (R215) -/
  | capld (d : Kr) (k : Kr) (b : Gpr)
  /-- CAPST (R215) -/
  | capst (d : Kr) (k : Kr) (b : Gpr)
  /-- CAPNARROW (R215) -/
  | capnarrow (d : Kr) (k : Kr) (b : Gpr)
  /-- CAPOFF (R215) -/
  | capoff (d : Gpr) (k : Kr) (s : BitVec 3)
  /-- MMA (R239) -/
  | mma (ov : Bool) (nt : Bool) (d : Acc) (a : Ob) (b : Ob)
  /-- MMAS (R239) -/
  | mmas (ov : Bool) (nt : Bool) (d : Acc) (a : Ob) (b : Ob)
  /-- MZERO (R240) -/
  | mzero (d : Acc)
  /-- MFMT (R237) -/
  | mfmt (f : MFmt)
  /-- TST (R242) -/
  | tst (d : Acc) (k : Kr) (x : Idx)
  /-- MEPI (R241) -/
  | mepi (m : BitVec 3) (t : FTy) (r : Rnd) (n : Bool) (a : Vr)
  /-- TLDACC (R235) -/
  | tldacc (d : Acc) (k : Kr) (x : Idx)
  /-- OBPUT (R236) -/
  | obput (d : ObAcc) (a : Vr) (b : Gpr)
  /-- OBGET (R236) -/
  | obget (d : Vr) (a : ObAcc) (b : Gpr)
  /-- MSTAT (R243) -/
  | mstat (d : Gpr) (s : BitVec 2)
  /-- REL (R57) -/
  | rel (sc : Scope)
  /-- ACQ (R64) -/
  | acq (sc : Scope) (d : Pr) (a : Gpr)
  /-- FENCE (R72) -/
  | fence (sc : Scope)
  /-- AMOADD (R219) -/
  | amoadd (t : AmoTy) (d : Gpr) (k : Kr) (x : Idx) (s : BitVec 3)
  /-- AMOMIN (R219) -/
  | amomin (t : AmoTy) (d : Gpr) (k : Kr) (x : Idx) (s : BitVec 3)
  /-- AMOMAX (R219) -/
  | amomax (t : AmoTy) (d : Gpr) (k : Kr) (x : Idx) (s : BitVec 3)
  /-- AMOAND (R219) -/
  | amoand (t : AmoTy) (d : Gpr) (k : Kr) (x : Idx) (s : BitVec 3)
  /-- AMOOR (R219) -/
  | amoor (t : AmoTy) (d : Gpr) (k : Kr) (x : Idx) (s : BitVec 3)
  /-- AMOXOR (R219) -/
  | amoxor (t : AmoTy) (d : Gpr) (k : Kr) (x : Idx) (s : BitVec 3)
  /-- AMOSWAP (R219) -/
  | amoswap (t : AmoTy) (d : Gpr) (k : Kr) (x : Idx) (s : BitVec 3)
  /-- CAS (R220) -/
  | cas (t : AmoTy) (d : Gpr) (k : Kr) (x : Idx)
  /-- LDC (R221) -/
  | ldc (d : Gpr) (k : Kr) (x : Idx)
  /-- LDF (R221) -/
  | ldf (d : Gpr) (k : Kr) (x : Idx)
  /-- STP (R221) -/
  | stp (d : Gpr) (k : Kr) (x : Idx)
  /-- SETE (R221) -/
  | sete (k : Kr) (x : Idx)
  /-- SETF (R221) -/
  | setf (d : Gpr) (k : Kr) (x : Idx)
  /-- FEQ (R221) -/
  | feq (d : Gpr) (k : Kr) (x : Idx)
  /-- SWARM (R352) -/
  | swarm (sc : Scope) (d : Gpr) (k : Kr) (x : Idx)
  /-- SWWAIT (R352) -/
  | swwait (d : Gpr) (k : Kr) (x : Idx)
  /-- SWADD (R352) -/
  | swadd (sc : Scope) (d : Gpr) (k : Kr) (x : Idx)
  /-- SWRD (R352) -/
  | swrd (d : Gpr) (k : Kr) (x : Idx)
  /-- BAR (R267) -/
  | bar (sc : Scope)
  /-- LOGQ (R223) -/
  | logq (d : Gpr) (a : Gpr) (s : BitVec 4)
  /-- MIRFL (R224) -/
  | mirfl (d : Gpr) (k : Kr) (b : Gpr)
  /-- CPY (R273) -/
  | cpy (a : Vr)
  /-- CPY_MULTICAST (R278) -/
  | cpyMulticast (a : Vr)
  /-- CPY_CONVERT (R279) -/
  | cpyConvert (a : Vr)
  /-- CPYF (R282) -/
  | cpyf (a : Vr)
  /-- COLL_ALLREDUCE (R288) -/
  | collAllreduce (sc : Scope) (a : Vr)
  /-- COLL_REDUCE_SCATTER (R288) -/
  | collReduceScatter (sc : Scope) (a : Vr)
  /-- COLL_ALL_GATHER (R288) -/
  | collAllGather (sc : Scope) (a : Vr)
  /-- COLL_XOR_PARITY (R288) -/
  | collXorParity (sc : Scope) (a : Vr)
  /-- SEND (R259) -/
  | send (u : Bool) (d : Pr) (a : Vr) (b : Gpr)
  /-- RECV (R260) -/
  | recv (d : Gpr) (a : Option Vr)
  /-- RCALL_RD (R290) -/
  | rcallRd (n : BitVec 3) (d : Vr) (k : Kr) (x : Idx)
  /-- RCALL_WR (R290) -/
  | rcallWr (n : BitVec 3) (d : Vr) (k : Kr) (x : Idx)
  /-- RCALL_ADD (R290) -/
  | rcallAdd (d : Vr) (k : Kr) (x : Idx)
  /-- RCALL_SWAP (R290) -/
  | rcallSwap (d : Vr) (k : Kr) (x : Idx)
  /-- RCALL_CAS (R290) -/
  | rcallCas (d : Vr) (k : Kr) (x : Idx)
  /-- LAUNCH (R264) -/
  | launch (d : Gpr) (a : Vr) (b : Kr)
  /-- LAUNCHI (R264) -/
  | launchi (d : Gpr) (a : Vr) (b : Kr)
  /-- JOIN (R261) -/
  | join (d : Gpr) (a : Gpr)
  /-- EPOLL (R263) -/
  | epoll (d : Gpr) (s : BitVec 2)
  /-- SOPEN (R341) -/
  | sopen (d : Gpr) (a : Vr)
  /-- SCLOSE (R342) -/
  | sclose (a : Gpr)
  /-- SFRAME (R343) -/
  | sframe (d : Pr) (a : Vr) (b : Gpr)
  /-- SGEN (R344) -/
  | sgen (d : Gpr) (a : Gpr)
  /-- SGEN_ABANDON (R344) -/
  | sgenAbandon (d : Gpr) (a : Gpr)
  /-- SPLAY (R345) -/
  | splay (a : Gpr) (b : Gpr)
  /-- STRUNC (R345) -/
  | strunc (a : Gpr) (b : Gpr)
  /-- SSNAP (R346) -/
  | ssnap (d : Gpr) (a : Gpr) (b : Gpr)
  /-- SKVADDR (R346) -/
  | skvaddr (d : Gpr) (a : Gpr) (b : Gpr)
  /-- SSTAT (R346) -/
  | sstat (d : Vr) (a : Gpr)
  /-- SCOMMIT (R345) -/
  | scommit (a : Gpr) (b : Gpr)
  /-- SNEXT (R344) -/
  | snext (d : Gpr) (a : Gpr)
  /-- TRAP (R370) -/
  | trap (i : Imm)
  /-- CSRR (R373) -/
  | csrr (d : Gpr) (i : Imm)
  /-- CSRW (R373) -/
  | csrw (a : Gpr) (i : Imm)
  /-- CSRW_CTXBASE (R136) -/
  | csrwCtxbase (a : Gpr) (i : Imm)
  /-- CSRW_LOGSIZE (R138) -/
  | csrwLogsize (a : Gpr) (i : Imm)
  /-- CSRW_MIRSIZE (R138) -/
  | csrwMirsize (a : Gpr) (i : Imm)
  /-- CSRW_URGLIM (R138) -/
  | csrwUrglim (a : Gpr) (i : Imm)
  /-- CSRW_SEED (R90) -/
  | csrwSeed (a : Gpr) (i : Imm)
  /-- CSRW_WINBASE (R141) -/
  | csrwWinbase (a : Gpr) (i : Imm)
  /-- CSRW_RECTDEF (R141) -/
  | csrwRectdef (a : Gpr) (i : Imm)
  /-- YIELD (R268) -/
  | yield (a : Gpr)
  /-- WAKE (R268) -/
  | wake (a : Gpr)
  /-- URG (R374) -/
  | urg (e : BitVec 4) (d : Pr) (a : Gpr) (b : Gpr)
  /-- REGEVICT (R376) -/
  | regevict (d : Gpr) (a : Gpr)
  /-- REGLOAD (R377) -/
  | regload (d : Gpr) (a : Gpr)
  /-- CNTRD (R356) -/
  | cntrd (d : Gpr) (n : BitVec 4)
  /-- CNTCLR (R356) -/
  | cntclr (a : Gpr)
  /-- CNTSUM (R356) -/
  | cntsum (sc : Scope) (d : Gpr) (a : Gpr)
  /-- BRK (R370) -/
  | brk (i : Imm)
  /-- MFENCE (R244) -/
  | mfence
  /-- MFENCE_CORE (R244) -/
  | mfenceCore
  /-- MIRFL_ALL (R224) -/
  | mirflAll
  /-- TRET (R368) -/
  | tret
  /-- TRET_HALT (R368) -/
  | tretHalt
  /-- TRET_ABORT (R368) -/
  | tretAbort
  /-- PARK (R268) -/
  | park
  /-- HALT (R269) -/
  | halt
  /-- STEP (R372) -/
  | step
  /-- STAGED_START (R393). -/
  | stagedStart
  /-- START_EPISODE (R395); State.evt holds core. -/
  | startEpisode
  /-- PHAEKUS_HEARTBEAT (R397); State.evt holds missed. -/
  | phaekusHeartbeat
  /-- FAILOVER (R397); State.evt holds passed. -/
  | failover
  /-- CLOCK_STEP_CHANGE (R401); State.evt holds stepNo. -/
  | clockStepChange
  /-- QUAD_RESERVATION_UPDATE (R403); State.evt holds quad, cap. -/
  | quadReservationUpdate
  /-- THERMAL_SAMPLE (R404); State.evt holds core, logic, dram. -/
  | thermalSample
  /-- VAULT_REQUEST_ARRIVAL (R189); State.evt holds core, req. -/
  | vaultRequestArrival
  /-- VAULT_BEAT (R191); State.evt holds core. -/
  | vaultBeat
  /-- ROW_REPAIR_END (R192); State.evt holds core, bank. -/
  | rowRepairEnd
  /-- REFRESH_START (R190); State.evt holds core, bank. -/
  | refreshStart
  /-- REFRESH_END (R190); State.evt holds core, bank. -/
  | refreshEnd
  /-- LANE_FAILURE (R193); State.evt holds core. -/
  | laneFailure
  /-- LANE_REPAIR_END (R193); State.evt holds core. -/
  | laneRepairEnd
  /-- VAULT_BUS_STALL_END (R194); State.evt holds core. -/
  | vaultBusStallEnd
  /-- WRITE_QUEUE_SEND (R209); State.evt holds core. -/
  | writeQueueSend
  /-- REGISTER_LINE_FILL (R133); State.evt holds core, slot, line. -/
  | registerLineFill
  /-- VECTOR_START (R19); State.evt holds core. -/
  | vectorStart
  /-- YIELD_END (R268); State.evt holds core, slot. -/
  | yieldEnd
  /-- WALK_START (R315); State.evt holds core, slot, obj, page. -/
  | walkStart
  /-- WALK_COMPLETE (R316); State.evt holds core, slot, obj, page. -/
  | walkComplete
  /-- WALK_RETRY (R315); State.evt holds core, slot, obj, page. -/
  | walkRetry
  /-- SHOOTDOWN (R312); State.evt holds pkt. -/
  | shootdown
  /-- TABLE_WRITE_SETTLED (R312); State.evt holds write. -/
  | tableWriteSettled
  /-- FENCE_MARKER (R317); State.evt holds pkt. -/
  | fenceMarker
  /-- DRAINED_PACKET (R317); State.evt holds pkt. -/
  | drainedPacket
  /-- LOG_SHIP (R58); State.evt holds core. -/
  | logShip
  /-- LOG_ENTRY_APPLY (R202); State.evt holds pkt. -/
  | logEntryApply
  /-- LOG_ACK (R58); State.evt holds pkt. -/
  | logAck
  /-- HOME_READ (R63); State.evt holds pkt. -/
  | homeRead
  /-- HOME_READ_REPLY (R63); State.evt holds pkt. -/
  | homeReadReply
  /-- VAULT_AGENT_REQUEST (R291); State.evt holds core. -/
  | vaultAgentRequest
  /-- HOME_ATOMIC (R68); State.evt holds pkt. -/
  | homeAtomic
  /-- HOME_FULL_EMPTY (R222); State.evt holds pkt. -/
  | homeFullEmpty
  /-- HOME_SYNC_WORD (R349); State.evt holds pkt. -/
  | homeSyncWord
  /-- HOME_WAIT_RETRY (R258); State.evt holds pkt. -/
  | homeWaitRetry
  /-- REMOTE_REPLY (R127); State.evt holds pkt. -/
  | remoteReply
  /-- POSTED_PERFORMED (R72); State.evt holds pkt. -/
  | postedPerformed
  /-- SWITCH_MERGE_FORWARD (R73); State.evt holds merge. -/
  | switchMergeForward
  /-- ACQ_QUERY (R64); State.evt holds pkt. -/
  | acqQuery
  /-- ACQ_WRITER_DONE (R64); State.evt holds pkt. -/
  | acqWriterDone
  /-- LOGQ_QUERY (R223); State.evt holds pkt. -/
  | logqQuery
  /-- MESSAGE_ARRIVAL (R252); State.evt holds pkt. -/
  | messageArrival
  /-- WAKE_ARRIVAL (R268); State.evt holds pkt. -/
  | wakeArrival
  /-- NAK_ARRIVAL (R259); State.evt holds pkt. -/
  | nakArrival
  /-- HANDLER_DISPATCH (R33); State.evt holds core. -/
  | handlerDispatch
  /-- SUBMISSION_ARRIVAL (R265); State.evt holds pkt. -/
  | submissionArrival
  /-- LAUNCH_ACCEPT (R265); State.evt holds queue. -/
  | launchAccept
  /-- LAUNCH_COUNTED (R266); State.evt holds queue. -/
  | launchCounted
  /-- LAUNCH_PACKET_ARRIVAL (R266); State.evt holds pkt. -/
  | launchPacketArrival
  /-- GROUPS_PENDING (R266); State.evt holds die, launch. -/
  | groupsPending
  /-- GROUP_START (R31); State.evt holds core. -/
  | groupStart
  /-- DIE_REPORT (R43); State.evt holds pkt. -/
  | dieReport
  /-- COMPLETION_RING_WRITE (R389); State.evt holds link. -/
  | completionRingWrite
  /-- BARRIER_ARRIVAL (R267); State.evt holds pkt. -/
  | barrierArrival
  /-- ENERGY_LEASE_REQUEST (R358); State.evt holds pkt. -/
  | energyLeaseRequest
  /-- ENERGY_LEASE_GRANT (R358); State.evt holds pkt. -/
  | energyLeaseGrant
  /-- COPY_COMMAND_START (R275); State.evt holds core. -/
  | copyCommandStart
  /-- COPY_SEGMENT (R426); State.evt holds core. -/
  | copySegment
  /-- SEGMENT_APPLY (R276); State.evt holds pkt. -/
  | segmentApply
  /-- COPY_COMPLETION (R281); State.evt holds core. -/
  | copyCompletion
  /-- FOLLOW_ON_ISSUE (R280); State.evt holds core. -/
  | followOnIssue
  /-- HOST_FLUSH_READ (R391); State.evt holds core. -/
  | hostFlushRead
  /-- COLL_DESCRIPTOR_ARRIVAL (R287); State.evt holds pkt. -/
  | collDescriptorArrival
  /-- COLL_INSTANCE_RUN (R288); State.evt holds die, inst. -/
  | collInstanceRun
  /-- MATRIX_GRANT (R230); State.evt holds quad. -/
  | matrixGrant
  /-- MATRIX_PERFORM (R230); State.evt holds quad. -/
  | matrixPerform
  /-- TST_CHUNK_WRITE (R242); State.evt holds core. -/
  | tstChunkWrite
  /-- FLIT_TRANSMIT (R297); State.evt holds track. -/
  | flitTransmit
  /-- FLIT_RECEIVE (R298); State.evt holds track. -/
  | flitReceive
  /-- RETRY_REQUEST (R300); State.evt holds track. -/
  | retryRequest
  /-- TRACK_DEATH (R301); State.evt holds track. -/
  | trackDeath
  /-- LINK_DEATH (R302); State.evt holds link. -/
  | linkDeath
  /-- URGENT_NAK_RESEND (R301); State.evt holds pkt. -/
  | urgentNakResend
  /-- END_TO_END_ACK (R301); State.evt holds pkt. -/
  | endToEndAck
  /-- FRAME_ARRIVAL (R334); State.evt holds pkt. -/
  | frameArrival
  /-- STREAM_OP_PERFORM (R338); State.evt holds die, op. -/
  | streamOpPerform
  /-- TRUNCATION_EVENT (R337); State.evt holds pkt. -/
  | truncationEvent
  /-- TRAP_DELIVERY (R362); State.evt holds core. -/
  | trapDelivery
  /-- URG_REQUEST_ARRIVAL (R374); State.evt holds pkt. -/
  | urgRequestArrival
  /-- URGENT_EPISODE_START (R375); State.evt holds core. -/
  | urgentEpisodeStart
  /-- URG_LIMIT (R40); State.evt holds core. -/
  | urgLimit
  /-- DEADLOCK (R46). -/
  | deadlock
  /-- QUIET_PERIOD (R392). -/
  | quietPeriod
  /-- CONTAINMENT (R381); State.evt holds core. -/
  | containment
  /-- HOST_BAR_WRITE (R386); State.evt holds link, bar, off, val. -/
  | hostBarWrite
  /-- QRES_WRITE (R386); State.evt holds quad, val. -/
  | qresWrite
  /-- CONTREQ_WRITE (R386); State.evt holds phys. -/
  | contreqWrite
  /-- BAR2_TABLE_WRITE (R387); State.evt holds link, off, val. -/
  | bar2TableWrite
  /-- LAUNCH_DOORBELL_DIRECT (R388); State.evt holds link, queue. -/
  | launchDoorbellDirect
  /-- LAUNCH_DOORBELL_INDIRECT (R388); State.evt holds link, queue. -/
  | launchDoorbellIndirect
  /-- LAUNCH_RESULT_READ (R388); State.evt holds link, queue. -/
  | launchResultRead
  /-- FRAME_DOORBELL (R390); State.evt holds link. -/
  | frameDoorbell
  /-- FRAME_RESULT_READ (R390); State.evt holds link. -/
  | frameResultRead
  /-- ILLEGAL_ENCODING (R115); State.evt holds cause, hw, pos. -/
  | illegalEncoding
  /-- INSTRUCTION_FETCH_FAULT (R157); State.evt holds cause, addr, val. -/
  | instructionFetchFault
  /-- PCIE_ERROR (R391); State.evt holds link. -/
  | pcieError
deriving DecidableEq, Repr

end Sys2Proof
end

