-- ==== Sys2Proof/Machine/State.lean ====
section
/-!
DEFINITION. The state of the machine as plain data: every register, memory, table, queue and counter the spec gives it,
the events that are due, and the fields of the model's own that INVENTORY.md names.
-/
namespace Sys2Proof.Machine

/-- Why a step stops. No meaning of this model stops with a fault: the constructor exists for a machine that has
left the start sequence for good (raised by nothing; safe). -/
inductive Fault where
  /-- Never raised; a place for a stop the spec might name (safe). -/
  | stopped
deriving DecidableEq, Repr

/-- Why a step has no meaning. -/
inductive Refusal where
  /-- The arm of the named row has no meaning yet (safe): raised by `exec` alone. -/
  | notModelled (mnemonic : String)
deriving DecidableEq, Repr

/-- A sparse map with numeric keys, listed in rising order; the accessors give an unlisted key its default. -/
abbrev SMap (α : Type) := List (Nat × α)

/-- The states of a strand (R32), in the order of `STATUS`.`STATE` (R137). -/
inductive Run where
  | running | parked | paused | trapped | swapped | halted | contained | empty
deriving DecidableEq, Repr

/-- The reasons for parking (R37), in the order of `PARKW` (R137). -/
inductive Why where
  | none | word | inbox | sync | barrier | line | walk | logFull | remote | acquire
deriving DecidableEq, Repr

/-- An event with its arguments. -/
structure Ev where
  ev : Instr
  args : List Nat := []
deriving DecidableEq, Repr

/-- An event that falls due at a clock. -/
structure Due where
  clock : Nat
  ev : Instr
  args : List Nat := []
deriving DecidableEq, Repr

/-- The decoded words of an object entry (R306). -/
structure ObjEnt where
  swz : Nat := 0
  paged : Bool := false
  sec : Bool := false
  kind : Nat := 0
  gen : Nat := 0
  len : Nat := 0
  hlink : Nat := 0
  hpkg : Nat := 0
  hcnt : Nat := 0
  hcore : Nat := 0
  glog : Nat := 0
  hmode : Nat := 0
  loc : Nat := 0
  /-- Not one of the rows of R307, or `KIND` 0. -/
  ok : Bool := false
deriving DecidableEq, Repr

/-- An object TLB entry (R314): an unpaged object's entry gives the home of every byte; a paged one holds its page's
home core, base address and old home. -/
structure Tlb where
  slot : Nat
  obj : Nat
  page : Nat
  ent : ObjEnt
  mapped : Bool
  pageCore : Nat
  pageBase : Nat
  pageLine : Nat
  used : Nat
  /-- A shootdown has come since the walk that brought it ended: it serves the waiting instruction alone (R312, R313). -/
  stale : Bool := false
deriving DecidableEq, Repr

/-- The instruction set's atomic members (R219). -/
inductive Amo where
  | add | min | max | and | or | xor | swap
deriving DecidableEq, Repr
/-- The full/empty members (R221). -/
inductive Fe where
  | ldc | ldf | stp | sete | setf | feq
deriving DecidableEq, Repr
/-- The sync-word members (R352), with the engine's arrivals. -/
inductive Sw where
  | swarm | swwait | swadd | swrd
deriving DecidableEq, Repr

/-- A store-log entry (R202): the header's fields, its data and its log position. -/
structure LogEnt where
  pos : Nat
  kind : Nat
  size : Nat
  mask : Nat
  off : Nat
  gen : Nat
  obj : Nat
  data : BitVec 512
  tag : Bool
  /-- The home and address of its first byte at the append; they are looked up again when it is shipped (R58). -/
  home : Nat := 0
  addr : Nat := 0
  /-- Its ring bytes have been asked of the vault, and have come (R189). -/
  asked : Bool := false
  ready : Bool := false
  shipped : Bool := false
  acked : Bool := false
  /-- A granule of its ring bytes was poisoned when it was shipped (R191, R202). -/
  bad : Bool := false
deriving DecidableEq, Repr

/-- A step asked of the place that serves a word (R68, R69). -/
inductive WordOp where
  | amo (m : Amo) (t : AmoTy) (v : Word)
  | cas (t : AmoTy) (cmp new : Word)
  | fe (m : Fe) (v : Word)
  | sw (m : Sw) (v : Word)
deriving DecidableEq, Repr

/-- What is asked of a home vault agent (R68, R69, R275, R290, R58). -/
inductive HomeOp where
  | readLine
  | word (op : WordOp)
  | rcRead (n : Nat)
  | rcWrite (n : Nat) (v : Vec)
  | rcAdd (v : Word)
  | rcSwap (v : Word)
  | rcCas (cmp new : Word)
  | entry (e : LogEnt)
  /-- A write of a table entry by the device itself, or by the host: its bytes, and the group that waits for it to settle
(R310, R387). -/
  | entryPut (n v : Nat) (host : Bool) (group : Option (Nat × Nat))
deriving DecidableEq, Repr

/-- A request to a home: the operation, the issuing core and slot, the object as translated, the vault address at the
home, and the number of the posted operation it performs, if it is one. -/
structure Req where
  op : HomeOp
  core : Nat
  slot : Nat
  obj : Nat
  gen : Nat
  off : Nat
  home : Nat
  addr : Nat
  posted : Option Nat
  window : Bool
  /-- The tail of the issuing core's log at issue: what its line drain covers (R70, R210). -/
  tail : Nat := 0
  /-- The account that its work is charged to (R357). -/
  acct : Option Nat := none
deriving DecidableEq, Repr

/-- How a parked instruction ends when what it waits for has come (R127, R208). -/
inductive Fin where
  /-- Nothing but the advance of the program counter. -/
  | none
  /-- g[d] := the `n` bytes at hand, zero- or sign-extended. -/
  | load (d : Gpr) (n : Nat) (zx : Bool)
  /-- Elements of a vector load: (element, index of its first byte). -/
  | vload (d : Vr) (w : Nat) (els : List (Nat × Nat))
  /-- k[d] := the granule at hand. -/
  | capld (d : Kr)
  /-- v[d] bytes 0 to n − 1 := the bytes at hand (`RCALL`). -/
  | vbytes (d : Vr) (n : Nat)
  /-- g[d] := a word that the reply carries. -/
  | word (d : Gpr)
  /-- p[d] and g[b] := an outcome code (`SEND`, `SFRAME`). -/
  | outcome (d : Pr) (b : Gpr)
  /-- p[d] := whether the reply's word is nonzero (`URG`, `ACQ`). -/
  | pred (d : Pr)
  /-- `RECV`: the entry is taken when the slot resumes. -/
  | recv (d : Gpr) (a : Option Vr)
  /-- `JOIN` of a launch. -/
  | join (d : Gpr) (launch : Nat)
  /-- `PARK`. -/
  | park
  /-- `HALT`. -/
  | halt
  /-- The instruction issues again from its start (walks, register lines, full logs and queues). -/
  | again
  /-- A tile load of `ob` or an accumulator landing bytes. -/
  | tile (acc : Bool) (d : Nat) (e : TElem) (shape tr : Nat) (bytes : Nat)
  /-- `OBGET` or another wait for a matrix operation. -/
  | matrix (op : Nat)
  /-- `MFENCE`: the matrix operations numbered in the list. -/
  | mfence (ops : List Nat)
  /-- `FENCE` at a scope: the posted operations numbered in the list. -/
  | fence (ops : List Nat)
  /-- `SSTAT`: the entry bytes to v[d]. -/
  | sstat (d : Vr)
  /-- `REGLOAD` of a slot. -/
  | regload (d : Gpr) (slot : Nat)
  /-- A store whose last line waits for a write-queue entry (R209). -/
  | queued
  /-- An atomic on a word of the core's own vault, performed as its read is served: g[d] := the old value (R208). -/
  | atomic (d : Gpr) (op : WordOp) (addr : Nat)
deriving DecidableEq, Repr

/-- A run of bytes that a load still wants: the index of its first byte in the instruction, its object offset, its
address in the issuing core's vault (for an object of that vault) and its length. -/
structure Piece where
  key : Nat
  off : Nat
  addr : Nat
  n : Nat
  /-- The home core, for the pieces of a store that leaves the core. -/
  home : Nat := 0
deriving DecidableEq, Repr

/-- What a parked slot waits for: how it ends, how many arrivals are outstanding, the bytes gathered so far, their
tags, the bytes still wanted, the number of the capability register, an operation that waits for its line drain, the
word a reply brought, a trap that the arrivals raised, and the mirror lines asked for. -/
structure Wait where
  fin : Fin
  left : Nat := 0
  bytes : List Host.Cell := []
  reads : List Piece := []
  knum : Nat := 0
  req : Option Req := none
  tag : Bool := false
  word : Word := 0
  err : Option (Nat × Nat × Nat) := none
  lines : List (Nat × Nat) := []
  /-- Bytes that the overlay or the mirror gives, by where the vault holds them (R187, R204). -/
  near : List Piece := []
  /-- The object offset that a fault of its replies names (R291). -/
  eoff : Option Nat := none
  next : Nat := 0
  start : Nat := 0
  /-- Names this wait to the replies it is for. -/
  ticket : Nat := 0
  /-- The register lines that the instruction which waits for fills needs (R134). -/
  needs : List Nat := []
deriving DecidableEq, Repr

/-- A posted operation that has left the core (R71): its number, what it targets and, for window atomics, its
operation (R321). -/
structure Posted where
  num : Nat
  home : Nat
  obj : Nat
  off : Nat
  window : Option (Amo × AmoTy)
  /-- It is an atomic, which discards the mirror copy of its line when it has been performed (R68). -/
  atomic : Bool := false
  /-- The log tail at its issue: a later entry of its line is shipped after it (R210). -/
  tail : Nat := 0
deriving DecidableEq, Repr

/-- A posted operation held in the core (R70, R321, R366), as a replay entry holds it. -/
structure Held where
  cap : Cap
  index : Nat
  data : Word
  rkind : Nat
  member : Nat
  type : Nat
  reg : Nat
  num : Nat
  req : Req
deriving DecidableEq, Repr

/-- An entry of a pair's load-value queue (R42, R245): the registers that an instruction of the leading copy wrote, as
(kind of register, code, value), L of its tile load, and, for an instruction that draws random numbers, the generator before
it (R90). -/
structure PairVal where
  regs : List (Nat × Nat × Nat)
  seed : Word
  landed : Nat
deriving DecidableEq, Repr

/-- The registers of a strand that its instructions write at issue. -/
structure RegFile where
  pc : Nat
  code : Cap
  g : SMap Word
  v : SMap Vec
  p : SMap Pred
  k : SMap Cap
  seed : Word
  done : Nat
deriving DecidableEq, Repr

/-- A decoded chain: its guard, its instruction, its length in halfwords, its base word and that word's position (R102). -/
structure Chain where
  gd : Guard
  ins : Instr
  len : Nat
  base : Half
  pos : Nat
deriving DecidableEq, Repr

/-- An output that the comparator of a pair holds (R42): its kind, address and data as the leading copy gave them, the bytes
of store data it takes, and the leading copy's instruction and registers at its issue, with which it is performed when it has
been matched. -/
structure PairOut where
  vals : List Nat
  size : Nat
  ins : Chain
  regs : RegFile
deriving DecidableEq, Repr

/-- A trap raised and not yet delivered (R362). -/
structure Raise where
  cause : Nat
  addr : Nat
  value : Nat
  resume : Nat
  noResume : Bool
  cycle : Nat
  status : Nat
deriving DecidableEq, Repr

/-- A slot of the barrel (R17) with the registers of its strand (R125, R136), the transient state of its strand and
the model's own bookkeeping of waits. The spec gives the pc and the code capability no value at reset (R156): they are 0 and
untagged (assumption 69). -/
structure Slot where
  run : Run := .empty
  why : Why := .none
  /-- The state a Paused, Trapped or Swapped strand returns to. -/
  back : Run := .running
  pc : Nat := 0
  code : Cap := ⟨0, false⟩
  g : SMap Word := []
  v : SMap Vec := []
  p : SMap Pred := []
  k : SMap Cap := []
  strand : Nat := 0
  group : Nat := 0
  launch : Nat := 0
  world : Bool := false
  step : Bool := false
  prio : Nat := 0
  trail : Bool := false
  lead : Bool := false
  seed : Word := 0
  tcause : Nat := 0
  taddr : Nat := 0
  tvalue : Nat := 0
  ctxbase : Nat := 0
  /-- The resident group (bank frame) of the strand, 16 for the supervisor. -/
  bank : Nat := 16
  wake : Bool := false
  /-- The clock before which a `YIELD` keeps the slot idle. -/
  idle : Nat := 0
  wait : Option Wait := none
  walked : List Tlb := []
  posted : List Posted := []
  held : List Held := []
  later : List Raise := []
  raised : Option Raise := none
  /-- The clock from which the last vector instruction's results can be read (R19). -/
  vready : Nat := 0
  /-- L of the last tile load (R243). -/
  landed : Nat := 0
  /-- Instructions completed, by which the copies of a pair keep step (R42). -/
  done : Nat := 0
  /-- The comparator of a pair, in its leading copy: outputs not yet matched, oldest first (R42). -/
  outs : List PairOut := []
  /-- The load-value queue of a pair, in its leading copy (R42). -/
  lvq : List PairVal := []
  /-- The leading copy's own registers while an output that lies behind it is performed (R42). -/
  kept : Option RegFile := none
  /-- What the trailing copy has issued and the leading copy performs for both (R42). -/
  joined : Option Chain := none
  /-- The clock at which the slot last came back into the rotation: both copies of a pair do on one rotation (R42). -/
  since : Nat := 0
  /-- Issued and not yet completed by a leading copy: what its load-value entry will hold (R42). -/
  doing : Option Instr := none
  /-- The clock of the last arrival and the private registers that it wrote, by kind, code and lanes (R128). -/
  arrival : Option (Nat × List (Nat × Nat × Pred)) := none
  /-- The image in the vault, not the slot, holds the registers: its strand is Swapped, or `CTXBASE` has moved (R131). -/
  away : Bool := false
  /-- The registers before the last issue, the clock at which that issue's writes commit, and the private registers that they
  write, by kind and code (R127, R128). -/
  before : Option (Nat × RegFile × List (Nat × Nat)) := none
  /-- The lanes of a vector register that the last issue writes (R128). -/
  lanes : Pred := BitVec.allOnes 256
  /-- `CTXBASE` has been given to the slot, so an image lies there (R136). -/
  based : Bool := false
  /-- The instruction that it issues next has been parked before and issues again: it has begun (R361). -/
  redo : Bool := false
  /-- Scoreboard entries that an instruction which issues again has taken (R229). -/
  hold : Option Nat := none
  /-- Its reason was satisfied while it was Swapped (R376). -/
  due : Bool := false
deriving DecidableEq, Repr

/-- An inbox entry (R253). -/
structure Entry where
  kind : Nat
  tag : Word
  stat : Nat := 0
  sec : Bool := true
  urgc : Bool := false
  spkg : Nat := 0
  score : Nat := 0
  sslot : Nat := 0
  payload : BitVec 384 := 0
  /-- The slot that takes a device-generated entry; the resident group of a kind 0 or 1 entry. -/
  taker : Nat := 0
  /-- A frame fault that the dispatched handler takes first (R336): cause, address and value. -/
  fault : Option (Nat × Nat × Nat) := none
  /-- The shared range that a completed command wrote (R77): object, first and last offset. -/
  wrote : Option (Nat × Nat × Nat) := none
deriving DecidableEq, Repr

/-- A reserved inbox entry (R254): the taker and what will fill it. -/
structure Resv where
  taker : Nat
  what : Nat
  num : Nat
deriving DecidableEq, Repr

/-- A launch as the sequencer and the dies know it (R28, R264). -/
structure Launch where
  id : Nat
  entry : Nat := 0
  groups : Nat := 0
  indirect : Bool := false
  strands : Nat := 0
  paired : Bool := false
  prio : Nat := 0
  world : Bool := false
  swz : Nat := 0
  scratch : Nat := 0
  dmask : Nat := 0
  qmask : Nat := 0
  deps : Nat := 0
  queue : Nat := 0
  quota : Nat := 0
  arg : Word := 0
  code : Cap := ⟨0, false⟩
  args : List Cap := []
  count : Cap := ⟨0, false⟩
deriving DecidableEq, Repr

/-- A resident group (R26, R31, R130): its launch, index, slots, scratchpad allocation, shared bank and parking
inbox. -/
structure Group where
  launch : Launch
  index : Nat
  slots : List Nat
  base : Nat
  len : Nat
  c : SMap Word := []
  w : SMap Vec := []
  parking : List Entry := []
  /-- The scratch entry's write has settled, so the group may issue (R310). -/
  settled : Bool := false
deriving DecidableEq, Repr

/-- The Pending groups of one launch on a core: first index, stride and count left (R266). -/
structure Deal where
  launch : Launch
  first : Nat
  stride : Nat
  left : Nat
  order : Nat
deriving DecidableEq, Repr

/-- A write to a shared register on its way to its commit clock (R127, R128). -/
structure ShWrite where
  clock : Nat
  slot : Nat
  bank : Nat
  vec : Bool
  reg : Nat
  word : Word
  val : Vec
  lanes : Pred
deriving DecidableEq, Repr

/-- A supervisor's store into image lines that the register cache holds, on its way to its commit clock (R127): its bytes
by vault address, and the tagged granule of a `CAPST`. -/
structure ImgWrite where
  clock : Nat
  cells : List Host.Cell
  cap : Option (Nat × Cap)
deriving DecidableEq, Repr

/-- A line of the register cache (R132, R134). -/
structure RcLine where
  addr : Nat
  used : Nat
  mark : Option Nat
  slot : Nat
  /-- Written since it was filled. -/
  dirty : Bool := false
deriving DecidableEq, Repr

/-- A mirror line (R203). -/
structure MirLine where
  obj : Nat
  line : Nat
  data : BitVec 512
  tags : BitVec 4
  used : Nat
  /-- Its way in its set. -/
  way : Nat := 0
deriving DecidableEq, Repr

/-- A waiter on a scratchpad word or on a shared word homed here (R258). -/
structure Waiter where
  key : Nat
  op : WordOp
  core : Nat
  slot : Nat
  acct : Option Nat := none
deriving DecidableEq, Repr

/-- The store log of a core (R55). -/
structure Log where
  tail : Nat := 0
  pubVault : Nat := 0
  pubQuad : Nat := 0
  pubDie : Nat := 0
  pubPkg : Nat := 0
  pubPod : Nat := 0
  pubSys : Nat := 0
  comp : Nat := 0
  recl : Nat := 0
  /-- `LOGSIZE` in MiB. -/
  size : Nat := 16
  ents : List LogEnt := []
  /-- The written-object filter (R61). -/
  filter : BitVec 1024 := 0
  /-- Shipping below this position is asked for by a line drain or an engine drain (R70, R75). -/
  drain : Nat := 0
  spill : Bool := false
  early : Bool := false
deriving DecidableEq, Repr

/-- Who asked the vault controller for beats, and what the last beat brings about. -/
inductive VCont where
  /-- A slot's load. -/
  | slot (n : Nat)
  /-- A tile load of a slot; bytes land beat by beat. -/
  | tile (n : Nat)
  /-- The write queue's line. -/
  | write (line : Nat)
  /-- A register-line fill. -/
  | fill (n : Nat) (line : Nat)
  /-- The vault agent's request, by packet. -/
  | agent (pkt : Nat)
  /-- The next kibibyte of a page that migrates away, by the migration's number (R317). -/
  | page (mig : Nat)
  /-- The next segment of a copy command, by its number (R291). -/
  | copy (num : Nat)
  /-- The log entry that is being shipped, by its position (R58). -/
  | ship (pos : Nat)
  /-- `ROWACT` and `ROWPRE`. -/
  | open
  | close
deriving DecidableEq, Repr

/-- A request at or on its way to the vault controller (R189). -/
structure VReq where
  id : Nat
  addr : Nat
  beats : Nat
  done : Nat := 0
  /-- The first beat's earliest clock. -/
  ready : Nat := 0
  arrived : Bool := false
  cont : VCont
  launch : Option Nat := none
  poison : Bool := false
  started : Bool := false
  /-- A refresh or a repair has made it wait for its row: it closed the row, or held the bank when the request came (R195). -/
  again : Bool := false
deriving DecidableEq, Repr

/-- A write-queue entry (R209): a line of the vault, the bytes of it that are written (bit i for byte i), and whether its
beat is on the way. -/
structure WqEnt where
  line : Nat
  mask : Nat := 0
  sent : Bool := false
  launch : Option Nat := none
deriving DecidableEq, Repr

/-- Whose write waits for an entry of the write queue (R209). -/
inductive Writer where
  /-- A slot's store. -/
  | slot (ref : Nat)
  /-- A segment of a copy, applied in place: the command's number and the segment's key. -/
  | copy (num key : Nat)
  /-- The vault agent's request, by packet. -/
  | agent (pkt : Nat)
  /-- The vault agent's own writes: log entries, acquire cursors, mirror lines. -/
  | own
  /-- A chunk of the tile store at the head of the matrix queue. -/
  | tile
deriving DecidableEq, Repr

/-- A line of a write that waits for an entry: its writer and its bytes by vault address. -/
structure Late where
  who : Writer
  cells : List Host.Cell
  launch : Option Nat
  /-- The tagged granule of a `CAPST`. -/
  cap : Option (Nat × Cap) := none
  /-- The addresses of its bytes that arrive poisoned (R191). -/
  bad : List Nat := []
deriving DecidableEq, Repr

/-- The vault controller (R188–R195). -/
structure Vault where
  reqs : List VReq := []
  wq : List WqEnt := []
  /-- Lines that wait for a free entry, oldest first (R209). -/
  late : List Late := []
  /-- The open row of each bank, with the clock it opens at. -/
  rows : SMap (Nat × Nat) := []
  /-- Banks that precharge until a clock, and rows that were opening when their bank became unavailable (R231). -/
  pre : SMap Nat := []
  reopen : SMap Nat := []
  /-- Banks unavailable until a clock: refresh and repair. -/
  busy : SMap Nat := []
  busStall : Nat := 0
  half : Bool := false
  /-- The bus falls to half width when the running stall of a lane failure ends (R193). -/
  falling : Bool := false
  spareLanes : Nat := 64
  spareRows : SMap Nat := []
  /-- Corrected reads of a row since staged start (R192). -/
  corrected : SMap Nat := []
  /-- The clock of the last beat, and what it served (R195). -/
  lastBeat : Nat := 0
  lastFor : Option VCont := none
  dramT : Nat := 0
  logicT : Nat := 0
  dramHot : Bool := false
  throt : Bool := false
  /-- The wall-clock times at which the two thermal states were entered or left, if they were (R404). -/
  dramSince : Option Nat := none
  logicSince : Option Nat := none
deriving DecidableEq, Repr

/-- A matrix operation (R228). -/
inductive MatKind where
  | mma (mx ovr : Bool) (d a b : Nat)
  | mzero (d : Nat)
  /-- A tile store: the accumulator, where it goes (0 vault, 1 scratchpad, 2 shared), the object and its pieces. -/
  | tst (d place obj gen off : Nat) (ps : List Piece)
  | tldacc (d : Nat) (ps : List Piece)
  | obput (d : Nat) (v : Vec) (off : Nat)
  | obget (d : Vr) (a : Nat) (off : Nat)
deriving DecidableEq, Repr

/-- A write of a control register on its way to its commit clock (R135, R373). -/
structure CsrWrite where
  clock : Nat
  slot : Nat
  num : Nat
  value : Word
deriving DecidableEq, Repr

/-- What an instruction does to the event counters at its commit clock (R355, R356): the events of each counter that it adds,
or the counters that it clears. -/
structure EvcWrite where
  clock : Nat
  slot : Nat
  add : List (Nat × Nat) := []
  clear : Nat := 0
deriving DecidableEq, Repr

/-- An `OBPUT` on its way to its commit clock, and the place in the order of acceptance that holds its bytes till then (R127,
R236). -/
structure ObWrite where
  clock : Nat
  holder : Nat
  buf : Nat
  off : Nat
  val : Vec
deriving DecidableEq, Repr

/-- The epilogue of a core (R241). -/
structure Epi where
  mode : Nat := 7
  ty : FTy := .f32
  rnd : Rnd := .rne
  sat : Bool := false
  vec : Vec := 0
deriving DecidableEq, Repr

/-- An accepted matrix operation with its captured context (R228, R237, R241). -/
structure MatOp where
  num : Nat
  slot : Nat
  kind : MatKind
  fmt : MFmt
  epi : Epi
  issue : Nat
  start : Nat
  notify : Bool
  shadow : Bool
  /-- The trailing copy's operation, at its leading copy's place, waits until the trailing copy has issued it (R228). -/
  awaited : Bool := false
  /-- A tile store of a pair stores both copies' outputs, and whether the copies name one destination, which is known when the
  trailing copy has issued it (R42, R379). -/
  paired : Bool := false
  agrees : Option Bool := some true
  launch : Option Nat
  /-- The strand that is parked until the operation is performed, and the log position a store to shared memory waits
  for (R242). -/
  ref : Nat := 0
  drain : Nat := 0
deriving DecidableEq, Repr

/-- A scoreboard region (R283). -/
inductive Region where
  | scratch (lo hi : Nat)
  | vault (obj lo hi : Nat)
  | buf (n lo hi : Nat)
deriving DecidableEq, Repr

/-- A scoreboard entry (R283): its region, whether it writes, and its holder's place in the order of acceptance. -/
structure SbEnt where
  region : Region
  write : Bool
  holder : Nat
deriving DecidableEq, Repr

/-- A checked access: the entry, the object offset of its first byte and the translations of its pages. -/
structure Xl where
  obj : Nat
  gen : Nat
  ent : ObjEnt
  off : Nat
  pages : List Tlb
deriving DecidableEq, Repr

/-- An accepted copy, fill or multicast (R272–R282): its block, its checked source and destination (none for a buffer),
how far it has come, the segments not yet applied whole (key, pieces left, bytes), and what its completion says. -/
structure CopyCmd where
  num : Nat
  slot : Nat
  fill : Bool
  block : Nat
  src : Option Xl
  dst : Option Xl
  launch : Option Nat := none
  bank : Nat := 16
  /-- The log position the engine drain waits for (R75). -/
  drain : Nat := 0
  started : Bool := false
  /-- Source bytes read so far, and the clock of the next segment. -/
  at_ : Nat := 0
  nextAt : Nat := 0
  sent : Bool := false
  segs : List (Nat × Nat × Nat) := []
  /-- Pieces sent and not yet acknowledged, and the start of the instruction. -/
  flying : Nat := 0
  start : Nat := 0
  /-- The cores a multicast writes, with the base of the allocation there. -/
  targets : List (Nat × Nat) := []
  status : Nat := 0
  wrote : Nat := 0
  refused : Nat := 0
  flushed : Bool := false
  followed : Bool := false
  failed : Bool := false
  /-- The reads of the next segment have been asked for, those still to come, and what they brought, by source byte, with
  the bytes that are poisoned (R291). -/
  asked : Bool := false
  reading : Nat := 0
  got : List Host.Cell := []
  gotBad : List Nat := []
  /-- The issuing strand is a pair, so the follow-on runs on the shadow accumulators too (R245). -/
  paired : Bool := false
  /-- The source bytes as the command found them, kept for an overlapping copy (R426). -/
  old : List Host.Cell := []
deriving DecidableEq, Repr

/-- A collective descriptor (R286). -/
structure Coll where
  core : Nat
  slot : Nat
  num : Nat
  block : Nat
  scope : Nat
  src : Xl
  dst : Xl
  launch : Option Nat
  nth : Nat
  /-- The die whose engine gathers the instance, and the participants in rank order. -/
  die : Nat
  set : List Nat
  /-- The log position its engine drain waits for (R75). -/
  drain : Nat
  /-- The status and the bytes written, once the instance has ended (R281). -/
  fin : Option (Nat × Nat) := none
deriving DecidableEq, Repr

/-- An engine's read of bytes at one home (R291): where the reply goes, the command or instance and the participant's rank,
the place (0 vault, 1 scratchpad), the object, and the bytes by index, object offset and address. -/
structure Fetch where
  core : Nat
  num : Nat
  rank : Nat
  place : Nat
  obj : Nat
  gen : Nat
  urgent : Bool
  ps : List Piece
deriving DecidableEq, Repr

/-- A collective instance whose data moves (R288): its descriptors in rank order, the reads still to come, the source bytes of
each rank with the poisoned ones, the pieces of results not yet acknowledged, its status and what each rank is told. -/
structure Inst where
  id : Nat
  ms : List Coll
  reading : Nat
  got : List (Nat × List Host.Cell × List Nat)
  sent : Bool := false
  flying : Nat := 0
  status : Nat := 0
  wrote : List Nat := []
deriving DecidableEq, Repr

/-- An acquire in progress (R64): the slot, the scope, the writers still to finish, and whether one is contained. -/
structure Acq where
  slot : Nat
  scope : Nat
  writers : List Nat
  held : Bool := false
  acct : Option Nat := none
deriving DecidableEq, Repr

/-- An acquire query that waits at the writer for compaction (R64): the asking core and strand, and the position. -/
structure AcqPos where
  core : Nat
  slot : Nat
  target : Nat
  acct : Option Nat := none
deriving DecidableEq, Repr

/-- The trap and pre-emption state of a core (R360). -/
structure TrapState where
  pend : List (Nat × Nat) := []
  events : List (Nat × Nat × Nat) := []
  urgent : List (Nat × Nat × Word) := []
  level : Nat := 0
  handled : Option Nat := none
  urging : Bool := false
  /-- The clock of the running episode's first instruction. -/
  urgStart : Option Nat := none
  limited : Bool := false
  /-- A supervisor event rather than a slot's trap is being handled. -/
  readyAt : Nat := 0
  /-- Register-cache lines of the frame that delivery has written, still to be filled (R362). -/
  fills : List Nat := []
  deadlock : Bool := false
deriving DecidableEq, Repr

/-- A launch's energy on one core (R358). -/
structure Lease where
  launch : Nat
  balance : Int := 0
  spent : Nat := 0
  asked : Bool := false
  dry : Bool := false
deriving DecidableEq, Repr

/-- A shared line of which the home has been asked, for the strand that a reference names: whether an event has discarded it
since (R63), and whether an atomic's old value is what comes (R68). -/
structure Flying where
  ref : Nat
  obj : Nat
  line : Nat
  atomic : Bool := false
  spoiled : Bool := false
deriving DecidableEq, Repr

/-- A core (R16) with its slots, groups and units. -/
structure Core where
  slots : SMap Slot := []
  groups : SMap Group := []
  supC : SMap Word := []
  supW : SMap Vec := []
  deals : List Deal := []
  shared : List ShWrite := []
  csrs : List CsrWrite := []
  evcs : List EvcWrite := []
  imgs : List ImgWrite := []
  obs : List ObWrite := []
  rc : List RcLine := []
  tlb : List Tlb := []
  log : Log := {}
  mirsize : Nat := 16
  mirror : List MirLine := []
  /-- Reads and returning atomics of shared lines whose answer has not come (R63, R68). -/
  flying : List Flying := []
  inbox : List Entry := []
  resv : List Resv := []
  waiters : List Waiter := []
  homeWaiters : List Waiter := []
  /-- Log entries that a `CHECK` failure has sent back, by writer and position: later ones of the writer follow them (R58, R202). -/
  gaps : List (Nat × Nat) := []
  matQ : List MatOp := []
  fmt : MFmt := .float .bf16
  epi : Epi := {}
  copies : List CopyCmd := []
  board : List SbEnt := []
  order : Nat := 0
  agentQ : List Nat := []
  agentBusy : Bool := false
  /-- Reads of the agent's request still to come. -/
  agentLeft : Nat := 0
  /-- Packets for the agent that wait at the local port while its queue is full, each with the track and the class of its
  last flit's credit (R271, R298). -/
  agentWait : List (Nat × Option Nat × Nat) := []
  vault : Vault := {}
  evc : SMap Nat := []
  shwloss : Nat := 0
  /-- The counters as they stood when the last clock ended, which is what an instruction reads (R356). -/
  evcSeen : SMap Nat := []
  urglim : Nat := 0x10000
  arbw : Nat := 0
  tldw : Nat := 0
  trap : TrapState := {}
  contained : Bool := false
  leases : List Lease := []
  latch : List (Nat × Nat × List ShWrite) := []
  vfree : Nat := 0
  acqs : List Acq := []
  acqPos : List AcqPos := []
  collCount : SMap Nat := []
  /-- The head of the matrix queue has ended its busy clocks and still stores or loads. -/
  headBusy : Bool := false
  /-- A tile store's next chunk, its segments in flight, its output and, for a pair, the shadow's output (R242, R246). -/
  tst : Option (Nat × Nat × List Host.Cell × List Host.Cell) := none
  /-- The worst status that the segments of the running tile store have brought back (R302). -/
  tstStatus : Nat := 0
  /-- Swapped strands (R32), by the slot they are bound to. -/
  swapped : List (Nat × Slot) := []
deriving DecidableEq, Repr

/-- A frame or truncation queued in a stream entry (R335). -/
structure Queued where
  pf : Nat
  count : Nat
  tokens : BitVec 2048
  trunc : Option (Nat × Nat)
  seq : Nat
deriving DecidableEq, Repr

/-- A stream table entry (R327). -/
structure Stream where
  opened : Bool := false
  gen : Nat := 0
  core : Nat := 0
  g : Nat := 0
  p : Nat := 0
  c : Nat := 0
  s : Nat := 0
  sec : Bool := false
  w : Nat := 1
  n : Nat := 1
  hcore : Nat := 0
  eslot : Nat := 0
  queue : List Queued := []
  /-- The reservation: q, k′, input, slot, core. -/
  resv : Option (Nat × Nat × Bool × Nat × Nat) := none
  first : Nat := 0
  pendIn : Nat := 0
  fseq : Nat := 0
  kv : Nat := 0
  glog : Nat := 0
  cap : Nat := 0
  sn : Nat := 0
  ring : Nat := 0
  z : Nat := 0
  ftag : Nat := 0
  tokens : BitVec 2048 := 0
  /-- The launch and the index of the group that opened it, where one did (R336). -/
  opener : Option (Nat × Nat) := none
  /-- `STRUNC` slots that found the queue full. -/
  stalled : List (Nat × Nat × Nat) := []
deriving DecidableEq, Repr

/-- An operation on its way through a stream table (R338). -/
inductive StreamOp where
  /-- With the launch and the index of the group whose strand opens it (R336). -/
  | sopen (desc : BitVec 512) (caps : List Cap) (opener : Option (Nat × Nat))
  | sclose
  | sgen (abandon : Bool)
  | splay (n : Nat)
  | strunc (n : Nat)
  | ssnap (n : Nat)
  | skvaddr (n : Nat)
  | sstat
  | scommit (n : Nat)
  | snext (want : Nat)
  /-- A frame, by its packet (R334). -/
  | frame (pkt : Nat)
deriving DecidableEq, Repr

/-- A stream operation with its issuer and handle. -/
structure StreamReq where
  op : StreamOp
  core : Nat
  slot : Nat
  handle : Word
  world : Bool
deriving DecidableEq, Repr

/-- A frame (R333). -/
structure Frame where
  handle : Word
  pf : Nat
  seq : Nat
  count : Nat
  bad : Bool
  tokens : BitVec 2048
  sec : Bool
  /-- The issuing core and slot, or the link of a host frame. -/
  core : Nat
  slot : Nat
  host : Bool
deriving DecidableEq, Repr

/-- An active or group message in flight (R251–R259). -/
structure Mail where
  handle : Word
  tag : Word
  payload : BitVec 384
  urgent : Bool
  sec : Bool
  core : Nat
  slot : Nat
  start : Nat
  posted : Option Nat
deriving DecidableEq, Repr

/-- What a packet carries. -/
inductive Body where
  | req (r : Req)
  | lineReply (r : Req) (data : BitVec 512) (tags : BitVec 4) (poison : BitVec 4)
  | reply (core slot : Nat) (w : Word) (v : Vec) (err : Option (Nat × Nat × Nat))
  | performed (core slot num : Nat) (refused : Bool)
  | retry (r : Req)
  | logAck (core pos home : Nat) (again : Bool)
  | acqQuery (core slot level writer : Nat)
  | acqAnswer (core slot writer pos : Nat) (contained : Bool)
  | logQuery (core slot target sel : Nat)
  | mail (m : Mail)
  | wake (m : Mail)
  | outcome (m : Mail) (code : Nat) (isWake : Bool)
  | urg (core slot : Nat) (entry : Nat) (arg : Word) (requester : Nat)
  | submit (l : Launch) (core slot : Nat) (host : Option Nat) (world : Bool) (bad : Bool)
  | launchPkt (l : Launch) (die : Nat)
  | dieReport (launch die spent : Nat) (status : Nat)
  | done (launch status energy : Nat) (core slot : Nat)
  | barrier (launch scope core slot : Nat) (sum : Bool) (w : Word)
  | leaseAsk (launch core : Nat)
  | lease (launch core units : Nat)
  | segment (core cmd seg place : Nat) (bytes : List Host.Cell) (poison : List Nat) (obj gen : Nat)
  | segAck (core cmd key n : Nat) (status : Nat)
  | descriptor (c : Coll)
  | fetch (f : Fetch)
  | fetched (f : Fetch) (bytes : List Host.Cell) (bad : List Nat) (status : Nat)
  | collDone (core num status wrote : Nat)
  | partGone (core : Nat)
  | shootdown (write line die : Nat)
  | shootAck (write die : Nat)
  | marker (mig end_ : Nat)
  | drained (mig : Nat)
  /-- A kibibyte of a page that migrates: its number, its bytes, and by offset in the page the tagged and poisoned granules and
  the full words (R317). -/
  | page (mig k : Nat) (bytes : List Host.Cell) (tags poison full : List Nat)
  | frame (f : Frame)
  | frameReply (f : Frame) (code : Nat)
  | streamOp (die : Nat) (r : StreamReq)
  | streamEvent (die idx owner : Nat) (e : Entry) (close : Bool)
  | nak (pkt : Nat)
  | endAck (pkt : Nat)
deriving DecidableEq, Repr

/-- A packet (R295): its endpoints' positions, its class, its flits, its end-to-end sequence and its body. -/
structure Packet where
  id : Nat
  src : Nat
  dst : Nat
  /-- The old home of a migrating page has forwarded it, or not (R317): 1 or 0. -/
  sep : Nat := 0
  /-- It began while a packet of a lower class stood open on its first track (R295). -/
  cut : Bool := false
  /-- It is sent again after the death of a track (R301), which costs its launch nothing (R357). -/
  resent : Bool := false
  cls : Nat
  flits : Nat
  seq : Nat := 0
  body : Body
  launch : Option Nat := none
  /-- The cores that a multicast's packet still goes to, with the base of the allocation there (R278). -/
  targets : List (Nat × Nat) := []
  /-- What a write by an engine carries in its header: the offset in its object, and the offset of the command's sync word
  (R295). -/
  toff : Nat := 0
  sync : Option Nat := none
deriving DecidableEq, Repr

/-- A flit on a track (R294). -/
structure Flit where
  pkt : Nat
  first : Bool
  last : Bool
  cls : Nat
  lseq : Nat
  clock : Nat
deriving DecidableEq, Repr

/-- A packet at a transmitter: how many of its flits have come and how many have been sent, and the track they come by; a copy
that a router has made of a multicast's packet returns no credit, since the packet itself does (R278, assumption 88). -/
structure TxPkt where
  pkt : Nat
  avail : Nat
  sent : Nat
  cls : Nat
  flits : Nat
  via : Option Nat := none
  copy : Bool := false
deriving DecidableEq, Repr

/-- A track in one direction (R297–R301): waiting and open packets, the retry buffer, the flits in flight, the receiver's
partial packet of each class (with the track it goes on by, plus one), the flits of each class for which the receiver
has not returned the credit, and the copies that the receiver makes of a packet, each with the track it goes on by. -/
structure Track where
  queue : List TxPkt := []
  retry : List Flit := []
  air : List Flit := []
  partials : SMap (Nat × Nat) := []
  credit : SMap Nat := []
  copies : List (Nat × Nat × Nat) := []
  lseq : Nat := 0
  expect : Nat := 0
  nonBulk : Nat := 0
  lastCtl : Bool := false
  failures : Nat := 0
  resend : Nat := 0
  dead : Bool := false
deriving DecidableEq, Repr

/-- A barrier or sum-barrier instance (R267, R356). -/
structure Barrier where
  launch : Nat
  level : Nat
  unit : Nat
  sum : Bool
  gen : Nat := 0
  arrived : List (Nat × Nat) := []
  total : Word := 0
deriving DecidableEq, Repr

/-- The stages of a launch at the sequencer (R30). -/
inductive LStage where
  | queued | counted | dealt | ended
deriving DecidableEq, Repr

/-- A launch's record at the sequencer (R265, R266, R43, R358). -/
structure LRec where
  launch : Launch
  stage : LStage := .queued
  core : Nat
  slot : Nat
  host : Option Nat
  reported : List Nat := []
  spent : Nat := 0
  status : Nat := 0
  quota : Nat := 0
  /-- Log positions that must be compacted before an indirect count is read (R266). -/
  want : List (Nat × Nat) := []
  /-- The indirect count has been asked of its home. -/
  asked : Bool := false
  ringWait : Bool := false
deriving DecidableEq, Repr

/-- A walk of a walker (R315): its number, the core and slot it serves, the object and page, and whether it still reads the
object entry's line. -/
structure Walk where
  id : Nat
  core : Nat
  slot : Nat
  obj : Nat
  page : Nat
  first : Bool
deriving DecidableEq, Repr

/-- A die (R13): its tables, windows, stream table and engines. -/
structure Die where
  hmap : BitVec 36 := 0
  l2pbase : Nat := 0
  win : SMap Nat := []
  rect : Nat := 9
  cache : List (Nat × Nat) := []
  walkers : Nat := 0
  /-- The walks that walkers do. -/
  walks : List Walk := []
  walkQ : List (Nat × Nat × Nat × Nat) := []
  streams : SMap Stream := []
  cursor : Nat := 0
  /-- Stream operations that have not started, and those that have, by the clock at which they are performed (R338). -/
  streamQ : List StreamReq := []
  streamRun : SMap StreamReq := []
  /-- Descriptors of the die's cores that have not completed (R271), those that its engine gathers as rank 0's, and the
  instances it moves data for. -/
  descs : List Coll := []
  gather : List Coll := []
  insts : List Inst := []
  dealt : List (Nat × Nat) := []
  packets : List (Nat × Nat) := []
  ended : SMap Nat := []
  spent : SMap Nat := []
  worst : SMap Nat := []
  refcfg : Nat := 0x00B41554
deriving DecidableEq, Repr

/-- A table write that has not settled (R312), with who waits for it and the migrations it begins: page entry and number. -/
structure TWrite where
  id : Nat
  line : Nat
  acks : Nat
  waiter : Option (Nat × Nat × Word)
  posted : Option (Nat × Nat × Nat)
  group : Option (Nat × Nat)
  migs : List (Nat × Nat)
deriving DecidableEq, Repr

/-- A page migration in progress (R317): its number, its page entry's table offset, the old and new home and frame, the markers
still expected, and the operations the new home holds. -/
structure Mig where
  id : Nat
  entry : Nat
  old : Nat
  oldBase : Nat
  new : Nat
  newBase : Nat
  markers : Nat
  held : List Nat
  /-- Its page entry's write has settled, so the old home forwards (R317). -/
  settled : Bool := false
  /-- The kibibytes of the page that the old home has sent, and what reached it before the last of them. -/
  sent : Nat := 0
  back : List Nat := []
  /-- Those that wait at a word of the page. -/
  waiters : List Waiter := []
  /-- The drained packet has come: what reaches the new home directly is held no more. -/
  open_ : Bool := false
  /-- It has settled while an earlier migration of the page goes on, and begins when that one ends. -/
  after : Bool := false
deriving DecidableEq, Repr

/-- A merge that a fabric switch holds (R73, R321). -/
structure Merge where
  id : Nat
  req : Req
  parts : List (Nat × Nat × Nat)
  since : Nat
  /-- It has been forwarded; its parts are performed when its home has applied it (R72). -/
  gone : Bool := false
deriving DecidableEq, Repr

/-- One host link's windows (R386–R390). -/
structure Link where
  slots : SMap (BitVec 1344) := []
  results : SMap Word := []
  busy : List Nat := []
  ring : SMap (BitVec 512) := []
  head : Nat := 0
  tail : Nat := 0
  frame : BitVec 2688 := 0
  frameResult : Word := 0
  frameBusy : Bool := false
  /-- MSI-X vectors fired, newest first. -/
  msix : List Nat := []
  down : Bool := false
  inMail : SMap Byte := []
  outMail : SMap Byte := []
deriving DecidableEq, Repr

/-- The management registers (R386) and Phaekus (R393–R403). -/
structure Mgmt where
  stg : Nat := 0
  failover : Bool := false
  /-- The active Phaekus has fallen silent (R397). -/
  silent : Bool := false
  hwake : Bool := false
  step : Nat := 0
  /-- The fastest step that keeps the package within its power (R401), as measured. -/
  powerStep : Nat := 0
  clkcap : Nat := 0
  qres : SMap Nat := []
  /-- The requests of `QRES` that Phaekus has taken up (R397, R403). -/
  qtaken : SMap Nat := []
  powerCap : Nat := 16
  minVersion : Nat := 0
  missed : Nat := 0
  /-- Wall-clock time, in 1/42 ns, at the clock from which the present step counts (R401). -/
  wallBase : Nat := 0
  wallFrom : Nat := 0
  /-- The clocks of the last change of step and of power reservation, if there was one. -/
  lastStep : Option Nat := none
  lastPower : Option Nat := none
  /-- Containment requests that wait for the end of a takeover (R397). -/
  waiting : List Nat := []
  quietNow : Bool := false
  /-- The deadlock detector is armed (R46). -/
  armed : Bool := true
  /-- Dead links and contained positions that Phaekus has been told of (R302, R381). -/
  told : List Nat := []
  /-- Cores whose start episode has not halted (R393). -/
  starting : List Nat := []
deriving DecidableEq, Repr

/-- The quad array (R21, R230). -/
structure Quad where
  last : Nat := 3
  until_ : Nat := 0
  /-- The core and number of the running operation. -/
  running : Option (Nat × Nat) := none
  credits : Nat := 16384
  creditClock : Nat := 0
  /-- The member whose ready operation waits for credits: the array grants nothing else (R230). -/
  short : Option Nat := none
deriving DecidableEq, Repr

/-- The instruction being issued: where, its guard, its start and the next start, its base word and that word's
position in the chain. -/
structure Issue where
  core : Nat := 0
  slot : Nat := 0
  gd : Guard := ⟨false, 0⟩
  start : Nat := 0
  next : Nat := 0
  word : Half := 0
  pos : Nat := 0
  /-- The core's event counters before the issue was counted: a refused attempt counts nothing (R354). -/
  evc : SMap Nat := []
deriving DecidableEq, Repr

end Sys2Proof.Machine

namespace Sys2Proof.Machine

/-- The machine: one package (R11), its clock, its memories, and the events and inputs that are due. -/
structure State where
  cycle : Nat
  /-- Every byte of every memory, by location (Mem.lean lays the locations out). -/
  mem : List Host.Cell
  /-- Granules whose validity tag is set (R49). -/
  tags : List Nat
  /-- Poisoned granules (R191). -/
  poison : List Nat
  /-- Words in the full state (R221). -/
  full : List Nat
  cores : SMap Core
  dies : SMap Die
  quads : SMap Quad
  links : SMap Link
  mgmt : Mgmt
  issue : Issue
  /-- The arguments of the event being performed. -/
  evt : List Nat
  agenda : List Ev
  turns : List Nat
  /-- Engine accesses of this clock, which come after the slots' turns (R198). -/
  tail : List Ev
  pending : List Due
  /-- What the outside world will do, and when (R384, R404, R386). -/
  inputs : List Due
  /-- Physical faults: flits whose CRC fails, as (track, clock). -/
  badFlits : List (Nat × Nat)
  /-- Physical faults: granules whose next read is corrected (0) or uncorrectable (1). -/
  badGranules : List (Nat × Nat)
  /-- Physical faults: log entries, by writer and position, whose `CHECK` fails at home once (0) or in the ring (1). -/
  badEntries : List (Nat × Nat × Nat)
  packets : SMap Packet
  pktNum : Nat
  /-- End-to-end sequence numbers by endpoint pair. -/
  endSeq : SMap Nat
  tracks : SMap Track
  deadLinks : List Nat
  launches : SMap LRec
  nextSeq : SMap Nat
  submissions : List (Nat × Packet)
  barriers : List Barrier
  writes : List TWrite
  migs : List Mig
  merges : List Merge
  /-- Packets that left for another package by a fabric port. -/
  outbox : List Packet
  /-- Packets that come from other packages, and when they reach a fabric port. -/
  fabric : List (Nat × Packet)
  /-- Packets that come in through the lanes of the fabric ports, oldest first: the lane, the packet, and its flits still to come
  (R24, R25). -/
  inbound : List (Nat × Packet × Nat)
  /-- Contained cores of other packages, of which this package has been told (R289). -/
  gone : List Nat
  /-- Harvested positions, from the fuses (R15). -/
  fuses : List Nat
  /-- Repairs burnt into the fuses, which staged start applies (R393): spare rows of a bank, by position × 32 + bank, and spare
  lanes of a vault bus, by position. -/
  fusedRows : SMap Nat
  fusedLanes : SMap Nat
  /-- The free counter: advanced each time a value the spec leaves open is taken. -/
  free : Nat
  /-- Cores in logical order, built by staged start (R34). -/
  logical : List Nat
deriving DecidableEq, Repr

/-- The machine right after power-on (R393 stage 0): nothing issues, and the start sequence is due. -/
def State.reset : State :=
  { cycle := 0, mem := [], tags := [], poison := [], full := [], cores := [], dies := [], quads := [], links := []
    mgmt := {}, issue := {}, evt := [], agenda := [⟨.stagedStart, []⟩], turns := [], tail := [], pending := [], inputs := []
    badFlits := [], badGranules := [], badEntries := [], packets := [], pktNum := 0, endSeq := [], tracks := []
    deadLinks := [], launches := [], nextSeq := [], submissions := [], barriers := [], writes := [], migs := []
    merges := [], outbox := [], fabric := [], gone := [], fuses := [], fusedRows := [], fusedLanes := [], inbound := [], free := 0, logical := [] }

end Sys2Proof.Machine
end

