-- ==== Sys2Proof/Machine/Maps.lean ====
section
/-!
DEFINITION. Sparse maps and small list helpers that the whole model shares, and the accessors of cores, slots, groups,
dies, quads, links and tracks.
-/
namespace Sys2Proof.Machine

/-- The value at a key, or the default. -/
def SMap.get {α : Type} (m : SMap α) (k : Nat) (d : α) : α :=
  match m with
  | [] => d
  | (j, x) :: r => if j = k then x else SMap.get r k d

/-- The map with the value at a key set; keys stay in rising order. -/
def SMap.set {α : Type} (m : SMap α) (k : Nat) (v : α) : SMap α :=
  match m with
  | [] => [(k, v)]
  | (j, x) :: r => if j = k then (k, v) :: r else if k < j then (k, v) :: (j, x) :: r else (j, x) :: SMap.set r k v

/-- The map without a key. -/
def SMap.del {α : Type} (m : SMap α) (k : Nat) : SMap α := m.filter fun p => p.1 != k

/-- Whether a key is listed. -/
def SMap.has {α : Type} (m : SMap α) (k : Nat) : Bool := m.any fun p => p.1 == k

/-- A sorted set of numbers: insertion. -/
def setIns (l : List Nat) (k : Nat) : List Nat :=
  match l with
  | [] => [k]
  | j :: r => if j = k then j :: r else if k < j then k :: j :: r else j :: setIns r k

/-- A sorted set of numbers: removal. -/
def setDel (l : List Nat) (k : Nat) : List Nat := l.filter fun j => j != k

/-- The naturals from `lo`, `n` of them. -/
def upFrom (lo : Nat) : Nat → List Nat
  | 0 => []
  | n + 1 => lo :: upFrom (lo + 1) n

/-- The naturals below `n`. -/
def below (n : Nat) : List Nat := upFrom 0 n

/-- Bits [lo + len − 1 : lo] of a number. -/
def bitsOf (x lo len : Nat) : Nat := x / 2 ^ lo % 2 ^ len

/-- Bit `i` of a number. -/
def bitOf (x i : Nat) : Bool := x / 2 ^ i % 2 == 1

/-- Sum of a list. -/
def sumList : List Nat → Nat
  | [] => 0
  | x :: r => x + sumList r

/-- Replaces the first element that satisfies `p`. -/
def updFirst {α : Type} (p : α → Bool) (f : α → α) : List α → List α
  | [] => []
  | x :: r => if p x then f x :: r else x :: updFirst p f r

/-- Removes the first element that satisfies `p`. -/
def delFirst {α : Type} (p : α → Bool) : List α → List α
  | [] => []
  | x :: r => if p x then r else x :: delFirst p r

/-- A slot that no strand has touched: empty, and secure if it is the supervisor (R136, R137). Its `CTXBASE` reads 0 and its
`TFRAME` 0x8400, which R136 leaves to the first group start or dispatch in the slot (assumption 69). -/
def Slot.fresh (n : Nat) : Slot := { world := n == 15 }

def Core.slot (c : Core) (n : Nat) : Slot := SMap.get c.slots n (Slot.fresh n)
def Core.setSlot (c : Core) (n : Nat) (x : Slot) : Core := { c with slots := SMap.set c.slots n x }
def State.core (s : State) (c : Nat) : Core := SMap.get s.cores c {}
def State.setCore (s : State) (c : Nat) (x : Core) : State := { s with cores := SMap.set s.cores c x }
/-- A change of one core. -/
def State.onCore (s : State) (c : Nat) (f : Core → Core) : State := s.setCore c (f (s.core c))
def State.slot (s : State) (c n : Nat) : Slot := (s.core c).slot n
def State.setSlot (s : State) (c n : Nat) (x : Slot) : State := s.onCore c fun k => k.setSlot n x
/-- A change of one slot. -/
def State.onSlot (s : State) (c n : Nat) (f : Slot → Slot) : State := s.setSlot c n (f (s.slot c n))
def State.die (s : State) (d : Nat) : Die := SMap.get s.dies d {}
def State.onDie (s : State) (d : Nat) (f : Die → Die) : State := { s with dies := SMap.set s.dies d (f (s.die d)) }
/-- Quad arrays are numbered 9 × die + quad. -/
def State.quad (s : State) (q : Nat) : Quad := SMap.get s.quads q {}
def State.onQuad (s : State) (q : Nat) (f : Quad → Quad) : State :=
  { s with quads := SMap.set s.quads q (f (s.quad q)) }
def State.link (s : State) (l : Nat) : Link := SMap.get s.links l {}
def State.onLink (s : State) (l : Nat) (f : Link → Link) : State :=
  { s with links := SMap.set s.links l (f (s.link l)) }
def State.track (s : State) (t : Nat) : Track := SMap.get s.tracks t {}
def State.onTrack (s : State) (t : Nat) (f : Track → Track) : State :=
  { s with tracks := SMap.set s.tracks t (f (s.track t)) }
def State.onMgmt (s : State) (f : Mgmt → Mgmt) : State := { s with mgmt := f s.mgmt }

/-- A change of a core's vault controller. -/
def State.onVault (s : State) (c : Nat) (f : Vault → Vault) : State :=
  s.onCore c fun k => { k with vault := f k.vault }
/-- A change of a core's store log. -/
def State.onLog (s : State) (c : Nat) (f : Log → Log) : State := s.onCore c fun k => { k with log := f k.log }
/-- A change of a core's trap state. -/
def State.onTrap (s : State) (c : Nat) (f : TrapState → TrapState) : State :=
  s.onCore c fun k => { k with trap := f k.trap }

/-- The registers of a strand as one piece. -/
def Slot.regs (t : Slot) : RegFile := ⟨t.pc, t.code, t.g, t.v, t.p, t.k, t.seed, t.done⟩
def Slot.withRegs (t : Slot) (r : RegFile) : Slot :=
  { t with pc := r.pc, code := r.code, g := r.g, v := r.v, p := r.p, k := r.k, seed := r.seed, done := r.done }
/-- The slot with the registers that have committed before a clock (R127). -/
def Slot.shown (t : Slot) (now : Nat) : Slot :=
  match t.before with
  | some (c, r, _) => if now ≤ c then t.withRegs r else t
  | none => t

/-- The `i`-th argument of the event being performed. -/
def State.arg (s : State) (i : Nat) : Nat := s.evt.getD i 0

/-- An event falls due after a number of clocks; events of one clock keep the order in which they were asked for. -/
def Due.insert (d : Due) : List Due → List Due
  | [] => [d]
  | x :: r => if d.clock < x.clock then d :: x :: r else x :: d.insert r
def State.after (s : State) (n : Nat) (e : Instr) (args : List Nat) : State :=
  { s with pending := (Due.mk (s.cycle + n) e args).insert s.pending }

/-- The die, the physical number, the column, the row, the quad and the member of a position 36 × die + p (R14). -/
def posDie (c : Nat) : Nat := c / 36
def posCore (c : Nat) : Nat := c % 36
def posX (c : Nat) : Nat := c % 36 % 6
def posY (c : Nat) : Nat := c % 36 / 6
def quadOf (p : Nat) : Nat := 3 * (p / 6 / 2) + p % 6 / 2
def memberOf (p : Nat) : Nat := 2 * (p / 6 % 2) + p % 6 % 2
def posQuad (c : Nat) : Nat := quadOf (posCore c)
/-- The position of member `m` of quad `q` of die `d`. -/
def quadMember (d q m : Nat) : Nat := 36 * d + (6 * (q / 3 * 2 + m / 2) + (q % 3 * 2 + m % 2))
/-- The array number 9 × die + quad of a position. -/
def posArray (c : Nat) : Nat := 9 * posDie c + posQuad c

/-- A position that exists and is not harvested (R15). -/
def State.live (s : State) (c : Nat) : Bool := c < 864 && !s.fuses.contains c
/-- The logical number of a position (R34). -/
def indexIn (l : List Nat) (x : Nat) : Nat :=
  match l with
  | [] => 0
  | y :: r => if y = x then 0 else indexIn r x + 1
def State.logicalOf (s : State) (c : Nat) : Nat := indexIn s.logical c
/-- The position of a logical core, if it is live. -/
def State.posOf (s : State) (n : Nat) : Option Nat := s.logical[n]?
/-- The package's number (R138). -/
def State.pkg (_ : State) : Nat := Config.pkg.toNat

/-- Units of 1/42 ns in a clock of a step (R401). -/
def clockUnits (step : Nat) : Nat :=
  match step with
  | 0 => 30 | 1 => 35 | 2 => 42 | _ => 60
/-- Wall-clock time now. -/
def State.wall (s : State) : Nat := s.mgmt.wallBase + (s.cycle - s.mgmt.wallFrom) * clockUnits s.mgmt.step
abbrev oneMs : Nat := 42000000
/-- At least `d` of wall-clock time has passed since an event, if it happened: only the minimum times of the thermal states are
counted so (R1). -/
def State.since (s : State) (t : Option Nat) (d : Nat) : Bool := t.all fun x => x + d ≤ s.wall
/-- The clocks of 1 ms at the top clock of 1.4 GHz, in which every other duration is counted at every step (R1). -/
abbrev msClocks : Nat := 1400000
/-- At least `n` clocks have passed since an event, if it happened. -/
def State.past (s : State) (t : Option Nat) (n : Nat) : Bool := t.all fun x => x + n ≤ s.cycle

/-- `REFCFG` as a core of the die sees it: the refresh interval is halved while its own DRAM threshold state is active
(R140, R190, R401). -/
def State.refcfgOf (s : State) (c : Nat) : Nat :=
  let r := (s.die (posDie c)).refcfg
  if (s.core c).vault.dramHot then r + 2 ^ 24 - bitsOf r 0 16 + bitsOf r 0 16 / 2 else r

/-- The resident group a bank number names. -/
def State.group? (s : State) (c b : Nat) : Option Group :=
  ((s.core c).groups.find? fun p => p.1 == b).map (·.2)
def State.onGroup (s : State) (c b : Nat) (f : Group → Group) : State :=
  match s.group? c b with
  | some g => s.onCore c fun k => { k with groups := SMap.set k.groups b (f g) }
  | none => s

/-- Adds to an event counter, which sticks at all ones (R354). -/
def State.count (s : State) (c i n : Nat) : State :=
  s.onCore c fun k => { k with evc := SMap.set k.evc i (min (SMap.get k.evc i 0 + n) (2 ^ 64 - 1)) }

/-- An access by the owning strand clears the evictable mark and is the latest use; a written line is dirty (R134). -/
def State.useLines (s : State) (c : Nat) (ls ws : List Nat) : State :=
  let touch (x : RcLine) : RcLine :=
    if ls.contains x.addr then { x with used := s.cycle, mark := none, dirty := x.dirty || ws.contains x.addr } else x
  s.onCore c fun k => { k with rc := k.rc.map touch }

/-- The account that pays for work (R355, R357): the launch and the core whose slot issues it, as launch × 1024 + core;
the supervisor works for no launch. -/
def acctFor (c launch : Nat) : Nat := launch * 1024 + c
def Slot.acct (t : Slot) (c : Nat) : Option Nat := if t.bank < 16 then some (acctFor c t.launch) else none
def State.acctOf (s : State) (c n : Nat) : Option Nat := (s.slot c n).acct c

/-- Charges energy in pJ to an account, wherever the work is done: the issuing core's counter, and its balance for the launch
or, where the launch is not resident there any more, the launch's record (R355, R357, R358, assumption 65). -/
def State.charge (s : State) (a : Option Nat) (pj : Nat) : State :=
  match a with
  | none => s
  | some a =>
    let c := a % 1024
    let id := a / 1024
    let pay (e : Lease) : Lease := { e with balance := e.balance - pj, spent := e.spent + pj }
    if (s.core c).leases.any fun e => e.launch == id then
      (s.count c 15 pj).onCore c fun k => { k with leases := updFirst (fun e => e.launch == id) pay k.leases }
    else
      { s.count c 15 pj with
        launches := updFirst (fun x => x.1 == id) (fun x => (x.1, { x.2 with spent := x.2.spent + pj })) s.launches }

end Sys2Proof.Machine
end

