-- ==== Sys2Proof/Machine/Num.lean ====
section
/-!
DEFINITION. Exact numbers and the floating-point formats: layouts (R81–R84), special values (R85–R88), rounding (R89,
R90), conversions (R91, R92) and MX quantisation (R93, R95).
-/
namespace Sys2Proof.Machine

/-! Integers of a width, as natural numbers below 2ⁿ. -/

/-- The signed value of an n-bit number (R142). -/
def sv (n x : Nat) : Int := if x < 2 ^ (n - 1) then x else (x : Int) - 2 ^ n
/-- An integer modulo 2ⁿ. -/
def toBits (n : Nat) (i : Int) : Nat := (i % (2 ^ n : Int)).toNat
/-- An n-bit number sign-extended to m bits. -/
def sextTo (n m x : Nat) : Nat := toBits m (sv n x)
/-- An integer clamped to a range, and whether it was outside. -/
def clampInt (lo hi i : Int) : Int × Bool := if i < lo then (lo, true) else if hi < i then (hi, true) else (i, false)

/-! Event counts of one instruction (R88, R354). -/

/-- Counts of invalid, division by zero, overflow, underflow, inexact, integer division by zero and saturation. -/
structure Fl where
  inv : Nat := 0
  dz : Nat := 0
  ovf : Nat := 0
  unf : Nat := 0
  inx : Nat := 0
  idz : Nat := 0
  sat : Nat := 0
deriving DecidableEq, Repr

def Fl.none : Fl := {}
def Fl.add (a b : Fl) : Fl :=
  ⟨a.inv + b.inv, a.dz + b.dz, a.ovf + b.ovf, a.unf + b.unf, a.inx + b.inx, a.idz + b.idz, a.sat + b.sat⟩
/-- One result element counts at most one event of each class (R88). -/
def Fl.once (a b : Fl) : Fl :=
  ⟨max a.inv b.inv, max a.dz b.dz, max a.ovf b.ovf, max a.unf b.unf, max a.inx b.inx, max a.idz b.idz, max a.sat b.sat⟩
def flInv (b : Bool) : Fl := { inv := if b then 1 else 0 }

/-! Values. -/

/-- A float value: (−1)^neg × m × 2^e exactly, an infinity, or a NaN. A value strictly between two numbers of many bits
is held as an odd `m` whose last bit stands for the rest. -/
inductive Fv where
  | nan (sig : Bool)
  | inf (neg : Bool)
  | fin (neg : Bool) (m : Nat) (e : Int)
deriving DecidableEq, Repr

/-- The sign of a value. -/
def Fv.neg? : Fv → Bool
  | .nan _ => false
  | .inf n => n
  | .fin n _ _ => n
def Fv.negate : Fv → Fv
  | .nan s => .nan s
  | .inf n => .inf !n
  | .fin n m e => .fin (!n) m e
def Fv.isNan : Fv → Bool
  | .nan _ => true | .inf _ => false | .fin _ _ _ => false
def Fv.isSig : Fv → Bool
  | .nan s => s | .inf _ => false | .fin _ _ _ => false
def Fv.isFin : Fv → Bool
  | .nan _ => false | .inf _ => false | .fin _ _ _ => true
def Fv.isZero : Fv → Bool
  | .nan _ => false | .inf _ => false | .fin _ m _ => m == 0

/-- What the all-ones exponent of a format means. -/
inductive Tops where
  /-- Infinity and NaNs, as IEEE 754. -/
  | ieee
  /-- `e4m3`: only the all-ones encoding is a NaN. -/
  | oneNan
  /-- Every encoding is finite. -/
  | finite
deriving DecidableEq, Repr

/-- A layout of R81. -/
structure Fmt where
  width : Nat
  ebits : Nat
  fbits : Nat
  bias : Nat
  tops : Tops
deriving DecidableEq, Repr

def fmtF64 : Fmt := ⟨64, 11, 52, 1023, .ieee⟩
def fmtF32 : Fmt := ⟨32, 8, 23, 127, .ieee⟩
def fmtF16 : Fmt := ⟨16, 5, 10, 15, .ieee⟩
def fmtBf16 : Fmt := ⟨16, 8, 7, 127, .ieee⟩
def fmtE4m3 : Fmt := ⟨8, 4, 3, 7, .oneNan⟩
def fmtE5m2 : Fmt := ⟨8, 5, 2, 15, .ieee⟩
def fmtMx6 : Fmt := ⟨6, 3, 2, 3, .finite⟩
def fmtMx6e2 : Fmt := ⟨6, 2, 3, 1, .finite⟩
def fmtMx4 : Fmt := ⟨4, 2, 1, 1, .finite⟩

def ftyFmt : FTy → Fmt
  | .f32 => fmtF32 | .f64 => fmtF64 | .f16 => fmtF16 | .bf16 => fmtBf16 | .e4m3 => fmtE4m3 | .e5m2 => fmtE5m2
def vtyFmt : VTy → Fmt
  | .f32 => fmtF32 | .f64 => fmtF64 | .f16 => fmtF16 | .bf16 => fmtBf16
def styFmt : STy → Fmt
  | .f32 => fmtF32 | .f16 => fmtF16 | .bf16 => fmtBf16

/-- The exponent of the smallest normal. -/
def Fmt.emin (f : Fmt) : Int := 1 - (f.bias : Int)
/-- The largest exponent field of a finite number. -/
def Fmt.topField (f : Fmt) : Nat :=
  match f.tops with
  | .ieee => 2 ^ f.ebits - 2 | .oneNan => 2 ^ f.ebits - 1 | .finite => 2 ^ f.ebits - 1
/-- The significand of the largest finite number, as an integer of fbits + 1 bits. -/
def Fmt.topSig (f : Fmt) : Nat :=
  match f.tops with
  | .ieee => 2 ^ (f.fbits + 1) - 1 | .oneNan => 2 ^ (f.fbits + 1) - 2 | .finite => 2 ^ (f.fbits + 1) - 1
def Fmt.sign (f : Fmt) (neg : Bool) : Nat := if neg then 2 ^ (f.width - 1) else 0
def Fmt.maxBits (f : Fmt) (neg : Bool) : Nat := f.sign neg + f.topField * 2 ^ f.fbits + (f.topSig - 2 ^ f.fbits)
/-- The canonical NaN (R86); the formats without one give 0. -/
def Fmt.nanBits (f : Fmt) : Nat :=
  match f.tops with
  | .ieee => (2 ^ f.ebits - 1) * 2 ^ f.fbits + 2 ^ (f.fbits - 1)
  | .oneNan => 2 ^ (f.width - 1) - 1
  | .finite => 0
/-- The encoding of an infinity; `e4m3` gives a NaN by sign (R91). -/
def Fmt.infBits (f : Fmt) (neg : Bool) : Nat :=
  match f.tops with
  | .ieee => f.sign neg + (2 ^ f.ebits - 1) * 2 ^ f.fbits
  | .oneNan => f.sign neg + (2 ^ (f.width - 1) - 1)
  | .finite => f.maxBits neg

/-- The value of an encoding (R81, R85). -/
def Fmt.value (f : Fmt) (x : Nat) : Fv :=
  let neg := bitOf x (f.width - 1)
  let ef := bitsOf x f.fbits f.ebits
  let fr := x % 2 ^ f.fbits
  let fin : Fv := if ef = 0 then .fin neg fr (f.emin - f.fbits)
    else .fin neg (2 ^ f.fbits + fr) ((ef : Int) - f.bias - f.fbits)
  if ef = 2 ^ f.ebits - 1 then
    match f.tops with
    | .ieee => if fr = 0 then .inf neg else .nan (!bitOf fr (f.fbits - 1))
    | .oneNan => if fr = 2 ^ f.fbits - 1 then .nan false else fin
    | .finite => fin
  else fin

/-! Rounding (R89, R90). -/

/-- How a magnitude rounds: a mode of R89 with its draw. -/
structure RMode where
  rnd : Rnd
  draw : Nat := 0
deriving DecidableEq, Repr
def rneMode : RMode := ⟨.rne, 0⟩

/-- m × 2^−sh rounded to a natural number, for a value of the given sign; whether it was inexact. -/
def roundNat (md : RMode) (neg : Bool) (m : Nat) (sh : Int) : Nat × Bool :=
  if sh ≤ 0 then (m * 2 ^ (-sh).toNat, false)
  else
    let sh := sh.toNat
    let far := sh > Nat.log2 m + 40
    let n := if far then 0 else m / 2 ^ sh
    let rem := if far then m else m % 2 ^ sh
    if rem = 0 then (n, false)
    else
      let up : Bool := match md.rnd with
        | .rne => !far && (2 ^ sh < 2 * rem || (2 * rem == 2 ^ sh && n % 2 == 1))
        | .rtz => false
        | .rup => !neg
        | .rdn => neg
        | .rna => !far && 2 ^ sh ≤ 2 * rem
        | .rsr => !far && md.draw < rem * 2 ^ 32 / 2 ^ sh
      (if up then n + 1 else n, true)

/-- The result of an overflow (R91). -/
def Fmt.overflow (f : Fmt) (md : RMode) (neg sat : Bool) : Nat :=
  if sat then f.maxBits neg
  else match md.rnd with
    | .rne => f.infBits neg
    | .rna => f.infBits neg
    | .rsr => f.infBits neg
    | .rtz => f.maxBits neg
    | .rup => if neg then f.maxBits neg else f.infBits neg
    | .rdn => if neg then f.infBits neg else f.maxBits neg

/-- A nonzero magnitude m × 2^e rounded to a format, with its events (R88, R89, R91). -/
def Fmt.round (f : Fmt) (md : RMode) (sat neg : Bool) (m : Nat) (e : Int) : Nat × Fl :=
  let top : Int := e + Nat.log2 m
  let q : Int := max top f.emin - f.fbits
  let r := roundNat md neg m (q - e)
  let big := r.1 ≥ 2 ^ (f.fbits + 1)
  let n := if big then r.1 / 2 else r.1
  let q := if big then q + 1 else q
  let qMax : Int := (f.topField : Int) - f.bias - f.fbits
  if qMax < q ∨ (q = qMax ∧ f.topSig < n) then (f.overflow md neg sat, { ovf := 1, inx := 1 })
  else
    let free := roundNat md neg m (top - f.fbits - e)
    let tiny := top < f.emin && !(top == f.emin - 1 && free.1 ≥ 2 ^ (f.fbits + 1))
    let fl : Fl := { inx := if r.2 then 1 else 0, unf := if r.2 && tiny then 1 else 0 }
    if n < 2 ^ f.fbits then (f.sign neg + n, fl)
    else (f.sign neg + (q + f.bias + f.fbits).toNat * 2 ^ f.fbits + (n - 2 ^ f.fbits), fl)

/-- A value delivered in a format (R86–R91). -/
def Fmt.deliver (f : Fmt) (md : RMode) (sat : Bool) (v : Fv) : Nat × Fl :=
  match v with
  | .nan sig => (f.nanBits, flInv sig)
  | .inf n =>
    if sat then (f.maxBits n, .none)
    else (f.infBits n, flInv (f.tops == .oneNan))
  | .fin n m e => if m = 0 then (f.sign n, .none) else f.round md sat n m e

/-! Arithmetic on values; a result is a value to be rounded once, with the events raised on the way. -/

/-- A NaN operand gives a quiet NaN and an invalid event if one is signalling. -/
def nanOf (x y : Fv) : Fv × Fl := (.nan false, flInv (x.isSig || y.isSig))
/-- The signed integer m of a finite value at an exponent not above its own. -/
def atExp (neg : Bool) (m : Nat) (e e0 : Int) : Int :=
  let x : Int := (m * 2 ^ (e - e0).toNat : Nat)
  if neg then -x else x

/-- The sign of an exact zero sum of unlike terms: − under `rdn`, else + (R87). -/
def zeroSign (md : RMode) : Bool := md.rnd == .rdn

def fvAdd (md : RMode) (x y : Fv) : Fv × Fl :=
  match x, y with
  | .fin a m e, .fin b n k =>
    let e0 := min e k
    let s := atExp a m e e0 + atExp b n k e0
    if s = 0 then (.fin (if m = 0 ∧ n = 0 ∧ a = b then a else zeroSign md) 0 0, .none)
    else (.fin (s < 0) s.natAbs e0, .none)
  | .inf a, .inf b => if a = b then (.inf a, .none) else (.nan false, flInv true)
  | .inf a, .fin _ _ _ => (.inf a, .none)
  | .fin _ _ _, .inf b => (.inf b, .none)
  | .nan _, y => nanOf x y
  | x, .nan _ => nanOf x y

def fvMul (x y : Fv) : Fv × Fl :=
  match x, y with
  | .fin a m e, .fin b n k => (.fin (a != b) (m * n) (e + k), .none)
  | .inf a, .inf b => (.inf (a != b), .none)
  | .inf a, .fin b n _ => if n = 0 then (.nan false, flInv true) else (.inf (a != b), .none)
  | .fin a m _, .inf b => if m = 0 then (.nan false, flInv true) else (.inf (a != b), .none)
  | .nan _, y => nanOf x y
  | x, .nan _ => nanOf x y

/-- x × y + z with one rounding (R179); an invalid product stays invalid whatever z is. -/
def fvFma (md : RMode) (x y z : Fv) : Fv × Fl :=
  let p := fvMul x y
  if p.1.isNan then (p.1, p.2.once (flInv z.isSig))
  else
    let r := fvAdd md p.1 z
    (r.1, r.2.once p.2)

/-- Bits kept beyond a rounding point when a quotient or root is cut short; the last one is odd if anything is left. -/
abbrev extraBits : Nat := 200

/-- x ÷ y (R180). -/
def fvDiv (x y : Fv) : Fv × Fl :=
  match x, y with
  | .fin a m e, .fin b n k =>
    if n = 0 then
      if m = 0 then (.nan false, flInv true) else (.inf (a != b), { dz := 1 })
    else if m = 0 then (.fin (a != b) 0 0, .none)
    else
      let sh := extraBits + Nat.log2 n
      let num := m * 2 ^ sh
      (.fin (a != b) (num / n * 2 + (if num % n = 0 then 0 else 1)) (e - k - sh - 1), .none)
  | .inf _, .inf _ => (.nan false, flInv true)
  | .inf a, .fin b _ _ => (.inf (a != b), .none)
  | .fin a _ _, .inf b => (.fin (a != b) 0 0, .none)
  | .nan _, y => nanOf x y
  | x, .nan _ => nanOf x y

/-- The integer square root of x, bit by bit from bit k − 1 of the root. -/
def isqrtFrom (x r : Nat) : Nat → Nat
  | 0 => r
  | k + 1 => if (r + 2 ^ k) * (r + 2 ^ k) ≤ x then isqrtFrom x (r + 2 ^ k) k else isqrtFrom x r k
def isqrt (x : Nat) : Nat := isqrtFrom x 0 (Nat.log2 x / 2 + 1)

/-- √x (R180). -/
def fvSqrt (x : Fv) : Fv × Fl :=
  match x with
  | .nan s => (.nan false, flInv s)
  | .inf n => if n then (.nan false, flInv true) else (.inf false, .none)
  | .fin n m e =>
    if m = 0 then (.fin n 0 0, .none)
    else if n then (.nan false, flInv true)
    else
      let odd := e % 2 != 0
      let e' := if odd then e - 1 else e
      let w := (if odd then 2 * m else m) * 2 ^ (2 * extraBits)
      let r := isqrt w
      (.fin false (r * 2 + (if r * r = w then 0 else 1)) (e' / 2 - extraBits - 1), .none)

/-- x compared with y: less, equal, greater; none if either is a NaN. -/
def fvCmp (x y : Fv) : Option Ordering :=
  match x, y with
  | .fin a m e, .fin b n k =>
    let e0 := min e k
    some (compare (atExp a m e e0) (atExp b n k e0))
  | .inf a, .inf b => some (if a = b then .eq else if a then .lt else .gt)
  | .inf a, .fin _ _ _ => some (if a then .lt else .gt)
  | .fin _ _ _, .inf b => some (if b then .gt else .lt)
  | .nan _, _ => none
  | _, .nan _ => none

/-- The lesser (or, with `hi`, the greater) of two values with −0 below +0; NaN if either is (R179). -/
def fvPick (hi : Bool) (x y : Fv) : Fv × Fl :=
  match fvCmp x y with
  | none => nanOf x y
  | some o =>
    let less := match o with
      | .lt => true
      | .gt => false
      | .eq => x.neg?
    (if less != hi then x else y, .none)

/-! Conversions. -/

/-- The float of an integer (R92). -/
def intValue (i : Int) : Fv := .fin (i < 0) i.natAbs 0
/-- A value rounded to an integer type of `n` bits (R92): its bits and events. -/
def toInt (md : RMode) (signed : Bool) (n : Nat) (v : Fv) : Nat × Fl :=
  let lo : Int := if signed then -(2 ^ (n - 1) : Int) else 0
  let hi : Int := if signed then 2 ^ (n - 1) - 1 else 2 ^ n - 1
  match v with
  | .nan _ => (0, flInv true)
  | .inf neg => (toBits n (if neg then lo else hi), flInv true)
  | .fin neg m e =>
    let r := roundNat md neg m (-e)
    let i : Int := if neg then -(r.1 : Int) else r.1
    let c := clampInt lo hi i
    (toBits n c.1, if c.2 then flInv true else { inx := if r.2 then 1 else 0 })

/-- The bits and signedness of an integer type of `VCVT`. -/
def ityWidth : ITy → Nat
  | .i64 => 64 | .i32 => 32 | .i16 => 16 | .i8 => 8 | .n64 => 64 | .n32 => 32 | .n16 => 16 | .n8 => 8
def itySigned : ITy → Bool
  | .i64 => true | .i32 => true | .i16 => true | .i8 => true | .n64 => false | .n32 => false | .n16 => false | .n8 => false

/-! MX blocks (R82–R84, R93, R95). -/

/-- Bits of an element. -/
def mtyBits : MTy → Nat
  | .mx8 => 8 | .mx8e5 => 8 | .mx6 => 6 | .mx6e2 => 6 | .mx4 => 4 | .mxi8 => 8
/-- The float layout of an element; none for `mxi8`. -/
def mtyFmt : MTy → Option Fmt
  | .mx8 => some fmtE4m3 | .mx8e5 => some fmtE5m2 | .mx6 => some fmtMx6 | .mx6e2 => some fmtMx6e2 | .mx4 => some fmtMx4
  | .mxi8 => none
/-- emax of R93. -/
def mtyEmax : MTy → Int
  | .mx8 => 8 | .mx8e5 => 15 | .mx6 => 4 | .mx6e2 => 2 | .mx4 => 2 | .mxi8 => 0
/-- The largest normal M of R93, as a value. -/
def mtyMax : MTy → Fv
  | .mx8 => .fin false 448 0 | .mx8e5 => .fin false 57344 0 | .mx6 => .fin false 28 0 | .mx6e2 => .fin false 15 (-1)
  | .mx4 => .fin false 6 0 | .mxi8 => .fin false 127 (-6)

/-- The value of an element encoding (R81, R82). -/
def mtyValue (t : MTy) (x : Nat) : Fv :=
  match mtyFmt t with
  | some f => f.value x
  | none => intValue (sv 8 x) |> fun v => match v with
    | .fin n m e => .fin n m (e - 6)
    | v => v
/-- A value scaled by a power of two. -/
def Fv.scale (v : Fv) (k : Int) : Fv :=
  match v with
  | .fin n m e => .fin n m (e + k)
  | .inf n => .inf n
  | .nan s => .nan s
/-- An element with its block's scale: NaN under scale 0xFF (R83, R84). -/
def mxValue (t : MTy) (x c : Nat) : Fv := if c = 255 then .nan false else (mtyValue t x).scale ((c : Int) - 127)

/-- One element of a block: v ÷ 2^X rounded and saturated (R93). -/
def mxElement (t : MTy) (v : Fv) (xx : Int) : Nat × Fl :=
  match v with
  | .fin neg m e =>
    if m = 0 then (match mtyFmt t with
      | some f => f.sign neg
      | none => 0, .none)
    else match mtyFmt t with
      | some f =>
        let r := f.round rneMode true neg m (e - xx)
        r
      | none =>
        let r := roundNat rneMode neg m (-(e - xx + 6))
        let i : Int := if neg then -(r.1 : Int) else r.1
        let c := clampInt (-128) 127 i
        (toBits 8 c.1,
          { ovf := if c.2 then 1 else 0, inx := if r.2 || c.2 then 1 else 0, unf := if r.2 && r.1 == 0 then 1 else 0 })
  | .inf _ => (0, .none)
  | .nan _ => (0, .none)

/-- The greatest magnitude of a list of finite values. -/
def maxMag (vs : List Fv) : Fv :=
  vs.foldl (fun a v => match v with
    | .fin _ m e => if fvCmp a (.fin false m e) == some .lt then .fin false m e else a
    | .inf _ => a
    | .nan _ => a) (.fin false 0 0)

/-- A block quantised (R93): the scale, the element encodings and the events. -/
def mxQuantise (t : MTy) (noclip : Bool) (vs : List Fv) : Nat × List Nat × Fl :=
  if vs.any fun v => !v.isFin then (255, vs.map fun _ => 0, flInv true)
  else
    let xx : Int := match maxMag vs with
      | .fin _ m e =>
        if m = 0 then -127
        else
          let x0 := e + Nat.log2 m - mtyEmax t
          let x1 := if noclip && fvCmp (mtyMax t) (.fin false m (e - x0)) == some .lt then x0 + 1 else x0
          min (max x1 (-127)) 127
      | .inf _ => -127
      | .nan _ => -127
    let els := vs.map fun v => mxElement t v xx
    ((xx + 127).toNat, els.map (·.1), els.foldl (fun a x => a.add x.2) .none)

end Sys2Proof.Machine
end

