-- ==== Sys2Proof/WellFormed.lean ====
section
/-!
DEFINITION. Which instruction terms the encoding admits (R98, R109–R112 and the field tables of each page).
-/
namespace Sys2Proof

/-- An immediate holds no more bits than its base field of `n` bits and its `IMX` prefixes supply (R98). -/
def Imm.wf (i : Imm) (n : Nat) : Bool := i.ext ≤ 4 && i.val < 2 ^ (n + 12 * i.ext)
/-- An index operand. -/
def Idx.wf : Idx → Bool
  | .reg _ => true
  | .imm i => i.wf 4
/-- A float source. -/
def FSrc.wf : FSrc → Bool
  | .vec _ => true
  | .imm i => i.wf 4
/-- An even register code names a pair (R205). -/
def evenGpr (g : Gpr) : Bool := g.toNat % 2 == 0
/-- Strides take an even GPR pair; gathers take 32- or 64-bit elements (R205). -/
def VIdx.wf (w : Width) : VIdx → Bool
  | .contiguous _ => true
  | .strided b => evenGpr b
  | .gather _ => w == .w64 || w == .w32
/-- A jump target. -/
def Target.wf : Target → Bool
  | .rel i => i.wf 4
  | .reg _ => true
  | .cap _ _ => true
/-- The scope lies between two codes. -/
def Scope.between (s : Scope) (lo hi : Nat) : Bool := lo ≤ s.code && s.code ≤ hi
/-- Saturation is for conversions to the 8-bit formats (R182). -/
def Cvt.satOk (c : Cvt) (sat : Bool) : Bool :=
  match c with
  | .floatFloat _ .e4m3 => true
  | .floatFloat _ .e5m2 => true
  | .floatFloat _ _ => !sat
  | .floatInt _ _ => !sat
  | .intFloat _ _ => !sat
/-- The tile sizes R226 accepts, by element and shape code. -/
def tileFits (e : TElem) (s tr : Nat) : Bool :=
  match e, s with
  | .b64, 15 | .b32, 15 | .b16, 15 | .b8, 15 => tr == 0
  | _, 12 | _, 13 | _, 14 | _, 15 => false
  | e, s => small e s tr
where
  elems : Nat → Nat
    | 0 => 4096 | 1 => 8192 | 2 => 16384 | 3 => 32768 | 4 => 1024 | 5 => 2048
    | 6 => 8192 | 7 => 16384 | 8 => 32768 | 9 => 1024 | 10 => 1024 | _ => 256
  bits : TElem → Nat
    | .b64 => 64 | .b32 => 32 | .b16 => 16 | .b8 => 8 | .b6 => 6 | .b4 => 4
  small (e : TElem) (s tr : Nat) : Bool :=
    elems s * bits e ≤ 131072 && (tr == 0 || (tr == 1 && e == .b8) || (tr == 2 && e == .b16))
/-- The control register numbers of R135. -/
def csrWf (n : Nat) : Bool :=
  n ≤ 11 || (256 ≤ n && n < 512 && n % 16 ≤ 11) || (512 ≤ n && n ≤ 575) || (768 ≤ n && n ≤ 775)
/-- The numbers whose writes are rows of their own. -/
def csrOwnRow (n : Nat) : Bool :=
  n == 11 || n == 6 || (256 ≤ n && n < 512 && (n % 16 == 11 || n % 16 == 6)) ||
  n == 0x20F || n == 0x210 || n == 0x209 || (0x303 ≤ n && n ≤ 0x307)

/-- The instruction terms the encoding admits. An event has no encoding and no condition. -/
def Instr.wf : Instr → Bool
  | .add _ _ _ _ => true
  | .min _ _ _ _ => true
  | .max _ _ _ _ => true
  | .minn _ _ _ _ => true
  | .maxn _ _ _ _ => true
  | .addi _ _ _ i => i.wf 4
  | .sub _ _ _ _ => true
  | .and _ _ _ _ => true
  | .or _ _ _ _ => true
  | .xor _ _ _ _ => true
  | .andn _ _ _ _ => true
  | .orn _ _ _ _ => true
  | .xnor _ _ _ _ => true
  | .shl _ _ _ _ => true
  | .shr _ _ _ _ => true
  | .sra _ _ _ _ => true
  | .rol _ _ _ _ => true
  | .ror _ _ _ _ => true
  | .shli _ _ _ i => i.wf 4
  | .shri _ _ _ i => i.wf 4
  | .srai _ _ _ i => i.wf 4
  | .roli _ _ _ i => i.wf 4
  | .rori _ _ _ i => i.wf 4
  | .mul _ _ _ _ => true
  | .mulh _ _ _ _ => true
  | .mulhn _ _ _ _ => true
  | .div _ _ _ _ => true
  | .divn _ _ _ _ => true
  | .rem _ _ _ _ => true
  | .remn _ _ _ _ => true
  | .cmpeq _ _ _ _ => true
  | .cmpne _ _ _ _ => true
  | .cmplt _ _ _ _ => true
  | .cmple _ _ _ _ => true
  | .cmpltn _ _ _ _ => true
  | .cmplen _ _ _ _ => true
  | .cmpeqi _ _ _ i => i.wf 4
  | .cmpnei _ _ _ i => i.wf 4
  | .cmplti _ _ _ i => i.wf 4
  | .cmplei _ _ _ i => i.wf 4
  | .cmpltni _ _ _ i => i.wf 4
  | .cmpleni _ _ _ i => i.wf 4
  | .mov _ _ => true
  | .movCap _ _ => true
  | .neg _ _ _ => true
  | .not _ _ _ => true
  | .clz _ _ _ => true
  | .ctz _ _ _ => true
  | .popc _ _ _ => true
  | .sext _ _ _ => true
  | .zext _ _ _ => true
  | .bswap _ _ _ => true
  | .sel _ _ _ => true
  | .lih _ i => i.wf 4
  | .br _ => true
  | .li _ i => i.wf 8
  | .jmp t => t.wf
  | .call _ t => t.wf
  | .ret _ => true
  | .vadd _ _ _ _ => true
  | .vsub _ _ _ _ => true
  | .vmin _ _ _ _ => true
  | .vmax _ _ _ _ => true
  | .vminn _ _ _ _ => true
  | .vmaxn _ _ _ _ => true
  | .vadds _ _ _ _ _ => true
  | .vsubs _ _ _ _ _ => true
  | .vmul _ _ _ _ => true
  | .vmulh _ _ _ _ => true
  | .vmulhn _ _ _ _ => true
  | .vmad _ _ _ _ => true
  | .vdot4 _ _ _ _ => true
  | .vand _ _ _ _ => true
  | .vor _ _ _ _ => true
  | .vxor _ _ _ _ => true
  | .vandn _ _ _ _ => true
  | .vshl _ _ _ _ => true
  | .vshr _ _ _ _ => true
  | .vsra _ _ _ _ => true
  | .vcmpeq _ _ _ _ => true
  | .vcmpne _ _ _ _ => true
  | .vcmplt _ _ _ _ => true
  | .vcmple _ _ _ _ => true
  | .vcmpltn _ _ _ _ => true
  | .vcmplen _ _ _ _ => true
  | .vsel _ _ _ => true
  | .vbcast _ _ _ => true
  | .vbcastImm _ _ i => i.wf 4
  | .viota _ _ _ => true
  | .vmovpToPred _ _ => true
  | .vmovpToVec _ _ => true
  | .vperm _ _ _ _ => true
  | .vrot _ _ _ _ => true
  | .vzip _ _ _ _ => true
  | .vunzip _ _ _ _ => true
  | .vredadd _ _ _ => true
  | .vredmin _ _ _ _ => true
  | .vredmax _ _ _ _ => true
  | .vredand _ _ _ => true
  | .vredor _ _ _ => true
  | .vscanadd _ _ _ => true
  | .vscanmax _ _ _ _ => true
  | .vextr _ _ _ _ _ => true
  | .vins _ _ _ _ => true
  | .pand _ _ _ => true
  | .por _ _ _ => true
  | .pxor _ _ _ => true
  | .pnot _ _ => true
  | .pcnt _ _ => true
  | .pfirst _ _ => true
  | .vfadd _ _ _ _ b => b.wf
  | .vfsub _ _ _ _ b => b.wf
  | .vfmul _ _ _ _ b => b.wf
  | .vfmin _ _ _ b => b.wf
  | .vfmax _ _ _ b => b.wf
  | .vfma _ _ _ _ b => b.wf
  | .vfms _ _ _ _ b => b.wf
  | .vfnma _ _ _ _ b => b.wf
  | .vfdiv _ _ _ _ _ => true
  | .vfsqrt _ _ _ _ => true
  | .vfrcp _ _ _ => true
  | .vfrsq _ _ _ => true
  | .vfcmpeq _ _ _ _ => true
  | .vfcmpne _ _ _ _ => true
  | .vfcmplt _ _ _ _ => true
  | .vfcmple _ _ _ _ => true
  | .vfcmpun _ _ _ _ => true
  | .vcvt c _ n _ _ => c.satOk n
  | .vqmx _ _ _ _ _ => true
  | .vdqmx _ _ _ _ => true
  | .vfexp2 _ _ _ => true
  | .vflog2 _ _ _ => true
  | .vftanh _ _ _ => true
  | .vfsigm _ _ _ => true
  | .vsmx c d _ b => c.toNat ≤ 4 && d != b
  | .vfredadd _ _ _ _ => true
  | .vfredmax _ _ _ => true
  | .vfredmin _ _ _ => true
  | .vfabs _ _ _ => true
  | .vfneg _ _ _ => true
  | .vfclass _ _ _ => true
  | .ld _ _ _ _ => true
  | .ldi _ _ _ i => i.wf 4
  | .st _ _ _ _ => true
  | .sti _ _ _ i => i.wf 4
  | .vld w _ _ x => x.wf w
  | .vst w _ _ x => x.wf w
  | .tld e s tr _ _ x => x.wf && tileFits e s.toNat tr.toNat
  | .rowact _ x => x.wf
  | .rowpre _ x => x.wf
  | .capld _ _ _ => true
  | .capst _ _ _ => true
  | .capnarrow _ _ b => evenGpr b
  | .capoff _ _ s => s.toNat ≤ 6
  | .mma _ _ _ _ _ => true
  | .mmas _ _ _ _ _ => true
  | .mzero _ => true
  | .mfmt _ => true
  | .tst _ _ x => x.wf
  | .mepi m t r n _ => (if m = 7 then t == .f32 && r == .rne && !n else m.toNat ≤ 4 && r != .rsr && (!n || t == .e4m3 || t == .e5m2))
  | .tldacc _ _ x => x.wf
  | .obput _ _ _ => true
  | .obget _ _ _ => true
  | .mstat _ _ => true
  | .mfence => true
  | .mfenceCore => true
  | .rel sc => sc.between 2 8
  | .acq sc _ _ => sc.between 2 8
  | .fence _ => true
  | .amoadd _ _ _ x _ => x.wf
  | .amomin _ _ _ x _ => x.wf
  | .amomax _ _ _ x _ => x.wf
  | .amoand _ _ _ x _ => x.wf
  | .amoor _ _ _ x _ => x.wf
  | .amoxor _ _ _ x _ => x.wf
  | .amoswap _ _ _ x _ => x.wf
  | .cas _ d _ x => x.wf && evenGpr d
  | .ldc _ _ x => x.wf
  | .ldf _ _ x => x.wf
  | .stp _ _ x => x.wf
  | .sete _ x => x.wf
  | .setf _ _ x => x.wf
  | .feq _ _ x => x.wf
  | .swarm sc _ _ x => x.wf && sc.between 1 8
  | .swwait _ _ x => x.wf
  | .swadd sc _ _ x => x.wf && sc.between 1 8
  | .swrd _ _ x => x.wf
  | .bar sc => sc.between 2 7
  | .logq _ _ s => s.toNat ≤ 9
  | .mirfl _ _ _ => true
  | .mirflAll => true
  | .cpy _ => true
  | .cpyMulticast _ => true
  | .cpyConvert _ => true
  | .cpyf _ => true
  | .collAllreduce sc _ => sc.between 4 7
  | .collReduceScatter sc _ => sc.between 4 7
  | .collAllGather sc _ => sc.between 4 7
  | .collXorParity sc _ => sc.between 4 7
  | .send _ _ _ _ => true
  | .recv _ _ => true
  | .rcallRd _ _ _ x => x.wf
  | .rcallWr _ _ _ x => x.wf
  | .rcallAdd _ _ x => x.wf
  | .rcallSwap _ _ x => x.wf
  | .rcallCas _ _ x => x.wf
  | .launch _ _ b => b.toNat ≤ 11
  | .launchi _ _ b => b.toNat ≤ 10
  | .join _ _ => true
  | .epoll _ s => s.toNat ≤ 2
  | .sopen _ _ => true
  | .sclose _ => true
  | .sframe _ _ _ => true
  | .sgen _ _ => true
  | .sgenAbandon _ _ => true
  | .splay _ _ => true
  | .strunc _ _ => true
  | .ssnap _ _ _ => true
  | .skvaddr _ _ _ => true
  | .sstat _ _ => true
  | .scommit _ _ => true
  | .snext _ _ => true
  | .trap i => i.wf 4
  | .tret => true
  | .tretHalt => true
  | .tretAbort => true
  | .csrr _ i => i.wf 4 && csrWf i.val
  | .csrw _ i => i.wf 4 && csrWf i.val && !csrOwnRow i.val
  | .csrwCtxbase _ i => i.wf 4 && (i.val == 11 || (256 ≤ i.val && i.val < 512 && i.val % 16 == 11))
  | .csrwLogsize _ i => i.wf 4 && i.val == 0x20F
  | .csrwMirsize _ i => i.wf 4 && i.val == 0x210
  | .csrwUrglim _ i => i.wf 4 && i.val == 0x209
  | .csrwSeed _ i => i.wf 4 && (i.val == 6 || (256 ≤ i.val && i.val < 512 && i.val % 16 == 6))
  | .csrwWinbase _ i => i.wf 4 && (0x303 ≤ i.val && i.val ≤ 0x306)
  | .csrwRectdef _ i => i.wf 4 && i.val == 0x307
  | .yield _ => true
  | .park => true
  | .wake _ => true
  | .urg _ _ _ _ => true
  | .halt => true
  | .regevict _ _ => true
  | .regload _ _ => true
  | .cntrd _ _ => true
  | .cntclr _ => true
  | .cntsum sc _ _ => sc.between 2 7
  | .brk i => i.wf 4
  | .step => true
  | .stagedStart => true
  | .startEpisode => true
  | .phaekusHeartbeat => true
  | .failover => true
  | .clockStepChange => true
  | .quadReservationUpdate => true
  | .thermalSample => true
  | .vaultRequestArrival => true
  | .vaultBeat => true
  | .rowRepairEnd => true
  | .refreshStart => true
  | .refreshEnd => true
  | .laneFailure => true
  | .laneRepairEnd => true
  | .vaultBusStallEnd => true
  | .writeQueueSend => true
  | .registerLineFill => true
  | .vectorStart => true
  | .yieldEnd => true
  | .walkStart => true
  | .walkComplete => true
  | .walkRetry => true
  | .shootdown => true
  | .tableWriteSettled => true
  | .fenceMarker => true
  | .drainedPacket => true
  | .logShip => true
  | .logEntryApply => true
  | .logAck => true
  | .homeRead => true
  | .homeReadReply => true
  | .vaultAgentRequest => true
  | .homeAtomic => true
  | .homeFullEmpty => true
  | .homeSyncWord => true
  | .homeWaitRetry => true
  | .remoteReply => true
  | .postedPerformed => true
  | .switchMergeForward => true
  | .acqQuery => true
  | .acqWriterDone => true
  | .logqQuery => true
  | .messageArrival => true
  | .wakeArrival => true
  | .nakArrival => true
  | .handlerDispatch => true
  | .submissionArrival => true
  | .launchAccept => true
  | .launchCounted => true
  | .launchPacketArrival => true
  | .groupsPending => true
  | .groupStart => true
  | .dieReport => true
  | .completionRingWrite => true
  | .barrierArrival => true
  | .energyLeaseRequest => true
  | .energyLeaseGrant => true
  | .copyCommandStart => true
  | .copySegment => true
  | .segmentApply => true
  | .copyCompletion => true
  | .followOnIssue => true
  | .hostFlushRead => true
  | .collDescriptorArrival => true
  | .collInstanceRun => true
  | .matrixGrant => true
  | .matrixPerform => true
  | .tstChunkWrite => true
  | .flitTransmit => true
  | .flitReceive => true
  | .retryRequest => true
  | .trackDeath => true
  | .linkDeath => true
  | .urgentNakResend => true
  | .endToEndAck => true
  | .frameArrival => true
  | .streamOpPerform => true
  | .truncationEvent => true
  | .trapDelivery => true
  | .urgRequestArrival => true
  | .urgentEpisodeStart => true
  | .urgLimit => true
  | .deadlock => true
  | .quietPeriod => true
  | .containment => true
  | .hostBarWrite => true
  | .qresWrite => true
  | .contreqWrite => true
  | .bar2TableWrite => true
  | .launchDoorbellDirect => true
  | .launchDoorbellIndirect => true
  | .launchResultRead => true
  | .frameDoorbell => true
  | .frameResultRead => true
  | .illegalEncoding => true
  | .instructionFetchFault => true
  | .pcieError => true

end Sys2Proof
end

