-- ==== Sys2Proof/Decode.lean ====
section
/-!
DEFINITION. The decoder of halfword chains (R100–R117) and, after it, the encoder. A decoding reports the instruction
and its length, or the encoding trap with the failing halfword and its position (R117), or that the chain goes on.
-/
namespace Sys2Proof

/-- The raw fields of a chain: page, major code, the three 6-bit register fields (high bits from `RX`), the three `QX`
fields, the guard, and the bits the `IMX` prefixes supply (R101, R104, R107, R111, R112). -/
structure Fields where
  page : Nat
  m : Nat
  d : Nat
  a : Nat
  b : Nat
  qtop : Nat
  ty : Nat
  md : Nat
  gd : Guard
  ext : Nat
  hi : Nat
deriving DecidableEq, Repr

/-- `QX`[6], the flag of the arithmetic class. -/
def Fields.q6 (f : Fields) : Nat := f.qtop % 2
/-- `QX`[9:7], the rounding code of the arithmetic class. -/
def Fields.rc (f : Fields) : Nat := f.qtop / 2
/-- The immediate above a 4-bit base field (R98). -/
def Fields.immN (f : Fields) : Nat := f.hi * 16 + f.b % 16

/-! Codecs: one reading of the fields and one writing for each operand kind. -/

def Width.ofCode : Nat → Width
  | 0 => .w64 | 1 => .w32 | 2 => .w16 | _ => .w8
def Width.code : Width → Nat
  | .w64 => 0 | .w32 => 1 | .w16 => 2 | .w8 => 3
def MemTy.ofCode : Nat → MemTy
  | 0 => .i64 | 1 => .i32 | 2 => .i16 | 3 => .i8 | 5 => .n32 | 6 => .n16 | _ => .n8
def MemTy.code : MemTy → Nat
  | .i64 => 0 | .i32 => 1 | .i16 => 2 | .i8 => 3 | .n32 => 5 | .n16 => 6 | .n8 => 7
def AmoTy.ofCode : Nat → AmoTy
  | 0 => .i64 | 1 => .i32 | _ => .n32
def AmoTy.code : AmoTy → Nat
  | .i64 => 0 | .i32 => 1 | .n32 => 5
def FTy.ofCode : Nat → FTy
  | 0 => .f32 | 1 => .f64 | 2 => .f16 | 3 => .bf16 | 4 => .e4m3 | _ => .e5m2
def FTy.code : FTy → Nat
  | .f32 => 0 | .f64 => 1 | .f16 => 2 | .bf16 => 3 | .e4m3 => 4 | .e5m2 => 5
def VTy.ofCode : Nat → VTy
  | 0 => .f32 | 1 => .f64 | 2 => .f16 | _ => .bf16
def VTy.code : VTy → Nat
  | .f32 => 0 | .f64 => 1 | .f16 => 2 | .bf16 => 3
def STy.ofCode : Nat → STy
  | 0 => .f32 | 2 => .f16 | _ => .bf16
def STy.code : STy → Nat
  | .f32 => 0 | .f16 => 2 | .bf16 => 3
def MTy.ofCode : Nat → MTy
  | 0 => .mx8 | 1 => .mx8e5 | 2 => .mx6 | 3 => .mx6e2 | 4 => .mx4 | _ => .mxi8
def MTy.code : MTy → Nat
  | .mx8 => 0 | .mx8e5 => 1 | .mx6 => 2 | .mx6e2 => 3 | .mx4 => 4 | .mxi8 => 5
def ITy.ofCode : Nat → ITy
  | 0 => .i64 | 1 => .i32 | 2 => .i16 | 3 => .i8 | 4 => .n64 | 5 => .n32 | 6 => .n16 | _ => .n8
def ITy.code : ITy → Nat
  | .i64 => 0 | .i32 => 1 | .i16 => 2 | .i8 => 3 | .n64 => 4 | .n32 => 5 | .n16 => 6 | .n8 => 7
def Rnd.ofCode : Nat → Rnd
  | 0 => .rne | 1 => .rtz | 2 => .rup | 3 => .rdn | 4 => .rna | _ => .rsr
def Rnd.code : Rnd → Nat
  | .rne => 0 | .rtz => 1 | .rup => 2 | .rdn => 3 | .rna => 4 | .rsr => 5
def Scope.ofCode : Nat → Scope
  | 0 => .lane | 1 => .slot | 2 => .core | 3 => .vault | 4 => .quad
  | 5 => .die | 6 => .pkg | 7 => .pod | _ => .sys
def TElem.ofCode : Nat → TElem
  | 0 => .b64 | 1 => .b32 | 2 => .b16 | 3 => .b8 | 4 => .b6 | _ => .b4
def TElem.code : TElem → Nat
  | .b64 => 0 | .b32 => 1 | .b16 => 2 | .b8 => 3 | .b6 => 4 | .b4 => 5
def boolCode : Bool → Nat
  | true => 1 | false => 0

def Fields.putImm (f : Fields) (i : Imm) : Fields := { f with ext := i.ext, hi := i.val / 16, b := i.val % 16 }
def Fields.getImm (f : Fields) : Imm := ⟨f.ext, f.immN⟩
def Fields.putImm8 (f : Fields) (i : Imm) : Fields :=
  { f with ext := i.ext, hi := i.val / 256, a := i.val / 16 % 16, b := i.val % 16 }
def Fields.getImm8 (f : Fields) : Imm := ⟨f.ext, f.hi * 256 + f.a % 16 * 16 + f.b % 16⟩
def Fields.putOff (f : Fields) (o : BitVec 12) : Fields :=
  { f with d := o.toNat / 256, a := o.toNat / 16 % 16, b := o.toNat % 16 }
def Fields.getOff (f : Fields) : BitVec 12 := BitVec.ofNat 12 (f.d % 16 * 256 + f.a % 16 * 16 + f.b % 16)
def Fields.putTarget (f : Fields) : Target → Fields
  | .rel i => { f.putImm i with qtop := 0 }
  | .reg b => { f with qtop := 1, b := b.toNat }
  | .cap k b => { f with qtop := 2, a := k.toNat, b := b.toNat }
def Fields.getTarget (f : Fields) : Target :=
  if f.qtop = 0 then .rel f.getImm else if f.qtop = 1 then .reg (BitVec.ofNat 6 f.b)
  else .cap (BitVec.ofNat 4 f.a) (BitVec.ofNat 6 f.b)
def Fields.putRTarget (f : Fields) : RetTarget → Fields
  | .reg b => { f with qtop := 1, b := b.toNat }
  | .cap k b => { f with qtop := 2, a := k.toNat, b := b.toNat }
def Fields.getRTarget (f : Fields) : RetTarget :=
  if f.qtop = 1 then .reg (BitVec.ofNat 6 f.b) else .cap (BitVec.ofNat 4 f.a) (BitVec.ofNat 6 f.b)
/-- `QX`[6] selects the immediate: the float sources of page 2. -/
def Fields.putFSrc (f : Fields) : FSrc → Fields
  | .vec b => { f with qtop := f.qtop / 2 * 2, b := b.toNat }
  | .imm i => { f.putImm i with qtop := f.qtop / 2 * 2 + 1 }
def Fields.getFSrc (f : Fields) : FSrc := if f.q6 = 1 then .imm f.getImm else .vec (BitVec.ofNat 6 f.b)
def Fields.putCvt (f : Fields) : Cvt → Fields
  | .floatFloat s d => { f with b := 0, ty := s.code, md := d.code }
  | .floatInt s d => { f with b := 1, ty := s.code, md := d.code }
  | .intFloat s d => { f with b := 2, md := s.code, ty := d.code }
def Fields.getCvt (f : Fields) : Cvt :=
  if f.b = 0 then .floatFloat (FTy.ofCode f.ty) (FTy.ofCode f.md)
  else if f.b = 1 then .floatInt (FTy.ofCode f.ty) (ITy.ofCode f.md)
  else .intFloat (ITy.ofCode f.md) (FTy.ofCode f.ty)
def Fields.putVIdx (f : Fields) : VIdx → Fields
  | .contiguous b => { f with md := 0, b := b.toNat }
  | .strided b => { f with md := 1, b := b.toNat }
  | .gather b => { f with md := 2, b := b.toNat }
def Fields.getVIdx (f : Fields) : VIdx :=
  if f.md = 0 then .contiguous (BitVec.ofNat 6 f.b) else if f.md = 1 then .strided (BitVec.ofNat 6 f.b)
  else .gather (BitVec.ofNat 6 f.b)
/-- Index forms: `sel` says whether the immediate is chosen, `on` sets the choosing bit. -/
def Fields.putIdx (f : Fields) (on : Fields → Fields) : Idx → Fields
  | .reg b => { f with b := b.toNat }
  | .imm i => on (f.putImm i)
def Fields.getIdx (f : Fields) (sel : Bool) : Idx := if sel then .imm f.getImm else .reg (BitVec.ofNat 6 f.b)
def Fields.putMFmt (f : Fields) : MFmt → Fields
  | .float t => { f with md := 0, ty := t.code }
  | .mx t => { f with md := 1, ty := t.code }
  | .int8 => { f with md := 2, ty := 3 }
def Fields.getMFmt (f : Fields) : MFmt :=
  if f.md = 0 then .float (FTy.ofCode f.ty) else if f.md = 1 then .mx (MTy.ofCode f.ty) else .int8
def ObAcc.code : ObAcc → Nat
  | .ob o => o.toNat | .acc c => c.toNat
def ObAcc.flag : ObAcc → Nat
  | .ob _ => 0 | .acc _ => 1
def ObAcc.ofCode (flag n : Nat) : ObAcc := if flag = 1 then .acc (BitVec.ofNat 2 n) else .ob (BitVec.ofNat 3 n)
def Fields.putRecv (f : Fields) : Option Vr → Fields
  | none => f
  | some a => { f with qtop := 1, a := a.toNat }
def Fields.getRecv (f : Fields) : Option Vr := if f.qtop = 1 then some (BitVec.ofNat 6 f.a) else none

/-! The control register numbers whose writes are rows of their own (R135, R136, R138, R140). -/

/-- A per-slot register `i`, as the own number or as slot `n`'s at `0x100` + 16`n` + `i`. -/
def isSlotCsr (i n : Nat) : Bool := n == i || (n / 256 == 1 && n % 16 == i)
def isCsrCtxbase (n : Nat) : Bool := isSlotCsr 11 n
def isCsrSeed (n : Nat) : Bool := isSlotCsr 6 n
def isCsrLogsize (n : Nat) : Bool := n == 0x20F
def isCsrMirsize (n : Nat) : Bool := n == 0x210
def isCsrUrglim (n : Nat) : Bool := n == 0x209
def isCsrWinbase (n : Nat) : Bool := 0x303 ≤ n && n ≤ 0x306
def isCsrRectdef (n : Nat) : Bool := n == 0x307
/-- The numbers of R135's table; any other number raises `ILL_FIELD`. -/
def csrNumberOk (n : Nat) : Bool :=
  n ≤ 0x00B || (n / 256 == 1 && n % 16 ≤ 11) || (0x200 ≤ n && n ≤ 0x23F) || (0x300 ≤ n && n ≤ 0x307)

/-! What each row accepts. -/

/-- What a register field of the base word may hold (R110). -/
inductive FieldKind where
  | unused | gpr | evenGpr | vec | pred | cap (top : Nat) | ob | acc | sel (count : Nat) | imm | member
deriving DecidableEq, Repr

/-- The base-word code is in range (R110). -/
def FieldKind.baseOk (k : FieldKind) (x : Nat) : Bool :=
  match k with
  | .unused => x % 16 == 0
  | .gpr => true
  | .evenGpr => x % 2 == 0
  | .vec => true
  | .pred => x % 16 < 8
  | .cap top => x % 16 ≤ top
  | .ob => x % 16 < 8
  | .acc => x % 16 < 4
  | .sel n => x % 16 < n
  | .imm => true
  | .member => true

/-- The `RX` high bits are zero unless the field is a 6-bit one (R109). -/
def FieldKind.highOk (k : FieldKind) (x : Nat) : Bool :=
  match k with
  | .gpr => true
  | .evenGpr => true
  | .vec => true
  | .unused => x / 16 == 0
  | .pred => x / 16 == 0
  | .cap _ => x / 16 == 0
  | .ob => x / 16 == 0
  | .acc => x / 16 == 0
  | .sel _ => x / 16 == 0
  | .imm => x / 16 == 0
  | .member => x / 16 == 0

/-- A row of the opcode map: its fields' kinds, whether its `QX` fields are legal, whether it takes an immediate,
whether step 5 of R116 is passed over, and a last condition on the base word. -/
structure Row where
  d : FieldKind
  a : FieldKind
  b : FieldKind
  q : Bool
  imm : Bool := false
  immSkip : Bool := false
  base : Bool := true
deriving DecidableEq, Repr

/-- Page 0 (R114, R143). -/
def row0 (f : Fields) : Option Row :=
  let plain := f.qtop == 0 && f.ty ≤ 3
  let alu (top : Nat) : Option Row := if f.md ≤ top then some ⟨.gpr, .gpr, .gpr, plain, false, false, true⟩ else none
  match f.m with
  | 0x0 => alu 4
  | 0x1 => if f.md = 0 then some ⟨.gpr, .gpr, .imm, plain, true, false, true⟩ else none
  | 0x2 => alu 0
  | 0x3 => alu 5
  | 0x4 => alu 4
  | 0x5 => if f.md ≤ 4 then some ⟨.gpr, .gpr, .imm, plain, true, false, true⟩ else none
  | 0x6 => alu 6
  | 0x7 => if f.md ≤ 5 then some ⟨.pred, .gpr, .gpr, plain, false, false, true⟩ else none
  | 0x8 => if f.md ≤ 5 then some ⟨.pred, .gpr, .imm, plain, true, false, true⟩ else none
  | 0x9 =>
    if f.md ≠ 0 ∨ f.b > 8 then none
    else if f.b = 0 ∧ f.q6 = 1 then some ⟨.cap 15, .cap 15, .member, f.rc == 0 && f.ty == 0, false, false, true⟩
    else if f.b = 0 then some ⟨.gpr, .gpr, .member, f.qtop == 0 && f.ty == 0, false, false, true⟩
    else some ⟨.gpr, .gpr, .member, plain, false, false, true⟩
  | 0xA => some ⟨.gpr, .gpr, .gpr, f.qtop == 0 && f.ty == 0 && f.md == 0, false, false, true⟩
  | 0xB => some ⟨.gpr, .unused, .imm, f.qtop == 0 && f.ty == 0 && f.md == 0, true, false, true⟩
  | 0xC => some ⟨.imm, .imm, .imm, true, false, false, true⟩
  | 0xD => some ⟨.gpr, .imm, .imm, true, true, false, true⟩
  | _ => none

/-- Page 1 (R114, R166). -/
def row1 (f : Fields) : Option Row :=
  let ok (flag ty : Bool) : Bool := f.rc == 0 && flag && ty
  let noFlag := f.q6 == 0
  let w := f.ty ≤ 3
  let r (d a b : FieldKind) (q : Bool) : Option Row := some ⟨d, a, b, q, false, false, true⟩
  match f.m with
  | 0x0 => r .vec .vec .vec (ok (noFlag || f.md ≥ 6) w)
  | 0x1 => if f.md ≤ 3 then r .vec .vec .vec (ok noFlag w)
           else if f.md = 4 then r .vec .vec .vec (ok true (f.ty == 3)) else none
  | 0x2 => if f.md ≤ 3 then r .vec .vec .vec (ok noFlag w) else none
  | 0x3 => if f.md ≤ 2 then r .vec .vec .vec (ok noFlag w) else none
  | 0x4 => if f.md ≤ 5 then r .pred .vec .vec (ok noFlag w) else none
  | 0x5 => r .vec .vec .vec (ok noFlag (f.ty == 0) && f.md == 0)
  | 0x6 =>
    if f.md = 0 then
      if f.q6 = 1 then some ⟨.vec, .unused, .imm, ok true w, true, false, true⟩ else r .vec .gpr .unused (ok true w)
    else if f.md = 1 then r .vec .gpr .unused (ok noFlag w)
    else if f.md = 2 then
      if f.q6 = 1 then r .vec .pred .unused (ok true (f.ty == 0)) else r .pred .vec .unused (ok true (f.ty == 0))
    else none
  | 0x7 => if f.md = 1 then r .vec .vec .gpr (ok noFlag w)
           else if f.md ≤ 3 then r .vec .vec .vec (ok noFlag w) else none
  | 0x8 => if f.md ≤ 4 then r .gpr .vec .unused (ok (noFlag || f.md == 1 || f.md == 2) w) else none
  | 0x9 => if f.md ≤ 1 then r .vec .vec .unused (ok (noFlag || f.md == 1) w) else none
  | 0xA => if f.md = 0 then r .gpr .vec .gpr (ok true w)
           else if f.md = 1 then r .vec .gpr .gpr (ok noFlag w) else none
  | 0xB =>
    let p := ok noFlag (f.ty == 0)
    if f.md ≤ 2 then r .pred .pred .pred p
    else if f.md = 3 ∨ f.md = 5 then r .pred .pred .unused p
    else if f.md = 4 then r .gpr .pred .unused p else none
  | _ => none

/-- Page 2 (R114, R167). The kind of a `VCVT` is its base word's b field: nonzero high bits are a failure of `RX` alone (R117,
R182). A `VSMX` whose d and b name one register fails in its base word, though the codes lie in `RX` too: the spec does not say
which halfword that is (R117, assumption 90). -/
def row2 (f : Fields) : Option Row :=
  let v := f.ty ≤ 3
  let s := f.ty == 0 || f.ty == 2 || f.ty == 3
  let rAny := f.rc ≤ 5
  let rZero := f.rc == 0
  let noFlag := f.q6 == 0
  let r (d a b : FieldKind) (q : Bool) : Option Row := some ⟨d, a, b, q, false, false, true⟩
  let src (q : Bool) : Option Row :=
    if f.q6 = 1 then some ⟨.vec, .vec, .imm, q, true, false, true⟩ else r .vec .vec .vec q
  match f.m with
  | 0x0 => if f.md ≤ 2 then src (rAny && v) else if f.md ≤ 4 then src (rZero && v) else none
  | 0x1 => if f.md ≤ 2 then src (rAny && v) else none
  | 0x2 => if f.md = 0 then r .vec .vec .vec (rAny && noFlag && v)
           else if f.md = 1 then r .vec .vec .unused (rAny && noFlag && v)
           else if f.md ≤ 3 then r .vec .vec .unused (rZero && noFlag && v) else none
  | 0x3 => if f.md ≤ 4 then r .pred .vec .vec (rZero && noFlag && v) else none
  | 0x4 =>
    let kind := f.b % 16
    let q := rAny && f.ty ≤ 5 && (if kind = 0 then f.md ≤ 5 else true) &&
      (noFlag || (kind == 0 && (f.md == 4 || f.md == 5)))
    r .vec .vec (.sel 3) q
  | 0x5 => r .vec .vec .unused (rZero && s && f.md ≤ 5)
  | 0x6 => r .vec .vec .unused (rZero && noFlag && s && f.md ≤ 5)
  | 0x7 => if f.md ≤ 3 then r .vec .vec .unused (rZero && noFlag && s) else none
  | 0x8 => some ⟨.vec, .vec, .vec, rZero && noFlag && f.ty == 0 && f.md ≤ 4, false, false, f.d != f.b⟩
  | 0x9 => if f.md = 0 then r .gpr .vec .unused (rAny && noFlag && v)
           else if f.md ≤ 2 then r .gpr .vec .unused (rZero && noFlag && v) else none
  | 0xA => if f.md ≤ 2 then r .vec .vec .unused (rZero && noFlag && v) else none
  | _ => none

/-- Bytes of the tile that an element code and a shape name, none where R226 refuses them. -/
def tileShape : Nat → Option (Nat × Nat)
  | 0 => some (64, 64) | 1 => some (64, 128) | 2 => some (64, 256) | 3 => some (64, 512)
  | 4 => some (32, 32) | 5 => some (32, 64) | 6 => some (128, 64) | 7 => some (256, 64)
  | 8 => some (512, 64) | 9 => some (16, 64) | 10 => some (64, 16) | 11 => some (16, 16)
  | _ => none
/-- Bits of a tile element (R226). -/
def TElem.bits : TElem → Nat
  | .b64 => 64 | .b32 => 32 | .b16 => 16 | .b8 => 8 | .b6 => 6 | .b4 => 4
/-- The tile's size S in bytes (R226). -/
def tileBytes (e : TElem) (shape : Nat) : Option Nat :=
  if shape = 15 then (if e.code ≤ 3 then some (256 * 2 ^ e.code) else none)
  else match tileShape shape with
    | none => none
    | some (r, c) =>
      if r * c * e.bits / 8 > 16384 ∨ (e = .b6 ∧ r * c % 32 ≠ 0) then none else some (r * c * e.bits / 8)
/-- The combinations of `TLD` that R226 accepts. -/
def tileOk (e : TElem) (shape tr : Nat) : Bool :=
  (tileBytes e shape).isSome &&
  (tr == 0 || (shape != 15 && ((tr == 1 && e == .b8) || (tr == 2 && e == .b16))))

/-- Page 3 (R205, R225). A `VLD` or `VST` of an undefined mode is judged as one of mode 0, where the spec does not say which
further fields fail (R117, assumption 90). -/
def row3 (f : Fields) : Option Row :=
  let mem := f.qtop == 0 && f.ty != 4 && f.md == 0
  let k : FieldKind := .cap 15
  let r (d a b : FieldKind) (q : Bool) : Option Row := some ⟨d, a, b, q, false, false, true⟩
  let vmem : Option Row :=
    r .vec k (if f.md = 1 then .evenGpr else if f.md = 2 then .vec else .gpr)
      (f.qtop == 0 && f.md ≤ 2 && (if f.md = 2 then f.ty ≤ 1 else f.ty ≤ 3))
  match f.m with
  | 0x0 => r .gpr k .gpr mem
  | 0x1 => some ⟨.gpr, k, .imm, mem, true, false, true⟩
  | 0x2 => r .gpr k .gpr mem
  | 0x3 => some ⟨.gpr, k, .imm, mem, true, false, true⟩
  | 0x4 => vmem
  | 0x5 => vmem
  | 0x6 =>
    let q := f.ty ≤ 5 && tileOk (TElem.ofCode f.ty) f.qtop (f.md % 4)
    if f.md / 4 = 1 then some ⟨.ob, k, .imm, q, true, false, true⟩ else r .ob k .gpr q
  | 0x7 =>
    if f.md ≤ 1 then
      let q := f.rc == 0 && f.ty == 0
      if f.q6 = 1 then some ⟨.unused, k, .imm, q, true, false, true⟩ else r .unused k .gpr q
    else none
  | 0x8 =>
    let q := f.qtop == 0 && f.ty == 0
    match f.md with
    | 0 => r k k .gpr q
    | 1 => r k k .gpr q
    | 2 => r k k .evenGpr q
    | 3 => r .gpr k (.sel 7) q
    | _ => none
  | _ => none

/-- Page 4 (R225). -/
def row4 (f : Fields) : Option Row :=
  let k : FieldKind := .cap 15
  let r (d a b : FieldKind) (q : Bool) : Option Row := some ⟨d, a, b, q, false, false, true⟩
  let idx : Option Row :=
    let q := f.rc == 0 && f.ty == 0 && f.md == 0
    if f.q6 = 1 then some ⟨.acc, k, .imm, q, true, false, true⟩ else r .acc k .gpr q
  match f.m with
  | 0x0 => r .acc .ob .ob (f.rc == 0 && f.ty == 0 && f.md ≤ 1)
  | 0x1 => r .acc .ob .ob (f.rc == 0 && f.ty == 0 && f.md ≤ 1)
  | 0x2 => r .acc .unused .unused (f.qtop == 0 && f.ty == 0 && f.md == 0)
  | 0x3 => r .unused .unused .unused
             (f.qtop == 0 && ((f.md ≤ 1 && f.ty ≤ 5) || (f.md == 2 && f.ty == 3)))
  | 0x4 => idx
  | 0x5 => r .unused .vec .unused
             (if f.md = 7 then f.qtop == 0 && f.ty == 0
              else f.md ≤ 4 && f.rc ≤ 4 && f.ty ≤ 5 && (f.q6 == 0 || f.ty ≥ 4))
  | 0x6 => idx
  | 0x7 =>
    let o : FieldKind := if f.q6 = 1 then .acc else .ob
    let q := f.rc == 0 && f.ty == 0
    match f.md with
    | 0 => r o .vec .gpr q
    | 1 => r .vec o .gpr q
    | _ => none
  | 0x8 => r .gpr .unused (.sel 4) (f.qtop == 0 && f.ty == 0 && f.md == 0)
  | 0x9 => r .unused .unused .unused (f.qtop ≤ 1 && f.ty == 0 && f.md == 0)
  | _ => none

/-- Page 5 (R205, R270, R351). A sync word of an undefined type is judged with a register index of which no high bits count, and a
`MIRFL` of an undefined form as the form without operands, where the spec does not say which further fields fail (R117,
assumption 90). -/
def row5 (f : Fields) : Option Row :=
  let k : FieldKind := .cap 15
  let z := f.ty == 0 && f.md == 0
  let r (d a b : FieldKind) (q : Bool) : Option Row := some ⟨d, a, b, q, false, false, true⟩
  let at9 (d : FieldKind) (q : Bool) : Option Row :=
    if f.qtop / 8 = 1 then some ⟨d, k, .imm, q, true, false, true⟩ else r d k .gpr q
  match f.m with
  | 0x0 => r .unused .unused .unused (2 ≤ f.qtop && f.qtop ≤ 8 && z)
  | 0x1 => r .pred .gpr .unused (2 ≤ f.qtop && f.qtop ≤ 8 && z)
  | 0x2 => r .unused .unused .unused (f.qtop ≤ 8 && z)
  | 0x3 => if f.md ≤ 6 then at9 .gpr (f.ty == 0 || f.ty == 1 || f.ty == 5) else none
  | 0x4 => at9 .evenGpr (f.qtop % 8 == 0 && (f.ty == 0 || f.ty == 1 || f.ty == 5) && f.md == 0)
  | 0x5 => if f.md ≤ 5 then at9 (if f.md = 3 then .unused else .gpr) (f.qtop % 8 == 0 && f.ty == 0) else none
  | 0x6 =>
    if f.md ≤ 3 then
      let sc := if f.md = 0 ∨ f.md = 2 then 1 ≤ f.qtop && f.qtop ≤ 8 else f.qtop == 1
      let q := sc && f.ty ≤ 1
      if f.ty = 1 then some ⟨.gpr, k, .imm, q, true, false, true⟩
      else some ⟨.gpr, k, .gpr, q, false, f.ty > 1, true⟩
    else none
  | 0x7 => r .unused .unused .unused (2 ≤ f.qtop && f.qtop ≤ 7 && z)
  | 0x8 => r .gpr .gpr (.sel 10) (f.qtop == 0 && z)
  | 0x9 => if f.qtop = 0 then r .gpr k .gpr z
           else r .unused .unused .unused (f.qtop == 1 && z)
  | _ => none

/-- Page 6 (R270, R292). -/
def row6 (f : Fields) : Option Row :=
  let z := f.qtop == 0 && f.ty == 0 && f.md == 0
  let r (d a b : FieldKind) (q : Bool) : Option Row := some ⟨d, a, b, q, false, false, true⟩
  match f.m with
  | 0x0 => r .unused .vec .unused z
  | 0x1 => r .unused .vec .unused z
  | 0x2 => r .unused .vec .unused (4 ≤ f.qtop && f.qtop ≤ 7 && f.ty == 0 && f.md == 0)
  | 0x3 => r .pred .vec .gpr (f.qtop == 0 && f.ty == 0 && f.md ≤ 1)
  | 0x4 => r .gpr (if f.q6 = 1 then .vec else .unused) .unused (f.rc == 0 && f.ty == 0 && f.md == 0)
  | 0x5 =>
    let q := f.md ≤ 4 && f.ty % 4 == 0 && (if f.md ≤ 1 then f.qtop ≤ 7 else f.qtop == 0)
    if f.ty / 4 = 1 then some ⟨.vec, .cap 15, .imm, q, true, false, true⟩ else r .vec (.cap 15) .gpr q
  | 0x6 => r .gpr .vec (.cap 11) z
  | 0x7 => r .gpr .vec (.cap 10) z
  | 0x8 => r .gpr .gpr .unused z
  | 0x9 => r .gpr .unused (.sel 3) z
  | _ => none

/-- Page 7 (R339). -/
def row7 (f : Fields) : Option Row :=
  let z := f.qtop == 0 && f.ty == 0 && f.md == 0
  let r (d a b : FieldKind) (q : Bool) : Option Row := some ⟨d, a, b, q, false, false, true⟩
  match f.m with
  | 0x0 => r .gpr .vec .unused z
  | 0x1 => r .unused .gpr .unused z
  | 0x2 => r .pred .vec .gpr z
  | 0x3 => r .gpr .gpr .unused (f.qtop == 0 && f.ty == 0 && f.md ≤ 1)
  | 0x4 => r .unused .gpr .gpr z
  | 0x5 => r .unused .gpr .gpr z
  | 0x6 => r .gpr .gpr .gpr z
  | 0x7 => r .gpr .gpr .gpr z
  | 0x8 => r .vec .gpr .unused z
  | 0x9 => r .unused .gpr .gpr z
  | 0xA => r .gpr .gpr .unused z
  | _ => none

/-- Page 8 (R159, R270, R356, R383). A transfer of an undefined form is judged as the relative one, but for its immediate's prefixes,
where the spec does not say which further fields fail (R117, assumption 90). -/
def row8 (f : Fields) : Option Row :=
  let z := f.qtop == 0 && f.ty == 0
  let r (d a b : FieldKind) (q : Bool) : Option Row := some ⟨d, a, b, q, false, false, true⟩
  match f.m with
  | 0x0 =>
    let d : FieldKind := if f.md = 1 then .gpr else .unused
    if f.md > 2 then none
    else if f.qtop = 1 then r d .unused .gpr (f.ty == 0)
    else if f.qtop = 2 then r d (.cap 15) .gpr (f.ty == 0)
    else if f.qtop = 0 ∧ f.md ≤ 1 then some ⟨d, .unused, .imm, f.ty == 0, true, false, true⟩
    else some ⟨d, .unused, .imm, false, false, true, true⟩
  | 0x1 => some ⟨.unused, .unused, .imm, z && f.md == 0, true, false, true⟩
  | 0x2 => r .unused .unused .unused (z && f.md ≤ 2)
  | 0x3 => some ⟨.gpr, .unused, .imm, z && f.md == 0, true, false, csrNumberOk f.immN⟩
  | 0x4 => some ⟨.unused, .gpr, .imm, z && f.md == 0, true, false, csrNumberOk f.immN⟩
  | 0x5 => match f.md with
    | 0 => r .unused .gpr .unused z
    | 1 => r .unused .unused .unused z
    | 2 => r .unused .gpr .unused z
    | _ => none
  | 0x6 => r .pred .gpr .gpr (f.ty == 0 && f.md == 0)
  | 0x7 => r .unused .unused .unused (z && f.md == 0)
  | 0x8 => if f.md ≤ 1 then r .gpr .gpr .unused z else none
  | 0x9 => match f.md with
    | 0 => r .gpr .unused (.sel 16) z
    | 1 => r .unused .gpr .unused z
    | 2 => r .gpr .gpr .unused (2 ≤ f.qtop && f.qtop ≤ 7 && f.ty == 0)
    | _ => none
  | 0xA => match f.md with
    | 0 => some ⟨.unused, .unused, .imm, z, true, false, true⟩
    | 1 => r .unused .unused .unused z
    | _ => none
  | _ => none

/-- The row of the opcode map a chain names; none raises `ILL_OP` (R114, R116 step 4). -/
def rowOf (f : Fields) : Option Row :=
  if f.m ≥ 0xC then row0 f
  else match f.page with
    | 0 => row0 f | 1 => row1 f | 2 => row2 f | 3 => row3 f | 4 => row4 f
    | 5 => row5 f | 6 => row6 f | 7 => row7 f | 8 => row8 f | _ => none

/-- The fields of an instruction in its encoding; an event has none. -/
def Instr.fields : Instr → Option Fields
  | .add w d a b => some ⟨0, 0, d.toNat, a.toNat, b.toNat, 0, w.code, 0, ⟨false, 0⟩, 0, 0⟩
  | .min w d a b => some ⟨0, 0, d.toNat, a.toNat, b.toNat, 0, w.code, 1, ⟨false, 0⟩, 0, 0⟩
  | .max w d a b => some ⟨0, 0, d.toNat, a.toNat, b.toNat, 0, w.code, 2, ⟨false, 0⟩, 0, 0⟩
  | .minn w d a b => some ⟨0, 0, d.toNat, a.toNat, b.toNat, 0, w.code, 3, ⟨false, 0⟩, 0, 0⟩
  | .maxn w d a b => some ⟨0, 0, d.toNat, a.toNat, b.toNat, 0, w.code, 4, ⟨false, 0⟩, 0, 0⟩
  | .addi w d a i => some ((⟨0, 1, d.toNat, a.toNat, 0, 0, w.code, 0, ⟨false, 0⟩, 0, 0⟩ : Fields).putImm i)
  | .sub w d a b => some ⟨0, 2, d.toNat, a.toNat, b.toNat, 0, w.code, 0, ⟨false, 0⟩, 0, 0⟩
  | .and w d a b => some ⟨0, 3, d.toNat, a.toNat, b.toNat, 0, w.code, 0, ⟨false, 0⟩, 0, 0⟩
  | .or w d a b => some ⟨0, 3, d.toNat, a.toNat, b.toNat, 0, w.code, 1, ⟨false, 0⟩, 0, 0⟩
  | .xor w d a b => some ⟨0, 3, d.toNat, a.toNat, b.toNat, 0, w.code, 2, ⟨false, 0⟩, 0, 0⟩
  | .andn w d a b => some ⟨0, 3, d.toNat, a.toNat, b.toNat, 0, w.code, 3, ⟨false, 0⟩, 0, 0⟩
  | .orn w d a b => some ⟨0, 3, d.toNat, a.toNat, b.toNat, 0, w.code, 4, ⟨false, 0⟩, 0, 0⟩
  | .xnor w d a b => some ⟨0, 3, d.toNat, a.toNat, b.toNat, 0, w.code, 5, ⟨false, 0⟩, 0, 0⟩
  | .shl w d a b => some ⟨0, 4, d.toNat, a.toNat, b.toNat, 0, w.code, 0, ⟨false, 0⟩, 0, 0⟩
  | .shr w d a b => some ⟨0, 4, d.toNat, a.toNat, b.toNat, 0, w.code, 1, ⟨false, 0⟩, 0, 0⟩
  | .sra w d a b => some ⟨0, 4, d.toNat, a.toNat, b.toNat, 0, w.code, 2, ⟨false, 0⟩, 0, 0⟩
  | .rol w d a b => some ⟨0, 4, d.toNat, a.toNat, b.toNat, 0, w.code, 3, ⟨false, 0⟩, 0, 0⟩
  | .ror w d a b => some ⟨0, 4, d.toNat, a.toNat, b.toNat, 0, w.code, 4, ⟨false, 0⟩, 0, 0⟩
  | .shli w d a i => some ((⟨0, 5, d.toNat, a.toNat, 0, 0, w.code, 0, ⟨false, 0⟩, 0, 0⟩ : Fields).putImm i)
  | .shri w d a i => some ((⟨0, 5, d.toNat, a.toNat, 0, 0, w.code, 1, ⟨false, 0⟩, 0, 0⟩ : Fields).putImm i)
  | .srai w d a i => some ((⟨0, 5, d.toNat, a.toNat, 0, 0, w.code, 2, ⟨false, 0⟩, 0, 0⟩ : Fields).putImm i)
  | .roli w d a i => some ((⟨0, 5, d.toNat, a.toNat, 0, 0, w.code, 3, ⟨false, 0⟩, 0, 0⟩ : Fields).putImm i)
  | .rori w d a i => some ((⟨0, 5, d.toNat, a.toNat, 0, 0, w.code, 4, ⟨false, 0⟩, 0, 0⟩ : Fields).putImm i)
  | .mul w d a b => some ⟨0, 6, d.toNat, a.toNat, b.toNat, 0, w.code, 0, ⟨false, 0⟩, 0, 0⟩
  | .mulh w d a b => some ⟨0, 6, d.toNat, a.toNat, b.toNat, 0, w.code, 1, ⟨false, 0⟩, 0, 0⟩
  | .mulhn w d a b => some ⟨0, 6, d.toNat, a.toNat, b.toNat, 0, w.code, 2, ⟨false, 0⟩, 0, 0⟩
  | .div w d a b => some ⟨0, 6, d.toNat, a.toNat, b.toNat, 0, w.code, 3, ⟨false, 0⟩, 0, 0⟩
  | .divn w d a b => some ⟨0, 6, d.toNat, a.toNat, b.toNat, 0, w.code, 4, ⟨false, 0⟩, 0, 0⟩
  | .rem w d a b => some ⟨0, 6, d.toNat, a.toNat, b.toNat, 0, w.code, 5, ⟨false, 0⟩, 0, 0⟩
  | .remn w d a b => some ⟨0, 6, d.toNat, a.toNat, b.toNat, 0, w.code, 6, ⟨false, 0⟩, 0, 0⟩
  | .cmpeq w d a b => some ⟨0, 7, d.toNat, a.toNat, b.toNat, 0, w.code, 0, ⟨false, 0⟩, 0, 0⟩
  | .cmpne w d a b => some ⟨0, 7, d.toNat, a.toNat, b.toNat, 0, w.code, 1, ⟨false, 0⟩, 0, 0⟩
  | .cmplt w d a b => some ⟨0, 7, d.toNat, a.toNat, b.toNat, 0, w.code, 2, ⟨false, 0⟩, 0, 0⟩
  | .cmple w d a b => some ⟨0, 7, d.toNat, a.toNat, b.toNat, 0, w.code, 3, ⟨false, 0⟩, 0, 0⟩
  | .cmpltn w d a b => some ⟨0, 7, d.toNat, a.toNat, b.toNat, 0, w.code, 4, ⟨false, 0⟩, 0, 0⟩
  | .cmplen w d a b => some ⟨0, 7, d.toNat, a.toNat, b.toNat, 0, w.code, 5, ⟨false, 0⟩, 0, 0⟩
  | .cmpeqi w d a i => some ((⟨0, 8, d.toNat, a.toNat, 0, 0, w.code, 0, ⟨false, 0⟩, 0, 0⟩ : Fields).putImm i)
  | .cmpnei w d a i => some ((⟨0, 8, d.toNat, a.toNat, 0, 0, w.code, 1, ⟨false, 0⟩, 0, 0⟩ : Fields).putImm i)
  | .cmplti w d a i => some ((⟨0, 8, d.toNat, a.toNat, 0, 0, w.code, 2, ⟨false, 0⟩, 0, 0⟩ : Fields).putImm i)
  | .cmplei w d a i => some ((⟨0, 8, d.toNat, a.toNat, 0, 0, w.code, 3, ⟨false, 0⟩, 0, 0⟩ : Fields).putImm i)
  | .cmpltni w d a i => some ((⟨0, 8, d.toNat, a.toNat, 0, 0, w.code, 4, ⟨false, 0⟩, 0, 0⟩ : Fields).putImm i)
  | .cmpleni w d a i => some ((⟨0, 8, d.toNat, a.toNat, 0, 0, w.code, 5, ⟨false, 0⟩, 0, 0⟩ : Fields).putImm i)
  | .mov d a => some ⟨0, 9, d.toNat, a.toNat, 0, 0, 0, 0, ⟨false, 0⟩, 0, 0⟩
  | .movCap d a => some ⟨0, 9, d.toNat, a.toNat, 0, 1, 0, 0, ⟨false, 0⟩, 0, 0⟩
  | .neg w d a => some ⟨0, 9, d.toNat, a.toNat, 1, 0, w.code, 0, ⟨false, 0⟩, 0, 0⟩
  | .not w d a => some ⟨0, 9, d.toNat, a.toNat, 2, 0, w.code, 0, ⟨false, 0⟩, 0, 0⟩
  | .clz w d a => some ⟨0, 9, d.toNat, a.toNat, 3, 0, w.code, 0, ⟨false, 0⟩, 0, 0⟩
  | .ctz w d a => some ⟨0, 9, d.toNat, a.toNat, 4, 0, w.code, 0, ⟨false, 0⟩, 0, 0⟩
  | .popc w d a => some ⟨0, 9, d.toNat, a.toNat, 5, 0, w.code, 0, ⟨false, 0⟩, 0, 0⟩
  | .sext w d a => some ⟨0, 9, d.toNat, a.toNat, 6, 0, w.code, 0, ⟨false, 0⟩, 0, 0⟩
  | .zext w d a => some ⟨0, 9, d.toNat, a.toNat, 7, 0, w.code, 0, ⟨false, 0⟩, 0, 0⟩
  | .bswap w d a => some ⟨0, 9, d.toNat, a.toNat, 8, 0, w.code, 0, ⟨false, 0⟩, 0, 0⟩
  | .sel d a b => some ⟨0, 10, d.toNat, a.toNat, b.toNat, 0, 0, 0, ⟨false, 0⟩, 0, 0⟩
  | .lih d i => some ((⟨0, 11, d.toNat, 0, 0, 0, 0, 0, ⟨false, 0⟩, 0, 0⟩ : Fields).putImm i)
  | .br o => some ((⟨0, 12, 0, 0, 0, 0, 0, 0, ⟨false, 0⟩, 0, 0⟩ : Fields).putOff o)
  | .li d i => some ((⟨0, 13, d.toNat, 0, 0, 0, 0, 0, ⟨false, 0⟩, 0, 0⟩ : Fields).putImm8 i)
  | .jmp t => some ((⟨8, 0, 0, 0, 0, 0, 0, 0, ⟨false, 0⟩, 0, 0⟩ : Fields).putTarget t)
  | .call d t => some ((⟨8, 0, d.toNat, 0, 0, 0, 0, 1, ⟨false, 0⟩, 0, 0⟩ : Fields).putTarget t)
  | .ret t => some ((⟨8, 0, 0, 0, 0, 0, 0, 2, ⟨false, 0⟩, 0, 0⟩ : Fields).putRTarget t)
  | .vadd w d a b => some ⟨1, 0, d.toNat, a.toNat, b.toNat, 0, w.code, 0, ⟨false, 0⟩, 0, 0⟩
  | .vsub w d a b => some ⟨1, 0, d.toNat, a.toNat, b.toNat, 0, w.code, 1, ⟨false, 0⟩, 0, 0⟩
  | .vmin w d a b => some ⟨1, 0, d.toNat, a.toNat, b.toNat, 0, w.code, 2, ⟨false, 0⟩, 0, 0⟩
  | .vmax w d a b => some ⟨1, 0, d.toNat, a.toNat, b.toNat, 0, w.code, 3, ⟨false, 0⟩, 0, 0⟩
  | .vminn w d a b => some ⟨1, 0, d.toNat, a.toNat, b.toNat, 0, w.code, 4, ⟨false, 0⟩, 0, 0⟩
  | .vmaxn w d a b => some ⟨1, 0, d.toNat, a.toNat, b.toNat, 0, w.code, 5, ⟨false, 0⟩, 0, 0⟩
  | .vadds w n d a b => some ⟨1, 0, d.toNat, a.toNat, b.toNat, boolCode n, w.code, 6, ⟨false, 0⟩, 0, 0⟩
  | .vsubs w n d a b => some ⟨1, 0, d.toNat, a.toNat, b.toNat, boolCode n, w.code, 7, ⟨false, 0⟩, 0, 0⟩
  | .vmul w d a b => some ⟨1, 1, d.toNat, a.toNat, b.toNat, 0, w.code, 0, ⟨false, 0⟩, 0, 0⟩
  | .vmulh w d a b => some ⟨1, 1, d.toNat, a.toNat, b.toNat, 0, w.code, 1, ⟨false, 0⟩, 0, 0⟩
  | .vmulhn w d a b => some ⟨1, 1, d.toNat, a.toNat, b.toNat, 0, w.code, 2, ⟨false, 0⟩, 0, 0⟩
  | .vmad w d a b => some ⟨1, 1, d.toNat, a.toNat, b.toNat, 0, w.code, 3, ⟨false, 0⟩, 0, 0⟩
  | .vdot4 n d a b => some ⟨1, 1, d.toNat, a.toNat, b.toNat, boolCode n, 3, 4, ⟨false, 0⟩, 0, 0⟩
  | .vand w d a b => some ⟨1, 2, d.toNat, a.toNat, b.toNat, 0, w.code, 0, ⟨false, 0⟩, 0, 0⟩
  | .vor w d a b => some ⟨1, 2, d.toNat, a.toNat, b.toNat, 0, w.code, 1, ⟨false, 0⟩, 0, 0⟩
  | .vxor w d a b => some ⟨1, 2, d.toNat, a.toNat, b.toNat, 0, w.code, 2, ⟨false, 0⟩, 0, 0⟩
  | .vandn w d a b => some ⟨1, 2, d.toNat, a.toNat, b.toNat, 0, w.code, 3, ⟨false, 0⟩, 0, 0⟩
  | .vshl w d a b => some ⟨1, 3, d.toNat, a.toNat, b.toNat, 0, w.code, 0, ⟨false, 0⟩, 0, 0⟩
  | .vshr w d a b => some ⟨1, 3, d.toNat, a.toNat, b.toNat, 0, w.code, 1, ⟨false, 0⟩, 0, 0⟩
  | .vsra w d a b => some ⟨1, 3, d.toNat, a.toNat, b.toNat, 0, w.code, 2, ⟨false, 0⟩, 0, 0⟩
  | .vcmpeq w d a b => some ⟨1, 4, d.toNat, a.toNat, b.toNat, 0, w.code, 0, ⟨false, 0⟩, 0, 0⟩
  | .vcmpne w d a b => some ⟨1, 4, d.toNat, a.toNat, b.toNat, 0, w.code, 1, ⟨false, 0⟩, 0, 0⟩
  | .vcmplt w d a b => some ⟨1, 4, d.toNat, a.toNat, b.toNat, 0, w.code, 2, ⟨false, 0⟩, 0, 0⟩
  | .vcmple w d a b => some ⟨1, 4, d.toNat, a.toNat, b.toNat, 0, w.code, 3, ⟨false, 0⟩, 0, 0⟩
  | .vcmpltn w d a b => some ⟨1, 4, d.toNat, a.toNat, b.toNat, 0, w.code, 4, ⟨false, 0⟩, 0, 0⟩
  | .vcmplen w d a b => some ⟨1, 4, d.toNat, a.toNat, b.toNat, 0, w.code, 5, ⟨false, 0⟩, 0, 0⟩
  | .vsel d a b => some ⟨1, 5, d.toNat, a.toNat, b.toNat, 0, 0, 0, ⟨false, 0⟩, 0, 0⟩
  | .vbcast w d a => some ⟨1, 6, d.toNat, a.toNat, 0, 0, w.code, 0, ⟨false, 0⟩, 0, 0⟩
  | .vbcastImm w d i => some ((⟨1, 6, d.toNat, 0, 0, 1, w.code, 0, ⟨false, 0⟩, 0, 0⟩ : Fields).putImm i)
  | .viota w d a => some ⟨1, 6, d.toNat, a.toNat, 0, 0, w.code, 1, ⟨false, 0⟩, 0, 0⟩
  | .vmovpToPred d a => some ⟨1, 6, d.toNat, a.toNat, 0, 0, 0, 2, ⟨false, 0⟩, 0, 0⟩
  | .vmovpToVec d a => some ⟨1, 6, d.toNat, a.toNat, 0, 1, 0, 2, ⟨false, 0⟩, 0, 0⟩
  | .vperm w d a b => some ⟨1, 7, d.toNat, a.toNat, b.toNat, 0, w.code, 0, ⟨false, 0⟩, 0, 0⟩
  | .vrot w d a b => some ⟨1, 7, d.toNat, a.toNat, b.toNat, 0, w.code, 1, ⟨false, 0⟩, 0, 0⟩
  | .vzip w d a b => some ⟨1, 7, d.toNat, a.toNat, b.toNat, 0, w.code, 2, ⟨false, 0⟩, 0, 0⟩
  | .vunzip w d a b => some ⟨1, 7, d.toNat, a.toNat, b.toNat, 0, w.code, 3, ⟨false, 0⟩, 0, 0⟩
  | .vredadd w d a => some ⟨1, 8, d.toNat, a.toNat, 0, 0, w.code, 0, ⟨false, 0⟩, 0, 0⟩
  | .vredmin w n d a => some ⟨1, 8, d.toNat, a.toNat, 0, boolCode n, w.code, 1, ⟨false, 0⟩, 0, 0⟩
  | .vredmax w n d a => some ⟨1, 8, d.toNat, a.toNat, 0, boolCode n, w.code, 2, ⟨false, 0⟩, 0, 0⟩
  | .vredand w d a => some ⟨1, 8, d.toNat, a.toNat, 0, 0, w.code, 3, ⟨false, 0⟩, 0, 0⟩
  | .vredor w d a => some ⟨1, 8, d.toNat, a.toNat, 0, 0, w.code, 4, ⟨false, 0⟩, 0, 0⟩
  | .vscanadd w d a => some ⟨1, 9, d.toNat, a.toNat, 0, 0, w.code, 0, ⟨false, 0⟩, 0, 0⟩
  | .vscanmax w n d a => some ⟨1, 9, d.toNat, a.toNat, 0, boolCode n, w.code, 1, ⟨false, 0⟩, 0, 0⟩
  | .vextr w n d a b => some ⟨1, 10, d.toNat, a.toNat, b.toNat, boolCode n, w.code, 0, ⟨false, 0⟩, 0, 0⟩
  | .vins w d a b => some ⟨1, 10, d.toNat, a.toNat, b.toNat, 0, w.code, 1, ⟨false, 0⟩, 0, 0⟩
  | .pand d a b => some ⟨1, 11, d.toNat, a.toNat, b.toNat, 0, 0, 0, ⟨false, 0⟩, 0, 0⟩
  | .por d a b => some ⟨1, 11, d.toNat, a.toNat, b.toNat, 0, 0, 1, ⟨false, 0⟩, 0, 0⟩
  | .pxor d a b => some ⟨1, 11, d.toNat, a.toNat, b.toNat, 0, 0, 2, ⟨false, 0⟩, 0, 0⟩
  | .pnot d a => some ⟨1, 11, d.toNat, a.toNat, 0, 0, 0, 3, ⟨false, 0⟩, 0, 0⟩
  | .pcnt d a => some ⟨1, 11, d.toNat, a.toNat, 0, 0, 0, 4, ⟨false, 0⟩, 0, 0⟩
  | .pfirst d a => some ⟨1, 11, d.toNat, a.toNat, 0, 0, 0, 5, ⟨false, 0⟩, 0, 0⟩
  | .vfadd t r d a b => some ((⟨2, 0, d.toNat, a.toNat, 0, 2 * r.code, t.code, 0, ⟨false, 0⟩, 0, 0⟩ : Fields).putFSrc b)
  | .vfsub t r d a b => some ((⟨2, 0, d.toNat, a.toNat, 0, 2 * r.code, t.code, 1, ⟨false, 0⟩, 0, 0⟩ : Fields).putFSrc b)
  | .vfmul t r d a b => some ((⟨2, 0, d.toNat, a.toNat, 0, 2 * r.code, t.code, 2, ⟨false, 0⟩, 0, 0⟩ : Fields).putFSrc b)
  | .vfmin t d a b => some ((⟨2, 0, d.toNat, a.toNat, 0, 0, t.code, 3, ⟨false, 0⟩, 0, 0⟩ : Fields).putFSrc b)
  | .vfmax t d a b => some ((⟨2, 0, d.toNat, a.toNat, 0, 0, t.code, 4, ⟨false, 0⟩, 0, 0⟩ : Fields).putFSrc b)
  | .vfma t r d a b => some ((⟨2, 1, d.toNat, a.toNat, 0, 2 * r.code, t.code, 0, ⟨false, 0⟩, 0, 0⟩ : Fields).putFSrc b)
  | .vfms t r d a b => some ((⟨2, 1, d.toNat, a.toNat, 0, 2 * r.code, t.code, 1, ⟨false, 0⟩, 0, 0⟩ : Fields).putFSrc b)
  | .vfnma t r d a b => some ((⟨2, 1, d.toNat, a.toNat, 0, 2 * r.code, t.code, 2, ⟨false, 0⟩, 0, 0⟩ : Fields).putFSrc b)
  | .vfdiv t r d a b => some ⟨2, 2, d.toNat, a.toNat, b.toNat, 2 * r.code, t.code, 0, ⟨false, 0⟩, 0, 0⟩
  | .vfsqrt t r d a => some ⟨2, 2, d.toNat, a.toNat, 0, 2 * r.code, t.code, 1, ⟨false, 0⟩, 0, 0⟩
  | .vfrcp t d a => some ⟨2, 2, d.toNat, a.toNat, 0, 0, t.code, 2, ⟨false, 0⟩, 0, 0⟩
  | .vfrsq t d a => some ⟨2, 2, d.toNat, a.toNat, 0, 0, t.code, 3, ⟨false, 0⟩, 0, 0⟩
  | .vfcmpeq t d a b => some ⟨2, 3, d.toNat, a.toNat, b.toNat, 0, t.code, 0, ⟨false, 0⟩, 0, 0⟩
  | .vfcmpne t d a b => some ⟨2, 3, d.toNat, a.toNat, b.toNat, 0, t.code, 1, ⟨false, 0⟩, 0, 0⟩
  | .vfcmplt t d a b => some ⟨2, 3, d.toNat, a.toNat, b.toNat, 0, t.code, 2, ⟨false, 0⟩, 0, 0⟩
  | .vfcmple t d a b => some ⟨2, 3, d.toNat, a.toNat, b.toNat, 0, t.code, 3, ⟨false, 0⟩, 0, 0⟩
  | .vfcmpun t d a b => some ⟨2, 3, d.toNat, a.toNat, b.toNat, 0, t.code, 4, ⟨false, 0⟩, 0, 0⟩
  | .vcvt c r n d a => some ((⟨2, 4, d.toNat, a.toNat, 0, 2 * r.code + boolCode n, 0, 0, ⟨false, 0⟩, 0, 0⟩ : Fields).putCvt c)
  | .vqmx t m n d a => some ⟨2, 5, d.toNat, a.toNat, 0, boolCode n, t.code, m.code, ⟨false, 0⟩, 0, 0⟩
  | .vdqmx t m d a => some ⟨2, 6, d.toNat, a.toNat, 0, 0, t.code, m.code, ⟨false, 0⟩, 0, 0⟩
  | .vfexp2 t d a => some ⟨2, 7, d.toNat, a.toNat, 0, 0, t.code, 0, ⟨false, 0⟩, 0, 0⟩
  | .vflog2 t d a => some ⟨2, 7, d.toNat, a.toNat, 0, 0, t.code, 1, ⟨false, 0⟩, 0, 0⟩
  | .vftanh t d a => some ⟨2, 7, d.toNat, a.toNat, 0, 0, t.code, 2, ⟨false, 0⟩, 0, 0⟩
  | .vfsigm t d a => some ⟨2, 7, d.toNat, a.toNat, 0, 0, t.code, 3, ⟨false, 0⟩, 0, 0⟩
  | .vsmx c d a b => some ⟨2, 8, d.toNat, a.toNat, b.toNat, 0, 0, c.toNat, ⟨false, 0⟩, 0, 0⟩
  | .vfredadd t r d a => some ⟨2, 9, d.toNat, a.toNat, 0, 2 * r.code, t.code, 0, ⟨false, 0⟩, 0, 0⟩
  | .vfredmax t d a => some ⟨2, 9, d.toNat, a.toNat, 0, 0, t.code, 1, ⟨false, 0⟩, 0, 0⟩
  | .vfredmin t d a => some ⟨2, 9, d.toNat, a.toNat, 0, 0, t.code, 2, ⟨false, 0⟩, 0, 0⟩
  | .vfabs t d a => some ⟨2, 10, d.toNat, a.toNat, 0, 0, t.code, 0, ⟨false, 0⟩, 0, 0⟩
  | .vfneg t d a => some ⟨2, 10, d.toNat, a.toNat, 0, 0, t.code, 1, ⟨false, 0⟩, 0, 0⟩
  | .vfclass t d a => some ⟨2, 10, d.toNat, a.toNat, 0, 0, t.code, 2, ⟨false, 0⟩, 0, 0⟩
  | .ld t d k b => some ⟨3, 0, d.toNat, k.toNat, b.toNat, 0, t.code, 0, ⟨false, 0⟩, 0, 0⟩
  | .ldi t d k i => some ((⟨3, 1, d.toNat, k.toNat, 0, 0, t.code, 0, ⟨false, 0⟩, 0, 0⟩ : Fields).putImm i)
  | .st t d k b => some ⟨3, 2, d.toNat, k.toNat, b.toNat, 0, t.code, 0, ⟨false, 0⟩, 0, 0⟩
  | .sti t d k i => some ((⟨3, 3, d.toNat, k.toNat, 0, 0, t.code, 0, ⟨false, 0⟩, 0, 0⟩ : Fields).putImm i)
  | .vld w d k x => some ((⟨3, 4, d.toNat, k.toNat, 0, 0, w.code, 0, ⟨false, 0⟩, 0, 0⟩ : Fields).putVIdx x)
  | .vst w d k x => some ((⟨3, 5, d.toNat, k.toNat, 0, 0, w.code, 0, ⟨false, 0⟩, 0, 0⟩ : Fields).putVIdx x)
  | .tld e s tr d k x => some ((⟨3, 6, d.toNat, k.toNat, 0, s.toNat, e.code, tr.toNat, ⟨false, 0⟩, 0, 0⟩ : Fields).putIdx (fun f => { f with md := f.md + 4 }) x)
  | .rowact k x => some ((⟨3, 7, 0, k.toNat, 0, 0, 0, 0, ⟨false, 0⟩, 0, 0⟩ : Fields).putIdx (fun f => { f with qtop := 1 }) x)
  | .rowpre k x => some ((⟨3, 7, 0, k.toNat, 0, 0, 0, 1, ⟨false, 0⟩, 0, 0⟩ : Fields).putIdx (fun f => { f with qtop := 1 }) x)
  | .capld d k b => some ⟨3, 8, d.toNat, k.toNat, b.toNat, 0, 0, 0, ⟨false, 0⟩, 0, 0⟩
  | .capst d k b => some ⟨3, 8, d.toNat, k.toNat, b.toNat, 0, 0, 1, ⟨false, 0⟩, 0, 0⟩
  | .capnarrow d k b => some ⟨3, 8, d.toNat, k.toNat, b.toNat, 0, 0, 2, ⟨false, 0⟩, 0, 0⟩
  | .capoff d k s => some ⟨3, 8, d.toNat, k.toNat, s.toNat, 0, 0, 3, ⟨false, 0⟩, 0, 0⟩
  | .mma ov nt d a b => some ⟨4, 0, d.toNat, a.toNat, b.toNat, boolCode ov, 0, boolCode nt, ⟨false, 0⟩, 0, 0⟩
  | .mmas ov nt d a b => some ⟨4, 1, d.toNat, a.toNat, b.toNat, boolCode ov, 0, boolCode nt, ⟨false, 0⟩, 0, 0⟩
  | .mzero d => some ⟨4, 2, d.toNat, 0, 0, 0, 0, 0, ⟨false, 0⟩, 0, 0⟩
  | .mfmt f => some ((⟨4, 3, 0, 0, 0, 0, 0, 0, ⟨false, 0⟩, 0, 0⟩ : Fields).putMFmt f)
  | .tst d k x => some ((⟨4, 4, d.toNat, k.toNat, 0, 0, 0, 0, ⟨false, 0⟩, 0, 0⟩ : Fields).putIdx (fun f => { f with qtop := 1 }) x)
  | .mepi m t r n a => some ⟨4, 5, 0, a.toNat, 0, 2 * r.code + boolCode n, t.code, m.toNat, ⟨false, 0⟩, 0, 0⟩
  | .tldacc d k x => some ((⟨4, 6, d.toNat, k.toNat, 0, 0, 0, 0, ⟨false, 0⟩, 0, 0⟩ : Fields).putIdx (fun f => { f with qtop := 1 }) x)
  | .obput d a b => some ⟨4, 7, d.code, a.toNat, b.toNat, d.flag, 0, 0, ⟨false, 0⟩, 0, 0⟩
  | .obget d a b => some ⟨4, 7, d.toNat, a.code, b.toNat, a.flag, 0, 1, ⟨false, 0⟩, 0, 0⟩
  | .mstat d s => some ⟨4, 8, d.toNat, 0, s.toNat, 0, 0, 0, ⟨false, 0⟩, 0, 0⟩
  | .mfence => some ⟨4, 9, 0, 0, 0, 0, 0, 0, ⟨false, 0⟩, 0, 0⟩
  | .mfenceCore => some ⟨4, 9, 0, 0, 0, 1, 0, 0, ⟨false, 0⟩, 0, 0⟩
  | .rel sc => some ⟨5, 0, 0, 0, 0, sc.code, 0, 0, ⟨false, 0⟩, 0, 0⟩
  | .acq sc d a => some ⟨5, 1, d.toNat, a.toNat, 0, sc.code, 0, 0, ⟨false, 0⟩, 0, 0⟩
  | .fence sc => some ⟨5, 2, 0, 0, 0, sc.code, 0, 0, ⟨false, 0⟩, 0, 0⟩
  | .amoadd t d k x s => some ((⟨5, 3, d.toNat, k.toNat, 0, s.toNat, t.code, 0, ⟨false, 0⟩, 0, 0⟩ : Fields).putIdx (fun f => { f with qtop := f.qtop + 8 }) x)
  | .amomin t d k x s => some ((⟨5, 3, d.toNat, k.toNat, 0, s.toNat, t.code, 1, ⟨false, 0⟩, 0, 0⟩ : Fields).putIdx (fun f => { f with qtop := f.qtop + 8 }) x)
  | .amomax t d k x s => some ((⟨5, 3, d.toNat, k.toNat, 0, s.toNat, t.code, 2, ⟨false, 0⟩, 0, 0⟩ : Fields).putIdx (fun f => { f with qtop := f.qtop + 8 }) x)
  | .amoand t d k x s => some ((⟨5, 3, d.toNat, k.toNat, 0, s.toNat, t.code, 3, ⟨false, 0⟩, 0, 0⟩ : Fields).putIdx (fun f => { f with qtop := f.qtop + 8 }) x)
  | .amoor t d k x s => some ((⟨5, 3, d.toNat, k.toNat, 0, s.toNat, t.code, 4, ⟨false, 0⟩, 0, 0⟩ : Fields).putIdx (fun f => { f with qtop := f.qtop + 8 }) x)
  | .amoxor t d k x s => some ((⟨5, 3, d.toNat, k.toNat, 0, s.toNat, t.code, 5, ⟨false, 0⟩, 0, 0⟩ : Fields).putIdx (fun f => { f with qtop := f.qtop + 8 }) x)
  | .amoswap t d k x s => some ((⟨5, 3, d.toNat, k.toNat, 0, s.toNat, t.code, 6, ⟨false, 0⟩, 0, 0⟩ : Fields).putIdx (fun f => { f with qtop := f.qtop + 8 }) x)
  | .cas t d k x => some ((⟨5, 4, d.toNat, k.toNat, 0, 0, t.code, 0, ⟨false, 0⟩, 0, 0⟩ : Fields).putIdx (fun f => { f with qtop := f.qtop + 8 }) x)
  | .ldc d k x => some ((⟨5, 5, d.toNat, k.toNat, 0, 0, 0, 0, ⟨false, 0⟩, 0, 0⟩ : Fields).putIdx (fun f => { f with qtop := f.qtop + 8 }) x)
  | .ldf d k x => some ((⟨5, 5, d.toNat, k.toNat, 0, 0, 0, 1, ⟨false, 0⟩, 0, 0⟩ : Fields).putIdx (fun f => { f with qtop := f.qtop + 8 }) x)
  | .stp d k x => some ((⟨5, 5, d.toNat, k.toNat, 0, 0, 0, 2, ⟨false, 0⟩, 0, 0⟩ : Fields).putIdx (fun f => { f with qtop := f.qtop + 8 }) x)
  | .sete k x => some ((⟨5, 5, 0, k.toNat, 0, 0, 0, 3, ⟨false, 0⟩, 0, 0⟩ : Fields).putIdx (fun f => { f with qtop := f.qtop + 8 }) x)
  | .setf d k x => some ((⟨5, 5, d.toNat, k.toNat, 0, 0, 0, 4, ⟨false, 0⟩, 0, 0⟩ : Fields).putIdx (fun f => { f with qtop := f.qtop + 8 }) x)
  | .feq d k x => some ((⟨5, 5, d.toNat, k.toNat, 0, 0, 0, 5, ⟨false, 0⟩, 0, 0⟩ : Fields).putIdx (fun f => { f with qtop := f.qtop + 8 }) x)
  | .swarm sc d k x => some ((⟨5, 6, d.toNat, k.toNat, 0, sc.code, 0, 0, ⟨false, 0⟩, 0, 0⟩ : Fields).putIdx (fun f => { f with ty := 1 }) x)
  | .swwait d k x => some ((⟨5, 6, d.toNat, k.toNat, 0, 1, 0, 1, ⟨false, 0⟩, 0, 0⟩ : Fields).putIdx (fun f => { f with ty := 1 }) x)
  | .swadd sc d k x => some ((⟨5, 6, d.toNat, k.toNat, 0, sc.code, 0, 2, ⟨false, 0⟩, 0, 0⟩ : Fields).putIdx (fun f => { f with ty := 1 }) x)
  | .swrd d k x => some ((⟨5, 6, d.toNat, k.toNat, 0, 1, 0, 3, ⟨false, 0⟩, 0, 0⟩ : Fields).putIdx (fun f => { f with ty := 1 }) x)
  | .bar sc => some ⟨5, 7, 0, 0, 0, sc.code, 0, 0, ⟨false, 0⟩, 0, 0⟩
  | .logq d a s => some ⟨5, 8, d.toNat, a.toNat, s.toNat, 0, 0, 0, ⟨false, 0⟩, 0, 0⟩
  | .mirfl d k b => some ⟨5, 9, d.toNat, k.toNat, b.toNat, 0, 0, 0, ⟨false, 0⟩, 0, 0⟩
  | .mirflAll => some ⟨5, 9, 0, 0, 0, 1, 0, 0, ⟨false, 0⟩, 0, 0⟩
  | .cpy a => some ⟨6, 0, 0, a.toNat, 0, 0, 0, 0, ⟨false, 0⟩, 0, 0⟩
  | .cpyMulticast a => some ⟨6, 0, 0, a.toNat, 0, 0, 0, 0, ⟨false, 0⟩, 0, 0⟩
  | .cpyConvert a => some ⟨6, 0, 0, a.toNat, 0, 0, 0, 0, ⟨false, 0⟩, 0, 0⟩
  | .cpyf a => some ⟨6, 1, 0, a.toNat, 0, 0, 0, 0, ⟨false, 0⟩, 0, 0⟩
  | .collAllreduce sc a => some ⟨6, 2, 0, a.toNat, 0, sc.code, 0, 0, ⟨false, 0⟩, 0, 0⟩
  | .collReduceScatter sc a => some ⟨6, 2, 0, a.toNat, 0, sc.code, 0, 0, ⟨false, 0⟩, 0, 0⟩
  | .collAllGather sc a => some ⟨6, 2, 0, a.toNat, 0, sc.code, 0, 0, ⟨false, 0⟩, 0, 0⟩
  | .collXorParity sc a => some ⟨6, 2, 0, a.toNat, 0, sc.code, 0, 0, ⟨false, 0⟩, 0, 0⟩
  | .send u d a b => some ⟨6, 3, d.toNat, a.toNat, b.toNat, 0, 0, boolCode u, ⟨false, 0⟩, 0, 0⟩
  | .recv d a => some ((⟨6, 4, d.toNat, 0, 0, 0, 0, 0, ⟨false, 0⟩, 0, 0⟩ : Fields).putRecv a)
  | .rcallRd n d k x => some ((⟨6, 5, d.toNat, k.toNat, 0, n.toNat, 0, 0, ⟨false, 0⟩, 0, 0⟩ : Fields).putIdx (fun f => { f with ty := 4 }) x)
  | .rcallWr n d k x => some ((⟨6, 5, d.toNat, k.toNat, 0, n.toNat, 0, 1, ⟨false, 0⟩, 0, 0⟩ : Fields).putIdx (fun f => { f with ty := 4 }) x)
  | .rcallAdd d k x => some ((⟨6, 5, d.toNat, k.toNat, 0, 0, 0, 2, ⟨false, 0⟩, 0, 0⟩ : Fields).putIdx (fun f => { f with ty := 4 }) x)
  | .rcallSwap d k x => some ((⟨6, 5, d.toNat, k.toNat, 0, 0, 0, 3, ⟨false, 0⟩, 0, 0⟩ : Fields).putIdx (fun f => { f with ty := 4 }) x)
  | .rcallCas d k x => some ((⟨6, 5, d.toNat, k.toNat, 0, 0, 0, 4, ⟨false, 0⟩, 0, 0⟩ : Fields).putIdx (fun f => { f with ty := 4 }) x)
  | .launch d a b => some ⟨6, 6, d.toNat, a.toNat, b.toNat, 0, 0, 0, ⟨false, 0⟩, 0, 0⟩
  | .launchi d a b => some ⟨6, 7, d.toNat, a.toNat, b.toNat, 0, 0, 0, ⟨false, 0⟩, 0, 0⟩
  | .join d a => some ⟨6, 8, d.toNat, a.toNat, 0, 0, 0, 0, ⟨false, 0⟩, 0, 0⟩
  | .epoll d s => some ⟨6, 9, d.toNat, 0, s.toNat, 0, 0, 0, ⟨false, 0⟩, 0, 0⟩
  | .sopen d a => some ⟨7, 0, d.toNat, a.toNat, 0, 0, 0, 0, ⟨false, 0⟩, 0, 0⟩
  | .sclose a => some ⟨7, 1, 0, a.toNat, 0, 0, 0, 0, ⟨false, 0⟩, 0, 0⟩
  | .sframe d a b => some ⟨7, 2, d.toNat, a.toNat, b.toNat, 0, 0, 0, ⟨false, 0⟩, 0, 0⟩
  | .sgen d a => some ⟨7, 3, d.toNat, a.toNat, 0, 0, 0, 0, ⟨false, 0⟩, 0, 0⟩
  | .sgenAbandon d a => some ⟨7, 3, d.toNat, a.toNat, 0, 0, 0, 1, ⟨false, 0⟩, 0, 0⟩
  | .splay a b => some ⟨7, 4, 0, a.toNat, b.toNat, 0, 0, 0, ⟨false, 0⟩, 0, 0⟩
  | .strunc a b => some ⟨7, 5, 0, a.toNat, b.toNat, 0, 0, 0, ⟨false, 0⟩, 0, 0⟩
  | .ssnap d a b => some ⟨7, 6, d.toNat, a.toNat, b.toNat, 0, 0, 0, ⟨false, 0⟩, 0, 0⟩
  | .skvaddr d a b => some ⟨7, 7, d.toNat, a.toNat, b.toNat, 0, 0, 0, ⟨false, 0⟩, 0, 0⟩
  | .sstat d a => some ⟨7, 8, d.toNat, a.toNat, 0, 0, 0, 0, ⟨false, 0⟩, 0, 0⟩
  | .scommit a b => some ⟨7, 9, 0, a.toNat, b.toNat, 0, 0, 0, ⟨false, 0⟩, 0, 0⟩
  | .snext d a => some ⟨7, 10, d.toNat, a.toNat, 0, 0, 0, 0, ⟨false, 0⟩, 0, 0⟩
  | .trap i => some ((⟨8, 1, 0, 0, 0, 0, 0, 0, ⟨false, 0⟩, 0, 0⟩ : Fields).putImm i)
  | .tret => some ⟨8, 2, 0, 0, 0, 0, 0, 0, ⟨false, 0⟩, 0, 0⟩
  | .tretHalt => some ⟨8, 2, 0, 0, 0, 0, 0, 1, ⟨false, 0⟩, 0, 0⟩
  | .tretAbort => some ⟨8, 2, 0, 0, 0, 0, 0, 2, ⟨false, 0⟩, 0, 0⟩
  | .csrr d i => some ((⟨8, 3, d.toNat, 0, 0, 0, 0, 0, ⟨false, 0⟩, 0, 0⟩ : Fields).putImm i)
  | .csrw a i => some ((⟨8, 4, 0, a.toNat, 0, 0, 0, 0, ⟨false, 0⟩, 0, 0⟩ : Fields).putImm i)
  | .csrwCtxbase a i => some ((⟨8, 4, 0, a.toNat, 0, 0, 0, 0, ⟨false, 0⟩, 0, 0⟩ : Fields).putImm i)
  | .csrwLogsize a i => some ((⟨8, 4, 0, a.toNat, 0, 0, 0, 0, ⟨false, 0⟩, 0, 0⟩ : Fields).putImm i)
  | .csrwMirsize a i => some ((⟨8, 4, 0, a.toNat, 0, 0, 0, 0, ⟨false, 0⟩, 0, 0⟩ : Fields).putImm i)
  | .csrwUrglim a i => some ((⟨8, 4, 0, a.toNat, 0, 0, 0, 0, ⟨false, 0⟩, 0, 0⟩ : Fields).putImm i)
  | .csrwSeed a i => some ((⟨8, 4, 0, a.toNat, 0, 0, 0, 0, ⟨false, 0⟩, 0, 0⟩ : Fields).putImm i)
  | .csrwWinbase a i => some ((⟨8, 4, 0, a.toNat, 0, 0, 0, 0, ⟨false, 0⟩, 0, 0⟩ : Fields).putImm i)
  | .csrwRectdef a i => some ((⟨8, 4, 0, a.toNat, 0, 0, 0, 0, ⟨false, 0⟩, 0, 0⟩ : Fields).putImm i)
  | .yield a => some ⟨8, 5, 0, a.toNat, 0, 0, 0, 0, ⟨false, 0⟩, 0, 0⟩
  | .park => some ⟨8, 5, 0, 0, 0, 0, 0, 1, ⟨false, 0⟩, 0, 0⟩
  | .wake a => some ⟨8, 5, 0, a.toNat, 0, 0, 0, 2, ⟨false, 0⟩, 0, 0⟩
  | .urg e d a b => some ⟨8, 6, d.toNat, a.toNat, b.toNat, e.toNat, 0, 0, ⟨false, 0⟩, 0, 0⟩
  | .halt => some ⟨8, 7, 0, 0, 0, 0, 0, 0, ⟨false, 0⟩, 0, 0⟩
  | .regevict d a => some ⟨8, 8, d.toNat, a.toNat, 0, 0, 0, 0, ⟨false, 0⟩, 0, 0⟩
  | .regload d a => some ⟨8, 8, d.toNat, a.toNat, 0, 0, 0, 1, ⟨false, 0⟩, 0, 0⟩
  | .cntrd d n => some ⟨8, 9, d.toNat, 0, n.toNat, 0, 0, 0, ⟨false, 0⟩, 0, 0⟩
  | .cntclr a => some ⟨8, 9, 0, a.toNat, 0, 0, 0, 1, ⟨false, 0⟩, 0, 0⟩
  | .cntsum sc d a => some ⟨8, 9, d.toNat, a.toNat, 0, sc.code, 0, 2, ⟨false, 0⟩, 0, 0⟩
  | .brk i => some ((⟨8, 10, 0, 0, 0, 0, 0, 0, ⟨false, 0⟩, 0, 0⟩ : Fields).putImm i)
  | .step => some ⟨8, 10, 0, 0, 0, 0, 0, 1, ⟨false, 0⟩, 0, 0⟩
  | .stagedStart => none
  | .startEpisode => none
  | .phaekusHeartbeat => none
  | .failover => none
  | .clockStepChange => none
  | .quadReservationUpdate => none
  | .thermalSample => none
  | .vaultRequestArrival => none
  | .vaultBeat => none
  | .rowRepairEnd => none
  | .refreshStart => none
  | .refreshEnd => none
  | .laneFailure => none
  | .laneRepairEnd => none
  | .vaultBusStallEnd => none
  | .writeQueueSend => none
  | .registerLineFill => none
  | .vectorStart => none
  | .yieldEnd => none
  | .walkStart => none
  | .walkComplete => none
  | .walkRetry => none
  | .shootdown => none
  | .tableWriteSettled => none
  | .fenceMarker => none
  | .drainedPacket => none
  | .logShip => none
  | .logEntryApply => none
  | .logAck => none
  | .homeRead => none
  | .homeReadReply => none
  | .vaultAgentRequest => none
  | .homeAtomic => none
  | .homeFullEmpty => none
  | .homeSyncWord => none
  | .homeWaitRetry => none
  | .remoteReply => none
  | .postedPerformed => none
  | .switchMergeForward => none
  | .acqQuery => none
  | .acqWriterDone => none
  | .logqQuery => none
  | .messageArrival => none
  | .wakeArrival => none
  | .nakArrival => none
  | .handlerDispatch => none
  | .submissionArrival => none
  | .launchAccept => none
  | .launchCounted => none
  | .launchPacketArrival => none
  | .groupsPending => none
  | .groupStart => none
  | .dieReport => none
  | .completionRingWrite => none
  | .barrierArrival => none
  | .energyLeaseRequest => none
  | .energyLeaseGrant => none
  | .copyCommandStart => none
  | .copySegment => none
  | .segmentApply => none
  | .copyCompletion => none
  | .followOnIssue => none
  | .hostFlushRead => none
  | .collDescriptorArrival => none
  | .collInstanceRun => none
  | .matrixGrant => none
  | .matrixPerform => none
  | .tstChunkWrite => none
  | .flitTransmit => none
  | .flitReceive => none
  | .retryRequest => none
  | .trackDeath => none
  | .linkDeath => none
  | .urgentNakResend => none
  | .endToEndAck => none
  | .frameArrival => none
  | .streamOpPerform => none
  | .truncationEvent => none
  | .trapDelivery => none
  | .urgRequestArrival => none
  | .urgentEpisodeStart => none
  | .urgLimit => none
  | .deadlock => none
  | .quietPeriod => none
  | .containment => none
  | .hostBarWrite => none
  | .qresWrite => none
  | .contreqWrite => none
  | .bar2TableWrite => none
  | .launchDoorbellDirect => none
  | .launchDoorbellIndirect => none
  | .launchResultRead => none
  | .frameDoorbell => none
  | .frameResultRead => none
  | .illegalEncoding => none
  | .instructionFetchFault => none
  | .pcieError => none

/-- The instruction of page 0 that legal fields name (R114). -/
def ofFields0 (f : Fields) : Option Instr :=
  match f.m with
  | 0 => match f.md with
    | 0 => some (.add (Width.ofCode f.ty) (BitVec.ofNat 6 f.d) (BitVec.ofNat 6 f.a) (BitVec.ofNat 6 f.b))
    | 1 => some (.min (Width.ofCode f.ty) (BitVec.ofNat 6 f.d) (BitVec.ofNat 6 f.a) (BitVec.ofNat 6 f.b))
    | 2 => some (.max (Width.ofCode f.ty) (BitVec.ofNat 6 f.d) (BitVec.ofNat 6 f.a) (BitVec.ofNat 6 f.b))
    | 3 => some (.minn (Width.ofCode f.ty) (BitVec.ofNat 6 f.d) (BitVec.ofNat 6 f.a) (BitVec.ofNat 6 f.b))
    | 4 => some (.maxn (Width.ofCode f.ty) (BitVec.ofNat 6 f.d) (BitVec.ofNat 6 f.a) (BitVec.ofNat 6 f.b))
    | _ => none
  | 1 =>
    if f.md = 0 then
      some (.addi (Width.ofCode f.ty) (BitVec.ofNat 6 f.d) (BitVec.ofNat 6 f.a) f.getImm)
    else none
  | 2 =>
    if f.md = 0 then
      some (.sub (Width.ofCode f.ty) (BitVec.ofNat 6 f.d) (BitVec.ofNat 6 f.a) (BitVec.ofNat 6 f.b))
    else none
  | 3 => match f.md with
    | 0 => some (.and (Width.ofCode f.ty) (BitVec.ofNat 6 f.d) (BitVec.ofNat 6 f.a) (BitVec.ofNat 6 f.b))
    | 1 => some (.or (Width.ofCode f.ty) (BitVec.ofNat 6 f.d) (BitVec.ofNat 6 f.a) (BitVec.ofNat 6 f.b))
    | 2 => some (.xor (Width.ofCode f.ty) (BitVec.ofNat 6 f.d) (BitVec.ofNat 6 f.a) (BitVec.ofNat 6 f.b))
    | 3 => some (.andn (Width.ofCode f.ty) (BitVec.ofNat 6 f.d) (BitVec.ofNat 6 f.a) (BitVec.ofNat 6 f.b))
    | 4 => some (.orn (Width.ofCode f.ty) (BitVec.ofNat 6 f.d) (BitVec.ofNat 6 f.a) (BitVec.ofNat 6 f.b))
    | 5 => some (.xnor (Width.ofCode f.ty) (BitVec.ofNat 6 f.d) (BitVec.ofNat 6 f.a) (BitVec.ofNat 6 f.b))
    | _ => none
  | 4 => match f.md with
    | 0 => some (.shl (Width.ofCode f.ty) (BitVec.ofNat 6 f.d) (BitVec.ofNat 6 f.a) (BitVec.ofNat 6 f.b))
    | 1 => some (.shr (Width.ofCode f.ty) (BitVec.ofNat 6 f.d) (BitVec.ofNat 6 f.a) (BitVec.ofNat 6 f.b))
    | 2 => some (.sra (Width.ofCode f.ty) (BitVec.ofNat 6 f.d) (BitVec.ofNat 6 f.a) (BitVec.ofNat 6 f.b))
    | 3 => some (.rol (Width.ofCode f.ty) (BitVec.ofNat 6 f.d) (BitVec.ofNat 6 f.a) (BitVec.ofNat 6 f.b))
    | 4 => some (.ror (Width.ofCode f.ty) (BitVec.ofNat 6 f.d) (BitVec.ofNat 6 f.a) (BitVec.ofNat 6 f.b))
    | _ => none
  | 5 => match f.md with
    | 0 => some (.shli (Width.ofCode f.ty) (BitVec.ofNat 6 f.d) (BitVec.ofNat 6 f.a) f.getImm)
    | 1 => some (.shri (Width.ofCode f.ty) (BitVec.ofNat 6 f.d) (BitVec.ofNat 6 f.a) f.getImm)
    | 2 => some (.srai (Width.ofCode f.ty) (BitVec.ofNat 6 f.d) (BitVec.ofNat 6 f.a) f.getImm)
    | 3 => some (.roli (Width.ofCode f.ty) (BitVec.ofNat 6 f.d) (BitVec.ofNat 6 f.a) f.getImm)
    | 4 => some (.rori (Width.ofCode f.ty) (BitVec.ofNat 6 f.d) (BitVec.ofNat 6 f.a) f.getImm)
    | _ => none
  | 6 => match f.md with
    | 0 => some (.mul (Width.ofCode f.ty) (BitVec.ofNat 6 f.d) (BitVec.ofNat 6 f.a) (BitVec.ofNat 6 f.b))
    | 1 => some (.mulh (Width.ofCode f.ty) (BitVec.ofNat 6 f.d) (BitVec.ofNat 6 f.a) (BitVec.ofNat 6 f.b))
    | 2 => some (.mulhn (Width.ofCode f.ty) (BitVec.ofNat 6 f.d) (BitVec.ofNat 6 f.a) (BitVec.ofNat 6 f.b))
    | 3 => some (.div (Width.ofCode f.ty) (BitVec.ofNat 6 f.d) (BitVec.ofNat 6 f.a) (BitVec.ofNat 6 f.b))
    | 4 => some (.divn (Width.ofCode f.ty) (BitVec.ofNat 6 f.d) (BitVec.ofNat 6 f.a) (BitVec.ofNat 6 f.b))
    | 5 => some (.rem (Width.ofCode f.ty) (BitVec.ofNat 6 f.d) (BitVec.ofNat 6 f.a) (BitVec.ofNat 6 f.b))
    | 6 => some (.remn (Width.ofCode f.ty) (BitVec.ofNat 6 f.d) (BitVec.ofNat 6 f.a) (BitVec.ofNat 6 f.b))
    | _ => none
  | 7 => match f.md with
    | 0 => some (.cmpeq (Width.ofCode f.ty) (BitVec.ofNat 3 f.d) (BitVec.ofNat 6 f.a) (BitVec.ofNat 6 f.b))
    | 1 => some (.cmpne (Width.ofCode f.ty) (BitVec.ofNat 3 f.d) (BitVec.ofNat 6 f.a) (BitVec.ofNat 6 f.b))
    | 2 => some (.cmplt (Width.ofCode f.ty) (BitVec.ofNat 3 f.d) (BitVec.ofNat 6 f.a) (BitVec.ofNat 6 f.b))
    | 3 => some (.cmple (Width.ofCode f.ty) (BitVec.ofNat 3 f.d) (BitVec.ofNat 6 f.a) (BitVec.ofNat 6 f.b))
    | 4 => some (.cmpltn (Width.ofCode f.ty) (BitVec.ofNat 3 f.d) (BitVec.ofNat 6 f.a) (BitVec.ofNat 6 f.b))
    | 5 => some (.cmplen (Width.ofCode f.ty) (BitVec.ofNat 3 f.d) (BitVec.ofNat 6 f.a) (BitVec.ofNat 6 f.b))
    | _ => none
  | 8 => match f.md with
    | 0 => some (.cmpeqi (Width.ofCode f.ty) (BitVec.ofNat 3 f.d) (BitVec.ofNat 6 f.a) f.getImm)
    | 1 => some (.cmpnei (Width.ofCode f.ty) (BitVec.ofNat 3 f.d) (BitVec.ofNat 6 f.a) f.getImm)
    | 2 => some (.cmplti (Width.ofCode f.ty) (BitVec.ofNat 3 f.d) (BitVec.ofNat 6 f.a) f.getImm)
    | 3 => some (.cmplei (Width.ofCode f.ty) (BitVec.ofNat 3 f.d) (BitVec.ofNat 6 f.a) f.getImm)
    | 4 => some (.cmpltni (Width.ofCode f.ty) (BitVec.ofNat 3 f.d) (BitVec.ofNat 6 f.a) f.getImm)
    | 5 => some (.cmpleni (Width.ofCode f.ty) (BitVec.ofNat 3 f.d) (BitVec.ofNat 6 f.a) f.getImm)
    | _ => none
  | 9 =>
    if f.md = 0 then
      if f.b == 0 && f.q6 == 0 then some (.mov (BitVec.ofNat 6 f.d) (BitVec.ofNat 6 f.a))
      else if f.b == 0 && f.q6 == 1 then some (.movCap (BitVec.ofNat 4 f.d) (BitVec.ofNat 4 f.a))
      else if f.b == 1 then some (.neg (Width.ofCode f.ty) (BitVec.ofNat 6 f.d) (BitVec.ofNat 6 f.a))
      else if f.b == 2 then some (.not (Width.ofCode f.ty) (BitVec.ofNat 6 f.d) (BitVec.ofNat 6 f.a))
      else if f.b == 3 then some (.clz (Width.ofCode f.ty) (BitVec.ofNat 6 f.d) (BitVec.ofNat 6 f.a))
      else if f.b == 4 then some (.ctz (Width.ofCode f.ty) (BitVec.ofNat 6 f.d) (BitVec.ofNat 6 f.a))
      else if f.b == 5 then some (.popc (Width.ofCode f.ty) (BitVec.ofNat 6 f.d) (BitVec.ofNat 6 f.a))
      else if f.b == 6 then some (.sext (Width.ofCode f.ty) (BitVec.ofNat 6 f.d) (BitVec.ofNat 6 f.a))
      else if f.b == 7 then some (.zext (Width.ofCode f.ty) (BitVec.ofNat 6 f.d) (BitVec.ofNat 6 f.a))
      else if f.b == 8 then some (.bswap (Width.ofCode f.ty) (BitVec.ofNat 6 f.d) (BitVec.ofNat 6 f.a))
      else none
    else none
  | 10 =>
    if f.md = 0 then
      some (.sel (BitVec.ofNat 6 f.d) (BitVec.ofNat 6 f.a) (BitVec.ofNat 6 f.b))
    else none
  | 11 =>
    if f.md = 0 then
      some (.lih (BitVec.ofNat 6 f.d) f.getImm)
    else none
  | 12 =>
    if f.md = 0 then
      some (.br f.getOff)
    else none
  | 13 =>
    if f.md = 0 then
      some (.li (BitVec.ofNat 6 f.d) f.getImm8)
    else none
  | _ => none

/-- The instruction of page 1 that legal fields name (R114). -/
def ofFields1 (f : Fields) : Option Instr :=
  match f.m with
  | 0 => match f.md with
    | 0 => some (.vadd (Width.ofCode f.ty) (BitVec.ofNat 6 f.d) (BitVec.ofNat 6 f.a) (BitVec.ofNat 6 f.b))
    | 1 => some (.vsub (Width.ofCode f.ty) (BitVec.ofNat 6 f.d) (BitVec.ofNat 6 f.a) (BitVec.ofNat 6 f.b))
    | 2 => some (.vmin (Width.ofCode f.ty) (BitVec.ofNat 6 f.d) (BitVec.ofNat 6 f.a) (BitVec.ofNat 6 f.b))
    | 3 => some (.vmax (Width.ofCode f.ty) (BitVec.ofNat 6 f.d) (BitVec.ofNat 6 f.a) (BitVec.ofNat 6 f.b))
    | 4 => some (.vminn (Width.ofCode f.ty) (BitVec.ofNat 6 f.d) (BitVec.ofNat 6 f.a) (BitVec.ofNat 6 f.b))
    | 5 => some (.vmaxn (Width.ofCode f.ty) (BitVec.ofNat 6 f.d) (BitVec.ofNat 6 f.a) (BitVec.ofNat 6 f.b))
    | 6 => some (.vadds (Width.ofCode f.ty) (f.q6 == 1) (BitVec.ofNat 6 f.d) (BitVec.ofNat 6 f.a) (BitVec.ofNat 6 f.b))
    | 7 => some (.vsubs (Width.ofCode f.ty) (f.q6 == 1) (BitVec.ofNat 6 f.d) (BitVec.ofNat 6 f.a) (BitVec.ofNat 6 f.b))
    | _ => none
  | 1 => match f.md with
    | 0 => some (.vmul (Width.ofCode f.ty) (BitVec.ofNat 6 f.d) (BitVec.ofNat 6 f.a) (BitVec.ofNat 6 f.b))
    | 1 => some (.vmulh (Width.ofCode f.ty) (BitVec.ofNat 6 f.d) (BitVec.ofNat 6 f.a) (BitVec.ofNat 6 f.b))
    | 2 => some (.vmulhn (Width.ofCode f.ty) (BitVec.ofNat 6 f.d) (BitVec.ofNat 6 f.a) (BitVec.ofNat 6 f.b))
    | 3 => some (.vmad (Width.ofCode f.ty) (BitVec.ofNat 6 f.d) (BitVec.ofNat 6 f.a) (BitVec.ofNat 6 f.b))
    | 4 => some (.vdot4 (f.q6 == 1) (BitVec.ofNat 6 f.d) (BitVec.ofNat 6 f.a) (BitVec.ofNat 6 f.b))
    | _ => none
  | 2 => match f.md with
    | 0 => some (.vand (Width.ofCode f.ty) (BitVec.ofNat 6 f.d) (BitVec.ofNat 6 f.a) (BitVec.ofNat 6 f.b))
    | 1 => some (.vor (Width.ofCode f.ty) (BitVec.ofNat 6 f.d) (BitVec.ofNat 6 f.a) (BitVec.ofNat 6 f.b))
    | 2 => some (.vxor (Width.ofCode f.ty) (BitVec.ofNat 6 f.d) (BitVec.ofNat 6 f.a) (BitVec.ofNat 6 f.b))
    | 3 => some (.vandn (Width.ofCode f.ty) (BitVec.ofNat 6 f.d) (BitVec.ofNat 6 f.a) (BitVec.ofNat 6 f.b))
    | _ => none
  | 3 => match f.md with
    | 0 => some (.vshl (Width.ofCode f.ty) (BitVec.ofNat 6 f.d) (BitVec.ofNat 6 f.a) (BitVec.ofNat 6 f.b))
    | 1 => some (.vshr (Width.ofCode f.ty) (BitVec.ofNat 6 f.d) (BitVec.ofNat 6 f.a) (BitVec.ofNat 6 f.b))
    | 2 => some (.vsra (Width.ofCode f.ty) (BitVec.ofNat 6 f.d) (BitVec.ofNat 6 f.a) (BitVec.ofNat 6 f.b))
    | _ => none
  | 4 => match f.md with
    | 0 => some (.vcmpeq (Width.ofCode f.ty) (BitVec.ofNat 3 f.d) (BitVec.ofNat 6 f.a) (BitVec.ofNat 6 f.b))
    | 1 => some (.vcmpne (Width.ofCode f.ty) (BitVec.ofNat 3 f.d) (BitVec.ofNat 6 f.a) (BitVec.ofNat 6 f.b))
    | 2 => some (.vcmplt (Width.ofCode f.ty) (BitVec.ofNat 3 f.d) (BitVec.ofNat 6 f.a) (BitVec.ofNat 6 f.b))
    | 3 => some (.vcmple (Width.ofCode f.ty) (BitVec.ofNat 3 f.d) (BitVec.ofNat 6 f.a) (BitVec.ofNat 6 f.b))
    | 4 => some (.vcmpltn (Width.ofCode f.ty) (BitVec.ofNat 3 f.d) (BitVec.ofNat 6 f.a) (BitVec.ofNat 6 f.b))
    | 5 => some (.vcmplen (Width.ofCode f.ty) (BitVec.ofNat 3 f.d) (BitVec.ofNat 6 f.a) (BitVec.ofNat 6 f.b))
    | _ => none
  | 5 =>
    if f.md = 0 then
      some (.vsel (BitVec.ofNat 6 f.d) (BitVec.ofNat 6 f.a) (BitVec.ofNat 6 f.b))
    else none
  | 6 => match f.md with
    | 0 => if f.q6 == 0 then some (.vbcast (Width.ofCode f.ty) (BitVec.ofNat 6 f.d) (BitVec.ofNat 6 f.a))
      else if f.q6 == 1 then some (.vbcastImm (Width.ofCode f.ty) (BitVec.ofNat 6 f.d) f.getImm)
      else none
    | 1 => some (.viota (Width.ofCode f.ty) (BitVec.ofNat 6 f.d) (BitVec.ofNat 6 f.a))
    | 2 => if f.q6 == 0 then some (.vmovpToPred (BitVec.ofNat 3 f.d) (BitVec.ofNat 6 f.a))
      else if f.q6 == 1 then some (.vmovpToVec (BitVec.ofNat 6 f.d) (BitVec.ofNat 3 f.a))
      else none
    | _ => none
  | 7 => match f.md with
    | 0 => some (.vperm (Width.ofCode f.ty) (BitVec.ofNat 6 f.d) (BitVec.ofNat 6 f.a) (BitVec.ofNat 6 f.b))
    | 1 => some (.vrot (Width.ofCode f.ty) (BitVec.ofNat 6 f.d) (BitVec.ofNat 6 f.a) (BitVec.ofNat 6 f.b))
    | 2 => some (.vzip (Width.ofCode f.ty) (BitVec.ofNat 6 f.d) (BitVec.ofNat 6 f.a) (BitVec.ofNat 6 f.b))
    | 3 => some (.vunzip (Width.ofCode f.ty) (BitVec.ofNat 6 f.d) (BitVec.ofNat 6 f.a) (BitVec.ofNat 6 f.b))
    | _ => none
  | 8 => match f.md with
    | 0 => some (.vredadd (Width.ofCode f.ty) (BitVec.ofNat 6 f.d) (BitVec.ofNat 6 f.a))
    | 1 => some (.vredmin (Width.ofCode f.ty) (f.q6 == 1) (BitVec.ofNat 6 f.d) (BitVec.ofNat 6 f.a))
    | 2 => some (.vredmax (Width.ofCode f.ty) (f.q6 == 1) (BitVec.ofNat 6 f.d) (BitVec.ofNat 6 f.a))
    | 3 => some (.vredand (Width.ofCode f.ty) (BitVec.ofNat 6 f.d) (BitVec.ofNat 6 f.a))
    | 4 => some (.vredor (Width.ofCode f.ty) (BitVec.ofNat 6 f.d) (BitVec.ofNat 6 f.a))
    | _ => none
  | 9 => match f.md with
    | 0 => some (.vscanadd (Width.ofCode f.ty) (BitVec.ofNat 6 f.d) (BitVec.ofNat 6 f.a))
    | 1 => some (.vscanmax (Width.ofCode f.ty) (f.q6 == 1) (BitVec.ofNat 6 f.d) (BitVec.ofNat 6 f.a))
    | _ => none
  | 10 => match f.md with
    | 0 => some (.vextr (Width.ofCode f.ty) (f.q6 == 1) (BitVec.ofNat 6 f.d) (BitVec.ofNat 6 f.a) (BitVec.ofNat 6 f.b))
    | 1 => some (.vins (Width.ofCode f.ty) (BitVec.ofNat 6 f.d) (BitVec.ofNat 6 f.a) (BitVec.ofNat 6 f.b))
    | _ => none
  | 11 => match f.md with
    | 0 => some (.pand (BitVec.ofNat 3 f.d) (BitVec.ofNat 3 f.a) (BitVec.ofNat 3 f.b))
    | 1 => some (.por (BitVec.ofNat 3 f.d) (BitVec.ofNat 3 f.a) (BitVec.ofNat 3 f.b))
    | 2 => some (.pxor (BitVec.ofNat 3 f.d) (BitVec.ofNat 3 f.a) (BitVec.ofNat 3 f.b))
    | 3 => some (.pnot (BitVec.ofNat 3 f.d) (BitVec.ofNat 3 f.a))
    | 4 => some (.pcnt (BitVec.ofNat 6 f.d) (BitVec.ofNat 3 f.a))
    | 5 => some (.pfirst (BitVec.ofNat 3 f.d) (BitVec.ofNat 3 f.a))
    | _ => none
  | _ => none

/-- The instruction of page 2 that legal fields name (R114). -/
def ofFields2 (f : Fields) : Option Instr :=
  match f.m with
  | 0 => match f.md with
    | 0 => some (.vfadd (VTy.ofCode f.ty) (Rnd.ofCode f.rc) (BitVec.ofNat 6 f.d) (BitVec.ofNat 6 f.a) f.getFSrc)
    | 1 => some (.vfsub (VTy.ofCode f.ty) (Rnd.ofCode f.rc) (BitVec.ofNat 6 f.d) (BitVec.ofNat 6 f.a) f.getFSrc)
    | 2 => some (.vfmul (VTy.ofCode f.ty) (Rnd.ofCode f.rc) (BitVec.ofNat 6 f.d) (BitVec.ofNat 6 f.a) f.getFSrc)
    | 3 => some (.vfmin (VTy.ofCode f.ty) (BitVec.ofNat 6 f.d) (BitVec.ofNat 6 f.a) f.getFSrc)
    | 4 => some (.vfmax (VTy.ofCode f.ty) (BitVec.ofNat 6 f.d) (BitVec.ofNat 6 f.a) f.getFSrc)
    | _ => none
  | 1 => match f.md with
    | 0 => some (.vfma (VTy.ofCode f.ty) (Rnd.ofCode f.rc) (BitVec.ofNat 6 f.d) (BitVec.ofNat 6 f.a) f.getFSrc)
    | 1 => some (.vfms (VTy.ofCode f.ty) (Rnd.ofCode f.rc) (BitVec.ofNat 6 f.d) (BitVec.ofNat 6 f.a) f.getFSrc)
    | 2 => some (.vfnma (VTy.ofCode f.ty) (Rnd.ofCode f.rc) (BitVec.ofNat 6 f.d) (BitVec.ofNat 6 f.a) f.getFSrc)
    | _ => none
  | 2 => match f.md with
    | 0 => some (.vfdiv (VTy.ofCode f.ty) (Rnd.ofCode f.rc) (BitVec.ofNat 6 f.d) (BitVec.ofNat 6 f.a) (BitVec.ofNat 6 f.b))
    | 1 => some (.vfsqrt (VTy.ofCode f.ty) (Rnd.ofCode f.rc) (BitVec.ofNat 6 f.d) (BitVec.ofNat 6 f.a))
    | 2 => some (.vfrcp (VTy.ofCode f.ty) (BitVec.ofNat 6 f.d) (BitVec.ofNat 6 f.a))
    | 3 => some (.vfrsq (VTy.ofCode f.ty) (BitVec.ofNat 6 f.d) (BitVec.ofNat 6 f.a))
    | _ => none
  | 3 => match f.md with
    | 0 => some (.vfcmpeq (VTy.ofCode f.ty) (BitVec.ofNat 3 f.d) (BitVec.ofNat 6 f.a) (BitVec.ofNat 6 f.b))
    | 1 => some (.vfcmpne (VTy.ofCode f.ty) (BitVec.ofNat 3 f.d) (BitVec.ofNat 6 f.a) (BitVec.ofNat 6 f.b))
    | 2 => some (.vfcmplt (VTy.ofCode f.ty) (BitVec.ofNat 3 f.d) (BitVec.ofNat 6 f.a) (BitVec.ofNat 6 f.b))
    | 3 => some (.vfcmple (VTy.ofCode f.ty) (BitVec.ofNat 3 f.d) (BitVec.ofNat 6 f.a) (BitVec.ofNat 6 f.b))
    | 4 => some (.vfcmpun (VTy.ofCode f.ty) (BitVec.ofNat 3 f.d) (BitVec.ofNat 6 f.a) (BitVec.ofNat 6 f.b))
    | _ => none
  | 4 => some (.vcvt f.getCvt (Rnd.ofCode f.rc) (f.q6 == 1) (BitVec.ofNat 6 f.d) (BitVec.ofNat 6 f.a))
  | 5 => some (.vqmx (STy.ofCode f.ty) (MTy.ofCode f.md) (f.q6 == 1) (BitVec.ofNat 6 f.d) (BitVec.ofNat 6 f.a))
  | 6 => some (.vdqmx (STy.ofCode f.ty) (MTy.ofCode f.md) (BitVec.ofNat 6 f.d) (BitVec.ofNat 6 f.a))
  | 7 => match f.md with
    | 0 => some (.vfexp2 (STy.ofCode f.ty) (BitVec.ofNat 6 f.d) (BitVec.ofNat 6 f.a))
    | 1 => some (.vflog2 (STy.ofCode f.ty) (BitVec.ofNat 6 f.d) (BitVec.ofNat 6 f.a))
    | 2 => some (.vftanh (STy.ofCode f.ty) (BitVec.ofNat 6 f.d) (BitVec.ofNat 6 f.a))
    | 3 => some (.vfsigm (STy.ofCode f.ty) (BitVec.ofNat 6 f.d) (BitVec.ofNat 6 f.a))
    | _ => none
  | 8 => some (.vsmx (BitVec.ofNat 3 f.md) (BitVec.ofNat 6 f.d) (BitVec.ofNat 6 f.a) (BitVec.ofNat 6 f.b))
  | 9 => match f.md with
    | 0 => some (.vfredadd (VTy.ofCode f.ty) (Rnd.ofCode f.rc) (BitVec.ofNat 6 f.d) (BitVec.ofNat 6 f.a))
    | 1 => some (.vfredmax (VTy.ofCode f.ty) (BitVec.ofNat 6 f.d) (BitVec.ofNat 6 f.a))
    | 2 => some (.vfredmin (VTy.ofCode f.ty) (BitVec.ofNat 6 f.d) (BitVec.ofNat 6 f.a))
    | _ => none
  | 10 => match f.md with
    | 0 => some (.vfabs (VTy.ofCode f.ty) (BitVec.ofNat 6 f.d) (BitVec.ofNat 6 f.a))
    | 1 => some (.vfneg (VTy.ofCode f.ty) (BitVec.ofNat 6 f.d) (BitVec.ofNat 6 f.a))
    | 2 => some (.vfclass (VTy.ofCode f.ty) (BitVec.ofNat 6 f.d) (BitVec.ofNat 6 f.a))
    | _ => none
  | _ => none

/-- The instruction of page 3 that legal fields name (R114). -/
def ofFields3 (f : Fields) : Option Instr :=
  match f.m with
  | 0 =>
    if f.md = 0 then
      some (.ld (MemTy.ofCode f.ty) (BitVec.ofNat 6 f.d) (BitVec.ofNat 4 f.a) (BitVec.ofNat 6 f.b))
    else none
  | 1 =>
    if f.md = 0 then
      some (.ldi (MemTy.ofCode f.ty) (BitVec.ofNat 6 f.d) (BitVec.ofNat 4 f.a) f.getImm)
    else none
  | 2 =>
    if f.md = 0 then
      some (.st (MemTy.ofCode f.ty) (BitVec.ofNat 6 f.d) (BitVec.ofNat 4 f.a) (BitVec.ofNat 6 f.b))
    else none
  | 3 =>
    if f.md = 0 then
      some (.sti (MemTy.ofCode f.ty) (BitVec.ofNat 6 f.d) (BitVec.ofNat 4 f.a) f.getImm)
    else none
  | 4 => some (.vld (Width.ofCode f.ty) (BitVec.ofNat 6 f.d) (BitVec.ofNat 4 f.a) f.getVIdx)
  | 5 => some (.vst (Width.ofCode f.ty) (BitVec.ofNat 6 f.d) (BitVec.ofNat 4 f.a) f.getVIdx)
  | 6 => some (.tld (TElem.ofCode f.ty) (BitVec.ofNat 4 f.qtop) (BitVec.ofNat 2 f.md) (BitVec.ofNat 3 f.d) (BitVec.ofNat 4 f.a) (f.getIdx (f.md / 4 == 1)))
  | 7 => match f.md with
    | 0 => some (.rowact (BitVec.ofNat 4 f.a) (f.getIdx (f.q6 == 1)))
    | 1 => some (.rowpre (BitVec.ofNat 4 f.a) (f.getIdx (f.q6 == 1)))
    | _ => none
  | 8 => match f.md with
    | 0 => some (.capld (BitVec.ofNat 4 f.d) (BitVec.ofNat 4 f.a) (BitVec.ofNat 6 f.b))
    | 1 => some (.capst (BitVec.ofNat 4 f.d) (BitVec.ofNat 4 f.a) (BitVec.ofNat 6 f.b))
    | 2 => some (.capnarrow (BitVec.ofNat 4 f.d) (BitVec.ofNat 4 f.a) (BitVec.ofNat 6 f.b))
    | 3 => some (.capoff (BitVec.ofNat 6 f.d) (BitVec.ofNat 4 f.a) (BitVec.ofNat 3 f.b))
    | _ => none
  | _ => none

/-- The instruction of page 4 that legal fields name (R114). -/
def ofFields4 (f : Fields) : Option Instr :=
  match f.m with
  | 0 => some (.mma (f.q6 == 1) (f.md % 2 == 1) (BitVec.ofNat 2 f.d) (BitVec.ofNat 3 f.a) (BitVec.ofNat 3 f.b))
  | 1 => some (.mmas (f.q6 == 1) (f.md % 2 == 1) (BitVec.ofNat 2 f.d) (BitVec.ofNat 3 f.a) (BitVec.ofNat 3 f.b))
  | 2 =>
    if f.md = 0 then
      some (.mzero (BitVec.ofNat 2 f.d))
    else none
  | 3 => some (.mfmt f.getMFmt)
  | 4 =>
    if f.md = 0 then
      some (.tst (BitVec.ofNat 2 f.d) (BitVec.ofNat 4 f.a) (f.getIdx (f.q6 == 1)))
    else none
  | 5 => some (.mepi (BitVec.ofNat 3 f.md) (FTy.ofCode f.ty) (Rnd.ofCode f.rc) (f.q6 == 1) (BitVec.ofNat 6 f.a))
  | 6 =>
    if f.md = 0 then
      some (.tldacc (BitVec.ofNat 2 f.d) (BitVec.ofNat 4 f.a) (f.getIdx (f.q6 == 1)))
    else none
  | 7 => match f.md with
    | 0 => some (.obput (ObAcc.ofCode f.q6 f.d) (BitVec.ofNat 6 f.a) (BitVec.ofNat 6 f.b))
    | 1 => some (.obget (BitVec.ofNat 6 f.d) (ObAcc.ofCode f.q6 f.a) (BitVec.ofNat 6 f.b))
    | _ => none
  | 8 =>
    if f.md = 0 then
      some (.mstat (BitVec.ofNat 6 f.d) (BitVec.ofNat 2 f.b))
    else none
  | 9 =>
    if f.md = 0 then
      if f.qtop == 0 then some (.mfence )
      else if f.qtop == 1 then some (.mfenceCore )
      else none
    else none
  | _ => none

/-- The instruction of page 5 that legal fields name (R114). -/
def ofFields5 (f : Fields) : Option Instr :=
  match f.m with
  | 0 =>
    if f.md = 0 then
      some (.rel (Scope.ofCode f.qtop))
    else none
  | 1 =>
    if f.md = 0 then
      some (.acq (Scope.ofCode f.qtop) (BitVec.ofNat 3 f.d) (BitVec.ofNat 6 f.a))
    else none
  | 2 =>
    if f.md = 0 then
      some (.fence (Scope.ofCode f.qtop))
    else none
  | 3 => match f.md with
    | 0 => some (.amoadd (AmoTy.ofCode f.ty) (BitVec.ofNat 6 f.d) (BitVec.ofNat 4 f.a) (f.getIdx (f.qtop / 8 == 1)) (BitVec.ofNat 3 f.qtop))
    | 1 => some (.amomin (AmoTy.ofCode f.ty) (BitVec.ofNat 6 f.d) (BitVec.ofNat 4 f.a) (f.getIdx (f.qtop / 8 == 1)) (BitVec.ofNat 3 f.qtop))
    | 2 => some (.amomax (AmoTy.ofCode f.ty) (BitVec.ofNat 6 f.d) (BitVec.ofNat 4 f.a) (f.getIdx (f.qtop / 8 == 1)) (BitVec.ofNat 3 f.qtop))
    | 3 => some (.amoand (AmoTy.ofCode f.ty) (BitVec.ofNat 6 f.d) (BitVec.ofNat 4 f.a) (f.getIdx (f.qtop / 8 == 1)) (BitVec.ofNat 3 f.qtop))
    | 4 => some (.amoor (AmoTy.ofCode f.ty) (BitVec.ofNat 6 f.d) (BitVec.ofNat 4 f.a) (f.getIdx (f.qtop / 8 == 1)) (BitVec.ofNat 3 f.qtop))
    | 5 => some (.amoxor (AmoTy.ofCode f.ty) (BitVec.ofNat 6 f.d) (BitVec.ofNat 4 f.a) (f.getIdx (f.qtop / 8 == 1)) (BitVec.ofNat 3 f.qtop))
    | 6 => some (.amoswap (AmoTy.ofCode f.ty) (BitVec.ofNat 6 f.d) (BitVec.ofNat 4 f.a) (f.getIdx (f.qtop / 8 == 1)) (BitVec.ofNat 3 f.qtop))
    | _ => none
  | 4 =>
    if f.md = 0 then
      some (.cas (AmoTy.ofCode f.ty) (BitVec.ofNat 6 f.d) (BitVec.ofNat 4 f.a) (f.getIdx (f.qtop / 8 == 1)))
    else none
  | 5 => match f.md with
    | 0 => some (.ldc (BitVec.ofNat 6 f.d) (BitVec.ofNat 4 f.a) (f.getIdx (f.qtop / 8 == 1)))
    | 1 => some (.ldf (BitVec.ofNat 6 f.d) (BitVec.ofNat 4 f.a) (f.getIdx (f.qtop / 8 == 1)))
    | 2 => some (.stp (BitVec.ofNat 6 f.d) (BitVec.ofNat 4 f.a) (f.getIdx (f.qtop / 8 == 1)))
    | 3 => some (.sete (BitVec.ofNat 4 f.a) (f.getIdx (f.qtop / 8 == 1)))
    | 4 => some (.setf (BitVec.ofNat 6 f.d) (BitVec.ofNat 4 f.a) (f.getIdx (f.qtop / 8 == 1)))
    | 5 => some (.feq (BitVec.ofNat 6 f.d) (BitVec.ofNat 4 f.a) (f.getIdx (f.qtop / 8 == 1)))
    | _ => none
  | 6 => match f.md with
    | 0 => some (.swarm (Scope.ofCode f.qtop) (BitVec.ofNat 6 f.d) (BitVec.ofNat 4 f.a) (f.getIdx (f.ty == 1)))
    | 1 => some (.swwait (BitVec.ofNat 6 f.d) (BitVec.ofNat 4 f.a) (f.getIdx (f.ty == 1)))
    | 2 => some (.swadd (Scope.ofCode f.qtop) (BitVec.ofNat 6 f.d) (BitVec.ofNat 4 f.a) (f.getIdx (f.ty == 1)))
    | 3 => some (.swrd (BitVec.ofNat 6 f.d) (BitVec.ofNat 4 f.a) (f.getIdx (f.ty == 1)))
    | _ => none
  | 7 =>
    if f.md = 0 then
      some (.bar (Scope.ofCode f.qtop))
    else none
  | 8 =>
    if f.md = 0 then
      some (.logq (BitVec.ofNat 6 f.d) (BitVec.ofNat 6 f.a) (BitVec.ofNat 4 f.b))
    else none
  | 9 =>
    if f.md = 0 then
      if f.qtop == 0 then some (.mirfl (BitVec.ofNat 6 f.d) (BitVec.ofNat 4 f.a) (BitVec.ofNat 6 f.b))
      else if f.qtop == 1 then some (.mirflAll )
      else none
    else none
  | _ => none

/-- The instruction of page 6 that legal fields name (R114). -/
def ofFields6 (f : Fields) : Option Instr :=
  match f.m with
  | 0 =>
    if f.md = 0 then
      some (.cpy (BitVec.ofNat 6 f.a))
    else none
  | 1 =>
    if f.md = 0 then
      some (.cpyf (BitVec.ofNat 6 f.a))
    else none
  | 2 =>
    if f.md = 0 then
      some (.collAllreduce (Scope.ofCode f.qtop) (BitVec.ofNat 6 f.a))
    else none
  | 3 => some (.send (f.md % 2 == 1) (BitVec.ofNat 3 f.d) (BitVec.ofNat 6 f.a) (BitVec.ofNat 6 f.b))
  | 4 =>
    if f.md = 0 then
      some (.recv (BitVec.ofNat 6 f.d) f.getRecv)
    else none
  | 5 => match f.md with
    | 0 => some (.rcallRd (BitVec.ofNat 3 f.qtop) (BitVec.ofNat 6 f.d) (BitVec.ofNat 4 f.a) (f.getIdx (f.ty / 4 == 1)))
    | 1 => some (.rcallWr (BitVec.ofNat 3 f.qtop) (BitVec.ofNat 6 f.d) (BitVec.ofNat 4 f.a) (f.getIdx (f.ty / 4 == 1)))
    | 2 => some (.rcallAdd (BitVec.ofNat 6 f.d) (BitVec.ofNat 4 f.a) (f.getIdx (f.ty / 4 == 1)))
    | 3 => some (.rcallSwap (BitVec.ofNat 6 f.d) (BitVec.ofNat 4 f.a) (f.getIdx (f.ty / 4 == 1)))
    | 4 => some (.rcallCas (BitVec.ofNat 6 f.d) (BitVec.ofNat 4 f.a) (f.getIdx (f.ty / 4 == 1)))
    | _ => none
  | 6 =>
    if f.md = 0 then
      some (.launch (BitVec.ofNat 6 f.d) (BitVec.ofNat 6 f.a) (BitVec.ofNat 4 f.b))
    else none
  | 7 =>
    if f.md = 0 then
      some (.launchi (BitVec.ofNat 6 f.d) (BitVec.ofNat 6 f.a) (BitVec.ofNat 4 f.b))
    else none
  | 8 =>
    if f.md = 0 then
      some (.join (BitVec.ofNat 6 f.d) (BitVec.ofNat 6 f.a))
    else none
  | 9 =>
    if f.md = 0 then
      some (.epoll (BitVec.ofNat 6 f.d) (BitVec.ofNat 2 f.b))
    else none
  | _ => none

/-- The instruction of page 7 that legal fields name (R114). -/
def ofFields7 (f : Fields) : Option Instr :=
  match f.m with
  | 0 =>
    if f.md = 0 then
      some (.sopen (BitVec.ofNat 6 f.d) (BitVec.ofNat 6 f.a))
    else none
  | 1 =>
    if f.md = 0 then
      some (.sclose (BitVec.ofNat 6 f.a))
    else none
  | 2 =>
    if f.md = 0 then
      some (.sframe (BitVec.ofNat 3 f.d) (BitVec.ofNat 6 f.a) (BitVec.ofNat 6 f.b))
    else none
  | 3 => match f.md with
    | 0 => some (.sgen (BitVec.ofNat 6 f.d) (BitVec.ofNat 6 f.a))
    | 1 => some (.sgenAbandon (BitVec.ofNat 6 f.d) (BitVec.ofNat 6 f.a))
    | _ => none
  | 4 =>
    if f.md = 0 then
      some (.splay (BitVec.ofNat 6 f.a) (BitVec.ofNat 6 f.b))
    else none
  | 5 =>
    if f.md = 0 then
      some (.strunc (BitVec.ofNat 6 f.a) (BitVec.ofNat 6 f.b))
    else none
  | 6 =>
    if f.md = 0 then
      some (.ssnap (BitVec.ofNat 6 f.d) (BitVec.ofNat 6 f.a) (BitVec.ofNat 6 f.b))
    else none
  | 7 =>
    if f.md = 0 then
      some (.skvaddr (BitVec.ofNat 6 f.d) (BitVec.ofNat 6 f.a) (BitVec.ofNat 6 f.b))
    else none
  | 8 =>
    if f.md = 0 then
      some (.sstat (BitVec.ofNat 6 f.d) (BitVec.ofNat 6 f.a))
    else none
  | 9 =>
    if f.md = 0 then
      some (.scommit (BitVec.ofNat 6 f.a) (BitVec.ofNat 6 f.b))
    else none
  | 10 =>
    if f.md = 0 then
      some (.snext (BitVec.ofNat 6 f.d) (BitVec.ofNat 6 f.a))
    else none
  | _ => none

/-- The instruction of page 8 that legal fields name (R114). -/
def ofFields8 (f : Fields) : Option Instr :=
  match f.m with
  | 0 => match f.md with
    | 0 => some (.jmp f.getTarget)
    | 1 => some (.call (BitVec.ofNat 6 f.d) f.getTarget)
    | 2 => some (.ret f.getRTarget)
    | _ => none
  | 1 =>
    if f.md = 0 then
      some (.trap f.getImm)
    else none
  | 2 => match f.md with
    | 0 => some (.tret )
    | 1 => some (.tretHalt )
    | 2 => some (.tretAbort )
    | _ => none
  | 3 =>
    if f.md = 0 then
      some (.csrr (BitVec.ofNat 6 f.d) f.getImm)
    else none
  | 4 =>
    if f.md = 0 then
      if isCsrCtxbase f.immN then some (.csrwCtxbase (BitVec.ofNat 6 f.a) f.getImm)
      else if isCsrLogsize f.immN then some (.csrwLogsize (BitVec.ofNat 6 f.a) f.getImm)
      else if isCsrMirsize f.immN then some (.csrwMirsize (BitVec.ofNat 6 f.a) f.getImm)
      else if isCsrUrglim f.immN then some (.csrwUrglim (BitVec.ofNat 6 f.a) f.getImm)
      else if isCsrSeed f.immN then some (.csrwSeed (BitVec.ofNat 6 f.a) f.getImm)
      else if isCsrWinbase f.immN then some (.csrwWinbase (BitVec.ofNat 6 f.a) f.getImm)
      else if isCsrRectdef f.immN then some (.csrwRectdef (BitVec.ofNat 6 f.a) f.getImm)
      else some (.csrw (BitVec.ofNat 6 f.a) f.getImm)
    else none
  | 5 => match f.md with
    | 0 => some (.yield (BitVec.ofNat 6 f.a))
    | 1 => some (.park )
    | 2 => some (.wake (BitVec.ofNat 6 f.a))
    | _ => none
  | 6 =>
    if f.md = 0 then
      some (.urg (BitVec.ofNat 4 f.qtop) (BitVec.ofNat 3 f.d) (BitVec.ofNat 6 f.a) (BitVec.ofNat 6 f.b))
    else none
  | 7 =>
    if f.md = 0 then
      some (.halt )
    else none
  | 8 => match f.md with
    | 0 => some (.regevict (BitVec.ofNat 6 f.d) (BitVec.ofNat 6 f.a))
    | 1 => some (.regload (BitVec.ofNat 6 f.d) (BitVec.ofNat 6 f.a))
    | _ => none
  | 9 => match f.md with
    | 0 => some (.cntrd (BitVec.ofNat 6 f.d) (BitVec.ofNat 4 f.b))
    | 1 => some (.cntclr (BitVec.ofNat 6 f.a))
    | 2 => some (.cntsum (Scope.ofCode f.qtop) (BitVec.ofNat 6 f.d) (BitVec.ofNat 6 f.a))
    | _ => none
  | 10 => match f.md with
    | 0 => some (.brk f.getImm)
    | 1 => some (.step )
    | _ => none
  | _ => none

/-- The instruction that legal fields name. -/
def ofFields (f : Fields) : Option Instr :=
  if f.m ≥ 0xC then ofFields0 f
  else match f.page with
    | 0 => ofFields0 f
    | 1 => ofFields1 f
    | 2 => ofFields2 f
    | 3 => ofFields3 f
    | 4 => ofFields4 f
    | 5 => ofFields5 f
    | 6 => ofFields6 f
    | 7 => ofFields7 f
    | 8 => ofFields8 f
    | _ => none

/-! The chain (R102, R103) and the order of the checks (R116, R117). -/

/-- What decoding a list of halfwords gives: a guard, an instruction, its length in halfwords, its base word and the base
word's position; an encoding trap with its halfword and position; or a chain that the list does not end. -/
inductive Dec where
  | ok (gd : Guard) (i : Instr) (len : Nat) (base : Half) (pos : Nat)
  | ill (cause : IllCause) (hw : Half) (pos : Nat)
  | more
deriving DecidableEq, Repr

/-- The prefixes read so far, each with its position. -/
structure Chain where
  n : Nat := 0
  pg : Option (Nat × Half) := none
  qx : Option (Nat × Half) := none
  rx : Option (Nat × Half) := none
  firstImx : Option (Nat × Half) := none
  ext : Nat := 0
  hi : Nat := 0
deriving DecidableEq, Repr

/-- Bits [hi:lo] of a halfword as a number. -/
def hbits (h : Half) (lo len : Nat) : Nat := h.toNat / 2 ^ lo % 2 ^ len

/-- The value a prefix would have if absent: zero (R107, R111, R112). -/
def prefWord (o : Option (Nat × Half)) : Half := (o.map (·.2)).getD 0

/-- The fields of a chain that ends in the base word `h`. -/
def Chain.fields (c : Chain) (h : Half) : Fields :=
  let rx := prefWord c.rx
  let qx := prefWord c.qx
  { page := hbits (prefWord c.pg) 2 8, m := hbits h 12 4
    d := hbits rx 8 2 * 16 + hbits h 8 4, a := hbits rx 6 2 * 16 + hbits h 4 4, b := hbits rx 4 2 * 16 + hbits h 0 4
    qtop := hbits qx 6 4, ty := hbits qx 3 3, md := hbits qx 0 3
    gd := ⟨hbits rx 3 1 == 1, BitVec.ofNat 3 (hbits rx 0 3)⟩, ext := c.ext, hi := c.hi }

/-- The earlier of two positioned halfwords. -/
def earlier (x y : Option (Nat × Half)) : Option (Nat × Half) :=
  match x, y with
  | some p, some q => if p.1 ≤ q.1 then some p else some q
  | some p, none => some p
  | none, y => y

/-- Step 6 of R116: the failing halfword nearest the start of the chain, if any field fails. -/
def fieldFault (c : Chain) (h : Half) (f : Fields) (r : Row) : Option (Nat × Half) :=
  let qBad := if r.q then none else c.qx.orElse fun _ => some (c.n, h)
  let rBad := if r.d.highOk f.d && r.a.highOk f.a && r.b.highOk f.b then none else c.rx
  let bBad := if r.d.baseOk f.d && r.a.baseOk f.a && r.b.baseOk f.b && r.base then none else some (c.n, h)
  earlier qBad (earlier rBad bBad)

/-- Steps 2 to 6 of R116 on a whole chain, and the instruction. -/
def finishChain (c : Chain) (h : Half) : Dec :=
  let f := c.fields h
  match c.pg with
  | some (p, w) => if hbits w 0 2 ≠ 0 then .ill .illField w p else finishOp c h f
  | none => finishOp c h f
where
  finishOp (c : Chain) (h : Half) (f : Fields) : Dec :=
    let compact := if f.m = 0xC then earlier (earlier c.pg c.qx) c.firstImx
      else if f.m = 0xD then earlier c.pg c.qx else none
    match compact with
    | some (p, w) => .ill .illPrefix w p
    | none =>
      match rowOf f with
      | none => .ill .illOp h c.n
      | some r =>
        match (if r.imm || r.immSkip then none else c.firstImx) with
        | some (p, w) => .ill .illPrefix w p
        | none =>
          match fieldFault c h f r with
          | some (p, w) => .ill .illField w p
          | none =>
            match ofFields f with
            | some i => .ok f.gd i (c.n + 1) h c.n
            | none => .ill .illOp h c.n

/-- Step 1 of R116, halfword by halfword: prefixes until the first halfword with M ≤ 0xD. -/
def decodeFrom (c : Chain) : List Half → Dec
  | [] => .more
  | h :: rest =>
    let m := hbits h 12 4
    if m ≤ 0xD then finishChain c h
    else if m = 0xF ∧ hbits h 10 2 = 3 then .ill .illPrefix h c.n
    else if c.n ≥ 4 then .ill .illPrefix h c.n
    else if m = 0xE then
      decodeFrom { c with n := c.n + 1, ext := c.ext + 1, hi := c.hi * 4096 + hbits h 0 12
                          firstImx := c.firstImx.orElse fun _ => some (c.n, h) } rest
    else match hbits h 10 2 with
      | 0 => if c.rx.isSome then .ill .illPrefix h c.n
             else decodeFrom { c with n := c.n + 1, rx := some (c.n, h) } rest
      | 1 => if c.pg.isSome then .ill .illPrefix h c.n
             else decodeFrom { c with n := c.n + 1, pg := some (c.n, h) } rest
      | _ => if c.qx.isSome then .ill .illPrefix h c.n
             else decodeFrom { c with n := c.n + 1, qx := some (c.n, h) } rest

/-- The decoder: total on every list of halfwords. -/
def decode (hs : List Half) : Dec := decodeFrom {} hs

/-! The encoder, in the order of `opoft`: `PG`, `QX`, `RX`, `IMX`, base word. -/

/-- The `IMX` prefixes of an immediate, most significant first (R104). -/
def imxWords (hi : Nat) : Nat → List Half
  | 0 => []
  | n + 1 => BitVec.ofNat 16 (0xE000 + hi / 4096 ^ n % 4096) :: imxWords hi n

/-- The words of a field set; a prefix whose fields are all zero is left out. -/
def Fields.words (f : Fields) : List Half :=
  let qx := f.qtop * 64 + f.ty * 8 + f.md
  let rx := f.d / 16 * 256 + f.a / 16 * 64 + f.b / 16 * 16 + boolCode f.gd.neg * 8 + f.gd.p.toNat
  (if f.page = 0 then [] else [BitVec.ofNat 16 (0xF400 + f.page * 4)]) ++
  (if qx = 0 then [] else [BitVec.ofNat 16 (0xF800 + qx)]) ++
  (if rx = 0 then [] else [BitVec.ofNat 16 (0xF000 + rx)]) ++
  imxWords f.hi f.ext ++
  [BitVec.ofNat 16 (f.m * 4096 + f.d % 16 * 256 + f.a % 16 * 16 + f.b % 16)]

/-- The encoding of a guarded instruction; an event has none. -/
def encode (gd : Guard) (i : Instr) : List Half := (i.fields.map fun f => { f with gd := gd }.words).getD []

/-- At most four prefixes, as R103 allows. -/
def Instr.fits (gd : Guard) (i : Instr) : Bool := (encode gd i).length ≤ 5

/-- The halfwords of a table word: the table numbers a 32-bit row with its prefix above its base word, and a 16-bit
row is the base word alone (assumption 4). -/
def tableHalves (nbits w : Nat) : List Half :=
  if nbits ≤ 16 then [BitVec.ofNat 16 w]
  else
    let hi := BitVec.ofNat 16 (w / 65536)
    let lo := BitVec.ofNat 16 w
    if hbits hi 12 4 ≤ 0xD ∧ 0xD < hbits lo 12 4 then [lo, hi] else [hi, lo]

/-- The instruction the decoder reads from a word numbered as the opcode table numbers it. -/
def decodeTableWord (nbits w : Nat) : Option Instr :=
  match decode (tableHalves nbits w) with
  | .ok _ i _ _ _ => some i
  | .ill _ _ _ => none
  | .more => none

end Sys2Proof
end

