-- ==== Sys2Proof/Machine/Mem.lean ====
section
/-!
DEFINITION. Memory: one canonical list of cells for every memory of the package (R186), its granules' tags and poison
(R49, R191) and its words' full states (R221), and the locations of each memory in it.
-/
namespace Sys2Proof.Machine

/-- What a byte that the list does not hold reads as (assumption 1). -/
def unlisted : Byte := 0

/-- Reads one byte. -/
def Memory.read (m : List Host.Cell) (a : Nat) : Byte :=
  match m with
  | [] => unlisted
  | (b, x) :: r => if b = a then x else if a < b then unlisted else Memory.read r a

/-- Writes one byte; writing the unlisted value removes the cell. -/
def Memory.write (m : List Host.Cell) (a : Nat) (x : Byte) : List Host.Cell :=
  match m with
  | [] => if x = unlisted then [] else [(a, x)]
  | (b, y) :: r =>
    if b = a then (if x = unlisted then r else (a, x) :: r)
    else if a < b then (if x = unlisted then (b, y) :: r else (a, x) :: (b, y) :: r)
    else (b, y) :: Memory.write r a x

/-- Every address is at least `lo`, the addresses rise strictly, and no cell holds the unlisted value. -/
def Memory.wfFrom (lo : Nat) : List Host.Cell → Bool
  | [] => true
  | (a, x) :: r => decide (lo ≤ a) && x != unlisted && Memory.wfFrom (a + 1) r
/-- The canonical form of a memory. -/
def Memory.wf (m : List Host.Cell) : Bool := Memory.wfFrom 0 m

/-- Writes the low bytes of a number, lowest address first (little-endian, R2). -/
def Memory.writeNat (m : List Host.Cell) (a : Nat) (x : Nat) : Nat → List Host.Cell
  | 0 => m
  | n + 1 => Memory.writeNat (Memory.write m a (BitVec.ofNat 8 x)) (a + 1) (x / 256) n

/-- The number that `n` bytes hold, lowest address first (R2). -/
def Memory.readNat (m : List Host.Cell) (a : Nat) : Nat → Nat
  | 0 => 0
  | n + 1 => (Memory.read m a).toNat + 256 * Memory.readNat m (a + 1) n

/-! Locations. A position's vault takes 2³¹ keys, its scratchpad 2²¹, each operand buffer 2¹⁵ and each accumulator
2¹⁴; host memory of link l lies above 2⁶⁵ + l × 2⁶⁴. -/

def vaultLoc (c a : Nat) : Nat := c * 2 ^ 31 + a
def scratchLoc (c o : Nat) : Nat := 2 ^ 41 + c * 2 ^ 21 + o
def bufLoc (c n o : Nat) : Nat := 2 ^ 42 + (c * 8 + n) * 2 ^ 15 + o
def accLoc (c n o : Nat) : Nat := 2 ^ 43 + (c * 4 + n) * 2 ^ 14 + o
/-- The shadow accumulators of a trailing copy (R200). -/
def shadowLoc (c n o : Nat) : Nat := 2 ^ 44 + (c * 4 + n) * 2 ^ 14 + o
def hostLoc (l a : Nat) : Nat := 2 ^ 65 + l * 2 ^ 64 + a

def State.readByte (s : State) (a : Nat) : Byte := Memory.read s.mem a
def State.readMem (s : State) (a n : Nat) : Nat := Memory.readNat s.mem a n

/-- The granules that `n` bytes at a location touch. -/
def granules (a n : Nat) : List Nat := if n = 0 then [] else upFrom (a / 16) ((a + n - 1) / 16 - a / 16 + 1)

/-- The granules that `n` bytes at a location cover whole. -/
def wholeGranules (a n : Nat) : List Nat := (granules a n).filter fun g => a ≤ g * 16 && g * 16 + 16 ≤ a + n

/-- A write that covers granules whole clears their poison, and a fault of the bits that it replaces is never read (R191). -/
def State.clean (s : State) (gs : List Nat) : State :=
  { s with poison := s.poison.filter fun g => !gs.contains g
           badGranules := s.badGranules.filter fun p => !gs.contains p.1 }
/-- Every write that touches a granule clears its tag, and one that covers it clears its poison (R49, R191). -/
def State.touch (s : State) (a n : Nat) : State :=
  { s with tags := s.tags.filter fun g => !(granules a n).contains g }.clean (wholeGranules a n)

/-- Writes `n` bytes of a number. -/
def State.writeMem (s : State) (a x n : Nat) : State :=
  { s with mem := Memory.writeNat s.mem a x n }.touch a n

/-- The runs of consecutive addresses in a list, as (first, length). -/
def addrRuns : List Nat → List (Nat × Nat)
  | [] => []
  | a :: r => match addrRuns r with
    | [] => [(a, 1)]
    | (b, n) :: q => if b = a + 1 then (a, n + 1) :: q else (a, 1) :: (b, n) :: q
/-- The granules that bytes at rising addresses cover whole. -/
def coveredGranules (as : List Nat) : List Nat := (addrRuns as).flatMap fun p => wholeGranules p.1 p.2

/-- Writes cells one by one. -/
def State.putCells (s : State) : List Host.Cell → State
  | [] => s
  | (a, x) :: r => (s.writeMem a x.toNat 1).putCells r
/-- Writes cells at rising addresses; whole granules lose their poison (R191). -/
def State.writeCells (s : State) (cs : List Host.Cell) : State := (s.putCells cs).clean (coveredGranules (cs.map (·.1)))

/-- Reads `n` bytes as cells of consecutive keys from `k`. -/
def State.readCells (s : State) (a k : Nat) : Nat → List Host.Cell
  | 0 => []
  | n + 1 => (k, s.readByte a) :: s.readCells (a + 1) (k + 1) n

/-- Fills `n` bytes of whole granules with zeros, by dropping their cells: no poison and no fault stays behind (R191). -/
def State.zeroMem (s : State) (a n : Nat) : State :=
  { s with mem := s.mem.filter fun p => p.1 < a || a + n ≤ p.1
           tags := s.tags.filter fun g => g * 16 + 16 ≤ a || a + n ≤ g * 16
           poison := s.poison.filter fun g => g * 16 + 16 ≤ a || a + n ≤ g * 16
           badGranules := s.badGranules.filter fun p => p.1 * 16 + 16 ≤ a || a + n ≤ p.1 * 16 }

/-- Cells go to their keys counted from a location. -/
def Memory.writeAt (m : List Host.Cell) (a : Nat) : List Host.Cell → List Host.Cell
  | [] => m
  | (k, x) :: r => Memory.writeAt (Memory.write m (a + k) x) a r

/-- The number that cells hold, lowest key first. -/
def cellsNat : List Host.Cell → Nat
  | [] => 0
  | (_, x) :: r => x.toNat + 256 * cellsNat r

/-- The cells that `n` bytes of a number make at a location. -/
def natCells (a x : Nat) : Nat → List Host.Cell
  | 0 => []
  | n + 1 => (a, BitVec.ofNat 8 x) :: natCells (a + 1) (x / 256) n

/-- Any granule of the bytes is poisoned. -/
def State.poisoned (s : State) (a n : Nat) : Bool := (granules a n).any s.poison.contains
def State.markPoison (s : State) (gs : List Nat) : State := { s with poison := gs.foldl setIns s.poison }
def State.tagAt (s : State) (a : Nat) : Bool := s.tags.contains (a / 16)
def State.setTag (s : State) (a : Nat) (t : Bool) : State :=
  { s with tags := if t then setIns s.tags (a / 16) else setDel s.tags (a / 16) }

/-- Reads a capability granule with its tag. -/
def State.readCap (s : State) (a : Nat) : Cap := ⟨BitVec.ofNat 128 (s.readMem a 16), s.tagAt a⟩
/-- Writes a capability granule with its tag (`CAPST`, R49). -/
def State.writeCap (s : State) (a : Nat) (c : Cap) : State := (s.writeMem a c.bits.toNat 16).setTag a c.tag

/-- Empties every word of a range (R221, R311). -/
def State.emptyWords (s : State) (a n : Nat) : State :=
  { s with full := s.full.filter fun w => w < a || a + n ≤ w }
def State.setFull (s : State) (a : Nat) (b : Bool) : State :=
  { s with full := if b then setIns s.full a else setDel s.full a }

end Sys2Proof.Machine
end

