-- ==== Sys2Proof/Machine/Regs.lean ====
section
/-!
DEFINITION. Reading and writing registers (R110, R125–R128): the hard-wired g0 and p0, the private registers of a slot
and the shared bank of its group, whose writes wait for their commit clock.
-/
namespace Sys2Proof.Machine

/-- c0–c31 of a bank; bank 16 is the supervisor's own (R27). -/
def State.bankC (s : State) (c b i : Nat) : Word :=
  if b = 16 then SMap.get (s.core c).supC i 0 else ((s.group? c b).map fun g => SMap.get g.c i 0).getD 0
def State.bankW (s : State) (c b i : Nat) : Vec :=
  if b = 16 then SMap.get (s.core c).supW i 0 else ((s.group? c b).map fun g => SMap.get g.w i 0).getD 0
def State.setBankC (s : State) (c b i : Nat) (x : Word) : State :=
  if b = 16 then s.onCore c fun k => { k with supC := SMap.set k.supC i x }
  else s.onGroup c b fun g => { g with c := SMap.set g.c i x }
def State.setBankW (s : State) (c b i : Nat) (x : Vec) : State :=
  if b = 16 then s.onCore c fun k => { k with supW := SMap.set k.supW i x }
  else s.onGroup c b fun g => { g with w := SMap.set g.w i x }

/-- g[r] of a slot; g0 reads as zero (R110). -/
def State.gprAt (s : State) (c n : Nat) (r : Gpr) : Word :=
  if r = 0 then 0
  else if r.toNat < 32 then SMap.get (s.slot c n).g r.toNat 0
  else s.bankC c (s.slot c n).bank (r.toNat - 32)

/-- A write of a shared register that commits at a clock (R127). -/
def State.share (s : State) (c : Nat) (w : ShWrite) : State := s.onCore c fun k => { k with shared := k.shared ++ [w] }

/-- g[r] := x; a write to g0 is discarded, and one to a shared register commits at `clock`. -/
def State.putGprAt (s : State) (c n : Nat) (r : Gpr) (x : Word) (clock : Nat) : State :=
  if r = 0 then s
  else if r.toNat < 32 then s.onSlot c n fun t => { t with g := SMap.set t.g r.toNat x }
  else s.share c ⟨clock, n, (s.slot c n).bank, false, r.toNat - 32, x, 0, 0⟩

def State.vecAt (s : State) (c n : Nat) (r : Vr) : Vec :=
  if r.toNat < 32 then SMap.get (s.slot c n).v r.toNat 0 else s.bankW c (s.slot c n).bank (r.toNat - 32)

/-- The 8,192-bit mask of the lanes a predicate selects. -/
def laneMask (p : Pred) : Vec :=
  (below 256).foldr (fun i acc => acc <<< 32 ||| (if p.getLsbD i then 0xFFFFFFFF#8192 else 0)) 0

/-- Every lane: what a write of a whole vector register covers (R128). -/
def allLanes : Pred := BitVec.allOnes 256

def State.putVecAt (s : State) (c n : Nat) (r : Vr) (x : Vec) (clock : Nat) (lanes : Pred) : State :=
  if r.toNat < 32 then s.onSlot c n fun t => { t with v := SMap.set t.v r.toNat x }
  else s.share c ⟨clock, n, (s.slot c n).bank, true, r.toNat - 32, 0, x, lanes⟩

/-- p[r] of a slot; p0 reads as all ones (R110). -/
def State.predAt (s : State) (c n : Nat) (r : Pr) : Pred :=
  if r = 0 then BitVec.allOnes 256 else SMap.get (s.slot c n).p r.toNat 0
def State.putPredAt (s : State) (c n : Nat) (r : Pr) (x : Pred) : State :=
  if r = 0 then s else s.onSlot c n fun t => { t with p := SMap.set t.p r.toNat x }

def State.capAt (s : State) (c n : Nat) (r : Kr) : Cap := SMap.get (s.slot c n).k r.toNat ⟨0, false⟩
def State.putCapAt (s : State) (c n : Nat) (r : Kr) (x : Cap) : State :=
  s.onSlot c n fun t => { t with k := SMap.set t.k r.toNat x }

/-! The same, for the slot whose instruction issues; its writes commit 15 clocks after the issue (R127). -/

def State.ic (s : State) : Nat := s.issue.core
def State.is (s : State) : Nat := s.issue.slot
def State.me (s : State) : Slot := s.slot s.ic s.is
def State.gpr (s : State) (r : Gpr) : Word := s.gprAt s.ic s.is r
def State.putGpr (s : State) (r : Gpr) (x : Word) : State := s.putGprAt s.ic s.is r x (s.cycle + 15)
def State.vec (s : State) (r : Vr) : Vec := s.vecAt s.ic s.is r
def State.putVec (s : State) (r : Vr) (x : Vec) : State := s.putVecAt s.ic s.is r x (s.cycle + 15) allLanes
def State.pred (s : State) (r : Pr) : Pred := s.predAt s.ic s.is r
def State.putPred (s : State) (r : Pr) (x : Pred) : State := s.putPredAt s.ic s.is r x
def State.cap (s : State) (r : Kr) : Cap := s.capAt s.ic s.is r
def State.putCap (s : State) (r : Kr) (x : Cap) : State := s.putCapAt s.ic s.is r x
/-- The register after another, for the pairs of R205. -/
def nextGpr (r : Gpr) : Gpr := r + 1

/-- All 256 bits of a predicate to one value, as a scalar instruction writes it (R126). -/
def spread (b : Bool) : Pred := if b then BitVec.allOnes 256 else 0

/-- The scalar guard: lane 0 of p[gp], inverted by gn (R108). -/
def State.guardOk (s : State) : Bool := (s.pred s.issue.gd.p).getLsbD 0 != s.issue.gd.neg
/-- The guard mask of a vector instruction (R164). -/
def State.guardMask (s : State) : Pred :=
  if s.issue.gd.neg then ~~~ (s.pred s.issue.gd.p) else s.pred s.issue.gd.p

/-- Whether `b`'s write to the register of `a` collides with it and loses (R128). -/
def ShWrite.beats (a b : ShWrite) : Bool :=
  a.clock == b.clock && a.bank == b.bank && a.vec == b.vec && a.reg == b.reg && a.slot < b.slot &&
  (!a.vec || (a.lanes &&& b.lanes) != 0)

/-- Performs one shared write; in the lanes that a lower slot also writes, the lower slot's value stands. -/
def State.performShared (s : State) (c : Nat) (w : ShWrite) (ovr : Pred) : State :=
  if w.vec then
    let m := laneMask (w.lanes &&& ~~~ ovr)
    s.setBankW c w.bank w.reg ((s.bankW c w.bank w.reg &&& ~~~ m) ||| (w.val &&& m))
  else if ovr = 0 then s.setBankC c w.bank w.reg w.word else s

/-- `SHWLOSS` counts instructions that have lost a register or a lane, and sticks (R128, R138). -/
def State.countLost (s : State) (c n : Nat) : State :=
  s.onCore c fun k => { k with shwloss := min (k.shwloss + n) 0xFFFFFFFF }
/-- Commits every shared write of a core whose clock has come, and counts the instructions that lose: those of one slot that
commit on one clock are one. -/
def State.commitShared (s : State) (c : Nat) : State :=
  let due := (s.core c).shared.filter fun w => w.clock ≤ s.cycle
  if due.isEmpty then s
  else
    let s := s.onCore c fun k => { k with shared := k.shared.filter fun w => s.cycle < w.clock }
    let lost (w : ShWrite) : Pred := (due.filter fun x => x.beats w).foldl (fun m x => m ||| (if x.vec then x.lanes else 1)) 0
    let losers := (due.filter fun w => lost w != 0).foldl (fun acc w => setIns acc w.slot) []
    (due.foldl (fun s w => s.performShared c w (lost w)) s).countLost c losers.length

end Sys2Proof.Machine
end

