-- ==== Sys2Proof/Machine/Ops.lean ====
section
/-!
DEFINITION. The named operations that the meanings share: advancing, parking and resuming a slot, raising a trap,
translating and checking an access (R50), sending packets and vault requests, appending to the store log (R54–R57) and
filling the inbox (R253–R255).
-/
namespace Sys2Proof.Machine

/-! The status register and the rotation. -/

def Run.code : Run → Nat
  | .running => 0 | .parked => 1 | .paused => 2 | .trapped => 3
  | .swapped => 4 | .halted => 5 | .contained => 6 | .empty => 7
def Run.ofCode : Nat → Run
  | 0 => .running | 1 => .parked | 2 => .paused | 3 => .trapped | 4 => .swapped | 5 => .halted | 6 => .contained
  | _ => .empty
def Why.code : Why → Nat
  | .none => 0 | .word => 1 | .inbox => 2 | .sync => 3 | .barrier => 4 | .line => 5 | .walk => 6
  | .logFull => 7 | .remote => 8 | .acquire => 9
def Why.ofCode : Nat → Why
  | 1 => .word | 2 => .inbox | 3 => .sync | 4 => .barrier | 5 => .line | 6 => .walk | 7 => .logFull | 8 => .remote
  | 9 => .acquire | _ => .none
/-- The reasons that wait on another party (R37). -/
def Why.party : Why → Bool
  | .word => true | .inbox => true | .sync => true | .barrier => true
  | .none => false | .line => false | .walk => false | .logFull => false | .remote => false | .acquire => false

/-- `STATUS` of slot `n` (R137). -/
def Slot.status (t : Slot) (n : Nat) : Nat :=
  t.why.code * 4096 + t.run.code * 256 + (if t.step && n != 15 then 64 else 0) + t.prio * 16 +
  (if t.trail then 4 else 0) + (if t.lead then 2 else 0) + (if n = 15 then 1 else 0)

/-- The 64-bit value of a handled cause code's name in the table of R361. -/
abbrev causeIllOp : Nat := 0x01
abbrev causeIllPrefix : Nat := 0x02
abbrev causeIllField : Nat := 0x03
abbrev causeBadTret : Nat := 0x04
abbrev causePriv : Nat := 0x05
abbrev causeBounds : Nat := 0x10
abbrev causeRights : Nat := 0x11
abbrev causeCapTag : Nat := 0x12
abbrev causeAlign : Nat := 0x13
abbrev causePage : Nat := 0x14
abbrev causeSideFull : Nat := 0x15
abbrev causeWorld : Nat := 0x16
abbrev causeVaultRepair : Nat := 0x30
abbrev causeVaultEvent : Nat := 0x31
abbrev causeLaneRepair : Nat := 0x32
abbrev causePoison : Nat := 0x33
abbrev causePairMismatch : Nat := 0x40
abbrev causeLateFrame : Nat := 0x41
abbrev causeFrameOrder : Nat := 0x42
abbrev causeStreamState : Nat := 0x43
abbrev causeDeadlock : Nat := 0x50
abbrev causeUrgLimit : Nat := 0x51
abbrev causeEnergy : Nat := 0x52
abbrev causeStep : Nat := 0x53
abbrev causeBreak : Nat := 0x54
abbrev causeTrap : Nat := 0x55
abbrev causeLinkLost : Nat := 0x60
abbrev causeNotResident : Nat := 0x61

/-- An event to be performed before anything else of this clock. -/
def State.now (s : State) (e : Instr) (args : List Nat) : State := { s with agenda := ⟨e, args⟩ :: s.agenda }

/-- The other copy of a pair (R42). -/
def pairMate (t : Slot) (n : Nat) : Option Nat :=
  if t.lead then some (n + 8) else if t.trail then some (n - 8) else none
/-- The slot under which a strand is filed: a pair's is its leading slot (R362). -/
def strandSlot (t : Slot) (n : Nat) : Nat := if t.trail then n - 8 else n
/-- The slot whose state a slot shows: both copies of a pair leave the rotation with either (R42). -/
def State.standsFor (s : State) (c n : Nat) : Nat :=
  let t := s.slot c n
  if t.run == .running then (pairMate t n).getD n else n
def State.runAt (s : State) (c n : Nat) : Run := (s.slot c (s.standsFor c n)).run
def State.whyAt (s : State) (c n : Nat) : Why := (s.slot c (s.standsFor c n)).why
/-- `STATUS` of a slot as it shows it (R137). -/
def State.statusAt (s : State) (c n : Nat) : Nat := { s.slot c n with run := s.runAt c n, why := s.whyAt c n }.status n

/-- Pending traps stand in the order of their clocks and, within one clock, of their slots (R362). -/
def insTrap (x : Nat × Nat) : List (Nat × Nat) → List (Nat × Nat)
  | [] => [x]
  | y :: r => if x.1 < y.1 ∨ (x.1 = y.1 ∧ x.2 < y.2) then x :: y :: r else y :: insTrap x r

/-- Stops a slot for a trap: nothing of the strand changes afterwards (R362). -/
def Slot.stopFor (t : Slot) (r : Raise) : Slot :=
  { t with run := .trapped, why := .none, back := .running, raised := some r, wait := none, walked := []
           hold := none, idle := 0, outs := [], lvq := [], kept := none, joined := none, doing := none, before := none
           redo := false }

/-- Frees the scoreboard entries of a holder (R284); slots that wait to issue again look again. -/
def State.freeHolder (s : State) (c h : Nat) : State :=
  s.onCore c fun k => { k with board := k.board.filter fun e => e.holder != h }

/-- Urgent work has issued its first instruction and has not ended or passed its limit: every other slot is stopped (R32,
R39, R40). -/
def Core.urged (k : Core) : Bool := k.trap.urging && !k.trap.limited && k.trap.urgStart.isSome
/-- A slot whose reason is satisfied returns to the rotation, or waits paused while urgent work runs (R32). -/
def State.rejoin (s : State) (c n : Nat) : State :=
  let urging := (s.core c).urged && n != 15
  s.onSlot c n fun t =>
    { t with run := if urging then .paused else .running, back := .running, why := .none, wait := none, before := none
             since := s.cycle, redo := t.wait.any fun w => w.fin == .again }

/-- Instructions that draw random numbers: those that round in mode `rsr` (R90). -/
def drawsSeed : Instr → Bool
  | .vfadd _ r _ _ _ => r == .rsr
  | .vfsub _ r _ _ _ => r == .rsr
  | .vfmul _ r _ _ _ => r == .rsr
  | .vfma _ r _ _ _ => r == .rsr
  | .vfms _ r _ _ _ => r == .rsr
  | .vfnma _ r _ _ _ => r == .rsr
  | .vfdiv _ r _ _ _ => r == .rsr
  | .vfsqrt _ r _ _ => r == .rsr
  | .vcvt _ r _ _ _ => r == .rsr
  | .vfredadd _ r _ _ => r == .rsr
  | _ => false
/-- The trailing copy of a pair has not completed all that its leading copy has (R42). -/
def State.pairBehind (s : State) (c n : Nat) : Bool :=
  let t := s.slot c n
  let m := s.slot c (n + 8)
  t.lead && m.joined.isNone && (m.done < t.done || !t.outs.isEmpty)
/-- An attempt of the issuing slot that does not count as an issue and is not charged: the instruction issues again later
(R38, R354, R357). -/
def State.notIssued (s : State) : State :=
  if s.is = 15 then s
  else
    let back (e : Lease) : Lease := if e.launch = s.me.launch then { e with balance := e.balance + 16, spent := e.spent - 16 } else e
    let was (k : Core) (i : Nat) : SMap Nat := SMap.set k.evc i (SMap.get s.issue.evc i 0)
    s.onCore s.ic fun k => { k with evc := SMap.set (was k 13) 15 (SMap.get s.issue.evc 15 0), leases := k.leases.map back }
/-- A matrix operation that a trailing copy will not issue leaves its place. -/
def State.dropAwaited (s : State) (c n : Nat) : State :=
  let gone := (s.core c).matQ.filter fun o => o.slot == n && o.awaited
  let s := gone.foldl (fun s o => s.freeHolder c o.num) s
  s.onCore c fun k => { k with matQ := k.matQ.filter fun o => !(o.slot == n && o.awaited) }

/-- Raises a trap in a slot (R361, R362, R364). In slot 15 it is nested, or contains the core at nesting level 2. Traps act
on a pair as one strand, so a leading copy that is ahead issues the instruction again until its trailing copy has come to it
(R42, assumption 58). The status it keeps is the one the strand shows (R137, R365). -/
def State.raiseAt (s : State) (c n cause addr value resume : Nat) (noResume : Bool) : State :=
  let t := s.slot c n
  let h := strandSlot t n
  if s.pairBehind c n && cause != causePairMismatch then (s.rejoin c n).onSlot c n fun t => { t with doing := none }
  else
  let s := match t.hold with
    | some h => s.freeHolder c h
    | none => s
  let r : Raise := ⟨cause, addr, value, resume, noResume, s.cycle, s.statusAt c h⟩
  if n = 15 then
    if (s.core c).trap.level ≥ 2 then s.now .containment [c]
    else (s.setSlot c 15 (t.stopFor r)).now .trapDelivery [c]
  else
    let s := s.setSlot c n (t.stopFor r)
    let s := match pairMate t n with
      | some m => (s.onSlot c m fun x => x.stopFor r).dropAwaited c (h + 8)
      | none => s
    s.onTrap c fun k => { k with pend := insTrap (s.cycle, h) k.pend }

/-- A precise trap of the instruction that issues (R361). -/
def State.trap (s : State) (cause addr value : Nat) : State :=
  (if s.pairBehind s.ic s.is then s.notIssued else s).raiseAt s.ic s.is cause addr value s.issue.start false

/-- An encoding-trap value: the base word and its position (R117). -/
def State.baseValue (s : State) : Nat := s.issue.word.toNat + s.issue.pos * 65536
def State.trapField (s : State) : State := s.trap causeIllField s.issue.start s.baseValue
def State.trapPriv (s : State) : State := s.trap causePriv s.issue.start s.baseValue

/-! Pairs (R42). -/

/-- A private register as a load-value entry names it: its kind, its code and its value. -/
def State.fieldVal (s : State) (c n : Nat) (k : FieldKind) (code : Nat) : List (Nat × Nat × Nat) :=
  match k with
  | .gpr => if code < 32 then [(0, code, (s.gprAt c n (BitVec.ofNat 6 code)).toNat)] else []
  | .evenGpr => if code < 32 then [(0, code, (s.gprAt c n (BitVec.ofNat 6 code)).toNat)] else []
  | .vec => if code < 32 then [(1, code, (s.vecAt c n (BitVec.ofNat 6 code)).toNat)] else []
  | .pred => [(2, code, (s.predAt c n (BitVec.ofNat 3 code)).toNat)]
  | .cap _ =>
    let k := s.capAt c n (BitVec.ofNat 4 code)
    [(3, code, 2 * k.bits.toNat + if k.tag then 1 else 0)]
  | .unused => []
  | .ob => []
  | .acc => []
  | .sel _ => []
  | .imm => []
  | .member => []
def State.putFieldVal (s : State) (c n : Nat) (x : Nat × Nat × Nat) : State :=
  match x.1 with
  | 0 => s.putGprAt c n (BitVec.ofNat 6 x.2.1) (BitVec.ofNat 64 x.2.2) s.cycle
  | 1 => s.onSlot c n fun t => { t with v := SMap.set t.v x.2.1 (BitVec.ofNat 8192 x.2.2) }
  | 2 => s.putPredAt c n (BitVec.ofNat 3 x.2.1) (BitVec.ofNat 256 x.2.2)
  | _ => s.putCapAt c n (BitVec.ofNat 4 x.2.1) ⟨BitVec.ofNat 128 (x.2.2 / 2), x.2.2 % 2 == 1⟩
/-- Whether the d field of an instruction is a source, as in the stores. -/
def readsDest (i : Instr) : Bool :=
  match i with
  | .st _ _ _ _ => true | .sti _ _ _ _ => true | .vst _ _ _ _ => true | .capst _ _ _ => true
  | .stp _ _ _ => true | .setf _ _ _ => true | .feq _ _ _ => true | .swarm _ _ _ _ => true | .swadd _ _ _ _ => true
  | .mirfl _ _ _ => true | .rcallWr _ _ _ _ => true
  | _ => false
/-- The private registers that an instruction writes, with their values: its d field, for `RECV` also a, for `SEND` and
`SFRAME` also b. -/
def State.pairResults (s : State) (c n : Nat) (i : Instr) : List (Nat × Nat × Nat) :=
  match i.fields with
  | none => []
  | some f => match rowOf f with
    | none => []
    | some r =>
      let more : List (Nat × Nat × Nat) := match i with
        | .recv _ _ => s.fieldVal c n r.a f.a
        | .send _ _ _ _ => s.fieldVal c n r.b f.b
        | .sframe _ _ _ => s.fieldVal c n r.b f.b
        | _ => []
      (if readsDest i then [] else s.fieldVal c n r.d f.d) ++ more

/-- A completed instruction of a strand that single-steps traps (R371). -/
def State.stepped (s : State) (c n start next : Nat) : State :=
  if (s.slot c n).step && n != 15 then s.raiseAt c n causeStep start 0 next false else s
/-- The values of a load-value entry go to the registers that the trailing copy's own instruction names. -/
def PairVal.into (e : PairVal) (own : List (Nat × Nat × Nat)) : PairVal :=
  { e with regs := List.zipWith (fun o v => (o.1, o.2.1, v.2.2)) own e.regs }
/-- The trailing copy completes the instruction that it has issued with the leading copy's results, and both copies stand at
the same count of instructions again (R42). -/
def State.takeValue (s : State) (c n : Nat) (e : PairVal) (x : Chain) (done : Nat) : State :=
  let start := (s.slot c n).pc
  let next := start + 2 * x.len
  let s := (e.into (s.pairResults c n x.ins)).regs.foldl (fun s x => s.putFieldVal c n x) s
  (s.onSlot c n fun t =>
    { t with landed := e.landed, joined := none, pc := next, done, walked := [] }).stepped c n start next
/-- A leading copy has completed an instruction: its results go to the trailing copy that waits for them, or into the
load-value queue; registers that were set aside for an output come back. Of an instruction that draws, the queue takes the
generator as it found it. -/
def State.leadDone (s : State) (c n : Nat) : State :=
  let t := s.slot c n
  match t.doing with
  | none => s
  | some i =>
    let e : PairVal :=
      if drawsSeed i then ⟨[], (t.before.map (·.2.1.seed)).getD t.seed, t.landed⟩ else ⟨s.pairResults c n i, t.seed, t.landed⟩
    let own : Slot := match t.kept with
      | some r => t.withRegs r
      | none => t
    let s := s.setSlot c n { own with kept := none, doing := none }
    let m := s.slot c (n + 8)
    match m.joined with
    | some x => s.takeValue c (n + 8) e x t.done
    | none => s.onSlot c n fun t => { t with lvq := t.lvq ++ [e] }

/-- The strand completes the instruction at `start` and goes on at `next`; a single step traps, of a pair once both copies
have completed it (R157, R371). -/
def State.retireAt (s : State) (c n start next : Nat) : State :=
  let s := s.onSlot c n fun t => { t with pc := next, done := t.done + 1, walked := [], redo := false }
  if (s.slot c n).lead then s.leadDone c n else s.stepped c n start next
/-- The issuing instruction completes and control goes to `next`. -/
def State.retireTo (s : State) (next : Nat) : State := s.retireAt s.ic s.is s.issue.start next
/-- The issuing instruction completes and the program counter advances by the chain's length (R157). -/
def State.retire (s : State) : State := s.retireTo s.issue.next

/-- The frame every instruction shares: with a false guard it only advances (R108). -/
def State.guarded (s : State) (body : State) : Host.Outcome State Fault Refusal :=
  .next (if s.guardOk then body else s.retire)

/-- A turn on which the instruction is not accepted: the slot issues it again at its next turn (R37). -/
def State.bubble (s : State) : State := s.notIssued

/-- Parks the issuing slot for a reason (R37). The program counter stays at the start until the wait ends. -/
def State.park (s : State) (why : Why) (w : Wait) : State :=
  s.onSlot s.ic s.is fun t =>
    { t with run := .parked, why := why, wait := some { w with next := s.issue.next, start := s.issue.start } }

/-- The name by which a reply finds the strand it is for: its slot and the ticket of its wait. -/
def strandRef (n ticket : Nat) : Nat := n + 16 * ticket
def State.myRef (s : State) : Nat := strandRef s.is s.pktNum
/-- Parks under the ticket that `myRef` named. -/
def State.parkRef (s : State) (why : Why) (ref : Nat) (w : Wait) : State := s.park why { w with ticket := ref / 16 }

/-- The strand a reference names: in its slot, or Swapped. -/
def State.strand? (s : State) (c ref : Nat) : Option Slot :=
  let fits (t : Slot) : Bool := (t.wait.map (·.ticket)).getD 0 == ref / 16 && t.wait.isSome
  if fits (s.slot c (ref % 16)) then some (s.slot c (ref % 16))
  else ((s.core c).swapped.find? fun p => p.1 == ref % 16 && fits p.2).map (·.2)
def State.onStrand (s : State) (c ref : Nat) (f : Slot → Slot) : State :=
  let fits (t : Slot) : Bool := (t.wait.map (·.ticket)).getD 0 == ref / 16 && t.wait.isSome
  if fits (s.slot c (ref % 16)) then s.onSlot c (ref % 16) f
  else s.onCore c fun k =>
    { k with swapped := updFirst (fun p => p.1 == ref % 16 && fits p.2) (fun p => (p.1, f p.2)) k.swapped }
def State.onWait (s : State) (c ref : Nat) (f : Wait → Wait) : State :=
  s.onStrand c ref fun t => { t with wait := t.wait.map f }

/-! Packets and vault requests. -/

/-- The flits of a packet that carries `n` payload bytes: a header and the payload (R275, R295). -/
def flitsFor (n : Nat) : Nat := 1 + (n + 63) / 64

/-- Positions of other packages' cores are numbered above this package's. -/
def foreignPos (pkg core : Nat) : Nat := 864 + pkg * 1024 + core
/-- The live positions of another package of the pod in logical order (R34). -/
def podOrder (pkg : Nat) : List Nat :=
  (below 24).flatMap fun d => (below 9).flatMap fun q =>
    ((below 4).map (quadMember d q)).filter fun c => (Config.podHmap pkg d).getLsbD (posCore c)
/-- The live cores of a package: this one's, or another's of the pod. -/
def State.liveCores (s : State) (pkg : Nat) : Nat :=
  if pkg = s.pkg then s.logical.length else if Config.podOthers.contains pkg then (podOrder pkg).length else 0
/-- The position of a core named by package and logical number, if it is a live core of the pod. -/
def State.namedPos (s : State) (pkg core : Nat) : Option Nat :=
  if pkg = s.pkg then s.posOf core else if core < s.liveCores pkg then some (foreignPos pkg core) else none
/-- Every live core of the other packages of the pod. -/
def State.podCores (s : State) : List Nat :=
  (Config.podOthers.filter fun p => p != s.pkg).flatMap fun p => (below (s.liveCores p)).map (foreignPos p)

/-- The directions at a router: 0 east, 1 west, 2 south, 3 north, 4 from its core into it, 5 to its core, 6 out by its fabric
port; a link is position × 7 + direction, and a track is link × 24 + lane. -/
def trackId (pos dir lane : Nat) : Nat := (pos * 7 + dir) * 24 + lane
def trackPos (t : Nat) : Nat := t / 168
def trackDir (t : Nat) : Nat := t / 24 % 7
/-- The tracks of a link: a fabric port has two lanes each way (R23, R24). -/
def lanesOf (dir : Nat) : Nat := if dir = 6 then 2 else 24
/-- The global column and row of a position: six dies of six columns, four dies of six rows (R11, R14). -/
def globalX (c : Nat) : Nat := posDie c % 6 * 6 + posX c
def globalY (c : Nat) : Nat := posDie c / 6 * 6 + posY c
def posAt (x y : Nat) : Nat := 36 * (y / 6 * 6 + x / 6) + (y % 6 * 6 + x % 6)
/-- The position one hop on. -/
def hopTo (c dir : Nat) : Nat :=
  let x := globalX c
  let y := globalY c
  match dir with
  | 0 => posAt (x + 1) y
  | 1 => posAt (x - 1) y
  | 2 => posAt x (y + 1)
  | 3 => posAt x (y - 1)
  | _ => c
/-- The router at which fabric port `i` of a die is attached: a corner one (assumption 64). -/
def portPos (d i : Nat) : Nat := posAt (d % 6 * 6 + 5 * (i % 2)) (d / 6 * 6 + 5 * (i / 2))
/-- The package of a position in another package. -/
def pkgOf (c : Nat) : Nat := (c - 864) / 1024
/-- The position at which a packet's way over the mesh ends: its destination's, or that of the fabric port by which it leaves
its die, destination package mod 4 (R299). -/
def exitAt (src dst : Nat) : Nat := if dst < 864 then dst else portPos (posDie src) (pkgOf dst % 4)
/-- The position at which a packet of another package begins its way: the port of its destination's die that has the number
of its source package mod 4, which the spec leaves open (assumption 64). -/
def entryAt (src dst : Nat) : Nat := portPos (posDie dst) (pkgOf src % 4)
/-- The physical core number of an endpoint, in this package or another. -/
def physCore (c : Nat) : Nat := posCore (if c < 864 then c else ((podOrder (pkgOf c))[(c - 864) % 1024]?).getD 0)
/-- The die of an endpoint in its package. -/
def physDie (c : Nat) : Nat := posDie (if c < 864 then c else ((podOrder (pkgOf c))[(c - 864) % 1024]?).getD 0)
/-- The direction of the next hop: between dies along columns first, then rows; within a die along x, then y (R299).
`other` takes the other coordinate order round dead links (R302). -/
def hopDir (at_ dst : Nat) (other : Bool) : Option Nat :=
  let x := globalX at_
  let y := globalY at_
  let x' := globalX dst
  let y' := globalY dst
  let horizontal := if x < x' then some 0 else if x' < x then some 1 else none
  let vertical := if y < y' then some 2 else if y' < y then some 3 else none
  let sameCol := x / 6 = x' / 6
  let sameRow := y / 6 = y' / 6
  if other then vertical.orElse fun _ => horizontal
  else if ¬ sameCol then horizontal
  else if ¬ sameRow then vertical
  else horizontal.orElse fun _ => vertical
/-- The direction in which a packet goes on from a position: along its route, then to the core or out by the port. -/
def nextDir (at_ src dst : Nat) (other : Bool) : Option Nat :=
  if at_ = exitAt src dst then some (if dst < 864 then 5 else 6) else hopDir at_ (exitAt src dst) other
/-- A link that no longer carries anything (R302). -/
def State.linkDead (s : State) (at_ dir : Nat) : Bool := s.deadLinks.contains (at_ * 7 + dir)
/-- The lane of a packet: fixed by its endpoints, the next live one upward if that one is dead (R299). -/
def State.laneFor (s : State) (at_ dir src dst : Nat) : Nat :=
  let n := lanesOf dir
  let first := (physCore src + 5 * physCore dst) % 24 % n
  let order := (below n).map fun i => (first + i) % n
  (order.find? fun l => !(s.track (trackId at_ dir l)).dead).getD first
/-- The track of a packet's link at a position. -/
def State.trackFor (s : State) (at_ dir src dst : Nat) : Nat := trackId at_ dir (s.laneFor at_ dir src dst)
/-- The first track of a packet: from its core into the router, or, of one that has come from another package, on from its
port. -/
def State.firstTrack (s : State) (src dst : Nat) : Nat :=
  if src < 864 then s.trackFor src 4 src dst
  else s.trackFor (entryAt src dst) ((nextDir (entryAt src dst) src dst false).getD 5) src dst

/-- The event that a packet brings about at its destination (R425), if it is one. -/
def Body.due : Body → Option Instr
  | .req _ => none
  | .lineReply _ _ _ _ => some .homeReadReply
  | .reply _ _ _ _ _ => some .remoteReply
  | .performed _ _ _ _ => some .postedPerformed
  | .retry _ => some .homeWaitRetry
  | .logAck _ _ _ _ => some .logAck
  | .acqQuery _ _ _ _ => some .acqQuery
  | .acqAnswer _ _ _ _ _ => some .acqWriterDone
  | .logQuery _ _ _ _ => some .logqQuery
  | .mail _ => some .messageArrival
  | .wake _ => some .wakeArrival
  | .outcome _ _ _ => some .nakArrival
  | .urg _ _ _ _ _ => some .urgRequestArrival
  | .submit _ _ _ _ _ _ => some .submissionArrival
  | .launchPkt _ _ => some .launchPacketArrival
  | .dieReport _ _ _ _ => some .dieReport
  | .done _ _ _ _ _ => some .messageArrival
  | .barrier _ _ _ _ _ _ => some .barrierArrival
  | .leaseAsk _ _ => some .energyLeaseRequest
  | .lease _ _ _ => some .energyLeaseGrant
  | .segment _ _ _ place _ _ _ _ => if place = 5 then some .segmentApply else none
  | .segAck _ _ _ _ _ => some .endToEndAck
  | .descriptor _ => some .collDescriptorArrival
  | .fetch _ => none
  | .fetched _ _ _ _ => some .remoteReply
  | .collDone _ _ _ _ => some .endToEndAck
  | .partGone _ => some .collDescriptorArrival
  | .shootdown _ _ _ => some .shootdown
  | .shootAck _ _ => some .tableWriteSettled
  | .marker _ _ => none
  | .drained _ => none
  | .page _ _ _ _ _ _ => none
  | .frame _ => none
  | .frameReply _ _ => some .remoteReply
  | .streamOp _ _ => none
  | .streamEvent _ _ _ _ _ => some .truncationEvent
  | .nak _ => some .urgentNakResend
  | .endAck _ => some .endToEndAck

/-- The bodies that queue at the destination's vault agent (R271, R291); what goes to a host link (place 5) does not. -/
def Body.forAgent : Body → Bool
  | .req _ => true
  | .segment _ _ _ place _ _ _ _ => place != 5
  | .fetch f => f.place != 5
  | .marker _ _ => true
  | .drained _ => true
  | .page _ _ _ _ _ _ => true
  | _ => false

/-- The flits of each class that a track's receiver holds (R271, R298). -/
def linkCredit : Nat → Nat
  | 0 => 144
  | 1 => 10
  | _ => 4
/-- The position where a host link ends (R24). -/
def linkPos (k : Nat) : Nat := if k = 0 then 0 else 36 * 23

/-- A receiver returns credits for flits of a class (R298). -/
def State.giveCredit (s : State) (via : Option Nat) (cls n : Nat) : State :=
  match via with
  | none => s
  | some u => s.onTrack u fun k => { k with credit := SMap.set k.credit cls (SMap.get k.credit cls 0 - n) }
/-- Packets that wait for the agent move into its queue while it has room, and the credits of their last flits return
(R271). -/
def State.agentAdmit (s : State) (c : Nat) : Nat → State
  | 0 => s
  | n + 1 => match (s.core c).agentWait with
    | [] => s
    | x :: r =>
      if (s.core c).agentQ.length < 64 then
        ((s.onCore c fun k => { k with agentQ := k.agentQ ++ [x.1], agentWait := r }).giveCredit x.2.1 x.2.2 1).agentAdmit c n
      else s
/-- A packet for the agent joins its queue of 64, or waits before it. -/
def State.toAgent (s : State) (p : Packet) (via : Option Nat) : State :=
  (s.onCore p.dst fun k => { k with agentWait := k.agentWait ++ [(p.id, via, p.cls)] }).agentAdmit p.dst
    ((s.core p.dst).agentWait.length + 1)

/-- A whole packet has reached its destination by a track, if it came by one: it joins the agent's queue or the stream table's,
or its event is due on the next clock (R425). -/
def State.deliverVia (s : State) (p : Packet) (via : Option Nat) : State :=
  if p.body.forAgent then s.toAgent p via
  else
  let s := s.giveCredit via p.cls 1
  match p.body with
  | .streamOp d r => s.onDie d fun x => { x with streamQ := x.streamQ ++ [r] }
  | .frame f => s.onDie (p.dst / 36) fun x =>
    { x with streamQ := x.streamQ ++ [⟨.frame p.id, f.core, f.slot, f.handle, f.sec⟩] }
  | .fetch _ => s.after 1 .hostFlushRead [p.id, 1]
  | b => match b.due with
    | some e => s.after 1 e [p.id]
    | none => s
def State.deliver (s : State) (p : Packet) : State := s.deliverVia p none

/-- The numbers under which walkers read table lines, and the launch sequencer counts (R315, R266). -/
abbrev walkCmd : Nat := 2 ^ 41
abbrev countCmd : Nat := 2 ^ 42
/-- The endpoint that reads: a walker's core, the launch sequencer or a copy engine (R295). -/
def Fetch.reader (f : Fetch) : Nat := if countCmd ≤ f.num then 6 else if walkCmd ≤ f.num then 0 else 2
/-- The endpoint of a packet's body at its source and at its destination (R295): 0 core, 1 vault agent, 2 copy engine, 3
collective engine, 4 inbox, 5 stream table, 6 launch sequencer, 7 management. -/
def Body.ends : Body → Nat × Nat
  | .req r => match r.op with
    | .entry _ => (1, 1)
    | .entryPut _ _ _ _ => (1, 1)
    | _ => (0, 1)
  | .lineReply _ _ _ _ => (1, 0)
  | .reply _ _ _ _ _ => (1, 0)
  | .performed _ _ _ _ => (1, 0)
  | .retry _ => (1, 0)
  | .logAck _ _ _ _ => (1, 1)
  | .acqQuery _ _ _ _ => (0, 1)
  | .acqAnswer _ _ _ _ _ => (1, 0)
  | .logQuery _ _ _ _ => (0, 1)
  | .mail _ => (0, 4)
  | .wake _ => (0, 0)
  | .outcome _ _ _ => (4, 0)
  | .urg _ _ _ _ _ => (0, 0)
  | .submit _ _ _ _ _ _ => (0, 6)
  | .launchPkt _ _ => (6, 6)
  | .dieReport _ _ _ _ => (6, 6)
  | .done _ _ _ _ _ => (6, 4)
  | .barrier _ _ _ _ _ _ => (0, 0)
  | .leaseAsk _ _ => (0, 6)
  | .lease _ _ _ => (6, 0)
  | .segment _ _ _ place _ _ _ _ => (2, if place = 5 then 7 else 1)
  | .segAck _ _ _ _ _ => (1, 2)
  | .descriptor _ => (0, 3)
  | .fetch f => (f.reader, if f.place = 5 then 7 else 1)
  | .fetched f _ _ _ => (1, f.reader)
  | .collDone _ _ _ _ => (3, 4)
  | .partGone _ => (7, 3)
  | .shootdown _ _ _ => (1, 7)
  | .shootAck _ _ => (7, 1)
  | .marker _ e => (e, 1)
  | .drained _ => (1, 1)
  | .page _ _ _ _ _ _ => (1, 1)
  | .frame _ => (0, 5)
  | .frameReply _ _ => (5, 0)
  | .streamOp _ _ => (0, 5)
  | .streamEvent _ _ _ _ _ => (5, 4)
  | .nak _ => (0, 0)
  | .endAck _ => (0, 0)
/-- The kind of a packet (R295): 0 write, 1 RPC, 2 message, 3 frame, 4 NAK, 5 engine, 6 reply, 7 log shipment, 8
acknowledgement. Which kind some control and management packets take is this model's choice (assumption 64). -/
def Body.kind : Body → Nat
  | .req r => match r.op with
    | .entry _ => 7
    | .entryPut _ _ _ _ => 0
    | _ => 1
  | .lineReply _ _ _ _ => 6
  | .reply _ _ _ _ _ => 6
  | .performed _ _ _ _ => 8
  | .retry _ => 4
  | .logAck _ _ _ again => if again then 4 else 8
  | .acqQuery _ _ _ _ => 1
  | .acqAnswer _ _ _ _ _ => 6
  | .logQuery _ _ _ _ => 1
  | .mail _ => 2
  | .wake _ => 2
  | .outcome _ code _ => if code = 0 then 8 else 4
  | .urg _ _ _ _ _ => 1
  | .submit _ _ _ _ _ _ => 1
  | .launchPkt _ _ => 5
  | .dieReport _ _ _ _ => 5
  | .done _ _ _ _ _ => 2
  | .barrier _ _ _ _ _ _ => 5
  | .leaseAsk _ _ => 1
  | .lease _ _ _ => 6
  | .segment _ _ _ _ _ _ _ _ => 0
  | .segAck _ _ _ _ _ => 8
  | .descriptor _ => 5
  | .fetch _ => 5
  | .fetched _ _ _ _ => 6
  | .collDone _ _ _ _ => 8
  | .partGone _ => 5
  | .shootdown _ _ _ => 5
  | .shootAck _ _ => 8
  | .marker _ _ => 5
  | .drained _ => 5
  | .page _ _ _ _ _ _ => 0
  | .frame _ => 3
  | .frameReply _ code => if code = 0 then 8 else 4
  | .streamOp _ _ => 1
  | .streamEvent _ _ _ _ _ => 2
  | .nak _ => 4
  | .endAck _ => 8
/-- The endpoints of a packet: what the old home of a migrating page forwards comes from its vault agent (R317). -/
def Packet.ends (p : Packet) : Nat × Nat := if p.sep = 1 then (1, p.body.ends.2) else p.body.ends
/-- The object and the offset in it that a packet targets, where its kind has them (R295). -/
def Packet.target (p : Packet) : Nat × Nat :=
  match p.body with
  | .req r => (r.obj, r.off)
  | .lineReply r _ _ _ => (r.obj, r.off)
  | .retry r => (r.obj, r.off)
  | .fetch f => (f.obj, (f.ps.head?.map (·.off)).getD 0)
  | .segment _ _ _ _ _ _ obj _ => (obj, p.toff)
  | _ => (0, 0)
/-- Bytes 0–39 of a packet's header flit (R295). -/
def State.header (s : State) (p : Packet) : Nat :=
  let place (c end_ : Nat) : Nat := physDie c + physCore c * 2 ^ 5 + end_ * 2 ^ 11
  let pkg (c : Nat) : Nat := if c < 864 then s.pkg else pkgOf c
  let first := p.cls + (if p.cut then 4 else 0) + p.body.kind * 2 ^ 3 + (p.flits - 1) % 256 * 2 ^ 8 + p.seq % 65536 * 2 ^ 16 +
    place p.src p.ends.1 * 2 ^ 32 + place p.dst p.ends.2 * 2 ^ 47
  let sync : Nat := match p.sync with
    | some x => 2 ^ 63 + x % 2 ^ 40
    | none => 0
  let mask := p.targets.foldl (fun m x => m + 2 ^ posCore x.1) 0
  first + mask % 2 ^ 36 * 2 ^ 64 + (pkg p.src % 64 + pkg p.dst % 64 * 2 ^ 6) * 2 ^ 128 +
    (p.target.2 % 2 ^ 40 + p.target.1 % 2 ^ 24 * 2 ^ 40) * 2 ^ 192 + sync * 2 ^ 256

/-- Packets of one class between the same endpoints arrive in the order in which they were sent (R299). -/
def Packet.sameWay (p q : Packet) : Bool :=
  p.src == q.src && p.dst == q.dst && p.cls == q.cls && p.ends == q.ends
/-- A packet of the same way is on its way back to its source in a NAK (R301). -/
def State.nakPending (s : State) (p : Packet) : Bool :=
  s.packets.any fun x => match x.2.body with
    | .nak id => s.packets.any fun y => y.1 == id && y.2.sameWay p
    | _ => false
/-- Puts a packet on the first track of its route; one whose way waits for a NAK goes out after the packet in it (R301). -/
def State.inject (s : State) (p : Packet) : State :=
  if s.nakPending p then s
  else s.onTrack (s.firstTrack p.src p.dst) fun k => { k with queue := k.queue ++ [⟨p.id, p.flits, 0, p.cls, p.flits, none, false⟩] }

/-- Gives a packet its number and its end-to-end sequence number, and puts it on its way. -/
def State.sendPkt (s : State) (p : Packet) : State :=
  let key := (p.src * 16 + p.ends.1) * 2 ^ 24 + p.dst * 16 + p.ends.2
  let seq := SMap.get s.endSeq key 0
  let p := { p with id := s.pktNum, seq }
  let s := { s with pktNum := s.pktNum + 1, endSeq := SMap.set s.endSeq key ((seq + 1) % 65536) }
  { s with packets := SMap.set s.packets p.id p }.inject p
/-- Sends a packet (R295, R296) to another position, over the tracks of this package and, to another package, out by a fabric
port. -/
def State.send (s : State) (src dst cls flits : Nat) (launch : Option Nat) (body : Body) : State :=
  s.sendPkt { id := 0, src := src, dst := dst, cls := cls, flits := flits, body := body, launch := launch }
/-- What a position of this package learns without a packet's journey: the loss of what it waits for. -/
def State.tell (s : State) (c : Nat) (body : Body) : State :=
  let p : Packet := { id := s.pktNum, src := c, dst := c, cls := 2, flits := 1, body }
  if c < 864 then { s with pktNum := s.pktNum + 1, packets := SMap.set s.packets p.id p }.deliver p else s

/-- The classes of R296. -/
abbrev bulk : Nat := 0
abbrev urgentClass : Nat := 1
abbrev control : Nat := 2

/-- The packet an event names, taken out of the state. -/
def State.packet? (s : State) (id : Nat) : Option Packet := (s.packets.find? fun p => p.1 == id).map (·.2)
def State.dropPacket (s : State) (id : Nat) : State := { s with packets := SMap.del s.packets id }

/-- A request of `beats` beats that reaches the vault controller in two clocks (R208, R233). -/
def State.vreq (s : State) (c addr beats : Nat) (cont : VCont) (launch : Option Nat) : State :=
  let r : VReq := { id := s.pktNum, addr, beats, cont, launch }
  ({ s with pktNum := s.pktNum + 1 }.onVault c fun v => { v with reqs := v.reqs ++ [r] }).after 2
    .vaultRequestArrival [c, r.id]

/-! The object table and translation. -/

/-- Where byte `x` of the object table lies: interleaved over every live core at 4 KiB (R304). -/
def State.tableLoc (s : State) (x : Nat) : Nat :=
  let l := max 1 s.logical.length
  let home := (s.logical[x / 4096 % l]?).getD 0
  vaultLoc home (0x6B600000 + x / 4096 / l * 4096 + x % 4096)
def State.tableHome (s : State) (x : Nat) : Nat := (s.logical[x / 4096 % (max 1 s.logical.length)]?).getD 0
/-- The `n`-byte number at a table offset, which a 4 KiB granule holds whole. -/
def State.tableWord (s : State) (x n : Nat) : Nat := s.readMem (s.tableLoc x) n

/-- An interleaved or single home names live cores (R307). -/
def State.homeOk (s : State) (pkg core cnt : Nat) : Bool :=
  core + cnt < s.liveCores pkg

/-- The bytes that an object takes at the home which holds most of it (R308). -/
def ObjEnt.atHome (e : ObjEnt) : Nat :=
  if e.hmode = 0 then e.len
  else
    let g := 2 ^ e.glog
    let last := (e.len + g - 1) / g - 1
    let row := last / (e.hcnt + 1)
    if e.len = 0 then 0 else if last % (e.hcnt + 1) = 0 then row * g + (e.len - last * g) else (row + 1) * g
/-- The well-formedness of an entry (R307). No capability reaches the mirror region or the log reservation (R187), so the
extents of `kv` objects lie in the object area as well, and those of `context` objects there or in the core area. -/
def State.entryOk (s : State) (e : ObjEnt) (w0 w1 w2 : Nat) : Bool :=
  let clean := w0 / 65536 == 0 && w1 / 2 ^ 40 == 0 && w2 / 2 ^ 35 == 0
  let homes := s.homeOk e.hpkg e.hcore e.hcnt
  let extent := decide (e.loc + e.atHome ≤ 0x6BC00000)
  let inCore := decide (0x7FC00000 ≤ e.loc) && decide (e.loc + e.len ≤ 2 ^ 31)
  let granule := decide (6 ≤ e.glog) && decide (e.glog ≤ 21)
  let flat := !e.paged && (e.hmode == 0 || (e.hmode == 1 && granule))
  let row := match e.kind with
    | 1 | 3 | 6 => (flat && extent && e.swz == 0) ||
        (e.paged && e.hmode == 0 && e.hcore == 0 && e.hcnt == 0 && e.glog == 0 && e.swz == 0 &&
         e.loc % 8 == 0 && 0x40000000 ≤ e.loc && e.loc < 2 ^ 32)
    | 4 => !e.paged && e.hmode == 1 && granule && extent && e.swz == 0
    | 5 => !e.paged && e.hmode == 0 && (extent || inCore) && e.swz == 0
    | 2 => !e.paged && e.hmode == 0 && e.loc % 16384 == 0 && e.len ≤ 1572864
    | 7 => !e.paged && e.hmode == 2 && e.swz == 0
    | _ => false
  clean && homes && row

/-- The entry of an object as a walk reads it (R306). -/
def State.objEntry (s : State) (obj : Nat) : ObjEnt :=
  let w0 := s.tableWord (obj * 64) 8
  let w1 := s.tableWord (obj * 64 + 8) 8
  let w2 := s.tableWord (obj * 64 + 16) 8
  let w3 := s.tableWord (obj * 64 + 24) 8
  let e : ObjEnt :=
    { swz := bitsOf w0 13 3, paged := bitOf w0 12, sec := bitOf w0 11, kind := bitsOf w0 8 3, gen := w0 % 256
      len := w1 % 2 ^ 40, hlink := bitsOf w2 34 1, hpkg := bitsOf w2 28 6, hcnt := bitsOf w2 18 10
      hcore := bitsOf w2 8 10, glog := bitsOf w2 2 6, hmode := w2 % 4, loc := w3 }
  { e with ok := s.entryOk e w0 w1 w2 }

/-- What a walk finds for a page of an object (R308, R309, R315). -/
def State.walkResult (s : State) (n obj page : Nat) : Tlb :=
  let e := s.objEntry obj
  if e.paged && e.ok then
    let line := e.loc + 8 * page
    let pe := s.tableWord line 8
    let mig := bitOf pe 1
    let sound := bitOf pe 0 && bitsOf pe 50 14 == 0 && bitsOf pe 2 6 == 0 && bitsOf pe 24 10 < 862 &&
      (!mig || e.kind == 3 || e.kind == 6)
    let home := s.namedPos (bitsOf pe 18 6) (bitsOf pe 8 10)
    ⟨n, obj, page, e, sound && home.isSome, home.getD 0, bitsOf pe 24 10 * 2 ^ 21, line / 64, s.cycle, false⟩
  else
    let home := (s.namedPos e.hpkg e.hcore).getD 0
    ⟨n, obj, page, e, true, home, e.loc + page * 2 ^ 21, obj, s.cycle, false⟩

/-- Kinds of object (R306). -/
abbrev kPrivate : Nat := 1
abbrev kScratch : Nat := 2
abbrev kShared : Nat := 3
abbrev kKv : Nat := 4
abbrev kContext : Nat := 5
abbrev kCode : Nat := 6
abbrev kHost : Nat := 7

/-- The own-scratch alias (R310). -/
abbrev aliasObj : Nat := 0xFFF
/-- The scratch object of bank frame `i` of a core (R305). -/
def State.scratchObj (s : State) (c i : Nat) : Nat := 0x1000 + 16 * s.logicalOf c + i

/-- The alias as the issuing slot's own allocation (R310): generation 0, the group's length and world. -/
def State.aliasEntry (s : State) (c n : Nat) : Option Tlb :=
  match s.group? c (s.slot c n).bank with
  | none => none
  | some g =>
    let e : ObjEnt := { swz := g.launch.swz, sec := g.launch.world, kind := kScratch, len := g.len, hpkg := s.pkg
                        hcore := s.logicalOf c, loc := g.base, ok := true }
    some ⟨n, aliasObj, 0, e, true, c, g.base, 0, 0, false⟩

/-- The translation of a page that a slot holds: what its walks brought, else its own TLB entries (R314). -/
def State.lookup (s : State) (c n obj page : Nat) : Option Tlb :=
  if obj = aliasObj then s.aliasEntry c n
  else
    let hit (t : Tlb) : Bool := t.obj == obj && t.page == page
    ((s.slot c n).walked.find? hit).orElse fun _ => (s.core c).tlb.find? fun t => t.slot == n && hit t
/-- Installs a translation; the least recently used of a full TLB leaves (R314). -/
def Core.tlbInstall (k : Core) (t : Tlb) : Core :=
  let l := k.tlb.filter fun x => !(x.slot == t.slot && x.obj == t.obj && x.page == t.page)
  let old := l.foldl (fun (m : Option Tlb) x => match m with
    | some y => if x.used < y.used then some x else m
    | none => some x) none
  { k with tlb := (if l.length < 64 then l else delFirst (fun x => some x == old) l) ++ [t] }
/-- The walks for which the issuing instruction has waited and which map an object that its checks let it reach: they are
installed, and a walk that ends in a fault installs nothing (R315, R316). -/
def State.walkedFor (s : State) (obj : Nat) : List Tlb :=
  (s.me.walked.filter fun t => t.obj == obj && t.ent.ok && t.mapped && !t.stale).map fun t =>
    { t with slot := s.is, used := s.cycle }
def State.installWalked (s : State) (c : Nat) (ts : List Tlb) : State :=
  if ts.isEmpty then s else s.onCore c fun k => ts.foldl (fun k t => k.tlbInstall t) k

end Sys2Proof.Machine

namespace Sys2Proof

/-! Capabilities (R47). -/

def Cap.limit (k : Cap) : Nat := Machine.bitsOf k.bits.toNat 80 40
def Cap.base (k : Cap) : Nat := Machine.bitsOf k.bits.toNat 40 40
def Cap.rights (k : Cap) : Nat := Machine.bitsOf k.bits.toNat 32 8
def Cap.gen (k : Cap) : Nat := Machine.bitsOf k.bits.toNat 24 8
def Cap.obj (k : Cap) : Nat := Machine.bitsOf k.bits.toNat 0 24
/-- A tagged capability from its fields. -/
def Cap.make (limit base rights gen obj : Nat) : Cap :=
  ⟨BitVec.ofNat 128 (limit % 2 ^ 40 * 2 ^ 80 + base % 2 ^ 40 * 2 ^ 40 + rights % 256 * 2 ^ 32 + gen % 256 * 2 ^ 24 +
    obj % 2 ^ 24), true⟩
/-- The rights bits of R48. -/
abbrev rR : Nat := 1
abbrev rW : Nat := 2
abbrev rX : Nat := 4
abbrev rK : Nat := 8
abbrev rS : Nat := 16
abbrev rA : Nat := 32
abbrev rN : Nat := 64
abbrev rG : Nat := 128
def Cap.holds (k : Cap) (need : Nat) : Bool := k.rights &&& need == need

end Sys2Proof

namespace Sys2Proof.Machine

/-- The home position and address of byte `x` of a checked object (R308). -/
def State.home (s : State) (t : Xl) (x : Nat) : Nat × Nat :=
  let e := t.ent
  if e.hmode = 1 ∧ e.kind ≠ kScratch then
    let gr := x / 2 ^ e.glog
    ((s.namedPos e.hpkg (e.hcore + gr % (e.hcnt + 1))).getD 0,
     e.loc + gr / (e.hcnt + 1) * 2 ^ e.glog + x % 2 ^ e.glog)
  else match t.pages.find? fun p => p.page == x / 2 ^ 21 with
    | some p => (p.pageCore, p.pageBase + x % 2 ^ 21)
    | none => (0, 0)
/-- Whether the page of byte `x` is mapped (R50 step 7). -/
def Xl.mapped (t : Xl) (x : Nat) : Bool := (t.pages.find? fun p => p.page == x / 2 ^ 21).any (·.mapped)

/-- The outcome of the checks of R50. -/
inductive Chk where
  | ok (t : Xl)
  | walk (pages : List (Nat × Nat))
  | bad (cause addr value : Nat)
deriving DecidableEq, Repr

/-- `TVALUE` of a memory fault (R207). -/
def memValue (k elem : Nat) : Nat := elem * 16 + k

/-- Pages of a byte range. -/
def pagesOf (e n : Nat) : List Nat := upFrom (e / 2 ^ 21) ((e + max n 1 - 1) / 2 ^ 21 - e / 2 ^ 21 + 1)

/-- The home of byte `x` of an object as far as one translation shows it: the granule's for an interleaved object, else
the page's (R308). -/
def State.byteHome (s : State) (t : Tlb) (x : Nat) : Nat :=
  let e := t.ent
  if e.hmode = 1 ∧ e.kind ≠ kScratch then (s.namedPos e.hpkg (e.hcore + x / 2 ^ e.glog % (e.hcnt + 1))).getD 0
  else t.pageCore

/-- The home against which step 3 of R50 tests byte `x`: an unmapped page has none, so it stands as the core's own and
step 7 decides (R308, R316). -/
def State.testHome (s : State) (c : Nat) (t : Tlb) (x : Nat) : Nat := if t.mapped then s.byteHome t x else c

/-- The homes against which step 3 of R50 tests bytes [e, hi] (R308). -/
def State.testHomes (s : State) (c : Nat) (tl : List Tlb) (t : Tlb) (e hi : Nat) : List Nat :=
  if t.ent.hmode = 1 ∧ t.ent.kind ≠ kScratch then
    let g := 2 ^ t.ent.glog
    (below (min (hi / g - e / g + 1) (t.ent.hcnt + 1))).map fun i => s.testHome c t (e + i * g)
  else tl.map fun p => s.testHome c p e

/-- R50 on `n` bytes at index `x` through a capability, for slot `sl` of core `c`, with the translations of `span`: `kind`
says whether the operation may reach the object, `side` lets an unmapped page pass, `knum` is the register number and
`elem` the element. Where the access passes the capability's limit, the page of the capability's base is translated to
learn the object's entry, which the rule leaves open (assumption 54). -/
def State.checkSpan (s : State) (c sl : Nat) (k : Cap) (knum x n need align elem : Nat) (side : Bool)
    (kind : ObjEnt → Nat → Bool) (span : List Nat) : Chk :=
  let v := memValue knum elem
  if !k.tag then .bad causeCapTag k.base v
  else
    let obj := k.obj
    let e := k.base + x
    if obj = aliasObj ∧ (s.aliasEntry c sl).isNone then .bad causeRights k.base v
    else
      let pages := if obj = aliasObj then [0] else if e + n ≤ k.limit then span else [k.base / 2 ^ 21]
      let found := pages.map fun p => (p, s.lookup c sl obj p)
      let missing := found.filter fun p => p.2.isNone
      if !missing.isEmpty then .walk (missing.map fun p => (obj, p.1))
      else
        let tl := (found.filterMap (·.2)).map fun t => if obj = aliasObj then { t with page := e / 2 ^ 21 } else t
        match tl with
        | [] => .bad causeCapTag k.base v
        | t :: _ =>
          let ent := t.ent
          if !ent.ok || ent.kind == 0 || k.gen != ent.gen then .bad causeCapTag k.base v
          else if !k.holds need ||
              (s.testHomes c tl t e (min (e + n) (max (e + 1) ent.len) - 1)).any fun h => !kind ent h then .bad causeRights k.base v
          else if k.limit < e + n || ent.len < e + n then .bad causeBounds e v
          else if e % align != 0 then .bad causeAlign e v
          else if ent.sec && !(s.slot c sl).world then .bad causeWorld k.base v
          else if !side && tl.any (fun p => !p.mapped) then .bad causePage e v
          else .ok ⟨obj, ent.gen, ent, e, tl⟩

/-- The check of an access every page of which must be mapped. -/
def State.check (s : State) (c sl : Nat) (k : Cap) (knum x n need align elem : Nat) (side : Bool)
    (kind : ObjEnt → Nat → Bool) : Chk :=
  s.checkSpan c sl k knum x n need align elem side kind (pagesOf (k.base + x) n)

/-- The issuing slot's own check. -/
def State.chk (s : State) (k : Kr) (x n need align elem : Nat) (side : Bool) (kind : ObjEnt → Nat → Bool) : Chk :=
  s.check s.ic s.is (s.cap k) k.toNat x n need align elem side kind

/-- Parks the slot for the walks an access misses; the instruction issues again when they have ended (R315). -/
def State.walkFor (s : State) (pages : List (Nat × Nat)) : State :=
  let s := s.notIssued.park .walk { fin := .again, left := pages.length }
  pages.foldl (fun s p => s.now .walkStart [s.ic, s.is, p.1, p.2]) s

/-- A failed check traps; where it failed after step 6 of R50 its walks have mapped the object (R316). -/
def State.badChk (s : State) (cause addr v : Nat) : State :=
  let ts := if cause = causeCapTag ∨ cause = causeRights ∨ cause = causeWorld then []
    else s.walkedFor (s.cap (BitVec.ofNat 4 v)).obj
  (s.trap cause addr v).installWalked s.ic ts
/-- Runs `f` on a checked access; a miss walks, a failed check traps. -/
def State.withChk (s : State) (r : Chk) (f : Xl → State) : State :=
  match r with
  | .ok t => (f t).installWalked s.ic (s.walkedFor t.obj)
  | .walk ps => s.walkFor ps
  | .bad cause addr v => s.badChk cause addr v

/-- The index of R206: a register, all 64 bits, or the immediate zero-extended. -/
def State.index (s : State) : Idx → Nat
  | .reg b => (s.gpr b).toNat
  | .imm i => i.val

/-! Context images: the registers of resident slots and groups, where supervisor loads and stores find them (R131). -/

/-- The 64-bit words of the control state of an image (R378). -/
def Slot.ctlWord (t : Slot) (n i : Nat) : Nat :=
  match i with
  | 0 => t.pc
  | 1 => n
  | 2 => t.strand
  | 3 => t.group
  | 4 => t.launch
  | 5 => if t.world then 1 else 0
  | 6 => t.status n
  | 7 => t.seed.toNat
  | 8 => t.tcause
  | 9 => t.taddr
  | 10 => t.ctxbase + 0x8400
  | 11 => t.tvalue
  | 12 => t.ctxbase
  | 13 => if t.wake then 1 else 0
  | 14 => t.code.bits.toNat % 2 ^ 64
  | 15 => t.code.bits.toNat / 2 ^ 64
  | _ => 0

/-- The slot whose image holds a vault address, with the offset in the image: its registers and control state unless the
strand is away, and the part that reads zero (R129); its frame and side log stay in memory. -/
def State.imageOf (s : State) (c a : Nat) : Option (Nat × Nat) :=
  (below 16).findSome? fun n =>
    let t := s.slot c n
    let o := a - t.ctxbase
    if t.based && !t.away && t.ctxbase ≤ a && o < 0xA000 && (0x9000 ≤ o || o < 0x8400) then some (n, o) else none
/-- The bits of a byte that hold a value in an image whose registers are in memory, of a strand that is Swapped or whose
`CTXBASE` has moved: reserved bits and bytes read zero (R129, R378). -/
def awayBits (o : Nat) : Byte :=
  if o = 0x8368 then 1 else if (0x8368 < o ∧ o < 0x8370) ∨ (0x8380 ≤ o ∧ o < 0x8400) ∨ 0x9000 ≤ o then 0 else 0xFF
def State.memoryBits (s : State) (c a : Nat) : Byte :=
  let has (t : Slot) : Bool := t.based && t.away && t.ctxbase ≤ a && a - t.ctxbase < 0xA000
  match ((below 16).map (s.slot c)).find? has with
  | some t => awayBits (a - t.ctxbase)
  | none => match ((s.core c).swapped.map (·.2)).find? fun t => t.based && t.ctxbase ≤ a && a - t.ctxbase < 0xA000 with
    | some t => awayBits (a - t.ctxbase)
    | none => 0xFF
/-- The resident group whose bank image holds a vault address (R130). -/
def State.bankOf (s : State) (c a : Nat) : Option (Nat × Nat) :=
  if 0x7FC6C000 ≤ a ∧ a < 0x7FCFC000 then
    let b := (a - 0x7FC6C000) / 0x9000
    if (s.group? c b).isSome then some (b, (a - 0x7FC6C000) % 0x9000) else none
  else none

/-- A byte of a number. -/
def byteOf (x i : Nat) : Byte := BitVec.ofNat 8 (x / 256 ^ i)
/-- A number with one byte replaced. -/
def withByte (x i : Nat) (b : Byte) : Nat := x / 256 ^ (i + 1) * 256 ^ (i + 1) + b.toNat * 256 ^ i + x % 256 ^ i

/-- A byte of a core's vault as its own slots see it: from the registers where they are resident (R131). -/
def State.vaultByte (s : State) (c a : Nat) : Byte :=
  match s.imageOf c a with
  | some (n, o) =>
    let t := (s.slot c n).shown s.cycle
    if o < 0x8000 then byteOf (SMap.get t.v (o / 1024) 0).toNat (o % 1024)
    else if o < 0x8100 then (if o < 0x8008 then 0 else byteOf (SMap.get t.g ((o - 0x8000) / 8) 0).toNat (o % 8))
    else if o < 0x8200 then byteOf (SMap.get t.k ((o - 0x8100) / 16) ⟨0, false⟩).bits.toNat (o % 16)
    else if o < 0x8300 then (if o < 0x8220 then 0xFF else byteOf (SMap.get t.p ((o - 0x8200) / 32) 0).toNat (o % 32))
    else if o < 0x8400 then byteOf (t.ctlWord n ((o - 0x8300) / 8)) (o % 8)
    else 0
  | none => match s.bankOf c a with
    | some (b, o) =>
      if o < 0x8000 then byteOf (s.bankW c b (o / 1024)).toNat (o % 1024)
      else if o < 0x8100 then byteOf (s.bankC c b ((o - 0x8000) / 8)).toNat (o % 8)
      else 0
    | none => s.readByte (vaultLoc c a) &&& s.memoryBits c a
/-- Writes one byte there; per-slot control registers that an image shows are not changed by a store (R378). -/
def State.putVaultByte (s : State) (c a : Nat) (x : Byte) : State :=
  match s.imageOf c a with
  | some (n, o) =>
    let t := s.slot c n
    if o < 0x8000 then
      let v := BitVec.ofNat 8192 (withByte (SMap.get t.v (o / 1024) 0).toNat (o % 1024) x)
      s.setSlot c n { t with v := SMap.set t.v (o / 1024) v }
    else if o < 0x8100 then
      let r := BitVec.ofNat 6 ((o - 0x8000) / 8)
      s.putGprAt c n r (BitVec.ofNat 64 (withByte (s.gprAt c n r).toNat (o % 8) x)) s.cycle
    else if o < 0x8200 then
      let r := (o - 0x8100) / 16
      let v : Cap := ⟨BitVec.ofNat 128 (withByte (SMap.get t.k r ⟨0, false⟩).bits.toNat (o % 16) x), false⟩
      s.setSlot c n { t with k := SMap.set t.k r v }
    else if o < 0x8300 then
      let r := BitVec.ofNat 3 ((o - 0x8200) / 32)
      s.putPredAt c n r (BitVec.ofNat 256 (withByte (s.predAt c n r).toNat (o % 32) x))
    else if 0x8400 ≤ o then s
    else
      let w := (o - 0x8300) / 8
      let v := withByte (t.ctlWord n w) (o % 8) x
      match w with
      | 0 => s.setSlot c n { t with pc := v }
      | 7 => s.setSlot c n { t with seed := BitVec.ofNat 64 v }
      | 13 => s.setSlot c n { t with wake := v % 2 == 1 }
      | 14 => s.setSlot c n { t with code := ⟨BitVec.ofNat 128 (t.ctlWord n 15 * 2 ^ 64 + v), false⟩ }
      | 15 => s.setSlot c n { t with code := ⟨BitVec.ofNat 128 (v * 2 ^ 64 + t.ctlWord n 14), false⟩ }
      | _ => s
  | none => match s.bankOf c a with
    | some (b, o) =>
      if o < 0x8000 then
        s.setBankW c b (o / 1024) (BitVec.ofNat 8192 (withByte (s.bankW c b (o / 1024)).toNat (o % 1024) x))
      else if o < 0x8100 then
        s.setBankC c b ((o - 0x8000) / 8)
          (BitVec.ofNat 64 (withByte (s.bankC c b ((o - 0x8000) / 8)).toNat (o % 8) x))
      else s
    | none => s.writeMem (vaultLoc c a) (x &&& s.memoryBits c a).toNat 1

/-- Cells of consecutive vault bytes as the core's slots see them, keyed from `k`. -/
def State.vaultCells (s : State) (c a k : Nat) : Nat → List Host.Cell
  | 0 => []
  | n + 1 => (k, s.vaultByte c a) :: s.vaultCells c (a + 1) (k + 1) n
/-- Writes bytes at rising vault addresses; whole granules lose their poison (R191). -/
def State.putVaultCells (s : State) (c : Nat) (cs : List Host.Cell) : State :=
  (cs.foldl (fun s p => s.putVaultByte c p.1 p.2) s).clean (coveredGranules (cs.map fun p => vaultLoc c p.1))

/-! The vault write queue (R209). -/

/-- The cells of a write, line by line. -/
def vaultLines (cs : List Host.Cell) : List (List Host.Cell) :=
  match cs with
  | [] => []
  | p :: r => match vaultLines r with
    | [] => [[p]]
    | [] :: q => [p] :: q
    | (x :: l) :: q => if x.1 / 64 = p.1 / 64 then (p :: x :: l) :: q else [p] :: (x :: l) :: q
/-- The written bytes of a line, bit `i` for byte `i`. -/
def lineMask (cs : List Host.Cell) : Nat := cs.foldl (fun m p => m ||| 2 ^ (p.1 % 64)) 0
/-- A line's bytes merge into the waiting entry of the line, or take a new one at the back. -/
def joinQueue (q : List WqEnt) (line mask : Nat) (launch : Option Nat) : List WqEnt :=
  if q.any fun e => e.line == line && !e.sent then
    updFirst (fun e => e.line == line && !e.sent) (fun e => { e with mask := e.mask ||| mask }) q
  else q ++ [{ line := line, mask := mask, launch := launch }]
/-- Whether the queue can take bytes of a line now. -/
def Vault.takesLine (v : Vault) (line : Nat) : Bool := v.wq.length < 64 || v.wq.any fun e => e.line == line && !e.sent
/-- Bytes of one line enter the queue, from where every reader sees them. -/
def State.enterLine (s : State) (c : Nat) (cs : List Host.Cell) (launch : Option Nat) : State :=
  (s.putVaultCells c cs).onVault c fun v =>
    { v with wq := joinQueue v.wq ((cs.headD (0, 0)).1 / 64) (lineMask cs) launch }
/-- A capability granule of a core's vault holds a tagged value: an image's register, or memory's granule (R49, R129). -/
def State.putVaultTag (s : State) (c a : Nat) (k : Cap) : State :=
  match s.imageOf c a with
  | some (n, o) =>
    if 0x8100 ≤ o ∧ o < 0x8200 then s.onSlot c n fun t => { t with k := SMap.set t.k ((o - 0x8100) / 16) k }
    else if 0x8370 ≤ o ∧ o < 0x8380 then s.onSlot c n fun t => { t with code := k }
    else s
  | none => if (s.bankOf c a).isSome then s else s.setTag (vaultLoc c a) k.tag
def State.putTag? (s : State) (c : Nat) : Option (Nat × Cap) → State
  | some (a, k) => s.putVaultTag c a k
  | none => s
/-- A line of a write enters the queue, with its tag and its poison. -/
def State.enterPart (s : State) (c : Nat) (l : Late) : State :=
  ((s.enterLine c l.cells l.launch).putTag? c l.cap).markPoison (l.bad.map fun a => vaultLoc c a / 16)
/-- Bytes at rising addresses of a core's vault are written, with a granule's tag and the addresses of poisoned bytes: their
lines enter the queue in order, and from the first one that finds no entry they wait (R209). -/
def State.vaultParts (s : State) (c : Nat) (cs : List Host.Cell) (launch : Option Nat) (who : Writer)
    (cap : Option (Nat × Cap)) (bad : List Nat) : State :=
  (vaultLines cs).foldl (fun s l =>
    let v := (s.core c).vault
    let line := (l.headD (0, 0)).1 / 64
    let part : Late := ⟨who, l, launch, cap, bad.filter fun a => a / 64 == line⟩
    if v.late.isEmpty && v.takesLine line then s.enterPart c part
    else s.onVault c fun v => { v with late := v.late ++ [part] }) s
def State.vaultWriteCap (s : State) (c : Nat) (cs : List Host.Cell) (launch : Option Nat) (who : Writer)
    (cap : Option (Nat × Cap)) : State := s.vaultParts c cs launch who cap []
def State.vaultWrite (s : State) (c : Nat) (cs : List Host.Cell) (launch : Option Nat) (who : Writer) : State :=
  s.vaultWriteCap c cs launch who none
/-- Whether a line of a writer still waits. -/
def State.isLate (s : State) (c : Nat) (who : Writer) : Bool := (s.core c).vault.late.any fun l => l.who == who
/-! The inbox (R253–R255). -/

/-- Entries free for an arrival: 64 less those full and those reserved. -/
def Core.freeEntries (k : Core) : Nat := 64 - (k.inbox.length + k.resv.length)
/-- Whether a device message may reserve an entry (R254). -/
def Core.canReserve (k : Core) : Bool :=
  k.freeEntries > 0 && k.resv.length + (k.inbox.filter fun e => e.kind ≥ 2).length < 48
/-- The same, for several entries at once. -/
def Core.canReserveN (k : Core) (n : Nat) : Bool :=
  n ≤ k.freeEntries && k.resv.length + (k.inbox.filter fun e => e.kind ≥ 2).length + n ≤ 48
def State.reserve (s : State) (c taker what num : Nat) : State :=
  s.onCore c fun k => { k with resv := k.resv ++ [⟨taker, what, num⟩] }
def State.release (s : State) (c what num : Nat) : State :=
  s.onCore c fun k => { k with resv := delFirst (fun r => r.what == what && r.num == num) k.resv }
/-- What fills a reserved entry: a command, a matrix operation, a launch or a stream event. -/
abbrev forCommand : Nat := 2
abbrev forLaunch : Nat := 3
abbrev forMatrix : Nat := 4
abbrev forStream : Nat := 8
/-- The home reservation of a stream, for frame faults (R336). -/
abbrev forHome : Nat := 9

/-- The 512 bits of an entry (R253). -/
def Entry.bits (e : Entry) : BitVec 512 :=
  BitVec.ofNat 512 (e.payload.toNat * 2 ^ 128 +
    ((if e.sec then 1 else 0) * 2 ^ 37 + (if e.urgc then 1 else 0) * 2 ^ 36 + e.spkg % 64 * 2 ^ 30 +
      e.score % 1024 * 2 ^ 20 + e.sslot % 16 * 2 ^ 16 + e.stat % 256 * 256 + e.kind % 256) * 2 ^ 64 + e.tag.toNat)

/-! The store log (R54–R62). -/

/-- Data bytes of an entry by its `SIZE` code. -/
def entryBytes (size : Nat) : Nat := 8 * 2 ^ size
/-- Log bytes an entry takes (R201). -/
def entryLen (e : LogEnt) : Nat := 16 + entryBytes e.size

/-- Entries of a line that the overlay still holds (R62). -/
def Log.overlay (l : Log) (obj line : Nat) : List LogEnt :=
  l.ents.filter fun e => e.kind != 2 && e.obj == obj && e.off / 64 == line && !e.acked && l.comp ≤ e.pos
/-- Lines the overlay indexes (R204). -/
def Log.lines (l : Log) : List (Nat × Nat) :=
  (l.ents.filter fun e => e.kind != 2 && !e.acked).foldl
    (fun acc e => if acc.contains (e.obj, e.off / 64) then acc else (e.obj, e.off / 64) :: acc) []
/-- The overlay's byte at an object offset: the newest entry that covers it. -/
def Log.byte? (l : Log) (obj x : Nat) : Option Byte :=
  (l.overlay obj (x / 64)).foldl (fun acc e =>
    let o := x - e.off
    if e.off ≤ x && o < entryBytes e.size && (e.size != 0 || bitOf e.mask o) then some (byteOf e.data.toNat o) else acc) none

/-- Splits the written bytes of one 64-byte line into entries (R201): whole windows of 64, 32 and 16 bytes, then
8-byte words with a mask. `w` lists (offset in the line, byte). -/
def splitLine (w : List (Nat × Byte)) : List (Nat × Nat × Nat × Nat) :=
  let has (o : Nat) : Bool := w.any fun p => p.1 == o
  let val (o n : Nat) : Nat := (below n).foldr (fun i acc => acc * 256 + ((w.find? fun p => p.1 == o + i).map
    (fun p => p.2.toNat)).getD 0) 0
  let full (o n : Nat) : Bool := (below n).all fun i => has (o + i)
  let step (acc : List (Nat × Nat × Nat × Nat) × List Nat) (win : Nat × Nat × Nat) :
      List (Nat × Nat × Nat × Nat) × List Nat :=
    let o := win.1
    let n := win.2.1
    let free := (below n).all fun i => !acc.2.contains (o + i)
    if full o n && free then (acc.1 ++ [(o, win.2.2, 0xFF, val o n)], acc.2 ++ upFrom o n) else acc
  let wins := [(0, 64, 3), (0, 32, 2), (32, 32, 2), (0, 16, 1), (16, 16, 1), (32, 16, 1), (48, 16, 1)]
  let big := wins.foldl step ([], [])
  let word (acc : List (Nat × Nat × Nat × Nat)) (j : Nat) : List (Nat × Nat × Nat × Nat) :=
    let mask : Nat := (below 8).foldr (fun i m => m * 2 + (if has (8 * j + i) && !big.2.contains (8 * j + i) then 1 else 0)) 0
    if mask = 0 then acc else acc ++ [(8 * j, 0, mask, val (8 * j) 8)]
  (below 8).foldl word big.1

/-- The entries of a shared store: line by line in the order given. -/
def logEntries (t : Xl) (home : Nat → Nat × Nat) (lines : List (Nat × List (Nat × Byte))) : List LogEnt :=
  lines.foldl (fun acc l => acc ++ (splitLine l.2).map fun p =>
    let off := l.1 * 64 + p.1
    let h := home off
    { pos := 0, kind := 0, size := p.2.1, mask := p.2.2.1, off, gen := t.gen, obj := t.obj
      data := BitVec.ofNat 512 p.2.2.2, tag := false, home := h.1, addr := h.2 }) []

/-- Groups written bytes by line, lines in the order of their first byte. -/
def byLine (w : List (Nat × Byte)) : List (Nat × List (Nat × Byte)) :=
  let lines := w.foldl (fun acc p => if acc.contains (p.1 / 64) then acc else acc ++ [p.1 / 64]) []
  lines.map fun l => (l, (w.filter fun p => p.1 / 64 == l).map fun p => (p.1 % 64, p.2))

/-- Whether entries fit the ring and the overlay's index, which range entries do not enter (R56, R76, R204). -/
def Log.room (l : Log) (es : List LogEnt) : Bool :=
  let fresh := (es.filter fun e => e.kind != 2).foldl (fun acc e =>
    if acc.contains (e.obj, e.off / 64) || l.lines.contains (e.obj, e.off / 64) then acc else (e.obj, e.off / 64) :: acc) []
  l.tail + sumList (es.map entryLen) - l.recl ≤ l.size * 2 ^ 20 && l.lines.length + fresh.length ≤ 4096

/-- Occupancy thresholds begin and end a spill and early shipping (R59, R204). -/
def Log.watch (l : Log) : Log :=
  let used := l.tail - l.recl
  let size := l.size * 2 ^ 20
  let lines := l.lines.length
  { l with spill := if used * 4 ≥ size * 3 then true else if used * 2 < size then false else l.spill
           early := if lines ≥ 3072 then true else if lines < 2048 then false else l.early }

/-- Compaction passes every acknowledged entry (R58). -/
def compactTo (ents : List LogEnt) (comp tail : Nat) : Nat :=
  match ents with
  | [] => tail
  | e :: r => if e.acked || e.pos < comp then compactTo r comp tail else e.pos
/-- Reclaims the oldest compacted entries while occupancy exceeds one half (R60). -/
def Log.reclaim (l : Log) : Log :=
  let half := l.size * 2 ^ 20 / 2
  if l.tail - l.recl ≤ half then l
  else
    let kept := l.ents.dropWhile fun e => e.pos < l.comp && half < l.tail - e.pos
    { l with recl := max l.recl ((kept.head?.map (·.pos)).getD l.comp), ents := kept }
/-- Compaction alone, as in a contained core, where reclaimed stays (R78). -/
def Log.compact (l : Log) : Log := { l with comp := max l.comp (compactTo l.ents l.comp l.tail) }
/-- Compaction, then reclamation, and the thresholds (R58–R60). -/
def Log.advance (l : Log) : Log := l.compact.reclaim.watch

/-- Appends entries at the tail and marks the filter; occupancy may now exceed one half (R56, R60, R61). -/
def Log.append (l : Log) (es : List LogEnt) : Log :=
  (es.foldl (fun l e =>
    { l with ents := l.ents ++ [{ e with pos := l.tail }], tail := l.tail + entryLen e
             filter := l.filter ||| (1#1024 <<< (e.obj % 1024)) }) l).reclaim.watch

/-- Publishes at a scope and every narrower one (R57). -/
def Log.publish (l : Log) (scope : Nat) : Log :=
  { l with pubVault := if scope ≥ 2 then l.tail else l.pubVault, pubQuad := if scope ≥ 4 then l.tail else l.pubQuad
           pubDie := if scope ≥ 5 then l.tail else l.pubDie, pubPkg := if scope ≥ 6 then l.tail else l.pubPkg
           pubPod := if scope ≥ 7 then l.tail else l.pubPod, pubSys := if scope ≥ 8 then l.tail else l.pubSys }
/-- The published position of a scope level. -/
def Log.pub (l : Log) (scope : Nat) : Nat :=
  match scope with
  | 4 => l.pubQuad | 5 => l.pubDie | 6 => l.pubPkg | 7 => l.pubPod | 8 => l.pubSys | _ => l.pubVault

/-- A range entry (R76): named by its range, acknowledged as it is appended. -/
def rangeEntry (obj gen off len : Nat) : LogEnt :=
  { pos := 0, kind := 2, size := 0, mask := 0xFF, off, gen, obj, data := BitVec.ofNat 512 len, tag := false
    shipped := true, acked := true }

/-- Discards mirror lines; a read in flight of such a line is not installed (R63). -/
def Core.dropLines (k : Core) (p : Nat → Nat → Bool) : Core :=
  { k with mirror := k.mirror.filter fun m => !p m.obj m.line
           flying := k.flying.map fun f => if p f.obj f.line then { f with spoiled := true } else f }
/-- A request for a shared line leaves, for a strand. -/
def State.takeOff (s : State) (c : Nat) (f : Flying) : State := s.onCore c fun k => { k with flying := k.flying ++ [f] }
/-- What an answer ends: the lines that were asked for under a reference, of one line only where one is given. -/
def Core.landed (k : Core) (ref : Nat) (of : Option Nat) : List Flying :=
  k.flying.filter fun f => f.ref == ref && of.all fun l => l == f.line
/-- The answer has come: a returned atomic discards the mirror copy of its line, whatever has become of its strand (R68). -/
def State.land (s : State) (c ref : Nat) (of : Option Nat) : State :=
  let fs := (s.core c).landed ref of
  if fs.isEmpty then s
  else s.onCore c fun k =>
    { k with flying := k.flying.filter fun f => !fs.contains f }.dropLines fun o l =>
      fs.any fun f => f.atomic && f.obj == o && f.line == l

/-- A slot's side log is empty when its first entry's `LEN` is 0 (R213). -/
def State.sideLoc (s : State) (c n : Nat) : Nat := vaultLoc c ((s.slot c n).ctxbase + 0x8800)
def State.sideLen (s : State) (c n j : Nat) : Nat := bitsOf (s.readMem (s.sideLoc c n + 64 * j) 16) 72 6
def State.sideOff (s : State) (c n j : Nat) : Nat := bitsOf (s.readMem (s.sideLoc c n + 64 * j) 16) 32 40
def State.sideUsed (s : State) (c n : Nat) : Nat :=
  if !(s.slot c n).based then 0 else ((below 32).takeWhile fun j => s.sideLen c n j != 0).length
/-- The trap of R214 that a slot with a non-empty side log takes. -/
def State.sideTrap (s : State) : State := s.trap causePage (s.sideOff s.ic s.is 0) 0x8000
/-- Runs `f` unless the side log is not empty (R214). -/
def State.sideClear (s : State) (f : State) : State := if s.sideUsed s.ic s.is = 0 then f else s.sideTrap

end Sys2Proof.Machine
end

