-- ==== Sys2Proof/Machine/Flags.lean ====
section
/-!
DEFINITION. The machine has no flags: what an instruction raises is counted in the event counters of its core (R88,
R354, R355).
-/
namespace Sys2Proof.Machine

/-- Adds the events of an instruction to the counters of a core: `EVC0`–`EVC6` (R354). -/
def State.countFl (s : State) (c : Nat) (f : Fl) : State :=
  ((((((s.count c 0 f.inv).count c 1 f.dz).count c 2 f.ovf).count c 3 f.unf).count c 4 f.inx).count c 5 f.idz).count c 6 f.sat

/-- The counters that an instruction's events add to (R354). -/
def Fl.counts (f : Fl) : List (Nat × Nat) :=
  [(0, f.inv), (1, f.dz), (2, f.ovf), (3, f.unf), (4, f.inx), (5, f.idz), (6, f.sat)].filter fun x => x.2 != 0
/-- The issuing instruction's events are added at a clock (R355). -/
def State.eventsAt (s : State) (clock : Nat) (add : List (Nat × Nat)) : State :=
  if add.isEmpty then s else s.onCore s.ic fun k => { k with evcs := k.evcs ++ [{ clock, slot := s.is, add }] }
/-- The events of the instruction that issues, which it adds at its commit clock (R127, R355). -/
def State.events (s : State) (f : Fl) : State := s.eventsAt (s.cycle + 15) f.counts
/-- The events of an instruction that enters its slot's vector latch: the clock of its start sets their commit clock. -/
def State.latchEvents (s : State) (f : Fl) : State := s.eventsAt (2 ^ 70) f.counts
/-- One instruction's additions to the counters of a core, and the counters it clears (R355, R356). -/
def State.applyEvc (s : State) (c : Nat) (w : EvcWrite) : State :=
  let s := w.add.foldl (fun s x => s.count c x.1 x.2) s
  if w.clear = 0 then s else s.onCore c fun k => { k with evc := k.evc.filter fun p => !(p.1 < 16 && bitOf w.clear p.1) }
/-- What instructions do to the counters of a core at the commit clock that has come: the events are added before `CNTCLR`
clears (R356). -/
def State.commitEvcs (s : State) (c : Nat) : State :=
  let due := (s.core c).evcs.filter fun w => w.clock ≤ s.cycle
  if due.isEmpty then s
  else (due.filter (fun w => w.clear == 0) ++ due.filter fun w => w.clear != 0).foldl (fun s w => s.applyEvc c w)
    (s.onCore c fun k => { k with evcs := k.evcs.filter fun w => s.cycle < w.clock })

end Sys2Proof.Machine
end

