-- ==== Sys2Proof/Machine/Operands.lean ====
section
/-!
DEFINITION. Operand forms: immediates (R98, R99), scalar operands and results at a width (R142), the elements of a
vector register and their lanes (R163, R164), and the draws of the stochastic generator (R90).
-/
namespace Sys2Proof.Machine

/-! Immediates. -/

/-- Bits of an immediate from a 4-bit base field (R98). -/
def Imm.width (i : Imm) : Nat := 4 + 12 * i.ext
/-- An integer immediate at width n: sign-extended or cut (R98). -/
def immInt (n : Nat) (i : Imm) : Nat := toBits n (sv (Imm.width i) (i.val % 2 ^ Imm.width i))
/-- The immediate of `LI`, from an 8-bit base field. -/
def liValue (i : Imm) : Nat := toBits 64 (sv (8 + 12 * i.ext) (i.val % 2 ^ (8 + 12 * i.ext)))

/-- 1 / ln 2 and ln 2 to 1,100 bits would be more than any format needs; 200 bits decide every rounding here. -/
def invLn2Fx : Nat := 2 ^ 512 / ln2Fx
where
  ln2Fx : Nat := lnSum (2 ^ 256 / 3) 0 0 90
  lnSum (p j acc : Nat) : Nat → Nat
    | 0 => 2 * acc
    | n + 1 => lnSum (p / 9) (j + 1) (acc + p / (2 * j + 1)) n

/-- The constants of R99 as values, before they are rounded to the operation's type. -/
def constValue (f : Fmt) (i : Nat) : Fv :=
  match i with
  | 0 => .fin false 0 0
  | 1 => .fin false 1 0
  | 2 => .fin false 2 0
  | 3 => .fin false 3 0
  | 4 => .fin false 4 0
  | 5 => .fin false 1 (-1)
  | 6 => .fin false 1 (-2)
  | 7 => .fin true 1 0
  | 8 => .fin true 2 0
  | 9 => .fin false 10 0
  | 10 => .fin false (2 * invLn2Fx + 1) (-257)
  | 11 => .fin false (2 * invLn2Fx.ln2Fx + 1) (-257)
  | 12 => .inf false
  | 13 => .inf true
  | 14 => f.value (f.maxBits false)
  | _ => .nan false

/-- A floating-point immediate in the operation's type (R98); its conversion counts nothing. -/
def immFloat (f : Fmt) (i : Imm) : Nat :=
  let v : Fv := match i.ext with
    | 0 => constValue f (i.val % 16)
    | 1 => fmtBf16.value (i.val % 65536)
    | _ => fmtF32.value (i.val % 2 ^ 32)
  (f.deliver rneMode false v).1

/-! Scalars. -/

/-- g[r][n − 1:0] as a natural number (R142). -/
def State.src (s : State) (w : Width) (r : Gpr) : Nat := (s.gpr r).toNat % 2 ^ w.bits
/-- The n-bit result sign-extended, or for the natural members zero-extended (R142). -/
def widen (w : Width) (nat : Bool) (r : Nat) : Word :=
  BitVec.ofNat 64 (if nat then r % 2 ^ w.bits else sextTo w.bits 64 (r % 2 ^ w.bits))
/-- A scalar instruction that writes an n-bit result to g[d] (R142, R144). -/
def State.putScalar (s : State) (w : Width) (nat : Bool) (d : Gpr) (r : Nat) : State :=
  (s.putGpr d (widen w nat r)).retire
/-- A scalar instruction that writes one truth value to p[d] (R126, R150). -/
def State.putTruth (s : State) (d : Pr) (b : Bool) : State := (s.putPred d (spread b)).retire

/-! Vector elements. -/

/-- Elements of a width (R163). -/
def elemCount (w : Nat) : Nat := 8192 / w
/-- The bit of a predicate that governs element `i` (R163). -/
def govBit (w i : Nat) : Nat := i * w / 32
/-- The elements of a register, element 0 first. -/
def elemsFrom (x : Nat) (w : Nat) : Nat → List Nat
  | 0 => []
  | n + 1 => x % 2 ^ w :: elemsFrom (x / 2 ^ w) w n
def elems (w : Nat) (v : Vec) : List Nat := elemsFrom v.toNat w (elemCount w)
/-- The register that a list of elements makes. -/
def packElems (w : Nat) (l : List Nat) : Nat := l.foldr (fun x acc => acc * 2 ^ w + x % 2 ^ w) 0
def ofElems (w : Nat) (l : List Nat) : Vec := BitVec.ofNat 8192 (packElems w l)
/-- Whether each element is active under a mask, element 0 first. -/
def activeList (w : Nat) (g : Pred) : List Bool :=
  let lanes := (below 256).map fun j => g.getLsbD j
  match w with
  | 64 => (below 128).map fun i => g.getLsbD (2 * i)
  | 32 => lanes
  | 16 => lanes.flatMap fun b => [b, b]
  | 8 => lanes.flatMap fun b => [b, b, b, b]
  | _ => lanes
/-- The lanes of the elements that are active: what a vector write covers. -/
def activeLanes (w : Nat) (g : Pred) : Pred :=
  if w = 64 then
    let even := (below 128).foldr (fun i (acc : Pred) => acc ||| (if g.getLsbD (2 * i) then 3#256 <<< (2 * i) else 0)) 0
    even
  else g

/-- Chooses element by element: the new value where active, the old one elsewhere (R164). -/
def mergeElems (act : List Bool) (old new : List Nat) : List Nat :=
  List.zipWith (fun b p => if b then p.2 else p.1) act (List.zip old new)

/-- A predicate from one truth value per element, as a vector compare forms it (R171). -/
def predOf (w : Nat) (ts : List Bool) : Pred :=
  let lanes : List Bool := match w with
    | 64 => ts.flatMap fun b => [b, b]
    | 16 => pairsAnd ts
    | 8 => pairsAnd (pairsAnd ts)
    | _ => ts
  BitVec.ofNat 256 (packElems 1 (lanes.map fun b => if b then 1 else 0))
where
  pairsAnd : List Bool → List Bool
    | a :: b :: r => (a && b) :: pairsAnd r
    | l => l

/-! The generator (R90). -/

/-- One xorshift step. -/
def nextSeed (x : Word) : Word :=
  let x := x ^^^ (x <<< 13)
  let x := x ^^^ (x >>> 7)
  x ^^^ (x <<< 17)
/-- The draw a seed gives after its step. -/
def drawOf (x : Word) : Nat := (x >>> 32).toNat
/-- `n` draws: the values in order, and the seed they leave. -/
def draws (x : Word) : Nat → List Nat × Word
  | 0 => ([], x)
  | n + 1 =>
    let y := nextSeed x
    let r := draws y n
    (drawOf y :: r.1, r.2)
/-- A written seed: zero stores the constant (R90). -/
def seedFor (x : Word) : Word := if x = 0 then 0x9E3779B97F4A7C15 else x
/-- The draws of an instruction in mode `r` with `n` results: none outside `rsr`. -/
def State.drawFor (s : State) (r : Rnd) (n : Nat) : List Nat × Word :=
  if r = .rsr then draws s.me.seed n else (List.replicate n 0, s.me.seed)
def State.setSeed (s : State) (x : Word) : State := s.onSlot s.ic s.is fun t => { t with seed := x }

end Sys2Proof.Machine
end

