-- ==== Sys2Proof/Machine/Control.lean ====
section
/-!
DEFINITION. Control flow: `BR`, `JMP`, `CALL` and `RET` (R105, R158–R162).
-/
namespace Sys2Proof.Machine

/-- The offset a signed number of halfwords away from the instruction's start, modulo 2⁶⁴ (R105, R159). -/
def State.relTarget (s : State) (halves : Int) : Nat := toBits 64 ((s.issue.start : Int) + 2 * halves)

/-- The checks of a transfer through a capability (R160, R161): steps 1–3 and 6 of R50 on the capability, then steps 4
and 5 on the target. It never parks, so a translation that the slot does not hold is read from the table at once (R144,
assumption 68). -/
def State.checkTransfer (s : State) (k : Cap) (knum target : Nat) : Chk :=
  if !k.tag then .bad causeCapTag k.base knum
  else
    let inside := k.base ≤ target && target + 2 ≤ k.limit
    let page := if inside then target / 2 ^ 21 else k.base / 2 ^ 21
    let held := s.lookup s.ic s.is k.obj (if k.obj = aliasObj then 0 else page)
    match held.orElse fun _ => if k.obj = aliasObj then none else some (s.walkResult s.is k.obj page) with
    | none => .bad causeRights k.base knum
    | some t =>
      let ent := t.ent
      if !ent.ok || ent.kind == 0 || k.gen != ent.gen then .bad causeCapTag k.base knum
      else if !k.holds rX || ent.kind != kCode then .bad causeRights k.base knum
      else if ent.sec && !s.me.world then .bad causeWorld k.base knum
      else if !inside || ent.len < target + 2 then .bad causeBounds target knum
      else if target % 2 != 0 then .bad causeAlign target knum
      else .ok ⟨k.obj, ent.gen, ent, target, [t]⟩

/-- The strand's code capability becomes `k`. -/
def State.setCode (s : State) (k : Cap) : State := s.onSlot s.ic s.is fun t => { t with code := k }

/-- A transfer through k[a] to `target`; a call keeps the return start in g[d] and the old code capability in k[a] (R160). -/
def State.transferCap (s : State) (a : Kr) (target : Nat) (link : Option Gpr) : State :=
  s.withChk (s.checkTransfer (s.cap a) a.toNat target) fun _ =>
    let new := s.cap a
    let s' := match link with
      | some d => (s.putGpr d (BitVec.ofNat 64 s.issue.next)).putCap a s.me.code
      | none => s
    (s'.setCode new).retireTo target

/-- The offset that a capability form names: the capability's base plus g[b], or for `RET` g[b] itself (R160). -/
def State.capTarget (s : State) (a : Kr) (b : Gpr) (isRet : Bool) : Nat :=
  if isRet then (s.gpr b).toNat else (s.cap a).base + (s.gpr b).toNat

/-- `BR`: a signed 12-bit number of halfwords from the start (R105, R158). -/
def execBr (o : BitVec 12) (s : State) : Host.Outcome State Fault Refusal :=
  s.guarded (s.retireTo (s.relTarget o.toInt))

/-- `JMP` (R159, R160). -/
def execJmp (t : Target) (s : State) : Host.Outcome State Fault Refusal :=
  s.guarded (match t with
    | .rel i => s.retireTo (s.relTarget (sv 64 (immInt 64 i)))
    | .reg b => s.retireTo (s.gpr b).toNat
    | .cap k b => s.transferCap k (s.capTarget k b false) none)

/-- `CALL`: the link is the start after the chain; sources are read first (R160). -/
def execCall (d : Gpr) (t : Target) (s : State) : Host.Outcome State Fault Refusal :=
  let link := BitVec.ofNat 64 s.issue.next
  s.guarded (match t with
    | .rel i => (s.putGpr d link).retireTo (s.relTarget (sv 64 (immInt 64 i)))
    | .reg b => (s.putGpr d link).retireTo (s.gpr b).toNat
    | .cap k b => s.transferCap k (s.capTarget k b false) (some d))

/-- `RET` (R159, R160). -/
def execRet (t : RetTarget) (s : State) : Host.Outcome State Fault Refusal :=
  s.guarded (match t with
    | .reg b => s.retireTo (s.gpr b).toNat
    | .cap k b => s.transferCap k (s.capTarget k b true) none)

end Sys2Proof.Machine
end

