-- ==== Sys2Proof/Machine/Serve.lean ====
section
/-!
DEFINITION. How a parked instruction ends (R127, R208), what one step at a word does (R219–R222, R349, R352), where it
is served, and how an operation leaves for its home (R65–R73, R321).
-/
namespace Sys2Proof.Machine

/-! Ending a wait. -/

/-- Bytes [k, k + n) of gathered cells. -/
def pickBytes (cs : List Host.Cell) (k n : Nat) : Nat :=
  (below n).foldr (fun i acc => acc * 256 + ((cs.find? fun p => p.1 == k + i).map fun p => p.2.toNat).getD 0) 0

/-- The element of a vector access that byte `key` belongs to. -/
def elemOfKey (w : Wait) (key : Nat) : Nat :=
  match w.fin with
  | .vload _ bytes els => ((els.find? fun p => p.2 ≤ key && key < p.2 + bytes).map (·.1)).getD 0
  | _ => 0

/-- The tag of a granule of a core's vault as its own slots see it: a k register's where an image is resident. -/
def State.vaultTag (s : State) (c a : Nat) : Bool :=
  match s.imageOf c a with
  | some (n, o) =>
    let t := (s.slot c n).shown s.cycle
    if 0x8100 ≤ o ∧ o < 0x8200 then (SMap.get t.k ((o - 0x8100) / 16) ⟨0, false⟩).tag
    else if 0x8370 ≤ o ∧ o < 0x8380 then t.code.tag
    else false
  | none => s.tagAt (vaultLoc c a)

/-- The `POISON` of the first of some bytes whose granule in the core's vault is poisoned (R191, R211). -/
def State.poisonOf (s : State) (c : Nat) (w : Wait) (ps : List Piece) : Option (Nat × Nat × Nat) :=
  (ps.find? fun p => s.poisoned (vaultLoc c p.addr) p.n).map fun p => (causePoison, p.off, memValue w.knum (elemOfKey w p.key))
/-- Reads the bytes a load still wants from the core's own vault, as they stand now; a poisoned granule makes the load
end in `POISON`, in the log ring and in the mirror as well (R191, R204, R211). -/
def State.readPieces (s : State) (c : Nat) (w : Wait) : Wait :=
  let err := w.err.orElse fun _ => s.poisonOf c w (w.near ++ w.reads)
  let w := w.reads.foldl (fun w p =>
    { w with bytes := w.bytes ++ s.vaultCells c p.addr p.key p.n, tag := s.vaultTag c p.addr }) w
  { w with reads := [], near := [], err }

/-- The lanes of the first `n` bytes of a vector register, and of elements of a width, given as (element, key). -/
def firstLanes (n : Nat) : Pred := BitVec.ofNat 256 (2 ^ ((n + 3) / 4) - 1)
def elemLanes (bytes : Nat) (els : List (Nat × Nat)) : Pred :=
  els.foldl (fun acc p => acc ||| (if bytes = 8 then 3#256 <<< (2 * p.1) else 1#256 <<< (p.1 * bytes / 4))) 0

/-- Writes what a finished wait returns to its strand's registers; a shared register commits at `clock` (R127). -/
def State.writeFin (s : State) (c n : Nat) (w : Wait) (clock : Nat) : State :=
  match w.fin with
  | .load d len zx =>
    let x := pickBytes w.bytes 0 len
    s.putGprAt c n d (BitVec.ofNat 64 (if zx then x else sextTo (8 * len) 64 x)) clock
  | .vload d bytes els =>
    let old := (s.vecAt c n d).toNat
    let x := els.foldl (fun acc p => setElem' (8 * bytes) acc p.1 (pickBytes w.bytes p.2 bytes)) old
    s.putVecAt c n d (BitVec.ofNat 8192 x) clock (elemLanes bytes els)
  | .capld d => s.putCapAt c n d ⟨BitVec.ofNat 128 (pickBytes w.bytes 0 16), w.tag⟩
  | .vbytes d len =>
    let old := (s.vecAt c n d).toNat
    let x := old / 256 ^ len * 256 ^ len + pickBytes w.bytes 0 len
    s.putVecAt c n d (BitVec.ofNat 8192 x) clock (firstLanes len)
  | .word d => s.putGprAt c n d w.word clock
  | .outcome d b => (s.putPredAt c n d (spread (w.word = 0))).putGprAt c n b w.word clock
  | .pred d => s.putPredAt c n d (spread (w.word != 0))
  | .sstat d =>
    let old := (s.vecAt c n d).toNat
    let x := old / 256 ^ 448 * 256 ^ 448 + cellsNat w.bytes % 256 ^ 448
    s.putVecAt c n d (BitVec.ofNat 8192 x) clock (firstLanes 448)
  | .join d _ => s.putGprAt c n d w.word clock
  | .regload d _ => s.putGprAt c n d w.word clock
  | .none => s
  | .recv _ _ => s
  | .park => s
  | .halt => s
  | .again => s
  | .tile _ _ _ _ _ _ => s
  | .matrix _ => s
  | .mfence _ => s
  | .fence _ => s
  | .queued => s
  | .atomic d _ _ => s.putGprAt c n d w.word clock
where
  setElem' (w x i e : Nat) : Nat :=
    x / 2 ^ (w * (i + 1)) * 2 ^ (w * (i + 1)) + e % 2 ^ w * 2 ^ (w * i) + x % 2 ^ (w * i)

/-- The private registers that a finished wait writes, by kind, code and lanes (R128). -/
def Fin.dests (f : Fin) : List (Nat × Nat × Pred) :=
  let g (d : Gpr) : List (Nat × Nat × Pred) := if d.toNat < 32 then [(0, d.toNat, allLanes)] else []
  let v (d : Vr) (ls : Pred) : List (Nat × Nat × Pred) := if d.toNat < 32 then [(1, d.toNat, ls)] else []
  match f with
  | .load d _ _ => g d
  | .vload d bytes els => v d (elemLanes bytes els)
  | .capld d => [(3, d.toNat, allLanes)]
  | .vbytes d n => v d (firstLanes n)
  | .word d => g d
  | .outcome d b => (2, d.toNat, allLanes) :: g b
  | .pred d => [(2, d.toNat, allLanes)]
  | .sstat d => v d (firstLanes 448)
  | .join d _ => g d
  | .regload d _ => g d
  | .atomic d _ _ => g d
  | .none => []
  | .recv d a => g d ++ (a.map fun r => v r (firstLanes 64)).getD []
  | .park => []
  | .halt => []
  | .again => []
  | .tile _ _ _ _ _ _ => []
  | .matrix _ => []
  | .mfence _ => []
  | .fence _ => []
  | .queued => []
/-- A value has come to a slot: what it writes commits now (R127). -/
def State.noteArrival (s : State) (c n : Nat) (f : Fin) : State :=
  s.onSlot c n fun t => { t with arrival := some (s.cycle, f.dests) }

/-- The wait of a resident strand ends: its registers are written, its program counter advances and it rejoins the
rotation; a trap that the arrivals raised is taken instead. -/
def State.endWait (s : State) (c n : Nat) (w : Wait) : State :=
  let w := s.readPieces c w
  match w.err with
  | some (cause, addr, value) => s.raiseAt c n cause addr value w.start false
  | none =>
    match w.fin with
    | .again => s.rejoin c n
    | _ => (((s.rejoin c n).writeFin c n w s.cycle).noteArrival c n w.fin).retireAt c n w.start w.next

/-- An atomic of the core's own vault, which its last served read lets perform (R208). -/
def Fin.unperformed : Fin → Bool
  | .atomic _ _ _ => true
  | _ => false

/-- Ends the wait a reference names; a Swapped strand ends it when it returns (R376). An atomic of the core's own vault
ends only when it has been performed. -/
def State.finishWait (s : State) (c ref : Nat) : State :=
  match s.strand? c ref with
  | none => s
  | some t =>
    match t.wait with
    | none => s
    | some w =>
      if w.fin.unperformed then s
      else if t.run = .swapped then s.onStrand c ref fun t => { t with due := true } else s.endWait c (ref % 16) w

/-- One arrival of a wait; the last one ends it. -/
def State.arrived (s : State) (c ref : Nat) (f : Wait → Wait) : State :=
  let s := s.onWait c ref fun w => let w := f w; { w with left := w.left - 1 }
  match (s.strand? c ref).bind (·.wait) with
  | some w => if w.left = 0 then s.finishWait c ref else s
  | none => s

/-- A reply brings a word, or ends the instruction in a trap. -/
def State.arriveWord (s : State) (c ref : Nat) (x : Word) (err : Option (Nat × Nat × Nat)) : State :=
  s.arrived c ref fun w =>
    let mine (e : Nat × Nat × Nat) : Nat × Nat × Nat :=
      let e := (e.1, w.eoff.getD e.2.1, e.2.2)
      match w.reads.find? fun p => p.off / 64 == e.2.1 / 64 with
      | some p => (e.1, p.off, if e.2.2 = 0 then memValue w.knum (elemOfKey w p.key) else e.2.2)
      | none => (e.1, e.2.1, if e.2.2 = 0 then memValue w.knum 0 else e.2.2)
    { w with word := x, err := w.err.orElse fun _ => err.map mine }

/-! The scoreboard (R283–R285). -/

/-- Whether two regions overlap. -/
def Region.meets (a b : Region) : Bool :=
  match a, b with
  | .scratch l h, .scratch l' h' => l < h' && l' < h
  | .vault o l h, .vault o' l' h' => o == o' && l < h' && l' < h
  | .buf n l h, .buf n' l' h' => n == n' && l < h' && l' < h
  | .scratch _ _, .vault _ _ _ => false
  | .scratch _ _, .buf _ _ _ => false
  | .vault _ _ _, .scratch _ _ => false
  | .vault _ _ _, .buf _ _ _ => false
  | .buf _ _ _, .scratch _ _ => false
  | .buf _ _ _, .vault _ _ _ => false
/-- An access by holder `h` conflicts with an entry of an earlier holder. -/
def Core.conflicts (k : Core) (h : Nat) (r : Region) (write : Bool) : Bool :=
  k.board.any fun e => e.holder < h && (e.write || write) && e.region.meets r
/-- The accesses of a holder wait for no earlier holder (R284). -/
def Core.boardClear (k : Core) (h : Nat) : Bool :=
  (k.board.filter fun e => e.holder == h).all fun e => !k.conflicts h e.region e.write
/-- The 32 entries of the scoreboard suffice for so many more. -/
def Core.boardRoom (k : Core) (n : Nat) : Bool := k.board.length + n ≤ 32

/-- Slots that parked to issue again look again: an entry was freed, a queue moved on or a posted operation ended. A Swapped
strand's reason counts as satisfied (R376). -/
def State.pokeAgain (s : State) (c : Nat) (why : Why) : State :=
  let waits (t : Slot) : Bool := t.why == why && (t.wait.map (·.fin)) == some .again
  let s := (below 16).foldl (fun s n =>
    let t := s.slot c n
    if t.run == .parked && waits t then s.rejoin c n else s) s
  if (s.core c).swapped.any fun p => waits p.2 && !p.2.due then
    s.onCore c fun k => { k with swapped := k.swapped.map fun p => (p.1, if waits p.2 then { p.2 with due := true } else p.2) }
  else s
/-- Parks the issuing slot until it may issue the instruction again. -/
def State.parkAgain (s : State) (why : Why) : State := s.notIssued.park why { fin := .again, left := 1 }
/-- A holder's work is done. -/
def State.endHolder (s : State) (c h : Nat) : State := (s.freeHolder c h).pokeAgain c .remote

/-- The place in the order of acceptance of an instruction that takes entries: the one it already holds, or the next. -/
def State.holder (s : State) : Nat := match s.me.hold with
  | some h => h
  | none => (s.core s.ic).order + 1

/-- Takes entries for the issuing instruction, or for the operation it queues (R283). -/
def State.takeEntries (s : State) (h : Nat) (rs : List (Region × Bool)) : State :=
  s.onCore s.ic fun k => { k with order := max k.order h, board := k.board ++ rs.map fun r => ⟨r.1, r.2, h⟩ }

/-- An instruction with its own entries: a bubble if they do not fit, parked while an earlier holder conflicts, else `f`
with the holder's number (R229, R285). -/
def State.withEntries (s : State) (rs : List (Region × Bool)) (f : Nat → State → State) : State :=
  let h := s.holder
  let k := s.core s.ic
  if s.me.hold.isNone && !k.boardRoom rs.length then s.bubble
  else
    let s := if s.me.hold.isNone then s.takeEntries h rs else s
    if rs.any fun r => k.conflicts h r.1 r.2 then
      (s.onSlot s.ic s.is fun t => { t with hold := some h }).parkAgain .remote
    else f h (s.onSlot s.ic s.is fun t => { t with hold := none })

/-- The region of bytes of an object of this core, for the scoreboard. -/
def regionOf (kind obj off addr n : Nat) : Region :=
  if kind = kScratch then .scratch addr (addr + n) else .vault obj off (off + n)
/-- A slot access waits while an entry of an accepted holder conflicts with it (R284). -/
def State.unlessHeld (s : State) (rs : List Region) (write : Bool) (f : State) : State :=
  let k := s.core s.ic
  if !k.board.isEmpty && rs.any fun r => k.conflicts (k.order + 1) r write then s.parkAgain .remote else f

/-- The physical faults that a read of scratchpad, buffer or accumulator bytes meets, each once (R191): a corrected error is
counted, and an uncorrectable word poisons its granule. -/
def State.meetFaults (s : State) (c loc n : Nat) : State :=
  let hit (p : Nat × Nat) : Bool := (granules loc n).contains p.1
  let fs := s.badGranules.filter hit
  if fs.isEmpty then s
  else
    let s := { s with badGranules := s.badGranules.filter fun p => !hit p }
    (s.markPoison ((fs.filter fun p => p.2 == 1).map (·.1))).count c 8 (fs.filter fun p => p.2 != 1).length

/-! The places of words. -/

/-- Where a word lies: in a core's scratchpad or vault. -/
inductive Place where
  | scratch (c off : Nat)
  | vault (c addr : Nat)
deriving DecidableEq, Repr

def Place.loc : Place → Nat
  | .scratch c o => scratchLoc c o
  | .vault c a => vaultLoc c a
def Place.core : Place → Nat
  | .scratch c _ => c
  | .vault c _ => c
def Place.isVault : Place → Bool
  | .scratch _ _ => false
  | .vault _ _ => true

/-- Writes bytes of one line at a place; a vault write enters the write queue, which has room (R209). -/
def State.putAt (s : State) (p : Place) (x n : Nat) (launch : Option Nat) : State :=
  match p with
  | .scratch c o => s.writeMem (scratchLoc c o) x n
  | .vault c a => s.enterLine c (natCells a x n) launch

/-- Whether an operation changes its word or the state of it, as the scoreboard sees it (R284). -/
def WordOp.alters : WordOp → Bool
  | .fe m _ => !(m == .ldf || m == .feq)
  | .sw m _ => m == .swarm || m == .swadd
  | .amo _ _ _ => true
  | .cas _ _ _ => true
/-- Whether an operation may write its word. -/
def WordOp.writes : WordOp → Bool
  | .amo _ _ _ => true
  | .cas _ _ _ => true
  | .fe m _ => m == .stp || m == .setf
  | .sw m _ => m == .swarm || m == .swadd
/-- Whether the write queue can take what an operation writes now: a step at a word waits for it (R209). -/
def State.wordRoom (s : State) (p : Place) (op : WordOp) : Bool :=
  match p with
  | .scratch _ _ => true
  | .vault c a => !op.writes || ((s.core c).vault.late.isEmpty && (s.core c).vault.takesLine (a / 64))

/-! Sync words (R348, R349). -/

def swGen (w : Nat) : Nat := bitsOf w 56 8
def swTarget (w : Nat) : Nat := bitsOf w 28 28
def swCount (w : Nat) : Nat := w % 2 ^ 28
def swMake (gen target count : Nat) : Nat := gen % 256 * 2 ^ 56 + target % 2 ^ 28 * 2 ^ 28 + count % 2 ^ 28
/-- The settled word, and whether it releases. -/
def swSettle (w : Nat) : Nat × Bool :=
  let t := swTarget w
  if t = 0 ∨ swCount w < t then (w, false) else (swMake (swGen w + swCount w / t) t (swCount w % t), true)
/-- The word after an arrival, whether it releases, and whether the count saturated. -/
def swArrive (w amount : Nat) : Nat × Bool × Bool :=
  let c := swCount w + amount % 2 ^ 28
  let top := 2 ^ 28 - 1
  let r := swSettle (swMake (swGen w) (swTarget w) (min c top))
  (r.1, r.2, top < c)

/-! One step at a word. -/

/-- Bytes of an atomic's type, and its old value as it is returned (R219). -/
def amoBytes : AmoTy → Nat
  | .i64 => 8 | .i32 => 4 | .n32 => 4
def amoReturn (t : AmoTy) (x : Nat) : Word :=
  match t with
  | .i64 => BitVec.ofNat 64 x | .i32 => BitVec.ofNat 64 (sextTo 32 64 x) | .n32 => BitVec.ofNat 64 x
/-- The new value an atomic writes (R219). -/
def amoNew (m : Amo) (t : AmoTy) (old v : Nat) : Nat :=
  let n := 8 * amoBytes t
  let less : Bool := match t with
    | .n32 => decide (old ≤ v)
    | .i64 => decide (sv n old ≤ sv n v)
    | .i32 => decide (sv n old ≤ sv n v)
  match m with
  | .add => (old + v) % 2 ^ n
  | .min => if less then old else v
  | .max => if less then v else old
  | .and => old &&& v
  | .or => old ||| v
  | .xor => old ^^^ v
  | .swap => v

/-- Whether a full/empty operation may proceed on a word (R221). -/
def feReady (m : Fe) (isFull : Bool) (word v : Nat) : Bool :=
  match m with
  | .ldc => isFull | .ldf => isFull | .stp => !isFull | .sete => true | .setf => true | .feq => isFull && word == v

/-- What one step at a word gives: the state, the word returned, and whether a sync word released its waiters; none if
the operation must wait. -/
def State.wordStep (s : State) (p : Place) (op : WordOp) (launch : Option Nat) : Option (State × Word × Bool) :=
  let loc := p.loc
  match op with
  | .amo m t v =>
    let n := amoBytes t
    let old := s.readMem loc n
    some (s.putAt p (amoNew m t old (v.toNat % 2 ^ (8 * n))) n launch, amoReturn t old, false)
  | .cas t cmp new =>
    let n := amoBytes t
    let old := s.readMem loc n
    let s := if old = cmp.toNat % 2 ^ (8 * n) then s.putAt p (new.toNat % 2 ^ (8 * n)) n launch else s
    some (s, amoReturn t old, false)
  | .fe m v =>
    let word := s.readMem loc 8
    if feReady m (s.full.contains loc) word v.toNat then
      let s' := match m with
        | .ldc => s.setFull loc false
        | .ldf => s
        | .stp => (s.putAt p v.toNat 8 launch).setFull loc true
        | .sete => s.setFull loc false
        | .setf => (s.putAt p v.toNat 8 launch).setFull loc true
        | .feq => s
      some (s', BitVec.ofNat 64 word, false)
    else none
  | .sw m v =>
    let word := s.readMem loc 8
    match m with
    | .swarm =>
      let c := if v.getLsbD 63 then 0 else swCount word
      let r := swSettle (swMake (swGen word) (v.toNat % 2 ^ 28) c)
      some (s.putAt p r.1 8 launch, BitVec.ofNat 64 r.1, r.2)
    | .swadd =>
      let r := swArrive word (v.toNat % 2 ^ 28)
      let s := if r.2.2 then s.count p.core 12 1 else s
      some (s.putAt p r.1 8 launch, BitVec.ofNat 64 r.1, r.2.1)
    | .swrd => some (s, BitVec.ofNat 64 word, false)
    | .swwait => if swGen word = v.toNat % 256 then none else some (s, BitVec.ofNat 64 word, false)

/-- Sends a reply of one word to the strand a request came from, charged as the request was (R357). -/
def State.replyTo (s : State) (p : Place) (w : Waiter) (x : Word) : State :=
  match p with
  | .scratch c _ => s.arriveWord c w.slot x none
  | .vault h _ => s.send h w.core urgentClass (flitsFor 8) w.acct (.reply w.core w.slot x 0 none)

/-- The waiters of a place's core that wait there. -/
def State.waitersAt (s : State) (p : Place) : List Waiter :=
  if p.isVault then (s.core p.core).homeWaiters else (s.core p.core).waiters
def State.dropWaiter (s : State) (p : Place) (w : Waiter) : State :=
  s.onCore p.core fun k =>
    if p.isVault then { k with homeWaiters := delFirst (fun x => x == w) k.homeWaiters }
    else { k with waiters := delFirst (fun x => x == w) k.waiters }

/-- Whether a waiter's condition holds; a sync-word wait is released by an increment alone (R352). -/
def State.waiterReady (s : State) (p : Place) (released : Bool) (w : Waiter) : Bool :=
  w.key == p.loc && match w.op with
    | .sw .swwait _ => released
    | op => s.wordRoom p op && (s.wordStep p op none).isSome

/-- Serves the oldest waiter whose condition holds, and repeats (R222). -/
def State.serveWaiters (s : State) (p : Place) (released : Bool) : Nat → State
  | 0 => s
  | n + 1 =>
    match (s.waitersAt p).find? (s.waiterReady p released) with
    | none => s
    | some w =>
      let s := s.dropWaiter p w
      match w.op with
      | .sw .swwait _ => (s.replyTo p w (BitVec.ofNat 64 (s.readMem p.loc 8))).serveWaiters p released n
      | op => match s.wordStep p op w.acct with
        | some r => (r.1.replyTo p w r.2.1).serveWaiters p released n
        | none => s.serveWaiters p released n
/-- Serves the waiters of a word after it changed. -/
def State.wakeWord (s : State) (p : Place) (released : Bool) : State :=
  s.serveWaiters p released (s.waitersAt p).length
/-- Serves the waiters of every word that a write of bytes touched. -/
def State.wakeRange (s : State) (p : Place) (n : Nat) : State :=
  let lo := p.loc / 8
  let hit := (s.waitersAt p).filter fun w => lo ≤ w.key / 8 && w.key / 8 ≤ (p.loc + max n 1 - 1) / 8
  hit.foldl (fun s w => match p with
    | .scratch c o => s.wakeWord (.scratch c (o + w.key - p.loc)) false
    | .vault c a => s.wakeWord (.vault c (a + w.key - p.loc)) false) s

/-- An atomic of a strand on its core's own vault whose read has been served is performed as one step, as soon as the write
queue takes it; its old value then ends the wait (R208, R209, R219). -/
def State.performOwn (s : State) (c n : Nat) (t : Slot) : State :=
  match t.wait with
  | some w => match w.fin with
    | .atomic d op a =>
      let p := Place.vault c a
      let ref := strandRef n w.ticket
      let read := s.readPieces c w
      if w.left != 0 then s
      else if read.err.isSome then (s.onWait c ref fun _ => { read with fin := .none }).finishWait c ref
      else if !s.wordRoom p op then s
      else match s.wordStep p op (t.acct c) with
        | some r =>
          (((r.1.onWait c ref fun w => { w with fin := .word d, word := r.2.1 }).wakeWord p r.2.2)).finishWait c ref
        | none => s
    | _ => s
  | none => s

/-- The same, for the strand that a reference names. -/
def State.performRef (s : State) (c ref : Nat) : State :=
  match s.strand? c ref with
  | some t => s.performOwn c (ref % 16) t
  | none => s

/-! Leaving for home. -/

/-- The class in which a request travels (R296). -/
def reqClass : HomeOp → Nat
  | .rcWrite n _ => if n ≤ 256 then urgentClass else bulk
  | .entry _ => bulk
  | .entryPut _ _ _ _ => urgentClass
  | .readLine => urgentClass
  | .word _ => urgentClass
  | .rcRead _ => urgentClass
  | .rcAdd _ => urgentClass
  | .rcSwap _ => urgentClass
  | .rcCas _ _ => urgentClass
/-- Payload bytes of a request. -/
def reqBytes : HomeOp → Nat
  | .rcWrite n _ => n
  | .entry e => entryLen e
  | .entryPut n _ _ _ => n
  | .readLine => 0
  | .word _ => 16
  | .rcRead _ => 0
  | .rcAdd _ => 8
  | .rcSwap _ => 8
  | .rcCas _ _ => 16
/-- The member and type that a window merges, if it does (R73). -/
def mergeable : HomeOp → Option (Amo × AmoTy)
  | .word (.amo .swap _ _) => none
  | .word (.amo m t _) => some (m, t)
  | _ => none
/-- Two members merge: one operation at one width, and of minima and maxima one order (R73, R321). -/
def mergesWith (a b : Amo × AmoTy) : Bool :=
  a.1 == b.1 && amoBytes a.2 == amoBytes b.2 && (a.2 == b.2 || !(a.1 == .min || a.1 == .max))

/-- A fabric switch takes a marked atomic: it joins a merge that agrees with it, or begins one that is forwarded 4,096
clocks later at the latest (R73, R321). -/
def State.intoSwitch (s : State) (r : Req) : State :=
  let part := (r.core, r.slot, r.posted.getD 0)
  let joins (m : Merge) : Bool :=
    !m.gone && m.req.home == r.home && m.req.obj == r.obj && m.req.off == r.off &&
      (mergeable m.req.op).any fun a => (mergeable r.op).any (mergesWith a)
  let both (a b : HomeOp) : HomeOp :=
    match a, b with
    | .word (.amo m t x), .word (.amo _ _ y) =>
      let cut (v : Word) : Nat := v.toNat % 2 ^ (8 * amoBytes t)
      .word (.amo m t (BitVec.ofNat 64 (amoNew m t (cut x) (cut y))))
    | _, _ => a
  let add (m : Merge) : Merge := { m with req := { m.req with op := both m.req.op r.op }, parts := m.parts ++ [part] }
  if s.merges.any joins then { s with merges := updFirst joins add s.merges }
  else
    let id := s.pktNum
    let m : Merge := ⟨id, r, [part], s.cycle, false⟩
    { s with pktNum := id + 1, merges := s.merges ++ [m] }.after 4096 .switchMergeForward [id]

/-- Where an operation that leaves now goes: the home of its byte at this moment (R58, R74), or, of a page that has been
unmapped since or of which a table write has not settled (R313), the home it had at issue (assumption 55). -/
def State.siteNow (s : State) (obj gen off : Nat) (old : Nat × Nat) : Nat × Nat :=
  let t := s.walkResult 0 obj (off / 2 ^ 21)
  let moving := s.writes.any fun w => w.line == obj || w.line == t.pageLine
  if t.ent.ok && t.ent.gen == gen && t.mapped && !moving then s.home ⟨obj, gen, t.ent, off, [t]⟩ off else old
def State.sited (s : State) (r : Req) : Req :=
  let h := s.siteNow r.obj r.gen r.off (r.home, r.addr)
  { r with home := h.1, addr := h.2 }

/-- Sends a request to its home. -/
def State.sendReq (s : State) (r : Req) : State :=
  let r := s.sited r
  s.send r.core r.home (reqClass r.op) (flitsFor (reqBytes r.op)) r.acct (.req r)

/-- Whether an enabled window of the issuing core's die covers an offset of an object (R141, R320). -/
def State.inWindow (s : State) (c obj off : Nat) : Bool :=
  (below 4).any fun i =>
    let w := SMap.get (s.die (posDie c)).win i 0
    let base := bitsOf w 12 28 * 4096
    bitOf w 0 && bitsOf w 40 24 == obj && base ≤ off && off < base + 2 ^ bitsOf w 6 6

/-- Some entry of the core's log below a position that writes a line is not yet acknowledged: a line drain is due (R70). -/
def Log.undrained (l : Log) (obj off upTo : Nat) : Bool :=
  l.ents.any fun e => e.kind != 2 && !e.acked && e.obj == obj && e.off / 64 == off / 64 && e.pos < upTo
/-- Asks the agent to ship up to and including the last such entry (R70). -/
def Log.drainLine (l : Log) (obj off : Nat) : Log :=
  l.ents.foldl (fun l e =>
    if e.kind != 2 && !e.acked && e.obj == obj && e.off / 64 == off / 64 then { l with drain := max l.drain (e.pos + 1) } else l) l

/-- Whether an operation of a strand may leave for its home now: its line is drained, no earlier held operation of the
strand is to the line, and no window atomic of the strand to the line that it cannot join is outstanding (R70, R71,
R321). -/
def State.mayLeave (s : State) (c : Nat) (t : Slot) (earlier : List Held) (r : Req) : Bool :=
  let same (obj off : Nat) : Bool := obj == r.obj && off / 64 == r.off / 64
  !(s.core c).log.undrained r.obj r.off r.tail &&
  !(earlier.any fun h => same h.req.obj h.req.off) &&
  !(t.posted.any fun p => p.window.isSome && same p.obj p.off &&
    !(r.window && p.off == r.off && p.window.any fun a => (mergeable r.op).any (mergesWith a)))

/-- Atomics, which discard the mirror copy of their line when they have been performed (R68). -/
def HomeOp.isAtomic : HomeOp → Bool
  | .word (.amo _ _ _) => true
  | .word (.cas _ _ _) => true
  | _ => false
/-- The reason for which a slot is parked while its operation is at its home (R37, R69). -/
def HomeOp.why : HomeOp → Why
  | .word (.fe _ _) => .word
  | .word (.sw .swwait _) => .sync
  | _ => .remote

/-- A posted operation of a strand leaves: it becomes outstanding. -/
def State.leavePosted (s : State) (t : Slot) (r : Req) : State × Slot :=
  let p : Posted := { num := r.posted.getD 0, home := (s.sited r).home, obj := r.obj, off := r.off
                      window := if r.window then mergeable r.op else none, atomic := r.op.isAtomic, tail := r.tail }
  (s.sendReq r, { t with posted := t.posted ++ [p] })

/-- Sends what a strand holds as soon as it may leave: posted operations in order, then a returning one (R70). A Trapped
strand sends only what exceeds the eight entries of its frame (R366). -/
def State.releaseStrand (s : State) (c : Nat) (t : Slot) : State × Slot :=
  let kept : Nat := if t.run = .trapped then 8 else 0
  let go (acc : (State × Slot) × List Held × Nat) (h : Held) : (State × Slot) × List Held × Nat :=
    if kept < acc.2.2 && acc.1.1.mayLeave c acc.1.2 acc.2.1 h.req then
      (acc.1.1.leavePosted acc.1.2 h.req, acc.2.1, acc.2.2 - 1)
    else (acc.1, acc.2.1 ++ [h], acc.2.2)
  let r := t.held.foldl go ((s, t), [], t.held.length)
  let s := r.1.1
  let t := { r.1.2 with held := r.2.1 }
  match t.wait with
  | some w => match w.req with
    | some q =>
      if s.mayLeave c t t.held q then
        (s.sendReq q, { t with why := q.op.why, wait := some { w with req := none } })
      else (s, t)
    | none => (s, t)
  | none => (s, t)
/-- Sends what a resident strand holds. -/
def State.releaseHeld (s : State) (c n : Nat) : State :=
  let r := s.releaseStrand c (s.slot c n)
  r.1.setSlot c n r.2
/-- Sends what every strand of a core holds, Swapped ones included. -/
def State.releaseAll (s : State) (c : Nat) : State :=
  let s := (below 16).foldl (fun s n => s.releaseHeld c n) s
  let go (acc : State × List (Nat × Slot)) (p : Nat × Slot) : State × List (Nat × Slot) :=
    let r := acc.1.releaseStrand c p.2
    (r.1, acc.2 ++ [(p.1, r.2)])
  let r := (s.core c).swapped.foldl go (s, [])
  r.1.onCore c fun k => { k with swapped := r.2 }

/-- The operations of a slot that count toward the limit of R71. -/
def Slot.outstanding (t : Slot) : Nat := t.posted.length + t.held.length

/-- The word a posted operation sends, as a replay entry holds it (R366). -/
def opData : HomeOp → Word
  | .word (.amo _ _ v) => v
  | .word (.cas _ c _) => c
  | .word (.fe _ v) => v
  | .word (.sw _ v) => v
  | _ => 0

/-- Issues a posted operation: it leaves at once or is held; a seventeenth parks the slot (R70, R71). The replay
record keeps the capability, index, kind, member, type and register it was issued with. -/
def State.post (s : State) (r : Req) (cap : Cap) (index rkind member type reg : Nat) : State :=
  if s.me.outstanding ≥ 16 then s.parkAgain .remote
  else
    let num := s.pktNum
    let s := { s with pktNum := num + 1 }
    let r := { r with posted := some num, window := (mergeable r.op).isSome && s.inWindow s.ic r.obj r.off }
    let s := s.onLog s.ic fun l => l.drainLine r.obj r.off
    if s.mayLeave s.ic s.me s.me.held r then
      let x := s.leavePosted s.me r
      (x.1.setSlot s.ic s.is x.2).retire
    else
      let h : Held := ⟨cap, index, opData r.op, rkind, member, type, reg, num, r⟩
      (s.onSlot s.ic s.is fun t => { t with held := t.held ++ [h] }).retire

/-- Issues a returning operation: the slot parks until the reply. While it waits for its line drain or behind a held
operation the reason is the remote call (R70, R321). -/
def State.ask (s : State) (r : Req) (w : Wait) : State :=
  let ref := s.myRef
  let s := { s with pktNum := s.pktNum + 1 }
  let r := { r with slot := ref }
  let s := if r.op.isAtomic then s.takeOff s.ic { ref := ref, obj := r.obj, line := r.off / 64, atomic := true } else s
  let s := s.onLog s.ic fun l => l.drainLine r.obj r.off
  if s.mayLeave s.ic s.me s.me.held r then (s.parkRef r.op.why ref w).sendReq r
  else s.parkRef .remote ref { w with req := some r }

/-- The request of the issuing slot for one word of a checked access. -/
def State.reqFor (s : State) (t : Xl) (op : HomeOp) : Req :=
  let h := s.home t t.off
  ⟨op, s.ic, s.is, t.obj, t.gen, t.off, h.1, h.2, none, false, (s.core s.ic).log.tail, s.acctOf s.ic s.is⟩

/-! Rights by kind (R51). -/

def State.homeIs (s : State) (h : Nat) : Bool := h == s.ic
/-- Objects a plain load may read. -/
def State.mayLoad (s : State) (e : ObjEnt) (h : Nat) : Bool :=
  match e.kind with
  | 1 => s.homeIs h
  | 2 => s.homeIs h
  | 3 => true
  | 4 => s.homeIs h
  | 5 => s.is == 15 && s.homeIs h
  | 6 => true
  | _ => false
/-- Objects a plain store may write. -/
def State.mayStore (s : State) (e : ObjEnt) (h : Nat) : Bool := e.kind != kCode && s.mayLoad e h
/-- Objects an atomic may reach (R219). -/
def State.mayAmo (s : State) (e : ObjEnt) (h : Nat) : Bool :=
  match e.kind with
  | 1 => s.homeIs h
  | 2 => s.homeIs h
  | 3 => true
  | _ => false
/-- Objects of the full/empty and sync-word families (R221, R351). -/
def State.mayWord (s : State) (e : ObjEnt) (h : Nat) : Bool :=
  match e.kind with
  | 2 => s.homeIs h
  | 3 => true
  | _ => false

/-- The place of a checked access that is served in place. -/
def State.placeOf (s : State) (t : Xl) : Place :=
  let h := s.home t t.off
  if t.ent.kind = kScratch then .scratch h.1 h.2 else .vault h.1 h.2

/-- Accesses of 16 bytes to the scratchpad are charged (R357). -/
def State.chargeScratch (s : State) (n : Nat) : State := s.charge (s.acctOf s.ic s.is) (3 * ((n + 15) / 16))

/-- Whether an operation reads the word it acts on, so that poison ends it (R191, R211). -/
def WordOp.reads : WordOp → Bool
  | .fe .sete _ => false
  | .fe .setf _ => false
  | .fe .stp _ => false
  | .amo _ _ _ => true
  | .cas _ _ _ => true
  | .fe .ldc _ => true
  | .fe .ldf _ => true
  | .fe .feq _ => true
  | .sw _ _ => true

/-- The bytes that an operation acts on. -/
def WordOp.bytes : WordOp → Nat
  | .amo _ t _ => amoBytes t
  | .cas t _ _ => amoBytes t
  | .fe _ _ => 8
  | .sw _ _ => 8

/-- A returning word operation, served locally on the scratchpad: it completes now, or waits on the local list (R219–R222,
R258). `o` is its object offset. -/
def State.wordHere (s : State) (p : Place) (op : WordOp) (why : Why) (done : State → Word → State) (w : Wait) (o : Nat) : State :=
  let off := p.loc - scratchLoc s.ic 0
  s.unlessHeld [.scratch off (off + op.bytes)] op.alters <|
  let s := (s.chargeScratch op.bytes).meetFaults s.ic p.loc op.bytes
  if op.reads && s.poisoned p.loc op.bytes then s.trap causePoison o (memValue w.knum 0)
  else match s.wordStep p op (s.acctOf s.ic s.is) with
  | some r => (done r.1 r.2.1).wakeWord p r.2.2
  | none =>
    let ref := s.myRef
    let s := { s with pktNum := s.pktNum + 1 }
    (s.parkRef why ref { w with left := 1 }).onCore s.ic fun k => { k with waiters := k.waiters ++ [⟨p.loc, op, s.ic, ref, s.acctOf s.ic s.is⟩] }

end Sys2Proof.Machine
end

