-- ==== Sys2Proof/Machine/MemInstr.lean ====
section
/-!
DEFINITION. Page 3: scalar and vector loads and stores, the side log and the capability instructions (R205–R215), and
the mirror flush (R224).
-/
namespace Sys2Proof.Machine

/-! Loads. -/

/-- Whether the write queue holds a byte of the vault (R209). -/
def Vault.queued (v : Vault) (a : Nat) : Bool := v.wq.any fun e => e.line == a / 64 && bitOf e.mask (a % 64)
/-- The 256-byte blocks of the vault from which bytes are still needed: those the write queue does not hold (R208). -/
def Vault.blocksOf (v : Vault) (ps : List (Nat × Nat)) : List Nat :=
  ps.foldl (fun acc p =>
    ((upFrom p.1 p.2).filter fun a => !v.queued a).foldl (fun acc a =>
      if acc.contains (a / 256) then acc else acc ++ [a / 256]) acc) []

/-- A register image line that the register cache holds (R131). -/
def State.cachedImage (s : State) (c a : Nat) : Bool := (s.core c).rc.any fun l => l.addr == a / 256 * 256

/-- The bytes and the tag that the overlay and the mirror give of a shared object's byte. -/
def State.nearByte (s : State) (obj x : Nat) : Option Byte :=
  let k := s.core s.ic
  (k.log.byte? obj x).orElse fun _ =>
    (k.mirror.find? fun m => m.obj == obj && m.line == x / 64).map fun m => byteOf m.data.toNat (x % 64)
/-- The tag of a shared granule as the overlay and the mirror give it: the newest entry's, else the mirror line's. -/
def State.nearTag (s : State) (obj x : Nat) : Bool :=
  let k := s.core s.ic
  let hit := (k.log.overlay obj (x / 64)).filter fun e => e.off < x + 16 && x < e.off + entryBytes e.size
  match hit.getLast? with
  | some e => e.kind == 1 && e.tag && e.off == x
  | none => ((k.mirror.find? fun m => m.obj == obj && m.line == x / 64).map fun m => m.tags.getLsbD (x % 64 / 16)).getD false

/-- Where the mirror region keeps a way of a line's set (R187, R203). -/
def Core.mirrorAddr (k : Core) (obj line way : Nat) : Nat :=
  0x6BC00000 + ((obj <<< 34) ^^^ line) % (max 1 k.mirsize * 2048) * 512 + way * 64
/-- The ring address of a log position (R187). -/
def Log.ringAddr (l : Log) (pos : Nat) : Nat := 0x6FC00000 + pos % (l.size * 2 ^ 20)
/-- Where the vault holds a byte of a shared object that is near: in the ring, at the newest entry that covers it (R187,
R204), else in the mirror; with the line's place among the ways of its set. -/
def Core.nearAddr (k : Core) (obj x : Nat) : Nat :=
  let covers (e : LogEnt) : Bool :=
    e.off ≤ x && x < e.off + entryBytes e.size && (e.size != 0 || bitOf e.mask (x - e.off))
  match ((k.log.overlay obj (x / 64)).filter covers).getLast? with
  | some e => k.log.ringAddr (e.pos + 16 + (x - e.off))
  | none =>
    let way := ((k.mirror.find? fun m => m.obj == obj && m.line == x / 64).map (·.way)).getD 0
    k.mirrorAddr obj (x / 64) way + x % 64

/-- Ends a wait two clocks from now, without a transfer (R208). -/
def State.endSoon (s : State) (c ref : Nat) : State :=
  let p : Packet := { id := s.pktNum, src := c, dst := c, cls := urgentClass, flits := 0, body := .reply c ref 0 0 none }
  ({ s with pktNum := s.pktNum + 1, packets := SMap.set s.packets p.id p }).after 2 .remoteReply [p.id]

/-- The home-read request for a line of a shared object. -/
def State.lineReq (s : State) (t : Xl) (ref line : Nat) : Req :=
  let h := s.home t (line * 64)
  ⟨.readLine, s.ic, ref, t.obj, t.gen, line * 64, h.1, h.2, none, false, 0, s.acctOf s.ic s.is⟩

/-- The bytes of pieces that the overlay or the mirror gives, by where the vault holds them. -/
def State.nearPieces (s : State) (obj : Nat) (ps : List Piece) : List Piece :=
  let k := s.core s.ic
  ps.flatMap fun p => ((below p.n).filter fun i => (s.nearByte obj (p.off + i)).isSome).map fun i =>
    { key := p.key + i, off := p.off, addr := k.nearAddr obj (p.off + i), n := 1 }
/-- Serves the bytes of a load, given as (key, object offset, length): in place at once on the scratchpad, else through
the vault or the home with the slot parked (R63, R208). A load whose lines the mirror holds reads them, for the replacement of
R203, also where the overlay gives every byte of it, which the rule does not say (assumption 72). -/
def State.loadPieces (s : State) (t : Xl) (ps : List (Nat × Nat × Nat)) (w : Wait) : State :=
  let pieces := ps.map fun p => ({ key := p.1, off := p.2.1, addr := (s.home t p.2.1).2, n := p.2.2 } : Piece)
  let regions := if t.ent.kind = kShared ∨ t.ent.kind = kCode then []
    else pieces.map fun p => regionOf t.ent.kind t.obj p.off p.addr p.n
  s.unlessHeld regions false <|
  let w := { w with reads := pieces }
  if t.ent.kind = kScratch then
    let s := s.chargeScratch (sumList (ps.map fun p => p.2.2))
    let c := s.ic
    let loc (p : Piece) : Nat := scratchLoc c p.addr
    let s := pieces.foldl (fun s p => s.meetFaults c (loc p) p.n) s
    match pieces.find? fun p => s.poisoned (loc p) p.n with
    | some p => s.trap causePoison p.off (memValue w.knum (elemOfKey w p.key))
    | none =>
      let w := { w with reads := [], bytes := pieces.flatMap fun p => s.readCells (loc p) p.key p.n
                        tag := (pieces.head?.map fun p => s.tagAt (loc p)).getD false }
      (s.writeFin s.ic s.is w (s.cycle + 15)).retire
  else if t.ent.kind = kShared ∨ t.ent.kind = kCode then
    let near := pieces.flatMap fun p =>
      (below p.n).filterMap fun i => (s.nearByte t.obj (p.off + i)).map fun b => (p.key + i, b)
    let far := pieces.filter fun p => (below p.n).any fun i => (s.nearByte t.obj (p.off + i)).isNone
    let lines := far.foldl (fun acc p => if acc.contains (p.off / 64) then acc else acc ++ [p.off / 64]) []
    let here := (pieces.filter fun p => !lines.contains (p.off / 64)).map fun p => p.off / 64
    let nearPs := s.nearPieces t.obj pieces
    let nearBlocks := nearPs.foldl (fun acc p => if acc.contains (p.addr / 256) then acc else acc ++ [p.addr / 256]) []
    let ref := s.myRef
    let s := { s with pktNum := s.pktNum + 1 }
    let tag := match pieces with
      | p :: _ => s.nearTag t.obj p.off
      | [] => false
    let w := { w with bytes := near, reads := far, tag, left := lines.length + nearBlocks.length, near := nearPs }
    let s := s.parkRef .remote ref w
    let touch (m : MirLine) : MirLine := if m.obj == t.obj && here.contains m.line then { m with used := s.cycle } else m
    let s := s.onCore s.ic fun k => { k with mirror := k.mirror.map touch }
    let s := nearBlocks.foldl (fun s b => s.vreq s.ic (b * 256) 1 (.slot ref) (s.acctOf s.ic s.is)) s
    lines.foldl (fun s l => (s.takeOff s.ic { ref := ref, obj := t.obj, line := l }).sendReq (s.lineReq t ref l)) s
  else if pieces.all fun p => s.cachedImage s.ic p.addr then
    (s.writeFin s.ic s.is (s.readPieces s.ic w) (s.cycle + 15)).retire
  else
    let blocks := (s.core s.ic).vault.blocksOf (pieces.map fun p => (p.addr, p.n))
    let ref := s.myRef
    let s := { s with pktNum := s.pktNum + 1 }
    let s := s.parkRef .remote ref { w with left := max 1 blocks.length }
    if blocks.isEmpty then s.endSoon s.ic ref
    else blocks.foldl (fun s b => s.vreq s.ic (b * 256) 1 (.slot ref) (s.acctOf s.ic s.is)) s

/-- Whether an entry of the slot's side log covers a byte of a range (R214). -/
def State.sideCovers (s : State) (k : Cap) (e n : Nat) : Bool :=
  (below (s.sideUsed s.ic s.is)).any fun j =>
    let h := s.readMem (s.sideLoc s.ic s.is + 64 * j) 16
    let off := bitsOf h 32 40
    k.tag && bitsOf h 0 24 == k.obj && e < off + bitsOf h 72 6 && off < e + n

/-- A scalar load (R211). -/
def State.load (s : State) (t : MemTy) (d : Gpr) (k : Kr) (x : Nat) : State :=
  let n := t.bytes
  if s.sideCovers (s.cap k) ((s.cap k).base + x) n then s.sideTrap
  else s.withChk (s.chk k x n rR n 0 false s.mayLoad) fun t' =>
    s.loadPieces t' [(0, t'.off, n)] { fin := .load d n t.isNat, knum := k.toNat }

/-! Stores. -/

/-- A list of written bytes with the last write to each, in rising order. -/
def lastWins (ws : List (Nat × Byte)) : SMap Byte := ws.foldl (fun m p => SMap.set m p.1 p.2) []
/-- The bytes of a number at consecutive offsets. -/
def bytesAt (off x : Nat) : Nat → List (Nat × Byte)
  | 0 => []
  | n + 1 => (off, BitVec.ofNat 8 x) :: bytesAt (off + 1) (x / 256) n

/-- Cuts rising bytes into contiguous runs of at most 48 (R213). -/
def runs48 (cur : List (Nat × Byte)) : List (Nat × Byte) → List (List (Nat × Byte))
  | [] => if cur.isEmpty then [] else [cur.reverse]
  | p :: r =>
    match cur with
    | [] => runs48 [p] r
    | q :: _ =>
      if p.1 = q.1 + 1 ∧ cur.length < 48 then runs48 (p :: cur) r else cur.reverse :: runs48 [p] r

/-- The 64 bytes of a side-log entry (R213). -/
def sideEntry (obj gen : Nat) (run : List (Nat × Byte)) : Nat :=
  let off := (run.head?.map (·.1)).getD 0
  run.length * 2 ^ 72 + off % 2 ^ 40 * 2 ^ 32 + gen % 256 * 2 ^ 24 + obj % 2 ^ 24 +
    2 ^ 128 * run.foldr (fun p acc => acc * 256 + p.2.toNat) 0

/-- The bytes of side-log entries from the first free one on, by vault address. -/
def State.sideCells (s : State) (obj gen : Nat) (rs : List (List (Nat × Byte))) : List Host.Cell :=
  (List.zip (upFrom (s.sideUsed s.ic s.is) rs.length) rs).flatMap fun p =>
    natCells (s.me.ctxbase + 0x8800 + 64 * p.1) (sideEntry obj gen p.2) 64

/-- Objects whose contents a slot cannot change: the core tables (R319). -/
def frozenObj (obj : Nat) : Bool := 0x10 ≤ obj && obj < 0x28
/-- Whether a die's core table lies at a vault address of its lowest logical core, by whatever object it is named (R319,
assumption 9). -/
def State.inCoreTable (s : State) (c a : Nat) : Bool :=
  0x7FD9C000 ≤ a && a < 0x7FD9E000 && (s.logical.find? fun x => posDie x == posDie c) == some c

/-- Writes bytes of the core's own vault: those of lines that the register cache holds reach the registers at the commit
clock (R127, R131), the others enter the write queue in increasing address order, and the slot waits until the last line has
entered (R208, R209). -/
def State.storeCells (s : State) (cells : List Host.Cell) (cap : Option (Nat × Cap)) : State :=
  let cells := cells.foldl (fun (m : SMap Byte) p => SMap.set m p.1 p.2) []
  let held := cells.filter fun p => s.cachedImage s.ic p.1
  let rest := cells.filter fun p => !s.cachedImage s.ic p.1
  let ref := s.myRef
  let s := { s with pktNum := s.pktNum + 1 }
  let s := if held.isEmpty then s else
    let lines := held.map fun p => p.1 / 256 * 256
    (s.onCore s.ic fun k => { k with imgs := k.imgs ++ [⟨s.cycle + 15, held, cap⟩] }).onCore s.ic fun k =>
      { k with rc := k.rc.map fun x => if lines.contains x.addr then { x with dirty := true } else x }
  let s := s.vaultWriteCap s.ic rest (s.acctOf s.ic s.is) (.slot ref) cap
  if s.isLate s.ic (.slot ref) then s.parkRef .remote ref { fin := .queued, left := 1 } else s.retire

/-- The bytes of a store in place, by vault address; the core tables cannot be changed (R319). -/
def State.placeCells (s : State) (t : Xl) (ws : SMap Byte) : List Host.Cell :=
  if frozenObj t.obj then [] else
    (ws.map fun p => ((s.home t p.1).2, p.2)).filter fun p => !s.inCoreTable s.ic p.1

/-- The bytes of an entry in the ring (R202), but for its check word, which is not computed (assumption 18). -/
def LogEnt.ringNat (e : LogEnt) : Nat :=
  e.obj % 2 ^ 24 + e.gen % 256 * 2 ^ 24 + e.size % 4 * 2 ^ 32 + e.kind % 4 * 2 ^ 34 + e.off % 2 ^ 40 * 2 ^ 40 +
    e.mask % 256 * 2 ^ 80 + e.data.toNat % 256 ^ entryBytes e.size * 2 ^ 128
/-- Where entries appended at a position lie in the ring, byte by byte (R54). -/
def Log.ringCells (l : Log) (pos : Nat) : List LogEnt → List Host.Cell
  | [] => []
  | e :: r => (natCells 0 e.ringNat (entryLen e)).map (fun b => (l.ringAddr (pos + b.1), b.2)) ++ l.ringCells (pos + entryLen e) r
/-- Entries are appended to a core's log, and their bytes go into its ring through the write queue (R54, R209). -/
def State.appendLog (s : State) (c : Nat) (es : List LogEnt) (acct : Option Nat) (who : Writer) : State :=
  let l := (s.core c).log
  (s.onLog c fun l => l.append es).vaultWrite c (l.ringCells l.tail es) acct who
/-- Appends the entries of a store to the log, or parks until there is room (R56). The slot waits until the last line of the
ring has entered the write queue (R208, R209). -/
def State.storeLog (s : State) (es : List LogEnt) : State :=
  if (s.core s.ic).log.room es then
    let ref := s.myRef
    let s := { s with pktNum := s.pktNum + 1 }.appendLog s.ic es (s.acctOf s.ic s.is) (.slot ref)
    if s.isLate s.ic (.slot ref) then s.parkRef .remote ref { fin := .queued, left := 1 } else s.retire
  else s.notIssued.park .logFull { fin := .again, left := 1 }

/-- Writes the bytes of a store, as groups in the order of its elements (R201, R208, R212, R213). `knum` is the number of
the capability register and `elem` gives the element that writes a byte, for the value of `SIDE_FULL` (R207, R361;
assumption 56). -/
def State.storeBytes (s : State) (t : Xl) (groups : List (List (Nat × Byte))) (knum : Nat) (elem : Nat → Nat) : State :=
  let all := lastWins (groups.flatMap id)
  let regions := if t.ent.kind = kShared then [] else all.map fun p => regionOf t.ent.kind t.obj p.1 (s.home t p.1).2 1
  s.unlessHeld regions true <|
  if t.ent.kind = kScratch then
    let s := s.chargeScratch all.length
    let s := s.writeCells (all.map fun p => (scratchLoc s.ic (s.home t p.1).2, p.2))
    (all.foldl (fun s p => s.wakeRange (.scratch s.ic (s.home t p.1).2) 1) s).retire
  else if t.ent.kind = kShared then
    s.storeLog (groups.flatMap fun g => logEntries t (s.home t) (byLine g))
  else
    let here := all.filter fun p => t.mapped p.1
    let side := all.filter fun p => !t.mapped p.1
    let rs := runs48 [] side
    if 32 < s.sideUsed s.ic s.is + rs.length then
      let x := (side.head?.map (·.1)).getD 0
      s.trap causeSideFull x (memValue knum (elem x))
    else s.storeCells (s.sideCells t.obj t.gen rs ++ s.placeCells t here) none

/-- A check of a store: an unmapped page fails it only if the object is not private. -/
def State.chkStore (s : State) (k : Kr) (x n need align elem : Nat) (kind : ObjEnt → Nat → Bool) : Chk :=
  match s.chk k x n need align elem true kind with
  | .ok t => if t.ent.kind = kPrivate then .ok t else s.chk k x n need align elem false kind
  | r => r

/-- A scalar store (R211). -/
def State.store (s : State) (t : MemTy) (d : Gpr) (k : Kr) (x : Nat) : State :=
  let n := t.bytes
  s.withChk (s.chkStore k x n rW n 0 s.mayStore) fun t' =>
    s.storeBytes t' [bytesAt t'.off (s.gpr d).toNat n] k.toNat fun _ => 0

/-- `LD` (R211). -/
def execLd (t : MemTy) (d : Gpr) (k : Kr) (b : Gpr) (s : State) : Host.Outcome State Fault Refusal :=
  s.guarded (s.load t d k (s.gpr b).toNat)
/-- `LDI` (R211). -/
def execLdi (t : MemTy) (d : Gpr) (k : Kr) (i : Imm) (s : State) : Host.Outcome State Fault Refusal :=
  s.guarded (s.load t d k i.val)
/-- `ST` (R211). -/
def execSt (t : MemTy) (d : Gpr) (k : Kr) (b : Gpr) (s : State) : Host.Outcome State Fault Refusal :=
  s.guarded (s.store t d k (s.gpr b).toNat)
/-- `STI` (R211). -/
def execSti (t : MemTy) (d : Gpr) (k : Kr) (i : Imm) (s : State) : Host.Outcome State Fault Refusal :=
  s.guarded (s.store t d k i.val)

/-! Vector loads and stores (R212). -/

/-- The index of element `i`, signed: contiguous, strided or gathered. -/
def State.vindex (s : State) (w : Nat) (x : VIdx) : List Int :=
  let es := below (elemCount w)
  match x with
  | .contiguous b => es.map fun i => (((s.gpr b).toNat + i * (w / 8) : Nat) : Int)
  | .strided b => es.map fun (i : Nat) => ((s.gpr b).toNat : Int) + (i : Int) * (s.gpr (nextGpr b)).toInt
  | .gather b => (elems w (s.vec b)).map fun e => ((e : Nat) : Int)

/-- Steps 4, 5 and 7 of R50 for one element: where it lies, or the cause and offset with which it fails. -/
inductive ElemChk where
  | good (e : Nat)
  | fail (cause e : Nat)
deriving DecidableEq, Repr

def State.chkElem (s : State) (k : Cap) (t : Tlb) (x : Int) (n : Nat) (side : Bool) : ElemChk :=
  let e : Int := k.base + x
  if x < 0 then .fail causeBounds (toBits 64 e)
  else
    let e := e.toNat
    if k.limit < e + n || t.ent.len < e + n then .fail causeBounds e
    else if e % n != 0 then .fail causeAlign e
    else if k.obj = aliasObj then .good e
    else match s.lookup s.ic s.is k.obj (e / 2 ^ 21) with
      | none => .fail causePage e
      | some p => if p.mapped || (side && t.ent.kind == kPrivate) then .good e else .fail causePage e

/-- The checked elements of a vector access: their translations, and the offset of each active element; or why not. -/
inductive VChk where
  | ok (t : Xl) (els : List (Nat × Nat))
  | walk (pages : List (Nat × Nat))
  | bad (cause addr value : Nat)
deriving DecidableEq, Repr

/-- The first failing element, in rising order. -/
def firstFail : List (Nat × ElemChk) → Option (Nat × Nat × Nat)
  | [] => none
  | (i, .fail c e) :: _ => some (i, c, e)
  | (_, .good _) :: r => firstFail r

/-- The checks of `VLD` and `VST` (R212), for which one walk is started for each page that an element within the capability's
limit lies in (R315), or, where there is none, for the page of the capability's base (assumption 54). -/
def State.chkVec (s : State) (k : Kr) (need n : Nat) (side : Bool) (kind : ObjEnt → Nat → Bool)
    (xs : List (Nat × Int)) : VChk :=
  let cap := s.cap k
  let v := memValue k.toNat 0
  if !cap.tag then .bad causeCapTag cap.base v
  else if cap.obj = aliasObj ∧ (s.aliasEntry s.ic s.is).isNone then .bad causeRights cap.base v
  else
    let inside := xs.filter fun p => 0 ≤ p.2 && cap.base + p.2.toNat + n ≤ cap.limit
    let touched := inside.foldl (fun acc p =>
      let page := (cap.base + p.2.toNat) / 2 ^ 21
      if acc.contains page then acc else acc ++ [page]) []
    let touched := if touched.isEmpty then [cap.base / 2 ^ 21] else touched
    let missing := touched.filter fun p => (s.lookup s.ic s.is cap.obj p).isNone
    match missing, s.lookup s.ic s.is cap.obj (touched.headD 0) with
    | _ :: _, _ => .walk (missing.map fun p => (cap.obj, p))
    | [], none => .walk (missing.map fun p => (cap.obj, p))
    | [], some t =>
      let ent := t.ent
      let home (p : Nat × Int) : Nat :=
        let x := cap.base + p.2.toNat
        s.testHome s.ic ((s.lookup s.ic s.is cap.obj (x / 2 ^ 21)).getD t) x
      if !ent.ok || ent.kind == 0 || cap.gen != ent.gen then .bad causeCapTag cap.base v
      else if !cap.holds need || xs.any (fun p => !kind ent (home p)) then .bad causeRights cap.base v
      else if ent.sec && !s.me.world then .bad causeWorld cap.base v
      else
        let rs := xs.map fun p => (p.1, s.chkElem cap t p.2 n side)
        match firstFail rs with
          | some (i, c, e) => .bad c e (memValue k.toNat i)
          | none =>
            let els := rs.filterMap fun r => match r.2 with
              | .good e => some (r.1, e)
              | .fail _ _ => none
            let ps := els.foldl (fun acc p => if acc.contains (p.2 / 2 ^ 21) then acc else acc ++ [p.2 / 2 ^ 21]) []
            let tl := if cap.obj = aliasObj then [t] else ps.filterMap fun p => s.lookup s.ic s.is cap.obj p
            .ok ⟨cap.obj, ent.gen, ent, cap.base, tl⟩ els

/-- The active elements with their indices. -/
def State.activeIdx (s : State) (w : Nat) (x : VIdx) : List (Nat × Int) :=
  ((List.zip (activeList w s.guardMask) (List.zip (below (elemCount w)) (s.vindex w x))).filter (·.1)).map (·.2)

/-- `VLD` (R212). -/
def execVld (w : Width) (d : Vr) (k : Kr) (x : VIdx) (s : State) : Host.Outcome State Fault Refusal :=
  let n := w.bits / 8
  let xs := s.activeIdx w.bits x
  .next (
    if xs.isEmpty then s.retire
    else if xs.any fun p => 0 ≤ p.2 && s.sideCovers (s.cap k) ((s.cap k).base + p.2.toNat) n then s.sideTrap
    else match s.chkVec k rR n false s.mayLoad xs with
      | .walk ps => s.walkFor ps
      | .bad c a v => s.badChk c a v
      | .ok t els =>
        (s.loadPieces t (els.map fun p => (p.1 * n, p.2, n))
          { fin := .vload d n (els.map fun p => (p.1, p.1 * n)), knum := k.toNat }).installWalked s.ic (s.walkedFor t.obj))

/-- `VST`: where two elements write the same byte the higher stands (R212). -/
def execVst (w : Width) (d : Vr) (k : Kr) (x : VIdx) (s : State) : Host.Outcome State Fault Refusal :=
  let n := w.bits / 8
  let xs := s.activeIdx w.bits x
  .next (
    if xs.isEmpty then s.retire
    else match s.chkVec k rW n true s.mayStore xs with
      | .walk ps => s.walkFor ps
      | .bad c a v => s.badChk c a v
      | .ok t els =>
        let data := (s.vec d).toNat
        let gs := els.map fun p => bytesAt p.2 (data / 2 ^ (w.bits * p.1)) n
        let scatter := match x with
          | .gather _ => true
          | .contiguous _ => false
          | .strided _ => false
        let elem (b : Nat) : Nat := ((els.find? fun p => p.2 ≤ b && b < p.2 + n).map (·.1)).getD 0
        (s.storeBytes t (if scatter then gs else [lastWins (gs.flatMap id)]) k.toNat elem).installWalked s.ic (s.walkedFor t.obj))

/-! Capability instructions (R215). -/

/-- `CAPLD`. -/
def execCapld (d k : Kr) (b : Gpr) (s : State) : Host.Outcome State Fault Refusal :=
  let x := (s.gpr b).toNat
  s.guarded (
    if s.sideCovers (s.cap k) ((s.cap k).base + x) 16 then s.sideTrap
    else s.withChk (s.chk k x 16 (rR + rK) 16 0 false s.mayLoad) fun t =>
      s.loadPieces t [(0, t.off, 16)] { fin := .capld d, knum := k.toNat })

/-- The group's own scratchpad allocation, or a `private` object whose byte is homed here; a byte of an unmapped page has no
other home (R48, R215, assumption 27). -/
def State.ownTarget (s : State) (t : Xl) : Bool :=
  t.obj == aliasObj || (s.me.bank < 16 && t.obj == s.scratchObj s.ic s.me.bank) ||
  (t.ent.kind == kPrivate && (!t.mapped t.off || (s.home t t.off).1 == s.ic))

/-- `CAPST`. -/
def execCapst (d k : Kr) (b : Gpr) (s : State) : Host.Outcome State Fault Refusal :=
  let c := s.cap d
  s.guarded (s.withChk (s.chkStore k (s.gpr b).toNat 16 (rW + rK) 16 0 s.mayStore) fun t =>
    if c.tag && !c.holds rG && !s.ownTarget t then s.trap causeRights (s.cap k).base (memValue k.toNat 0)
    else if t.ent.kind = kScratch then
      let p := s.placeOf t
      s.unlessHeld [regionOf t.ent.kind t.obj t.off (s.home t t.off).2 16] true <|
        (((s.chargeScratch 16).writeCap p.loc c).wakeRange p 16).retire
    else if t.ent.kind = kShared then
      let h := s.home t t.off
      s.storeLog [{ pos := 0, kind := 1, size := 1, mask := 0xFF, off := t.off, gen := t.gen, obj := t.obj
                    data := BitVec.ofNat 512 c.bits.toNat, tag := c.tag, home := h.1, addr := h.2 }]
    else if t.mapped t.off then
      let a := (s.home t t.off).2
      if frozenObj t.obj || s.inCoreTable s.ic a then s.retire
      else s.unlessHeld [regionOf t.ent.kind t.obj t.off a 16] true (s.storeCells (natCells a c.bits.toNat 16) (some (a, c)))
    else s.storeBytes t [bytesAt t.off c.bits.toNat 16] k.toNat fun _ => 0)

/-- `CAPNARROW`: no table is consulted. -/
def execCapnarrow (d k : Kr) (b : Gpr) (s : State) : Host.Outcome State Fault Refusal :=
  let c := s.cap k
  let base := c.base + (s.gpr b).toNat
  let r := (s.gpr (nextGpr b)).toNat
  let limit := base + bitsOf r 0 40
  s.guarded (
    if !c.tag then s.trap causeCapTag c.base k.toNat
    else if !c.holds rN then s.trap causeRights c.base k.toNat
    else if c.limit < limit then s.trap causeBounds (base % 2 ^ 64) k.toNat
    else (s.putCap d (Cap.make limit base (c.rights &&& bitsOf r 56 8) c.gen c.obj)).retire)

/-- The field that `CAPOFF` selects. -/
def capField (c : Cap) (sel : Nat) : Word :=
  match sel with
  | 0 => BitVec.ofNat 64 c.base
  | 1 => BitVec.ofNat 64 c.limit
  | 2 => BitVec.ofNat 64 c.rights
  | 3 => BitVec.ofNat 64 c.gen
  | 4 => BitVec.ofNat 64 c.obj
  | 5 => if c.tag then 1 else 0
  | _ => BitVec.ofNat 64 c.limit - BitVec.ofNat 64 c.base

/-- `CAPOFF`. -/
def execCapoff (d : Gpr) (k : Kr) (s' : BitVec 3) (s : State) : Host.Outcome State Fault Refusal :=
  s.guarded (s.putGpr d (capField (s.cap k) s'.toNat)).retire

/-! The mirror flush (R224). -/

/-- The slot with the translations of pages at hand, read from the table without a park: `MIRFL` never parks (R224,
assumption 57). -/
def State.prewalk (s : State) (c n obj : Nat) (pages : List Nat) : State :=
  s.onSlot c n fun t => { t with walked := t.walked ++ pages.map fun p => s.walkResult n obj p }

/-- `MIRFL` of a range, which discards nothing for an object that is neither `shared` nor `code` (R224): of step 7 of R50, the
page that holds its first byte must be mapped. -/
def execMirfl (d : Gpr) (k : Kr) (b : Gpr) (s : State) : Host.Outcome State Fault Refusal :=
  let n := (s.gpr d).toNat
  let x := (s.gpr b).toNat
  let c := s.cap k
  let pages := [(c.base + x) / 2 ^ 21]
  let look := if c.tag then s.prewalk s.ic s.is c.obj (pages ++ [c.base / 2 ^ 21]) else s
  s.guarded (s.withChk (look.checkSpan s.ic s.is c k.toNat x n rR 1 0 false (fun _ _ => true) pages) fun t =>
    if t.ent.kind = kShared ∨ t.ent.kind = kCode then
      (s.onCore s.ic fun c => c.dropLines fun o l => o == t.obj && n > 0 && t.off / 64 ≤ l && l ≤ (t.off + n - 1) / 64).retire
    else s.retire)

/-- `MIRFL` of every line. -/
def execMirflAll (s : State) : Host.Outcome State Fault Refusal :=
  s.guarded (s.onCore s.ic fun c => c.dropLines fun _ _ => true).retire

end Sys2Proof.Machine
end

