-- ==== Sys2Proof/Machine/Trans.lean ====
section
/-!
DEFINITION. The estimates of R180 and the transcendental functions of R184, by fixed-point series of 256 bits: far finer
than any `f32` rounding point lies to a value of these functions (assumption 7).
-/
namespace Sys2Proof.Machine

/-- Fraction bits of the fixed-point numbers. -/
abbrev fxBits : Nat := 256
abbrev fxOne : Nat := 2 ^ 256
/-- A bound on the error of a series, in units of the last fraction bit. -/
abbrev fxSlack : Nat := 2 ^ 40

/-- 2 × Σ z^(2j+1) / (2j+1), the series of ln((1 + z) / (1 − z)); `p` is the current power of z. -/
def atanhSum (z2 : Nat) (p j acc : Nat) : Nat → Nat
  | 0 => 2 * acc
  | n + 1 => atanhSum z2 (p * z2 / fxOne) (j + 1) (acc + p / (2 * j + 1)) n
/-- ln(a / b) for 1 ≤ a / b ≤ 2, in fixed point. -/
def fxLn (a b : Nat) : Nat :=
  let z := (a - b) * fxOne / (a + b)
  atanhSum (z * z / fxOne) z 0 0 90
/-- ln 2. -/
def fxLn2 : Nat := fxLn 2 1
/-- Σ y^j / j!, the series of e^y for 0 ≤ y < 1. -/
def expSum (y t j acc : Nat) : Nat → Nat
  | 0 => acc
  | n + 1 => expSum y (t * y / fxOne / (j + 1)) (j + 1) (acc + t) n
def fxExp (y : Nat) : Nat := expSum y fxOne 0 0 70

/-- A fixed-point number that lies near, and never on, a rounding point: a value just below it (odd, R184). -/
def nearFx (neg : Bool) (x : Nat) (e : Int) : Fv := .fin neg (2 * x + 1) (e - fxBits - 1)

/-- m × 2^e in fixed point, rounded down, and whether it is whole there. -/
def toFx (m : Nat) (e : Int) : Nat :=
  let k : Int := e + fxBits
  if 0 ≤ k then m * 2 ^ k.toNat else m / 2 ^ (-k).toNat

/-- 2^(n + y / 2^256) for 0 ≤ y < 2^256. -/
def exp2Fx (n : Int) (y : Nat) : Fv := nearFx false (fxExp (y * fxLn2 / fxOne)) n

/-- A positive value below every rounding threshold of a format, or above every finite number. -/
def tinyValue : Fv := .fin false 1 (-100000)
def hugeValue : Fv := .fin false 1 100000

/-- 2^x for a finite x: exact for integers. -/
def exp2Value (neg : Bool) (m : Nat) (e : Int) : Fv :=
  if m = 0 then .fin false 1 0
  else if 12 < e + Nat.log2 m then (if neg then tinyValue else hugeValue)
  else if e + Nat.log2 m < -200 then nearFx false (if neg then fxOne - 1 else fxOne) 0
  else
    let x := toFx m e
    let whole := x / fxOne
    let frac := x % fxOne
    if frac = 0 then .fin false 1 (if neg then -(whole : Int) else whole)
    else if neg then exp2Fx (-(whole : Int) - 1) (fxOne - frac)
    else exp2Fx whole frac

/-- log₂ x for a finite x > 0: exact for powers of two. -/
def log2Value (m : Nat) (e : Int) : Fv :=
  let k : Int := e + Nat.log2 m
  let one := 2 ^ Nat.log2 m
  if m = one then intValue k
  else
    let f : Int := ((fxLn m one) * fxOne / fxLn2 : Nat)
    let r : Int := k * fxOne + f
    nearFx (r < 0) r.natAbs 0

/-- e^−y in fixed point as (significand, exponent): e^−y = s × 2^(−k) for 0 ≤ y, s in [1, 2). -/
def expNeg (y : Nat) : Nat × Nat :=
  let l := y * fxOne / fxLn2
  let k := l / fxOne + 1
  (fxExp ((fxOne - l % fxOne) * fxLn2 / fxOne), k)

/-- tanh x for a finite nonzero |x| < 9.5. -/
def tanhValue (neg : Bool) (m : Nat) (e : Int) : Fv :=
  if e + Nat.log2 m < -13 then .fin neg (m * 2 ^ 30 - 1) (e - 30)
  else
    let u := expNeg (2 * toFx m e)
    let v := u.1 / 2 ^ u.2
    nearFx neg ((fxOne - v) * fxOne / (fxOne + v)) 0

/-- 1 / (1 + e^−x) for a finite nonzero x < 17.5. -/
def sigmValue (neg : Bool) (m : Nat) (e : Int) : Fv :=
  if neg ∧ 12 < e + Nat.log2 m then tinyValue
  else if e + Nat.log2 m < -200 then nearFx false (if neg then fxOne / 2 - 1 else fxOne / 2) 0
  else
    let u := expNeg (toFx m e)
    if neg then nearFx false (u.1 * fxOne / (fxOne + u.1 / 2 ^ u.2)) (-(u.2 : Int))
    else nearFx false (fxOne * fxOne / (fxOne + u.1 / 2 ^ u.2)) 0

/-- The members of R184. -/
inductive Trans where
  | exp2 | log2 | tanh | sigm
deriving DecidableEq, Repr

/-- |x| is at least n / 2. -/
def atLeastHalves (m : Nat) (e : Int) (n : Nat) : Bool := fvCmp (.fin false n (-1)) (.fin false m e) != some .gt

/-- A transcendental of an `f32` value, rounded RNE to `f32` (R184): the bits and events. -/
def transF32 (t : Trans) (v : Fv) : Nat × Fl :=
  let out (r : Fv) : Nat × Fl := fmtF32.deliver rneMode false r
  match v with
  | .nan sig => (fmtF32.nanBits, flInv sig)
  | .inf neg => match t with
    | .exp2 => out (if neg then .fin false 0 0 else .inf false)
    | .log2 => if neg then (fmtF32.nanBits, flInv true) else out (.inf false)
    | .tanh => out (.fin neg 1 0)
    | .sigm => out (if neg then .fin false 0 0 else .fin false 1 0)
  | .fin neg m e => match t with
    | .exp2 => out (exp2Value neg m e)
    | .log2 =>
      if m = 0 then (fmtF32.infBits true, { dz := 1 })
      else if neg then (fmtF32.nanBits, flInv true)
      else out (log2Value m e)
    | .tanh =>
      if m = 0 then out (.fin neg 0 0)
      else if atLeastHalves m e 19 then out (.fin neg 1 0)
      else out (tanhValue neg m e)
    | .sigm =>
      if m = 0 then out (.fin false 1 (-1))
      else if !neg && atLeastHalves m e 35 then out (.fin false 1 0)
      else out (sigmValue neg m e)

/-- A transcendental of a value in its own type: a 16-bit result is rounded from the `f32` one (R184). -/
def transValue (f : Fmt) (t : Trans) (v : Fv) : Nat × Fl :=
  let r := transF32 t v
  if f.width = 32 then r
  else
    let w := fmtF32.value r.1
    if w.isNan then (f.nanBits, r.2)
    else
      let x := f.deliver rneMode false w
      let fl := x.2.once r.2
      let small := !w.isZero && fvCmp (.fin false (match w with
        | .fin _ m _ => m
        | .inf _ => 1
        | .nan _ => 1) (match w with
        | .fin _ _ e => e
        | .inf _ => 100000
        | .nan _ => 0)) (.fin false 1 f.emin) == some .lt
      (x.1, { fl with unf := if small && fl.inx == 1 && x.2.inx == 0 then 1 else fl.unf })

/-! Estimates (R180). -/

/-- A value rounded RNE to 13 significant bits, the exponent unbounded. -/
def thirteen (v : Fv) : Fv :=
  match v with
  | .fin n m e =>
    if m = 0 then v
    else
      let sh : Int := (Nat.log2 m : Int) - 12
      .fin n (roundNat rneMode n m sh).1 (e + sh)
  | .inf n => .inf n
  | .nan s => .nan s

/-- Whether two values are the same number. -/
def sameValue (x y : Fv) : Bool := fvCmp x y == some .eq

/-- An estimate of an exact value `x` delivered in a type: the events compare the delivered result with the exact one. -/
def estimate (f : Fmt) (x : Fv × Fl) : Nat × Fl :=
  match x.1 with
  | .fin n m e =>
    if m = 0 then (f.sign n, x.2)
    else
      let est := fmtF32
      let first := (if f.width = 64 then f else est).deliver rneMode false (thirteen (.fin n m e))
      let r := if f.width = 16 then f.deliver rneMode false (est.value first.1) else first
      let differs := !sameValue (f.value r.1) (.fin n m e)
      let tiny := (f.round rneMode false n m e).2.unf
      let ovr := max first.2.ovf r.2.ovf
      (r.1, x.2.once { ovf := ovr, inx := if differs then 1 else 0
                       unf := if ovr = 0 ∧ differs then max tiny (max first.2.unf r.2.unf) else 0 })
  | .inf n => (f.infBits n, x.2)
  | .nan _ => (f.nanBits, x.2)

/-- `VFRCP`: an estimate of 1 / x. -/
def rcpValue (f : Fmt) (v : Fv) : Nat × Fl := estimate f (fvDiv (.fin false 1 0) v)
/-- `VFRSQ`: an estimate of 1 / √x, by the root of the reciprocal; ±0 gives ±∞ with a division by zero. -/
def rsqValue (f : Fmt) (v : Fv) : Nat × Fl :=
  match v with
  | .nan s => (f.nanBits, flInv s)
  | .inf n => if n then (f.nanBits, flInv true) else (f.sign false, .none)
  | .fin n m e =>
    if m = 0 then (f.infBits n, { dz := 1 })
    else if n then (f.nanBits, flInv true)
    else
      let odd := e % 2 != 0
      let m' := if odd then 2 * m else m
      let e' := if odd then e - 1 else e
      let w := 2 ^ (4 * extraBits + Nat.log2 m')
      let sq := w / m'
      let k : Int := (4 * extraBits + Nat.log2 m' : Nat)
      let evenK := k % 2 == 0
      let sq := if evenK then sq else sq / 2
      let k := if evenK then k else k - 1
      let r := isqrt sq
      let exact := r * r * m' == 2 ^ k.toNat
      estimate f (.fin false (r * 2 + (if exact then 0 else 1)) (-(k / 2) - e' / 2 - 1), .none)

end Sys2Proof.Machine
end

