-- ==== Sys2Proof/Machine/Matrix.lean ====
section
/-!
DEFINITION. Tile loads, row control and page 4: the matrix queue, the array's arithmetic, the epilogue and the tile store
(R225–R248, R96).
-/
namespace Sys2Proof.Machine

/-! Shapes and formats. -/

/-- Rows and columns of a shape code; none for the scale area (R226). -/
def tileShape (c : Nat) : Option (Nat × Nat) :=
  match c with
  | 0 => some (64, 64) | 1 => some (64, 128) | 2 => some (64, 256) | 3 => some (64, 512) | 4 => some (32, 32)
  | 5 => some (32, 64) | 6 => some (128, 64) | 7 => some (256, 64) | 8 => some (512, 64) | 9 => some (16, 64)
  | 10 => some (64, 16) | 11 => some (16, 16) | _ => none
def telemBits : TElem → Nat
  | .b64 => 64 | .b32 => 32 | .b16 => 16 | .b8 => 8 | .b6 => 6 | .b4 => 4
/-- Bytes of a tile or of a scale area (R226). -/
def tileBytes (e : TElem) (shape : Nat) : Nat :=
  match tileShape shape with
  | some (r, c) => r * c * telemBits e / 8
  | none => match e with
    | .b64 => 256 | .b32 => 512 | .b16 => 1024 | .b8 => 2048 | .b6 => 2048 | .b4 => 2048

/-- M, N, K, the group length and the busy clocks of a format (R96, R238). -/
structure MShape where
  m : Nat
  n : Nat
  k : Nat
  group : Nat
  busy : Nat
deriving DecidableEq, Repr
def mshape : MFmt → MShape
  | .float .f32 => ⟨64, 64, 64, 8, 64⟩
  | .float .f64 => ⟨32, 64, 32, 8, 128⟩
  | .float .f16 => ⟨64, 64, 128, 16, 16⟩
  | .float .bf16 => ⟨64, 64, 128, 16, 16⟩
  | .float .e4m3 => ⟨64, 64, 256, 32, 16⟩
  | .float .e5m2 => ⟨64, 64, 256, 32, 16⟩
  | .mx .mx4 => ⟨64, 64, 512, 32, 16⟩
  | .mx _ => ⟨64, 64, 256, 32, 16⟩
  | .int8 => ⟨64, 64, 256, 32, 16⟩
/-- Bytes of an accumulator element (R227). -/
def accBytes : MFmt → Nat
  | .float .f64 => 8
  | .float _ => 4
  | .mx _ => 4
  | .int8 => 4
def accFmt : MFmt → Fmt
  | .float .f64 => fmtF64
  | .float _ => fmtF32
  | .mx _ => fmtF32
  | .int8 => fmtF32
/-- Bits of an operand element. -/
def opBits : MFmt → Nat
  | .float t => (ftyFmt t).width
  | .mx t => mtyBits t
  | .int8 => 8
def isMx : MFmt → Bool
  | .mx _ => true | .float _ => false | .int8 => false
/-- Busy clocks of an operation (R238). -/
def MatOp.busy (o : MatOp) : Nat :=
  match o.kind with
  | .mma _ _ _ _ _ => (mshape o.fmt).busy
  | .mzero _ => 1
  | .tst _ _ _ _ _ _ => 16
  | .tldacc _ _ => 16
  | .obput _ _ _ => 16
  | .obget _ _ _ => 16
/-- The operand buffers an operation reads (R283). -/
def MatOp.reads (o : MatOp) : List Nat :=
  match o.kind with
  | .mma _ _ _ a b => [a, b]
  | .mzero _ => []
  | .tst _ _ _ _ _ _ => []
  | .tldacc _ _ => []
  | .obput _ _ _ => []
  | .obget _ _ _ => []

/-! Accepting matrix operations (R228). -/

/-- The operations that each copy of a pair has performed on its own accumulators (R42, R245); a tile load fills both, and
a tile store compares both. -/
def MatKind.twice : MatKind → Bool
  | .mma _ _ _ _ _ => true
  | .mzero _ => true
  | .obput _ _ _ => true
  | .obget _ _ _ => true
  | .tst _ _ _ _ _ _ => false
  | .tldacc _ _ => false

def MatKind.isStore : MatKind → Bool
  | .tst _ _ _ _ _ _ => true
  | .mma _ _ _ _ _ => false
  | .mzero _ => false
  | .obput _ _ _ => false
  | .obget _ _ _ => false
  | .tldacc _ _ => false

/-- The accepted operations that have not been performed: a place that is kept for a trailing copy's operation holds none until
the trailing copy has issued it (R228, R243). -/
def Core.accepted (k : Core) : List MatOp := k.matQ.filter fun o => !o.awaited
/-- The operation that the array takes next. Where the place of a trailing copy's operation comes first and the queue is full, so
that the trailing copy could not issue it, those behind it go on (assumption 58). -/
def Core.headOp (k : Core) : Option MatOp := if 8 ≤ k.accepted.length then k.accepted.head? else k.matQ.head?

/-- Accepts an operation into the queue with its scoreboard entries; `f` says what the slot does then. A full queue or
scoreboard makes the turn a bubble. An operation of a leading copy keeps a place behind its own for its trailing copy's, which
enters there with its own context when the trailing copy issues it (R228). A pair posts one notice, of the leading copy's
operation (assumption 58). -/
def State.enqueue (s : State) (kind : MatKind) (notify : Bool) (rs : List (Region × Bool)) (drain : Nat)
    (f : Nat → State → State) : State :=
  let k := s.core s.ic
  let ref := s.myRef
  let notify := notify && !s.me.trail
  let due := k.matQ.find? fun o => o.slot == s.is && o.awaited
  let twice := due.isNone && s.me.lead && kind.twice
  let fresh := if due.isSome then 0 else if twice then 2 * rs.length else rs.length
  if 8 ≤ k.accepted.length || !k.boardRoom fresh || (notify && !k.canReserve) then s.bubble
  else
    let h := (due.map (·.num)).getD (k.order + 1)
    let pair := s.me.lead && kind.isStore
    let op : MatOp := { num := h, slot := s.is, kind, fmt := k.fmt, epi := k.epi, issue := s.cycle, start := s.issue.start
                        notify, shadow := s.me.trail, launch := s.acctOf s.ic s.is, ref, drain, paired := pair
                        agrees := if pair then none else some true }
    let s := { s with pktNum := s.pktNum + 1 }
    match due with
    | some o => f ref (s.onCore s.ic fun k => { k with matQ := updFirst (fun x => x.num == o.num) (fun _ => op) k.matQ })
    | none =>
      let other : List MatOp :=
        if twice then [{ op with num := h + 1, slot := s.is + 8, notify := false, shadow := true, awaited := true }] else []
      let s := s.takeEntries h rs
      let s := if twice then s.takeEntries (h + 1) rs else s
      let s := s.onCore s.ic fun k => { k with matQ := k.matQ ++ op :: other }
      f ref (if notify then s.reserve s.ic s.is forMatrix h else s)

/-- Bytes of an operand buffer with its scale area (R236). -/
abbrev bufBytes : Nat := 18432
/-- A buffer's whole data and scale areas. -/
def bufRegion (n : Nat) : Region := .buf n 0 bufBytes

/-- An `MMA` or `MMAS` (R239). -/
def State.mmaIssue (s : State) (mx ov nt : Bool) (d : Acc) (a b : Ob) : State :=
  if mx && !isMx (s.core s.ic).fmt then s.trapField
  else s.enqueue (.mma mx ov d.toNat a.toNat b.toNat) nt [(bufRegion a.toNat, false), (bufRegion b.toNat, false)] 0
    fun _ s => s.retire

/-- `MMA` (R239). -/
def execMma (ov nt : Bool) (d : Acc) (a b : Ob) (s : State) : Host.Outcome State Fault Refusal :=
  s.guarded (s.mmaIssue false ov nt d a b)
/-- `MMAS` (R239). -/
def execMmas (ov nt : Bool) (d : Acc) (a b : Ob) (s : State) : Host.Outcome State Fault Refusal :=
  s.guarded (s.mmaIssue true ov nt d a b)
/-- `MZERO` (R240). -/
def execMzero (d : Acc) (s : State) : Host.Outcome State Fault Refusal :=
  s.guarded (s.enqueue (.mzero d.toNat) false [] 0 fun _ s => s.retire)
/-- `MFMT` (R237). -/
def execMfmt (f : MFmt) (s : State) : Host.Outcome State Fault Refusal :=
  s.guarded (s.onCore s.ic fun k => { k with fmt := f }).retire
/-- `MEPI`: v[a] is read at issue (R241). -/
def execMepi (m : BitVec 3) (t : FTy) (r : Rnd) (n : Bool) (a : Vr) (s : State) : Host.Outcome State Fault Refusal :=
  s.guarded (s.onCore s.ic fun k => { k with epi := ⟨m.toNat, t, r, n, s.vec a⟩ }).retire

/-! Address checks of tiles. -/

/-- A `private` or `kv` object homed on this core (R231, R232). -/
def State.tileKind (s : State) (e : ObjEnt) (h : Nat) : Bool := (e.kind == kPrivate || e.kind == kKv) && s.homeIs h
/-- Every granule of a range of a vault-private object is homed here. -/
def State.allHere (s : State) (t : Xl) (n : Nat) : Bool :=
  t.ent.kind == kScratch || t.ent.kind == kShared || (below (n / 64 + 1)).all fun i => i * 64 ≥ n || (s.home t (t.off + i * 64)).1 == s.ic

/-- The 256-byte blocks of a range merged into pieces of one 8 KiB row each, in object order (R233). -/
def State.tilePieces (s : State) (t : Xl) (n : Nat) : List Piece :=
  (below ((n + 255) / 256)).foldl (fun acc i =>
    let p : Piece := { key := i * 256, off := t.off + i * 256, addr := (s.home t (t.off + i * 256)).2, n := min 256 (n - i * 256) }
    match acc.getLast? with
    | some q => if q.addr + q.n = p.addr ∧ q.addr / 8192 = p.addr / 8192 then acc.dropLast ++ [{ q with n := q.n + p.n }]
                else acc ++ [p]
    | none => [p]) []

/-- Sends a tile's requests; their beats land as they arrive (R233). -/
def State.tileRequests (s : State) (c ref : Nat) (ps : List Piece) (launch : Option Nat) : State :=
  ps.foldl (fun s p => s.vreq c p.addr ((p.n + 255) / 256) (.tile ref) launch) s

/-- `ROWACT` and `ROWPRE` (R231): a request that moves no data. -/
def State.rowCtl (s : State) (k : Kr) (x : Nat) (cont : VCont) : State :=
  s.withChk (s.chk k x 1 rR 1 0 false s.tileKind) fun t => (s.vreq s.ic (s.home t t.off).2 0 cont none).retire
def execRowact (k : Kr) (x : Idx) (s : State) : Host.Outcome State Fault Refusal := s.guarded (s.rowCtl k (s.index x) .open)
def execRowpre (k : Kr) (x : Idx) (s : State) : Host.Outcome State Fault Refusal := s.guarded (s.rowCtl k (s.index x) .close)

/-- The part of a buffer that a tile load writes: its data area from 0, or its scale area (R232, R236). -/
def tileRegion (d shape n : Nat) : Region :=
  if (tileShape shape).isSome then .buf d 0 n else .buf d 16384 (16384 + n)

/-- `TLD`: its requests leave at issue, and its beats wait while an earlier operation still uses that part of the buffer
(R229, R232, R233). -/
def execTld (e : TElem) (s' : BitVec 4) (tr : BitVec 2) (d : Ob) (k : Kr) (x : Idx) (s : State) :
    Host.Outcome State Fault Refusal :=
  let n := tileBytes e s'.toNat
  s.guarded (if s.sideCovers (s.cap k) ((s.cap k).base + s.index x) n then s.sideTrap else s.withChk (s.chk k (s.index x) n rR 256 0 false s.tileKind) fun t =>
    if !s.allHere t n then s.trap causeRights (s.cap k).base (memValue k.toNat 0)
    else if !(s.core s.ic).boardRoom 1 then s.bubble
    else
      let h := (s.core s.ic).order + 1
      let ref := s.myRef
      let ps := s.tilePieces t n
      let s := { s with pktNum := s.pktNum + 1 }.takeEntries h [(tileRegion d.toNat s'.toNat n, true)]
      let s := s.onSlot s.ic s.is fun t => { t with landed := 0 }
      let s := s.parkRef .remote ref
        { fin := .tile false d.toNat e s'.toNat tr.toNat n, left := ps.length, reads := ps, knum := k.toNat, word := BitVec.ofNat 64 h }
      s.tileRequests s.ic ref ps (s.acctOf s.ic s.is))

/-- `TLDACC`: a matrix operation that parks its slot; its requests leave at issue, and its beats wait until every earlier
operation of the core has been performed (R233, R235). -/
def execTldacc (d : Acc) (k : Kr) (x : Idx) (s : State) : Host.Outcome State Fault Refusal :=
  s.guarded (if s.sideCovers (s.cap k) ((s.cap k).base + s.index x) 16384 then s.sideTrap else
    s.withChk (s.chk k (s.index x) 16384 rR 256 0 false s.tileKind) fun t =>
    if !s.allHere t 16384 then s.trap causeRights (s.cap k).base (memValue k.toNat 0)
    else
      let ps := s.tilePieces t 16384
      s.enqueue (.tldacc d.toNat ps) false [(.vault t.obj t.off (t.off + 16384), false)] 0 fun ref s =>
        ((s.onSlot s.ic s.is fun t => { t with landed := 0 }).parkRef .remote ref
          { fin := .tile true d.toNat .b32 0 0 16384, left := ps.length, reads := ps, knum := k.toNat }).tileRequests
          s.ic ref ps (s.acctOf s.ic s.is))

/-- Bytes of an output element of the captured epilogue (R242). -/
def outBytes (f : MFmt) (e : Epi) : Nat := if e.mode = 7 then accBytes f else (ftyFmt e.ty).width / 8
/-- Bytes a tile store writes. -/
def storeSize (f : MFmt) (e : Epi) : Nat := (mshape f).m * (mshape f).n * outBytes f e

/-- Objects a `TST` may write (R242). -/
def State.tstKind (s : State) (e : ObjEnt) (h : Nat) : Bool :=
  match e.kind with
  | 1 => s.homeIs h
  | 2 => s.homeIs h
  | 3 => true
  | 4 => s.homeIs h
  | _ => false
/-- The 64-byte pieces of a store, with the home of each. -/
def State.linePieces (s : State) (t : Xl) (n : Nat) : List Piece :=
  (below ((n + 63) / 64)).map fun i =>
    let h := s.home t (t.off + i * 64)
    { key := i * 64, off := t.off + i * 64, addr := h.2, n := min 64 (n - i * 64), home := h.1 }

/-- The granules of the accumulator that a store reads hold poison. -/
def State.accPoisoned (s : State) (c d : Nat) (shadow : Bool) (n : Nat) : Bool :=
  s.poisoned (if shadow then shadowLoc c d 0 else accLoc c d 0) n

/-- The group's own scratchpad allocation. -/
def State.ownScratch (s : State) (k : Cap) : Bool :=
  k.obj == aliasObj || (s.me.bank < 16 && k.obj == s.scratchObj s.ic s.me.bank)

/-- `TST` (R242). -/
def execTst (d : Acc) (k : Kr) (x : Idx) (s : State) : Host.Outcome State Fault Refusal :=
  let core := s.core s.ic
  let z := storeSize core.fmt core.epi
  s.guarded (s.withChk (s.chk k (s.index x) z rW 64 0 false s.tstKind) fun t =>
    if !s.allHere t z || (t.ent.kind == kScratch && !s.ownScratch (s.cap k)) then
      s.trap causeRights (s.cap k).base (memValue k.toNat 0)
    else
      let place := if t.ent.kind = kScratch then 1 else if t.ent.kind = kShared then 2 else 0
      let ps := s.linePieces t z
      let lo := (ps.head?.map (·.addr)).getD 0
      let rs := if place = 2 then [] else [(regionOf t.ent.kind t.obj t.off lo z, true)]
      let tail := core.log.tail
      s.enqueue (.tst d.toNat place t.obj t.gen t.off ps) false rs (if place = 2 then tail else 0) fun ref s =>
        let s := if place = 2 then s.onLog s.ic fun l => { l with drain := max l.drain tail } else s
        s.parkRef .remote ref { fin := .none, left := 1, knum := k.toNat })

/-! Buffer moves (R236). -/

/-- The bounds and alignment of an offset: the limit, then 1,024. -/
def State.checkMove (s : State) (x limit : Nat) (f : State) : State :=
  if limit ≤ x then s.trap causeBounds x 0
  else if x % 1024 != 0 then s.trap causeAlign x 0
  else f

/-- `OBPUT`: a buffer's bytes are written at the commit clock, and held till then (R127, R236). -/
def execObput (d : ObAcc) (a : Vr) (b : Gpr) (s : State) : Host.Outcome State Fault Refusal :=
  let x := (s.gpr b).toNat
  s.guarded (match d with
    | .ob o => s.checkMove x 18432 (s.withEntries [(.buf o.toNat x (x + 1024), true)] fun h s =>
        (s.onCore s.ic fun k => { k with obs := k.obs ++ [⟨s.cycle + 15, h, o.toNat, x, s.vec a⟩] }).retire)
    | .acc c => s.checkMove x 16384 (s.enqueue (.obput c.toNat (s.vec a) x) false [] 0 fun ref s =>
        s.parkRef .remote ref { fin := .none, left := 1 }))

/-- `OBGET`. -/
def execObget (d : Vr) (a : ObAcc) (b : Gpr) (s : State) : Host.Outcome State Fault Refusal :=
  let x := (s.gpr b).toNat
  s.guarded (match a with
    | .ob o => s.checkMove x 18432 (s.withEntries [(.buf o.toNat x (x + 1024), false)] fun h s =>
        let loc := bufLoc s.ic o.toNat x
        let s := s.meetFaults s.ic loc 1024
        if s.poisoned loc 1024 then (s.endHolder s.ic h).trap causePoison x 0
        else ((s.putVec d (BitVec.ofNat 8192 (s.readMem loc 1024))).endHolder s.ic h).retire)
    | .acc c => s.checkMove x 16384 (s.enqueue (.obget d c.toNat x) false [] 0 fun ref s =>
        s.parkRef .remote ref { fin := .vbytes d 1024, left := 1 }))

/-! Status and fence (R243, R244). -/

def ftyCode : FTy → Nat
  | .f32 => 0 | .f64 => 1 | .f16 => 2 | .bf16 => 3 | .e4m3 => 4 | .e5m2 => 5
def mtyCode : MTy → Nat
  | .mx8 => 0 | .mx8e5 => 1 | .mx6 => 2 | .mx6e2 => 3 | .mx4 => 4 | .mxi8 => 5
def mfmtCode : MFmt → Nat
  | .float t => ftyCode t | .mx t => 8 + mtyCode t | .int8 => 14
def rndCode : Rnd → Nat
  | .rne => 0 | .rtz => 1 | .rup => 2 | .rdn => 3 | .rna => 4 | .rsr => 5
/-- The context word. -/
def Core.context (k : Core) : Nat :=
  mfmtCode k.fmt + k.epi.mode * 16 + ftyCode k.epi.ty * 128 + rndCode k.epi.rnd * 1024 + (if k.epi.sat then 8192 else 0)

/-- The reservation ρ of a quad array: the least of its request, 8 while a member throttles, and what Phaekus allows
(R403); and the array's credits now (R230). -/
def State.rho (s : State) (q : Nat) : Nat :=
  let hot := (below 4).any fun m => s.live (quadMember (q / 9) (q % 9) m) &&
    (s.core (quadMember (q / 9) (q % 9) m)).vault.throt
  min (SMap.get s.mgmt.qtaken q 16) (min (if hot then 8 else 16) s.mgmt.powerCap)
def State.credits (s : State) (q : Nat) : Nat :=
  min 16384 ((s.quad q).credits + s.rho q * (s.cycle - (s.quad q).creditClock))

/-- `MSTAT`. -/
def execMstat (d : Gpr) (s' : BitVec 2) (s : State) : Host.Outcome State Fault Refusal :=
  let q := posArray s.ic
  let x := match s'.toNat with
    | 0 => (s.core s.ic).context
    | 1 => (s.core s.ic).accepted.length
    | 2 => s.rho q % 32 + s.credits q * 65536
    | _ => s.me.landed
  s.guarded (s.putGpr d (BitVec.ofNat 64 x)).retire

/-- The accepted operations a fence waits for; one that joins the queue later is not among them (R244). -/
def State.fenceOps (s : State) (core : Bool) : List MatOp := (s.core s.ic).accepted.filter fun o => core || o.slot == s.is
def State.mfence (s : State) (core : Bool) : State :=
  let ops := (s.fenceOps core).map (·.num)
  if ops.isEmpty then s.retire else s.park .remote { fin := .mfence ops, left := 1 }
/-- `MFENCE`. -/
def execMfence (s : State) : Host.Outcome State Fault Refusal := s.guarded (s.mfence false)
/-- `MFENCE` of the core. -/
def execMfenceCore (s : State) : Host.Outcome State Fault Refusal := s.guarded (s.mfence true)

/-! The array's arithmetic (R96, R239). -/

/-- An exact sum of values of which none is a NaN: an infinity, or the sum as a value. -/
def exactSum (ps : List Fv) : Fv :=
  let e0 := ps.foldl (fun (m : Int) v => match v with
    | .fin _ _ e => min m e
    | .inf _ => m
    | .nan _ => m) 0
  let i := ps.foldl (fun (a : Int) v => match v with
    | .fin n m e => a + atExp n m e e0
    | .inf _ => a
    | .nan _ => a) 0
  if i = 0 then .fin false 0 0 else .fin (i < 0) i.natAbs e0

/-- The sum of one group of products, and whether it counts invalid (R96): `sig` says that the format's signalling NaNs
count, `nanScale` that a block scale is 0xFF. -/
def groupSum (sig nanScale : Bool) (xs : List (Fv × Fv)) : Fv × Bool :=
  if nanScale then (.nan false, false)
  else
    let ps := xs.map fun p => fvMul p.1 p.2
    let badPair (p : Fv × Fv) : Bool := (!p.1.isNan && !p.2.isNan && (fvMul p.1 p.2).1.isNan) ||
      (sig && (p.1.isSig || p.2.isSig))
    let has (n : Bool) : Bool := ps.any fun p => p.1 == .inf n
    let clash := has true && has false
    if clash || ps.any fun p => p.1.isNan then (.nan false, clash || xs.any badPair)
    else if has false then (.inf false, false)
    else if has true then (.inf true, false)
    else (exactSum (ps.map (·.1)), false)

/-- One rounding of a computed value to a format, with the events of the computation. -/
def accFinish (f : Fmt) (r : Fv × Fl) : Nat × Fl :=
  let x := f.deliver rneMode false r.1
  (x.1, x.2.once r.2)

/-- One output element: the groups in ascending k (R96); adding a NaN group sum counts nothing. -/
def accumulate (f : Fmt) (acc : Nat) (fl : Fl) (inv : Nat) : List (Fv × Bool) → Nat × Fl
  | [] => (acc, { fl with inv := fl.inv + inv })
  | g :: r =>
    let t := f.deliver rneMode false g.1
    let z := accFinish f (fvAdd rneMode (f.value acc) (f.value t.1))
    let e : Fl := if g.1.isNan then .none else t.2.once z.2
    accumulate f z.1 (fl.once e) (inv + if g.2 then 1 else 0) r

/-- Cuts a list into groups. -/
def groupsOf {α : Type} (n : Nat) (l : List α) : Nat → List (List α)
  | 0 => []
  | k + 1 => if l.isEmpty then [] else l.take n :: groupsOf n (l.drop n) k

/-- The bits of element `p` of a buffer's data area (R227). -/
def bufElem (data : Nat) (bits p : Nat) : Nat := data / 2 ^ (bits * p) % 2 ^ bits

/-- The value of an operand element. -/
def opValue (f : MFmt) (x : Nat) : Fv :=
  match f with
  | .float t => (ftyFmt t).value x
  | .mx t => mtyValue t x
  | .int8 => intValue (sv 8 x)
/-- Signalling NaNs of the format count (R96). -/
def sigCounts : MFmt → Bool
  | .float .f32 => true | .float .f64 => true | .float .f16 => true | .float .bf16 => true
  | .float .e4m3 => false | .float .e5m2 => false | .mx _ => false | .int8 => false

/-- A row of an operand, element and scale code of its block. -/
def operandRow (f : MFmt) (scaled : Bool) (data scales r k : Nat) : List (Fv × Nat) :=
  (below k).map fun i =>
    let p := r * k + i
    let c := if scaled then scales / 256 ^ (p / 32) % 256 else 127
    (if isMx f then (opValue f (bufElem data (opBits f) p)).scale ((c : Int) - 127) else opValue f (bufElem data (opBits f) p), c)

/-- An INT8 element: clamped after each group (R96). -/
def accumulateInt (acc : Int) (sat : Nat) : List Int → Int × Nat
  | [] => (acc, sat)
  | g :: r =>
    let c := clampInt (-(2 ^ 31 : Int)) (2 ^ 31 - 1) (acc + g)
    accumulateInt c.1 (sat + if c.2 then 1 else 0) r
def intOf : Fv → Int
  | .fin n m _ => if n then -(m : Int) else m
  | .inf _ => 0
  | .nan _ => 0

/-- One output element of a multiply: its bits and events. -/
def mmaElem (f : MFmt) (a b : List (Fv × Nat)) (acc : Nat) : Nat × Fl :=
  let sh := mshape f
  let gs := groupsOf sh.group (List.zip a b) (sh.k / sh.group + 1)
  match f with
  | .int8 =>
    let sums := gs.map fun g => (g.map fun p => intOf p.1.1 * intOf p.2.1).foldl (· + ·) 0
    let r := accumulateInt (sv 32 acc) 0 sums
    (toBits 32 r.1, { sat := r.2 })
  | _ =>
    accumulate (accFmt f) acc .none 0 (gs.map fun g =>
      groupSum (sigCounts f) (g.any fun p => p.1.2 == 255 || p.2.2 == 255) (g.map fun p => (p.1.1, p.2.1)))

def accAt (c d : Nat) (shadow : Bool) : Nat := if shadow then shadowLoc c d 0 else accLoc c d 0

/-- Performs an `MMA` or `MMAS` on an accumulator (R239). A poisoned operand granule poisons every granule written, and a
granule of the accumulator that was poisoned when it was read stays so (R191). -/
def State.performMma (s : State) (c : Nat) (o : MatOp) (mx ovr : Bool) (d a b : Nat) : State :=
  let sh := mshape o.fmt
  let sz := accBytes o.fmt
  let loc := accAt c d o.shadow
  let scaled := mx
  let s := ((s.meetFaults c (bufLoc c a 0) bufBytes).meetFaults c (bufLoc c b 0) bufBytes).meetFaults c loc 16384
  let load (n : Nat) : Nat × Nat := (s.readMem (bufLoc c n 0) 16384, s.readMem (bufLoc c n 16384) 2048)
  let da := load a
  let db := load b
  let rowsB := (below sh.n).map fun j => operandRow o.fmt scaled db.1 db.2 j sh.k
  let accs := s.readMem loc (sh.m * sh.n * sz)
  let out := (below sh.m).flatMap fun i =>
    let ra := operandRow o.fmt scaled da.1 da.2 i sh.k
    (List.zip (below sh.n) rowsB).map fun p =>
      mmaElem o.fmt ra p.2 (if ovr then 0 else accs / 256 ^ ((i * sh.n + p.1) * sz) % 256 ^ sz)
  let opBytes := sh.k * opBits o.fmt / 8
  let bad (n rows : Nat) : Bool := s.poisoned (bufLoc c n 0) (rows * opBytes) ||
    (scaled && s.poisoned (bufLoc c n 16384) (rows * sh.k / 32))
  let gs := granules loc (sh.m * sh.n * sz)
  let poison := if bad a sh.m || bad b sh.n then gs else if ovr then [] else gs.filter s.poison.contains
  let s := (s.writeMem loc (packElems (8 * sz) (out.map (·.1))) (sh.m * sh.n * sz)).markPoison poison
  s.countFl c (out.foldl (fun acc r => acc.add r.2) .none)

/-! The epilogue (R241, R242). -/

/-- An accumulator element's value. -/
def accValue (f : MFmt) (x : Nat) : Fv :=
  match f with
  | .int8 => intValue (sv 32 x)
  | .float _ => (accFmt f).value x
  | .mx _ => (accFmt f).value x

/-- One output element: y computed exactly, relu, and one rounding. -/
def epilogue (f : MFmt) (e : Epi) (j x : Nat) : Nat × Fl :=
  if e.mode = 7 then (x, .none)
  else
    let a := accValue f x
    let lane (n : Nat) : Fv := fmtF32.value (e.vec.toNat / 2 ^ (32 * n) % 2 ^ 32)
    let md : RMode := ⟨e.rnd, 0⟩
    let y : Fv × Fl := match e.mode with
      | 0 => (a, .none)
      | 1 => fvAdd md a (lane (64 + j))
      | 2 => fvFma md a (lane j) (lane (64 + j))
      | 3 => fvAdd md a (lane (64 + j))
      | _ => fvFma md a (lane j) (lane (64 + j))
    let relu := e.mode == 3 || e.mode == 4
    let v := match y.1 with
      | .fin n m k => if relu && n then .fin false 0 0 else .fin n m k
      | .inf n => if relu && n then .fin false 0 0 else .inf n
      | .nan s => .nan s
    let r := (ftyFmt e.ty).deliver md e.sat v
    (r.1, r.2.once y.2)

/-- The output bytes of a tile store, and its events. -/
def State.tileOut (s : State) (c : Nat) (o : MatOp) (d : Nat) (shadow : Bool) : Nat × Fl :=
  let sh := mshape o.fmt
  let sz := accBytes o.fmt
  let accs := s.readMem (accAt c d shadow) (sh.m * sh.n * sz)
  let outs := (below (sh.m * sh.n)).map fun p => epilogue o.fmt o.epi (p % sh.n) (accs / 256 ^ (p * sz) % 256 ^ sz)
  (packElems (8 * outBytes o.fmt o.epi) (outs.map (·.1)), outs.foldl (fun acc r => acc.add r.2) .none)

end Sys2Proof.Machine
end

