-- ==== Sys2Proof/Machine/Sync.lean ====
section
/-!
DEFINITION. Page 5: release, acquire and fence, atomics, full/empty words, sync words and the log query (R57, R64,
R72, R216–R223, R351–R353).
-/
namespace Sys2Proof.Machine

/-! Scopes (R53). -/

/-- The narrowest scope level that contains two cores. -/
def levelOf (a b : Nat) : Nat :=
  if 864 ≤ a ∨ 864 ≤ b then 7
  else if posArray a = posArray b then 4
  else if posDie a = posDie b then 5
  else 6
/-- Whether a core lies within scope `x` of another. -/
def inScope (x c t : Nat) : Bool := if x < 4 then t == c else t == c || levelOf c t ≤ x

/-- `REL` (R57, R216). -/
def State.release' (s : State) (x : Nat) : State := s.onLog s.ic fun l => l.publish x
def execRel (sc : Scope) (s : State) : Host.Outcome State Fault Refusal :=
  s.guarded (s.sideClear (s.release' sc.code).retire)

/-! Acquire (R64, R217). -/

/-- The cores a log-set mask names, or none if it is malformed for the scope (R217). Cores of another package are named
above this package's positions. -/
def State.logSet (s : State) (x : Nat) (m : Nat) : Option (List Nat) :=
  let foreignOk (p : Nat) : Bool := p == s.pkg || (7 ≤ x && Config.podOthers.contains p)
  let set : Option (List Nat) := match bitsOf m 60 4 with
    | 0 =>
      let p := bitsOf m 41 6
      let d := bitsOf m 36 5
      if bitsOf m 47 13 ≠ 0 ∨ 24 ≤ d ∨ !foreignOk p then none
      else
        let cores := (below 36).filter fun i => bitOf m i
        if p = s.pkg then some ((cores.map fun i => 36 * d + i).filter s.logical.contains)
        else some ((cores.filter fun i => (podOrder p).contains (36 * d + i)).map fun i =>
          foreignPos p (indexIn (podOrder p) (36 * d + i)))
    | 1 =>
      let p := bitsOf m 20 6
      let n := bitsOf m 10 10 + 1
      let first := bitsOf m 0 10
      if bitsOf m 26 34 ≠ 0 ∨ !foreignOk p ∨ s.liveCores p < first + n then none
      else some ((upFrom first n).filterMap fun i => s.namedPos p i)
    | 2 =>
      if bitsOf m 0 60 ≠ 0 then none
      else some ((s.logical.filter fun t => inScope x s.ic t) ++ if 7 ≤ x then s.podCores else [])
    | _ => none
  set.bind fun l => if l.all fun t => inScope x s.ic t then some l else none

/-- The position a query asks a writer for (R64). -/
def State.queryWriter (s : State) (c ref w : Nat) (acct : Option Nat) : State :=
  s.send c w urgentClass 1 acct (.acqQuery c ref (levelOf c w) w)

/-- `ACQ`: the slot parks until every named writer is done; an earlier acquire of the same writer goes first (R64). -/
def execAcq (sc : Scope) (d : Pr) (a : Gpr) (s : State) : Host.Outcome State Fault Refusal :=
  let m := (s.gpr a).toNat
  s.guarded (s.sideClear (match s.logSet sc.code m with
    | none => s.trap causeBounds 0 m
    | some l =>
      let writers := l.filter fun t => t != s.ic
      if writers.isEmpty then (s.putPred d 0).retire
      else
        let ref := s.myRef
        let acct := s.acctOf s.ic s.is
        let s := { s with pktNum := s.pktNum + 1 }
        let busy (w : Nat) : Bool := (s.core s.ic).acqs.any fun q => q.writers.contains w
        let now := writers.filter fun w => !busy w
        let s := s.parkRef .acquire ref { fin := .pred d, left := 1 }
        let s := s.onCore s.ic fun k => { k with acqs := k.acqs ++ [⟨ref, sc.code, writers, false, acct⟩] }
        now.foldl (fun s w => s.queryWriter s.ic ref w acct) s))

/-! Fence (R72, R218). -/

/-- The operations of a slot that a fence waits for: at `core` those aimed at the issuing core, which are messages (they
name no object), and not those aimed at its vault (R53). -/
def State.fenceSet (s : State) (t : Slot) (x : Nat) : List Nat :=
  ((t.posted.filter fun p => inScope x s.ic p.home && (x != 2 || p.obj == 0)).map (·.num)) ++
  ((t.held.filter fun h => inScope x s.ic h.req.home && x != 2).map (·.num))

/-- `FENCE`. -/
def execFence (sc : Scope) (s : State) : Host.Outcome State Fault Refusal :=
  s.guarded (s.sideClear (
    let ops := if sc.code < 2 then [] else s.fenceSet s.me sc.code
    if ops.isEmpty then s.retire else s.park .remote { fin := .fence ops, left := 1 }))

/-! Atomics (R219, R220). -/

def amoCode : AmoTy → Nat
  | .i64 => 0 | .i32 => 1 | .n32 => 5

/-- An atomic on a `private` object homed here: its word is read through the vault controller, or is at hand in the write
queue, and it is performed as one step when that read has been served (R208, R219). -/
def State.amoVault (s : State) (t : Xl) (op : WordOp) (n : Nat) (d : Gpr) (knum : Nat) : State :=
  s.unlessHeld [.vault t.obj t.off (t.off + n)] true <|
  let a := (s.home t t.off).2
  let blocks := (s.core s.ic).vault.blocksOf [(a, n)]
  let ref := s.myRef
  let s := { s with pktNum := s.pktNum + 1 }
  let s := s.parkRef .remote ref { fin := .atomic d op a, left := 1, knum, reads := [⟨0, t.off, a, n, 0⟩] }
  if blocks.isEmpty then s.endSoon s.ic ref
  else blocks.foldl (fun s b => s.vreq s.ic (b * 256) 1 (.slot ref) (s.acctOf s.ic s.is)) s

/-- `CAS` on the scratchpad parks from issue and ends when its bank access has been served (R220). -/
def State.scratchCas (s : State) (t : Xl) (op : WordOp) (d : Gpr) (k : Kr) : State :=
  let p := s.placeOf t
  let off := p.loc - scratchLoc s.ic 0
  s.unlessHeld [.scratch off (off + op.bytes)] true <|
  let s := (s.chargeScratch op.bytes).meetFaults s.ic p.loc op.bytes
  if s.poisoned p.loc op.bytes then s.trap causePoison t.off (memValue k.toNat 0)
  else match s.wordStep p op (s.acctOf s.ic s.is) with
  | none => s.retire
  | some r =>
    let s := r.1
    let ref := s.myRef
    let pk : Packet := { id := s.pktNum + 1, src := s.ic, dst := s.ic, cls := urgentClass, flits := 0
                         body := .reply s.ic ref r.2.1 0 none }
    let s := { s with pktNum := s.pktNum + 2, packets := SMap.set s.packets pk.id pk }
    ((s.parkRef .remote ref { fin := .word d, left := 1, knum := k.toNat }).after 1 .remoteReply [pk.id]).wakeWord p r.2.2

/-- An atomic or a `CAS` at its target. -/
def State.atomic (s : State) (t : AmoTy) (d : Gpr) (k : Kr) (x : Nat) (op : WordOp) (postAs : Option (Nat × Nat)) : State :=
  let n := amoBytes t
  if s.sideCovers (s.cap k) ((s.cap k).base + x) n then s.sideTrap
  else s.withChk (s.chk k x n (rR + rW + rA) n 0 false s.mayAmo) fun tl =>
    if tl.ent.kind = kScratch then
      match postAs with
      | some _ => s.wordHere (s.placeOf tl) op .remote (fun s x => (s.putGpr d x).retire) { fin := .word d, knum := k.toNat } tl.off
      | none => s.scratchCas tl op d k
    else if tl.ent.kind = kShared then
      match postAs with
      | some (member, reg) =>
        if d = 0 then s.post (s.reqFor tl (.word op)) (s.cap k) x 1 member (amoCode t) reg
        else s.ask (s.reqFor tl (.word op)) { fin := .word d, left := 1, knum := k.toNat }
      | none => s.ask (s.reqFor tl (.word op)) { fin := .word d, left := 1, knum := k.toNat }
    else s.amoVault tl op n d k.toNat

/-- `AMOADD` (R219). -/
def execAmoadd (t : AmoTy) (d : Gpr) (k : Kr) (x : Idx) (s' : BitVec 3) (s : State) : Host.Outcome State Fault Refusal :=
  s.guarded (s.atomic t d k (s.index x) (.amo .add t (s.gpr (BitVec.ofNat 6 s'.toNat))) (some (0, s'.toNat)))

/-- `AMOMIN` (R219). -/
def execAmomin (t : AmoTy) (d : Gpr) (k : Kr) (x : Idx) (s' : BitVec 3) (s : State) : Host.Outcome State Fault Refusal :=
  s.guarded (s.atomic t d k (s.index x) (.amo .min t (s.gpr (BitVec.ofNat 6 s'.toNat))) (some (1, s'.toNat)))

/-- `AMOMAX` (R219). -/
def execAmomax (t : AmoTy) (d : Gpr) (k : Kr) (x : Idx) (s' : BitVec 3) (s : State) : Host.Outcome State Fault Refusal :=
  s.guarded (s.atomic t d k (s.index x) (.amo .max t (s.gpr (BitVec.ofNat 6 s'.toNat))) (some (2, s'.toNat)))

/-- `AMOAND` (R219). -/
def execAmoand (t : AmoTy) (d : Gpr) (k : Kr) (x : Idx) (s' : BitVec 3) (s : State) : Host.Outcome State Fault Refusal :=
  s.guarded (s.atomic t d k (s.index x) (.amo .and t (s.gpr (BitVec.ofNat 6 s'.toNat))) (some (3, s'.toNat)))

/-- `AMOOR` (R219). -/
def execAmoor (t : AmoTy) (d : Gpr) (k : Kr) (x : Idx) (s' : BitVec 3) (s : State) : Host.Outcome State Fault Refusal :=
  s.guarded (s.atomic t d k (s.index x) (.amo .or t (s.gpr (BitVec.ofNat 6 s'.toNat))) (some (4, s'.toNat)))

/-- `AMOXOR` (R219). -/
def execAmoxor (t : AmoTy) (d : Gpr) (k : Kr) (x : Idx) (s' : BitVec 3) (s : State) : Host.Outcome State Fault Refusal :=
  s.guarded (s.atomic t d k (s.index x) (.amo .xor t (s.gpr (BitVec.ofNat 6 s'.toNat))) (some (5, s'.toNat)))

/-- `AMOSWAP` (R219). -/
def execAmoswap (t : AmoTy) (d : Gpr) (k : Kr) (x : Idx) (s' : BitVec 3) (s : State) : Host.Outcome State Fault Refusal :=
  s.guarded (s.atomic t d k (s.index x) (.amo .swap t (s.gpr (BitVec.ofNat 6 s'.toNat))) (some (6, s'.toNat)))

/-- `CAS` (R220). -/
def execCas (t : AmoTy) (d : Gpr) (k : Kr) (x : Idx) (s : State) : Host.Outcome State Fault Refusal :=
  s.guarded (s.atomic t d k (s.index x) (.cas t (s.gpr d) (s.gpr (nextGpr d))) none)

/-! Full/empty words (R221). -/

/-- A member of the full/empty family; `dst` names the register it fills, `posted` its replay member. -/
def State.fullEmpty (s : State) (m : Fe) (d : Gpr) (k : Kr) (x need : Nat) (dst : Bool) (posted : Option Nat) : State :=
  let op : WordOp := .fe m (if m = .sete then 0 else s.gpr d)
  let fin : Fin := if dst then .word d else .none
  s.withChk (s.chk k x 8 need 8 0 false s.mayWord) fun tl =>
    if tl.ent.kind = kScratch then
      s.wordHere (s.placeOf tl) op .word (fun s x => (if dst then s.putGpr d x else s).retire) { fin, knum := k.toNat } tl.off
    else match posted with
      | some member => s.post (s.reqFor tl (.word op)) (s.cap k) x 2 member 0 d.toNat
      | none => s.ask (s.reqFor tl (.word op)) { fin, left := 1, knum := k.toNat }

/-- `LDC` (R221). -/
def execLdc (d : Gpr) (k : Kr) (x : Idx) (s : State) : Host.Outcome State Fault Refusal :=
  s.guarded (s.fullEmpty .ldc d k (s.index x) (rR + rW + rS) true none)

/-- `LDF` (R221). -/
def execLdf (d : Gpr) (k : Kr) (x : Idx) (s : State) : Host.Outcome State Fault Refusal :=
  s.guarded (s.fullEmpty .ldf d k (s.index x) (rR + rS) true none)

/-- `STP` (R221). -/
def execStp (d : Gpr) (k : Kr) (x : Idx) (s : State) : Host.Outcome State Fault Refusal :=
  s.guarded (s.fullEmpty .stp d k (s.index x) (rW + rS) false none)

/-- `SETF` (R221). -/
def execSetf (d : Gpr) (k : Kr) (x : Idx) (s : State) : Host.Outcome State Fault Refusal :=
  s.guarded (s.fullEmpty .setf d k (s.index x) (rW + rS) false (some 4))

/-- `FEQ` (R221). -/
def execFeq (d : Gpr) (k : Kr) (x : Idx) (s : State) : Host.Outcome State Fault Refusal :=
  s.guarded (s.fullEmpty .feq d k (s.index x) (rR + rS) false none)

/-- `SETE` (R221). -/
def execSete (k : Kr) (x : Idx) (s : State) : Host.Outcome State Fault Refusal :=
  s.guarded (s.fullEmpty .sete 0 k (s.index x) (rW + rS) false (some 3))

/-! Sync words (R351, R352). -/

/-- A member of the sync-word family at scope `x` (1 publishes nothing), with `why` the reason it parks for. -/
def State.syncWord (s : State) (m : Sw) (scope : Nat) (d : Gpr) (k : Kr) (i need : Nat) (dst : Bool) (why : Why) : State :=
  let op : WordOp := .sw m (s.gpr d)
  let fin : Fin := if dst then .word d else .none
  let go := s.withChk (s.chk k i 8 need 8 0 false s.mayWord) fun tl =>
    let s := if scope < 2 then s else s.release' scope
    if tl.ent.kind = kScratch then
      s.wordHere (s.placeOf tl) op why (fun s x => (if dst then s.putGpr d x else s).retire) { fin, knum := k.toNat } tl.off
    else if m = .swadd then s.post (s.reqFor tl (.word op)) (s.cap k) i 3 2 0 d.toNat
    else s.ask (s.reqFor tl (.word op)) { fin, left := 1, knum := k.toNat }
  if scope < 2 then go else s.sideClear go

/-- `SWARM` (R352). -/
def execSwarm (sc : Scope) (d : Gpr) (k : Kr) (x : Idx) (s : State) : Host.Outcome State Fault Refusal :=
  s.guarded (s.syncWord .swarm sc.code d k (s.index x) (rW + rS) false .remote)

/-- `SWWAIT` (R352). -/
def execSwwait (d : Gpr) (k : Kr) (x : Idx) (s : State) : Host.Outcome State Fault Refusal :=
  s.guarded (s.syncWord .swwait 1 d k (s.index x) (rR + rS) true .sync)

/-- `SWADD` (R352). -/
def execSwadd (sc : Scope) (d : Gpr) (k : Kr) (x : Idx) (s : State) : Host.Outcome State Fault Refusal :=
  s.guarded (s.syncWord .swadd sc.code d k (s.index x) (rW + rS) false .remote)

/-- `SWRD` (R352). -/
def execSwrd (d : Gpr) (k : Kr) (x : Idx) (s : State) : Host.Outcome State Fault Refusal :=
  s.guarded (s.syncWord .swrd 1 d k (s.index x) (rR + rS) true .remote)

/-! The log query (R223). -/

/-- Where a core keeps its acquire cursor for another, in its core area (R187). -/
def State.cursorAddr (s : State) (w : Nat) : Nat :=
  0x7FC00000 + 8 * (if w < 864 then 864 * s.pkg + s.logicalOf w else 864 * ((w - 864) / 1024) + (w - 864) % 1024)
def State.cursorLoc (s : State) (c w : Nat) : Nat := vaultLoc c (s.cursorAddr w)

/-- The position a selector names (R223). -/
def Log.position (l : Log) (sel : Nat) : Nat :=
  match sel with
  | 0 => l.tail
  | 1 => l.pubVault
  | 2 => l.pubQuad
  | 3 => l.pubDie
  | 4 => l.pubPkg
  | 5 => l.pubPod
  | 6 => l.pubSys
  | 7 => l.comp
  | _ => l.recl

/-- `LOGQ`: a name of no live core gives all ones. -/
def execLogq (d a : Gpr) (s' : BitVec 4) (s : State) : Host.Outcome State Fault Refusal :=
  let name := (s.gpr a).toNat
  let sel := s'.toNat
  let target : Option Nat :=
    if name = 2 ^ 64 - 1 then some s.ic
    else if name / 65536 ≠ 0 then none
    else s.namedPos (bitsOf name 10 6) (bitsOf name 0 10)
  s.guarded (match target with
    | none => (s.putGpr d (BitVec.allOnes 64)).retire
    | some t =>
      if sel = 9 then (s.putGpr d (BitVec.ofNat 64 (s.readMem (s.cursorLoc s.ic t) 8))).retire
      else if t = s.ic then (s.putGpr d (BitVec.ofNat 64 ((s.core s.ic).log.position sel))).retire
      else
        let ref := s.myRef
        let s := { s with pktNum := s.pktNum + 1 }
        (s.parkRef .remote ref { fin := .word d, left := 1 }).send s.ic t urgentClass 1 (s.acctOf s.ic s.is) (.logQuery s.ic ref t sel))

end Sys2Proof.Machine
end

