-- ==== Sys2Proof/Machine/Engines.lean ====
section
/-!
DEFINITION. Page 6: copies and fills, collectives and remote calls, as their instructions issue (R272–R274, R278–R280,
R282, R286, R287, R290).
-/
namespace Sys2Proof.Machine

/-! Command blocks (R272, R273, R282). -/

/-- The 64 bytes of a command block: lanes 0–15 of v[a]. -/
def State.blockOf (s : State) (a : Vr) : Nat := (s.vec a).toNat % 2 ^ 512

def cSrcOff (b : Nat) : Nat := bitsOf b 0 64
def cDstOff (b : Nat) : Nat := bitsOf b 64 64
def cLen (b : Nat) : Nat := bitsOf b 128 32
def cKind (b : Nat) : Nat := bitsOf b 192 2
def cUrg (b : Nat) : Bool := bitOf b 194
def cFollow (b : Nat) : Bool := bitOf b 195
def cSrcB (b : Nat) : Bool := bitOf b 196
def cDstB (b : Nat) : Bool := bitOf b 197
def cSrcK (b : Nat) : Nat := bitsOf b 200 4
def cDstK (b : Nat) : Nat := bitsOf b 204 4
def cSType (b : Nat) : Nat := bitsOf b 208 3
def cDType (b : Nat) : Nat := bitsOf b 211 3
def cSat (b : Nat) : Bool := bitOf b 214
def cMask (b : Nat) : Nat := bitsOf b 256 36
def cMDie (b : Nat) : Nat := bitsOf b 292 5
def cSyncOff (b : Nat) : Nat := bitsOf b 320 40
def cSyncEn (b : Nat) : Bool := bitOf b 383
def cFollowQx (b : Nat) : Nat := bitsOf b 384 16
def cFollowBase (b : Nat) : Nat := bitsOf b 400 16
def cTag (b : Nat) : Word := BitVec.ofNat 64 (bitsOf b 448 64)

/-- The float class by code (R113). -/
def ftyOf (c : Nat) : FTy :=
  match c with
  | 0 => .f32 | 1 => .f64 | 2 => .f16 | 3 => .bf16 | 4 => .e4m3 | _ => .e5m2
/-- Bytes of an element of a float class. -/
def ftySize (c : Nat) : Nat := (ftyFmt (ftyOf c)).width / 8
/-- Bytes a copy writes for the bytes it reads (R279). -/
def cDstLen (b : Nat) : Nat := if cKind b = 2 then cLen b / ftySize (cSType b) * ftySize (cDType b) else cLen b

/-- The follow-on operation of a block: `PG 0xF410` is implied (R273). -/
def followOn (b : Nat) : Option Instr :=
  let q := cFollowQx b
  let base := BitVec.ofNat 16 (cFollowBase b)
  let hs : List Half := if q = 0 then [0xF410, base] else [0xF410, BitVec.ofNat 16 q, base]
  if q ≠ 0 ∧ q / 1024 ≠ 62 then none
  else match decode hs with
    | .ok _ i _ _ _ => some i
    | .ill _ _ _ => none
    | .more => none
/-- The buffers of a follow-on multiply, none for any other instruction. -/
def followBufs (b : Nat) : Option (Nat × Nat) :=
  match followOn b with
  | some (.mma _ _ _ x y) => some (x.toNat, y.toNat)
  | some (.mmas _ _ _ x y) => some (x.toNat, y.toNat)
  | _ => none
/-- Whether a follow-on asks for a notice, whose inbox entry is reserved with the command's own (R254). -/
def followNotes (b : Nat) : Bool :=
  match followOn b with
  | some (.mma _ nt _ _ _) => nt
  | some (.mmas _ nt _ _ _) => nt
  | _ => false
/-- A follow-on must read the destination buffer. -/
def followOk (b : Nat) : Bool :=
  match followBufs b with
  | some (x, y) => x == cDstK b || y == cDstK b
  | none => false

/-- The byte offset of the first 8-byte word of a block that its layout does not admit. -/
def firstBad (bad : List (Nat × Bool)) : Option Nat := (bad.find? (·.2)).map (·.1)
/-- The admissibility of a copy block for the row of kind `k`. -/
def copyBad (k b : Nat) : Option Nat :=
  let conv := cKind b == 2
  let w3 := cKind b != k || bitsOf b 198 2 != 0 || bitsOf b 215 41 != 0 || (cSrcB b && cSrcK b > 7) ||
    (cDstB b && cDstK b > 7) || (cFollow b && !cDstB b) ||
    (if conv then cSType b > 5 || cDType b > 5 || (cSat b && cDType b < 4) else bitsOf b 208 7 != 0)
  firstBad
    [(16, bitsOf b 160 32 != 0 || (conv && !w3 && cLen b % ftySize (cSType b) != 0)), (24, w3),
     (32, if cKind b = 1 then bitsOf b 297 23 != 0 || cMDie b > 23 else bitsOf b 256 64 != 0),
     (40, bitsOf b 360 23 != 0),
     (48, bitsOf b 416 32 != 0 || (if cFollow b then !followOk b else bitsOf b 384 32 != 0))]
/-- The admissibility of a fill block (R282). -/
def fillBad (b : Nat) : Option Nat :=
  firstBad
    [(16, bitsOf b 160 32 != 0),
     (24, bitsOf b 192 5 != 0 || bitsOf b 198 2 != 0 || cSrcK b != 0 || bitsOf b 208 48 != 0 || (cDstB b && cDstK b > 7)),
     (32, bitsOf b 256 64 != 0), (40, bitsOf b 360 23 != 0), (48, bitsOf b 384 64 != 0)]

/-! Checks (R272 step 2, R274). -/

/-- Objects a copy may read. -/
def State.copySrc (s : State) (e : ObjEnt) (h : Nat) : Bool :=
  match e.kind with
  | 1 => true
  | 2 => s.homeIs h
  | 3 => true
  | 4 => true
  | 6 => true
  | 7 => true
  | _ => false
/-- Objects a copy may write. -/
def State.copyDst (_ : State) (e : ObjEnt) (_ : Nat) : Bool :=
  match e.kind with
  | 1 => true
  | 2 => true
  | 3 => true
  | 4 => true
  | 7 => true
  | _ => false
/-- A buffer range lies below the buffer's end, or `BOUNDS`. -/
def State.inBuffer (s : State) (off n k elem : Nat) (f : State) : State :=
  if bufBytes < off + n then s.trap causeBounds off (memValue k elem) else f

/-- Whether some byte of a range is homed on a core: of an interleaved object the homes recur, of a paged one each page has
its own (R308). -/
def State.anyHome (s : State) (t : Xl) (n c : Nat) : Bool :=
  let unit := if t.ent.hmode = 1 then 2 ^ t.ent.glog else 2 ^ 21
  let pieces := (t.off + n - 1) / unit - t.off / unit + 1
  (below (if t.ent.hmode = 1 then min pieces (t.ent.hcnt + 1) else pieces)).any fun i =>
    (s.home t (max t.off ((t.off / unit + i) * unit))).1 == c
/-- Bytes of the region of an object that lie on this core, for the scoreboard (R283). -/
def State.localRegion (s : State) (t : Xl) (n : Nat) : List Region :=
  if n = 0 || !s.anyHome t n s.ic then []
  else match t.ent.kind with
    | 2 => let h := s.home t t.off; [.scratch h.2 (h.2 + n)]
    | 1 => [.vault t.obj t.off (t.off + n)]
    | 4 => [.vault t.obj t.off (t.off + n)]
    | _ => []
/-- A multicast writes on the issuing core only if its map names it (R278). -/
def State.castsHere (s : State) (b : Nat) (fill : Bool) : Bool :=
  fill || cKind b != 1 || (cMDie b == posDie s.ic && bitOf (cMask b) (posCore s.ic))

/-- The checks of the sync word of a copy or fill (R273). -/
def State.withSync (s : State) (b : Nat) (dst : Option Xl) (f : State) : State :=
  let k := cDstK b
  if !cSyncEn b then f
  else match dst with
    | none =>
      let len := match s.group? s.ic s.me.bank with
        | some g => g.len
        | none => 0
      if cKind b ≠ 1 then s.trap causeRights 0 (memValue 0 2)
      else if cSyncOff b % 8 ≠ 0 then s.trap causeAlign (cSyncOff b) (memValue 0 2)
      else if len < cSyncOff b + 8 then s.trap causeBounds (cSyncOff b) (memValue 0 2)
      else f
    | some t =>
      if t.ent.kind ≠ kScratch ∧ t.ent.kind ≠ kShared then
        s.trap causeRights (s.cap (BitVec.ofNat 4 k)).base (memValue k 2)
      else s.withChk (s.chk (BitVec.ofNat 4 k) (cSyncOff b) 8 rS 8 2 false s.copyDst) fun _ => f

/-- The group's own scratchpad object (R278). -/
def State.ownScratchObj (s : State) (k : Cap) : Bool :=
  k.obj == aliasObj || (s.me.bank < 16 && k.obj == s.scratchObj s.ic s.me.bank)

/-- Runs `f` on the checked source and destination of a block. -/
def State.withRanges (s : State) (b : Nat) (fill : Bool) (f : Option Xl → Option Xl → State) : State :=
  let ks := cSrcK b
  let kd := cDstK b
  let dest (src : Option Xl) : State :=
    if cDstB b then s.inBuffer (cDstOff b) (cDstLen b) kd 1 (s.withSync b none (f src none))
    else s.withChk (s.chk (BitVec.ofNat 4 kd) (cDstOff b) (cDstLen b) rW 1 1 false s.copyDst) fun t =>
      if cKind b = 1 ∧ !s.ownScratchObj (s.cap (BitVec.ofNat 4 kd)) then
        s.trap causeRights (s.cap (BitVec.ofNat 4 kd)).base (memValue kd 1)
      else s.withSync b (some t) (f src (some t))
  if fill then dest none
  else if cSrcB b then s.inBuffer (cSrcOff b) (cLen b) ks 0 (dest none)
  else s.withChk (s.chk (BitVec.ofNat 4 ks) (cSrcOff b) (cLen b) rR 1 0 false s.copySrc) fun t => dest (some t)

/-- Accepts a command into the copy queue, or leaves the turn a bubble (R272 step 3, R280, R283). -/
def State.acceptCopy (s : State) (b : Nat) (fill : Bool) (src dst : Option Xl) : State :=
  let k := s.core s.ic
  let h := k.order + 1
  let bufReg (n off len : Nat) : List Region := if len = 0 then [] else [.buf n off (off + len)]
  let reads : List Region := match src with
    | some t => s.localRegion t (cLen b)
    | none => if fill then [] else bufReg (cSrcK b) (cSrcOff b) (cLen b)
  let writes : List Region := if !s.castsHere b fill then [] else match dst with
    | some t => s.localRegion t (cDstLen b)
    | none => bufReg (cDstK b) (cDstOff b) (cDstLen b)
  let paired := s.me.lead
  let follow : List Region := if !fill && cFollow b then match followBufs b with
      | some (x, y) => [.buf x 0 bufBytes, .buf y 0 bufBytes]
      | none => []
    else []
  let notice := !fill && cFollow b && followNotes b
  let entries := reads.length + writes.length + follow.length * (if paired then 2 else 1)
  if k.copies.length ≥ 16 || !k.canReserveN (if notice then 2 else 1) || !k.boardRoom entries then s.bubble
  else
    let s := s.takeEntries h (reads.map (fun r => (r, false)) ++ writes.map fun r => (r, true))
    let s := if follow.isEmpty then s else s.takeEntries (h + 1) (follow.map fun r => (r, false))
    let s := if follow.isEmpty || !paired then s else s.takeEntries (h + 2) (follow.map fun r => (r, false))
    let s := if notice then s.reserve s.ic s.is forMatrix (h + 1) else s
    let shared := (src.map (·.ent.kind)) == some kShared
    let drain := if shared then k.log.tail else 0
    let cmd : CopyCmd := { num := h, slot := s.is, fill, block := b, src, dst, drain, bank := s.me.bank, start := s.issue.start, paired
                           launch := s.acctOf s.ic s.is }
    let s := s.onCore s.ic fun k =>
      { k with copies := k.copies ++ [cmd], log := { k.log with drain := max k.log.drain drain } }
    (s.reserve s.ic s.is forCommand h).retire

/-- A copy instruction of the row of kind `k`. -/
def State.copyIssue (s : State) (a : Vr) (k : Nat) : State :=
  let b := s.blockOf a
  match copyBad k b with
  | some off => s.trap causeIllField s.issue.start off
  | none => s.withRanges b false fun src dst => s.acceptCopy b false src dst

/-- `CPY` of kind 0 (R273). -/
def execCpy (a : Vr) (s : State) : Host.Outcome State Fault Refusal := s.guarded (s.sideClear (s.copyIssue a 0))
/-- `CPY` of kind 1 (R278). -/
def execCpyMulticast (a : Vr) (s : State) : Host.Outcome State Fault Refusal := s.guarded (s.sideClear (s.copyIssue a 1))
/-- `CPY` of kind 2 (R279). -/
def execCpyConvert (a : Vr) (s : State) : Host.Outcome State Fault Refusal := s.guarded (s.sideClear (s.copyIssue a 2))
/-- `CPYF` (R282). -/
def execCpyf (a : Vr) (s : State) : Host.Outcome State Fault Refusal :=
  let b := s.blockOf a
  s.guarded (s.sideClear (match fillBad b with
    | some off => s.trap causeIllField s.issue.start off
    | none => s.withRanges b true fun src dst => s.acceptCopy b true src dst))

/-! Collectives (R286–R288). -/

def kOp (b : Nat) : Nat := bitsOf b 194 2
def kType (b : Nat) : Nat := bitsOf b 196 3
def kSet (b : Nat) : Nat := bitsOf b 256 64
def kPkgs (b : Nat) : Nat := bitsOf b 320 64
def kTag (b : Nat) : Nat := bitsOf b 384 32
def kParity (b : Nat) : Nat := bitsOf b 416 6
/-- Bytes of an element. -/
def kSize (b : Nat) : Nat :=
  match kType b with
  | 0 => 4 | 1 => 8 | 2 => 2 | 3 => 4 | _ => 8
/-- Numbers of the set bits of a mask. -/
def bitList (m n : Nat) : List Nat := (below n).filter (bitOf m)

/-- The participants of a block in rank order, none if the set breaks the rules (R286, R287). -/
def State.collSet (s : State) (scope b : Nat) : Option (List Nat) :=
  let inside (p : Nat) : Option (List Nat) :=
    match bitsOf (kSet b) 60 4 with
      | 2 => if p = s.pkg then s.logSet 6 (kSet b) else if bitsOf (kSet b) 0 60 = 0 ∧ Config.podOthers.contains p then
          some ((below (s.liveCores p)).map (foreignPos p)) else none
      | 0 => s.logSet 7 (kSet b / 2 ^ 47 * 2 ^ 47 + p * 2 ^ 41 + kSet b % 2 ^ 41)
      | 1 => s.logSet 7 (kSet b / 2 ^ 26 * 2 ^ 26 + p * 2 ^ 20 + kSet b % 2 ^ 20)
      | _ => none
  let all : Option (List Nat) :=
    if scope = 7 then
      (bitList (kPkgs b) 64).foldr (fun p acc => match acc, inside p with
        | some l, some m => some (m ++ l)
        | _, _ => none) (some [])
    else s.logSet scope (kSet b)
  match all with
  | some l => if l.contains s.ic then some l else none
  | none => none

/-- The rank of the participant that stores the parity, and the size of what participant `r` of `n` writes. -/
def collWrites (b n : Nat) (mine : Bool) : Nat :=
  match cKind b with
  | 0 => cLen b
  | 1 => cLen b / n
  | 2 => n * cLen b
  | _ => if mine then cLen b else 0

/-- The admissibility of a collective block for the row of kind `k`, with its participants where its set keeps the rules (R286,
R288). -/
def State.collBad (s : State) (k scope b : Nat) (set : Option (List Nat)) : Option Nat :=
  let ty := cKind b == 2 || cKind b == 3
  let pkgOf (c : Nat) : Nat := if c < 864 then s.pkg else (c - 864) / 1024
  let n := (set.map (·.length)).getD 0
  let parityBad := cKind b == 3 && (scope != 7 || (bitList (kPkgs b) 64).length != 8 || !bitOf (kPkgs b) (kParity b) ||
    set.any fun l => n != 8 || (bitList (kPkgs b) 64).any fun p => (l.filter fun c => pkgOf c == p).length != 1)
  firstBad
    [(16, bitsOf b 160 32 != 0 || cLen b < 8 || 2 ^ 28 < cLen b || cLen b % kSize b != 0 ||
        (cKind b == 1 && cLen b % (max n 1 * kSize b) != 0)),
     (24, cKind b != k || kOp b == 3 || kType b > 4 || (ty && (kOp b != 0 || kType b != 0)) || bitOf b 199 ||
        bitsOf b 208 48 != 0),
     (40, (scope != 7 && kPkgs b != 0) || parityBad),
     (48, bitsOf b 422 26 != 0 || (cKind b != 3 && kParity b != 0))]

/-- Objects of a collective: homed on the participant, its group's scratchpad, or shared. -/
def State.collKind (s : State) (k : Cap) (e : ObjEnt) (h : Nat) : Bool :=
  match e.kind with
  | 1 => s.homeIs h
  | 2 => s.ownScratchObj k
  | 3 => true
  | 4 => s.homeIs h
  | _ => false

/-- A collective of the row of kind `k` (R286, R287). -/
def State.collIssue (s : State) (scope : Nat) (a : Vr) (k : Nat) : State :=
  let b := s.blockOf a
  let set := s.collSet scope b
  match s.collBad k scope b set with
  | some off => s.trap causeIllField s.issue.start off
  | none => match set with
    | none => s.trap causeBounds 0 (kSet b)
    | some l =>
      let ks := BitVec.ofNat 4 (cSrcK b)
      let kd := BitVec.ofNat 4 (cDstK b)
      let n := collWrites b l.length (s.pkg == kParity b)
      s.withChk (s.chk ks (cSrcOff b) (cLen b) rR 1 0 false (s.collKind (s.cap ks))) fun src =>
      s.withChk (s.chk kd (cDstOff b) n rW 1 1 false (s.collKind (s.cap kd))) fun dst =>
        let core := s.core s.ic
        let h := core.order + 1
        let rs := (s.localRegion src (cLen b)).map (fun r => (r, false)) ++ (s.localRegion dst n).map fun r => (r, true)
        let lead := l.headD s.ic
        let die := posDie s.ic
        if !core.canReserve || !core.boardRoom rs.length || (s.die die).descs.length ≥ 64 then s.bubble
        else
          let s := s.takeEntries h rs
          let key := ((match s.acctOf s.ic s.is with
            | some x => x + 1
            | none => 0) * 16 + scope) * 2 ^ 32 + kTag b
          let nth := SMap.get core.collCount key 0
          let drain := if src.ent.kind = kShared then core.log.tail else 0
          let c : Coll := { core := s.ic, slot := s.is, num := h, block := b, scope, src, dst
                            launch := s.acctOf s.ic s.is, nth, die, set := l, drain }
          let s := s.onCore s.ic fun k =>
            { k with collCount := SMap.set k.collCount key (nth + 1), log := { k.log with drain := max k.log.drain drain } }
          let s := (s.reserve s.ic s.is forCommand h).retire
          let s := s.onDie die fun d => { d with descs := d.descs ++ [c] }
          s.send s.ic (if lead < 864 then 36 * posDie lead else lead) bulk (flitsFor 64) c.launch (.descriptor c)

/-- `COLL` of kind 0, allreduce (R288). -/
def execCollAllreduce (sc : Scope) (a : Vr) (s : State) : Host.Outcome State Fault Refusal :=
  s.guarded (s.sideClear (s.collIssue sc.code a 0))
/-- `COLL` of kind 1, reduce-scatter (R288). -/
def execCollReduceScatter (sc : Scope) (a : Vr) (s : State) : Host.Outcome State Fault Refusal :=
  s.guarded (s.sideClear (s.collIssue sc.code a 1))
/-- `COLL` of kind 2, all-gather (R288). -/
def execCollAllGather (sc : Scope) (a : Vr) (s : State) : Host.Outcome State Fault Refusal :=
  s.guarded (s.sideClear (s.collIssue sc.code a 2))
/-- `COLL` of kind 3, XOR parity (R288). -/
def execCollXorParity (sc : Scope) (a : Vr) (s : State) : Host.Outcome State Fault Refusal :=
  s.guarded (s.sideClear (s.collIssue sc.code a 3))

/-! Remote calls (R290). -/

/-- The runs of `n` bytes of a checked object that lie together at one home: where each begins among them, its home, its address
and its length. -/
def State.homeRuns (s : State) (t : Xl) (n : Nat) : List (Nat × (Nat × Nat) × Nat) :=
  (below (n / 8)).foldl (fun acc i =>
    let h := s.home t (t.off + 8 * i)
    match acc.getLast? with
    | some r => if r.2.1.1 = h.1 ∧ r.2.1.2 + r.2.2 = h.2 then acc.dropLast ++ [(r.1, r.2.1, r.2.2 + 8)]
      else acc ++ [(8 * i, h, 8)]
    | none => [(8 * i, h, 8)]) []
/-- The part of a remote call for one run of its bytes. -/
def rcPart (op : HomeOp) (at_ n : Nat) : HomeOp :=
  match op with
  | .rcRead _ => .rcRead n
  | .rcWrite _ v => .rcWrite n (BitVec.ofNat 8192 (v.toNat / 256 ^ at_ % 256 ^ n))
  | op => op
/-- A remote call: every check runs at issue, and the slot parks until the reply. Bytes that lie at several homes, or apart at
one, are asked for by a request each (assumption 86); a reply names the offset and the number of its bytes. -/
def State.rcall (s : State) (n : Nat) (k : Kr) (x : Idx) (need : Nat) (op : HomeOp) (fin : Fin) : State :=
  let kind (e : ObjEnt) (_ : Nat) : Bool := e.kind == kPrivate || e.kind == kKv
  s.sideClear (s.withChk (s.chk k (s.index x) n need 8 0 false kind) fun t =>
    let ref := s.myRef
    let s := { s with pktNum := s.pktNum + 1 }
    let runs := s.homeRuns t n
    let s := s.parkRef .remote ref { fin, left := runs.length, knum := k.toNat, eoff := some t.off }
    runs.foldl (fun s r => s.sendReq { s.reqFor t (rcPart op r.1 r.2.2) with
      slot := ref, off := t.off + r.1, home := r.2.1.1, addr := r.2.1.2 }) s)
/-- The bytes of a length code. -/
def rcBytes (c : BitVec 3) : Nat := 8 * 2 ^ c.toNat

/-- `RCALL` read (R290). -/
def execRcallRd (n : BitVec 3) (d : Vr) (k : Kr) (x : Idx) (s : State) : Host.Outcome State Fault Refusal :=
  s.guarded (s.rcall (rcBytes n) k x rR (.rcRead (rcBytes n)) (.vbytes d (rcBytes n)))
/-- `RCALL` write (R290). -/
def execRcallWr (n : BitVec 3) (d : Vr) (k : Kr) (x : Idx) (s : State) : Host.Outcome State Fault Refusal :=
  s.guarded (s.rcall (rcBytes n) k x rW (.rcWrite (rcBytes n) (s.vec d)) .none)
/-- The 64-bit word `i` of a vector register. -/
def State.vword (s : State) (d : Vr) (i : Nat) : Word := BitVec.ofNat 64 ((s.vec d).toNat / 2 ^ (64 * i))
/-- `RCALL` add (R290). -/
def execRcallAdd (d : Vr) (k : Kr) (x : Idx) (s : State) : Host.Outcome State Fault Refusal :=
  s.guarded (s.rcall 8 k x (rR + rW + rA) (.rcAdd (s.vword d 0)) (.vbytes d 8))
/-- `RCALL` swap (R290). -/
def execRcallSwap (d : Vr) (k : Kr) (x : Idx) (s : State) : Host.Outcome State Fault Refusal :=
  s.guarded (s.rcall 8 k x (rR + rW + rA) (.rcSwap (s.vword d 0)) (.vbytes d 8))
/-- `RCALL` compare and swap (R290). -/
def execRcallCas (d : Vr) (k : Kr) (x : Idx) (s : State) : Host.Outcome State Fault Refusal :=
  s.guarded (s.rcall 8 k x (rR + rW + rA) (.rcCas (s.vword d 0) (s.vword d 1)) (.vbytes d 8))

end Sys2Proof.Machine
end

