-- ==== Sys2Proof/Machine/Fetch.lean ====
section
/-!
DEFINITION. Fetching an instruction's bytes (R100, R157), the register lines it needs (R133) and the command-block rows of
the table.
-/
namespace Sys2Proof.Machine

/-- The check of the halfword at an object offset through the slot's code capability (R157): an offset below the base
fails step 4 of R50 as one above the limit does. -/
def State.checkFetch (s : State) (c n e : Nat) : Chk :=
  let k := (s.slot c n).code
  let x := if e < k.base then k.limit else e - k.base
  s.check c n k 0 x 2 rX 2 0 false fun ent _ => ent.kind == kCode

/-- Where byte `e` of a code object lies: in the old frame while its page is still on its way to the new one (R317). -/
def State.codeSite (s : State) (t : Xl) (e : Nat) : Nat × Nat :=
  let h := s.home t e
  match s.migs.find? fun m => m.settled && !m.open_ && m.new == h.1 && m.newBase == h.2 / 2 ^ 21 * 2 ^ 21 with
  | some m => (m.old, m.oldBase + h.2 % 2 ^ 21)
  | none => h
/-- Why a halfword of code cannot be had: its home is contained (R324), or its granule is poisoned (R191). -/
def State.codeLost (s : State) (t : Xl) (e : Nat) : Option (Nat × Nat) :=
  let h := s.codeSite t e
  if (s.core h.1).contained then some (causeLinkLost, 1)
  else if s.poisoned (vaultLoc h.1 h.2) 2 then some (causePoison, 0)
  else none
/-- A halfword of code, as its home holds it. The spec gives the fetch of a halfword no request, no time and no reason for
parking (R37, R100, R157), so it takes none (assumption 6). -/
def State.codeHalf (s : State) (t : Xl) (e : Nat) : Half :=
  let h := s.codeSite t e
  BitVec.ofNat 16 (s.readMem (vaultLoc h.1 h.2) 2)

/-- What a fetch comes to: a decoding, a fetch fault, or a walk. -/
inductive Fetched where
  | dec (d : Dec)
  | fault (cause addr value : Nat)
  | walk (pages : List (Nat × Nat))
deriving DecidableEq, Repr

/-- Fetches halfwords from offset `e` until the chain ends or a check fails (R100, R102). -/
def State.fetchFrom (s : State) (c n : Nat) (hs : List Half) (e : Nat) : Nat → Fetched
  | 0 => .dec (decode hs)
  | k + 1 =>
    match s.checkFetch c n e with
    | .walk ps => .walk ps
    | .bad cause _ v => .fault cause e v
    | .ok t => match s.codeLost t e with
      | some (cause, v) => .fault cause e v
      | none =>
        let hs' := hs ++ [s.codeHalf t e]
        match decode hs' with
        | .more => s.fetchFrom c n hs' (e + 2) k
        | d => .dec d
def State.fetch (s : State) (c n : Nat) : Fetched := s.fetchFrom c n [] (s.slot c n).pc 5

/-! Register lines (R129, R130, R133). -/

/-- The image lines, by vault address, of a register field of a kind and code. -/
def State.fieldLines (s : State) (c n : Nat) (k : FieldKind) (code : Nat) : List Nat :=
  let img := (s.slot c n).ctxbase
  let b := (s.slot c n).bank
  let bank := 0x7FC6C000 + b * 0x9000
  let shared (l : List Nat) : List Nat := if b < 16 then l else []
  match k with
  | .gpr => if code < 32 then [img + 0x8000] else shared [bank + 0x8000]
  | .evenGpr => if code < 32 then [img + 0x8000] else shared [bank + 0x8000]
  | .vec => if code < 32 then (below 4).map fun i => img + code * 1024 + i * 256
            else shared ((below 4).map fun i => bank + (code - 32) * 1024 + i * 256)
  | .pred => if code = 0 then [] else [img + 0x8200]
  | .cap _ => [img + 0x8100]
  | .unused => []
  | .ob => []
  | .acc => []
  | .sel _ => []
  | .imm => []
  | .member => []

/-- Lines that an instruction needs beside those of its register fields: the capability registers that its block names or
that follow the named one, and the data register of an atomic, which is one of g0 to g7. -/
def moreLines (img : Nat) (i : Instr) : List Nat :=
  match i.fields with
  | none => []
  | some f =>
    if f.page = 5 ∧ f.m = 3 then [img + 0x8000]
    else if (f.page = 6 ∧ (f.m = 0 ∨ f.m = 1 ∨ f.m = 2)) ∨ (f.page = 7 ∧ f.m = 0) then [img + 0x8100]
    else []
/-- The lines an instruction reads or writes. -/
def State.linesFor (s : State) (c n : Nat) (gd : Guard) (i : Instr) : List Nat :=
  let g := if gd.p = 0 then [] else [(s.slot c n).ctxbase + 0x8200]
  match i.fields with
  | none => []
  | some f => match rowOf f with
    | none => []
    | some r =>
      g ++ moreLines (s.slot c n).ctxbase i ++ s.fieldLines c n r.d f.d ++ s.fieldLines c n r.a f.a ++ s.fieldLines c n r.b f.b
/-- The lines an instruction writes. -/
def State.linesTo (s : State) (c n : Nat) (i : Instr) : List Nat :=
  match i.fields with
  | none => []
  | some f => match rowOf f with
    | none => []
    | some r =>
      let more := match i with
        | .recv _ _ => s.fieldLines c n r.a f.a
        | .send _ _ _ _ => s.fieldLines c n r.b f.b
        | .sframe _ _ _ => s.fieldLines c n r.b f.b
        | _ => []
      (if readsDest i then [] else s.fieldLines c n r.d f.d) ++ more

/-- A pinned line: the supervisor's registers, predicates, capabilities and control state. It is always present (R134). -/
def State.rcPinned (s : State) (c a : Nat) : Bool :=
  let img := (s.slot c 15).ctxbase
  img + 0x8000 ≤ a && a < img + 0x8400
/-- The needed lines that the register cache does not hold. -/
def State.missingLines (s : State) (c n : Nat) (gd : Guard) (i : Instr) : List Nat :=
  (s.linesFor c n gd i).foldl (fun acc l =>
    if acc.contains l || (n = 15 && s.rcPinned c l) || (s.core c).rc.any (fun x => x.addr == l) then acc else acc ++ [l]) []

/-- Parks the slot while missing lines of those it needs are filled (R133); a fill is a one-beat request of the vault. -/
def State.fillLines (s : State) (c n : Nat) (needs ls : List Nat) : State :=
  let w : Wait := { fin := .again, left := ls.length, start := (s.slot c n).pc, next := (s.slot c n).pc, needs }
  let s := s.onSlot c n fun t => { t with run := .parked, why := .line, wait := some w }
  ls.foldl (fun s l => s.vreq c l 1 (.fill n l) none) s

/-! The rows that a command block chooses (R114): `CPY` and `COLL`. -/

/-- The instruction of the table that a decoded word performs: the kind of a copy or collective stands in its block. -/
def State.rowFor (s : State) (c n : Nat) (i : Instr) : Instr :=
  let kind (a : Vr) : Nat := bitsOf (s.vecAt c n a).toNat 192 2
  match i with
  | .cpy a => match kind a with
    | 1 => .cpyMulticast a
    | 2 => .cpyConvert a
    | _ => .cpy a
  | .collAllreduce sc a => match kind a with
    | 1 => .collReduceScatter sc a
    | 2 => .collAllGather sc a
    | 3 => .collXorParity sc a
    | _ => .collAllreduce sc a
  | i => i

/-- Vector instructions: those of pages 1 and 2 (R19, R165). -/
def isVector (i : Instr) : Bool :=
  match i.fields with
  | some f => f.page == 1 || f.page == 2
  | none => false

end Sys2Proof.Machine
end

