-- ==== Sys2Proof/Machine/EvVault.lean ====
section
/-!
DEFINITION. The vault controller: rows, beats, refresh, repair and stalls (R188–R195), the write queue's drain (R209),
register-line fills (R132–R134), and the vector unit's starts and the ends of idle periods (R19, R268).
-/
namespace Sys2Proof.Machine

/-! Rows and activations (R188, R189, R231). -/

def VReq.bank (r : VReq) : Nat := r.addr / 8192 % 32
def VReq.row (r : VReq) : Nat := r.addr / 262144

/-- A bank that a refresh or a repair holds. -/
def Vault.bankBusy (v : Vault) (b now : Nat) : Bool := now < SMap.get v.busy b 0

/-- What the controller does for a request once no earlier request holds its bank: the row state, and the request with
the clock of its first beat; none for a request that moves no data. -/
def Vault.open (v : Vault) (now : Nat) (r : VReq) : Vault × Option VReq :=
  let b := r.bank
  let cur := (v.rows.find? fun p => p.1 == b).map (·.2)
  let same := cur.any fun x => x.1 == r.row
  let closed := if cur.isNone then max now (SMap.get v.pre b 0) + 20 else now + 40
  match r.cont with
  | .close => (if same then { v with rows := SMap.del v.rows b, pre := SMap.set v.pre b (now + 20) } else v, none)
  | .open => if same then (v, none) else ({ v with rows := SMap.set v.rows b (r.row, closed) }, none)
  | _ =>
    match cur with
    | some (row, opens) =>
      if row = r.row then (v, some { r with ready := max (now + 12) opens })
      else ({ v with rows := SMap.set v.rows b (r.row, closed) }, some { r with ready := closed })
    | none => ({ v with rows := SMap.set v.rows b (r.row, closed) }, some { r with ready := closed })

/-- Activates the banks of arrived requests, in arrival order: a request waits while an earlier one of its bank needs
another row, or while its bank is unavailable. -/
def Vault.activate (v : Vault) (now : Nat) (done : List VReq) : List VReq → Vault
  | [] => { v with reqs := done }
  | r :: rest =>
    let idle := r.beats == 0
    let blocked := done.any fun x => x.arrived && x.bank == r.bank && (idle || x.row != r.row || x.beats == 0)
    if !r.arrived || r.ready != 0 || blocked || v.bankBusy r.bank now then v.activate now (done ++ [r]) rest
    else match v.open now r with
      | (v', some r') => v'.activate now (done ++ [r']) rest
      | (v', none) => v'.activate now done rest
/-- Looks at every waiting request. -/
def State.vaultLook (s : State) (c : Nat) : State := s.onVault c fun v => v.activate s.cycle [] v.reqs

/-- `VAULT_REQUEST_ARRIVAL`: a request takes its place in arrival order, behind all that have come before it (R189). -/
def execVaultRequestArrival (s : State) : Host.Outcome State Fault Refusal :=
  let c := s.arg 0
  let mine (r : VReq) : Bool := r.id == s.arg 1
  .next ((s.onVault c fun v =>
    { v with reqs := v.reqs.filter (fun r => !mine r) ++ (v.reqs.filter mine).map fun r => { r with arrived := true } }).vaultLook c)

/-! Beats (R189–R193). -/

/-- The event by which a home's agent performs a request whose vault reads have come. -/
def HomeOp.event : HomeOp → Instr
  | .readLine => .homeRead
  | .word (.amo _ _ _) => .homeAtomic
  | .word (.cas _ _ _) => .homeAtomic
  | .word (.fe _ _) => .homeFullEmpty
  | .word (.sw _ _) => .homeSyncWord
  | .rcRead _ => .vaultAgentRequest
  | .rcWrite _ _ => .vaultAgentRequest
  | .rcAdd _ => .vaultAgentRequest
  | .rcSwap _ => .vaultAgentRequest
  | .rcCas _ _ => .vaultAgentRequest
  | .entry _ => .logEntryApply
  | .entryPut _ _ _ _ => .vaultAgentRequest
/-- The agent goes on with the request of a packet: a remote call's event names its core as well. -/
def State.agentGo (s : State) (c pkt : Nat) : State :=
  match s.packet? pkt with
  | some p => match p.body with
    | .req r => match r.op.event with
      | .vaultAgentRequest => s.now .vaultAgentRequest [c, pkt]
      | e => s.now e [pkt]
    | .fetch _ => s.now .vaultAgentRequest [c, pkt]
    | _ => s
  | none => s

/-- A supervisor event of a core waits for delivery (R362). -/
def State.supEvent (s : State) (c cause addr value : Nat) : State :=
  s.onTrap c fun k =>
    if k.pend.any fun p => p.2 == 15 then k
    else { k with events := [(cause, addr, value)], pend := insTrap (s.cycle, 15) k.pend }

/-- Bytes of a beat, at full or at half width (R189, R193). -/
def Vault.beatBytes (v : Vault) : Nat := if v.half then 128 else 256
/-- Beats that a request takes in all. -/
def Vault.needs (v : Vault) (r : VReq) : Nat := if v.half then 2 * r.beats else r.beats

/-- A tile load's beats wait: those of a `TLD` while an earlier holder's entry conflicts with its own (R229), those of a
`TLDACC` until every earlier operation of its core has been performed (R235); and its requests are served in their order
(R233). Meanwhile later requests take the bus, on which the rules are silent (assumption 85). -/
def State.tileHeld (s : State) (c : Nat) (r : VReq) : Bool :=
  match r.cont with
  | .tile ref =>
    let k := s.core c
    let first := (k.vault.reqs.find? fun x => x.cont == r.cont).map (·.id)
    let wait : Bool := match (s.strand? c ref).bind (·.wait) with
      | some w => match w.fin with
        | .tile true _ _ _ _ _ => (k.headOp.map (·.ref)) != some ref
        | _ => !k.boardClear w.word.toNat
      | none => false
    first != some r.id || wait
  | _ => false
/-- A request waits for a beat: the first that may take the bus now, if its first beat is due (R189, R190). -/
def State.nextBeat (s : State) (c : Nat) : Option VReq :=
  let v := (s.core c).vault
  let now := s.cycle
  let held (r : VReq) : Bool := v.bankBusy r.bank now || (r.started && (r.ready == 0 || now < r.ready)) || s.tileHeld c r
  match v.reqs.find? fun r => r.arrived && r.beats != 0 && !held r with
  | some r => if r.ready ≠ 0 ∧ r.ready ≤ now ∧ v.busStall ≤ now ∧ !(v.throt && now % 2 == 1) then some r else none
  | none => none

/-- Whether a tile load that has received its first beat, and has beats to come, gets none now because its bank or the bus
stalls (R195). -/
def State.tileStalled (s : State) (c : Nat) : Bool :=
  let v := (s.core c).vault
  let now := s.cycle
  v.reqs.any fun r => match r.cont with
    | .tile ref =>
      let begun := r.started || (s.strand? c ref).any fun t => t.landed != 0
      let first := (v.reqs.find? fun x => x.cont == r.cont).map (·.id) == some r.id
      let got := v.lastBeat == now && v.lastFor == some r.cont
      first && begun && !got && (v.bankBusy r.bank now || (r.again && (r.ready == 0 || now < r.ready)) || now < v.busStall ||
        (v.throt && now % 2 == 1))
    | _ => false

/-- The prefix of a tile load's bytes that has landed when `n` bytes of a request's have come: whole blocks of 256 bytes, at
half width as well (R193, R234). -/
def tilePrefix (ps : List Piece) (addr n : Nat) : Nat :=
  let p := ps.find? fun p => p.addr == addr
  (p.map fun p => p.key + if p.n ≤ n then p.n else n / 256 * 256).getD 0

/-- Where source byte `q` of a tile lands in a buffer or accumulator (R232, R235). -/
def landAt (e : TElem) (shape tr q : Nat) : Nat :=
  match tileShape shape with
  | none => 16384 + q
  | some (rows, cols) =>
    if tr = 0 then q
    else
      let z := telemBits e / 8
      let el := q / z
      (el % cols * rows + el / cols) * z + q % z

/-- The poisoned source bytes among [lo, hi) of a tile. -/
def State.badSource (s : State) (c : Nat) (w : Wait) (lo hi : Nat) : List Nat :=
  (upFrom lo (hi - lo)).filter fun q =>
    w.reads.any fun p => p.key ≤ q && q < p.key + p.n && s.poisoned (vaultLoc c (p.addr + q - p.key)) 1
/-- The granules of a buffer in which source bytes of a transposed tile land; they are noted while it loads. -/
def transposedGranules (c : Nat) (w : Wait) (qs : List Nat) : List (Nat × Nat) :=
  match w.fin with
  | .tile false d e shape tr _ => if tr = 0 then [] else qs.map fun q => ((bufLoc c d 0 + landAt e shape tr q) / 16, 0)
  | _ => []
/-- Lands source bytes [lo, hi) of a tile, with their poison (R191, R232). -/
def State.landBytes (s : State) (c n : Nat) (w : Wait) (lo hi : Nat) : State :=
  match w.fin with
  | .tile acc d e shape tr _ =>
    let both := acc && (s.slot c n).lead
    let bases := if acc then (if both then [accLoc c d 0, shadowLoc c d 0] else [accLoc c d 0]) else [bufLoc c d 0]
    let src (q : Nat) : Nat := ((w.reads.find? fun p => p.key ≤ q && q < p.key + p.n).map fun p => p.addr + q - p.key).getD 0
    let put (s : State) (base q : Nat) : State :=
      let at_ := base + (if acc then q else landAt e shape tr q)
      s.writeMem at_ (s.vaultByte c (src q)).toNat 1
    let s := bases.foldl (fun s b => (upFrom lo (hi - lo)).foldl (fun s q => put s b q) s) s
    let bad := s.badSource c w lo hi
    let good := (upFrom lo (hi - lo)).filter fun q => q % 16 == 0 && !s.poisoned (vaultLoc c (src q)) 1 && (acc || tr == 0)
    let granule (b q : Nat) : Nat := (b + (if acc then q else landAt e shape tr q)) / 16
    let s := { s with poison := bases.foldl (fun l b => good.foldl (fun l q => setDel l (granule b q)) l) s.poison }
    bases.foldl (fun s b => s.markPoison (bad.map (granule b))) s
  | _ => s

/-- One beat of a tile load lands. -/
def State.tileBeat (s : State) (c ref addr done : Nat) : State :=
  match s.strand? c ref with
  | none => s
  | some t => match t.wait with
    | none => s
    | some w =>
      let hi := tilePrefix w.reads addr done
      let noted := transposedGranules c w (s.badSource c w t.landed hi)
      let s := s.landBytes c (ref % 16) w t.landed hi
      s.onStrand c ref fun t => { t with landed := hi, wait := t.wait.map fun w => { w with lines := w.lines ++ noted } }
/-- A transposed load that is complete has covered its granules whole, each by several beats: those into which no poisoned byte
has come are clean, as after one write (R191, R232; assumption 85). -/
def State.tileClean (s : State) (c : Nat) (w : Wait) : State :=
  match w.fin with
  | .tile false d _ _ tr n =>
    if tr = 0 then s
    else s.clean ((wholeGranules (bufLoc c d 0) n).filter fun g => !w.lines.contains (g, 0))
  | _ => s

/-- The matrix operation of an accumulator load leaves the queue (R235). -/
def State.dropMat (s : State) (c ref : Nat) : State :=
  let k := s.core c
  match k.matQ.find? fun o => o.ref == ref && !o.awaited with
  | some o =>
    (s.onCore c fun k => { k with matQ := k.matQ.filter (fun x => x.num != o.num), headBusy := false }).endHolder c o.num
  | none => s

/-- The last beat of a piece of a tile load: at the last piece the load is complete (R232). An accumulator load's operation has
been performed then, or is when the array has ended its busy clocks (R230, R235). -/
def State.tileDone (s : State) (c ref : Nat) : State :=
  match (s.strand? c ref).bind (·.wait) with
  | some w =>
    let s := if w.left ≤ 1 then (match w.fin with
      | .tile true _ _ _ _ _ => if (s.core c).headBusy then s.dropMat c ref else s
      | _ => (s.tileClean c w).endHolder c w.word.toNat) else s
    s.arrived c ref fun w => if w.left ≤ 1 then { w with reads := [], lines := [] } else w
  | none => s

/-- A tile load ends part-way (R234): its other requests are dropped, and it traps at its start. Both copies of a pair hold L
(R245). -/
def State.tileStop (s : State) (c ref cause : Nat) : State :=
  match s.strand? c ref with
  | none => s
  | some t => match t.wait with
    | none => s
    | some w =>
      let mine (r : VReq) : Bool := r.cont == .tile ref
      let s := s.onVault c fun v => { v with reqs := v.reqs.filter fun r => !mine r }
      let s := match w.fin with
        | .tile true _ _ _ _ _ => s.dropMat c ref
        | _ => s.endHolder c w.word.toNat
      let e := (w.reads.head?.map (·.off)).getD 0
      if t.run = .swapped then
        s.onStrand c ref fun t =>
          { t with due := true, wait := t.wait.map fun w => { w with reads := [], err := some (cause, e + t.landed, t.landed) } }
      else
        let s := match pairMate t (ref % 16) with
          | some m => s.onSlot c m fun x => { x with landed := t.landed }
          | none => s
        s.raiseAt c (ref % 16) cause (e + t.landed) t.landed w.start false

/-- The word waiters of a line of the vault look again. -/
def State.wakeLine (s : State) (c line : Nat) : State := s.wakeRange (.vault c (line * 64)) 64
/-- Waiting lines enter the queue while it has room; at most as many as are given (R209). -/
def State.enterLate (s : State) (c : Nat) : Nat → State
  | 0 => s
  | n + 1 =>
    match (s.core c).vault.late with
    | [] => s
    | l :: r =>
      let line := (l.cells.headD (0, 0)).1 / 64
      if (s.core c).vault.takesLine line then
        ((((s.onVault c fun v => { v with late := r }).enterPart c l).wakeLine c line)).enterLate c n
      else s
/-- An entry of the write queue is free again: waiting lines enter, and steps at words that waited for room go on. -/
def State.wqFreed (s : State) (c : Nat) : State :=
  let s := s.enterLate c (s.core c).vault.late.length
  let keys := (s.core c).homeWaiters.foldl (fun acc w => setIns acc w.key) []
  keys.foldl (fun s k => s.wakeWord (.vault c (k - vaultLoc c 0)) false) s

/-- One of the reads of the agent's request has come; with the last one the agent goes on. -/
def State.agentRead (s : State) (c pkt : Nat) : State :=
  let left := (s.core c).agentLeft - 1
  let s := s.onCore c fun k => { k with agentLeft := left }
  if left = 0 then s.agentGo c pkt else s
/-- One of the reads of a copy's segment has come. -/
def State.copyRead (s : State) (c num : Nat) : State :=
  s.onCore c fun k => { k with copies := updFirst (fun m => m.num == num) (fun m => { m with reading := m.reading - 1 }) k.copies }

/-- The controller has delivered a request's last beat. -/
def State.vaultEnd (s : State) (c : Nat) (r : VReq) : State :=
  let s := s.onVault c fun v => { v with reqs := v.reqs.filter fun x => x.id != r.id }
  match r.cont with
  | .slot ref => (s.arrived c ref id).performRef c ref
  | .tile ref => s.tileDone c ref
  | .write line => (s.onVault c fun v => { v with wq := delFirst (fun e => e.line == line && e.sent) v.wq }).wqFreed c
  | .fill n line => s.now .registerLineFill [c, n, line]
  | .agent pkt => s.agentRead c pkt
  | .copy num => s.copyRead c num
  | .page id => s.now .vaultAgentRequest [c, id, 0, 1]
  | .ship pos => s.now .logShip [c, pos]
  | .open => s
  | .close => s

/-- A bank becomes unavailable: its row closes, one that was still opening opens again afterwards, and its requests activate
their rows again (R190, R192, R195, R231). -/
def Vault.shut (v : Vault) (b now : Nat) : Vault :=
  let opening := (v.rows.find? fun p => p.1 == b && now < p.2.2).map fun p => p.2.1
  { v with rows := SMap.del v.rows b, pre := SMap.del v.pre b
           reopen := (match opening with
             | some row => SMap.set v.reopen b row
             | none => v.reopen)
           reqs := v.reqs.map fun x => if x.bank == b then { x with ready := 0, again := x.again || x.ready != 0 } else x }

/-- The tile loads that the repair of a row ends (R192, R234): the one whose beat has met the error, unless that beat was its
last, and those that are part-way through the row. -/
def State.repairEnds (s : State) (c : Nat) (r : VReq) : List Nat :=
  let partWay (ref : Nat) : Bool := (s.strand? c ref).any fun t => t.wait.any fun w => match w.fin with
    | .tile _ _ _ _ _ n => decide (t.landed < n)
    | _ => false
  (s.core c).vault.reqs.filterMap fun x => match x.cont with
    | .tile ref =>
      if (x.id == r.id || (x.bank == r.bank && x.row == r.row && x.started)) && partWay ref then some ref else none
    | _ => none
/-- Begins the repair of a row (R192, assumption 59): its bank is unavailable for 400 clocks; without a spare row only the event
remains. Tile loads from the row stop. -/
def State.repairRow (s : State) (c : Nat) (r : VReq) : State :=
  let b := r.bank
  let used := SMap.get (s.core c).vault.spareRows b 0
  if used ≥ 64 then s.supEvent c causeVaultEvent 0 1
  else
    let s := s.onVault c fun v =>
      { v with spareRows := SMap.set v.spareRows b (used + 1), corrected := SMap.del v.corrected (b * 8192 + r.row)
               busy := SMap.set v.busy b (max (SMap.get v.busy b 0) (s.cycle + 401)) }.shut b s.cycle
    let s := s.after 401 .rowRepairEnd [c, b]
    (s.repairEnds c r).foldl (fun s ref => s.tileStop c ref causeVaultRepair) s

/-- The physical faults that a beat's read meets (R191): each is met once; it says whether the row must be repaired. A read
with a corrected error is a beat, and a repair begins the row's count again (R192, which leaves both open; assumption 59). -/
def State.beatFaults (s : State) (c : Nat) (r : VReq) : State × Bool :=
  let w := (s.core c).vault.beatBytes
  let a := vaultLoc c (r.addr / 256 * 256 + w * r.done)
  let hit (p : Nat × Nat) : Bool := a ≤ p.1 * 16 && p.1 * 16 < a + w
  let fs := s.badGranules.filter hit
  let reads : Bool := match r.cont with
    | .write _ => false
    | _ => true
  if fs.isEmpty || !reads then (s, false)
  else
    let s := { s with badGranules := s.badGranules.filter fun p => !hit p }
    let hard := (fs.filter fun p => p.2 == 1).map (·.1)
    let soft := (fs.filter fun p => p.2 != 1).length
    let s := (s.markPoison hard).count c 8 soft
    let key := r.bank * 8192 + r.row
    let n := SMap.get (s.core c).vault.corrected key 0 + (if soft > 0 then 1 else 0)
    (s.onVault c fun v => { v with corrected := SMap.set v.corrected key n }, !hard.isEmpty || (soft > 0 && n ≥ 4))

/-- `VAULT_BEAT`: one beat crosses the bus (R189, R191, R192). -/
def execVaultBeat (s : State) : Host.Outcome State Fault Refusal :=
  let c := s.arg 0
  match s.nextBeat c with
  | none => .next s
  | some r =>
    let f := s.beatFaults c r
    let v := (s.core c).vault
    let s := f.1.charge r.launch 750
    let s := s.onVault c fun v =>
      { v with lastBeat := s.cycle, lastFor := some r.cont
               reqs := v.reqs.map fun x => if x.id == r.id then { x with done := x.done + 1, started := true } else x }
    let s := match r.cont with
      | .tile ref => s.tileBeat c ref r.addr ((r.done + 1) * v.beatBytes)
      | _ => s
    let s := if f.2 then s.repairRow c r else s
    .next ((if r.done + 1 = v.needs r then s.vaultEnd c { r with done := r.done + 1 } else s).vaultLook c)

/-- A bank becomes available: its requests activate their rows, unless the bus still stalls; `again` marks the wait for that
as the stall's, also where the request came while the bank was unavailable (R195, assumption 59). -/
def State.bankFree (s : State) (c b : Nat) (again : Instr) : State :=
  let v := (s.core c).vault
  if s.cycle < SMap.get v.busy b 0 then s
  else if s.cycle < v.busStall then
    (s.onVault c fun v => { v with busy := SMap.set v.busy b v.busStall }).after (v.busStall - s.cycle) again [c, b]
  else
    let s := (s.onVault c fun v =>
      { v with busy := SMap.del v.busy b, reopen := SMap.del v.reopen b
               rows := (match v.reopen.find? fun p => p.1 == b with
                 | some p => SMap.set v.rows b (p.2, s.cycle + 20)
                 | none => v.rows) }).vaultLook c
    s.onVault c fun v => { v with reqs := v.reqs.map fun x => if x.bank == b && x.ready != 0 then { x with again := true } else x }

/-- `ROW_REPAIR_END` (R192). -/
def execRowRepairEnd (s : State) : Host.Outcome State Fault Refusal := .next (s.bankFree (s.arg 0) (s.arg 1) .rowRepairEnd)

/-- A bank begins a refresh on this clock (R190). -/
def State.refreshDue (s : State) (c b : Nat) : Bool :=
  let i := bitsOf (s.refcfgOf c) 0 16
  i != 0 && s.cycle % i == b * i / 32
/-- `REFRESH_START`: the bank's row closes and the bank is unavailable, if its refresh begins on this clock (R190). -/
def execRefreshStart (s : State) : Host.Outcome State Fault Refusal :=
  let c := s.arg 0
  let b := s.arg 1
  let len := bitsOf (s.refcfgOf c) 16 8
  .next (if s.refreshDue c b then
    (s.onVault c fun v =>
      { v with busy := SMap.set v.busy b (max (SMap.get v.busy b 0) (s.cycle + len)) }.shut b s.cycle).after len .refreshEnd [c, b]
    else s)

/-- `REFRESH_END` (R190). -/
def execRefreshEnd (s : State) : Host.Outcome State Fault Refusal := .next (s.bankFree (s.arg 0) (s.arg 1) .refreshEnd)

/-- `LANE_FAILURE` (R193): the bus stalls for 2,800 clocks; without a spare it falls to half width when they end, and at half
width the core is contained. -/
def execLaneFailure (s : State) : Host.Outcome State Fault Refusal :=
  let c := s.arg 0
  let v := (s.core c).vault
  if v.half ∧ v.spareLanes = 0 then .next (s.now .containment [c])
  else
    let fall := v.spareLanes = 0
    let s := s.onVault c fun v => { v with busStall := max v.busStall (s.cycle + 2800), spareLanes := v.spareLanes - 1 }
    let s := s.onVault c fun v => { v with falling := v.falling || fall }
    .next (s.after 2800 .laneRepairEnd [c])

/-- The bus falls to half width (R193): tile loads in flight end, any other transfer in flight is served whole afterwards, and
the supervisor is told. -/
def State.fallToHalf (s : State) (c : Nat) : State :=
  let v := (s.core c).vault
  let flying := v.reqs.filterMap fun r => match r.cont with
    | .tile ref => if r.started || (s.strand? c ref).any fun t => t.landed != 0 then some ref else none
    | _ => none
  let s := s.onVault c fun v => { v with half := true, falling := false, reqs := v.reqs.map fun r => { r with done := 0 } }
  (flying.foldl (fun s ref => s.tileStop c ref causeLaneRepair) s).supEvent c causeVaultEvent 0 2
/-- `LANE_REPAIR_END`: the bus moves again, unless a later failure still stalls it (R193). -/
def execLaneRepairEnd (s : State) : Host.Outcome State Fault Refusal :=
  let c := s.arg 0
  let v := (s.core c).vault
  .next (if s.cycle < v.busStall then s else (if v.falling then s.fallToHalf c else s).vaultLook c)

/-- `VAULT_BUS_STALL_END`: a thermal stall is over (R194). -/
def execVaultBusStallEnd (s : State) : Host.Outcome State Fault Refusal := .next (s.vaultLook (s.arg 0))

/-! The write queue (R209). -/

/-- `WRITE_QUEUE_SEND`: the head of the queue reaches the controller on this clock. -/
def execWriteQueueSend (s : State) : Host.Outcome State Fault Refusal :=
  let c := s.arg 0
  match (s.core c).vault.wq.find? fun e => !e.sent with
  | none => .next s
  | some e =>
    let r : VReq := { id := s.pktNum, addr := e.line * 64, beats := 1, arrived := true, cont := .write e.line
                      launch := e.launch }
    let s := { s with pktNum := s.pktNum + 1 }
    .next ((s.onVault c fun v =>
      { v with wq := updFirst (fun x => !x.sent) (fun x => { x with sent := true }) v.wq, reqs := v.reqs ++ [r] }).vaultLook c)

/-! Register lines (R132–R134). -/

def rcSet (a : Nat) : Nat := a / 256 % 128
/-- The line that a fill replaces: the oldest evictable one, else the least recently used that is neither pinned nor needed by
the instruction that waits for the fill (R134); of lines marked or used on one clock the one first listed, which the rule leaves
open (assumption 72). -/
def State.rcVictim (s : State) (c a : Nat) (needed : List Nat) : Option Nat :=
  let set := (s.core c).rc.filter fun x => rcSet x.addr == rcSet a
  let ls := set.filter fun x => !s.rcPinned c x.addr && !needed.contains x.addr
  let least (key : RcLine → Nat) (l : List RcLine) : Option Nat :=
    (l.foldl (fun m x => match m with
      | some y => if key x < key y then some x else m
      | none => some x) none).map (·.addr)
  let marked := set.filter fun x => x.mark.isSome && !needed.contains x.addr
  if marked.isEmpty then least (·.used) ls else least (fun x => x.mark.getD 0) marked
/-- Installs a line in a way of its set, in place of `victim` if it is full; a line filled for delivery is dirty (R362), and a dirty victim is written back: its four lines
join the write queue (R134). -/
def State.rcInstall (s : State) (c n a : Nat) (victim : Option RcLine) : State :=
  let keep (x : RcLine) : Bool := x.addr != a && (victim.map (·.addr)) != some x.addr
  let s := s.onCore c fun k => { k with rc := k.rc.filter keep ++ [⟨a, s.cycle, none, n, n == 16⟩] }
  match victim with
  | some x =>
    if x.dirty then s.onVault c fun v =>
      { v with wq := (below 4).foldl (fun q i => joinQueue q (x.addr / 64 + i) (2 ^ 64 - 1) none) v.wq }
    else s
  | none => s

/-- `REGISTER_LINE_FILL`: a line arrives, and the last one lets the slot issue (R133) or the handler start (R362). It waits for a way that may be replaced,
and for room in the write queue for a dirty line's write-back (R134, R209). -/
def execRegisterLineFill (s : State) : Host.Outcome State Fault Refusal :=
  let c := s.arg 0
  let n := s.arg 1
  let a := s.arg 2
  let k := s.core c
  let needs := ((s.slot c n).wait.map (·.needs)).getD []
  let full := (k.rc.filter fun x => rcSet x.addr == rcSet a).length ≥ 11 && !(k.rc.any fun x => x.addr == a)
  let victim := if full then (s.rcVictim c a needs).bind fun v => k.rc.find? fun x => x.addr == v else none
  let room := !(victim.any fun x => x.dirty) || k.vault.wq.length + 4 ≤ 64
  .next (if (full && victim.isNone) || !room then s.after 1 .registerLineFill [c, n, a]
    else
      let s := s.rcInstall c n a victim
      let s := if n = 16 then s.onTrap c fun k => { k with fills := k.fills.filter fun x => x != a } else s
      if (s.slot c n).why == .line || ((s.core c).swapped.any fun p => p.1 == n && p.2.why == .line) then s.arrived c n id
      else s)

/-! The vector unit (R19). -/

/-- `VECTOR_START`: the unit takes the oldest latched instruction. -/
def execVectorStart (s : State) : Host.Outcome State Fault Refusal :=
  let c := s.arg 0
  match (s.core c).latch with
  | [] => .next s
  | (_, n, ws) :: rest =>
    if s.cycle < (s.core c).vfree then .next s
    else
      let s := s.onCore c fun k => { k with latch := rest, vfree := s.cycle + 2 }
      let dated (b : Nat × RegFile × List (Nat × Nat)) : Nat × RegFile × List (Nat × Nat) :=
        if b.1 = 2 ^ 70 then (s.cycle + 1, b.2) else b
      let s := s.onSlot c n fun t =>
        { t with vready := if t.vready = 2 ^ 70 then s.cycle + 2 else t.vready, before := t.before.map dated }
      let latched (w : EvcWrite) : Bool := w.slot == n && w.clock == 2 ^ 70
      let s := s.onCore c fun k => { k with evcs := updFirst latched (fun w => { w with clock := s.cycle + 1 }) k.evcs }
      .next (ws.foldl (fun s w => s.share c { w with clock := s.cycle + 1 }) s)

/-- `YIELD_END`: the slot's idle rotations are over (R268). -/
def execYieldEnd (s : State) : Host.Outcome State Fault Refusal :=
  .next (s.onSlot (s.arg 0) (s.arg 1) fun t => if t.idle ≤ s.cycle then { t with idle := 0 } else t)

end Sys2Proof.Machine
end

