-- ==== Sys2Proof/Machine/Homes.lean ====
section
/-!
DEFINITION. The vault agent of a home (R68, R69, R291): its queue, what each request does there, how it is refused
(R313, R324), and writes to the object table (R311, R312).
-/
namespace Sys2Proof.Machine

/-- Where a byte of an object lies now, by the table (R308). -/
def State.siteOf (s : State) (obj x : Nat) : Nat × Nat :=
  let t := s.walkResult 0 obj (x / 2 ^ 21)
  s.home ⟨obj, t.ent.gen, t.ent, x, [t]⟩ x

/-! Writes to the object table. -/

/-- Replaces `n` bytes of a number from byte `at_`. -/
def putBits (x at_ v n : Nat) : Nat := (below n).foldl (fun x i => withByte x (at_ + i) (byteOf v i)) x

/-- The migration that a page entry with `MIG` describes, if its homes are live cores (R317). -/
def State.migOf (s : State) (entry oldBase : Nat) : Option Mig :=
  let pe := s.tableWord entry 8
  match s.namedPos (bitsOf pe 44 6) (bitsOf pe 34 10), s.namedPos (bitsOf pe 18 6) (bitsOf pe 8 10) with
  | some old, some new =>
    some { id := s.pktNum, entry := entry, old := old, oldBase := oldBase, new := new, newBase := bitsOf pe 24 10 * 2 ^ 21
           markers := 9 * s.logical.length, held := [] }
  | _, _ => none
/-- Records a migration; the pair names it for the table write that begins it. -/
def State.putMig (s : State) (m : Mig) : State := { s with pktNum := s.pktNum + 1, migs := s.migs ++ [m] }
def State.onMig (s : State) (id : Nat) (f : Mig → Mig) : State :=
  { s with migs := updFirst (fun x => x.id == id) f s.migs }

/-- Sends a shootdown of a table line to every die; the write settles when all have acknowledged (R312) and the homes of an
object that it creates have cleared its range, for `clear` clocks (R311). -/
def State.startWrite (s : State) (line clear : Nat) (waiter : Option (Nat × Nat × Word)) (posted : Option (Nat × Nat × Nat))
    (group : Option (Nat × Nat)) (migs : List (Nat × Nat)) : State :=
  let id := s.pktNum
  let src := s.tableHome (line * 64)
  let acks := if clear = 0 then 24 else 25
  let s := { s with pktNum := id + 1, writes := s.writes ++ [⟨id, line, acks, waiter, posted, group, migs⟩] }
  let s := if clear = 0 then s else s.after clear .tableWriteSettled [id, 1]
  (below 24).foldl (fun s d => s.send src (36 * d) control 1 none (.shootdown id line d)) s

/-- Empties the words and clears the tags of a range of vault. -/
def State.blank (s : State) (loc n : Nat) : State :=
  { s.emptyWords loc n with tags := s.tags.filter fun g => g * 16 + 16 ≤ loc || loc + n ≤ g * 16 }
/-- The range of a `scratch` or `shared` object at each home: the home, the location and the bytes. -/
def State.objRanges (s : State) (obj : Nat) : List (Nat × Nat × Nat) :=
  let e := s.objEntry obj
  let home (i : Nat) : Nat := (s.namedPos e.hpkg (e.hcore + i)).getD 0
  if !e.ok then []
  else if e.kind = kScratch then [(home 0, scratchLoc (home 0) e.loc, e.len)]
  else if e.kind ≠ kShared then []
  else if e.paged then
    (pagesOf 0 e.len).filterMap fun p =>
      let t := s.walkResult 0 obj p
      if t.mapped then some (t.pageCore, vaultLoc t.pageCore t.pageBase, min (2 ^ 21) (e.len - p * 2 ^ 21)) else none
  else
    let g := 2 ^ e.glog
    let all := (e.len + g - 1) / g
    let bytes (i : Nat) : Nat :=
      if e.hmode ≠ 1 then e.len
      else (all + e.hcnt - i) / (e.hcnt + 1) * g - (if (all - 1) % (e.hcnt + 1) = i then all * g - e.len else 0)
    ((below (e.hcnt + 1)).map fun i => (home i, vaultLoc (home i) e.loc, bytes i)).filter fun r => r.2.2 != 0
/-- What creating a `scratch` or `shared` object does to its range (R311). -/
def State.createObject (s : State) (obj : Nat) : State :=
  (s.objRanges obj).foldl (fun s r => s.blank r.2.1 r.2.2) s
/-- The clocks for which the homes clear it, at 64 KiB a clock each (R311). -/
def State.createClocks (s : State) (obj : Nat) : Nat :=
  let rs := s.objRanges obj
  let at_ (c : Nat) : Nat := (rs.filter fun r => r.1 == c).foldl (fun n r => n + r.2.2) 0
  rs.foldl (fun m r => max m ((at_ r.1 + 65535) / 65536)) 0

/-- The page entries of a line in which a write begins a migration, or another one: their table offsets and old frames
(R317). -/
def newMigs (line old new : Nat) : List (Nat × Nat) :=
  if line * 64 < 0x40000000 then []
  else (below 8).filterMap fun i =>
    let a := bitsOf old (64 * i) 64
    let b := bitsOf new (64 * i) 64
    if bitOf b 1 && bitOf b 0 && bitOf a 0 && (!bitOf a 1 || bitsOf a 8 26 != bitsOf b 8 26) then some (line * 64 + 8 * i, bitsOf a 24 10 * 2 ^ 21) else none

/-- A write to the table at its home: discarded in the device range (R305), else applied and sent out for settlement.
`hostWrite` says that the device itself writes. -/
def State.tableApply (s : State) (off : Nat) (device : Bool) (write : State → State) (waiter : Option (Nat × Nat × Word))
    (posted : Option (Nat × Nat × Nat)) (group : Option (Nat × Nat)) : State :=
  if off < 0x400000 ∧ !device then s
  else
    let line := off / 64
    let old := s.tableWord (line * 64) 64
    let s := write s
    let new := s.tableWord (line * 64) 64
    let creates := line * 64 < 0x40000000 ∧ bitsOf old 8 3 = 0 ∧ bitsOf new 8 3 ≠ 0
    let s := if creates then s.createObject line else s
    let begun := (newMigs line old new).foldl (fun (a : State × List (Nat × Nat)) m => match a.1.migOf m.1 m.2 with
      | some m => (a.1.putMig m, a.2 ++ [(m.entry, m.id)])
      | none => a) (s, [])
    begun.1.startWrite line (if creates then s.createClocks line else 0) waiter posted group begun.2
/-- What staged start writes into the table (R393). -/
def State.tablePut (s : State) (x v n : Nat) : State := s.writeMem (s.tableLoc x) v n
/-- A core sends a write of a table entry to the entry's home, for the device itself or for the host (R310, R387). -/
def State.sendPut (s : State) (c off v n : Nat) (host : Bool) (group : Option (Nat × Nat)) : State :=
  s.sendReq { op := .entryPut n v host group, core := c, slot := 0, obj := 1, gen := (s.objEntry 1).gen, off := off
              home := s.tableHome off, addr := s.tableLoc off % 2 ^ 31, posted := none, window := false }

/-! Answers. -/

def State.answer (s : State) (c : Nat) (r : Req) (w : Word) (v : Vec) (n : Nat) : State :=
  s.send c r.core (if n ≤ 256 then urgentClass else bulk) (flitsFor n) r.acct (.reply r.core r.slot w v none)
def State.answerErr (s : State) (c : Nat) (r : Req) (cause value : Nat) : State :=
  s.send c r.core urgentClass 1 r.acct (.reply r.core r.slot 0 0 (some (cause, r.off, value)))
def State.answerDone (s : State) (c : Nat) (r : Req) (num : Nat) (refused : Bool) : State :=
  s.send c r.core control 1 r.acct (.performed r.core r.slot num refused)
/-- An entry is acknowledged, or sent back to be shipped again; then the later entries of its log that have left for this home
come back as well, so that the home applies them in log order (R58, R202). -/
def State.ackEntry (s : State) (c : Nat) (r : Req) (pos : Nat) (again : Bool) : State :=
  let me := (r.core, pos)
  let s := s.onCore c fun k =>
    { k with gaps := if again then (if k.gaps.contains me then k.gaps else k.gaps ++ [me]) else k.gaps.filter fun g => g != me }
  s.send c r.core control 1 none (.logAck r.core pos c again)

/-- A home turns a request away: an entry is acknowledged and discarded, a posted operation is refused, a returning one
ends in the cause (R313, R324). -/
def State.refuse (s : State) (c : Nat) (r : Req) (cause value : Nat) : State :=
  match r.op with
  | .entry e => s.ackEntry c r e.pos false
  | .entryPut _ _ _ _ => s
  | _ => match r.posted with
    | some num => s.answerDone c r num true
    | none => s.answerErr c r cause value

/-! The agent's queue (R291). -/

/-- The request a packet carries. -/
def State.reqIn (s : State) (pkt : Nat) : Option (Nat × Req) :=
  match s.packet? pkt with
  | some p => match p.body with
    | .req r => some (p.dst, r)
    | _ => none
  | none => none
def State.agentFree (s : State) (c : Nat) : State := s.onCore c fun k => { k with agentBusy := false }

/-- Bytes of the vault a request reads. -/
def HomeOp.reads : HomeOp → Nat
  | .readLine => 64
  | .word _ => 8
  | .rcRead n => n
  | .rcWrite _ _ => 0
  | .rcAdd _ => 8
  | .rcSwap _ => 8
  | .rcCas _ _ => 8
  | .entry _ => 0
  | .entryPut _ _ _ _ => 0

/-- The settled migration that takes an address away from a home, and the one that brings it, from the table write until its
drained packet has come (R317). -/
def State.migFrom (s : State) (c addr : Nat) : Option Mig :=
  s.migs.find? fun m => m.settled && m.old == c && m.oldBase == addr / 2 ^ 21 * 2 ^ 21
def State.migTo (s : State) (c addr : Nat) : Option Mig :=
  s.migs.find? fun m => !m.open_ && m.new == c && m.newBase == addr / 2 ^ 21 * 2 ^ 21

/-- The vault address by which a packet for the agent reaches memory that may migrate, if it does. -/
def Body.vaultAddr : Body → Option Nat
  | .req r => some r.addr
  | .segment _ _ _ place bytes _ _ _ => if place = 3 then (bytes.head?.map (·.1)) else none
  | .fetch f => if f.place = 0 then (f.ps.head?.map (·.addr)) else none
  | _ => none
/-- A packet for the agent as its page's new home is to receive it. -/
def Body.moved (b : Body) (m : Mig) : Body :=
  let to_ (a : Nat) : Nat := m.newBase + a % 2 ^ 21
  match b with
  | .req r => .req { r with home := m.new, addr := to_ r.addr }
  | .segment c n k p bytes bad o g => .segment c n k p (bytes.map fun x => (to_ x.1, x.2)) (bad.map to_) o g
  | .fetch f => .fetch { f with ps := f.ps.map fun p => { p with addr := to_ p.addr } }
  | b => b
/-- The kibibytes of a page. -/
abbrev pageParts : Nat := 2048
/-- A packet for a page that has left goes on to its new home, behind the page itself and so as a bulk packet; while the page is
still being sent it waits (R317 step 2, assumption 79). -/
def State.forward (s : State) (c : Nat) (m : Mig) (p : Packet) : State :=
  if m.sent < pageParts then
    { s with packets := SMap.set s.packets p.id p }.onMig m.id fun x => { x with back := x.back ++ [p.id] }
  else
    (s.dropPacket p.id).sendPkt { p with src := c, dst := m.new, cls := bulk, sep := 1, cut := false, resent := false, body := p.body.moved m }
/-- What a home has waited for reaches a packet that it had already begun to serve: the page's migration has settled
(R317 step 2). -/
def State.leftBehind (s : State) (c : Nat) (p : Packet) : Option Mig := p.body.vaultAddr.bind (s.migFrom c)

/-- The device's own accesses: its writes of table entries, the walkers' reads and what a migration moves. No rule lets a
contained home turn these away (assumption 79). -/
def Body.device : Body → Bool
  | .req r => match r.op with
    | .entryPut _ _ _ _ => true
    | _ => false
  | .fetch f => walkCmd ≤ f.num && f.num < countCmd
  | .marker _ _ => true
  | .drained _ => true
  | .page _ _ _ _ _ _ => true
  | _ => false
/-- The answer of a home that is contained (R289, R323, R324). -/
def State.turnAway (s : State) (c : Nat) (p : Packet) : State :=
  let s := s.dropPacket p.id
  match p.body with
  | .req r => s.refuse c r causeLinkLost 1
  | .segment core num key _ _ _ _ _ => s.send c core control 1 p.launch (.segAck core num key 0 3)
  | .fetch f => s.send c f.core control 1 p.launch (.fetched f [] [] 3)
  | _ => s

/-- The 256-byte blocks of a core's vault that pieces touch. -/
def blocksOfPieces (ps : List Piece) : List Nat :=
  ps.foldl (fun acc p =>
    (upFrom (p.addr / 256) ((p.addr + p.n - 1) / 256 - p.addr / 256 + 1)).foldl
      (fun acc b => if acc.contains b then acc else acc ++ [b]) acc) []

/-- The reads of `n` bytes at a vault address: one request for each row (R189). -/
def rowReads (a n : Nat) : List (Nat × Nat) :=
  (upFrom (a / 8192) ((a + n - 1) / 8192 - a / 8192 + 1)).map fun r =>
    let lo := max a (r * 8192)
    let hi := min (a + n) ((r + 1) * 8192)
    (lo, (lo % 256 + (hi - lo) + 255) / 256)
/-- The agent starts a packet (R291): its vault reads reach the controller two clocks later, and a packet without reads is
performed then. -/
def State.agentServe (s : State) (c : Nat) (p : Packet) : State :=
  let s := s.onCore c fun k => { k with agentBusy := true, agentLeft := 1 }
  match p.body with
  | .req r =>
    let n := r.op.reads
    if n = 0 then s.after 2 r.op.event (if r.op.event = .vaultAgentRequest then [c, p.id] else [p.id])
    else
      let reads := rowReads r.addr n
      reads.foldl (fun s x => s.vreq c x.1 x.2 (.agent p.id) r.acct) (s.onCore c fun k => { k with agentLeft := reads.length })
  | .segment _ _ _ _ _ _ _ _ => s.after 2 .segmentApply [p.id]
  | .fetch f =>
    let bs := if f.place = 0 then blocksOfPieces f.ps else []
    if bs.isEmpty then s.after 2 .vaultAgentRequest [c, p.id]
    else bs.foldl (fun s b => s.vreq c (b * 256) 1 (.agent p.id) p.launch)
      (s.onCore c fun k => { k with agentLeft := bs.length })
  | .marker _ _ => s.after 2 .fenceMarker [p.id]
  | .drained _ => s.after 2 .drainedPacket [p.id]
  | .page _ _ _ _ _ _ => s.after 2 .vaultAgentRequest [c, p.id]
  | _ => s

/-- The agent takes the packet at the head of its queue. -/
def State.agentStart (s : State) (c : Nat) : State :=
  let k := s.core c
  match k.agentQ with
  | [] => s
  | pkt :: rest =>
    if k.agentBusy then s
    else
      let s := (s.onCore c fun k => { k with agentQ := rest }).agentAdmit c 64
      match s.packet? pkt with
      | none => s
      | some p =>
        if k.contained && !p.body.device then s.turnAway c p
        else match s.leftBehind c p with
          | some m => s.forward c m p
          | none => match p.body.vaultAddr.bind (s.migTo c) with
            | some m =>
              if p.sep = 1 then s.agentServe c p
              else s.onMig m.id fun x => { x with held := x.held ++ [pkt] }
            | none => s.agentServe c p

/-- The write queue takes a line of a vault now (R209). -/
def State.lineRoom (s : State) (c line : Nat) : Bool :=
  (s.core c).vault.late.isEmpty && (s.core c).vault.takesLine line
/-- Whether the write queue takes what a request writes (R209); the lines of an `RCALL` write wait one by one. -/
def State.opRoom (s : State) (c : Nat) (r : Req) : Bool :=
  match r.op with
  | .readLine => true
  | .rcRead _ => true
  | .rcWrite _ _ => true
  | .word op => s.wordRoom (.vault c r.addr) op
  | .rcAdd _ => s.lineRoom c (r.addr / 64)
  | .rcSwap _ => s.lineRoom c (r.addr / 64)
  | .rcCas _ _ => s.lineRoom c (r.addr / 64)
  | .entry _ => s.lineRoom c (r.addr / 64)
  | .entryPut _ _ _ _ => s.lineRoom c (r.addr / 64)

/-- Performs a request whose reads have come, unless its generation is stale (R313) or its page has left meanwhile (R317); it
waits for room in the write queue, looking again on every clock. -/
def State.perform (s : State) (pkt : Nat) (f : State → Nat → Req → State) : State :=
  match s.packet? pkt, s.reqIn pkt with
  | some p, some (c, r) =>
    let gone := (s.core c).contained && !p.body.device
    match s.leftBehind c p with
    | some m => if gone then ((s.agentFree c).dropPacket pkt).refuse c r causeLinkLost 1 else (s.agentFree c).forward c m p
    | none =>
      if !gone && !s.opRoom c r then s.after 1 r.op.event s.evt
      else
        let s := (s.dropPacket pkt).agentFree c
        if gone then s.refuse c r causeLinkLost 1
        else if (s.objEntry r.obj).gen ≠ r.gen then s.refuse c r causeCapTag 0
        else f s c r
  | _, _ => s

/-! Remote calls. -/

/-- What a reply of a remote call says besides its bytes: the offset of the first and their number. -/
def Req.span (r : Req) (n : Nat) : Word := BitVec.ofNat 64 (r.off % 2 ^ 40 + n * 2 ^ 40)
/-- A remote write whose lines have all entered the write queue is answered; else it is looked at again on the next clock
(R291). -/
def State.rcWritten (s : State) (c pkt : Nat) (r : Req) : State :=
  if s.isLate c (.agent pkt) then s.after 1 .vaultAgentRequest [c, pkt, 1]
  else ((s.dropPacket pkt).agentFree c).answer c r 0 0 0
/-- Bytes of a remote call enter its home's write queue, and the word waiters of their lines look again. -/
def State.rcPut (s : State) (c pkt x n : Nat) (r : Req) : State :=
  (s.vaultWrite c (natCells r.addr x n) r.acct (.agent pkt)).wakeRange (.vault c r.addr) n

/-- One remote call at its home (R290, R291); the packet of a write stays until its last line has entered. -/
def State.rcallAt (s : State) (c : Nat) (r : Req) (pkt : Nat) (p : Packet) : State :=
  let bad (n : Nat) : Bool := s.poisoned (vaultLoc c r.addr) n
  let read (n : Nat) : Nat := cellsNat (s.vaultCells c r.addr 0 n)
  let swap (new : Nat → Nat) : State :=
    if bad 8 then s.answerErr c r causePoison 0
    else (s.rcPut c pkt (new (read 8) % 2 ^ 64) 8 r).answer c r (r.span 8) (BitVec.ofNat 8192 (read 8)) 8
  match r.op with
  | .rcRead n =>
    if bad n then s.answerErr c r causePoison 0 else s.answer c r (r.span n) (BitVec.ofNat 8192 (read n)) n
  | .rcWrite n v =>
    let s := { s with packets := SMap.set s.packets pkt p }.onCore c fun k => { k with agentBusy := true }
    (s.rcPut c pkt (v.toNat % 256 ^ n) n r).rcWritten c pkt r
  | .rcAdd v => swap fun old => old + v.toNat
  | .rcSwap v => swap fun _ => v.toNat
  | .rcCas cmp new => swap fun old => if old = cmp.toNat then new.toNat else old
  | _ => s

/-- The bytes of a fetch as they stand at its home, by index, and which are poisoned (R191). -/
def State.fetchBytes (s : State) (c : Nat) (f : Fetch) : List Host.Cell × List Nat :=
  let loc (p : Piece) : Nat := if f.place = 1 then scratchLoc c p.addr else vaultLoc c p.addr
  (f.ps.flatMap fun p => s.readCells (loc p) p.key p.n,
   f.ps.flatMap fun p => (below p.n).filterMap fun i => if s.poisoned (loc p + i) 1 then some (p.key + i) else none)
/-- A collective's read of its participant's own range is the last access to it: the range's entries are freed (R284). -/
def State.readSettle (s : State) (c : Nat) (f : Fetch) : State :=
  let part := ((s.die (posDie f.core)).insts.find? fun x => x.id == f.num).bind fun x => x.ms[f.rank]?
  match part with
  | some m => if m.core = c then
      (s.onCore c fun k => { k with board := k.board.filter fun e => !(e.holder == m.num && !e.write) }).pokeAgain c .remote
    else s
  | none => s
/-- An engine's or a walker's read at its home: the bytes leave (R291). A read of an object that has been deleted or replaced
since is discarded (R313); its bytes then count as poisoned, for which the rules have no word (assumption 87). -/
def State.fetchAt (s : State) (c : Nat) (p : Packet) (f : Fetch) : State :=
  let stale := f.obj != 0 && f.obj != aliasObj && (s.objEntry f.obj).gen != f.gen
  let s := if (s.core c).contained then s else s.readSettle c f
  let reply (s : State) (r : List Host.Cell × List Nat) : State :=
    s.send c f.core (if f.urgent then urgentClass else bulk) (flitsFor r.1.length) p.launch (.fetched f r.1 r.2 0)
  let free (s : State) : State := (s.dropPacket p.id).agentFree c
  if (s.core c).contained && !p.body.device then (free s).send c f.core control 1 p.launch (.fetched f [] [] 3)
  else match s.leftBehind c p with
    | some m => (s.agentFree c).forward c m p
    | none =>
      let s := if f.place = 1 then f.ps.foldl (fun s p => s.meetFaults c (scratchLoc c p.addr) p.n) s else s
      let keys := f.ps.flatMap fun p => upFrom p.key p.n
      reply (free s) (if stale then (keys.map fun k => (k, 0), keys) else s.fetchBytes c f)

/-! Pages on their way (R317, assumption 79). -/

/-- The old home sends the drained packet when the whole page and everything that reached it have left, and every marker has
come (R317 step 3). -/
def State.migCheck (s : State) (id : Nat) : State :=
  match s.migs.find? fun m => m.id == id with
  | some m => if m.settled && m.markers = 0 && m.sent = pageParts && m.back.isEmpty then s.send m.old m.new bulk 1 none (.drained id) else s
  | none => s
/-- The old home asks its vault for the next kibibyte, unless a write of the page still waits for the write queue. -/
def State.pageAsk (s : State) (m : Mig) : State :=
  let waits := (s.core m.old).vault.late.any fun l => l.cells.any fun x => x.1 / 2 ^ 21 == m.oldBase / 2 ^ 21
  if waits then s.after 1 .vaultAgentRequest [m.old, m.id, 0, 0]
  else s.vreq m.old (m.oldBase + 1024 * m.sent) 4 (.page m.id) none
/-- A kibibyte has been read: it leaves, and with the last one what waited goes after it (R317 step 2). -/
def State.pageRead (s : State) (m : Mig) : State :=
  let at_ := 1024 * m.sent
  let lo := vaultLoc m.old (m.oldBase + at_)
  let cells : List Host.Cell := (s.mem.filter fun p => lo ≤ p.1 && p.1 < lo + 1024).map fun p => (p.1 - lo + at_, p.2)
  let marks (unit : Nat) (l : List Nat) : List Nat :=
    (l.filter fun g => lo ≤ g * unit && g * unit < lo + 1024).map fun g => (g * unit - lo + at_) / unit
  let s := s.send m.old m.new bulk (flitsFor 1024) none
    (.page m.id m.sent cells (marks 16 s.tags) (marks 16 s.poison) (marks 1 s.full))
  let s := s.onMig m.id fun x => { x with sent := x.sent + 1 }
  if m.sent + 1 < pageParts then s.pageAsk { m with sent := m.sent + 1 }
  else
    let s := s.onMig m.id fun x => { x with back := [] }
    let gone := { m with sent := pageParts }
    (m.back.foldl (fun s pkt => match s.packet? pkt with
      | some p => s.forward m.old gone p
      | none => s) s).migCheck m.id
/-- A kibibyte of a page arrives in the new frame when the write queue takes its 16 lines; with the last one the operations that
waited at words of the page wait here (R317 step 4). -/
def State.pageArrive (s : State) (c : Nat) (p : Packet) : State :=
  match p.body with
  | .page id k cells tags poison full => match s.migs.find? fun m => m.id == id with
    | none => (s.dropPacket p.id).agentFree c
    | some m =>
      let v := (s.core c).vault
      if !v.late.isEmpty || 64 < v.wq.length + 16 then s.after 1 .vaultAgentRequest [c, p.id]
      else
        let to_ := vaultLoc c m.newBase
        let lo := to_ + 1024 * k
        let line := (m.newBase + 1024 * k) / 64
        let s := (s.zeroMem lo 1024).emptyWords lo 1024
        let s := { s with mem := Memory.writeAt s.mem to_ cells
                          tags := (tags.map fun g => g + to_ / 16).foldl setIns s.tags
                          poison := (poison.map fun g => g + to_ / 16).foldl setIns s.poison
                          full := (full.map fun w => w + to_).foldl setIns s.full }
        let s := s.onVault c fun v =>
          { v with wq := (below 16).foldl (fun q i => joinQueue q (line + i) (2 ^ 64 - 1) none) v.wq }
        let s := (s.dropPacket p.id).agentFree c
        if k + 1 < pageParts then s
        else
          let old := vaultLoc m.old m.oldBase
          let ws := m.waiters.map fun w => { w with key := w.key - old + to_ }
          let s := (s.onMig id fun x => { x with waiters := [] }).onCore c fun k => { k with homeWaiters := k.homeWaiters ++ ws }
          ws.foldl (fun s w => s.wakeWord (.vault c (w.key - vaultLoc c 0)) false) s
  | _ => s

/-- A write of a table entry at its home (R310, R387): of the host's, one to a secure entry, one that would make it secure and
one that would make it of kind `context` are discarded. -/
def State.entryPutAt (s : State) (c : Nat) (r : Req) (n v : Nat) (host : Bool) (group : Option (Nat × Nat)) : State :=
  let old := s.tableWord (r.off / 64 * 64) 8
  let new := if r.off % 64 < 8 then putBits old (r.off % 64) v (min n (8 - r.off % 64)) % 2 ^ 64 else old
  if host && (bitOf old 11 || bitOf new 11 || bitsOf new 8 3 == kContext) then s
  else s.tableApply r.off (!host) (fun s => s.enterLine c (natCells r.addr v n) none) none none group

/-- `VAULT_AGENT_REQUEST`: the agent starts the next packet of its queue, performs a remote call, a write of a table entry, an
engine's read or a part of a page's move, or looks again at a remote write (R291, R317). -/
def execVaultAgentRequest (s : State) : Host.Outcome State Fault Refusal :=
  let c := s.arg 0
  let pkt := s.arg 1
  .next (if s.evt.length < 2 then s.agentStart c
    else if s.evt.length = 4 then match s.migs.find? fun m => m.id == pkt with
      | some m => if s.arg 3 = 1 then s.pageRead m else s.pageAsk m
      | none => s
    else match s.packet? pkt with
      | some p => match p.body with
        | .fetch f => s.fetchAt c p f
        | .page _ _ _ _ _ _ => s.pageArrive c p
        | .req r =>
          if s.evt.length = 3 then s.rcWritten c pkt r
          else s.perform pkt fun s c r => match r.op with
            | .entryPut n v host group => s.entryPutAt c r n v host group
            | _ => s.rcallAt c r pkt p
        | _ => s
      | none => s)

/-! Shared words and lines. -/

/-- The bits of the granules of a line that satisfy a test. -/
def granuleBits (loc : Nat) (f : Nat → Bool) : BitVec 4 :=
  (below 4).foldr (fun i acc => acc <<< 1 ||| (if f (loc / 16 + i) then 1#4 else 0)) 0

/-- `HOME_READ`: a snapshot of a line at one instant (R63). -/
def execHomeRead (s : State) : Host.Outcome State Fault Refusal :=
  .next (s.perform (s.arg 0) fun s c r =>
    let loc := vaultLoc c r.addr
    s.send c r.core urgentClass 2 r.acct
      (.lineReply r (BitVec.ofNat 512 (s.readMem loc 64)) (granuleBits loc s.tags.contains) (granuleBits loc s.poison.contains)))

/-- A word operation at its home that proceeds: its effect, its answer and the waiters it lets go on. -/
def State.wordAt (s : State) (c : Nat) (r : Req) (op : WordOp) : Option State :=
  let p := Place.vault c r.addr
  let table := r.obj = 1
  match s.wordStep p op r.acct with
  | none => none
  | some x =>
    let answered (s : State) : State := match r.posted with
      | some num => s.answerDone c r num false
      | none => s.answer c r x.2.1 0 8
    let line (s : State) : Nat := s.tableWord (r.off / 64 * 64) 64
    if table && r.off < 0x400000 then some (answered s)
    else
      let atomic : Bool := match op with
        | .cas t cmp _ => s.readMem p.loc (amoBytes t) == cmp.toNat % 2 ^ (8 * amoBytes t)
        | .amo _ _ _ => true
        | _ => false
      let puts : Bool := match op with
        | .fe m _ => m == .stp || m == .setf
        | .sw m _ => m == .swarm || m == .swadd
        | _ => false
      if table && atomic then
        let posted := r.posted.map fun num => (r.core, r.slot, num)
        let waiter := if posted.isSome then none else some (r.core, r.slot, x.2.1)
        some (s.tableApply r.off false (fun _ => x.1.wakeWord p x.2.2) waiter posted none)
      else
        let t := (answered x.1).wakeWord p x.2.2
        if table && (puts || line t != line s) then some (s.tableApply r.off false (fun _ => t) none none none)
        else some t

/-- A word operation at its home: performed, or left in the home wait list, or refused to come again when the list is
full (R222, R258). -/
def State.homeWord (s : State) (c : Nat) (r : Req) (op : WordOp) : State :=
  if op.reads && s.poisoned (vaultLoc c r.addr) op.bytes && r.posted.isNone then s.answerErr c r causePoison 0
  else match s.wordAt c r op with
    | some s => s
    | none =>
      if (s.core c).homeWaiters.length < 4096 then
        s.onCore c fun k => { k with homeWaiters := k.homeWaiters ++ [⟨vaultLoc c r.addr, op, r.core, r.slot, r.acct⟩] }
      else s.send c r.core urgentClass 1 r.acct (.retry r)

/-- Performs the word operation of a packet. -/
def State.performWord (s : State) (pkt : Nat) : State :=
  s.perform pkt fun s c r => match r.op with
    | .word op => s.homeWord c r op
    | _ => s

/-- `HOME_ATOMIC` (R68). -/
def execHomeAtomic (s : State) : Host.Outcome State Fault Refusal := .next (s.performWord (s.arg 0))
/-- `HOME_FULL_EMPTY` (R69, R222). -/
def execHomeFullEmpty (s : State) : Host.Outcome State Fault Refusal := .next (s.performWord (s.arg 0))
/-- `HOME_SYNC_WORD` (R349, R352). -/
def execHomeSyncWord (s : State) : Host.Outcome State Fault Refusal := .next (s.performWord (s.arg 0))

/-- `HOME_WAIT_RETRY`: a refused operation comes back to its core, which sends it again 256 clocks later (R258). -/
def execHomeWaitRetry (s : State) : Host.Outcome State Fault Refusal :=
  let pkt := s.arg 0
  .next (match s.packet? pkt with
    | some p => match p.body with
      | .retry r => if s.arg 1 = 0 then s.after 256 .homeWaitRetry [pkt, 1] else (s.dropPacket pkt).sendReq r
      | _ => s
    | none => s)

/-! Log entries at home (R202). -/

/-- Writes an entry's bytes, one indivisible write through the home's write queue (R209); a capability entry sets its
granule's tag. -/
def State.applyEntry (s : State) (c addr : Nat) (e : LogEnt) : State :=
  let cells := (natCells addr e.data.toNat (entryBytes e.size)).filter fun p => e.size != 0 || bitOf e.mask (p.1 - addr)
  let cap : Option (Nat × Cap) := if e.kind = 1 then some (addr, ⟨BitVec.ofNat 128 e.data.toNat, e.tag⟩) else none
  if cells.isEmpty then s else s.enterPart c ⟨.agent 0, cells, none, cap, []⟩

/-- A log entry whose `CHECK` fails (R202): the agent ships it again from the ring, or, where the ring itself is corrupted,
the entry's target granules are poisoned at home. -/
def State.checkFails (s : State) (c : Nat) (r : Req) (e : LogEnt) (kind : Nat) : State :=
  let s := { s with badEntries := delFirst (fun x => x == (r.core, e.pos, kind)) s.badEntries }
  if kind = 0 then s.ackEntry c r e.pos true
  else (s.markPoison (granules (vaultLoc c r.addr) (entryBytes e.size))).ackEntry c r e.pos false

/-- `LOG_ENTRY_APPLY`: an entry is applied, but for one whose ring bytes were poisoned, one whose `CHECK` fails, and one that
follows an entry of its log which has been sent back (R58, R202). -/
def execLogEntryApply (s : State) : Host.Outcome State Fault Refusal :=
  .next (s.perform (s.arg 0) fun s c r => match r.op with
    | .entry e =>
      if (s.core c).gaps.any fun g => g.1 == r.core && g.2 < e.pos then s.ackEntry c r e.pos true
      else if e.bad then s.checkFails c r e 1
      else match s.badEntries.find? fun x => x.1 == r.core && x.2.1 == e.pos with
      | some x => s.checkFails c r e x.2.2
      | none =>
        if r.obj = 1 then (s.tableApply r.off false (fun s => s.applyEntry c r.addr e) none none none).ackEntry c r e.pos false
        else
          let n := entryBytes e.size
          ((s.applyEntry c r.addr e).wakeRange (.vault c r.addr) n).ackEntry c r e.pos false
    | _ => s)

/-! Replies. -/

/-- A mirror line takes a way of its set, in place of the least recently read one, among lines last read on one clock the
one installed first (R203, which does not say; assumption 72). -/
def Core.install (k : Core) (m : MirLine) : Core :=
  let set (o l : Nat) : Nat := ((o <<< 34) ^^^ l) % (k.mirsize * 2048)
  let ls := k.mirror.filter fun x => !(x.obj == m.obj && x.line == m.line)
  let mates := ls.filter fun x => set x.obj x.line == set m.obj m.line
  let oldest := mates.foldl (fun (a : Option MirLine) x => match a with
    | some y => if x.used < y.used then some x else a
    | none => some x) none
  let full := 8 ≤ mates.length
  let ls := if full then ls.filter fun x => some x != oldest else ls
  let free := (below 8).find? fun i => mates.all fun x => x.way != i
  { k with mirror := ls ++ [{ m with way := ((if full then oldest.map (·.way) else free).getD 0) }] }
/-- A line is installed, and its bytes go to its place in the mirror region through the write queue (R203, R209). -/
def State.installLine (s : State) (c : Nat) (m : MirLine) (acct : Option Nat) : State :=
  let s := s.onCore c fun k => k.install m
  let way := (((s.core c).mirror.find? fun x => x.obj == m.obj && x.line == m.line).map (·.way)).getD 0
  s.vaultWrite c (natCells ((s.core c).mirrorAddr m.obj m.line way) m.data.toNat 64) acct .own

/-- The pieces of a load that a line snapshot answers. -/
def lineBytes (w : Wait) (line : Nat) (data : Nat) : List Host.Cell :=
  (w.reads.filter fun p => p.off / 64 == line).flatMap fun p =>
    (below p.n).map fun i => (p.key + i, byteOf data (p.off % 64 + i))

/-- `HOME_READ_REPLY`: the snapshot answers the load and is installed unless the line was discarded meanwhile (R63). A snapshot
with a poisoned granule is not installed either, which is this model's choice (assumption 60). -/
def execHomeReadReply (s : State) : Host.Outcome State Fault Refusal :=
  .next (match s.packet? (s.arg 0) with
    | some p => match p.body with
      | .lineReply r data tags poison =>
        let s := s.dropPacket p.id
        let c := r.core
        let line := r.off / 64
        let spoiled := ((s.core c).landed r.slot (some line)).any (·.spoiled)
        let s := s.land c r.slot (some line)
        let s := if spoiled || poison != 0 || (s.core c).mirsize = 0 || (s.core c).contained then s
          else s.installLine c { obj := r.obj, line := line, data := data, tags := tags, used := s.cycle } r.acct
        s.arrived c r.slot fun w =>
          let mine := w.reads.filter fun p => p.off / 64 == line
          let bad := mine.find? fun p => (below p.n).any fun i =>
            poison.getLsbD ((p.off % 64 + i) / 16) && !(w.bytes.any fun b => b.1 == p.key + i)
          let tag := if w.bytes.isEmpty && !mine.isEmpty then tags.getLsbD (r.off % 64 / 16 + ((mine.head?.map fun p => p.off % 64 / 16).getD 0)) else w.tag
          { w with bytes := w.bytes ++ lineBytes w line data.toNat, tag
                   reads := w.reads.filter fun p => p.off / 64 != line
                   err := w.err.orElse fun _ => bad.map fun p => (causePoison, p.off, memValue w.knum (elemOfKey w p.key)) }
      | _ => s
    | none => s)

/-- The name of a collective instance among the commands of its die's engine. -/
abbrev collCmd : Nat := 2 ^ 40
/-- The bytes of an engine's read have come, for a copy's next segment or for a collective instance, a walker's line, or the
sequencer's count: a launch whose count cannot be read ends, with the status *contained* where its home does not answer and
*count range* where it answers with poison (assumption 87). -/
def State.fetched (s : State) (f : Fetch) (bytes : List Host.Cell) (bad : List Nat) (status : Nat) : State :=
  if countCmd ≤ f.num then
    s.now .launchCounted [f.num - countCmd, 1, cellsNat bytes, if status = 0 && !bad.isEmpty then 3 else min status 1]
  else if walkCmd ≤ f.num then s.now .walkComplete [f.core, f.num, 1]
  else if f.num < collCmd then
    let take (m : CopyCmd) : CopyCmd :=
      { m with reading := m.reading - 1, got := m.got ++ bytes, gotBad := m.gotBad ++ bad, status := max m.status status
               failed := m.failed || status != 0 }
    s.onCore f.core fun k => { k with copies := updFirst (fun m => m.num == f.num) take k.copies }
  else
    let join (x : Inst) : Inst :=
      { x with reading := x.reading - 1, got := x.got ++ [(f.rank, bytes, bad)], status := max x.status status }
    s.onDie (posDie f.core) fun d => { d with insts := updFirst (fun x => x.id == f.num) join d.insts }

/-- `REMOTE_REPLY`: a reply ends a parked instruction (R127), or brings an engine what it reads (R291). -/
def execRemoteReply (s : State) : Host.Outcome State Fault Refusal :=
  .next (match s.packet? (s.arg 0) with
    | some p => match p.body with
      | .reply c ref w v err =>
        let s := (s.dropPacket p.id).land c ref (err.map fun e => e.2.1 / 64)
        match err with
        | some _ => s.arriveWord c ref w err
        | none => (s.arrived c ref fun x => match x.fin with
          | .vbytes _ _ => { x with bytes := x.bytes ++ natCells (w.toNat % 2 ^ 40 - x.eoff.getD 0) v.toNat (w.toNat / 2 ^ 40) }
          | .sstat _ => { x with bytes := natCells 0 v.toNat 448 }
          | .load _ _ _ => x
          | .vload _ _ _ => x
          | .capld _ => x
          | _ => { x with word := w }).performRef c ref
      | .fetched f bytes bad status => (s.dropPacket p.id).fetched f bytes bad status
      | .frameReply f code =>
        if f.host then (s.dropPacket p.id).onLink f.core fun l =>
          { l with frameResult := BitVec.ofNat 64 (2 ^ 63 + code), frameBusy := false }
        else (s.dropPacket p.id).arriveWord f.core f.slot (BitVec.ofNat 64 code) none
      | _ => s
    | none => s)

/-- A posted operation of a strand of a core has been performed or refused: an atomic's line leaves the mirror, and what waited
for it goes on (R68, R72). -/
def State.performedAt (s : State) (c num : Nat) (refused : Bool) : State :=
  let all := ((below 16).map ((s.core c).slot ·)) ++ (s.core c).swapped.map (·.2)
  let ops := (all.flatMap fun t => t.posted).filter fun x => x.num == num && x.atomic
  let drop (t : Slot) : Slot := { t with posted := t.posted.filter fun x => x.num != num }
  let s := s.onCore c fun k =>
    { k with slots := k.slots.map (fun x => (x.1, drop x.2)), swapped := k.swapped.map fun x => (x.1, drop x.2) }
  let s := s.onCore c fun k => k.dropLines fun o l => ops.any fun x => x.obj == o && x.off / 64 == l
  let s := if refused then s.count c 10 1 else s
  (s.releaseAll c).pokeAgain c .remote

/-- `POSTED_PERFORMED`: a posted operation has been performed or refused, with a merge every operation that went into it
(R72). -/
def execPostedPerformed (s : State) : Host.Outcome State Fault Refusal :=
  .next (match s.packet? (s.arg 0) with
    | some p => match p.body with
      | .performed c _ num refused =>
        let s := s.dropPacket p.id
        let mine (m : Merge) : Bool := m.gone && m.parts.head?.any fun x => x.1 == c && x.2.2 == num
        let parts : List (Nat × Nat × Nat) := ((s.merges.find? mine).map (·.parts)).getD [(c, 0, num)]
        let s := { s with merges := s.merges.filter fun m => !mine m }
        parts.foldl (fun s x => s.performedAt x.1 x.2.2 refused) s
      | _ => s
    | none => s)

/-- `SWITCH_MERGE_FORWARD`: a fabric switch, outside the package, sends a merged atomic on to its home in another package
(R73, R321); its parts are performed when the home has applied it. -/
def execSwitchMergeForward (s : State) : Host.Outcome State Fault Refusal :=
  .next (match s.merges.find? fun m => m.id == s.arg 0 && !m.gone with
    | some m =>
      let p : Packet := { id := s.pktNum, src := m.req.core, dst := m.req.home, cls := urgentClass, flits := flitsFor 16
                          body := .req { m.req with window := true } }
      { s with merges := updFirst (fun x => x.id == m.id) (fun x => { x with gone := true }) s.merges, pktNum := s.pktNum + 1
               outbox := s.outbox ++ [p] }
    | none => s)

end Sys2Proof.Machine
end

