-- ==== Sys2Proof/Machine/EvLog.lean ====
section
/-!
DEFINITION. Shipping and compaction of the store log (R58–R62), acquires (R64, R217), and the walks, shootdowns and
migrations of the tables (R312, R315–R317).
-/
namespace Sys2Proof.Machine

/-! Shipping. -/

/-- The position below which the agent ships now (R58, R59, R70, R75, R204). -/
def Log.shipTo (l : Log) : Nat := if l.spill || l.early then l.tail else max l.pubVault l.drain
/-- Whether an entry waits for a posted operation to its line that was issued before it was appended: the two travel in
different classes, and the line's home order is the order in which they leave (R210). -/
def Core.behindPosted (k : Core) (e : LogEnt) : Bool :=
  let ts := ((below 16).map (k.slot ·)) ++ k.swapped.map (·.2)
  e.kind != 2 && ts.any fun t =>
    (t.posted.any fun p => p.obj == e.obj && p.off / 64 == e.off / 64 && p.tail ≤ e.pos) ||
    (t.run != .trapped && t.held.any fun h => h.req.obj == e.obj && h.req.off / 64 == e.off / 64 && h.req.tail ≤ e.pos)
/-- Whether ring bytes of an entry still wait for the write queue (R209). -/
def Core.ringWaits (k : Core) (e : LogEnt) : Bool :=
  k.vault.late.any fun l => l.cells.any fun x => (below (entryLen e / 8)).any fun i => x.1 / 8 == k.log.ringAddr (e.pos + 8 * i) / 8
/-- The next entry to ship. -/
def Core.nextShip (k : Core) : Option LogEnt :=
  (k.log.ents.find? fun e => !e.asked && !e.acked && e.pos < k.log.shipTo).filter fun e => !k.behindPosted e && !k.ringWaits e

/-- A change of the entry at a position. -/
def Log.onEnt (l : Log) (pos : Nat) (f : LogEnt → LogEnt) : Log :=
  { l with ents := l.ents.map fun x => if x.pos == pos then f x else x }
/-- Entries whose ring bytes have come leave for their homes, in log order (R58). -/
def State.shipReady (s : State) (c : Nat) : Nat → State
  | 0 => s
  | n + 1 => match (s.core c).log.ents.find? fun e => e.asked && !e.shipped with
    | none => s
    | some e =>
      if !e.ready then s
      else
        let h := s.siteNow e.obj e.gen e.off (e.home, e.addr)
        let hurt (i : Nat) : Bool := s.poisoned (vaultLoc c ((s.core c).log.ringAddr (e.pos + 8 * i))) 8
        let e := { e with bad := (below (entryLen e / 8)).any hurt }
        let s := s.onLog c fun l => l.onEnt e.pos fun x => { x with shipped := true }
        (s.send c h.1 bulk (flitsFor (entryLen e)) none
          (.req { op := .entry e, core := c, slot := 0, obj := e.obj, gen := e.gen, off := e.off, home := h.1, addr := h.2
                  posted := none, window := false })).shipReady c n

/-- `LOG_SHIP`: the vault agent asks for the next entry's bytes in the ring, or, when they have come, ships it (R58, R189). -/
def execLogShip (s : State) : Host.Outcome State Fault Refusal :=
  let c := s.arg 0
  .next (if s.evt.length < 2 then match (s.core c).nextShip with
      | none => s
      | some e =>
        let l := (s.core c).log
        let s := s.onLog c fun l => l.onEnt e.pos fun x => { x with asked := true }
        let end_ := 0x6FC00000 + l.size * 2 ^ 20
        let a := l.ringAddr e.pos
        let parts := if a + entryLen e ≤ end_ then rowReads a (entryLen e)
          else rowReads a (end_ - a) ++ rowReads 0x6FC00000 (a + entryLen e - end_)
        parts.foldl (fun s x => s.vreq c x.1 x.2 (.ship e.pos) none) s
    else if (s.core c).vault.reqs.any fun r => r.cont == .ship (s.arg 1) then s
    else
      let n := (s.core c).log.ents.length
      (s.onLog c fun l => l.onEnt (s.arg 1) fun x => { x with ready := true }).shipReady c n)

/-- Sends the answers of acquire queries whose position is compacted (R64). -/
def State.answerQueries (s : State) (c : Nat) : State :=
  let k := s.core c
  let ready := k.acqPos.filter fun q => q.target ≤ k.log.comp
  let s := s.onCore c fun k => { k with acqPos := k.acqPos.filter fun q => k.log.comp < q.target }
  ready.foldl (fun s q => s.send c q.core urgentClass 1 q.acct (.acqAnswer q.core q.slot c q.target k.contained)) s

/-- `LOG_ACK`: an entry is at home; compaction and reclamation follow, and what waited for them goes on (R58, R60, R62,
R70). An entry that comes back is shipped again from the ring (R202). -/
def execLogAck (s : State) : Host.Outcome State Fault Refusal :=
  .next (match s.packet? (s.arg 0) with
    | some p => match p.body with
      | .logAck c pos _ true =>
        (s.dropPacket p.id).onLog c fun l => l.onEnt pos fun x => { x with shipped := false, asked := false, ready := false }
      | .logAck c pos _ false =>
        let s := s.dropPacket p.id
        let hit := (s.core c).log.ents.find? fun e => e.pos == pos && e.shipped
        let ack (e : LogEnt) : LogEnt := if e.pos == pos && e.shipped then { e with acked := true } else e
        let gone := (s.core c).contained
        let s := s.onLog c fun l =>
          let l := { l with ents := l.ents.map ack }
          if gone then l.compact else l.advance
        let s := match hit with
          | some e => s.onCore c fun k => k.dropLines fun o l => o == e.obj && l == e.off / 64
          | none => s
        ((s.answerQueries c).releaseAll c).pokeAgain c .logFull
      | _ => s
    | none => s)

/-! Acquires. -/

/-- `ACQ_QUERY`: the writer reads its published position and answers when that is compacted (R64). -/
def execAcqQuery (s : State) : Host.Outcome State Fault Refusal :=
  .next (match s.packet? (s.arg 0) with
    | some p => match p.body with
      | .acqQuery c ref level w =>
        let s := s.dropPacket p.id
        let target := (s.core w).log.pub level
        (s.onCore w fun k => { k with acqPos := k.acqPos ++ [⟨c, ref, target, p.launch⟩] }).answerQueries w
      | _ => s
    | none => s)

/-- Discards the mirror lines that a writer's entries at positions [lo, hi) cover, or, where some of them are reclaimed
or not at hand, those its filter names (R64). -/
def State.walkLog (s : State) (c w lo hi : Nat) : State :=
  if 864 ≤ w then s.onCore c fun k => k.dropLines fun _ _ => true
  else
    let l := (s.core w).log
    if lo < l.recl then s.onCore c fun k => k.dropLines fun o _ => l.filter.getLsbD (o % 1024)
    else
      let es := l.ents.filter fun e => lo ≤ e.pos && e.pos < hi
      let covers (e : LogEnt) (o line : Nat) : Bool :=
        e.obj == o && (if e.kind = 2 then e.data != 0 && e.off / 64 ≤ line && line ≤ (e.off + e.data.toNat - 1) / 64
          else line == e.off / 64)
      s.onCore c fun k => k.dropLines fun o line => es.any fun e => covers e o line

/-- Begins an acquire of writers by a parked strand: queries go to those of which no earlier acquire waits (R64). -/
def State.beginAcquire (s : State) (c ref scope : Nat) (writers : List Nat) : State :=
  let acct := s.acctOf c (ref % 16)
  let busy (w : Nat) : Bool := (s.core c).acqs.any fun q => q.writers.contains w
  let now := writers.filter fun w => !busy w
  let s := s.onCore c fun k => { k with acqs := k.acqs ++ [⟨ref, scope, writers, false, acct⟩] }
  now.foldl (fun s w => s.queryWriter c ref w acct) s
/-- The next acquire of a core that waits for a writer asks it (R64). -/
def State.nextAcquire (s : State) (c w : Nat) : State :=
  match (s.core c).acqs.find? fun q => q.writers.contains w with
  | some q => s.queryWriter c q.slot w q.acct
  | none => s

/-- `ACQ_WRITER_DONE`: the reprise over one writer's entries; the last writer ends the acquire (R64, R217). -/
def execAcqWriterDone (s : State) : Host.Outcome State Fault Refusal :=
  .next (match s.packet? (s.arg 0) with
    | some p => match p.body with
      | .acqAnswer c ref w target contained =>
        let s := s.dropPacket p.id
        let cur := s.readMem (s.cursorLoc c w) 8
        let s := if cur < target then
          (s.walkLog c w cur target).vaultWrite c (natCells (s.cursorAddr w) target 8) none .own else s
        let mine (q : Acq) : Bool := q.slot == ref && q.writers.contains w
        let s := s.onCore c fun k =>
          { k with acqs := updFirst mine (fun q => { q with writers := setDel q.writers w, held := q.held || contained }) k.acqs }
        let s := s.nextAcquire c w
        match (s.core c).acqs.find? fun q => q.slot == ref && q.writers.isEmpty with
        | some q =>
          let s := s.onCore c fun k => { k with acqs := delFirst (fun x => x.slot == ref && x.writers.isEmpty) k.acqs }
          s.arrived c ref fun x => match x.fin with
            | .pred _ => { x with word := if q.held then 1 else 0 }
            | _ => x
        | none => s
      | _ => s
    | none => s)

/-- `LOGQ_QUERY`: a position as this core holds it (R223). -/
def execLogqQuery (s : State) : Host.Outcome State Fault Refusal :=
  .next (match s.packet? (s.arg 0) with
    | some p => match p.body with
      | .logQuery c ref t sel =>
        let x := (s.core t).log.position sel
        (s.dropPacket p.id).send t c urgentClass (flitsFor 8) p.launch (.reply c ref (BitVec.ofNat 64 x) 0 none)
      | _ => s
    | none => s)

/-! Walks (R315, R316). -/

/-- The next table line that a walk reads at its home, because the die cache does not hold it: the object entry's, then the page
entry's. -/
def State.walkMiss (s : State) (w : Walk) : Option Nat :=
  let e := s.objEntry w.obj
  let line := (e.loc + 8 * w.page) / 64
  let held (l : Nat) : Bool := (s.die (posDie w.core)).cache.any fun p => p.1 == l
  if w.first && !held w.obj then some w.obj else if e.paged && e.ok && !held line then some line else none
/-- A walker reads the next line that it misses as an urgent request to the line's home, or ends 24 clocks later (R315; of a walk
that misses, 24 clocks after its last line has come, assumption 84). -/
def State.walkGo (s : State) (w : Walk) : State :=
  match s.walkMiss w with
  | none => s.after 24 .walkComplete [w.core, w.id]
  | some l =>
    let home := s.tableHome (l * 64)
    let p : Piece := { key := 0, off := l * 64, addr := s.tableLoc (l * 64) % 2 ^ 31, n := 64, home := home }
    s.send w.core home urgentClass 1 none (.fetch ⟨w.core, w.id, 0, 0, 1, (s.objEntry 1).gen, true, [p]⟩)
/-- A walker starts. -/
def State.walkerStart (s : State) (c n obj page : Nat) : State :=
  let w : Walk := ⟨walkCmd + s.pktNum, c, n, obj, page, true⟩
  ({ s with pktNum := s.pktNum + 1 }.onDie (posDie c) fun d => { d with walkers := d.walkers + 1, walks := d.walks ++ [w] }).walkGo w
/-- A miss asks for a walker, waits in the die's queue, or comes again 64 clocks later (R315). -/
def State.askWalk (s : State) (c n obj page : Nat) : State :=
  let d := s.die (posDie c)
  if d.walkers < 96 then s.walkerStart c n obj page
  else if d.walkQ.length < 256 then s.onDie (posDie c) fun d => { d with walkQ := d.walkQ ++ [(c, n, obj, page)] }
  else s.after 64 .walkRetry [c, n, obj, page]
/-- `WALK_START` (R315). -/
def execWalkStart (s : State) : Host.Outcome State Fault Refusal := .next (s.askWalk (s.arg 0) (s.arg 1) (s.arg 2) (s.arg 3))
/-- `WALK_RETRY` (R315). -/
def execWalkRetry (s : State) : Host.Outcome State Fault Refusal := .next (s.askWalk (s.arg 0) (s.arg 1) (s.arg 2) (s.arg 3))

/-- A line enters the die cache: 4,096 object entries and 16,384 page entries, the oldest leaving. -/
def State.cacheLine (s : State) (d line : Nat) : State :=
  let isPage (l : Nat) : Bool := 2 ^ 24 ≤ l
  s.onDie d fun x =>
    if x.cache.any fun p => p.1 == line then x
    else
      let same := x.cache.filter fun p => isPage p.1 == isPage line
      let cap := if isPage line then 2048 else 4096
      let cut := if same.length < cap then x.cache else delFirst (fun p => isPage p.1 == isPage line) x.cache
      { x with cache := cut ++ [(line, s.cycle)] }

/-- A line that a walk has read enters the die cache, and the walk goes on. -/
def State.walkRead (s : State) (w : Walk) : State :=
  let s := match s.walkMiss w with
    | some l => s.cacheLine (posDie w.core) l
    | none => s
  let w' := { w with first := false }
  (s.onDie (posDie w.core) fun d => { d with walks := updFirst (fun x => x.id == w.id) (fun _ => w') d.walks }).walkGo w'
/-- A walk ends: its result goes to the instruction that waits for it (R315), and its walker takes the next walk of the queue. -/
def State.walkEnd (s : State) (w : Walk) : State :=
  let t := s.walkResult w.slot w.obj w.page
  let die := posDie w.core
  let s := if t.ent.kind ≠ 0 ∧ !t.ent.ok then s.count w.core 9 1 else s
  let s := s.onDie die fun d => { d with walkers := d.walkers - 1, walks := d.walks.filter fun x => x.id != w.id }
  let s := match (s.die die).walkQ with
    | (c', n', o', p') :: rest => (s.onDie die fun d => { d with walkQ := rest }).walkerStart c' n' o' p'
    | [] => s
  let waits (x : Slot) : Bool := x.why == .walk
  if (s.strand? w.core w.slot).any waits then
    (s.onStrand w.core w.slot fun x => { x with walked := x.walked ++ [t] }).arrived w.core w.slot id
  else s
/-- `WALK_COMPLETE`: a walk has ended, or, with a third argument, a line that it reads has come (R315). -/
def execWalkComplete (s : State) : Host.Outcome State Fault Refusal :=
  .next (match (s.die (posDie (s.arg 0))).walks.find? fun w => w.id == s.arg 1 with
    | some w => if s.arg 2 = 1 then s.walkRead w else s.walkEnd w
    | none => s)

/-! Settlement (R312). -/

/-- `SHOOTDOWN`: a die drops what it cached from a line and acknowledges. -/
def execShootdown (s : State) : Host.Outcome State Fault Refusal :=
  .next (match s.packet? (s.arg 0) with
    | some p => match p.body with
      | .shootdown id line d =>
        let s := s.dropPacket p.id
        let s := s.onDie d fun x => { x with cache := x.cache.filter fun q => q.1 != line }
        let hit (t : Tlb) : Bool := t.obj == line || t.pageLine == line
        let old (x : Slot) : Slot := { x with walked := x.walked.map fun t => if hit t then { t with stale := true } else t }
        let drop (k : Core) : Core :=
          { k with tlb := k.tlb.filter fun t => !hit t
                   slots := k.slots.map fun x => (x.1, old x.2), swapped := k.swapped.map fun x => (x.1, old x.2) }
        let each (q : Nat × Core) : Nat × Core := if posDie q.1 = d then (q.1, drop q.2) else q
        let s := { s with cores := s.cores.map each }
        s.send (36 * d) p.src control 1 none (.shootAck id d)
      | _ => s
    | none => s)

/-- A migration begins when its page entry's write has settled: the old home begins to send the page, with it go the operations
that wait at its words, and every core sends the old home a marker on every class from its core, vault agent and copy engine
endpoints (R295, R317). It begins later where another migration of the page still goes on. -/
def State.migBegin (s : State) (id : Nat) : State :=
  match s.migs.find? fun m => m.id == id with
  | none => s
  | some m =>
    if s.migs.any fun x => x.entry == m.entry && x.id != id && x.settled then s.onMig id fun x => { x with after := true }
    else
      let lo := vaultLoc m.old m.oldBase
      let mine (w : Waiter) : Bool := lo ≤ w.key && w.key < lo + 2 ^ 21
      let ws := (s.core m.old).homeWaiters.filter mine
      let s := s.onCore m.old fun k => { k with homeWaiters := k.homeWaiters.filter fun w => !mine w }
      let s := (s.onMig id fun x => { x with settled := true, after := false, waiters := ws }).pageAsk m
      s.logical.foldl (fun s c => [urgentClass, bulk, control].foldl (fun s cl =>
        [0, 1, 2].foldl (fun s e => s.send c m.old cl 1 none (.marker id e)) s) s) s

/-- One thing that a table write waits for has come; with the last one the write settles and what waited for it goes on
(R312, R313). -/
def State.settleStep (s : State) (id : Nat) : State :=
  match s.writes.find? fun w => w.id == id with
  | none => s
  | some w =>
    if 1 < w.acks then
      { s with writes := updFirst (fun x => x.id == id) (fun x => { x with acks := x.acks - 1 }) s.writes }
    else
      let s := { s with writes := s.writes.filter fun x => x.id != id }
      let home := s.tableHome (w.line * 64)
      let s := match w.waiter with
        | some (c, ref, x) => s.send home c urgentClass (flitsFor 8) (s.acctOf c (ref % 16)) (.reply c ref x 0 none)
        | none => s
      let s := match w.posted with
        | some (c, n, num) => s.send home c control 1 (s.acctOf c (n % 16)) (.performed c n num false)
        | none => s
      let s := match w.group with
        | some (c, b) => s.onGroup c b fun g => { g with settled := true }
        | none => s
      w.migs.foldl (fun s m => s.migBegin m.2) s
/-- `TABLE_WRITE_SETTLED`: a die has acknowledged, or the homes have cleared a created object's range (R311–R313). -/
def execTableWriteSettled (s : State) : Host.Outcome State Fault Refusal :=
  .next (if s.evt.length = 2 then s.settleStep (s.arg 0)
    else match s.packet? (s.arg 0) with
      | some p => match p.body with
        | .shootAck id _ => (s.dropPacket p.id).settleStep id
        | _ => s
      | none => s)

/-- `FENCE_MARKER`: with the last marker nothing more can arrive, and the old home says so (R317 step 3). A marker takes its place
behind what its endpoint has sent before it. -/
def execFenceMarker (s : State) : Host.Outcome State Fault Refusal :=
  .next (match s.packet? (s.arg 0) with
    | some p => match p.body with
      | .marker id _ =>
        (((s.dropPacket p.id).agentFree p.dst).onMig id fun x => { x with markers := x.markers - 1 }).migCheck id
      | _ => s
    | none => s)

/-- The operations that a new home has held come next at its agent, and after them the drained packet once more (R317
step 4). -/
def State.agentHeld (s : State) (m : Mig) (pkt : Nat) : State :=
  let all := m.held ++ pkt :: (s.core m.new).agentQ
  (s.onMig m.id fun x => { x with open_ := true, held := [] }).onCore m.new fun k =>
    { k with agentQ := all.take 64, agentWait := (all.drop 64).map (fun p => (p, none, bulk)) ++ k.agentWait }
/-- The new home clears `MIG`, `OLDCORE` and `OLDPKG`, or a later migration of the page begins (R317 step 5). -/
def State.migEnd (s : State) (m : Mig) : State :=
  let s := { s with migs := s.migs.filter fun x => x.id != m.id }
  match s.migs.find? fun x => x.entry == m.entry with
  | some x => if x.after then s.migBegin x.id else s
  | none =>
    let mask := BitVec.ofNat 64 (2 ^ 64 - 1 - (2 ^ 50 - 2 ^ 34) - 2)
    { s with pktNum := s.pktNum + 1 }.sendReq
      { op := .word (.amo .and .i64 mask), core := m.new, slot := 0, obj := 1, gen := (s.objEntry 1).gen, off := m.entry
        home := s.tableHome m.entry, addr := s.tableLoc m.entry % 2 ^ 31, posted := some s.pktNum, window := false }

/-- `DRAINED_PACKET`: the new home serves what it held, in arrival order, and then clears the migration (R317 steps 4, 5). -/
def execDrainedPacket (s : State) : Host.Outcome State Fault Refusal :=
  .next (match s.packet? (s.arg 0) with
    | some p => match p.body with
      | .drained id =>
        let s := s.agentFree p.dst
        match s.migs.find? fun m => m.id == id with
        | none => s.dropPacket p.id
        | some m => if m.open_ then (s.dropPacket p.id).migEnd m else s.agentHeld m p.id
      | _ => s
    | none => s)

end Sys2Proof.Machine
end

