-- ==== Sys2Proof/Machine/Inbox.lean ====
section
/-!
DEFINITION. The inbox at work: which entry a slot may take (R260), taking it with the acquire or the discard that goes
with it (R43, R77, R260, R261), parking inboxes (R257) and arrivals (R254, R255).
-/
namespace Sys2Proof.Machine

/-- The key of a stream's event reservations on its cores: its die, generation and index (R325, R337), from its handle. -/
def streamKey (handle : Nat) : Nat := bitsOf handle 36 5 * 2 ^ 20 + bitsOf handle 0 20

/-- Whether a slot's `RECV` could take an entry (R260). -/
def State.takes (s : State) (c n : Nat) (e : Entry) : Bool :=
  if e.kind ≥ 2 then e.taker == n else e.kind == 0 && n ≤ 12 && e.taker == (s.slot c n).bank
def State.firstTake (s : State) (c n : Nat) : Option Entry := (s.core c).inbox.find? (s.takes c n)
/-- The completion entry of a launch that a slot's `JOIN` takes (R261). -/
def State.joinEntry (s : State) (c n launch : Nat) : Option Entry :=
  (s.core c).inbox.find? fun e => e.kind == 3 && e.taker == n && e.tag.toNat == launch

/-! Groups and their strands. -/

/-- A strand of a group that is bound to a slot, wherever its registers are: resident or Swapped. -/
def State.strandsOf (s : State) (c b : Nat) : List (Nat × Slot) :=
  match s.group? c b with
  | none => []
  | some g =>
    let here := (g.slots.map fun n => (n, s.slot c n)).filter fun p => p.2.bank == b && p.2.run != .swapped && p.2.run != .empty
    here ++ (s.core c).swapped.filter fun p => p.2.bank == b
/-- At least one strand of a Resident group is not Swapped (R252). -/
def State.reachable (s : State) (c b : Nat) : Bool := (s.strandsOf c b).any fun p => p.2.run != .swapped

/-- Moves parked entries into free inbox entries, oldest first, for groups that have a strand in a slot (R257). -/
def State.unpark (s : State) (c : Nat) : State :=
  (s.core c).groups.foldl (fun s p =>
    if p.2.parking.isEmpty || !s.reachable c p.1 then s
    else
      let room := (s.core c).freeEntries
      let es := p.2.parking.take room
      (s.onGroup c p.1 fun g => { g with parking := g.parking.drop room }).onCore c fun k => { k with inbox := k.inbox ++ es }) s

/-- Takes an entry out of the inbox; a stream's event leaves its reservation behind (R337). -/
def State.takeEntry (s : State) (c : Nat) (e : Entry) : State :=
  let s := s.onCore c fun k => { k with inbox := delFirst (fun x => x == e) k.inbox }
  let s := if e.kind = 8 then s.reserve c e.taker forStream (streamKey e.tag.toNat) else s
  s.unpark c

/-! What taking an entry brings about. -/

/-- The cores of a launch's core set (R28, R43). -/
def State.coreSet (s : State) (l : Launch) : List Nat :=
  s.logical.filter fun c => bitOf l.dmask (posDie c) && bitOf l.qmask (posQuad c)

/-- The entry's other effect: kind 2 discards the mirror lines of what the command wrote (R77); kind 3 begins the acquire
of every log of the launch's core set at `pkg` scope, for which the slot parks (R43). The instruction at `start` ends at
`next`. -/
def State.afterTake (s : State) (c n : Nat) (e : Entry) (start next : Nat) : State :=
  if e.kind = 3 then
    let id := e.tag.toNat
    let ref := strandRef n s.pktNum
    let s := { s with pktNum := s.pktNum + 1 }
    let writers := match (s.launches.find? fun p => p.1 == id) with
      | some p => (s.coreSet p.2.launch).filter fun w => w != c
      | none => []
    if writers.isEmpty then s.retireAt c n start next
    else
      let w : Wait := { fin := .none, left := 1, start, next, ticket := ref / 16 }
      (s.onSlot c n fun t => { t with run := .parked, why := .acquire, wait := some w }).beginAcquire c ref 6 writers
  else
    let s := match e.kind, e.wrote with
      | 2, some (obj, lo, hi) => s.onCore c fun k => k.dropLines fun o l => o == obj && lo / 64 ≤ l && l ≤ (hi - 1) / 64
      | _, _ => s
    s.retireAt c n start next

/-- `RECV` takes an entry; a shared register it writes commits at `clock` (R260). -/
def State.recvTake (s : State) (c n : Nat) (d : Gpr) (a : Option Vr) (e : Entry) (start next clock : Nat) : State :=
  let s := (s.takeEntry c e).putGprAt c n d e.tag clock
  let s := match a with
    | none => s
    | some r =>
      let old := (s.vecAt c n r).toNat
      s.putVecAt c n r (BitVec.ofNat 8192 (old / 2 ^ 512 * 2 ^ 512 + e.bits.toNat)) clock (firstLanes 64)
  s.afterTake c n e start next
/-- `JOIN` takes an entry: g[d] := its status word (R261, R262). -/
def State.joinTake (s : State) (c n : Nat) (d : Gpr) (e : Entry) (start next clock : Nat) : State :=
  ((s.takeEntry c e).putGprAt c n d (BitVec.ofNat 64 (bitsOf e.payload.toNat 64 64)) clock).afterTake c n e start next
/-- `PARK` completes and clears the wake-pending bit (R268). -/
def State.parkEnd (s : State) (c n start next : Nat) : State :=
  (s.onSlot c n fun t => { t with wake := false }).retireAt c n start next

/-- What a slot parked for the inbox reason would do now, if its reason is satisfied. -/
def State.inboxStep (s : State) (c n : Nat) : Option (State → State) :=
  let t := s.slot c n
  match t.wait with
  | none => none
  | some w =>
    match w.fin with
    | .recv d a => (s.firstTake c n).map fun e => fun s => s.recvTake c n d a e w.start w.next s.cycle
    | .join d l => (s.joinEntry c n l).map fun e => fun s => s.joinTake c n d e w.start w.next s.cycle
    | .park => if t.wake || (s.firstTake c n).isSome then some fun s => s.parkEnd c n w.start w.next else none
    | _ => none

/-- Lets the parked slots whose reason is satisfied go on, lower slots first; while urgent work pauses the core they
become Paused, and look again when they resume (R32, R260). -/
def State.serveInbox (s : State) (c : Nat) : Nat → State
  | 0 => s
  | fuel + 1 =>
    let urging := (s.core c).urged
    let ready (n : Nat) : Bool :=
      (s.slot c n).run == .parked && (s.slot c n).why == .inbox && (s.inboxStep c n).isSome
    match (below 16).find? ready with
    | none => s
    | some n =>
      if urging && n != 15 then
        (s.onSlot c n fun t => { t with run := .paused, back := .parked }).serveInbox c fuel
      else match s.inboxStep c n with
        | some f =>
          let s := match (s.slot c n).wait with
            | some w => s.noteArrival c n w.fin
            | none => s
          let s := s.onSlot c n fun t => { t with run := .running, why := .none, wait := none, before := none }
          (f s).serveInbox c fuel
        | none => s
/-- The inbox of a core has changed, or a slot of it may look again. -/
def State.pokeInbox (s : State) (c : Nat) : State := s.serveInbox c 32

/-- A reserved entry that nothing will fill is free again: parked entries come first, and slots look again (R257, R260). -/
def State.releaseFree (s : State) (c what num : Nat) : State := ((s.release c what num).unpark c).pokeInbox c
/-- A full entry joins the inbox. -/
def State.fillInbox (s : State) (c : Nat) (e : Entry) : State :=
  (s.onCore c fun k => { k with inbox := k.inbox ++ [e] }).pokeInbox c
/-- A device message fills its reserved entry; without the reservation it is dropped (R254, R269). -/
def State.fillReserved (s : State) (c what num : Nat) (e : Entry) : State :=
  if (s.core c).resv.any fun r => r.what == what && r.num == num then
    (s.release c what num).fillInbox c { e with spkg := s.pkg, score := s.logicalOf c, sslot := e.taker }
  else s

end Sys2Proof.Machine
end

