-- ==== Sys2Proof/Machine/EvMatrix.lean ====
section
/-!
DEFINITION. The quad arrays: grants under the governor, what an operation does when it is performed, and the chunks of a
tile store (R21, R230, R235, R239–R242, R246).
-/
namespace Sys2Proof.Machine

/-- The next operation of a core is ready (R229, R230, R284): it heads the queue since an earlier clock, nothing of the
operation before it is left to do, and no entry of an earlier holder conflicts with one of its own. -/
def State.matReady (s : State) (c : Nat) : Option MatOp :=
  let k := s.core c
  match k.headOp with
  | none => none
  | some o =>
    if k.contained || k.headBusy || o.awaited || s.cycle ≤ o.issue || !k.boardClear o.num then none
    else some o

/-- The members of an array in grant order: those after the last one granted first, where an operation has just ended; in
member order, where the array was idle (R21); the member that waits for credits before all others (R230). -/
def State.grantOrder (s : State) (q : Nat) : List Nat :=
  let x := s.quad q
  let first := if s.cycle = x.until_ then x.last + 1 else 0
  let round := ((below 4).map fun i => quadMember (q / 9) (q % 9) ((first + i) % 4)).filter s.live
  match x.short with
  | some c => c :: round.filter fun y => y != c
  | none => round
/-- A clock on which a ready operation waits for its array (R230). -/
def State.countWait (s : State) (c : Nat) : State := s.onCore c fun k => { k with arbw := min (k.arbw + 1) 0xFFFFFFFF }

/-- `MATRIX_GRANT`: the idle array takes the first ready member, if its credits suffice (R21, R230). -/
def execMatrixGrant (s : State) : Host.Outcome State Fault Refusal :=
  let q := s.arg 0
  let ready := (s.grantOrder q).filterMap fun c => (s.matReady c).map fun o => (c, o)
  if s.cycle < (s.quad q).until_ then .next s
  else match ready with
    | [] => .next s
    | (c, o) :: rest =>
      let cost := o.busy
      let cr := s.credits q
      let s := rest.foldl (fun s p => s.countWait p.1) s
      if cr < 16 * cost then
        .next (((s.countWait c).count c 11 1).onQuad q fun x => { x with short := some c })
      else
        let s := s.onQuad q fun x =>
          { x with last := memberOf (posCore c), short := none, until_ := s.cycle + cost, running := some (c, o.num), credits := cr - 16 * cost
                   creditClock := s.cycle }
        .next ((s.charge o.launch (7800 * cost)).after cost .matrixPerform [q])

/-- An operation has been performed: it leaves the queue, its scoreboard entries are freed and its notice is posted (R228,
R239). -/
def State.matDone (s : State) (c : Nat) (o : MatOp) : State :=
  let s := s.onCore c fun k => { k with matQ := k.matQ.filter fun x => x.num != o.num, headBusy := false }
  let s := s.endHolder c o.num
  if o.notify then
    s.fillReserved c forMatrix o.num
      { kind := 4, tag := BitVec.ofNat 64 o.start, payload := BitVec.ofNat 384 (s.cycle - 1), taker := o.slot }
  else s
/-- Ends the wait of the slot that issued an operation. -/
def State.matAnswer (s : State) (c : Nat) (o : MatOp) (f : Wait → Wait) : State := (s.matDone c o).arrived c o.ref f

/-- What a granted operation does at the end of its busy clocks (R230, R235, R236, R240, R242). -/
def State.matPerform (s : State) (c : Nat) (o : MatOp) : State :=
  match o.kind with
  | .mma mx ovr d a b => (s.performMma c o mx ovr d a b).matDone c o
  | .mzero d => (s.zeroMem (accAt c d o.shadow) 16384).matDone c o
  | .obput d v off => (s.writeMem (accAt c d o.shadow + off) v.toNat 1024).matAnswer c o id
  | .obget _ a off =>
    let loc := accAt c a o.shadow + off
    let s := s.meetFaults c loc 1024
    if s.poisoned loc 1024 then s.matAnswer c o fun w => { w with err := some (causePoison, off, 0) }
    else
      let cells := s.readCells loc 0 1024
      s.matAnswer c o fun w => { w with bytes := cells }
  | .tldacc _ _ =>
    let loads := (s.strand? c o.ref).any fun t => t.wait.any fun w => w.left != 0
    if loads then s.onCore c fun k => { k with headBusy := true } else s.matDone c o
  | .tst d _ _ _ off _ =>
    let z := storeSize o.fmt o.epi
    let used := (mshape o.fmt).m * (mshape o.fmt).n * accBytes o.fmt
    let s := s.meetFaults c (accAt c d false) used
    let s := if o.paired then s.meetFaults c (accAt c d true) used else s
    if s.accPoisoned c d false used || (o.paired && s.accPoisoned c d true used) then
      s.matAnswer c o fun w => { w with err := some (causePoison, off, memValue w.knum 0) }
    else
      let out := s.tileOut c o d false
      let other := if o.paired then (s.tileOut c o d true).1 else out.1
      ((s.countFl c out.2).onCore c fun k =>
        { k with headBusy := true, tst := some (0, 0, natCells 0 out.1 z, natCells 0 other z) }).after 1 .tstChunkWrite [c]

/-- `MATRIX_PERFORM`: the running operation ends; that of a contained core writes nothing (R230, R247). -/
def execMatrixPerform (s : State) : Host.Outcome State Fault Refusal :=
  let q := s.arg 0
  match (s.quad q).running with
  | none => .next s
  | some (c, num) =>
    let s := s.onQuad q fun x => { x with running := none }
    match (s.core c).matQ.find? fun o => o.num == num with
    | some o => .next (if (s.core c).contained then s else s.matPerform c o)
    | none => .next s

/-! Tile stores (R242, R246). -/

/-- The homes of pieces, once each. -/
def homesOf (ps : List Piece) : List Nat := ps.foldl (fun acc p => if acc.contains p.home then acc else acc ++ [p.home]) []
/-- The cells of a piece at its home's addresses. -/
def pieceCells (out : List Host.Cell) (p : Piece) : List Host.Cell :=
  (below p.n).map fun i => (p.addr + i, ((out.drop (p.key + i)).head?.map (·.2)).getD 0)

/-- The reference to a tile store in a segment: beyond every command's number. -/
abbrev tstCmd : Nat := 2 ^ 32

/-- Writes one chunk of a tile store; for shared memory it sends the pieces to their homes and says how many. A poisoned chunk
has no output, and its granules are poisoned where they lie (R246). -/
def State.writeChunk (s : State) (c : Nat) (o : MatOp) (place obj gen : Nat) (ps : List Piece) (out : List Host.Cell)
    (poison : Bool) : State × Nat :=
  let bad (cells : List Host.Cell) : List Nat := if poison then cells.map (·.1) else []
  match place with
  | 0 =>
    let cells := ps.flatMap (pieceCells out)
    (s.vaultParts c cells o.launch .tile none (bad cells), 0)
  | 1 => (ps.foldl (fun s p =>
      let s := (s.writeMem (scratchLoc c p.addr) (cellsNat (pieceCells out p)) p.n).charge o.launch (3 * ((p.n + 15) / 16))
      (if poison then s.markPoison (granules (scratchLoc c p.addr) p.n) else s).wakeRange (.scratch c p.addr) p.n) s, 0)
  | _ =>
    let hs := homesOf ps
    (hs.foldl (fun s h =>
      let mine := ps.filter fun p => p.home == h
      let cells := mine.flatMap (pieceCells out)
      let body := Body.segment c (tstCmd + o.num) 0 3 cells (bad cells) obj gen
      s.sendPkt { id := 0, src := c, dst := h, cls := bulk, flits := flitsFor cells.length, body := body, launch := o.launch
                  toff := (mine.head?.map (·.off)).getD 0 }) s, hs.length)

/-- The last chunk is written: a shared target's range entry is appended once there is room, and the slot goes on, or ends
in `LINK_LOST` where a home was contained or no route reached it (R302). -/
def State.tstFinish (s : State) (c : Nat) (o : MatOp) (place obj gen off z : Nat) : State :=
  let e := rangeEntry obj gen off z
  let k := s.core c
  if place = 2 && !k.log.room [e] then s.after 1 .tstChunkWrite [c]
  else
    let s := if place = 2 then
      ((s.appendLog c [e] o.launch .own).onLog c Log.advance).onCore c fun k =>
        k.dropLines fun ob l => ob == obj && off / 64 ≤ l && l ≤ (off + z - 1) / 64
      else s
    let lost : Option (Nat × Nat × Nat) :=
      if k.tstStatus < 3 then none else some (causeLinkLost, o.start, if k.tstStatus = 3 then 1 else 2)
    (s.onCore c fun k => { k with tst := none, tstStatus := 0 }).matAnswer c o fun w => { w with err := lost }

/-- `TST_CHUNK_WRITE`: the next 2 KiB of a tile store (R242); lines that the write queue cannot take yet are waited for
(R209). A pair's chunk waits until both copies have named their destination, and where the destinations or the bytes differ it
and all later ones are poisoned (R246, R379). -/
def execTstChunkWrite (s : State) : Host.Outcome State Fault Refusal :=
  let c := s.arg 0
  let k := s.core c
  match k.tst, k.accepted with
  | some (q, acks, out, other), o :: _ =>
    match o.kind with
    | .tst _ place obj gen off ps =>
      let z := out.length
      if (place = 2 ∧ k.log.comp < o.drain) ∨ s.isLate c .tile ∨ o.agrees.isNone then .next (s.after 1 .tstChunkWrite [c])
      else if z ≤ 2048 * q then
        if acks = 0 then .next (s.tstFinish c o place obj gen off z) else .next (s.after 1 .tstChunkWrite [c])
      else
        let mine := ps.filter fun p => p.key / 2048 == q
        let chunk (l : List Host.Cell) : List Host.Cell := (l.drop (2048 * q)).take 2048
        if chunk out = chunk other ∧ o.agrees = some true then
          let r := s.writeChunk c o place obj gen mine out false
          .next ((r.1.onCore c fun k => { k with tst := some (q + 1, acks + r.2, out, other) }).after 8 .tstChunkWrite [c])
        else
          let s := (s.writeChunk c o place obj gen (ps.filter fun p => 2048 * q ≤ p.key) [] true).1
          let s := s.onCore c fun k => { k with tst := none, tstStatus := 0 }
          .next (s.matAnswer c o fun w => { w with err := some (causePairMismatch, off + 2048 * q, q) })
    | _ => .next s
  | _, _ => .next s

end Sys2Proof.Machine
end

