-- ==== Sys2Proof/Machine/Vector.lean ====
section
/-!
DEFINITION. Page 1: integer vector instructions, permutes, reductions, scans and predicate logic (R163–R178).
-/
namespace Sys2Proof.Machine

/-! The vector unit (R19, R165). -/

/-- The issuing instruction enters its slot's vector latch with the shared writes it will commit one clock after it
starts; the slot's results can be read only then. -/
def State.startVector (s : State) (ws : List ShWrite) : State :=
  let s := s.onSlot s.ic s.is fun t => { t with vready := 2 ^ 70, before := t.before.map fun b => (2 ^ 70, b.2) }
  let s := s.onCore s.ic fun k => { k with latch := k.latch ++ [(s.cycle, s.is, ws)] }
  if (s.core s.ic).vfree ≤ s.cycle then s.now .vectorStart [s.ic] else s

/-- v[d] := x in the given lanes (R128): a private register at once, a shared one through the latch. -/
def State.vecWrite (s : State) (d : Vr) (x : Vec) (lanes : Pred) : State × List ShWrite :=
  if d.toNat < 32 then ((s.putVecAt s.ic s.is d x 0 lanes).onSlot s.ic s.is fun t => { t with lanes := lanes }, [])
  else (s, [⟨0, s.is, s.me.bank, true, d.toNat - 32, 0, x, lanes⟩])
/-- g[d] := x, the same way. -/
def State.gprWrite (s : State) (d : Gpr) (x : Word) : State × List ShWrite :=
  if d.toNat < 32 then (s.putGprAt s.ic s.is d x 0, [])
  else (s, [⟨0, s.is, s.me.bank, false, d.toNat - 32, x, 0, 0⟩])

/-- A vector instruction that writes v[d] and counts its events. -/
def State.vecResult (s : State) (d : Vr) (x : Vec) (lanes : Pred) (fl : Fl) : State :=
  let r := (s.latchEvents fl).vecWrite d x lanes
  (r.1.startVector r.2).retire
/-- One that writes g[d]. -/
def State.vecToGpr (s : State) (d : Gpr) (x : Word) (fl : Fl) : State :=
  let r := (s.latchEvents fl).gprWrite d x
  (r.1.startVector r.2).retire
/-- One that writes p[d] where the guard mask allows. -/
def State.vecToPred (s : State) (d : Pr) (x : Pred) (fl : Fl) : State :=
  let g := s.guardMask
  (((s.latchEvents fl).putPred d ((s.pred d &&& ~~~ g) ||| (x &&& g))).startVector []).retire

/-! Element-wise shapes. -/

/-- Three lists of elements, one function. -/
def zip3 {α : Type} (f : Nat → Nat → Nat → α) : List Nat → List Nat → List Nat → List α
  | x :: xs, y :: ys, z :: zs => f x y z :: zip3 f xs ys zs
  | _, _, _ => []

/-- Sums the events of the active elements. -/
def sumFl : List Bool → List (Nat × Fl) → Fl
  | true :: bs, r :: rs => r.2.add (sumFl bs rs)
  | false :: bs, _ :: rs => sumFl bs rs
  | _, _ => .none

/-- Each active element of v[d] becomes a function of the elements of a, b and the old d (R164). -/
def State.eltwise (s : State) (w : Nat) (d : Vr) (xs ys : List Nat) (f : Nat → Nat → Nat → Nat × Fl) : State :=
  let g := s.guardMask
  let act := activeList w g
  let old := elems w (s.vec d)
  let rs := zip3 f xs ys old
  s.vecResult d (ofElems w (mergeElems act old (rs.map (·.1)))) (activeLanes w g) (sumFl act rs)

/-- The same for a function of a and b without events. -/
def State.vop (s : State) (w : Width) (d a b : Vr) (f : Nat → Nat → Nat) : Host.Outcome State Fault Refusal :=
  .next (s.eltwise w.bits d (elems w.bits (s.vec a)) (elems w.bits (s.vec b)) fun x y _ => (f x y % 2 ^ w.bits, .none))
/-- A saturating add or subtract (R79, R168). -/
def State.vsat (s : State) (w : Width) (n : Bool) (d a b : Vr) (f : Int → Int → Int) : Host.Outcome State Fault Refusal :=
  let k := w.bits
  let rd (x : Nat) : Int := if n then x else sv k x
  let lo : Int := if n then 0 else -(2 ^ (k - 1) : Int)
  let hi : Int := if n then 2 ^ k - 1 else 2 ^ (k - 1) - 1
  .next (s.eltwise k d (elems k (s.vec a)) (elems k (s.vec b)) fun x y _ =>
    let r := clampInt lo hi (f (rd x) (rd y))
    (toBits k r.1, { sat := if r.2 then 1 else 0 }))
/-- A vector compare into p[d] (R171). -/
def State.vcmp (s : State) (w : Width) (d : Pr) (a b : Vr) (f : Nat → Nat → Bool) : Host.Outcome State Fault Refusal :=
  .next (s.vecToPred d (predOf w.bits (List.zipWith f (elems w.bits (s.vec a)) (elems w.bits (s.vec b)))) .none)
/-- A list of source elements written where active (R174). -/
def State.vimage (s : State) (w : Width) (d : Vr) (src : List Nat) : Host.Outcome State Fault Refusal :=
  .next (s.eltwise w.bits d src src fun x _ _ => (x, .none))

/-- One level of the tree of R97. -/
def treeLevel (f : Nat → Nat → Nat) : List Nat → List Nat
  | x :: y :: r => f x y :: treeLevel f r
  | l => l
/-- Levels until one value is left. -/
def tree (f : Nat → Nat → Nat) (l : List Nat) : Nat → Nat
  | 0 => l.headD 0
  | n + 1 => tree f (treeLevel f l) n
/-- The elements with the identity in place of the inactive ones. -/
def withIdentity (act : List Bool) (xs : List Nat) (ident : Nat) : List Nat :=
  List.zipWith (fun b x => if b then x else ident) act xs
/-- An integer reduction (R97, R176). -/
def State.vred (s : State) (w : Width) (nat : Bool) (d : Gpr) (a : Vr) (ident : Nat) (f : Nat → Nat → Nat) :
    Host.Outcome State Fault Refusal :=
  let k := w.bits
  let r := tree f (withIdentity (activeList k s.guardMask) (elems k (s.vec a)) ident) 10
  .next (s.vecToGpr d (widen w nat r) .none)

/-- Inclusive prefixes over the active elements (R177). -/
def scanFrom (f : Nat → Nat → Nat) (acc : Option Nat) : List Bool → List Nat → List Nat
  | b :: bs, x :: xs =>
    let now : Option Nat := if b then some (match acc with
      | some a => f a x
      | none => x) else acc
    now.getD x :: scanFrom f now bs xs
  | _, _ => []
def State.vscan (s : State) (w : Width) (d a : Vr) (f : Nat → Nat → Nat) : Host.Outcome State Fault Refusal :=
  s.vimage w d (scanFrom f none (activeList w.bits s.guardMask) (elems w.bits (s.vec a)))

/-- A predicate operation (R178). -/
def State.pop (s : State) (d : Pr) (x : Pred) : Host.Outcome State Fault Refusal := .next (s.vecToPred d x .none)

/-- Order by value, signed or natural. -/
def leN (k : Nat) (n : Bool) (x y : Nat) : Bool := if n then decide (x ≤ y) else decide (sv k x ≤ sv k y)
def minN (k : Nat) (n : Bool) (x y : Nat) : Nat := if leN k n x y then x else y
def maxN (k : Nat) (n : Bool) (x y : Nat) : Nat := if leN k n y x then x else y


/-- `VADD` (R168). -/
def execVadd (w : Width) (d a b : Vr) (s : State) : Host.Outcome State Fault Refusal :=
  s.vop w d a b fun x y => x + y

/-- `VSUB` (R168). -/
def execVsub (w : Width) (d a b : Vr) (s : State) : Host.Outcome State Fault Refusal :=
  s.vop w d a b fun x y => x + 2 ^ w.bits - y

/-- `VMIN` (R168). -/
def execVmin (w : Width) (d a b : Vr) (s : State) : Host.Outcome State Fault Refusal :=
  s.vop w d a b fun x y => minN w.bits false x y

/-- `VMAX` (R168). -/
def execVmax (w : Width) (d a b : Vr) (s : State) : Host.Outcome State Fault Refusal :=
  s.vop w d a b fun x y => maxN w.bits false x y

/-- `VMINN` (R168). -/
def execVminn (w : Width) (d a b : Vr) (s : State) : Host.Outcome State Fault Refusal :=
  s.vop w d a b fun x y => minN w.bits true x y

/-- `VMAXN` (R168). -/
def execVmaxn (w : Width) (d a b : Vr) (s : State) : Host.Outcome State Fault Refusal :=
  s.vop w d a b fun x y => maxN w.bits true x y

/-- `VMUL` (R169). -/
def execVmul (w : Width) (d a b : Vr) (s : State) : Host.Outcome State Fault Refusal :=
  s.vop w d a b fun x y => x * y

/-- `VMULH` (R169). -/
def execVmulh (w : Width) (d a b : Vr) (s : State) : Host.Outcome State Fault Refusal :=
  s.vop w d a b fun x y => toBits w.bits (sv w.bits x * sv w.bits y / 2 ^ w.bits)

/-- `VMULHN` (R169). -/
def execVmulhn (w : Width) (d a b : Vr) (s : State) : Host.Outcome State Fault Refusal :=
  s.vop w d a b fun x y => x * y / 2 ^ w.bits

/-- `VAND` (R170). -/
def execVand (w : Width) (d a b : Vr) (s : State) : Host.Outcome State Fault Refusal :=
  s.vop w d a b fun x y => x &&& y

/-- `VOR` (R170). -/
def execVor (w : Width) (d a b : Vr) (s : State) : Host.Outcome State Fault Refusal :=
  s.vop w d a b fun x y => x ||| y

/-- `VXOR` (R170). -/
def execVxor (w : Width) (d a b : Vr) (s : State) : Host.Outcome State Fault Refusal :=
  s.vop w d a b fun x y => x ^^^ y

/-- `VANDN` (R170). -/
def execVandn (w : Width) (d a b : Vr) (s : State) : Host.Outcome State Fault Refusal :=
  s.vop w d a b fun x y => x &&& (2 ^ w.bits - 1 - y)

/-- `VSHL` (R170). -/
def execVshl (w : Width) (d a b : Vr) (s : State) : Host.Outcome State Fault Refusal :=
  s.vop w d a b fun x y => x * 2 ^ (y % w.bits)

/-- `VSHR` (R170). -/
def execVshr (w : Width) (d a b : Vr) (s : State) : Host.Outcome State Fault Refusal :=
  s.vop w d a b fun x y => x / 2 ^ (y % w.bits)

/-- `VSRA` (R170). -/
def execVsra (w : Width) (d a b : Vr) (s : State) : Host.Outcome State Fault Refusal :=
  s.vop w d a b fun x y => toBits w.bits (sv w.bits x / 2 ^ (y % w.bits))

/-- `VADDS` (R168). -/
def execVadds (w : Width) (n : Bool) (d a b : Vr) (s : State) : Host.Outcome State Fault Refusal :=
  s.vsat w n d a b fun x y => x + y

/-- `VSUBS` (R168). -/
def execVsubs (w : Width) (n : Bool) (d a b : Vr) (s : State) : Host.Outcome State Fault Refusal :=
  s.vsat w n d a b fun x y => x - y

/-- `VMAD`: d is read at issue (R169). -/
def execVmad (w : Width) (d a b : Vr) (s : State) : Host.Outcome State Fault Refusal :=
  .next (s.eltwise w.bits d (elems w.bits (s.vec a)) (elems w.bits (s.vec b)) fun x y z =>
    ((x * y + z) % 2 ^ w.bits, .none))

/-- The sum of four byte products (R169). -/
def dot4 (n : Bool) (x y : Nat) : Int :=
  let val (b : Nat) : Int := if n then b else sv 8 b
  (below 4).foldl (fun acc q => acc + val (bitsOf x (8 * q) 8) * val (bitsOf y (8 * q) 8)) 0

/-- `VDOT4`: 32-bit lanes accumulate dot products of bytes (R169). -/
def execVdot4 (n : Bool) (d a b : Vr) (s : State) : Host.Outcome State Fault Refusal :=
  .next (s.eltwise 32 d (elems 32 (s.vec a)) (elems 32 (s.vec b)) fun x y z => (toBits 32 ((z : Int) + dot4 n x y), .none))

/-- `VCMPEQ` (R171). -/
def execVcmpeq (w : Width) (d : Pr) (a b : Vr) (s : State) : Host.Outcome State Fault Refusal :=
  s.vcmp w d a b fun x y => x == y

/-- `VCMPNE` (R171). -/
def execVcmpne (w : Width) (d : Pr) (a b : Vr) (s : State) : Host.Outcome State Fault Refusal :=
  s.vcmp w d a b fun x y => x != y

/-- `VCMPLT` (R171). -/
def execVcmplt (w : Width) (d : Pr) (a b : Vr) (s : State) : Host.Outcome State Fault Refusal :=
  s.vcmp w d a b fun x y => decide (sv w.bits x < sv w.bits y)

/-- `VCMPLE` (R171). -/
def execVcmple (w : Width) (d : Pr) (a b : Vr) (s : State) : Host.Outcome State Fault Refusal :=
  s.vcmp w d a b fun x y => decide (sv w.bits x ≤ sv w.bits y)

/-- `VCMPLTN` (R171). -/
def execVcmpltn (w : Width) (d : Pr) (a b : Vr) (s : State) : Host.Outcome State Fault Refusal :=
  s.vcmp w d a b fun x y => decide (x < y)

/-- `VCMPLEN` (R171). -/
def execVcmplen (w : Width) (d : Pr) (a b : Vr) (s : State) : Host.Outcome State Fault Refusal :=
  s.vcmp w d a b fun x y => decide (x ≤ y)

/-- `VSEL` chooses lane by lane by the guard mask, and writes every lane (R172). -/
def execVsel (d a b : Vr) (s : State) : Host.Outcome State Fault Refusal :=
  let m := laneMask s.guardMask
  .next (s.vecResult d ((s.vec a &&& m) ||| (s.vec b &&& ~~~ m)) allLanes .none)

/-- `VBCAST` of a general register (R173). -/
def execVbcast (w : Width) (d : Vr) (a : Gpr) (s : State) : Host.Outcome State Fault Refusal :=
  s.vimage w d (List.replicate (elemCount w.bits) (s.src w a))

/-- `VBCAST` of an immediate (R173). -/
def execVbcastImm (w : Width) (d : Vr) (i : Imm) (s : State) : Host.Outcome State Fault Refusal :=
  s.vimage w d (List.replicate (elemCount w.bits) (immInt w.bits i))

/-- `VIOTA` (R173). -/
def execViota (w : Width) (d : Vr) (a : Gpr) (s : State) : Host.Outcome State Fault Refusal :=
  s.vimage w d ((below (elemCount w.bits)).map fun i => ((s.gpr a).toNat + i) % 2 ^ w.bits)

/-- `VMOVP` into a predicate: nonzero lanes (R173). -/
def execVmovpToPred (d : Pr) (a : Vr) (s : State) : Host.Outcome State Fault Refusal :=
  .next (s.vecToPred d (predOf 32 ((elems 32 (s.vec a)).map fun x => x != 0)) .none)

/-- `VMOVP` into a vector: all ones for a set bit (R173). -/
def execVmovpToVec (d : Vr) (a : Pr) (s : State) : Host.Outcome State Fault Refusal :=
  let p := s.pred a
  .next (s.eltwise 32 d (below 256) (below 256) fun j _ _ => (if p.getLsbD j then 0xFFFFFFFF else 0, .none))

/-- Element `i` of a register. -/
def elemAt (w : Nat) (x i : Nat) : Nat := x / 2 ^ (w * i) % 2 ^ w
/-- A register with element `i` replaced. -/
def setElem (w : Nat) (x i e : Nat) : Nat := x / 2 ^ (w * (i + 1)) * 2 ^ (w * (i + 1)) + e % 2 ^ w * 2 ^ (w * i) + x % 2 ^ (w * i)
/-- The elements of one list and another in turn. -/
def interleave : List Nat → List Nat → List Nat
  | x :: xs, y :: ys => x :: y :: interleave xs ys
  | _, _ => []
/-- Every second element. -/
def evens : List Nat → List Nat
  | x :: _ :: r => x :: evens r
  | l => l

/-- `VPERM`: indices are reduced modulo E (R174). -/
def execVperm (w : Width) (d a b : Vr) (s : State) : Host.Outcome State Fault Refusal :=
  let x := (s.vec a).toNat
  s.vimage w d ((elems w.bits (s.vec b)).map fun i => elemAt w.bits x (i % elemCount w.bits))

/-- `VROT` (R174). -/
def execVrot (w : Width) (d a : Vr) (b : Gpr) (s : State) : Host.Outcome State Fault Refusal :=
  let k := (s.gpr b).toNat % elemCount w.bits
  let xs := elems w.bits (s.vec a)
  s.vimage w d (xs.drop k ++ xs.take k)

/-- `VZIP` (R174). -/
def execVzip (w : Width) (d a b : Vr) (s : State) : Host.Outcome State Fault Refusal :=
  let h := elemCount w.bits / 2
  s.vimage w d (interleave ((elems w.bits (s.vec a)).take h) ((elems w.bits (s.vec b)).take h))

/-- `VUNZIP` (R174). -/
def execVunzip (w : Width) (d a b : Vr) (s : State) : Host.Outcome State Fault Refusal :=
  s.vimage w d (evens (elems w.bits (s.vec a)) ++ evens (elems w.bits (s.vec b)))

/-- `VREDADD` (R176). -/
def execVredadd (w : Width) (d : Gpr) (a : Vr) (s : State) : Host.Outcome State Fault Refusal :=
  s.vred w false d a 0 fun x y => (x + y) % 2 ^ w.bits

/-- `VREDMIN` (R176). -/
def execVredmin (w : Width) (n : Bool) (d : Gpr) (a : Vr) (s : State) : Host.Outcome State Fault Refusal :=
  s.vred w n d a (if n then 2 ^ w.bits - 1 else 2 ^ (w.bits - 1) - 1) (minN w.bits n)

/-- `VREDMAX` (R176). -/
def execVredmax (w : Width) (n : Bool) (d : Gpr) (a : Vr) (s : State) : Host.Outcome State Fault Refusal :=
  s.vred w n d a (if n then 0 else 2 ^ (w.bits - 1)) (maxN w.bits n)

/-- `VREDAND` (R176). -/
def execVredand (w : Width) (d : Gpr) (a : Vr) (s : State) : Host.Outcome State Fault Refusal :=
  s.vred w false d a (2 ^ w.bits - 1) fun x y => x &&& y

/-- `VREDOR` (R176). -/
def execVredor (w : Width) (d : Gpr) (a : Vr) (s : State) : Host.Outcome State Fault Refusal :=
  s.vred w false d a 0 fun x y => x ||| y

/-- `VSCANADD` (R177). -/
def execVscanadd (w : Width) (d a : Vr) (s : State) : Host.Outcome State Fault Refusal :=
  s.vscan w d a fun x y => (x + y) % 2 ^ w.bits

/-- `VSCANMAX` (R177). -/
def execVscanmax (w : Width) (n : Bool) (d a : Vr) (s : State) : Host.Outcome State Fault Refusal :=
  s.vscan w d a (maxN w.bits n)

/-- `VEXTR`: an inactive element leaves g[d] unchanged (R175). -/
def execVextr (w : Width) (n : Bool) (d : Gpr) (a : Vr) (b : Gpr) (s : State) : Host.Outcome State Fault Refusal :=
  let k := (s.gpr b).toNat % elemCount w.bits
  .next (if s.guardMask.getLsbD (govBit w.bits k) then s.vecToGpr d (widen w n (elemAt w.bits (s.vec a).toNat k)) .none
    else (s.startVector []).retire)

/-- `VINS` replaces one active element (R175). Its commit writes the 4-byte lanes that hold the element whole, an 8- or 16-bit
element's neighbours as they were at issue: the spec does not say (assumption 91). -/
def execVins (w : Width) (d : Vr) (a b : Gpr) (s : State) : Host.Outcome State Fault Refusal :=
  let k := (s.gpr b).toNat % elemCount w.bits
  let lane := govBit w.bits k
  let lanes : Pred := if w.bits = 64 then 3#256 <<< lane else 1#256 <<< lane
  .next (if s.guardMask.getLsbD lane then
      s.vecResult d (BitVec.ofNat 8192 (setElem w.bits (s.vec d).toNat k (s.src w a))) lanes .none
    else (s.startVector []).retire)

/-- `PAND` (R178). -/
def execPand (d a b : Pr) (s : State) : Host.Outcome State Fault Refusal :=
  s.pop d (s.pred a &&& s.pred b)

/-- `POR` (R178). -/
def execPor (d a b : Pr) (s : State) : Host.Outcome State Fault Refusal :=
  s.pop d (s.pred a ||| s.pred b)

/-- `PXOR` (R178). -/
def execPxor (d a b : Pr) (s : State) : Host.Outcome State Fault Refusal :=
  s.pop d (s.pred a ^^^ s.pred b)

/-- `PNOT` (R178). -/
def execPnot (d a : Pr) (s : State) : Host.Outcome State Fault Refusal :=
  s.pop d (~~~ s.pred a)

/-- `PCNT` (R178). -/
def execPcnt (d : Gpr) (a : Pr) (s : State) : Host.Outcome State Fault Refusal :=
  let n := ((below 256).filter fun j => (s.pred a &&& s.guardMask).getLsbD j).length
  .next (s.vecToGpr d (BitVec.ofNat 64 n) .none)

/-- `PFIRST` (R178). -/
def execPfirst (d a : Pr) (s : State) : Host.Outcome State Fault Refusal :=
  let x := s.pred a &&& s.guardMask
  s.pop d (match (below 256).find? fun j => x.getLsbD j with
    | some j => 1#256 <<< j
    | none => 0)

end Sys2Proof.Machine
end

