-- ==== Sys2Proof/Machine/VectorFloat.lean ====
section
/-!
DEFINITION. Page 2: floating-point vector arithmetic, compares, conversions, MX blocks, transcendentals and the softmax
step (R167, R171, R176, R179–R185).
-/
namespace Sys2Proof.Machine

/-! Shapes. -/

/-- The elements of the second source: a register's, or copies of an immediate (R179). -/
def State.fsrc (s : State) (f : Fmt) (b : FSrc) : List Nat :=
  match b with
  | .vec r => elems f.width (s.vec r)
  | .imm i => List.replicate (elemCount f.width) (immFloat f i)

/-- Four lists of elements, one function. -/
def zip4 {α : Type} (f : Nat → Nat → Nat → Nat → α) : List Nat → List Nat → List Nat → List Nat → List α
  | x :: xs, y :: ys, z :: zs, r :: rs => f x y z r :: zip4 f xs ys zs rs
  | _, _, _, _ => []

/-- Each active element becomes a rounded function of x, y and the old d, with one draw an element (R90, R164). -/
def State.fmapD (s : State) (f : Fmt) (r : Rnd) (d : Vr) (xs ys : List Nat)
    (op : RMode → Nat → Nat → Nat → Nat × Fl) : Host.Outcome State Fault Refusal :=
  let w := f.width
  let g := s.guardMask
  let act := activeList w g
  let old := elems w (s.vec d)
  let dr := s.drawFor r (elemCount w)
  let rs := zip4 (fun x y z n => op ⟨r, n⟩ x y z) xs ys old dr.1
  .next ((s.setSeed dr.2).vecResult d (ofElems w (mergeElems act old (rs.map (·.1)))) (activeLanes w g) (sumFl act rs))

/-- A value with its events, rounded once. -/
def Fmt.finish (f : Fmt) (md : RMode) (r : Fv × Fl) : Nat × Fl :=
  let x := f.deliver md false r.1
  (x.1, x.2.once r.2)

/-- An operation on two values and the old d (R179). -/
def State.farith (s : State) (t : VTy) (r : Rnd) (d a : Vr) (b : FSrc) (op : RMode → Fv → Fv → Fv → Fv × Fl) :
    Host.Outcome State Fault Refusal :=
  let f := vtyFmt t
  s.fmapD f r d (elems f.width (s.vec a)) (s.fsrc f b) fun md x y z =>
    f.finish md (op md (f.value x) (f.value y) (f.value z))
/-- An operation on one value. -/
def State.funary (s : State) (f : Fmt) (r : Rnd) (d a : Vr) (op : RMode → Nat → Nat × Fl) :
    Host.Outcome State Fault Refusal :=
  let xs := elems f.width (s.vec a)
  s.fmapD f r d xs xs fun md x _ _ => op md x

/-- A float compare (R171): `quiet` members count invalid for a signalling NaN only. -/
def State.fcmp (s : State) (t : VTy) (d : Pr) (a b : Vr) (quiet : Bool) (test : Option Ordering → Bool) :
    Host.Outcome State Fault Refusal :=
  let f := vtyFmt t
  let xs := (elems f.width (s.vec a)).map f.value
  let ys := (elems f.width (s.vec b)).map f.value
  let rs := List.zipWith (fun x y =>
    ((if test (fvCmp x y) then 1 else 0 : Nat), flInv (if quiet then x.isSig || y.isSig else x.isNan || y.isNan))) xs ys
  .next (s.vecToPred d (predOf f.width (rs.map fun r => r.1 == 1)) (sumFl (activeList f.width s.guardMask) rs))

/-- One level of a float tree: each step takes the next draw (R97). -/
def ftreeLevel (op : Nat → Nat → Nat → Nat × Fl) : List Nat → List Nat → List Nat × List Nat × Fl
  | x :: y :: r, ds =>
    let z := op (ds.headD 0) x y
    let t := ftreeLevel op r (ds.drop 1)
    (z.1 :: t.1, t.2.1, z.2.add t.2.2)
  | l, ds => (l, ds, .none)
/-- The tree of R97 over a list of at most 2ⁿ leaves. -/
def ftree (op : Nat → Nat → Nat → Nat × Fl) (l ds : List Nat) (fl : Fl) : Nat → Nat × Fl
  | 0 => (l.headD 0, fl)
  | n + 1 =>
    let t := ftreeLevel op l ds
    ftree op t.1 t.2.1 (fl.add t.2.2) n
/-- A float reduction (R176): it counts the events of every combining step, on which the spec is silent (R88, assumption 70). -/
def State.fred (s : State) (t : VTy) (r : Rnd) (d : Gpr) (a : Vr) (ident : Nat) (op : RMode → Fv → Fv → Fv × Fl) :
    Host.Outcome State Fault Refusal :=
  let f := vtyFmt t
  let xs := withIdentity (activeList f.width s.guardMask) (elems f.width (s.vec a)) ident
  let dr := s.drawFor r (elemCount f.width - 1)
  let step (n x y : Nat) : Nat × Fl := f.finish ⟨r, n⟩ (op ⟨r, n⟩ (f.value x) (f.value y))
  let z := ftree step xs dr.1 .none 10
  .next ((s.setSeed dr.2).vecToGpr d (BitVec.ofNat 64 z.1) z.2)


/-- `VFADD` (R179). -/
def execVfadd (t : VTy) (r : Rnd) (d a : Vr) (b : FSrc) (s : State) : Host.Outcome State Fault Refusal :=
  s.farith t r d a b fun md x y _ => fvAdd md x y

/-- `VFSUB` (R179). -/
def execVfsub (t : VTy) (r : Rnd) (d a : Vr) (b : FSrc) (s : State) : Host.Outcome State Fault Refusal :=
  s.farith t r d a b fun md x y _ => fvAdd md x y.negate

/-- `VFMUL` (R179). -/
def execVfmul (t : VTy) (r : Rnd) (d a : Vr) (b : FSrc) (s : State) : Host.Outcome State Fault Refusal :=
  s.farith t r d a b fun _ x y _ => fvMul x y

/-- `VFMA` (R179). -/
def execVfma (t : VTy) (r : Rnd) (d a : Vr) (b : FSrc) (s : State) : Host.Outcome State Fault Refusal :=
  s.farith t r d a b fun md x y z => fvFma md x y z

/-- `VFMS` (R179). -/
def execVfms (t : VTy) (r : Rnd) (d a : Vr) (b : FSrc) (s : State) : Host.Outcome State Fault Refusal :=
  s.farith t r d a b fun md x y z => fvFma md x y z.negate

/-- `VFNMA` (R179). -/
def execVfnma (t : VTy) (r : Rnd) (d a : Vr) (b : FSrc) (s : State) : Host.Outcome State Fault Refusal :=
  s.farith t r d a b fun md x y z => fvFma md x.negate y z

/-- `VFMIN`: −0 is below +0 (R179). -/
def execVfmin (t : VTy) (d a : Vr) (b : FSrc) (s : State) : Host.Outcome State Fault Refusal :=
  s.farith t .rne d a b fun _ x y _ => fvPick false x y

/-- `VFMAX`: −0 is below +0 (R179). -/
def execVfmax (t : VTy) (d a : Vr) (b : FSrc) (s : State) : Host.Outcome State Fault Refusal :=
  s.farith t .rne d a b fun _ x y _ => fvPick true x y

/-- `VFDIV` (R180). -/
def execVfdiv (t : VTy) (r : Rnd) (d a b : Vr) (s : State) : Host.Outcome State Fault Refusal :=
  s.farith t r d a (.vec b) fun _ x y _ => fvDiv x y

/-- `VFSQRT` (R180). -/
def execVfsqrt (t : VTy) (r : Rnd) (d a : Vr) (s : State) : Host.Outcome State Fault Refusal :=
  s.funary (vtyFmt t) r d a fun md x => (vtyFmt t).finish md (fvSqrt ((vtyFmt t).value x))

/-- `VFRCP` (R180). -/
def execVfrcp (t : VTy) (d a : Vr) (s : State) : Host.Outcome State Fault Refusal :=
  s.funary (vtyFmt t) .rne d a fun _ x => rcpValue (vtyFmt t) ((vtyFmt t).value x)

/-- `VFRSQ` (R180). -/
def execVfrsq (t : VTy) (d a : Vr) (s : State) : Host.Outcome State Fault Refusal :=
  s.funary (vtyFmt t) .rne d a fun _ x => rsqValue (vtyFmt t) ((vtyFmt t).value x)

/-- `VFCMPEQ` (R171). -/
def execVfcmpeq (t : VTy) (d : Pr) (a b : Vr) (s : State) : Host.Outcome State Fault Refusal :=
  s.fcmp t d a b true fun o => o == some .eq

/-- `VFCMPNE` (R171). -/
def execVfcmpne (t : VTy) (d : Pr) (a b : Vr) (s : State) : Host.Outcome State Fault Refusal :=
  s.fcmp t d a b true fun o => o != some .eq

/-- `VFCMPLT` (R171). -/
def execVfcmplt (t : VTy) (d : Pr) (a b : Vr) (s : State) : Host.Outcome State Fault Refusal :=
  s.fcmp t d a b false fun o => o == some .lt

/-- `VFCMPLE` (R171). -/
def execVfcmple (t : VTy) (d : Pr) (a b : Vr) (s : State) : Host.Outcome State Fault Refusal :=
  s.fcmp t d a b false fun o => o == some .lt || o == some .eq

/-- `VFCMPUN` (R171). -/
def execVfcmpun (t : VTy) (d : Pr) (a b : Vr) (s : State) : Host.Outcome State Fault Refusal :=
  s.fcmp t d a b true fun o => o == none

/-- The bits and the count of the elements of a conversion's source and destination (R182). -/
def cvtWidths : Cvt → Nat × Nat
  | .floatFloat a b => ((ftyFmt a).width, (ftyFmt b).width)
  | .floatInt a b => ((ftyFmt a).width, ityWidth b)
  | .intFloat a b => (ityWidth a, (ftyFmt b).width)
/-- The conversion of one element (R91, R92). Between equal types it copies exactly, whatever the flag, but for a NaN (R182,
assumption 71). -/
def convert (c : Cvt) (md : RMode) (sat : Bool) (x : Nat) : Nat × Fl :=
  match c with
  | .floatFloat a b => (ftyFmt b).deliver md (sat && a != b) ((ftyFmt a).value x)
  | .floatInt a b => toInt md (itySigned b) (ityWidth b) ((ftyFmt a).value x)
  | .intFloat a b => (ftyFmt b).deliver md false (intValue (if itySigned a then sv (ityWidth a) x else x))

/-- `VCVT`: elements past the shorter count become 0 (R182). -/
def execVcvt (c : Cvt) (r : Rnd) (n : Bool) (d a : Vr) (s : State) : Host.Outcome State Fault Refusal :=
  let ws := cvtWidths c
  let g := s.guardMask
  let act := activeList ws.2 g
  let count := elemCount ws.2
  let dr := s.drawFor r count
  let xs := elems ws.1 (s.vec a)
  let some' := List.zipWith (fun x k => convert c ⟨r, k⟩ n x) xs dr.1
  let rs := some' ++ List.replicate (count - some'.length) (0, .none)
  .next ((s.setSeed dr.2).vecResult d (ofElems ws.2 (mergeElems act (elems ws.2 (s.vec d)) (rs.map (·.1))))
    (activeLanes ws.2 g) (sumFl act rs))

/-- Bytes [lo, lo + len) of a register replaced. -/
def setBytes (x lo len v : Nat) : Nat :=
  x / 256 ^ (lo + len) * 256 ^ (lo + len) + v % 256 ^ len * 256 ^ lo + x % 256 ^ lo
/-- Lanes that a byte range touches. -/
def byteLanes (lo len : Nat) : Pred :=
  (below 256).foldr (fun j (acc : Pred) => if 4 * j < lo + len ∧ lo < 4 * j + 4 then acc ||| (1#256 <<< j) else acc) 0

/-- `VQMX` (R93, R183): an active block writes its elements and its scale. Its commit writes the lane of a scale byte whole, the
other bytes as they were at issue: the spec does not say (assumption 91). -/
def execVqmx (t : STy) (m : MTy) (n : Bool) (d a : Vr) (s : State) : Host.Outcome State Fault Refusal :=
  let w := (styFmt t).width
  let act := activeList w s.guardMask
  let xs := elems w (s.vec a)
  let len := 4 * mtyBits m
  let step (acc : Nat × Pred × Fl) (k : Nat) : Nat × Pred × Fl :=
    if act.getD (32 * k) false then
      let q := mxQuantise m n (((xs.drop (32 * k)).take 32).map (styFmt t).value)
      (setBytes (setBytes acc.1 (k * len) len (packElems (mtyBits m) q.2.1)) (1008 + k) 1 q.1,
       acc.2.1 ||| byteLanes (k * len) len ||| byteLanes (1008 + k) 1, acc.2.2.add q.2.2)
    else acc
  let r := (below (elemCount w / 32)).foldl step ((s.vec d).toNat, 0, .none)
  .next (s.vecResult d (BitVec.ofNat 8192 r.1) r.2.1 r.2.2)

/-- `VDQMX` (R95, R183). -/
def execVdqmx (t : STy) (m : MTy) (d a : Vr) (s : State) : Host.Outcome State Fault Refusal :=
  let f := styFmt t
  let src := (s.vec a).toNat
  let len := 4 * mtyBits m
  let el (i : Nat) : Nat × Fl :=
    let block := src / 256 ^ (i / 32 * len)
    f.deliver rneMode false (mxValue m (block / 2 ^ (mtyBits m * (i % 32)) % 2 ^ mtyBits m) (src / 256 ^ (1008 + i / 32) % 256))
  let g := s.guardMask
  let act := activeList f.width g
  let rs := (below (elemCount f.width)).map el
  .next (s.vecResult d (ofElems f.width (mergeElems act (elems f.width (s.vec d)) (rs.map (·.1)))) (activeLanes f.width g)
    (sumFl act rs))

/-- `VFEXP2` (R184). -/
def execVfexp2 (t : STy) (d a : Vr) (s : State) : Host.Outcome State Fault Refusal :=
  s.funary (styFmt t) .rne d a fun _ x => transValue (styFmt t) .exp2 ((styFmt t).value x)

/-- `VFLOG2` (R184). -/
def execVflog2 (t : STy) (d a : Vr) (s : State) : Host.Outcome State Fault Refusal :=
  s.funary (styFmt t) .rne d a fun _ x => transValue (styFmt t) .log2 ((styFmt t).value x)

/-- `VFTANH` (R184). -/
def execVftanh (t : STy) (d a : Vr) (s : State) : Host.Outcome State Fault Refusal :=
  s.funary (styFmt t) .rne d a fun _ x => transValue (styFmt t) .tanh ((styFmt t).value x)

/-- `VFSIGM` (R184). -/
def execVfsigm (t : STy) (d a : Vr) (s : State) : Host.Outcome State Fault Refusal :=
  s.funary (styFmt t) .rne d a fun _ x => transValue (styFmt t) .sigm ((styFmt t).value x)

/-! The softmax step (R185), on `f32` values. -/

def f32v (x : Nat) : Fv := fmtF32.value x
def f32Sub (x y : Nat) : Nat × Fl := fmtF32.finish rneMode (fvAdd rneMode (f32v x) (f32v y).negate)
def f32Add (x y : Nat) : Nat × Fl := fmtF32.finish rneMode (fvAdd rneMode (f32v x) (f32v y))
def f32Mul (x y : Nat) : Nat × Fl := fmtF32.finish rneMode (fvMul (f32v x) (f32v y))
def f32Max (x y : Nat) : Nat := (fmtF32.deliver rneMode false (fvPick true (f32v x) (f32v y)).1).1
/-- e2 of a rounded difference. -/
def e2Sub (x y : Nat) : Nat × Fl :=
  let d := f32Sub x y
  let r := transF32 .exp2 (f32v d.1)
  (r.1, d.2.add r.2)
/-- −0, the identity of the sum. -/
abbrev negZero32 : Nat := 0x80000000
abbrev one32 : Nat := 0x3F800000
abbrev negInf32 : Nat := 0xFF800000
abbrev nan32 : Nat := 0x7FC00000

/-- The result of one segment: m, l, the rescale factor, the terms of its lanes and the events. -/
structure SmxSeg where
  m : Nat
  l : Nat
  alpha : Nat
  terms : List Nat
  fl : Fl
deriving DecidableEq, Repr

/-- One segment: its state, and its scores with whether each lane is active. -/
def smxSegment (m l : Nat) (xs : List (Bool × Nat)) (levels : Nat) : SmxSeg :=
  let isNan (x : Nat) : Bool := (f32v x).isNan
  if isNan m || isNan l || xs.any fun p => p.1 && isNan p.2 then
    ⟨nan32, nan32, nan32, xs.map fun _ => nan32, .none⟩
  else
    let m2 := (xs.filter fun p => p.1).foldl (fun acc p => f32Max acc p.2) m
    let same (x y : Nat) : Bool := fvCmp (f32v x) (f32v y) == some .eq
    let alpha := if same m m2 then (one32, .none) else e2Sub m m2
    let term (p : Bool × Nat) : Nat × Fl :=
      if !p.1 then (negZero32, .none)
      else if p.2 = negInf32 then (0, .none)
      else if same p.2 m2 then (one32, .none)
      else e2Sub p.2 m2
    let ts := xs.map term
    let sum := ftree (fun _ x y => f32Add x y) (ts.map (·.1)) [] .none levels
    let scaled := f32Mul l alpha.1
    let l2 := f32Add scaled.1 sum.1
    let fl := ts.foldl (fun acc t => acc.add t.2) (((alpha.2.add sum.2).add scaled.2).add l2.2)
    ⟨m2, l2.1, alpha.1, ts.map (·.1), fl⟩

/-- `VSMX` (R185): the state lanes of every segment are written whatever the guard. -/
def execVsmx (c : BitVec 3) (d a b : Vr) (s : State) : Host.Outcome State Fault Refusal :=
  let len := 16 * 2 ^ c.toNat
  let g := s.guardMask
  let act := activeList 32 g
  let scores := List.zip act (elems 32 (s.vec a))
  let st := (s.vec b).toNat
  let segs := (below (256 / len)).map fun k =>
    (k, smxSegment (elemAt 32 st k) (elemAt 32 st (64 + k)) ((scores.drop (k * len)).take len) (4 + c.toNat))
  let st' := segs.foldl (fun x p =>
    setElem 32 (setElem 32 (setElem 32 x p.1 p.2.m) (64 + p.1) p.2.l) (128 + p.1) p.2.alpha) st
  let lanes : Pred := segs.foldl (fun acc p =>
    acc ||| (1#256 <<< p.1) ||| (1#256 <<< (64 + p.1)) ||| (1#256 <<< (128 + p.1))) 0
  let terms := segs.flatMap fun p => p.2.terms
  let fl := segs.foldl (fun acc p => acc.add p.2.fl) .none
  let dv := ofElems 32 (mergeElems act (elems 32 (s.vec d)) terms)
  let r1 := (s.latchEvents fl).vecWrite b (BitVec.ofNat 8192 st') lanes
  let r2 := r1.1.vecWrite d dv g
  .next ((r2.1.startVector (r1.2 ++ r2.2)).retire)

/-- `VFREDADD` (R97, R176). -/
def execVfredadd (t : VTy) (r : Rnd) (d : Gpr) (a : Vr) (s : State) : Host.Outcome State Fault Refusal :=
  s.fred t r d a ((vtyFmt t).sign true) fun md x y => fvAdd md x y

/-- `VFREDMAX` (R97, R176). -/
def execVfredmax (t : VTy) (d : Gpr) (a : Vr) (s : State) : Host.Outcome State Fault Refusal :=
  s.fred t .rne d a ((vtyFmt t).infBits true) fun _ x y => fvPick true x y

/-- `VFREDMIN` (R97, R176). -/
def execVfredmin (t : VTy) (d : Gpr) (a : Vr) (s : State) : Host.Outcome State Fault Refusal :=
  s.fred t .rne d a ((vtyFmt t).infBits false) fun _ x y => fvPick false x y

/-- A sign operation: a NaN becomes canonical (R181). -/
def signOp (f : Fmt) (x : Nat) (neg : Bool) : Nat × Fl :=
  let v := f.value x
  if v.isNan then (f.nanBits, flInv v.isSig) else (f.sign neg + x % 2 ^ (f.width - 1), .none)
/-- The class mask of a value (R181). -/
def classOf (f : Fmt) (x : Nat) : Nat :=
  match f.value x with
  | .inf n => if n then 1 else 128
  | .nan sig => if sig then 256 else 512
  | .fin n m _ =>
    if m = 0 then (if n then 8 else 16)
    else if bitsOf x f.fbits f.ebits = 0 then (if n then 4 else 32)
    else (if n then 2 else 64)

/-- `VFABS` (R181). -/
def execVfabs (t : VTy) (d a : Vr) (s : State) : Host.Outcome State Fault Refusal :=
  s.funary (vtyFmt t) .rne d a fun _ x => signOp (vtyFmt t) x false

/-- `VFNEG` (R181). -/
def execVfneg (t : VTy) (d a : Vr) (s : State) : Host.Outcome State Fault Refusal :=
  s.funary (vtyFmt t) .rne d a fun _ x => signOp (vtyFmt t) x (!bitOf x ((vtyFmt t).width - 1))

/-- `VFCLASS` (R181). -/
def execVfclass (t : VTy) (d a : Vr) (s : State) : Host.Outcome State Fault Refusal :=
  s.funary (vtyFmt t) .rne d a fun _ x => (classOf (vtyFmt t) x, .none)

end Sys2Proof.Machine
end

