-- ==== Sys2Proof/Machine/EvEngines.lean ====
section
/-!
DEFINITION. The copy engine and the collective engine at work: starts, segments, completions, follow-ons and instances
(R74–R77, R275–R282, R287–R289, R391, R426).
-/
namespace Sys2Proof.Machine

/-! Bytes of the objects that engines reach (R274). -/

/-- The home of byte `x` of a checked object, as a location, its core and its host link. A host byte's location holds the
difference to what the host's memory held before (assumption 8). -/
def State.byteSite (s : State) (t : Xl) (x : Nat) : Nat × Nat :=
  if t.ent.kind = kHost then (linkPos t.ent.hlink, hostLoc t.ent.hlink (t.ent.loc + x))
  else
    let h := s.home t x
    (h.1, if t.ent.kind = kScratch then scratchLoc h.1 h.2 else vaultLoc h.1 h.2)
/-- What the host's memory adds to a byte. -/
def hostMask (t : Xl) (x : Nat) : Byte := if t.ent.kind = kHost then Config.hostByte (t.ent.loc + x) else 0

/-- A source byte of a command: its value and whether its granule is poisoned. The bytes that packets have brought for the
segment come first; the others are the core's own. -/
def State.srcByte (s : State) (c : Nat) (m : CopyCmd) (i : Nat) : Byte × Bool :=
  match m.got.find? fun p => p.1 == i, m.src with
  | some p, _ => (p.2, m.gotBad.contains i)
  | none, some t =>
    let site := s.byteSite t (t.off + i)
    (s.readByte site.2 ^^^ hostMask t (t.off + i), s.poisoned site.2 1)
  | none, none =>
    let loc := bufLoc c (cSrcK m.block) (cSrcOff m.block + i)
    (s.readByte loc, s.poisoned loc 1)
/-- The object a range lies in, the alias as the allocation it stands for (R310). -/
def State.rangeObj (s : State) (c : Nat) (m : CopyCmd) (t : Xl) : Nat := if t.obj = aliasObj then s.scratchObj c m.bank else t.obj
/-- Source byte `i` of a command lies in its destination range as well (R426). -/
def State.overlapsAt (s : State) (c : Nat) (m : CopyCmd) (i : Nat) : Bool :=
  let z := cDstLen m.block
  match m.src, m.dst with
  | some a, some b => s.rangeObj c m a == s.rangeObj c m b && b.off ≤ a.off + i && a.off + i < b.off + z
  | none, none => !m.fill && cSrcK m.block == cDstK m.block && cDstOff m.block ≤ cSrcOff m.block + i &&
      cSrcOff m.block + i < cDstOff m.block + z
  | some _, none => false
  | none, some _ => false
/-- The source bytes of an overlapping copy as the command finds them. -/
def State.oldBytes (s : State) (c : Nat) (m : CopyCmd) : List Host.Cell :=
  if m.fill then [] else ((below (cLen m.block)).filter (s.overlapsAt c m)).map fun i => (i, match m.src with
    | some t => s.readByte (s.byteSite t (t.off + i)).2 ^^^ hostMask t (t.off + i)
    | none => (s.srcByte c m i).1)
/-- Source bytes [lo, lo + n) as a segment reads them; one in the overlap may be the byte as the command found it (R426). -/
def State.srcBytes (s : State) (c : Nat) (m : CopyCmd) (lo n : Nat) : List (Byte × Bool) :=
  (upFrom lo n).map fun i =>
    let now := s.srcByte c m i
    match m.old.find? fun p => p.1 == i with
    | some p => if Config.overlapKeepsOld (s.free + i) then (p.2, now.2) else now
    | none => now

/-- The converted bytes of elements (R279), with their poison and events. -/
def convertBytes (st dt : Nat) (sat : Bool) (bs : List (Byte × Bool)) : Nat → List (Byte × Bool) × Fl
  | 0 => ([], .none)
  | n + 1 =>
    let z := ftySize st
    let x := (bs.take z).foldr (fun b acc => acc * 256 + b.1.toNat) 0
    let bad := (bs.take z).any (·.2)
    let y := convert (.floatFloat (ftyOf st) (ftyOf dt)) rneMode sat x
    let rest := convertBytes st dt sat (bs.drop z) n
    ((below (ftySize dt)).map (fun i => (byteOf y.1 i, bad)) ++ rest.1, y.2.add rest.2)

/-- The source bytes [first, first + count) that destination bytes [lo, lo + n) of a command come from. -/
def CopyCmd.srcRange (m : CopyCmd) (lo n : Nat) : Nat × Nat :=
  let b := m.block
  if m.fill then (0, 0)
  else if cKind b = 2 then
    let zd := ftySize (cDType b)
    (lo / zd * ftySize (cSType b), ((lo + n + zd - 1) / zd - lo / zd) * ftySize (cSType b))
  else (lo, n)
/-- Destination bytes [lo, lo + n) of a command; an element that began in an earlier segment counts no events again
(R279). -/
def State.dstBytes (s : State) (c : Nat) (m : CopyCmd) (lo n : Nat) : List (Byte × Bool) × Fl :=
  let b := m.block
  if m.fill then
    let o := (match m.dst with
      | some t => t.off
      | none => cDstOff b) + lo
    ((upFrom o n).map fun x => (byteOf (cSrcOff b) (x % 8), false), .none)
  else
    let r := m.srcRange lo n
    let src := s.srcBytes c m r.1 r.2
    if cKind b = 2 then
      let zs := ftySize (cSType b)
      let zd := ftySize (cDType b)
      let conv (l : List (Byte × Bool)) (k : Nat) := convertBytes (cSType b) (cDType b) (cSat b) l k
      let split := if lo % zd = 0 then 0 else 1
      let a := conv (src.take (split * zs)) split
      let z := conv (src.drop (split * zs)) (r.2 / zs - split)
      (((a.1 ++ z.1).drop (lo % zd)).take n, z.2)
    else (src, .none)

/-! Commands. -/

def State.onCopy (s : State) (c num : Nat) (f : CopyCmd → CopyCmd) : State :=
  s.onCore c fun k => { k with copies := updFirst (fun m => m.num == num) f k.copies }
def State.copy? (s : State) (c num : Nat) : Option CopyCmd := (s.core c).copies.find? fun m => m.num == num

/-- The command the engine may start (R75, R275). -/
def Core.copyToStart (k : Core) : Option CopyCmd :=
  match k.copies.find? fun m => !m.sent with
  | some m => if !m.started && k.boardClear m.num && m.drain ≤ k.log.comp then some m else none
  | none => none
/-- The command whose next segment is due. -/
def Core.copyToSend (k : Core) (now : Nat) : Option CopyCmd := k.copies.find? fun m => m.started && !m.sent && m.reading == 0 && m.nextAt ≤ now
/-- A command whose last segment has been applied everywhere. -/
def Core.copyToEnd (k : Core) : Option CopyCmd :=
  k.copies.find? fun m => m.sent && m.flying == 0 && m.reading == 0 && (m.segs.isEmpty || m.failed)

/-- Whether a copy writes shared memory. -/
def CopyCmd.toShared (m : CopyCmd) : Bool := m.dst.any fun t => t.ent.kind == kShared
def CopyCmd.toHost (m : CopyCmd) : Bool := m.dst.any fun t => t.ent.kind == kHost

/-- The cores that a multicast reaches, with the base of the allocation there, and its refused positions (R278). -/
def State.multicast (s : State) (c : Nat) (m : CopyCmd) : List (Nat × Nat) × Nat :=
  let b := m.block
  let needs := !cDstB b || cSyncEn b
  let base (p : Nat) : Option Nat :=
    if p = c then (s.group? c m.bank).map (·.base)
    else
      let gs := ((s.core p).groups.filter fun g => some g.2.launch.id == m.launch.map (· / 1024)).map (·.2)
      (gs.foldl (fun (a : Option Group) g => match a with
        | some x => if g.index < x.index then some g else a
        | none => some g) none).map (·.base)
  (bitList (cMask b) 36).foldl (fun acc i =>
    let p := 36 * cMDie b + i
    let ok := s.live p && !(s.core p).contained
    match ok, base p with
    | true, some x => (acc.1 ++ [(p, x)], acc.2)
    | true, none => if needs then (acc.1, acc.2 + 2 ^ i) else (acc.1 ++ [(p, 0)], acc.2)
    | false, _ => (acc.1, acc.2 + 2 ^ i)) ([], 0)

/-- `COPY_COMMAND_START` (R275). -/
def execCopyCommandStart (s : State) : Host.Outcome State Fault Refusal :=
  let c := s.arg 0
  .next (match (s.core c).copyToStart with
    | none => s
    | some m =>
      let r := if cKind m.block = 1 && !m.fill then s.multicast c m else ([], 0)
      let old := s.oldBytes c m
      s.onCopy c m.num fun m =>
        { m with started := true, nextAt := s.cycle + 1, targets := r.1, refused := r.2, old
                 status := if r.2 = 0 then m.status else 5 })

/-- Writes the bytes of a segment where they belong: 0 a vault, 1 a scratchpad, 2 an operand buffer, 3 shared memory. A vault's
lines enter its write queue for the writer (R209). -/
def State.putSegment (s : State) (c place : Nat) (bytes : List Host.Cell) (poison : List Nat) (launch : Option Nat)
    (who : Writer) : State :=
  let lines := (byLine bytes).map (·.1)
  let plain (loc : Nat → Nat) : State :=
    (s.writeCells (bytes.map fun p => (loc p.1, p.2))).markPoison (poison.map fun a => loc a / 16)
  match place with
  | 1 => lines.foldl (fun s l => s.wakeRange (.scratch c (l * 64)) 64) (plain (scratchLoc c))
  | 2 => plain fun a => bufLoc c (a / 32768) (a % 32768)
  | _ => lines.foldl (fun s l => s.wakeLine c l) (s.vaultParts c bytes launch who none poison)
/-- Bytes of the object table are writes of its lines, each as soon as the write queue takes it (R209, R305, R311): applies
those from the `done`-th line on that it takes now, and says how many lines have been applied. -/
def State.applyTable (s : State) (c done : Nat) (bytes : List Host.Cell) (poison : List Nat) (launch : Option Nat)
    (who : Writer) : State × Nat :=
  ((vaultLines bytes).drop done).foldl (fun (a : State × Nat × Bool) l =>
    let x := (l.headD (0, 0)).1
    let off := (x - 0x6B600000) / 4096 * 4096 * (max 1 a.1.logical.length) + 4096 * a.1.logicalOf c + x % 4096
    let bad := poison.filter fun y => y / 64 == x / 64
    if a.2.2 || !a.1.lineRoom c (x / 64) then (a.1, a.2.1, true)
    else (a.1.tableApply off false (fun s => s.putSegment c 3 l bad launch who) none none none, a.2.1 + 1, false))
    (s, done, false) |> fun a => (a.1, a.2.1)

/-- The offset of a command's sync word in its object (R273). -/
def CopyCmd.syncAt (m : CopyCmd) : Nat :=
  match m.dst with
  | some t => t.off - cDstOff m.block + cSyncOff m.block
  | none => cSyncOff m.block
/-- The sync word of a command for a segment applied at a core (R276). -/
def State.arrivalPlace (s : State) (c : Nat) (m : CopyCmd) (at_ : Nat) : Place :=
  let b := m.block
  let x := m.syncAt
  if cKind b = 1 ∧ !m.fill then .scratch at_ ((((m.targets.find? fun p => p.1 == at_).map (·.2)).getD 0) + x)
  else match m.dst with
    | some t =>
      if t.ent.kind = kScratch then
        let h := s.home t x
        .scratch h.1 h.2
      else
        let h := s.siteOf t.obj x
        .vault h.1 h.2
    | none => .scratch c x
/-- One arrival at the sync word of a command for a segment applied in full (R276); a word of the object table is a write of its
line (R305), and one whose home is contained counts nothing (R324). -/
def State.copyArrive (s : State) (c : Nat) (m : CopyCmd) (at_ n : Nat) : State :=
  let place := s.arrivalPlace c m at_
  let add (s : State) : State :=
    match s.wordStep place (.sw .swadd (BitVec.ofNat 64 n)) m.launch with
    | some r => r.1.wakeWord place r.2.2
    | none => s
  if !cSyncEn m.block then s
  else if (s.core place.core).contained then s.onCopy c m.num fun m => { m with status := max m.status 3 }
  else if m.dst.any fun t => t.obj == 1 then s.tableApply m.syncAt false add none none none
  else add s

/-- A command whose last segment has been applied has made its last access to its destination: the entry is freed (R284). -/
def State.copySettle (s : State) (c num : Nat) : State :=
  match s.copy? c num with
  | some m =>
    if m.sent && m.segs.isEmpty then
      (s.onCore c fun k => { k with board := k.board.filter fun e => !(e.holder == num && e.write) }).pokeAgain c .remote
    else s
  | none => s

/-- A piece of a segment has been applied; the last one of the segment arrives at the sync word, as soon as the word's write
queue has room (R209, R276). -/
def State.pieceDone (s : State) (c num key at_ : Nat) : State :=
  match s.copy? c num with
  | none => s
  | some m => match m.segs.find? fun x => x.1 == key with
    | none => s
    | some (_, left, n) =>
      if left ≤ 1 then
        if cSyncEn m.block && !s.wordRoom (s.arrivalPlace c m at_) (.sw .swadd 0) then s.after 1 .segmentApply [c, num, key, at_]
        else ((s.onCopy c num fun m => { m with segs := m.segs.filter fun x => x.1 != key }).copyArrive c m at_ n).copySettle c num
      else
        let less (x : Nat × Nat × Nat) : Nat × Nat × Nat := (x.1, x.2.1 - 1, x.2.2)
        s.onCopy c num fun m => { m with segs := updFirst (fun x => x.1 == key) less m.segs }
/-- A piece of a command's own core: done when its last line has entered the write queue. -/
def State.ownPiece (s : State) (c num key at_ : Nat) : State :=
  if s.isLate c (.copy num key) then s.after 1 .segmentApply [c, num, key, at_] else s.pieceDone c num key at_

/-- The piece of a command's own core is applied in place, but one of the object table or of a page that moves goes by way of
the core's vault agent (R312, R317). -/
def State.inPlace (s : State) (c place obj : Nat) (bytes : List Host.Cell) : Bool :=
  place < 3 && (place != 0 || bytes.all fun b => (s.migFrom c b.1).isNone && (s.migTo c b.1).isNone) ||
    place == 3 && obj != 1 && bytes.all fun b => (s.migFrom c b.1).isNone && (s.migTo c b.1).isNone
/-- A segment's packet: its class, its flits and what its header says (R275, R295). -/
def CopyCmd.packet (m : CopyCmd) (c to_ lo : Nat) (targets : List (Nat × Nat)) (n : Nat) (body : Body) : Packet :=
  let x := match m.dst with
    | some t => t.off + lo
    | none => cDstOff m.block + lo
  { id := 0, src := c, dst := to_, cls := if cUrg m.block then urgentClass else bulk, flits := flitsFor n, body := body
    launch := m.launch, targets := targets, toff := x, sync := if cSyncEn m.block then some m.syncAt else none }
/-- Sends or applies one piece of a segment: in place on the issuing core, as a packet elsewhere. Every packet of a command
leaves from its core, so those of one class to one place keep the order of acceptance (R277, R299). -/
def State.sendPiece (s : State) (c to_ lo : Nat) (m : CopyCmd) (key place : Nat) (bytes : List Host.Cell)
    (poison : List Nat) (obj gen : Nat) : State :=
  if to_ < 864 ∧ place ≠ 5 ∧ (s.core to_).contained then
    (s.onCopy c m.num fun m => { m with status := max m.status 3, failed := true })
  else if to_ = c ∧ place ≠ 5 ∧ s.inPlace c place obj bytes then
    ((s.putSegment c place bytes poison m.launch (.copy m.num key)).onCopy c m.num fun m =>
      { m with wrote := m.wrote + bytes.length }).ownPiece c m.num key c
  else
    (s.onCopy c m.num fun m => { m with flying := m.flying + 1 }).sendPkt
      (m.packet c to_ lo [] bytes.length (.segment c m.num key place bytes poison obj gen))
/-- A multicast's segment: in place where the issuing core is a destination, and one packet for all the others (R278). A
destination contained since the command began ends it with status 3, and the others are served. -/
def State.castSegment (s : State) (c lo : Nat) (m : CopyCmd) (place : Nat) (bytes : List Host.Cell) (poison : List Nat)
    (gen : Nat) : State :=
  let live := m.targets.filter fun p => !(s.core p.1).contained
  let key (h : Nat) : Nat := lo * 1024 + h
  let shift (base : Nat) : Nat := if place = 1 then base else 0
  let away := live.filter fun p => p.1 != c
  let s := s.onCopy c m.num fun m =>
    { m with segs := m.segs ++ live.map (fun p => (key p.1, 1, bytes.length)), flying := m.flying + away.length
             status := if live.length < m.targets.length then max m.status 3 else m.status }
  let s := (live.filter fun p => p.1 == c).foldl (fun s p =>
    s.sendPiece c c lo m (key c) place (bytes.map fun b => (b.1 + shift p.2, b.2)) (poison.map (· + shift p.2)) 0 gen) s
  match away with
  | [] => s
  | h :: _ => s.sendPkt (m.packet c h.1 lo away bytes.length (.segment c m.num (lo * 1024) place bytes poison 0 gen))

/-- The pieces of a segment by destination: (core, place, cells at its addresses, poisoned addresses). A multicast has one,
whose addresses count from each destination's allocation. -/
def State.piecesOf (s : State) (c : Nat) (m : CopyCmd) (lo : Nat) (bs : List (Byte × Bool)) :
    List (Nat × Nat × List Host.Cell × List Nat) :=
  let b := m.block
  let idx := List.zip (upFrom lo bs.length) bs
  let at_ (f : Nat → Nat) : List Host.Cell × List Nat :=
    (idx.map fun p => (f p.1, p.2.1), (idx.filter (·.2.2)).map fun p => f p.1)
  let buf := at_ fun i => cDstK b * 32768 + cDstOff b + i
  match m.dst with
  | none => [(c, 2, buf.1, buf.2)]
  | some t =>
    if cKind b = 1 ∧ !m.fill then
      let r := at_ fun i => t.off + i
      [(c, 1, r.1, r.2)]
    else if t.ent.kind = kHost then
      let r := at_ fun i => t.ent.loc + t.off + i
      [(linkPos t.ent.hlink, 5, r.1, r.2)]
    else
      let place := if t.ent.kind = kScratch then 1 else if t.ent.kind = kShared then 3 else 0
      let sites := idx.map fun p => (s.home t (t.off + p.1), p.2)
      let homes := sites.foldl (fun acc p => if acc.contains p.1.1 then acc else acc ++ [p.1.1]) []
      homes.map fun h =>
        let mine := sites.filter fun p => p.1.1 == h
        (h, place, mine.map (fun p => (p.1.2, p.2.1)), (mine.filter (·.2.2)).map fun p => p.1.2)

/-- A host link that no longer works (R391). -/
def State.linkDown (s : State) (l : Nat) : Bool := (s.link l).down
/-- A segment's bytes go out by a host link (R391). -/
def State.hostWrite (s : State) (l : Nat) (bytes : List Host.Cell) : State :=
  s.writeCells (bytes.map fun p => (hostLoc l p.1, p.2 ^^^ Config.hostByte p.1))
/-- The bytes that a read of the host's memory brings (R391). -/
def State.hostBytes (s : State) (l : Nat) (f : Fetch) : List Host.Cell :=
  f.ps.flatMap fun p => (below p.n).map fun i => (p.key + i, s.readByte (hostLoc l (p.addr + i)) ^^^ Config.hostByte (p.addr + i))

/-! Reading the source (R291). -/

/-- A range of an object as pieces of at most 64 bytes, each with its home and address. -/
def State.linesOf (s : State) (t : Xl) (i n : Nat) : List Piece :=
  let lo := t.off + i
  (below ((lo % 64 + n + 63) / 64)).filterMap fun j =>
    let x := max lo (lo / 64 * 64 + 64 * j)
    let y := min (lo + n) (lo / 64 * 64 + 64 * (j + 1))
    if x < y then
      let h := s.home t x
      some { key := x - t.off, off := x, addr := h.2, n := y - x, home := h.1 }
    else none
/-- Bytes of a `host` object, to be read by way of its link. -/
def hostPiece (t : Xl) (i n : Nat) : Piece :=
  { key := i, off := t.off + i, addr := t.ent.loc + t.off + i, n := n, home := linkPos t.ent.hlink }
/-- The pieces of each home together. -/
def byHome (ps : List Piece) : List (Nat × List Piece) :=
  let hs := ps.foldl (fun acc p => if acc.contains p.home then acc else acc ++ [p.home]) []
  hs.map fun h => (h, ps.filter fun p => p.home == h)
/-- The reads that the next segment of a copy needs: blocks of the own vault, and bytes that packets bring, from other homes,
from a host link, and from a page of the own vault that moves (R317). -/
def State.copyReads (s : State) (c : Nat) (m : CopyCmd) (lo n : Nat) : List Nat × List (Nat × List Piece) :=
  match m.src with
  | none => ([], [])
  | some t =>
    let r := m.srcRange lo n
    if r.2 = 0 then ([], [])
    else if t.ent.kind = kHost then ([], [(linkPos t.ent.hlink, [hostPiece t r.1 r.2])])
    else
      let scratch := t.ent.kind == kScratch
      let moves (p : Piece) : Bool := !scratch && ((s.migFrom c p.addr).isSome || (s.migTo c p.addr).isSome)
      let ps := s.linesOf t r.1 r.2
      let own := ps.filter fun p => p.home == c && !moves p
      (if scratch then [] else blocksOfPieces own,
       byHome (ps.filter fun p => p.home == c && moves p) ++ byHome (ps.filter fun p => p.home != c))
/-- Asks for the reads of a segment: the own vault's through its controller, the others of their homes' agents. -/
def State.askReads (s : State) (c : Nat) (m : CopyCmd) (bs : List Nat) (fs : List (Nat × List Piece)) : State :=
  let s := s.onCopy c m.num fun m => { m with asked := true, reading := bs.length + fs.length }
  let s := bs.foldl (fun s b => s.vreq c (b * 256) 1 (.copy m.num) m.launch) s
  let place := match m.src.map (·.ent.kind) with
    | some 2 => 1
    | some 7 => 5
    | _ => 0
  fs.foldl (fun s f => s.send c f.1 control 1 m.launch (.fetch
    ⟨c, m.num, 0, place, (m.src.map (·.obj)).getD 0, (m.src.map (·.gen)).getD 0, cUrg m.block, f.2⟩)) s
/-- The physical faults that the engine's own reads of scratchpad and buffer bytes meet (R191). -/
def State.meetSource (s : State) (c : Nat) (m : CopyCmd) (lo n : Nat) : State :=
  let r := m.srcRange lo n
  match m.src with
  | none => if m.fill then s else s.meetFaults c (bufLoc c (cSrcK m.block) (cSrcOff m.block + r.1)) r.2
  | some t => if t.ent.kind = kScratch ∧ (s.home t (t.off + r.1)).1 = c then
      s.meetFaults c (scratchLoc c ((s.home t t.off).2 + r.1)) r.2 else s

/-- A segment is formed and leaves (R275, R426). -/
def State.formSegment (s : State) (c : Nat) (m : CopyCmd) (lo n : Nat) : State :=
  let last := cDstLen m.block ≤ lo + n
  let s := s.meetSource c m lo n
  let r := s.dstBytes c m lo n
  let s := { s.countFl c r.2 with free := s.free + cLen m.block }
  let bad := r.1.any (·.2)
  let pace := if m.asked then 1 else max 1 ((n + 255) / 256)
  let s := s.onCopy c m.num fun m =>
    { m with at_ := lo + n, nextAt := s.cycle + pace, sent := last, asked := false, got := [], gotBad := []
             status := if bad then max m.status 1 else m.status }
  let s :=
    if n = 0 then s
    else
      let ps := s.piecesOf c m lo r.1
      let obj := (m.dst.map (·.obj)).getD 0
      let gen := (m.dst.map (·.gen)).getD 0
      if cKind m.block = 1 ∧ !m.fill then
        ps.foldl (fun s p => s.castSegment c lo m p.2.1 p.2.2.1 p.2.2.2 gen) s
      else
        let s := s.onCopy c m.num fun m => { m with segs := m.segs ++ [(lo * 1024, ps.length, n)] }
        ps.foldl (fun s p => s.sendPiece c p.1 lo m (lo * 1024) p.2.1 p.2.2.1 p.2.2.2 obj gen) s
  if last then
    ((s.onCore c fun k => { k with board := k.board.filter fun e => !(e.holder == m.num && !e.write) }).pokeAgain c
      .remote).copySettle c m.num
  else s

/-- `COPY_SEGMENT`: asks for the source bytes of the next segment, and forms it when they are at hand (R275, R291). -/
def execCopySegment (s : State) : Host.Outcome State Fault Refusal :=
  let c := s.arg 0
  .next (match (s.core c).copyToSend s.cycle with
    | none => s
    | some m =>
      let b := m.block
      let lo := m.at_
      let e := (match m.dst with
        | some t => t.off
        | none => cDstOff b) + lo
      let room := 8192 - e % 8192
      let n := min (cDstLen b - lo) (if cUrg b then min (256 - e % 256) room else room)
      if m.failed then s.onCopy c m.num fun m => { m with sent := true }
      else
        let r := s.copyReads c m lo n
        if m.asked || (r.1.isEmpty && r.2.isEmpty) then s.formSegment c m lo n else s.askReads c m r.1 r.2)

/-- The last piece of a collective's result for its participant's own range has been applied: the range's entries are freed
(R284). Such a piece has the participant's rank, plus one, for its key. -/
def State.writeSettle (s : State) (h c num key : Nat) : State :=
  let part := ((s.die (posDie c)).insts.find? fun x => x.id == num).bind fun x => x.ms[key - 1]?
  match part with
  | some m => if key ≠ 0 ∧ m.core = h then
      (s.onCore h fun k => { k with board := k.board.filter fun e => !(e.holder == m.num && e.write) }).pokeAgain h .remote
    else s
  | none => s
/-- A whole piece of a segment is applied at its destination by the vault agent and acknowledged; a piece of an object that
has been deleted or replaced since is discarded, and arrives at no sync word (R275, R276, R313). `done` lines of a piece of
the object table have been applied before. -/
def State.agentSegment (s : State) (p : Packet) (c num key place : Nat) (bytes : List Host.Cell) (poison : List Nat)
    (obj gen done : Nat) : State :=
  let h := p.dst
  let stale := obj ≠ 0 && obj ≠ aliasObj && (s.objEntry obj).gen ≠ gen
  let ack (s : State) (n status : Nat) : State :=
    ((s.dropPacket p.id).agentFree h).send h c control 1 p.launch (.segAck c num key n status)
  let applied (s : State) : State :=
    ack (if num < tstCmd then s.pieceDone c num key h else if collCmd ≤ num then s.writeSettle h c num key else s) bytes.length 0
  if (s.core h).contained then ack s 0 3
  else match s.leftBehind h p with
  | some m => (s.agentFree h).forward h m p
  | none =>
    if stale then
      ack (if num < tstCmd then s.onCopy c num fun m => { m with segs := m.segs.filter fun x => x.1 != key } else s) 0 0
    else if obj = 1 then
      let r := s.applyTable h done bytes poison p.launch (.agent p.id)
      if r.2 < (vaultLines bytes).length then r.1.after 1 .segmentApply [p.id, r.2] else applied r.1
    else
      let s := if s.evt.length < 2 then s.putSegment h place bytes poison p.launch (.agent p.id) else s
      if s.isLate h (.agent p.id) then s.after 1 .segmentApply [p.id, 1] else applied s
/-- A segment's bytes reach a host link: posted writes, in the order of the segments (R391). -/
def State.hostSegment (s : State) (p : Packet) (c num key : Nat) (bytes : List Host.Cell) : State :=
  let l := if p.dst = linkPos 0 then 0 else 1
  let s := s.dropPacket p.id
  let ack (s : State) (n status : Nat) : State := s.send p.dst c control 1 p.launch (.segAck c num key n status)
  if s.linkDown l then ack s 0 4 else ack ((s.hostWrite l bytes).pieceDone c num key p.dst) bytes.length 0
/-- `SEGMENT_APPLY`: the agent applies a packet's piece, a host link writes one, or a piece of the engine's own core has entered
the write queue. -/
def execSegmentApply (s : State) : Host.Outcome State Fault Refusal :=
  .next (if s.evt.length = 4 then s.ownPiece (s.arg 0) (s.arg 1) (s.arg 2) (s.arg 3)
    else match s.packet? (s.arg 0) with
    | some p => match p.body with
      | .segment c num key place bytes poison obj gen =>
        if place = 5 then s.hostSegment p c num key bytes
        else s.agentSegment p c num key place bytes poison obj gen (s.arg 1)
      | _ => s
    | none => s)

/-- `END_TO_END_ACK`: a destination has acknowledged a piece of a command, of a tile store or of a collective's result (R281,
R301); or a collective's engine tells a participant how its instance ended (R287–R289). -/
def execEndToEndAck (s : State) : Host.Outcome State Fault Refusal :=
  .next (match s.packet? (s.arg 0) with
    | some p => match p.body with
      | .segAck c num key n status =>
        let s := s.dropPacket p.id
        if collCmd ≤ num then
          let ack (x : Inst) : Inst := { x with flying := x.flying - 1, status := max x.status status }
          s.onDie (posDie c) fun d => { d with insts := updFirst (fun x => x.id == num) ack d.insts }
        else if tstCmd ≤ num then
          s.onCore c fun k =>
            { k with tst := k.tst.map (fun t => (t.1, t.2.1 - 1, t.2.2.1, t.2.2.2)), tstStatus := max k.tstStatus status }
        else s.onCopy c num fun m =>
          let cast := cKind m.block = 1 && !m.fill
          { m with flying := m.flying - 1, wrote := m.wrote + n, status := max m.status status
                   segs := if 2 < status then m.segs.filter (fun x => x.1 != key) else m.segs
                   failed := m.failed || (2 < status && !cast) }
      | .collDone c num status n =>
        (s.dropPacket p.id).onDie (posDie c) fun d =>
          { d with descs := d.descs.map fun x => if x.core = c ∧ x.num = num then { x with fin := some (status, n) } else x }
      | _ => s.dropPacket p.id
    | none => s)

/-- `HOST_FLUSH_READ`: a command whose host writes have all gone out sends a one-byte read of the last address after them; or a
host link answers such a read, or one of a command's source (R391). -/
def execHostFlushRead (s : State) : Host.Outcome State Fault Refusal :=
  let c := s.arg 0
  .next (if s.arg 1 = 1 then match s.packet? c with
      | some p => match p.body with
        | .fetch f =>
          let l := if p.dst = linkPos 0 then 0 else 1
          let bytes := s.hostBytes l f
          let down := s.linkDown l
          (s.dropPacket p.id).send p.dst f.core (if f.urgent then urgentClass else bulk) (if down then 1 else flitsFor bytes.length) p.launch
            (if down then .fetched f [] [] 4 else .fetched f bytes [] 0)
        | _ => s
      | none => s
    else match (s.core c).copyToEnd with
    | none => s
    | some m => match m.dst with
      | none => s
      | some t =>
        let s := s.onCopy c m.num fun m => { m with flushed := true, reading := m.reading + 1 }
        s.send c (linkPos t.ent.hlink) (if cUrg m.block then urgentClass else bulk) 1 m.launch
          (.fetch ⟨c, m.num, 0, 5, t.obj, t.gen, cUrg m.block, [hostPiece t (cDstLen m.block - 1) 1]⟩))

/-- `FOLLOW_ON_ISSUE`: the command's multiply enters the matrix queue when there is room; a pair's runs on the shadow
accumulators as well (R245, R248, R280). -/
def execFollowOnIssue (s : State) : Host.Outcome State Fault Refusal :=
  let c := s.arg 0
  .next (match (s.core c).copyToEnd with
    | none => s
    | some m =>
      let k := s.core c
      let done (s : State) (status : Nat) : State :=
        s.onCopy c m.num fun m => { m with followed := true, status := max m.status status }
      let skip (status : Nat) : State :=
        let s := (s.endHolder c (m.num + 1)).endHolder c (m.num + 2)
        done (if followNotes m.block then s.releaseFree c forMatrix (m.num + 1) else s) status
      let enter (mx ov nt : Bool) (d : Acc) (a b : Ob) : State :=
        if m.failed then skip 0
        else if mx && !isMx k.fmt then skip 6
        else if 8 < k.accepted.length + (if m.paired then 2 else 1) then s
        else
          let op : MatOp :=
            { num := m.num + 1, slot := m.slot, kind := .mma mx ov d.toNat a.toNat b.toNat, fmt := k.fmt, epi := k.epi
              issue := s.cycle, start := m.start, notify := nt, shadow := false, launch := m.launch }
          let two : List MatOp := if m.paired then [{ op with num := m.num + 2, slot := m.slot + 8, notify := false, shadow := true }] else []
          done (s.onCore c fun k => { k with matQ := k.matQ ++ op :: two }) 0
      match followOn m.block with
      | some (.mma ov nt d a b) => enter false ov nt d a b
      | some (.mmas ov nt d a b) => enter true ov nt d a b
      | _ => done s 0)

/-- A participant's collective has ended: after the range entry of a shared destination its completion entry is posted (R76,
R281, R289). -/
def State.collEnd (s : State) (m : Coll) (status wrote : Nat) : State :=
  let shared := m.dst.ent.kind == kShared && 0 < wrote
  let range : Option (Nat × Nat × Nat) := if shared then some (m.dst.obj, m.dst.off, m.dst.off + wrote) else none
  let s := if shared then
      (s.appendLog m.core [rangeEntry m.dst.obj m.dst.gen m.dst.off wrote] m.launch .own).onLog m.core Log.advance
    else s
  let s := s.onDie (posDie m.core) fun d => { d with descs := d.descs.filter fun x => !(x.core == m.core && x.num == m.num) }
  (s.endHolder m.core m.num).fillReserved m.core forCommand m.num
    { kind := 2, tag := cTag m.block, stat := status, taker := m.slot, payload := BitVec.ofNat 384 wrote, wrote := range }
/-- A collective of a core that has ended and whose range entry finds room (R76). -/
def State.collToEnd (s : State) (c : Nat) : Option (Coll × Nat × Nat) :=
  (s.die (posDie c)).descs.findSome? fun m => match m.fin with
    | some (status, n) =>
      let needs := m.dst.ent.kind == kShared && 0 < n
      if m.core = c ∧ (!needs || (s.core c).log.room [rangeEntry m.dst.obj m.dst.gen m.dst.off n]) then some (m, status, n) else none
    | none => none

/-- `COPY_COMPLETION`: after the range entry, the completion entry is posted (R76, R281); a contained core appends none (R78).
A second argument names the collectives of the core. -/
def execCopyCompletion (s : State) : Host.Outcome State Fault Refusal :=
  let c := s.arg 0
  .next (if s.arg 1 = 1 then match s.collToEnd c with
      | some x => s.collEnd x.1 x.2.1 x.2.2
      | none => s
    else match (s.core c).copyToEnd with
    | none => s
    | some m =>
      let z := cDstLen m.block
      let need := m.toShared && 0 < m.wrote && !(s.core c).contained
      let range : Option (Nat × Nat × Nat) := if need then m.dst.map fun t => (t.obj, t.off, t.off + z) else none
      let entry := m.dst.map fun t => rangeEntry t.obj t.gen t.off z
      if need && (entry.any fun e => !(s.core c).log.room [e]) then s
      else
        let s := match need, entry with
          | true, some e => (s.appendLog c [e] m.launch .own).onLog c Log.advance
          | _, _ => s
        let s := (s.onCore c fun k => { k with copies := k.copies.filter fun x => x.num != m.num }).endHolder c m.num
        s.fillReserved c forCommand m.num
          { kind := 2, tag := cTag m.block, stat := m.status, taker := m.slot
            payload := BitVec.ofNat 384 (m.refused * 2 ^ 64 + m.wrote), wrote := range })

/-! Collectives (R287–R289). -/

/-- `COLL_DESCRIPTOR_ARRIVAL`: the engine of rank 0's die gathers a descriptor, or learns that a core of another package has
been contained (R287, R289). -/
def execCollDescriptorArrival (s : State) : Host.Outcome State Fault Refusal :=
  .next (match s.packet? (s.arg 0) with
    | some p => match p.body with
      | .descriptor c => (s.dropPacket p.id).onDie (posDie p.dst) fun d => { d with gather := d.gather ++ [c] }
      | .partGone c => { s.dropPacket p.id with gone := setIns s.gone c }
      | _ => s
    | none => s)

/-- The core set unit of a scope, which keeps the instances of different quads, dies or packages apart. -/
def scopeUnit (scope c : Nat) : Nat :=
  match scope with
  | 4 => posArray c
  | 5 => posDie c
  | _ => 0
/-- Two descriptors belong to one instance (R287). -/
def Coll.joins (a b : Coll) : Bool :=
  a.launch.map (· / 1024) == b.launch.map (· / 1024) && a.scope == b.scope && kTag a.block == kTag b.block && a.nth == b.nth &&
  scopeUnit a.scope a.core == scopeUnit b.scope b.core
/-- The fields that all participants must give alike. -/
def collSame (a b : Nat) : Bool :=
  cKind a == cKind b && kOp a == kOp b && kType a == kType b && cLen a == cLen b && kSet a == kSet b &&
  kPkgs a == kPkgs b && kParity a == kParity b
/-- The participants of an instance that have arrived, in rank order. -/
def collMembers (descs : List Coll) (x : Coll) : List Coll :=
  x.set.filterMap fun p => descs.find? fun d => d.joins x && d.core == p

/-- A participant is contained, here or in another package (R289). -/
def State.partContained (s : State) (p : Nat) : Bool := if p < 864 then (s.core p).contained else s.gone.contains p
/-- An instance that may run: all are there, drained and clear of earlier work; or one of its participants is contained (R287,
R289). A participant of another package answers for its own log and scoreboard. -/
def State.collReady (s : State) (die : Nat) (x : Coll) : Bool :=
  let ms := collMembers (s.die die).gather x
  if x.set.any s.partContained then true
  else ms.length == x.set.length && ms.all fun m =>
    let k := s.core m.core
    864 ≤ m.core || (m.drain ≤ k.log.comp && k.boardClear m.num)

/-- The bytes of a participant's source as they were fetched, with the poison of each. -/
def Inst.source (x : Inst) (rank : Nat) (m : Coll) : List (Byte × Bool) :=
  let mine := x.got.filter fun g => g.1 == rank
  let bytes := mine.foldl (fun (acc : SMap Byte) g => g.2.1.foldl (fun acc p => SMap.set acc p.1 p.2) acc) []
  let bad := mine.flatMap fun g => g.2.2
  (below (cLen m.block)).map fun i => (SMap.get bytes i 0, bad.contains i)

/-- The smallest exponent whose power of two is at least `n`. -/
def levelsFor (n : Nat) : Nat := if n ≤ 1 then 0 else Nat.log2 (n - 1) + 1

/-- One reduced element: the tree of R97 over the ranks; the one leaf of a single participant stands, a NaN as the canonical
one (R288). -/
def collElem (ty op : Nat) (xs : List Nat) : Nat × Fl :=
  let lv := levelsFor xs.length
  let pad (ident : Nat) : List Nat := xs ++ List.replicate (2 ^ lv - xs.length) ident
  let float (f : Fmt) : Nat × Fl :=
    let ident := match op with
      | 0 => f.sign true
      | 1 => f.infBits false
      | _ => f.infBits true
    let step (_ x y : Nat) : Nat × Fl := match op with
      | 0 => f.finish rneMode (fvAdd rneMode (f.value x) (f.value y))
      | 1 => f.finish rneMode (fvPick false (f.value x) (f.value y))
      | _ => f.finish rneMode (fvPick true (f.value x) (f.value y))
    if lv = 0 then (if (f.value (xs.headD 0)).isNan then f.nanBits else xs.headD 0, .none)
    else ftree step (pad ident) [] .none lv
  let int (w : Nat) : Nat × Fl :=
    match op with
    | 0 => (tree (fun x y => (x + y) % 2 ^ w) (pad 0) lv, .none)
    | 1 => (tree (fun x y => if sv w x ≤ sv w y then x else y) (pad (2 ^ (w - 1) - 1)) lv, .none)
    | _ => (tree (fun x y => if sv w x ≤ sv w y then y else x) (pad (2 ^ (w - 1))) lv, .none)
  match ty with
  | 0 => float fmtF32
  | 1 => float fmtF64
  | 2 => float fmtBf16
  | 3 => int 32
  | _ => int 64

/-- Elements of a size from bytes. -/
def wordsOf (z : Nat) (bs : List (Byte × Bool)) : Nat → List Nat
  | 0 => []
  | n + 1 => (bs.take z).foldr (fun b acc => acc * 256 + b.1.toNat) 0 :: wordsOf z (bs.drop z) n
/-- The i-th elements of every rank together. -/
def transposeLists : List (List Nat) → Nat → List (List Nat)
  | _, 0 => []
  | ls, n + 1 => ls.map (fun l => l.headD 0) :: transposeLists (ls.map (fun l => l.drop 1)) n

/-- The reduction of all sources: its bytes, the poison of each, and the events. -/
def collReduce (b : Nat) (srcs : List (List (Byte × Bool))) : List (Byte × Bool) × Fl :=
  let z := kSize b
  let n := cLen b / z
  let rows := transposeLists (srcs.map fun x => wordsOf z x n) n
  let rs := rows.map (collElem (kType b) (kOp b))
  let bytes := rs.flatMap fun r => (below z).map (byteOf r.1)
  let bad (i : Nat) : Bool := srcs.any fun x => ((x.drop i).head?.map (·.2)).getD false
  ((List.zip (below bytes.length) bytes).map fun p => (p.2, bad p.1), rs.foldl (fun acc r => acc.add r.2) .none)
/-- The byte-wise exclusive or of all sources. -/
def collXor (srcs : List (List (Byte × Bool))) : List (Byte × Bool) :=
  match srcs with
  | [] => []
  | x :: r => r.foldl (fun acc y => List.zipWith (fun a b => (a.1 ^^^ b.1, a.2 || b.2)) acc y) x

/-- What rank `r` of an instance receives. -/
def collResult (b r n : Nat) (red : List (Byte × Bool)) (srcs : List (List (Byte × Bool))) (parity : Bool) :
    List (Byte × Bool) :=
  match cKind b with
  | 0 => red
  | 1 => (red.drop (r * (cLen b / n))).take (cLen b / n)
  | 2 => srcs.flatMap id
  | _ => if parity then collXor srcs else []

/-- The name of a descriptor in its die's queue. -/
def Coll.id (c : Coll) : Nat := c.core * 2 ^ 40 + c.num
def State.onInst (s : State) (die id : Nat) (f : Inst → Inst) : State :=
  s.onDie die fun d => { d with insts := updFirst (fun x => x.id == id) f d.insts }

/-- Tells every participant how its instance has ended. -/
def State.collTell (s : State) (die status : Nat) (ms : List (Coll × Nat)) : State :=
  ms.foldl (fun s m => s.send (36 * die) m.1.core control 1 m.1.launch (.collDone m.1.core m.1.num status m.2)) s

/-- The place of a participant's range, for the agent that reads or writes it. -/
def placeCode (t : Xl) : Nat := if t.ent.kind = kScratch then 1 else if t.ent.kind = kShared then 3 else 0
/-- Asks the homes of every participant's source for its bytes (R291). -/
def State.collAsk (s : State) (die id : Nat) (ms : List Coll) : State :=
  let asks : List (Nat × Option Nat × Fetch) := (List.zip (below ms.length) ms).flatMap fun p =>
    let t := p.2.src
    (byHome (s.linesOf t 0 (cLen p.2.block))).map fun h =>
      (h.1, p.2.launch, ⟨36 * die, id, p.1, if t.ent.kind = kScratch then 1 else 0, t.obj, t.gen, false, h.2⟩)
  let s := s.onInst die id fun x => { x with reading := asks.length }
  asks.foldl (fun s a => s.send (36 * die) a.1 control 1 a.2.1 (.fetch a.2.2)) s
/-- Sends a participant's result to the homes of its destination, at most 8 KiB a packet (R275). -/
def State.collSend (s : State) (die id rank : Nat) (m : Coll) (bs : List (Byte × Bool)) : State :=
  let t := m.dst
  let part (p : Piece) : List (Nat × Byte × Bool) := (below p.n).map fun i =>
    let b := (bs.drop (p.key + i)).headD (0, false)
    (p.addr + i, b.1, b.2)
  let segs := (byHome (s.linesOf t 0 bs.length)).flatMap fun h =>
    let chunks := h.2.foldl (fun acc p => if acc.contains (p.off / 8192) then acc else acc ++ [p.off / 8192]) []
    chunks.map fun k => (h.1, if chunks.getLast? = some k then rank + 1 else 0, 8192 * k, (h.2.filter fun p => p.off / 8192 == k).flatMap part)
  let s := s.onInst die id fun x => { x with flying := x.flying + segs.length }
  segs.foldl (fun s g =>
    let cells := g.2.2.2
    let body := Body.segment (36 * die) id g.2.1 (placeCode t) (cells.map fun b => (b.1, b.2.1))
      ((cells.filter fun b => b.2.2).map (·.1)) (if t.obj = aliasObj then 0 else t.obj) t.gen
    s.sendPkt { id := 0, src := 36 * die, dst := g.1, cls := bulk, flits := flitsFor cells.length, body := body
                launch := m.launch, toff := max t.off g.2.2.1 }) s

/-- Begins an instance: its data moves, or it ends at once (R287, R289). -/
def State.collBegin (s : State) (die : Nat) (x : Coll) : State :=
  let ms := collMembers (s.die die).gather x
  let s := s.onDie die fun d => { d with gather := d.gather.filter fun y => !ms.contains y }
  let none_ := ms.map fun m => (m, 0)
  if x.set.any s.partContained then s.collTell die 3 none_
  else if ms.any fun m => !collSame m.block x.block then s.collTell die 2 none_
  else
    let id := collCmd + s.pktNum
    let inst : Inst := { id, ms, reading := 0, got := [] }
    let s := { s with pktNum := s.pktNum + 1 }.onDie die fun d => { d with insts := d.insts ++ [inst] }
    s.collAsk die id ms
/-- The package of a position. -/
def State.pkgOf (s : State) (c : Nat) : Nat := if c < 864 then s.pkg else (c - 864) / 1024
/-- The sources of an instance are at hand: every participant's result leaves, and the events are counted at rank 0 (R288). -/
def State.collMove (s : State) (die : Nat) (x : Inst) : State :=
  let ranked := List.zip (below x.ms.length) x.ms
  let b := (x.ms.head?.map (·.block)).getD 0
  let srcs := ranked.map fun p => x.source p.1 p.2
  let red := if cKind b < 2 then collReduce b srcs else ([], .none)
  let bad := srcs.any fun l => l.any (·.2)
  let outs := ranked.map fun p => (p, collResult b p.1 x.ms.length red.1 srcs (s.pkgOf p.2.core == kParity b))
  let s := match x.ms.head? with
    | some m => if m.core < 864 then s.countFl m.core red.2 else s
    | none => s
  let s := s.onInst die x.id fun x =>
    { x with sent := true, got := [], wrote := outs.map fun o => o.2.length, status := max x.status (if bad then 1 else 0) }
  outs.foldl (fun s o => s.collSend die x.id o.1.1 o.1.2 o.2) s
/-- The next stage of an instance whose reads have come, or whose results are all acknowledged (R288, R289). -/
def State.collStage (s : State) (die : Nat) (x : Inst) : State :=
  let drop (s : State) : State := s.onDie die fun d => { d with insts := d.insts.filter fun y => y.id != x.id }
  if !x.sent then
    if x.status = 0 then s.collMove die x else (drop s).collTell die x.status (x.ms.map fun m => (m, 0))
  else
    let status := if x.ms.any fun m => s.partContained m.core then max x.status 3 else x.status
    (drop s).collTell die status (List.zip x.ms x.wrote)
/-- An instance that can go on. -/
def Inst.ready (x : Inst) : Bool := if x.sent then x.flying == 0 else x.reading == 0

/-- `COLL_INSTANCE_RUN`: an instance begins, or goes on to its next stage (R288, R289). -/
def execCollInstanceRun (s : State) : Host.Outcome State Fault Refusal :=
  let die := s.arg 0
  .next (if s.arg 2 = 1 then match (s.die die).insts.find? fun x => x.id == s.arg 1 with
      | some x => if x.ready then s.collStage die x else s
      | none => s
    else match (s.die die).gather.find? fun x => x.id == s.arg 1 with
    | some x => if s.collReady die x then s.collBegin die x else s
    | none => s)

end Sys2Proof.Machine
end

