-- ==== Sys2Proof/Machine/Groups.lean ====
section
/-!
DEFINITION. Groups, launches and barriers: where the deal puts a launch's groups (R35), how strands and groups end (R31,
R43, R269), what a die reports (R43, R359), and when a barrier's episode is complete (R267, R356).
-/
namespace Sys2Proof.Machine

/-! The deal (R35). -/

/-- The quads of a launch, as die × 9 + quad, in the order of the deal. -/
def quadList (l : Launch) : List Nat :=
  (below 24).flatMap fun d => if bitOf l.dmask d then
    ((below 9).filter fun q => bitOf l.qmask q).map fun q => 9 * d + q else []
/-- Groups that fall on place `i` of `q` places. -/
def shareOf (g q i : Nat) : Nat := if i < g then (g - i + q - 1) / q else 0
/-- Groups of a launch that fall on a die. -/
def dieGroups (l : Launch) (d : Nat) : Nat :=
  let qs := quadList l
  sumList ((List.zip (below qs.length) qs).map fun p => if p.2 / 9 = d then shareOf l.groups qs.length p.1 else 0)
/-- The live cores of a quad in member order. -/
def State.quadCores (s : State) (q : Nat) : List Nat := ((below 4).map fun m => quadMember (q / 9) (q % 9) m).filter s.live
/-- The groups of a launch on a die, core by core: first index, stride and count. -/
def State.dealOn (s : State) (l : Launch) (d : Nat) : List (Nat × Nat × Nat × Nat) :=
  let qs := quadList l
  let n := qs.length
  (List.zip (below n) qs).flatMap fun p =>
    if p.2 / 9 = d then
      let cores := s.quadCores p.2
      let share := shareOf l.groups n p.1
      ((List.zip (below cores.length) cores).map fun x =>
        (x.2, p.1 + n * x.1, n * cores.length, shareOf share cores.length x.1)).filter fun x => x.2.2.2 != 0
    else []

/-- The record of a launch at the sequencer. -/
def State.launch? (s : State) (id : Nat) : Option LRec := (s.launches.find? fun p => p.1 == id).map (·.2)
def State.onLaunch (s : State) (id : Nat) (f : LRec → LRec) : State :=
  match s.launch? id with
  | some r => { s with launches := SMap.set s.launches id (f r) }
  | none => s
/-- A die has dealt a launch. -/
def State.hasDealt (s : State) (d id : Nat) : Bool := (s.die d).dealt.any fun p => p.1 == id

/-! Barriers (R267). -/

/-- The unit of a scope that holds a core: `vault` acts as `core`. -/
def barrierUnit (level c : Nat) : Nat :=
  match level with
  | 2 => c
  | 4 => posArray c
  | 5 => posDie c
  | _ => 0
/-- The level of a scope code. -/
def barrierLevel (code : Nat) : Nat := if code = 3 then 2 else code
/-- The network's node for an instance (assumption 6). -/
def barrierSite (level unit : Nat) : Nat :=
  match level with
  | 2 => unit
  | 4 => quadMember (unit / 9) (unit % 9) 0
  | 5 => 36 * unit
  | _ => 0
/-- The live, uncontained cores of a unit. -/
def State.unitCores (s : State) (level unit : Nat) : List Nat :=
  s.logical.filter fun c => barrierUnit level c == unit && !(s.core c).contained

/-- The strands of a launch on a core that still run, by slot. -/
def State.liveStrands (s : State) (c launch : Nat) : List (Nat × Slot) :=
  ((s.core c).groups.filter fun p => p.2.launch.id == launch).flatMap fun p =>
    (s.strandsOf c p.1).filter fun x => !x.2.trail && x.2.run != .halted
/-- Every participant in this package has arrived: none is Pending or still to be dealt, and every strand that runs has its
arrival. -/
def State.barrierFull (s : State) (b : Barrier) : Bool :=
  let cores := s.unitCores b.level b.unit
  let dealt : Bool := match s.launch? b.launch with
    | some r => (r.stage == .dealt || r.stage == .ended) &&
      (below 24).all fun d => s.hasDealt d b.launch || dieGroups r.launch d == 0
    | none => false
  let came (c : Nat) (t : Slot) : Bool := b.arrived.any fun a => a.1 == c && (t.wait.map (·.ticket)) == some (a.2 / 16)
  (b.level < 6 || dealt) && cores.all fun c =>
    !((s.core c).deals.any fun x => x.launch.id == b.launch) && (s.liveStrands c b.launch).all fun x => came c x.2
/-- Whether an arrival of another package's strands is recorded. -/
def Barrier.has (b : Barrier) (pos : Nat) : Bool := b.arrived.any fun a => a.1 == pos

/-- An instance whose episode is complete moves on and releases its participants; one at `pod` scope first tells the other
packages of its own sum and waits for theirs, whose arrivals carry their sums. -/
def State.settleBarrier (s : State) (b : Barrier) : State :=
  let mine (x : Barrier) : Bool := x.launch == b.launch && x.level == b.level && x.unit == b.unit && x.sum == b.sum
  let here := b.arrived.filter fun a => a.1 < 864
  if b.arrived.isEmpty || !s.barrierFull b then s
  else
    let own := foreignPos s.pkg 0
    let first := b.level = 7 ∧ !b.has own
    let s := if first then Config.podOthers.foldl (fun s p =>
        s.send 0 (foreignPos p 0) control 1 none (.barrier b.launch 7 own 0 b.sum b.total)) s else s
    let b := if first then { b with arrived := b.arrived ++ [(own, 0)] } else b
    let others := Config.podOthers.map fun p => foreignPos p 0
    if b.level = 7 ∧ !(others.all b.has) then { s with barriers := updFirst mine (fun _ => b) s.barriers }
    else
      let away := others.filterMap fun p => b.arrived.find? fun a => a.1 == p
      let total : Word := if b.level = 7 then b.total + BitVec.ofNat 64 (sumList (away.map (·.2))) else b.total
      let rest := away.foldl (fun l a => delFirst (fun x => x == a) l) (b.arrived.filter fun a => 864 ≤ a.1 && a.1 != own)
      let next (x : Barrier) : Barrier := { x with gen := x.gen + 1, arrived := rest, total := 0 }
      let s := { s with barriers := updFirst mine next s.barriers }
      here.foldl (fun s a => s.arriveWord a.1 a.2 total none) s
/-- Looks at every instance of a launch: a strand of it has arrived, halted, or been contained. -/
def State.settleBarriers (s : State) (launch : Nat) : State :=
  (s.barriers.filter fun b => b.launch == launch).foldl (fun s b => s.settleBarrier b) s

/-! Ends of strands and groups. -/

/-- What an empty slot keeps of its last strand: its registers, which only the next start changes (R31, R135, R136). -/
def Slot.leftBy (n : Nat) (t : Slot) : Slot :=
  { Slot.fresh n with pc := t.pc, code := t.code, g := t.g, v := t.v, p := t.p, k := t.k, strand := t.strand
                      group := t.group, launch := t.launch, world := t.world, seed := t.seed, tcause := t.tcause
                      taddr := t.taddr, tvalue := t.tvalue, ctxbase := t.ctxbase, based := t.based, away := t.away }
/-- A slot holds no strand any more; its translations go with the strand (R314). -/
def State.emptySlot (s : State) (c n : Nat) : State :=
  (s.setSlot c n (Slot.leftBy n (s.slot c n))).onCore c fun k =>
    { k with tlb := k.tlb.filter (fun x => x.slot != n)
             acqs := k.acqs.filter fun q => q.slot % 16 != n || (k.swapped.any fun p => p.1 == n) }
/-- Discards every inbox entry and reservation whose taker is a slot (R269). -/
def State.dropTaker (s : State) (c n : Nat) : State :=
  ((s.onCore c fun k => { k with inbox := k.inbox.filter (fun e => !(e.kind ≥ 2 && e.taker == n))
                                 resv := k.resv.filter fun r => r.taker != n }).unpark c).pokeInbox c

/-- A die has ended groups of a launch; with the last one it reports to the sequencer (R43). -/
def State.dieCount (s : State) (d id n status : Nat) : State :=
  match s.launch? id with
  | none => s
  | some r =>
    let s := s.onDie d fun x =>
      { x with ended := SMap.set x.ended id (SMap.get x.ended id 0 + n)
               worst := SMap.set x.worst id (max (SMap.get x.worst id 0) status) }
    let x := s.die d
    if SMap.get x.ended id 0 = dieGroups r.launch d then
      s.send (36 * d) 0 control 1 none (.dieReport id d (SMap.get x.spent id 0) (SMap.get x.worst id 0))
    else s
/-- The last group of a launch on a core has ended: its spent count joins the die's report and what is left of the lease
returns to the quota (R359). -/
def State.lastGroup (s : State) (c id : Nat) : State :=
  let k := s.core c
  if (k.groups.any fun p => p.2.launch.id == id) || (k.deals.any fun x => x.launch.id == id) then s
  else match k.leases.find? fun e => e.launch == id with
    | none => s
    | some e =>
      let s := s.onCore c fun k => { k with leases := k.leases.filter fun e => e.launch != id }
      let s := s.onDie (posDie c) fun x => { x with spent := SMap.set x.spent id (SMap.get x.spent id 0 + e.spent) }
      s.onLaunch id fun r => { r with quota := r.quota + e.balance.toNat / 1000 }

/-- The bank of a handler whose group has ended: no frame, so it reads as zero and its writes are lost. -/
abbrev noBank : Nat := 17
/-- What the units of a core still hold of a bank frame goes with its group: writes on their way to it are lost, and a handler
invocation of the group that still runs is left without a bank. The spec is silent on such an invocation; this model lets it
run on (assumption 61). -/
def State.freeBank (s : State) (c b : Nat) : State :=
  let orphan (p : Nat × Slot) : Nat × Slot := (p.1, if p.2.bank = b then { p.2 with bank := noBank } else p.2)
  let keeps (w : ShWrite) : Bool := w.bank != b
  s.onCore c fun k =>
    { k with shared := k.shared.filter keeps
             latch := k.latch.map (fun x => (x.1, x.2.1, x.2.2.filter keeps))
             slots := k.slots.map orphan }
/-- A group ends (R31, R43, R310): its core releases at `pkg` scope, the slots become empty, its allocation, bank and
parking inbox go, and the object of its allocation is deleted. A handler invocation of the group that is still active runs on
without a bank, which is this model's choice: the spec is silent on it (R33, assumption 61). -/
def State.groupEnd (s : State) (c b status : Nat) : State :=
  match s.group? c b with
  | none => s
  | some g =>
    let id := g.launch.id
    let s := s.onLog c fun l => l.publish 6
    let others (n : Nat) : Bool := (s.core c).swapped.any fun p => p.1 == n && p.2.bank != b
    let mine (n : Nat) : Bool :=
      ((s.slot c n).bank == b && (s.slot c n).run != .empty) || ((s.slot c n).run == .swapped && !others n)
    let s := (g.slots.filter mine).foldl (fun s n => (s.dropTaker c n).emptySlot c n) s
    let s := (s.onCore c fun k =>
      { k with swapped := k.swapped.filter (fun p => p.2.bank != b), groups := SMap.del k.groups b
               inbox := k.inbox.filter fun e => !(e.kind ≤ 1 && e.taker == b) }).freeBank c b
    let off := s.scratchObj c b * 64
    let w := s.tableWord off 8
    let s := s.sendPut c off (w - bitsOf w 8 3 * 256) 8 false none
    ((((s.lastGroup c id).dieCount (posDie c) id 1 status).settleBarriers id).unpark c).pokeInbox c

/-- Every strand of a group has ended. -/
def State.groupDone (s : State) (c b : Nat) : Bool :=
  (s.group? c b).isSome && (s.strandsOf c b).all fun p => p.2.run == .halted

/-- A strand or handler invocation ends (R269): its entries and reservations go; a strand becomes Halted, both copies of a
pair at once, and a group with its last strand ends. -/
def State.retireStrand (s : State) (c n : Nat) : State :=
  let t := s.slot c n
  let s := s.dropTaker c n
  if n ≥ 13 ∧ !t.trail then s.emptySlot c n
  else
    let stop (x : Slot) : Slot :=
      { x with run := .halted, why := .none, wait := none, walked := [], raised := none, held := [], later := [], idle := 0
               done := x.done + 1, outs := [], lvq := [], kept := none, joined := none, doing := none, before := none }
    let s := s.onSlot c n stop
    let s := match pairMate t n with
      | some m => s.onSlot c m stop
      | none => s
    let s := s.onCore c fun k => { k with tlb := k.tlb.filter fun x => x.slot != n && some x.slot != pairMate t n }
    if s.groupDone c t.bank then s.groupEnd c t.bank 0 else s.settleBarriers t.launch

/-- Everything a strand of a slot issued has been performed: posted operations, engine commands and matrix operations
(R269). -/
def State.haltReady (s : State) (c n : Nat) (t : Slot) : Bool :=
  let k := s.core c
  t.posted.isEmpty && t.held.isEmpty && !(k.resv.any fun r => r.what == forCommand && r.taker == n) &&
  !(k.copies.any fun m => m.slot == n) && !(k.matQ.any fun o => o.slot == n || some o.slot == pairMate t n)

/-- The groups of a launch on a core end, Resident and Pending, with a status (R44, R368); the slots of their handlers become
empty, on which the spec is silent (assumption 61). -/
def State.endLaunchHere (s : State) (c id status : Nat) : State :=
  let waiting := sumList (((s.core c).deals.filter fun x => x.launch.id == id).map (·.left))
  let s := s.onCore c fun k => { k with deals := k.deals.filter fun x => x.launch.id != id }
  let bs := ((s.core c).groups.filter fun p => p.2.launch.id == id).map (·.1)
  let s := bs.foldl (fun s b =>
    let callers := (below 16).filter fun n => (n == 13 || n == 14) && (s.slot c n).bank == b && !(s.slot c n).trail &&
      (s.slot c n).run != .empty
    (callers.foldl (fun s n => (s.dropTaker c n).emptySlot c n) s).groupEnd c b status) s
  if waiting = 0 then s else ((s.lastGroup c id).dieCount (posDie c) id waiting status).settleBarriers id

/-! Urgent work's end and the supervisor's idling (R32, R269, R368). -/

/-- Paused slots resume: to their turn, or to the park they stood in (R32). -/
def State.unpause (s : State) (c : Nat) : State :=
  let back (t : Slot) : Slot := if t.run = .paused then { t with run := t.back, back := .running } else t
  (s.onCore c fun k => { k with slots := k.slots.map fun p => (p.1, if p.1 = 15 then p.2 else back p.2) }).pokeInbox c
/-- Slot 15 goes idle at nesting level 0. -/
def State.supIdle (s : State) (c : Nat) : State :=
  (s.onSlot c 15 fun t => { t with run := .empty, why := .none, wait := none, raised := none, idle := 0 }).onTrap c fun k =>
    { k with level := 0, handled := none, urging := false, limited := false, urgStart := none
             deadlock := false }

end Sys2Proof.Machine
end

