-- ==== Sys2Proof/Machine/Queues.lean ====
section
/-!
DEFINITION. Messages, launches, barriers and slot control: the instructions of "Queues" (R249–R270).
-/
namespace Sys2Proof.Machine

/-! Handles (R251). -/

def hKind (h : Nat) : Nat := bitsOf h 62 2
def hPkg (h : Nat) : Nat := bitsOf h 56 6
def hCore (h : Nat) : Nat := bitsOf h 46 10
def hQueue (h : Nat) : Nat := bitsOf h 42 4
def hSeq (h : Nat) : Nat := bitsOf h 36 6
def hStrand (h : Nat) : Nat := bitsOf h 32 4
def hGroup (h : Nat) : Nat := h % 2 ^ 32
/-- The core a handle names. -/
def State.handlePos (s : State) (h : Nat) : Option Nat := s.namedPos (hPkg h) (hCore h)

/-- Records a posted message of the issuing slot under a number. -/
def State.postMail (s : State) (num dst : Nat) : State :=
  s.onSlot s.ic s.is fun t => { t with posted := t.posted ++ [⟨num, dst, 0, 0, none, false, 0⟩] }
/-- The issuing slot's message or wake. -/
def State.mailOf (s : State) (handle tag : Word) (payload : BitVec 384) (urgent : Bool) (slot : Nat) (posted : Option Nat) :
    Mail :=
  ⟨handle, tag, payload, urgent, s.me.world, s.ic, slot, s.issue.start, posted⟩

/-- `SEND` (R259): posted when it names p0 and g0, else it waits for its outcome. -/
def execSend (u : Bool) (d : Pr) (a : Vr) (b : Gpr) (s : State) : Host.Outcome State Fault Refusal :=
  let v := (s.vec a).toNat
  let handle := BitVec.ofNat 64 v
  let tag := BitVec.ofNat 64 (bitsOf v 64 64)
  let payload := BitVec.ofNat 384 (bitsOf v 128 384)
  let cls := if u then urgentClass else bulk
  let posted : Bool := d == 0 && b == 0
  s.guarded (s.sideClear (
    match s.handlePos handle.toNat with
    | none =>
      if posted then (s.eventsAt (s.cycle + 15) [(10, 1)]).retire else ((s.putPred d 0).putGpr b 4).retire
    | some dst =>
      if posted then
        if s.me.outstanding ≥ 16 then s.parkAgain .remote
        else
          let num := s.pktNum
          let m := s.mailOf handle tag payload u s.is (some num)
          (({ s with pktNum := num + 1 }.postMail num dst).send s.ic dst cls (flitsFor 64) (s.acctOf s.ic s.is)
            (.mail m)).retire
      else
        let ref := s.myRef
        let m := s.mailOf handle tag payload u ref none
        ({ s with pktNum := s.pktNum + 1 }.parkRef .remote ref { fin := .outcome d b, left := 1 }).send s.ic dst cls
          (flitsFor 64) (s.acctOf s.ic s.is) (.mail m)))

/-- `RECV`: takes the oldest entry the slot may take, or parks for one (R260). -/
def execRecv (d : Gpr) (a : Option Vr) (s : State) : Host.Outcome State Fault Refusal :=
  s.guarded (s.sideClear (match s.firstTake s.ic s.is with
    | some e => (s.recvTake s.ic s.is d a e s.issue.start s.issue.next (s.cycle + 15)).pokeInbox s.ic
    | none => s.park .inbox { fin := .recv d a, left := 1 }))

/-- The template of a launch in v[a], and whether a reserved bit is set (R264). -/
def launchTemplate (v : Nat) (indirect : Bool) : Launch × Bool :=
  let w (i : Nat) : Nat := bitsOf v (64 * i) 64
  let g := bitsOf (w 1) 0 32
  let l : Launch :=
    { id := 0, entry := bitsOf (w 0) 0 40, groups := if indirect then 0 else g, indirect, strands := bitsOf (w 1) 32 4
      paired := bitOf (w 1) 36, prio := bitsOf (w 1) 37 2, world := bitOf (w 1) 39, swz := bitsOf (w 1) 40 3
      scratch := bitsOf (w 2) 0 21, dmask := bitsOf (w 3) 0 24, qmask := bitsOf (w 3) 24 9, deps := bitsOf (w 4) 0 16
      queue := bitsOf (w 4) 16 4, quota := bitsOf (w 5) 0 48, arg := BitVec.ofNat 64 (w 6) }
  let bad := bitsOf (w 0) 40 24 != 0 || bitsOf (w 1) 43 21 != 0 || bitsOf (w 2) 21 43 != 0 || bitsOf (w 3) 33 31 != 0 ||
    bitsOf (w 4) 20 44 != 0 || bitsOf (w 5) 48 16 != 0 || (indirect && g != 0)
  (l, bad)

/-- Submits a launch from the issuing slot (R265): a bubble without an entry to reserve for its completion. -/
def State.submit (s : State) (indirect : Bool) (d : Gpr) (a : Vr) (b : Kr) : State :=
  if !(s.core s.ic).canReserve then s.bubble
  else
    let t := launchTemplate (s.vec a).toNat indirect
    let k (i : Nat) : Cap := s.cap (BitVec.ofNat 4 (b.toNat + i))
    let l : Launch := { t.1 with code := k 0, args := (below 4).map fun i => k (i + 1), count := k 5 }
    let ref := s.myRef
    let s := { s with pktNum := s.pktNum + 1 }
    ((s.reserve s.ic s.is forLaunch ref).parkRef .remote ref { fin := .word d, left := 1 }).send s.ic 0 urgentClass 5
      (s.acctOf s.ic s.is) (.submit l s.ic ref none s.me.world t.2)

/-- `LAUNCH` (R264, R265). -/
def execLaunch (d : Gpr) (a : Vr) (b : Kr) (s : State) : Host.Outcome State Fault Refusal :=
  if 11 < b.toNat then .next s.trapField else s.guarded (s.sideClear (s.submit false d a b))
/-- `LAUNCHI` (R264, R265). -/
def execLaunchi (d : Gpr) (a : Vr) (b : Kr) (s : State) : Host.Outcome State Fault Refusal :=
  if 10 < b.toNat then .next s.trapField else s.guarded (s.sideClear (s.submit true d a b))

/-- `JOIN` (R261). -/
def execJoin (d : Gpr) (a : Gpr) (s : State) : Host.Outcome State Fault Refusal :=
  let id := (s.gpr a).toNat
  s.guarded (s.sideClear (match s.joinEntry s.ic s.is id with
    | some e => (s.joinTake s.ic s.is d e s.issue.start s.issue.next (s.cycle + 15)).pokeInbox s.ic
    | none =>
      if (s.core s.ic).resv.any fun r => r.what == forLaunch && r.num == id && r.taker == s.is then
        s.park .inbox { fin := .join d id, left := 1 }
      else (s.putGpr d (BitVec.allOnes 64)).retire))

/-- `EPOLL` (R263). -/
def execEpoll (d : Gpr) (sel : BitVec 2) (s : State) : Host.Outcome State Fault Refusal :=
  let mine := (s.core s.ic).inbox.filter (s.takes s.ic s.is)
  s.guarded (s.sideClear (match sel.toNat with
    | 0 => (s.putGpr d (BitVec.ofNat 64 mine.length)).retire
    | 1 => (s.putGpr d (match mine with
        | e :: _ => e.tag
        | [] => BitVec.allOnes 64)).retire
    | 2 => (s.putGpr d (BitVec.ofNat 64 (s.core s.ic).freeEntries)).retire
    | _ => s.trapField))

/-- Arrives at a barrier instance and parks for it (R267, R356); slots 13–15 complete at once. -/
def State.barrier (s : State) (sc : Scope) (sum : Bool) (fin : Fin) (w : Word) (alone : State) : State :=
  if 13 ≤ s.is ∧ !s.me.trail then alone
  else
    let level := barrierLevel sc.code
    let unit := barrierUnit level s.ic
    let ref := s.myRef
    ({ s with pktNum := s.pktNum + 1 }.parkRef .barrier ref { fin, left := 1 }).send s.ic (barrierSite level unit) control 1
      (s.acctOf s.ic s.is) (.barrier s.me.launch level s.ic ref sum w)

/-- `BAR` (R267). -/
def execBar (sc : Scope) (s : State) : Host.Outcome State Fault Refusal :=
  if sc.code < 2 ∨ 7 < sc.code then .next s.trapField else s.guarded (s.barrier sc false .none 0 s.retire)

/-- `YIELD`: the slot issues nothing for g[a][7:0] rotations (R268). -/
def execYield (a : Gpr) (s : State) : Host.Outcome State Fault Refusal :=
  let n := (s.gpr a).toNat % 256
  s.guarded (if n = 0 then s.retire
    else ((s.onSlot s.ic s.is fun t => { t with idle := s.cycle + 16 * n + 1 }).after (16 * n + 1) .yieldEnd
      [s.ic, s.is]).retire)

/-- `PARK` (R268). -/
def execPark (s : State) : Host.Outcome State Fault Refusal :=
  s.guarded (
    if s.me.wake then (s.onSlot s.ic s.is fun t => { t with wake := false }).retire
    else if (s.firstTake s.ic s.is).isSome then s.retire
    else s.park .inbox { fin := .park, left := 1 })

/-- `WAKE`: a posted wake; one to a strand of the own core takes effect at its commit clock (R268). -/
def execWake (a : Gpr) (s : State) : Host.Outcome State Fault Refusal :=
  let handle := s.gpr a
  s.guarded (match s.handlePos handle.toNat with
    | none => (s.eventsAt (s.cycle + 15) [(10, 1)]).retire
    | some dst =>
      if s.me.outstanding ≥ 16 then s.parkAgain .remote
      else
        let num := s.pktNum
        let m := s.mailOf handle 0 0 false s.is (some num)
        let s := { s with pktNum := num + 1 }.postMail num dst
        if dst = s.ic then
          let p : Packet := { id := s.pktNum, src := dst, dst, cls := bulk, flits := 0, body := .wake m }
          ({ s with pktNum := s.pktNum + 1, packets := SMap.set s.packets p.id p }.after 15 .wakeArrival [p.id]).retire
        else (s.send s.ic dst bulk (flitsFor 8) (s.acctOf s.ic s.is) (.wake m)).retire)

/-- `HALT` in slot 15 ends the urgent episode: its translations go (R314) and the Paused slots resume; outside urgent work it
only advances (R269, R375). It retires no strand, so it waits for nothing and discards no entry (assumption 33). -/
def State.haltSup (s : State) : State :=
  let c := s.ic
  if (s.core c).trap.urging then
    let s := (s.retire.supIdle c).onCore c fun k => { k with tlb := k.tlb.filter fun x => x.slot != 15 }
    (s.unpause c).onMgmt fun m => { m with starting := setDel m.starting c }
  else s.retire

/-- `HALT` (R269). -/
def execHalt (s : State) : Host.Outcome State Fault Refusal :=
  s.guarded (
    if s.is = 15 then s.sideClear s.haltSup
    else s.sideClear (
      if s.haltReady s.ic s.is s.me then s.retireStrand s.ic s.is else s.park .remote { fin := .halt, left := 1 }))

end Sys2Proof.Machine
end

