-- ==== Sys2Proof/Machine/Traps.lean ====
section
/-!
DEFINITION. Taking a trap and returning from one: the trap frame (R365, R366), delivery to the supervisor slot
(R362–R364), the resumption of a frame (R214, R367), and the images of evicted strands (R376–R378).
-/
namespace Sys2Proof.Machine

/-! The trap frame. -/

/-- The vault address of a slot's frame. -/
def Slot.frame (t : Slot) : Nat := t.ctxbase + 0x8400
/-- A word of a frame, in the core's vault. -/
def State.frameWord (s : State) (c at_ off : Nat) : Nat := s.readMem (vaultLoc c (at_ + off)) 8
/-- Writes 64-bit words at consecutive addresses. -/
def State.putWords (s : State) (loc : Nat) : List Nat → State
  | [] => s
  | x :: r => (s.writeMem loc x 8).putWords (loc + 8) r

/-- Writes one replay entry (R366). -/
def State.putReplay (s : State) (loc : Nat) (h : Held) : State :=
  ((s.putWords (loc + 16) [h.index, h.data.toNat, 0, h.rkind % 16 + h.member % 8 * 16 + h.type % 8 * 128 + h.reg % 64 * 1024,
    0, 0]).writeCap loc h.cap)
def State.putReplays (s : State) (loc : Nat) : List Held → State
  | [] => s
  | h :: r => (s.putReplay loc h).putReplays (loc + 64) r

/-- Writes a frame (R365): zeros, the raise, the code capability, the saved g1 and g2, and the replay entries. -/
def State.putFrame (s : State) (c at_ : Nat) (r : Raise) (nested : Bool) (code : Cap) (g1 g2 : Word) (hs : List Held) : State :=
  let loc := vaultLoc c at_
  let ctl := hs.length % 16 + (if r.noResume then 16 else 0) + (if nested then 32 else 0)
  let s := (s.zeroMem loc 0x400).putWords loc [r.resume, r.status, r.cause, r.addr, r.value, ctl]
  let s := (s.writeCap (loc + 0x30) code).putWords (loc + 0x40) [r.cycle, g1.toNat, g2.toNat]
  s.putReplays (loc + 0x100) hs

/-! Delivery (R362–R364). -/

/-- Slot 15 starts at an offset of its code capability; its first instruction waits for a clock (R362, R363). -/
def State.startSup (s : State) (c off : Nat) (g1 g2 : Word) (readyAt : Nat) : State :=
  let code : Cap := ⟨Config.supervisorCode c, true⟩
  let s := s.onSlot c 15 fun t =>
    { t with run := .running, why := .none, wait := none, raised := none, idle := 0, code, pc := code.base + off
             g := SMap.set (SMap.set t.g 1 g1) 2 g2, world := true, bank := 16 }
  s.onTrap c fun k => { k with readyAt }

/-- Delivery writes a frame through the register cache (R362): the frame's four lines that are held become dirty, and the
absent ones are filled for slot number 16. -/
def State.frameLines (s : State) (c at_ : Nat) : State :=
  let ls := (below 4).map fun i => at_ + 256 * i
  let absent := ls.filter fun a => !((s.core c).rc.any fun x => x.addr == a)
  let s := (s.useLines c ls ls).onTrap c fun k => { k with fills := absent }
  absent.foldl (fun s a => s.vreq c a 1 (.fill 16 a) none) s
/-- Writes the cause registers of a slot (R136). -/
def State.putCause (s : State) (c n cause addr value : Nat) : State :=
  s.onSlot c n fun t => { t with tcause := cause % 256, taddr := addr % 2 ^ 64, tvalue := value % 2 ^ 64 }

/-- A nested trap is delivered: the supervisor's own frame holds what it interrupts, with its held operations, which the return
does not issue again (R364, R366, R368). -/
def State.deliverNested (s : State) (c : Nat) (r : Raise) : State :=
  let t := s.slot c 15
  let g (i : Nat) : Word := SMap.get t.g i 0
  let s := (s.putFrame c t.frame r true t.code (g 1) (g 2) t.held).frameLines c t.frame
  let s := ((s.onSlot c 15 fun t => { t with held := [] }).putCause c 15 r.cause r.addr r.value).onTrap c fun k => { k with level := 2 }
  s.startSup c 0 15 (BitVec.ofNat 64 r.cause) (s.cycle + 16)

/-- A slot's trap is delivered: its held operations go into its frame, and it becomes the handled slot. -/
def State.deliverSlot (s : State) (c n : Nat) (r : Raise) : State :=
  let t := s.slot c n
  let s := (s.putFrame c t.frame r false t.code 0 0 t.held).frameLines c t.frame
  let s := (s.onSlot c n fun t => { t with held := [] }).putCause c n r.cause r.addr r.value
  let s := s.onTrap c fun k => { k with level := 1, handled := some n }
  s.startSup c 0 (BitVec.ofNat 64 n) (BitVec.ofNat 64 r.cause) (s.cycle + 16)

/-- A supervisor event is delivered: no frame, no handled slot. -/
def State.deliverEvent (s : State) (c cause addr value : Nat) : State :=
  let s := (s.putCause c 15 cause addr value).onTrap c fun k =>
    { k with level := 1, handled := none, deadlock := cause == causeDeadlock }
  s.startSup c 0 15 (BitVec.ofNat 64 cause) (s.cycle + 16)

/-- Whether a pending entry can be delivered: no more than eight held operations may remain (R366). -/
def State.deliverable (s : State) (c : Nat) (p : Nat × Nat) : Bool := p.2 == 15 || (s.slot c p.2).held.length ≤ 8

/-- Delivers the first pending entry at nesting level 0. -/
def State.deliverNext (s : State) (c : Nat) : State :=
  let k := (s.core c).trap
  match k.pend with
  | [] => s
  | p :: rest =>
    if !s.deliverable c p then s
    else
      let s := s.onTrap c fun k => { k with pend := rest }
      if p.2 = 15 then
        match k.events with
        | [] => s
        | (cause, addr, value) :: es => (s.onTrap c fun k => { k with events := es }).deliverEvent c cause addr value
      else match (s.slot c p.2).raised with
        | some r => s.deliverSlot c p.2 r
        | none => s

/-! Resumption (R214, R367). -/

/-- One side-log entry as it stands: length, offset, generation, object and data. -/
structure SideEnt where
  len : Nat
  off : Nat
  gen : Nat
  obj : Nat
  data : Nat
deriving DecidableEq, Repr
def State.sideEnt (s : State) (c n j : Nat) : SideEnt :=
  let h := s.readMem (s.sideLoc c n + 64 * j) 16
  ⟨bitsOf h 72 6, bitsOf h 32 40, bitsOf h 24 8, bitsOf h 0 24, s.readMem (s.sideLoc c n + 64 * j + 16) 48⟩
/-- Writes the side log anew: the entries given, zeros after them. -/
def State.putSide (s : State) (c n : Nat) (es : List SideEnt) : State :=
  let s := s.zeroMem (s.sideLoc c n) 2048
  (List.zip (below es.length) es).foldl (fun s p =>
    let e := p.2
    let loc := s.sideLoc c n + 64 * p.1
    (s.writeMem loc (e.len * 2 ^ 72 + e.off * 2 ^ 32 + e.gen * 2 ^ 24 + e.obj) 16).writeMem (loc + 16) e.data 48) s
/-- The bytes of a write, split by the core that holds them: each core with its bytes by vault address. -/
def byCore (cells : List (Nat × Host.Cell)) : List (Nat × List Host.Cell) :=
  let homes := cells.foldl (fun acc p => if acc.contains p.1 then acc else acc ++ [p.1]) []
  homes.map fun h => (h, (cells.filter fun p => p.1 == h).map (·.2))
/-- Empties the side log of an image, and the replay queue of its frame. -/
def State.clearSide (s : State) (c base : Nat) : State := s.zeroMem (vaultLoc c (base + 0x8800)) 2048
def State.clearReplay (s : State) (c base : Nat) : State :=
  let at_ := vaultLoc c (base + 0x8400 + 0x28)
  s.writeMem at_ (s.readMem at_ 8 / 16 * 16) 8
/-- Applies an entry whose pages are mapped, for a strand's reference; none where it must stay (R214). Its bytes enter the
write queue as the strand's own store (R209). -/
def State.applySide (s : State) (c ref : Nat) (e : SideEnt) : Option State :=
  let n := ref % 16
  let ent := s.objEntry e.obj
  if ent.gen ≠ e.gen ∨ ent.kind = 0 then some s
  else
    let ts := (pagesOf e.off e.len).map fun p => s.walkResult n e.obj p
    if ts.any fun t => !t.mapped then none
    else
      let cells := (below e.len).map fun i =>
        let h := s.home ⟨e.obj, e.gen, ent, e.off + i, ts⟩ (e.off + i)
        (h.1, h.2, byteOf e.data i)
      some ((byCore cells).foldl (fun s p => s.vaultWrite p.1 p.2 (s.acctOf c n) (.slot ref)) s)
/-- Applies a slot's side log and says whether entries remain. -/
def State.applySideLog (s : State) (c ref : Nat) : State × Bool :=
  let n := ref % 16
  let es := (below (s.sideUsed c n)).map fun j => s.sideEnt c n j
  let r := es.foldl (fun (acc : State × List SideEnt) e => match acc.1.applySide c ref e with
    | some s => (s, acc.2)
    | none => (acc.1, acc.2 ++ [e])) (s, [])
  if es.isEmpty then (s, false) else (r.1.putSide c n r.2, !r.2.isEmpty)

/-- R50 with the translations as the table has them now. -/
def State.checkNow (s : State) (c n : Nat) (k : Cap) (x len need align : Nat) (kind : ObjEnt → Nat → Bool) : Chk :=
  let pages := k.base / 2 ^ 21 :: pagesOf (k.base + x) len
  let ts := pages.map fun p => s.walkResult n k.obj p
  (s.onSlot c n fun t => { t with walked := ts }).check c n k 0 x len need align 0 false kind

/-- A replay entry as the frame holds it now. -/
def State.replayEnt (s : State) (c at_ j : Nat) : Held :=
  let loc := vaultLoc c (at_ + 0x100 + 64 * j)
  let w := s.readMem (loc + 40) 8
  ⟨s.readCap loc, s.readMem (loc + 16) 8, BitVec.ofNat 64 (s.readMem (loc + 24) 8), bitsOf w 0 4, bitsOf w 4 3, bitsOf w 7 3,
    bitsOf w 10 6, 0, ⟨.readLine, c, 0, 0, 0, 0, 0, 0, none, false, 0, none⟩⟩
/-- The operation an entry names, its bytes, and the rights it needs; none where it names no operation. -/
def Held.op (h : Held) : Option (WordOp × Nat × Nat) :=
  let ty : Option AmoTy := match h.type with
    | 0 => some .i64 | 1 => some .i32 | 5 => some .n32 | _ => none
  let m : Option Amo := match h.member with
    | 0 => some .add | 1 => some .min | 2 => some .max | 3 => some .and | 4 => some .or | 5 => some .xor | 6 => some .swap
    | _ => none
  match h.rkind with
  | 1 => match m, ty with
    | some m, some t => some (.amo m t h.data, amoBytes t, rR + rW + rA)
    | _, _ => none
  | 2 => match h.member with
    | 3 => some (.fe .sete 0, 8, rW + rS)
    | 4 => some (.fe .setf h.data, 8, rW + rS)
    | _ => none
  | 3 => some (.sw .swadd h.data, 8, rW + rS)
  | _ => none

/-- Issues an entry's operation for a slot: on a shared word it becomes a held posted operation, elsewhere it is performed
(R367). -/
def State.reissue (s : State) (c n : Nat) (h : Held) (op : WordOp) (t : Xl) : State :=
  let site := s.home t t.off
  if t.ent.kind = kShared then
    let num := s.pktNum
    let q : Req := ⟨.word op, c, n, t.obj, t.gen, t.off, site.1, site.2, some num, false, (s.core c).log.tail, s.acctOf c n⟩
    let q := { q with window := (mergeable q.op).isSome && s.inWindow c q.obj q.off }
    let s := { s with pktNum := num + 1 }.onLog c fun l => l.drainLine q.obj q.off
    s.onSlot c n fun t => { t with held := t.held ++ [{ h with num, req := q }] }
  else
    let p : Place := if t.ent.kind = kScratch then .scratch site.1 site.2 else .vault site.1 site.2
    match s.wordStep p op (s.acctOf c n) with
    | some r => r.1.wakeWord p r.2.2
    | none => s

/-- Issues the replay entries from `j` on, each of which leaves the core as soon as it may; a failed check stops with its cause,
address, value and entry (R367). -/
def State.replay (s : State) (c n at_ j : Nat) : Nat → State × Option (Nat × Nat × Nat × Nat)
  | 0 => (s, none)
  | k + 1 =>
    let h := s.replayEnt c at_ j
    match h.op with
    | none => s.replay c n at_ (j + 1) k
    | some (op, len, need) =>
      match s.checkNow c n h.cap h.index len need len (if h.rkind = 1 then s.mayAmo else s.mayWord) with
      | .ok t => ((s.reissue c n h op t).releaseHeld c n).replay c n at_ (j + 1) k
      | .bad cause addr value => (s, some (cause, addr, value, j))
      | .walk _ => s.replay c n at_ (j + 1) k

/-- Both copies of a pair, or the slot alone. -/
def State.onPair (s : State) (c n : Nat) (f : Slot → Slot) : State :=
  let s' := s.onSlot c n f
  match pairMate (s.slot c n) n with
  | some m => s'.onSlot c m f
  | none => s'

/-- The state a strand takes as it goes on (R32). -/
def State.goOn (s : State) (c n : Nat) : State :=
  let urging := (s.core c).urged
  s.onPair c n fun t => { t with run := if urging then .paused else .running, back := .running, why := .none, wait := none
                                 raised := none }

/-- Resumes the strand of slot `n` from the frame at a vault address (R367): its side log and replay entries first, then its
single-step bit, its code capability and its program counter. It waits while bytes of the side log have no entry in the
write queue (R209). -/
def State.resume (s : State) (c n at_ : Nat) : State :=
  let pc := s.frameWord c at_ 0
  let code := s.readCap (vaultLoc c (at_ + 0x30))
  let step := bitOf (s.frameWord c at_ 8) 6
  let count := min 8 (s.frameWord c at_ 0x28 % 16)
  let done := (s.slot c n).done
  let s := s.onPair c n fun t => { t with pc, code, step, done }
  let ref := strandRef n s.pktNum
  let s := { s with pktNum := s.pktNum + 1 }
  let side := s.applySideLog c ref
  let s := side.1
  let entries (j : Nat) : List Held := (upFrom j (count - j)).map fun i => s.replayEnt c at_ i
  if side.2 then
    (s.onSlot c n fun t => { t with held := t.held ++ entries 0 }).raiseAt c n causePage (s.sideOff c n 0) 0x8000 pc false
  else
    match s.replay c n at_ 0 count with
    | (s, some (cause, addr, value, j)) =>
      (s.onSlot c n fun t => { t with held := t.held ++ entries j, walked := [] }).raiseAt c n cause addr value pc false
    | (s, none) =>
      let s := s.clearReplay c (at_ - 0x8400)
      let s := (((s.onSlot c n fun t => { t with walked := [] }).goOn c n).releaseHeld c n)
      if s.isLate c (.slot ref) then
        let w : Wait := { fin := .again, tag := true, start := pc, next := pc, ticket := ref / 16 }
        s.onSlot c n fun t => { t with run := .parked, why := .remote, wait := some w }
      else s

/-! Images of evicted strands (R129, R378). -/

/-- Writes a strand's registers and control state into its image. -/
def State.saveImage (s : State) (c n : Nat) (t : Slot) : State :=
  let img := vaultLoc c t.ctxbase
  let s := (below 32).foldl (fun s i => s.writeMem (img + 0x400 * i) (SMap.get t.v i 0).toNat 1024) s
  let s := (below 32).foldl (fun s i => s.writeMem (img + 0x8000 + 8 * i) (if i = 0 then 0 else (SMap.get t.g i 0).toNat) 8) s
  let s := (below 16).foldl (fun s i => s.writeCap (img + 0x8100 + 16 * i) (SMap.get t.k i ⟨0, false⟩)) s
  let s := (below 8).foldl (fun s i =>
    s.writeMem (img + 0x8200 + 32 * i) (if i = 0 then BitVec.allOnes 256 else SMap.get t.p i 0).toNat 32) s
  let s := (below 14).foldl (fun s i => s.writeMem (img + 0x8300 + 8 * i) (t.ctlWord n i) 8) s
  (s.zeroMem (img + 0x8380) 128).writeCap (img + 0x8370) t.code

/-- A strand's registers and control state as an image holds them. -/
def State.loadImage (s : State) (c : Nat) (t : Slot) : Slot :=
  let img := vaultLoc c t.ctxbase
  let w (i : Nat) : Nat := s.readMem (img + 0x8300 + 8 * i) 8
  let st := w 6
  { t with
    v := (below 32).map fun i => (i, BitVec.ofNat 8192 (s.readMem (img + 0x400 * i) 1024))
    g := (upFrom 1 31).map fun i => (i, BitVec.ofNat 64 (s.readMem (img + 0x8000 + 8 * i) 8))
    k := (below 16).map fun i => (i, s.readCap (img + 0x8100 + 16 * i))
    p := (upFrom 1 7).map fun i => (i, BitVec.ofNat 256 (s.readMem (img + 0x8200 + 32 * i) 32))
    pc := w 0, strand := w 2 % 16, group := w 3 % 2 ^ 32, launch := w 4, world := bitOf (w 5) 0, step := bitOf st 6
    prio := bitsOf st 4 2, seed := BitVec.ofNat 64 (w 7), tcause := w 8 % 256, taddr := w 9, tvalue := w 11
    wake := bitOf (w 13) 0, code := s.readCap (img + 0x8370) }

end Sys2Proof.Machine
end

