-- ==== Sys2Proof/Machine/System.lean ====
section
/-!
DEFINITION. Control registers (R135–R141, R373), software traps, breakpoints and single step (R370–R372), `TRET`
(R368, R369), `URG` (R374), the lazy context switch (R376, R377) and the wallflower line (R45).
-/
namespace Sys2Proof.Machine

/-! What control registers show. -/

/-- `ROTMASK` (R250). -/
def State.rotmask (s : State) (c : Nat) : Nat :=
  (below 16).foldl (fun m n => if s.runAt c n = .running then m + 2 ^ n else m) 0

/-- The lowest offset with a free run of a size among allocations (R31). -/
def freeRun (used : List (Nat × Nat)) (size : Nat) : Option Nat :=
  let fits (o : Nat) : Bool := o + size ≤ 1572864 && used.all fun u => o + size ≤ u.1 || u.1 + u.2 ≤ o
  let starts := 0 :: used.map fun u => u.1 + u.2
  (starts.filter fits).foldl (fun (m : Option Nat) o => match m with
    | some x => some (min x o)
    | none => some o) none
/-- Free slots for a group: single slots 0–12, or pairs of `s` and `s` + 8 (R36). -/
def State.freeSlots (s : State) (c : Nat) (paired : Bool) : List Nat :=
  let free (n : Nat) : Bool := (s.slot c n).run == .empty && !((s.core c).swapped.any fun p => p.1 == n)
  if paired then (below 6).filter fun n => free n && free (n + 8) else (below 13).filter free
/-- Scratchpad bytes of a launch's groups, in whole 16 KiB (R28). -/
def Launch.room (l : Launch) : Nat := (l.scratch + 16383) / 16384 * 16384
/-- The Pending groups at the head of a core's order (R36). -/
def Core.nextDeal (k : Core) : Option Deal :=
  k.deals.foldl (fun (m : Option Deal) d => match m with
    | some x => if x.launch.prio < d.launch.prio || (x.launch.prio == d.launch.prio && d.order < x.order) then some d else m
    | none => some d) none
/-- The group that the core may start now, with its frame, slots and allocation (R36). -/
def State.startable (s : State) (c : Nat) : Option (Deal × Nat × List Nat × Nat) :=
  let k := s.core c
  match k.nextDeal with
  | none => none
  | some d =>
    let slots := s.freeSlots c d.launch.paired
    let used := (k.groups.map fun p => (p.2.base, p.2.len)).filter fun u => u.2 != 0
    match freeRun used d.launch.room, (below 16).find? fun b => !(k.groups.any fun p => p.1 == b) with
    | some o, some b => if slots.length < d.launch.strands then none else some (d, b, slots.take d.launch.strands, o)
    | _, _ => none

/-- The wallflower line (R45); `handler` leaves the supervisor's own work out (R46). -/
def State.wallLine (s : State) (c : Nat) (handler : Bool) : Bool :=
  let k := s.core c
  let waits (n : Nat) : Bool := match s.runAt c n with
    | .parked => (s.whyAt c n).party
    | .running => false
    | .paused => false
    | .trapped => false
    | .swapped => true
    | .halted => true
    | .contained => true
    | .empty => true
  (below 15).all waits && (handler || waits 15) && !(k.inbox.any fun e => e.kind == 1) && (s.startable c).isNone

/-- `ENGSTAT` (R139). -/
def State.engstat (s : State) (c : Nat) : Nat :=
  let k := s.core c
  let agent := k.agentBusy || !k.agentQ.isEmpty || k.log.ents.any fun e => e.shipped && !e.acked || k.nextShip.isSome
  k.waiters.length * 2 ^ 24 + (k.inbox.length + k.resv.length) * 2 ^ 16 + k.board.length * 2 ^ 8 +
  (if k.matQ.isEmpty then 0 else 4) + (if agent then 2 else 0) + (if k.copies.isEmpty then 0 else 1)

/-- `THERM` (R139). -/
def State.therm (s : State) (c : Nat) : Nat :=
  let v := (s.core c).vault
  (if v.throt then 2 ^ 17 else 0) + (if v.dramHot then 2 ^ 16 else 0) + v.logicT % 256 * 256 + v.dramT % 256

/-- A per-slot register (R136). -/
def State.slotReg (s : State) (c n i : Nat) : Nat :=
  if i = 5 then s.statusAt c n
  else (s.slot c n).ctlWord n (i + 1)
/-- A per-core register (R138); the reserved numbers read zero. -/
def State.coreReg (s : State) (c num : Nat) : Nat :=
  let k := s.core c
  match num - 0x200 with
  | 0x0 => s.logicalOf c
  | 0x1 => posCore c
  | 0x2 => posQuad c
  | 0x3 => posDie c
  | 0x4 => s.pkg
  | 0x5 => Config.pod.toNat
  | 0x6 => s.cycle
  | 0x7 => s.rotmask c
  | 0x8 => if s.wallLine c false then 1 else 0
  | 0x9 => k.urglim
  | 0xA => k.shwloss
  | 0xB => k.log.tail
  | 0xC => k.log.pubVault
  | 0xD => k.log.comp
  | 0xE => k.log.recl
  | 0xF => k.log.size
  | 0x10 => k.mirsize
  | 0x11 => k.arbw * 2 ^ 32 + k.tldw
  | 0x12 => s.engstat c
  | 0x13 => s.therm c
  | i => if 0x20 ≤ i ∧ i < 0x30 then SMap.get k.evcSeen (i - 0x20) 0 else 0
/-- A per-die register (R140). -/
def State.dieReg (s : State) (c num : Nat) : Nat :=
  let x := s.die (posDie c)
  match num - 0x300 with
  | 0 => x.hmap.toNat
  | 1 => x.l2pbase
  | 2 => s.refcfgOf c
  | 7 => x.rect
  | i => SMap.get x.win (i - 3) 0

/-- Where a control register number leads (R135). -/
inductive CsrAt where
  | slot (n i : Nat)
  | core (num : Nat)
  | die (num : Nat)
  | bad
deriving DecidableEq, Repr
def csrAt (own num : Nat) : CsrAt :=
  if num < 0xC then .slot own num
  else if 0x100 ≤ num ∧ num < 0x200 then (if num % 16 < 12 then .slot (num / 16 % 16) (num % 16) else .bad)
  else if 0x200 ≤ num ∧ num < 0x240 then .core num
  else if 0x300 ≤ num ∧ num < 0x308 then .die num
  else .bad

/-- The registers of another slot, which only the supervisor may name (R135). -/
def supNumber (num : Nat) : Bool := decide (0x100 ≤ num) && decide (num < 0x200)
/-- What a control register shows the issuing slot (R135–R140). -/
def State.csrValue (s : State) : CsrAt → Nat
  | .bad => 0
  | .slot n r => s.slotReg s.ic n r
  | .core m => s.coreReg s.ic m
  | .die m => s.dieReg s.ic m
/-- What a read clears: `SHWLOSS`, and the wait counters (R138). -/
def State.readClears (s : State) : CsrAt → State
  | .core 0x20A => s.onCore s.ic fun k => { k with shwloss := 0 }
  | .core 0x211 => s.onCore s.ic fun k => { k with arbw := 0, tldw := 0 }
  | _ => s
/-- `CSRR` (R135, R373): the number is checked first, then the privilege, then the guard (R116); a read-clear register is
cleared as it is read. -/
def execCsrr (d : Gpr) (i : Imm) (s : State) : Host.Outcome State Fault Refusal :=
  let at_ := csrAt s.is i.val
  if at_ = .bad then .next s.trapField
  else if supNumber i.val ∧ s.is ≠ 15 then .next s.trapPriv
  else s.guarded ((s.putGpr d (BitVec.ofNat 64 (s.csrValue at_))).readClears at_).retire

/-! Writes of control registers, as they take effect at their commit clocks (R135). -/

/-- A write of a per-slot register that is neither `CTXBASE` nor `SEED` (R136, R137). -/
def State.writeSlotReg (s : State) (c n i v : Nat) : State :=
  match i with
  | 5 => if n = 15 then s else s.onSlot c n fun t => { t with step := bitOf v 6 }
  | 7 => s.onSlot c n fun t => { t with tcause := v % 256 }
  | 8 => s.onSlot c n fun t => { t with taddr := v }
  | 10 => s.onSlot c n fun t => { t with tvalue := v }
  | _ => s
/-- Per-slot registers that only the supervisor may write (R136). -/
def supSlotReg (i : Nat) : Bool := i == 5 || i == 7 || i == 8 || i == 10 || i == 11

/-- A strand's registers and control state go into its image, from where they are read from now on (R131). -/
def State.putAway (s : State) (c n : Nat) : State :=
  let t := s.slot c n
  if t.away then s
  else (if t.based then s.saveImage c n t else s).onSlot c n fun t => { t with away := true }
/-- `CTXBASE` (R136): only for a slot that is empty or whose strand is Swapped, and an image that fits. The registers that an
empty slot holds stay in the image that they leave (R131). -/
def State.writeCtxbase (s : State) (c n v : Nat) : State :=
  let base := bitsOf v 12 19 * 4096
  let r := (s.slot c n).run
  if (r = .empty ∨ r = .swapped) ∧ base + 0xA000 ≤ 2 ^ 31 ∧ base ≠ (s.slot c n).ctxbase then
    (s.putAway c n).onSlot c n fun t => { t with ctxbase := base, based := true }
  else s
/-- `SEED` (R90): zero stores the constant. -/
def State.writeSeed (s : State) (c n : Nat) (v : Word) : State := s.onSlot c n fun t => { t with seed := seedFor v }
/-- `LOGSIZE` (R138): only while the log holds nothing, and only 1–256. -/
def Log.writeSize (l : Log) (v : Nat) : Log :=
  let m := v % 512
  if l.tail = l.recl ∧ 1 ≤ m ∧ m ≤ 256 then { l with size := m } else l
/-- `MIRSIZE` (R138): above 64 stores 64, and every mirror line goes. -/
def Core.writeMirsize (k : Core) (v : Nat) : Core := { k.dropLines (fun _ _ => true) with mirsize := min (v % 128) 64 }
/-- `URGLIM` (R138): zero stores 1. -/
def Core.writeUrglim (k : Core) (v : Nat) : Core := { k with urglim := max 1 (v % 2 ^ 32) }
/-- The counters `EVC0`–`EVC15` (R138, R354). -/
def Core.writeEvc (k : Core) (i v : Nat) : Core := { k with evc := SMap.set k.evc i v }
/-- `WINBASE0`–`WINBASE3` (R141): ignored with a base that is no multiple of the window's length, and enabled with a length
outside 12–40. -/
def Die.writeWin (x : Die) (i v : Nat) : Die :=
  let len := bitsOf v 6 6
  let aligned := bitsOf v 12 28 * 4096 % 2 ^ len == 0
  let sized := !(bitOf v 0) || (decide (12 ≤ len) && decide (len ≤ 40))
  if aligned && sized then { x with win := SMap.set x.win i (v / 64 * 64 + v % 2) } else x
/-- `RECTDEF` (R141): ignored for a code above 3. -/
def Die.writeRect (x : Die) (v : Nat) : Die := if v % 8 ≤ 3 ∧ v / 8 % 8 ≤ 3 then { x with rect := v % 64 } else x

/-- A write of a control register takes effect; registers that are read-only, and numbers that name none, ignore it (R4,
R135). -/
def State.applyCsr (s : State) (c : Nat) (w : CsrWrite) : State :=
  let v := w.value.toNat
  match csrAt w.slot w.num with
  | .slot n i =>
    if i = 0xB then s.writeCtxbase c n v else if i = 6 then s.writeSeed c n w.value else s.writeSlotReg c n i v
  | .core m => match m with
    | 0x209 => s.onCore c fun k => k.writeUrglim v
    | 0x20F => s.onLog c fun l => l.writeSize v
    | 0x210 => s.onCore c fun k => k.writeMirsize v
    | _ => if 0x220 ≤ m ∧ m < 0x230 then s.onCore c fun k => k.writeEvc (m - 0x220) v else s
  | .die m =>
    if m = 0x307 then s.onDie (posDie c) fun x => x.writeRect v
    else if 0x303 ≤ m ∧ m < 0x307 then s.onDie (posDie c) fun x => x.writeWin (m - 0x303) v
    else s
  | .bad => s
/-- The writes of a core's control registers whose commit clock has come take effect (R135); a core issues from one slot in a
clock, so no two of them meet in one. -/
def State.commitCsrs (s : State) (c : Nat) : State :=
  let due := (s.core c).csrs.filter fun w => w.clock ≤ s.cycle
  if due.isEmpty then s
  else due.foldl (fun s w => s.applyCsr c w) (s.onCore c fun k => { k with csrs := k.csrs.filter fun w => s.cycle < w.clock })

/-- Whether only the supervisor may write what a number names (R135, R136, R138, R141). -/
def supWrite : CsrAt → Bool
  | .slot _ i => supSlotReg i
  | .core m => m == 0x209 || m == 0x20F || m == 0x210 || (decide (0x220 ≤ m) && decide (m < 0x230))
  | .die m => decide (0x303 ≤ m)
  | .bad => false
/-- A `CSRW` (R135, R373): the number is checked first, then the privilege, then the guard (R116); the write takes effect at
the issuing instruction's commit clock. -/
def State.csrw (s : State) (num : Nat) (v : Word) : Host.Outcome State Fault Refusal :=
  let at_ := csrAt s.is num
  if at_ = .bad then .next s.trapField
  else if s.is ≠ 15 ∧ (supWrite at_ || supNumber num) then .next s.trapPriv
  else s.guarded (s.onCore s.ic fun k => { k with csrs := k.csrs ++ [⟨s.cycle + 15, s.is, num, v⟩] }).retire

/-- `CSRW` of a register without a row of its own (R373). -/
def execCsrw (a : Gpr) (i : Imm) (s : State) : Host.Outcome State Fault Refusal := s.csrw i.val (s.gpr a)
/-- `CSRW` to `CTXBASE` (R136, `State.writeCtxbase`). -/
def execCsrwCtxbase (a : Gpr) (i : Imm) (s : State) : Host.Outcome State Fault Refusal := s.csrw i.val (s.gpr a)
/-- `CSRW` to `LOGSIZE` (R138, `Log.writeSize`). -/
def execCsrwLogsize (a : Gpr) (i : Imm) (s : State) : Host.Outcome State Fault Refusal := s.csrw i.val (s.gpr a)
/-- `CSRW` to `MIRSIZE` (R138, `Core.writeMirsize`). -/
def execCsrwMirsize (a : Gpr) (i : Imm) (s : State) : Host.Outcome State Fault Refusal := s.csrw i.val (s.gpr a)
/-- `CSRW` to `URGLIM` (R138, `Core.writeUrglim`). -/
def execCsrwUrglim (a : Gpr) (i : Imm) (s : State) : Host.Outcome State Fault Refusal := s.csrw i.val (s.gpr a)
/-- `CSRW` to `SEED` (R90, `State.writeSeed`). -/
def execCsrwSeed (a : Gpr) (i : Imm) (s : State) : Host.Outcome State Fault Refusal := s.csrw i.val (s.gpr a)
/-- `CSRW` to `WINBASE0`–`WINBASE3` (R141, `Die.writeWin`). -/
def execCsrwWinbase (a : Gpr) (i : Imm) (s : State) : Host.Outcome State Fault Refusal := s.csrw i.val (s.gpr a)
/-- `CSRW` to `RECTDEF` (R141, `Die.writeRect`). -/
def execCsrwRectdef (a : Gpr) (i : Imm) (s : State) : Host.Outcome State Fault Refusal := s.csrw i.val (s.gpr a)

/-! Software traps and single step (R370–R372). -/

/-- A trap whose strand resumes at the next start. -/
def State.trapNext (s : State) (cause value : Nat) : State :=
  s.raiseAt s.ic s.is cause s.issue.start value s.issue.next false

/-- `TRAP` (R370). -/
def execTrap (i : Imm) (s : State) : Host.Outcome State Fault Refusal := s.guarded (s.trapNext causeTrap i.val)
/-- `BRK` (R370). -/
def execBrk (i : Imm) (s : State) : Host.Outcome State Fault Refusal := s.guarded (s.trapNext causeBreak i.val)
/-- `STEP`: the slot's `STATUS.STEP` is set at its commit clock (R372). -/
def execStep (s : State) : Host.Outcome State Fault Refusal :=
  s.guarded (if s.is = 15 then s.retire
    else s.retire.onCore s.ic fun k => { k with csrs := k.csrs ++ [⟨s.cycle + 15, s.is, 5, 0x40⟩] })

/-! `TRET` (R368, R369). -/

def State.badTret (s : State) (reason : Nat) : State := s.trap causeBadTret s.issue.start reason
/-- Reserved bits of `SSTATUS` (R137). -/
def statusReserved (v : Nat) : Bool := v / 2 ^ 16 != 0 || bitOf v 11 || bitOf v 7 || bitOf v 3
/-- Reserved bits of `SSTATUS` or `FCTL` are set in a frame. -/
def State.frameBad (s : State) (c at_ : Nat) : Bool :=
  statusReserved (s.frameWord c at_ 8) || s.frameWord c at_ 0x28 / 64 != 0

/-- The three members: 0 resumes, 1 halts the strand, 2 ends its launch's groups on the core. -/
def State.tret (s : State) (mod : Nat) : State :=
  let c := s.ic
  let k := (s.core c).trap
  if s.is ≠ 15 ∨ k.level = 0 ∨ (k.level = 1 ∧ k.urging) then s.badTret 1
  else
    let sup := (s.slot c 15).frame
    let frame : Option Nat := if k.level = 2 then some sup else k.handled.map fun h => (s.slot c h).frame
    if frame.any (s.frameBad c) then s.badTret 2
    else if k.level = 2 then
      if mod ≠ 0 then s.badTret 4
      else
        let w (o : Nat) : Word := BitVec.ofNat 64 (s.frameWord c sup o)
        let code := s.readCap (vaultLoc c (sup + 0x30))
        let pc := s.frameWord c sup 0
        (s.onSlot c 15 fun t => { t with g := SMap.set (SMap.set t.g 1 (w 0x48)) 2 (w 0x50), code, pc }).onTrap c fun k =>
          { k with level := 1 }
    else match k.handled with
      | none => if mod = 0 then s.supIdle c else s.badTret 4
      | some h =>
        let t := s.slot c h
        if t.run ≠ .trapped then (if mod = 0 then s.supIdle c else s.badTret 4)
        else match mod with
          | 0 => if bitOf (s.frameWord c t.frame 0x28) 4 then s.badTret 3 else (s.supIdle c).resume c h t.frame
          | 1 => (((s.supIdle c).clearSide c t.ctxbase).clearReplay c t.ctxbase).retireStrand c h
          | _ =>
            let status := if s.frameWord c t.frame 0x10 = causeEnergy then 2 else 1
            (s.supIdle c).endLaunchHere c t.launch status

/-- `TRET` (R368). -/
def execTret (s : State) : Host.Outcome State Fault Refusal := s.guarded (s.tret 0)
/-- `TRET_HALT` (R368). -/
def execTretHalt (s : State) : Host.Outcome State Fault Refusal := s.guarded (s.tret 1)
/-- `TRET_ABORT` (R368). -/
def execTretAbort (s : State) : Host.Outcome State Fault Refusal := s.guarded (s.tret 2)

/-! `URG` (R374). -/

/-- The core a name stands for, all ones being the issuing core (R223). -/
def State.nameTarget (s : State) (name : Nat) : Option Nat :=
  if name = 2 ^ 64 - 1 then some s.ic
  else if name / 65536 ≠ 0 then none
  else s.namedPos (bitsOf name 10 6) (bitsOf name 0 10)
/-- The requester's name (R375). -/
def State.requester (s : State) : Nat :=
  s.logicalOf s.ic + s.pkg * 1024 + s.is * 65536 + (if s.me.world then 2 ^ 20 else 0)

/-- `URG`. -/
def execUrg (e : BitVec 4) (d : Pr) (a b : Gpr) (s : State) : Host.Outcome State Fault Refusal :=
  s.guarded (match s.nameTarget (s.gpr a).toNat with
    | none => (s.putPred d 0).retire
    | some t =>
      let ref := s.myRef
      ({ s with pktNum := s.pktNum + 1 }.parkRef .remote ref { fin := .pred d, left := 1 }).send s.ic t urgentClass
        (flitsFor 16) (s.acctOf s.ic s.is) (.urg s.ic ref e.toNat (s.gpr b) s.requester))

/-! The lazy context switch (R376, R377). -/

/-- Why a slot's strand cannot be evicted, if it cannot. -/
def State.evictCode (s : State) (c n : Nat) : Nat :=
  let t := s.slot c n
  let here : Bool := t.run == .running || t.run == .parked || t.run == .paused || t.run == .trapped
  if 12 < n then 3
  else if t.lead || t.trail then 2
  else if !here || (s.core c).trap.pend.any fun p => p.2 == n then 1
  else 0

/-- A vector instruction in the latch completes at once, ahead of older ones: what it writes commits on the next clock (R376). -/
def State.finishLatch (s : State) (c n : Nat) : State :=
  match (s.core c).latch.find? fun x => x.2.1 == n with
  | none => s
  | some (_, _, ws) =>
    let latched (w : EvcWrite) : Bool := w.slot == n && w.clock == 2 ^ 70
    let s := s.onCore c fun k =>
      { k with latch := k.latch.filter (fun x => x.2.1 != n), vfree := max k.vfree s.cycle + 2
               evcs := updFirst latched (fun w => { w with clock := s.cycle + 1 }) k.evcs }
    (ws.foldl (fun s w => s.share c { w with clock := s.cycle + 1 }) s).onSlot c n fun t => { t with vready := 0 }
/-- The writes of its own registers that a strand has still on their way take effect before its image is written. -/
def State.ownCsrs (s : State) (c n : Nat) : State :=
  let own (w : CsrWrite) : Bool := match csrAt w.slot w.num with
    | .slot m _ => m == n && w.slot == n
    | _ => false
  let mine := (s.core c).csrs.filter own
  mine.foldl (fun s w => s.applyCsr c w) (s.onCore c fun k => { k with csrs := k.csrs.filter fun w => !own w })
/-- Evicts the strand of slot `n`: its image is written, its lines are marked, its translations dropped (R376); a handled slot
is one no more (R360). The per-slot
registers of the slot that it leaves read as those of a fresh slot but for `CTXBASE`, on which the spec is silent (R136,
assumption 62). -/
def State.evict (s : State) (c n : Nat) : State :=
  let s := (s.ownCsrs c n).finishLatch c n
  let t := s.slot c n
  let s := (s.saveImage c n t).onTrap c fun k => { k with handled := if k.handled = some n then none else k.handled }
  let gone : Slot := { t with run := .swapped, back := t.run, idle := 0, away := true, before := none }
  let left : Slot := { Slot.fresh n with run := .swapped, ctxbase := t.ctxbase, based := true, away := true }
  let mark (x : RcLine) : RcLine := if t.ctxbase ≤ x.addr && x.addr < t.ctxbase + 0xA000 then { x with mark := some s.cycle } else x
  (s.setSlot c n left).onCore c fun k =>
    { k with swapped := k.swapped ++ [(n, gone)], rc := k.rc.map mark, tlb := k.tlb.filter fun x => x.slot != n }

/-- An instruction of the supervisor alone: elsewhere it raises `PRIV` before its guard is looked at (R116, R376). -/
def State.supOnly (s : State) (body : State) : Host.Outcome State Fault Refusal :=
  if s.is = 15 then s.guarded body else .next s.trapPriv
/-- `REGEVICT` (R376). -/
def execRegevict (d a : Gpr) (s : State) : Host.Outcome State Fault Refusal :=
  let n := (s.gpr a).toNat
  let code := s.evictCode s.ic n
  s.supOnly ((if code = 0 then s.evict s.ic n else s).putGpr d (BitVec.ofNat 64 code)).retire

/-- What `REGLOAD` finds for slot `n` (R377). -/
def State.loadCode (s : State) (c n : Nat) : Nat :=
  let t := s.slot c n
  let img := vaultLoc c t.ctxbase
  let st := bitsOf (s.readMem (img + 0x8330) 8) 8 3
  if 12 < n then 3
  else if t.run ≠ .empty ∧ t.run ≠ .swapped then 1
  else if s.readMem (img + 0x8308) 8 ≠ n ∨ 3 < st then 2
  else if st = 3 ∧ (s.frameBad c t.frame || bitOf (s.frameWord c t.frame 0x28) 4) then 3
  else 0

/-- Brings back the strand whose image lies at the slot's `CTXBASE`, in the state that the image gives (R377). One that an image
makes Parked without a wait of its own issues its instruction again when the reason comes about, on which the spec is silent
(assumption 62). -/
def State.reload (s : State) (c n : Nat) : State :=
  let cur := s.slot c n
  let img := vaultLoc c cur.ctxbase
  let status := s.readMem (img + 0x8330) 8
  let st := bitsOf status 8 3
  let mine (p : Nat × Slot) : Bool := p.1 == n && p.2.ctxbase == cur.ctxbase
  let kept : Slot := (((s.core c).swapped.find? mine).map (·.2)).getD { Slot.fresh n with ctxbase := cur.ctxbase, based := true }
  let t := s.loadImage c kept
  let group := (s.core c).groups.find? fun p => p.2.launch.id == t.launch && p.2.index == t.group
  let t := { t with bank := (group.map (·.1)).getD t.bank, due := false, away := false }
  let s := s.onCore c fun k => { k with swapped := delFirst mine k.swapped }
  let s := s.setSlot c n t
  let s := match st with
    | 3 => (s.onSlot c n fun t => { t with run := .trapped, wait := none }).resume c n t.frame
    | 1 => match kept.wait with
      | some w =>
        let s := s.onSlot c n fun t => { t with run := .parked, back := .running }
        if !kept.due then s
        else match w.fin with
          | .halt => s.retireStrand c n
          | _ => s.endWait c n w
      | none =>
        let w : Wait := { fin := .again, left := 1, start := t.pc, next := t.pc }
        s.onSlot c n fun t => { t with run := .parked, back := .running, why := Why.ofCode (bitsOf status 12 4), wait := some w }
    | _ => s.goOn c n
  ((s.releaseHeld c n).unpark c).pokeInbox c

/-- `REGLOAD` (R377): waits until the image's control line is present. -/
def execRegload (d a : Gpr) (s : State) : Host.Outcome State Fault Refusal :=
  let c := s.ic
  let n := (s.gpr a).toNat
  let line := (s.slot c n).ctxbase + 0x8300
  let code := s.loadCode c n
  s.supOnly (if n ≤ 12 ∧ !((s.core c).rc.any fun x => x.addr == line) then s.fillLines c 15 [line] [line]
    else ((if code = 0 then s.reload c n else s).putGpr d (BitVec.ofNat 64 code)).retire)

end Sys2Proof.Machine
end

