-- ==== Sys2Proof/Machine/Counters.lean ====
section
/-!
DEFINITION. The counter instructions (R354–R356).
-/
namespace Sys2Proof.Machine

/-- `CNTRD` (R356). -/
def execCntrd (d : Gpr) (n : BitVec 4) (s : State) : Host.Outcome State Fault Refusal :=
  s.guarded ((s.putGpr d (BitVec.ofNat 64 (SMap.get (s.core s.ic).evcSeen n.toNat 0))).retire)

/-- `CNTCLR`: the counters clear at its commit clock (R356). -/
def execCntclr (a : Gpr) (s : State) : Host.Outcome State Fault Refusal :=
  s.supOnly (s.onCore s.ic fun k =>
    { k with evcs := k.evcs ++ [{ clock := s.cycle + 15, slot := s.is, clear := bitsOf (s.gpr a).toNat 0 16 }] }).retire

/-- `CNTSUM`: a barrier whose participants receive the sum of their contributions (R356). -/
def execCntsum (sc : Scope) (d a : Gpr) (s : State) : Host.Outcome State Fault Refusal :=
  let x := s.gpr a
  if sc.code < 2 ∨ 7 < sc.code then .next s.trapField
  else s.guarded (s.barrier sc true (.word d) x (s.putGpr d x).retire)

end Sys2Proof.Machine
end

