-- ==== Sys2Proof/Machine/Crypto.lean ====
section
/-!
DEFINITION. The two signature schemes of R9 for firmware images (R10, R400): pure Ed25519 verification as RFC 8032
describes it, over SHA-512 (FIPS 180-4), and pure ML-DSA-65 verification with an empty context string as FIPS 204
describes it, over SHAKE128 and SHAKE256 (FIPS 202). Byte strings are lists of numbers below 256. The spec names the
standards and does not print them: what stands here is taken from them (PRESUMED, log entry 67).
-/
namespace Sys2Proof.Machine

/-! Numbers and bytes. -/

/-- The numbers below `n`, rising. -/
def upTo (n : Nat) : List Nat := List.range n
/-- The little-endian number of bytes. -/
def leNat : List Nat → Nat
  | [] => 0
  | b :: r => b + 256 * leNat r
/-- The `n` low bytes of a number, the lowest first. -/
def leBytes (x : Nat) : Nat → List Nat
  | 0 => []
  | n + 1 => x % 256 :: leBytes (x / 256) n
/-- The `k` first pieces of `n` items of a list. -/
def pieces {α : Type} (n : Nat) (l : List α) : Nat → List (List α)
  | 0 => []
  | k + 1 => l.take n :: pieces n (l.drop n) k
/-- `x` to the power of the low `bits` bits of `e`, modulo `m`. -/
def powMod (m x e : Nat) : Nat → Nat
  | 0 => 1 % m
  | b + 1 =>
    let r := powMod m x (e / 2) b
    if e % 2 = 1 then r * r % m * x % m else r * r % m
/-- The greatest number below `a + 2 ^ bits` and at least `a` whose `k`th power is at most `n`. -/
def rootFrom (k n a : Nat) : Nat → Nat
  | 0 => a
  | b + 1 => rootFrom k n (if (a + 2 ^ b) ^ k ≤ n then a + 2 ^ b else a) b

/-! SHA-512 (FIPS 180-4). -/

/-- The first 80 prime numbers. -/
def primes80 : List Nat := ((upTo 410).filter fun n => 2 ≤ n && (upTo n).all fun d => d < 2 || n % d != 0).take 80
/-- The first 64 bits of the fraction of a prime's `k`th root. -/
def rootWord (k p : Nat) : BitVec 64 := BitVec.ofNat 64 (rootFrom k (p * 2 ^ (64 * k)) 0 70)
/-- The round constants: cube roots of the first 80 primes. -/
def shaK : List (BitVec 64) := primes80.map (rootWord 3)
/-- The initial value: square roots of the first eight primes. -/
def shaStart : List (BitVec 64) := (primes80.take 8).map (rootWord 2)
/-- A word of a list; 0 beyond it. -/
def word64 (l : List (BitVec 64)) (i : Nat) : BitVec 64 := l.getD i 0
/-- The message schedule, the newest word first. -/
def shaSchedule (w : List (BitVec 64)) : Nat → List (BitVec 64)
  | 0 => w
  | n + 1 =>
    let w := shaSchedule w n
    let x := word64 w 14
    let y := word64 w 1
    let s0 := x.rotateRight 1 ^^^ x.rotateRight 8 ^^^ (x >>> 7)
    let s1 := y.rotateRight 19 ^^^ y.rotateRight 61 ^^^ (y >>> 6)
    (s1 + word64 w 6 + s0 + word64 w 15) :: w
/-- One round over the eight working words. -/
def shaRound (v : List (BitVec 64)) (kw : BitVec 64 × BitVec 64) : List (BitVec 64) :=
  let a := word64 v 0
  let b := word64 v 1
  let c := word64 v 2
  let e := word64 v 4
  let s1 := e.rotateRight 14 ^^^ e.rotateRight 18 ^^^ e.rotateRight 41
  let ch := (e &&& word64 v 5) ^^^ (~~~e &&& word64 v 6)
  let t1 := word64 v 7 + s1 + ch + kw.1 + kw.2
  let s0 := a.rotateRight 28 ^^^ a.rotateRight 34 ^^^ a.rotateRight 39
  let maj := (a &&& b) ^^^ (a &&& c) ^^^ (b &&& c)
  [t1 + s0 + maj, a, b, c, word64 v 3 + t1, e, word64 v 5, word64 v 6]
/-- A block of 128 bytes. -/
def shaBlock (h : List (BitVec 64)) (block : List Nat) : List (BitVec 64) :=
  let w := (pieces 8 block 16).map fun p => BitVec.ofNat 64 (leNat p.reverse)
  let v := (shaK.zip (shaSchedule w.reverse 64).reverse).foldl shaRound h
  List.zipWith (· + ·) h v
/-- The hash, 64 bytes. -/
def sha512 (msg : List Nat) : List Nat :=
  let n := msg.length
  let padded := msg ++ [0x80] ++ List.replicate ((239 - n % 128) % 128) 0 ++ (leBytes (8 * n) 16).reverse
  let h := (pieces 128 padded (padded.length / 128)).foldl shaBlock shaStart
  h.flatMap fun x => (leBytes x.toNat 8).reverse

/-! Ed25519 (RFC 8032, 5.1). -/

/-- The field's prime, 2^255 - 19. -/
def edP : Nat := 2 ^ 255 - 19
/-- The order of the base point. -/
def edL : Nat := 2 ^ 252 + 27742317777372353535851937790883648493
/-- An inverse in the field. -/
def edInv (x : Nat) : Nat := powMod edP x (edP - 2) 255
/-- The curve's constant, -121665/121666. -/
def edD : Nat := (edP - 121665) * edInv 121666 % edP
/-- A point in extended coordinates. -/
structure EdPoint where
  x : Nat
  y : Nat
  z : Nat
  t : Nat
  deriving DecidableEq, Repr
/-- The sum of two points (complete, so it doubles too). -/
def edAdd (p q : EdPoint) : EdPoint :=
  let a := (p.y + edP - p.x) * (q.y + edP - q.x) % edP
  let b := (p.y + p.x) * (q.y + q.x) % edP
  let c := p.t * 2 * edD % edP * q.t % edP
  let d := p.z * 2 * q.z % edP
  let e := b + edP - a
  let f := d + edP - c
  let g := d + c
  let h := b + a
  { x := e * f % edP, y := g * h % edP, z := f * g % edP, t := e * h % edP }
/-- The low `bits` bits of `n` times a point. -/
def edMul (p : EdPoint) (n : Nat) : Nat → EdPoint
  | 0 => { x := 0, y := 1, z := 1, t := 0 }
  | b + 1 =>
    let r := edMul p (n / 2) b
    let d := edAdd r r
    if n % 2 = 1 then edAdd d p else d
/-- Whether two points are equal. -/
def edEq (p q : EdPoint) : Bool := p.x * q.z % edP == q.x * p.z % edP && p.y * q.z % edP == q.y * p.z % edP
/-- Decodes a point of 32 bytes (5.1.3). -/
def edDecode (bs : List Nat) : Option EdPoint :=
  let n := leNat bs
  let y := n % 2 ^ 255
  let sign := n / 2 ^ 255
  let u := (y * y + edP - 1) % edP
  let v := (edD * y % edP * y + 1) % edP
  let v3 := v * v % edP * v % edP
  let x := u * v3 % edP * powMod edP (u * (v3 * v3 % edP * v % edP) % edP) ((edP - 5) / 8) 255 % edP
  let w := v * x % edP * x % edP
  let x := if w = (edP - u) % edP ∧ w ≠ u then x * powMod edP 2 ((edP - 1) / 4) 255 % edP else x
  if y ≥ edP ∨ (w ≠ u ∧ w ≠ (edP - u) % edP) ∨ (x = 0 ∧ sign = 1) then none
  else
    let x := if x % 2 = sign then x else edP - x
    some { x := x, y := y, z := 1, t := x * y % edP }
/-- The base point: y = 4/5, x even. -/
def edBase : Option EdPoint := edDecode (leBytes (4 * edInv 5 % edP) 32)
/-- Pure Ed25519 verification (5.1.7). The standard lets an implementation check the group equation with or without the
cofactor 8; `Config.ed25519Cofactor` says which. -/
def ed25519Verify (key msg sig : List Nat) : Bool :=
  let r := sig.take 32
  let sn := leNat (sig.drop 32)
  let k := leNat (sha512 (r ++ key ++ msg)) % edL
  match edDecode key, edDecode r, edBase with
  | some a, some rp, some b =>
    let lhs := edMul b sn 253
    let rhs := edAdd rp (edMul a k 253)
    sig.length == 64 && sn < edL && (if Config.ed25519Cofactor then edEq (edMul lhs 8 4) (edMul rhs 8 4) else edEq lhs rhs)
  | _, _, _ => false

/-! SHAKE128 and SHAKE256 (FIPS 202). -/

/-- The rotations of the ρ step, by lane `x + 5 y`. -/
def keccakRot : List Nat :=
  [0, 1, 62, 28, 27, 36, 44, 6, 55, 20, 3, 10, 43, 25, 39, 41, 45, 15, 21, 8, 18, 2, 61, 56, 14]
/-- The constants of the ι step. -/
def keccakRc : List (BitVec 64) :=
  [0x1, 0x8082, 0x800000000000808A, 0x8000000080008000, 0x808B, 0x80000001, 0x8000000080008081, 0x8000000000008009,
   0x8A, 0x88, 0x80008009, 0x8000000A, 0x8000808B, 0x800000000000008B, 0x8000000000008089, 0x8000000000008003,
   0x8000000000008002, 0x8000000000000080, 0x800A, 0x800000008000000A, 0x8000000080008081, 0x8000000000008080,
   0x80000001, 0x8000000080008008]
/-- One round over the 25 lanes. -/
def keccakRound (a : List (BitVec 64)) (rc : BitVec 64) : List (BitVec 64) :=
  let col := (upTo 5).map fun x => (upTo 5).foldl (fun r y => r ^^^ word64 a (x + 5 * y)) 0
  let thetaed := (upTo 25).map fun i =>
    word64 a i ^^^ word64 col ((i % 5 + 4) % 5) ^^^ (word64 col ((i % 5 + 1) % 5)).rotateLeft 1
  let b := (upTo 25).map fun i =>
    let x := (i % 5 + 3 * (i / 5)) % 5
    let j := x + 5 * (i % 5)
    (word64 thetaed j).rotateLeft (keccakRot.getD j 0)
  (upTo 25).map fun i =>
    let y := 5 * (i / 5)
    let r := word64 b i ^^^ (~~~(word64 b (y + (i + 1) % 5)) &&& word64 b (y + (i + 2) % 5))
    if i = 0 then r ^^^ rc else r
/-- The permutation Keccak-f[1600]. -/
def keccak (a : List (BitVec 64)) : List (BitVec 64) := keccakRc.foldl keccakRound a
/-- The output of `blocks` blocks of `rate` bytes. -/
def squeeze (rate : Nat) (a : List (BitVec 64)) : Nat → List Nat
  | 0 => []
  | n + 1 => (a.flatMap fun x => leBytes x.toNat 8).take rate ++ squeeze rate (keccak a) n
/-- The first `blocks` blocks of the SHAKE of a message at a rate in bytes: 168 for SHAKE128, 136 for SHAKE256. -/
def shake (rate : Nat) (msg : List Nat) (blocks : Nat) : List Nat :=
  let zeros := rate - 1 - msg.length % rate
  let padded := if zeros = 0 then msg ++ [0x9F] else msg ++ [0x1F] ++ List.replicate (zeros - 1) 0 ++ [0x80]
  let absorb (a : List (BitVec 64)) (block : List Nat) : List (BitVec 64) :=
    keccak ((upTo 25).map fun i => word64 a i ^^^ BitVec.ofNat 64 (leNat ((block.drop (8 * i)).take 8)))
  squeeze rate ((pieces rate padded (padded.length / rate)).foldl absorb (List.replicate 25 0)) blocks
/-- `n` bytes of SHAKE256, the H of FIPS 204. -/
def shake256 (msg : List Nat) (n : Nat) : List Nat := (shake 136 msg (n / 136 + 1)).take n

/-! ML-DSA-65 (FIPS 204). A polynomial is the list of its 256 coefficients modulo q. -/

/-- The modulus q. -/
def mlQ : Nat := 8380417
/-- A list of numbers of `bits` bits each, packed little-endian (SimpleBitUnpack). -/
def unpackBits (bits n : Nat) (bs : List Nat) : List Nat :=
  let x := leNat bs
  (upTo n).map fun i => x >>> (bits * i) % 2 ^ bits
/-- The eight bits of a number in reverse (BitRev8). -/
def bitRev8 (i : Nat) : Nat := (upTo 8).foldl (fun r b => 2 * r + i >>> b % 2) 0
/-- The root at which slot `i` of the transform evaluates a polynomial: 1753 to the power `2 BitRev8(i) + 1`. -/
def mlRoot (i : Nat) : Nat := powMod mlQ 1753 (2 * bitRev8 i + 1) 9
/-- The transform: the polynomial's values at the 256 roots (7.5). -/
def ntt (f : List Nat) : List Nat :=
  (upTo 256).map fun i =>
    let z := mlRoot i
    f.reverse.foldl (fun r a => (r * z + a) % mlQ) 0
/-- The inverse transform: coefficient `j` is the sum of `f i / root i ^ j` over the slots, divided by 256. -/
def inverseNtt (f : List Nat) : List Nat :=
  let start := (upTo 256).zip f |>.map fun p => (powMod mlQ (mlRoot p.1) (mlQ - 2) 23, p.2)
  let go := (upTo 256).foldl (fun (acc : List Nat × List (Nat × Nat)) _ =>
    (acc.1 ++ [acc.2.foldl (fun r p => (r + p.2) % mlQ) 0], acc.2.map fun p => (p.1, p.2 * p.1 % mlQ))) ([], start)
  let n := powMod mlQ 256 (mlQ - 2) 23
  go.1.map fun x => x * n % mlQ
/-- An entry of the matrix A, already transformed (RejNTTPoly): the accepted numbers of 23 bits of the stream. 16 blocks
give 896 candidates of which all but one in a thousand are accepted; a stream with fewer than 256 gives a short list. -/
def rejNtt (seed : List Nat) : List Nat :=
  let cand := (pieces 3 (shake 168 seed 16) 896).map fun p => leNat p % 2 ^ 23
  (cand.filter fun z => z < mlQ).take 256
/-- The challenge polynomial (SampleInBall): 49 coefficients of ±1. -/
def sampleInBall (seed : List Nat) : List Nat :=
  let stream := shake 136 seed 8
  let signs := leNat (stream.take 8)
  let go := (stream.drop 8).foldl (fun (acc : Nat × List Nat) j =>
    let i := acc.1
    if i < 256 ∧ j ≤ i then
      let c := (acc.2.set i (acc.2.getD j 0)).set j (if signs >>> (i - 207) % 2 = 1 then mlQ - 1 else 1)
      (i + 1, c)
    else acc) (207, List.replicate 256 0)
  go.2
/-- The hint of one row: rising positions (HintBitUnpack). -/
def hintRow : List Nat → Bool
  | a :: b :: r => a < b && hintRow (b :: r)
  | _ => true
/-- The six rows of hint positions, or nothing for a malformed encoding. -/
def hintUnpack (y : List Nat) : Option (List (List Nat)) :=
  let ends := y.drop 55
  let rows := (upTo 6).map fun i =>
    let a := if i = 0 then 0 else ends.getD (i - 1) 0
    (a, ends.getD i 0)
  let cut (r : Nat × Nat) : List Nat := (y.drop r.1).take (r.2 - r.1)
  if (rows.all fun r => r.1 ≤ r.2 && r.2 ≤ 55 && hintRow (cut r)) &&
      ((y.take 55).drop (ends.getD 5 0)).all (· == 0) then some (rows.map cut)
  else none
/-- The high part of a number, corrected by a hint bit (Decompose, UseHint with γ2 = (q-1)/32). -/
def useHint (h : Bool) (r : Nat) : Nat :=
  let g := 523776
  let low := r % g
  let r0 : Int := if low > g / 2 then (low : Int) - g else low
  let r1 : Int := if (r : Int) - r0 = mlQ - 1 then 0 else ((r : Int) - r0) / g
  let r0 := if (r : Int) - r0 = mlQ - 1 then r0 - 1 else r0
  if h then (if r0 > 0 then ((r1 + 1) % 16).toNat else ((r1 + 15) % 16).toNat) else r1.toNat
/-- Pure ML-DSA-65 verification with an empty context (Algorithms 3 and 8). -/
def mldsa65Verify (key msg sig : List Nat) : Bool :=
  let rho := key.take 32
  let t1 := (pieces 320 (key.drop 32) 6).map (unpackBits 10 256)
  let ct := sig.take 48
  let z := (pieces 640 (sig.drop 48) 5).map fun p => (unpackBits 20 256 p).map fun (v : Nat) => (2 ^ 19 : Int) - (v : Int)
  match hintUnpack (sig.drop 3248) with
  | none => false
  | some hint =>
    let mu := shake256 (shake256 key 64 ++ [0, 0] ++ msg) 64
    let c := ntt (sampleInBall ct)
    let zh := z.map fun p => ntt (p.map fun (v : Int) => (v % (mlQ : Int)).toNat)
    let w := (t1.zip (upTo 6)).map fun p =>
      let th := ntt (p.1.map fun v => v * 2 ^ 13 % mlQ)
      let az := (zh.zip (upTo 5)).foldl (fun acc q =>
        List.zipWith (fun r m => (r + m) % mlQ) acc
          (List.zipWith (fun a b => a * b % mlQ) (rejNtt (rho ++ [q.2, p.2])) q.1)) (List.replicate 256 0)
      inverseNtt (List.zipWith (fun a b => (a + mlQ - b) % mlQ) az (List.zipWith (fun a b => a * b % mlQ) c th))
    let w1 := (w.zip hint).map fun p => (p.1.zip (upTo 256)).map fun q => useHint (p.2.contains q.2) q.1
    let packed := w1.flatMap fun p => (pieces 2 p 128).map fun q => leNat (q.take 1) + 16 * leNat (q.drop 1)
    sig.length == 3309 && z.all (fun p => p.all fun (v : Int) => v.natAbs < 2 ^ 19 - 196) && ct == shake256 (mu ++ packed) 48

end Sys2Proof.Machine
end

