-- ==== Sys2Proof/Machine/Streams.lean ====
section
/-!
DEFINITION. Duplex streams: handles, entries and their cursors (R325–R332), truncation (R335), frame faults (R336), and the
stream instructions (R339–R346).
-/
namespace Sys2Proof.Machine

/-! Handles (R326). -/

def shDie (h : Nat) : Nat := bitsOf h 36 5
def shPkg (h : Nat) : Nat := bitsOf h 30 6
def shCore (h : Nat) : Nat := bitsOf h 20 10
def shGen (h : Nat) : Nat := bitsOf h 12 8
def shIdx (h : Nat) : Nat := bitsOf h 0 12
/-- The handle of an entry. -/
def State.streamHandle (s : State) (die idx : Nat) (e : Stream) : Nat :=
  die * 2 ^ 36 + s.pkg * 2 ^ 30 + s.logicalOf e.core * 2 ^ 20 + e.gen % 256 * 2 ^ 12 + idx
def State.stream (s : State) (die idx : Nat) : Stream := SMap.get (s.die die).streams idx {}
def State.onStream (s : State) (die idx : Nat) (f : Stream → Stream) : State :=
  s.onDie die fun d => { d with streams := SMap.set d.streams idx (f (SMap.get d.streams idx {})) }
/-- Whether a handle names an open stream of a die (R326). -/
def State.namesStream (s : State) (die h : Nat) : Bool :=
  let e := s.stream die (shIdx h)
  shPkg h == s.pkg && shDie h == die && ((s.posOf (shCore h)).map posDie) == some die && e.opened && e.gen % 256 == shGen h

/-! Entries (R327–R331). -/

/-- The KV length of owner `k` (R329). -/
def Stream.len (e : Stream) (k : Nat) : Nat := if k < e.n ∧ k ≤ e.g then (e.g - k) / e.n + 1 else 0
/-- The state of an entry (R331). -/
def Stream.state (e : Stream) : Nat :=
  if !e.opened then 0
  else if e.resv.isSome then 3
  else if e.g + 1 < e.cap ∧ (0 < e.pendIn ∨ e.g + 1 - e.p ≤ e.w) then 1
  else 2
/-- Whether a position is reserved. -/
def Stream.reserved (e : Stream) (n : Nat) : Bool :=
  match e.resv with
  | some (q, k, _, _, _) => q ≤ n && n < q + k
  | none => false
/-- The 448 bytes of an entry as `SSTAT` copies them (R327). -/
def State.streamBits (s : State) (die idx : Nat) : Nat :=
  let e := s.stream die idx
  let r := e.resv.getD (0, 0, false, 0, 0)
  let word (i x : Nat) : Nat := x % 2 ^ 64 * 2 ^ (64 * i)
  let head := [s.streamHandle die idx e, e.g, e.p, e.c, e.s,
    e.state + (if e.sec then 8 else 0) + e.w * 16 + (e.n - 1) * 2 ^ 13 + e.eslot * 2 ^ 17 + e.queue.length * 2 ^ 21,
    r.1, r.2.1 + (if r.2.2.1 then 2 ^ 8 else 0) + r.2.2.2.1 * 2 ^ 9 +
      (if e.resv.isSome then s.logicalOf r.2.2.2.2 else 0) * 2 ^ 13,
    e.first, e.pendIn + e.fseq * 2 ^ 16, e.kv + e.glog * 2 ^ 24, e.sn, e.ring, e.z, e.ftag]
  let low := sumList ((List.zip (below head.length) head).map fun p => word p.1 p.2)
  let lens := sumList ((below 16).map fun k => e.len k * 2 ^ (32 * k))
  low + e.tokens.toNat * 2 ^ 1024 + lens * 2 ^ 3072

/-- The owners of a stream, in order (R329). -/
def State.owners (s : State) (e : Stream) : List (Nat × Nat) :=
  (below e.n).filterMap fun k => (s.posOf (e.hcore + k)).map fun c => (k, c)

/-! Events and faults. -/

/-- Sends an event of a stream to each owner (R337): a truncation, or the stream's close. -/
def State.streamEvents (s : State) (die idx : Nat) (close : Bool) : State :=
  let e := s.stream die idx
  let h := s.streamHandle die idx e
  (s.owners e).foldl (fun s o =>
    let payload := if close then 0 else e.g + e.s * 2 ^ 64 + (o.1 + e.len o.1 * 2 ^ 32) * 2 ^ 128
    let x : Entry := { kind := if close then 9 else 8, tag := BitVec.ofNat 64 h, payload := BitVec.ofNat 384 payload
                       taker := e.eslot }
    s.send (36 * die) o.2 urgentClass 2 none (.streamEvent die idx o.1 x close)) s

/-- A frame fault: an active message to the group that opened the stream, or a refusal event (R336). -/
def State.frameFault (s : State) (die idx cause : Nat) (pf seq count : Nat) : State :=
  let e := s.stream die idx
  let h := s.streamHandle die idx e
  let c := e.core
  let key := streamKey h
  let free := (s.core c).resv.any fun r => r.what == forHome && r.num == key
  match (s.core c).groups.find? fun p => e.opener == some (p.2.launch.id, p.2.index) with
  | some (b, _) =>
    if free then
      let payload := h + pf * 2 ^ 64 + (seq + 2 ^ 16 * count) * 2 ^ 128 + e.c * 2 ^ 192 + e.fseq * 2 ^ 256
      let x : Entry := { kind := 1, tag := BitVec.ofNat 64 e.ftag, spkg := s.pkg, score := s.logicalOf c, taker := b
                         payload := BitVec.ofNat 384 payload, fault := some (cause, e.ftag, pf) }
      (s.release c forHome key).fillInbox c x
    else s.count c 10 1
  | none => s.count c 10 1

/-! Replies. -/

/-- The start of the instruction that waits under a reference. -/
def State.startOf (s : State) (c ref : Nat) : Nat := (((s.strand? c ref).bind (·.wait)).map (·.start)).getD 0
/-- A stream table answers a slot. -/
def State.streamReply (s : State) (die c ref : Nat) (w : Word) (v : Vec) (err : Option (Nat × Nat)) : State :=
  let err := err.map fun e => (e.1, s.startOf c ref, e.2)
  s.send (36 * die) c urgentClass (if v = 0 then 1 else 8) none (.reply c ref w v err)

/-! Truncation (R335). -/

/-- Applies one queued item: the entry changes, or a fault follows. The flag says that it was applied. -/
def State.applyItem (s : State) (die idx : Nat) (x : Queued) : State × Bool :=
  let e := s.stream die idx
  let cut (t : Nat) : State := s.onStream die idx fun e =>
    { e with s := e.s + 1, g := t, p := t, pendIn := x.count, first := t + 1, tokens := x.tokens }
  match x.trunc with
  | some (c, ref) =>
    if x.pf < e.c ∨ e.g < x.pf then (s.streamReply die c ref 0 0 (some (causeStreamState, 5)), false)
    else ((cut x.pf).streamReply die c ref 0 0 none, true)
  | none =>
    if x.pf < e.c then (s.frameFault die idx causeLateFrame x.pf x.seq x.count, false) else (cut (min x.pf e.g), true)
/-- At a token boundary the queued items are applied in order; one truncation event follows for each owner if any of them
was applied. -/
def State.applyQueue (s : State) (die idx : Nat) : State :=
  let e := s.stream die idx
  if e.resv.isSome then s
  else
    let late := e.stalled.map fun x => Queued.mk x.2.2 0 0 (some (x.1, x.2.1)) 0
    let s := s.onStream die idx fun e => { e with queue := [], stalled := [] }
    let r := (e.queue ++ late).foldl (fun (acc : State × Bool) x =>
      let y := acc.1.applyItem die idx x
      (y.1, acc.2 || y.2)) (s, false)
    if r.2 then r.1.streamEvents die idx false else r.1

/-- Closes a stream in one step (R342). -/
def State.closeStream (s : State) (die idx : Nat) : State :=
  let e := s.stream die idx
  let h := s.streamHandle die idx e
  let waiting := (e.queue.filterMap (·.trunc)) ++ e.stalled.map fun x => (x.1, x.2.1)
  let s := waiting.foldl (fun s w => s.streamReply die w.1 w.2 0 0 (some (causeStreamState, 1))) s
  let s := (s.streamEvents die idx true).releaseFree e.core forHome (streamKey h)
  s.onStream die idx fun e => { gen := (e.gen + 1) % 256 }

/-! The operations of a stream table (R341–R346). -/

/-- Reserves an inbox entry on every core of a list, or says that one cannot (R254). -/
def State.reserveOn (s : State) (what num : Nat) : List (Nat × Nat) → Option State
  | [] => some s
  | (c, taker) :: r =>
    if (s.core c).canReserve && !(s.core c).contained then (s.reserve c taker what num).reserveOn what num r else none

/-- The descriptor of `SOPEN` is malformed (R341). -/
def openBad (d : Nat) : Bool :=
  let w0 := bitsOf d 0 64
  let z := bitsOf d 128 32
  bitsOf w0 21 43 != 0 || bitsOf w0 8 4 == 15 || bitsOf w0 12 9 == 0 || 256 < bitsOf w0 12 9 || bitsOf d 160 32 != 0 ||
  z % 64 != 0 || z < 64 || 1048576 < z || bitOf d 192 || bitsOf d 232 24 != 0 || bitsOf d 272 48 != 0 || bitsOf d 320 192 != 0

/-- `SOPEN` at the table: a refusal code, or the handle (R341). -/
def State.openStream (s : State) (die c : Nat) (world : Bool) (d : Nat) (kv sn : Cap) (opener : Option (Nat × Nat)) :
    State × Nat :=
  let refuse (code : Nat) : State × Nat := (s, 2 ^ 63 + code)
  let ek := s.objEntry kv.obj
  let es := s.objEntry sn.obj
  let stale (k : Cap) (e : ObjEnt) : Bool := !k.tag || e.kind == 0 || !e.ok || e.gen != k.gen || !k.holds (rR + rW)
  let w := bitsOf d 12 9
  let z := bitsOf d 128 32
  let ring := bitsOf d 64 64
  if openBad d then refuse 4
  else if stale kv ek || ek.kind != kKv || ek.hmode != 1 || 15 < ek.hcnt || ek.hpkg != s.pkg then refuse 2
  else if stale sn es || !(es.kind == kPrivate || es.kind == kKv) || sn.limit < ring + (w + 1) * z then refuse 3
  else
    let used (i : Nat) : Bool := (s.stream die i).opened
    match (below 4096).find? fun i => !used i with
    | none => refuse 1
    | some idx =>
      let e : Stream :=
        { opened := true, gen := (s.stream die idx).gen, core := c, sec := world, w, n := ek.hcnt + 1, hcore := ek.hcore
          eslot := bitsOf d 8 4, fseq := bitsOf d 256 16, kv := kv.obj, glog := ek.glog, cap := ek.len / 2 ^ ek.glog
          sn := sn.obj, ring, z, ftag := bitsOf d 192 40, opener }
      let h := s.streamHandle die idx e
      let os := s.owners e
      if os.length ≠ e.n then refuse 5
      else match (s.reserveOn forStream (streamKey h) (os.map fun o => (o.2, e.eslot))).bind fun s =>
          s.reserveOn forHome (streamKey h) [(c, 99)] with
        | none => refuse 5
        | some s => (s.onStream die idx fun _ => e, h)

/-- The first ready entry at or after the ready cursor that a slot may take (R332). -/
def State.nextReady (s : State) (die : Nat) (world : Bool) : Option (Nat × Stream) :=
  let d := s.die die
  let ok (p : Nat × Stream) : Bool := p.2.state == 1 && (world || !p.2.sec)
  (d.streams.find? fun p => d.cursor ≤ p.1 && ok p).orElse fun _ => d.streams.find? ok

/-- `SNEXT` at the table: all ones, or the handle of the entry reserved (R344). -/
def State.nextStep (s : State) (die c slot want : Nat) (world : Bool) : State × Word :=
  match s.nextReady die world with
  | none => (s, BitVec.allOnes 64)
  | some (idx, e) =>
    let k := min (max want 1) 64
    let q := e.g + 1
    let inp := 0 < e.pendIn
    let k' := if inp then min (min k e.pendIn) (min e.w (e.cap - q)) else 1
    let s := s.onStream die idx fun e =>
      { e with resv := some (q, k', inp, slot % 16, c), c := max e.c (q + k' - 1 - e.w) }
    (s.onDie die fun d => { d with cursor := (idx + 1) % 4096 }, BitVec.ofNat 64 (s.streamHandle die idx e))

/-- `SGEN` at the table, for the holder of the reservation (R344). -/
def State.endStep (s : State) (die idx : Nat) (abandon : Bool) : State × Word :=
  let e := s.stream die idx
  match e.resv with
  | none => (s, 0)
  | some (q, k, inp, _, _) =>
    if abandon ∨ e.queue ≠ [] then
      ((s.onStream die idx fun e => { e with resv := none }).applyQueue die idx, BitVec.allOnes 64)
    else
      let g := q + k - 1
      let done (e : Stream) : Stream :=
        if inp then { e with g, p := g, pendIn := e.pendIn - k, first := e.first + k, tokens := e.tokens >>> (32 * k) }
        else { e with g }
      ((s.onStream die idx fun e => { done e with resv := none }).applyQueue die idx, BitVec.ofNat 64 g)

/-- What the table does for an operation on a named entry (R340, R342–R346). -/
def State.streamOn (s : State) (die idx : Nat) (r : StreamReq) : State :=
  let e := s.stream die idx
  let reply (s : State) (w : Word) : State := s.streamReply die r.core r.slot w 0 none
  let bad (code : Nat) : State := s.streamReply die r.core r.slot 0 0 (some (causeStreamState, code))
  match r.op with
  | .sclose => reply (s.closeStream die idx) 0
  | .sgen abandon =>
    let held := e.resv.any fun x => x.2.2.2 == (r.slot % 16, r.core)
    if held then
      let x := s.endStep die idx abandon
      reply x.1 x.2
    else bad 2
  | .splay n => if n ≤ e.g then reply (s.onStream die idx fun e => { e with p := max e.p n }) 0 else bad 3
  | .scommit n => if e.c ≤ n ∧ n ≤ e.p then reply (s.onStream die idx fun e => { e with c := n }) 0 else bad 4
  | .strunc n =>
    if 16 ≤ e.queue.length then s.onStream die idx fun e => { e with stalled := e.stalled ++ [(r.core, r.slot, n)] }
    else
      (s.onStream die idx fun e => { e with queue := e.queue ++ [⟨n, 0, 0, some (r.core, r.slot), 0⟩] }).applyQueue die idx
  | .ssnap n =>
    if (e.c ≤ n ∧ n ≤ e.g) ∨ e.reserved n then reply s (BitVec.ofNat 64 (e.ring + n % (e.w + 1) * e.z))
    else reply s (BitVec.allOnes 64)
  | .skvaddr n =>
    if n ≤ e.g ∨ e.reserved n then reply s (BitVec.ofNat 64 (n * 2 ^ e.glog)) else reply s (BitVec.allOnes 64)
  | .sstat => s.streamReply die r.core r.slot 0 (BitVec.ofNat 8192 (s.streamBits die idx)) none
  | .sopen _ _ _ => s
  | .snext _ => s
  | .frame _ => s

/-- An operation at its table (R338, R340). -/
def State.streamStep (s : State) (die : Nat) (r : StreamReq) : State :=
  match r.op with
  | .sopen d caps opener =>
    let x := s.openStream die r.core r.world d.toNat (caps.headD ⟨0, false⟩) ((caps.drop 1).headD ⟨0, false⟩) opener
    x.1.streamReply die r.core r.slot (BitVec.ofNat 64 x.2) 0 none
  | .snext want =>
    let x := s.nextStep die r.core r.slot want r.world
    x.1.streamReply die r.core r.slot x.2 0 none
  | _ =>
    let h := r.handle.toNat
    if !s.namesStream die h then s.streamReply die r.core r.slot 0 0 (some (causeStreamState, 1))
    else if (s.stream die (shIdx h)).sec && !r.world then s.streamReply die r.core r.slot 0 0 (some (causeWorld, 0))
    else s.streamOn die (shIdx h) r

/-! The instructions. -/

/-- Sends an operation to the stream table of a die and parks for its answer (R340). -/
def State.askTable (s : State) (die : Nat) (op : StreamOp) (handle : Word) (fin : Fin) (flits : Nat) : State :=
  let ref := s.myRef
  ({ s with pktNum := s.pktNum + 1 }.parkRef .remote ref { fin, left := 1 }).send s.ic (36 * die) urgentClass flits
    (s.acctOf s.ic s.is) (.streamOp die ⟨op, s.ic, ref, handle, s.me.world⟩)
/-- The members that read a handle from g[a]: a handle of no die of this package names no open stream. -/
def State.askStream (s : State) (a : Gpr) (op : StreamOp) (fin : Fin) : State :=
  let h := s.gpr a
  if shDie h.toNat < 24 then s.askTable (shDie h.toNat) op h fin 1 else s.trap causeStreamState s.issue.start 1

/-- The launch and the index of the group whose strand or handler issues; the supervisor's slot has none. -/
def State.myGroup (s : State) : Option (Nat × Nat) := (s.group? s.ic s.me.bank).map fun g => (g.launch.id, g.index)
/-- `SOPEN` (R341). -/
def execSopen (d : Gpr) (a : Vr) (s : State) : Host.Outcome State Fault Refusal :=
  let x := (s.vec a).toNat
  let k (lo : Nat) : Cap := s.cap (BitVec.ofNat 4 (bitsOf x lo 4))
  s.guarded (s.askTable (posDie s.ic) (.sopen (BitVec.ofNat 512 x) [k 0, k 4] s.myGroup) 0 (.word d) 2)
/-- `SCLOSE` (R342). -/
def execSclose (a : Gpr) (s : State) : Host.Outcome State Fault Refusal := s.guarded (s.askStream a .sclose .none)
/-- `SGEN` (R344). -/
def execSgen (d a : Gpr) (s : State) : Host.Outcome State Fault Refusal := s.guarded (s.askStream a (.sgen false) (.word d))
/-- `SGEN.abandon` (R344). -/
def execSgenAbandon (d a : Gpr) (s : State) : Host.Outcome State Fault Refusal :=
  s.guarded (s.askStream a (.sgen true) (.word d))
/-- `SPLAY` (R345). -/
def execSplay (a b : Gpr) (s : State) : Host.Outcome State Fault Refusal :=
  s.guarded (s.askStream a (.splay (s.gpr b).toNat) .none)
/-- `STRUNC` (R345). -/
def execStrunc (a b : Gpr) (s : State) : Host.Outcome State Fault Refusal :=
  s.guarded (s.askStream a (.strunc (s.gpr b).toNat) .none)
/-- `SSNAP` (R346). -/
def execSsnap (d a b : Gpr) (s : State) : Host.Outcome State Fault Refusal :=
  s.guarded (s.askStream a (.ssnap (s.gpr b).toNat) (.word d))
/-- `SKVADDR` (R346). -/
def execSkvaddr (d a b : Gpr) (s : State) : Host.Outcome State Fault Refusal :=
  s.guarded (s.askStream a (.skvaddr (s.gpr b).toNat) (.word d))
/-- `SSTAT` (R346). -/
def execSstat (d : Vr) (a : Gpr) (s : State) : Host.Outcome State Fault Refusal := s.guarded (s.askStream a .sstat (.sstat d))
/-- `SCOMMIT` (R345). -/
def execScommit (a b : Gpr) (s : State) : Host.Outcome State Fault Refusal :=
  s.guarded (s.askStream a (.scommit (s.gpr b).toNat) .none)
/-- `SNEXT` (R344). -/
def execSnext (d a : Gpr) (s : State) : Host.Outcome State Fault Refusal :=
  s.guarded (s.askTable (posDie s.ic) (.snext (s.gpr a).toNat) 0 (.word d) 1)

/-- `SFRAME`: builds a frame from v[a] and waits for its outcome (R343). -/
def execSframe (d : Pr) (a : Vr) (b : Gpr) (s : State) : Host.Outcome State Fault Refusal :=
  let v := (s.vec a).toNat
  let h := bitsOf v 0 64
  let t := bitsOf v 144 8
  let ref := s.myRef
  let f : Frame :=
    { handle := BitVec.ofNat 64 h, pf := bitsOf v 64 64, seq := bitsOf v 128 16, count := t
      bad := 64 < t || bitsOf v 152 360 != 0, tokens := BitVec.ofNat 2048 (bitsOf v 512 (32 * min t 64)), sec := s.me.world
      core := s.ic, slot := ref, host := false }
  s.guarded (
    if shDie h < 24 then
      ({ s with pktNum := s.pktNum + 1 }.parkRef .remote ref { fin := .outcome d b, left := 1 }).send s.ic (36 * shDie h)
        urgentClass (flitsFor (4 * min t 64)) (s.acctOf s.ic s.is) (.frame f)
    else ((s.putPred d 0).putGpr b 2).retire)

end Sys2Proof.Machine
end

