-- ==== Sys2Proof/Machine/EvLaunch.lean ====
section
/-!
DEFINITION. Arrivals of messages and wakes (R252, R259, R268), handler dispatch (R33, R256, R336), the launch sequencer
and the dies (R30, R43, R265, R266, R389), the start of a group (R31, R310), barriers (R267) and energy leases (R358).
-/
namespace Sys2Proof.Machine

/-! Messages and wakes. -/

/-- The launch that has not ended and that a handle's queue and sequence name (R251). -/
def State.launchNamed (s : State) (h : Nat) : Option LRec :=
  (s.launches.find? fun p => p.2.stage != .ended && p.1 % 16 == hQueue h && p.1 / 16 % 64 == hSeq h).map (·.2)

/-- Where a handle leads on a core (R252). -/
inductive Resolved where
  | code (n : Nat)
  | here (b : Nat)
  | swapped (b : Nat)
deriving DecidableEq, Repr

/-- Resolves a handle at its core: 1 not resident, 2 gone, 4 refused, or a Resident group. -/
def State.resolve (s : State) (c : Nat) (m : Mail) (wake : Bool) : Resolved :=
  let h := m.handle.toNat
  if (s.core c).contained then .code 2
  else if hKind h = 3 ∨ (hKind h = 2) ≠ wake then .code 4
  else match s.launchNamed h with
    | none => .code 2
    | some r =>
      let l := r.launch
      let d := posDie c
      if l.strands ≤ hStrand h ∨ (l.world ∧ !m.sec) then .code 4
      else match (s.core c).groups.find? fun p => p.2.launch.id == l.id && p.2.index == hGroup h with
        | some (b, _) =>
          let halted := (s.strandsOf c b).any fun p => p.2.strand == hStrand h && p.2.run == .halted
          if wake ∧ halted then .code 2 else if s.reachable c b then .here b else .swapped b
        | none =>
          let dealtHere (x : Deal) : Bool :=
            x.launch.id == l.id && (below x.left).any fun i => x.first + i * x.stride == hGroup h
          let pendingHere := (s.core c).deals.any dealtHere
          if r.stage = .queued ∨ r.stage = .counted ∨ (r.stage = .dealt ∧ bitOf l.dmask d ∧ !s.hasDealt d l.id) ∨ pendingHere
          then .code 1 else .code 2

/-- The inbox entry of a message. -/
def State.mailEntry (s : State) (m : Mail) (b : Nat) : Entry :=
  { kind := hKind m.handle.toNat, tag := m.tag, sec := m.sec, urgc := m.urgent, payload := m.payload, taker := b
    spkg := if m.core < 864 then s.pkg else (m.core - 864) / 1024
    score := if m.core < 864 then s.logicalOf m.core else (m.core - 864) % 1024, sslot := m.slot % 16 }

/-- The outcome of a message or wake returns to its sender. -/
def State.tellSender (s : State) (c : Nat) (m : Mail) (code : Nat) (wake : Bool) : State :=
  s.send c m.core (if code = 0 then control else urgentClass) 1 none (.outcome m code wake)

/-- `MESSAGE_ARRIVAL`: a message resolves its handle and is delivered, parked or sent back (R252, R259); a launch's completion
fills its reserved entry (R262). -/
def execMessageArrival (s : State) : Host.Outcome State Fault Refusal :=
  .next (match s.packet? (s.arg 0) with
    | some p => match p.body with
      | .mail m =>
        let c := p.dst
        let s := s.dropPacket p.id
        match s.resolve c m false with
        | .code n => s.tellSender c m n false
        | .here b =>
          if (s.core c).freeEntries = 0 then s.tellSender c m 3 false
          else (s.fillInbox c (s.mailEntry m b)).tellSender c m 0 false
        | .swapped b =>
          if ((s.group? c b).map fun g => g.parking.length).getD 16 ≥ 16 then s.tellSender c m 3 false
          else (s.onGroup c b fun g => { g with parking := g.parking ++ [s.mailEntry m b] }).tellSender c m 0 false
      | .done id status energy c slot =>
        let word := min energy (2 ^ 48 - 1) * 2 ^ 16 + status
        let e : Entry := { kind := 3, tag := BitVec.ofNat 64 id, stat := status, taker := slot
                           payload := BitVec.ofNat 384 (word * 2 ^ 64 + id) }
        (s.dropPacket p.id).fillReserved c forLaunch id e
      | _ => s
    | none => s)

/-- `WAKE_ARRIVAL`: the named strand's wake-pending bit is set, in its image too if it is Swapped; a strand in `PARK`
or idle in `YIELD` goes on (R268). -/
def execWakeArrival (s : State) : Host.Outcome State Fault Refusal :=
  .next (match s.packet? (s.arg 0) with
    | some p => match p.body with
      | .wake m =>
        let c := p.dst
        let s := s.dropPacket p.id
        let put (b : Nat) : State :=
          let set (t : Slot) : Slot :=
            if t.bank == b && t.strand == hStrand m.handle.toNat then { t with wake := true, idle := 0 } else t
          let mine (n : Nat) : Bool := ((s.group? c b).map fun g => g.slots.contains n).getD false
          let image (s : State) (t : Slot) : State :=
            if t.bank == b && t.strand == hStrand m.handle.toNat then s.writeMem (vaultLoc c (t.ctxbase + 0x8368)) 1 8 else s
          let s := ((s.core c).swapped.map (·.2)).foldl image s
          let s := s.onCore c fun k =>
            { k with slots := k.slots.map (fun q => if mine q.1 && q.2.run != .swapped then (q.1, set q.2) else q)
                     swapped := k.swapped.map fun q => (q.1, set q.2) }
          (s.pokeInbox c).tellSender c m 0 true
        match s.resolve c m true with
        | .code n => s.tellSender c m n true
        | .here b => put b
        | .swapped b => put b
      | _ => s
    | none => s)

/-- `NAK_ARRIVAL`: the outcome of a message reaches its sender: the parked `SEND` ends, or the posted one is performed, and
*not resident* raises a trap before the strand's next instruction (R72, R259, R268). -/
def execNakArrival (s : State) : Host.Outcome State Fault Refusal :=
  .next (match s.packet? (s.arg 0) with
    | some p => match p.body with
      | .outcome m code _ =>
        let s := s.dropPacket p.id
        let c := m.core
        match m.posted with
        | none => s.arriveWord c m.slot (BitVec.ofNat 64 code) none
        | some num =>
          let raise : Raise := ⟨causeNotResident, m.start, m.handle.toNat, 0, false, 0, 0⟩
          let settle (t : Slot) : Slot :=
            if t.posted.any fun x => x.num == num then
              { t with posted := t.posted.filter (fun x => x.num != num)
                       later := if code = 1 then t.later ++ [raise] else t.later }
            else t
          let s := s.onCore c fun k =>
            { k with slots := k.slots.map (fun q => (q.1, settle q.2)), swapped := k.swapped.map fun q => (q.1, settle q.2) }
          let s := if code ≥ 2 then s.count c 10 1 else s
          (s.releaseHeld c (m.slot % 16)).pokeAgain c .remote
      | _ => s
    | none => s)

/-! Handlers (R33, R256, R336). -/

/-- The seed of a strand that starts (R90). -/
def State.startSeed (s : State) (c n : Nat) : Word :=
  0x9E3779B97F4A7C15#64 ^^^ BitVec.ofNat 64 (s.logicalOf c * 65536 + n)
/-- The image that group start assigns to a slot (R187). -/
def imageAt (n : Nat) : Nat := 0x7FCFC000 + n * 0xA000
/-- A slot's frame and side log start empty. -/
def State.clearFrame (s : State) (c n : Nat) : State := s.zeroMem (vaultLoc c (imageAt n + 0x8400)) 0x1C00

/-- Whether a handler slot is free. -/
def State.handlerFree (s : State) (c n : Nat) : Bool := (s.slot c n).run == .empty
/-- The message that dispatch takes next on a core, and the slot it goes to. -/
def State.dispatchable (s : State) (c : Nat) : Option (Entry × Nat) :=
  match (s.core c).inbox.find? (fun e => e.kind == 1), [13, 14].find? (s.handlerFree c) with
  | some e, some n => some (e, n)
  | _, _ => none

/-- The stream table entry that a frame fault's handle names still has its stream. -/
def State.streamLives (s : State) (h : Nat) : Bool := s.namesStream (shDie h) h

/-- `HANDLER_DISPATCH` (R33): the handler starts with the registers of R256; one for a frame fault is Trapped before its first
instruction (R336). -/
def execHandlerDispatch (s : State) : Host.Outcome State Fault Refusal :=
  let c := s.arg 0
  .next (match s.dispatchable c with
    | none => s
    | some (e, n) =>
      let s := s.onCore c fun k => { k with inbox := delFirst (fun x => x == e) k.inbox }
      let h := bitsOf e.payload.toNat 0 64
      let s := if e.fault.isSome && s.streamLives h then s.reserve c 99 forHome (streamKey h) else s
      let s := ((s.unpark c).pokeInbox c).putAway c n
      match s.group? c e.taker with
      | none => s
      | some g =>
        let l := g.launch
        let w (i : Nat) : Word := BitVec.ofNat 64 (bitsOf e.payload.toNat (64 * i) 64)
        let regs : SMap Word :=
          if e.fault.isSome then (below 5).map fun i => (i + 1, w i)
          else (1, BitVec.ofNat 64 (bitsOf e.bits.toNat 64 64)) :: (below 6).map fun i => (i + 2, w i)
        let t : Slot :=
          { Slot.fresh n with run := .running, pc := e.tag.toNat, code := l.code, g := regs, k := List.zip (below 4) l.args
                              group := g.index, launch := l.id, world := l.world, prio := l.prio, bank := e.taker
                              seed := s.startSeed c n, ctxbase := imageAt n, based := true }
        let s := (s.setSlot c n t).clearFrame c n
        let s := s.onCore c fun k => { k with tlb := k.tlb.filter fun x => x.slot != n }
        match e.fault with
        | none => s
        | some (cause, addr, value) => s.raiseAt c n cause addr value e.tag.toNat false)

/-! Submission (R265). -/

/-- A capability that the table as it stands bears out: tagged, of the object's generation. -/
def State.fresh (s : State) (k : Cap) : Bool :=
  k.tag && (if k.obj = aliasObj then k.gen == 0 else
    (s.objEntry k.obj).ok && (s.objEntry k.obj).kind != 0 && (s.objEntry k.obj).gen == k.gen)
/-- The count capability serves (code 6). -/
def State.countOk (s : State) (k : Cap) : Bool :=
  let e := s.objEntry k.obj
  s.fresh k && k.holds rR && k.base % 8 == 0 && k.base + 8 ≤ k.limit && k.base + 8 ≤ e.len && e.kind == kShared
/-- The code capability and the entry serve (code 7). -/
def State.codeOk (s : State) (k : Cap) (entry : Nat) : Bool :=
  let e := s.objEntry k.obj
  s.fresh k && k.holds (rX + rG) && e.kind == kCode && entry % 2 == 0 && k.base ≤ entry && entry + 2 ≤ k.limit
/-- The lowest refusal code that applies, if one does. -/
def State.submitCode (s : State) (l : Launch) (world bad : Bool) : Option Nat :=
  let checks : List (Nat × Bool) :=
    [(1, l.strands < 1 || (if l.paired then 6 else 12) < l.strands), (2, l.swz == 7), (3, 1572864 < l.scratch),
     (4, (l.dmask == 0 || l.qmask == 0) && (l.indirect || l.groups != 0)), (5, l.world && !world),
     (6, l.indirect && !s.countOk l.count), (7, !s.codeOk l.code l.entry),
     (8, l.args.any fun k => k.tag && (!s.fresh k || !k.holds rG)), (9, bad)]
  (checks.find? (·.2)).map (·.1)

/-- The answer to a submission: to the slot that waits, or into the result of the host link's slot of queue `q`. -/
def State.answerLaunch (s : State) (core ref : Nat) (host : Option Nat) (q : Nat) (w : Word) : State :=
  match host with
  | none => s.send 0 core urgentClass 1 none (.reply core ref w 0 none)
  | some k => s.onLink k fun x => { x with results := SMap.set x.results q (w ||| 0x4000000000000000), busy := setDel x.busy q }

/-- `SUBMISSION_ARRIVAL`: the sequencer checks a submission and refuses it or lets it wait for its queue (R265). -/
def execSubmissionArrival (s : State) : Host.Outcome State Fault Refusal :=
  .next (match s.packet? (s.arg 0) with
    | some p => match p.body with
      | .submit l core ref host world bad =>
        let s := s.dropPacket p.id
        match s.submitCode l world bad with
        | some code =>
          let s := if host.isNone then s.releaseFree core forLaunch ref else s
          s.answerLaunch core ref host l.queue (BitVec.ofNat 64 (2 ^ 63 + code))
        | none => { s with submissions := s.submissions ++ [(l.queue, p)] }.now .launchAccept [l.queue]
      | _ => s
    | none => s)

/-- Launches of a queue that have not ended. -/
def State.unended (s : State) (q : Nat) : List (Nat × LRec) :=
  s.launches.filter fun p => p.1 % 16 == q && p.2.stage != .ended
/-- A queue can accept its next sequence (R251, R265), and staged start is over (R34, R393). -/
def State.queueRoom (s : State) (q : Nat) : Bool :=
  let seq := SMap.get s.nextSeq q 0
  s.mgmt.stg == 2 && s.mgmt.starting.isEmpty && (s.unended q).length < 32 &&
    !(s.unended q).any fun p => p.1 / 16 + 64 == seq

/-- `LAUNCH_ACCEPT`: the oldest waiting submission of a queue gets its sequence once the queue has room (R265). -/
def execLaunchAccept (s : State) : Host.Outcome State Fault Refusal :=
  let q := s.arg 0
  .next (if !s.queueRoom q then s
    else match s.submissions.find? fun x => x.1 == q with
      | none => s
      | some x =>
        let s := { s with submissions := delFirst (fun y => y.1 == q) s.submissions }
        match x.2.body with
        | .submit l core ref host _ _ =>
          let seq := SMap.get s.nextSeq q 0
          let id := seq * 16 + q
          let r : LRec := { launch := { l with id, queue := q }, core, slot := ref % 16, host, quota := l.quota }
          let s := { s with nextSeq := SMap.set s.nextSeq q (seq + 1), launches := SMap.set s.launches id r }
          let s := if host.isNone then s.onCore core fun k =>
              { k with resv := updFirst (fun v => v.what == forLaunch && v.num == ref) (fun v => { v with num := id }) k.resv }
            else s
          s.answerLaunch core ref host q (BitVec.ofNat 64 id)
        | _ => s)

/-! The sequencer (R30, R266). -/

/-- The launch has ended: its completion goes to the launcher's inbox, or waits for the host's ring (R43, R389). -/
def State.launchEnds (s : State) (id : Nat) : State :=
  match s.launch? id with
  | none => s
  | some r => match r.host with
    | none =>
      let s := s.onLaunch id fun r => { r with stage := .ended }
      (s.send 0 r.core control 1 none (.done id r.status (r.spent / 1000) r.core r.slot)).settleBarriers id
    | some k => (s.onLaunch id fun r => { r with ringWait := true }).now .completionRingWrite [k]

/-- The earlier launches of a queue have been dealt, and those the dependence mask names have ended (R30). -/
def State.mayCount (s : State) (r : LRec) : Bool :=
  let q := r.launch.queue
  let seq := r.launch.id / 16
  let earlier := (s.unended q).all fun p => seq ≤ p.1 / 16 || p.2.stage == .dealt
  let named := (below 16).all fun i =>
    !bitOf r.launch.deps i || seq < i + 1 || !(s.unended q).any fun p => p.1 / 16 + i + 1 == seq
  earlier && named
/-- The queue's launch that is next to be counted. -/
def State.headOf (s : State) (q : Nat) : Option LRec :=
  ((s.unended q).find? fun p => p.2.stage == .queued || p.2.stage == .counted).map (·.2)

/-- A Counted launch with its number of groups becomes Dealt: one packet to every die, or the end at once (R30, R266). -/
def State.dealOut (s : State) (id g : Nat) : State :=
  let s := s.onLaunch id fun r => { r with stage := .dealt, launch := { r.launch with groups := g } }
  match s.launch? id with
  | none => s
  | some r =>
    if g = 0 then s.launchEnds id
    else ((below 24).filter (bitOf r.launch.dmask)).foldl (fun s d =>
      (below 4).foldl (fun s _ => s.send 0 (36 * d) control 1 none (.launchPkt r.launch d)) s) s

/-- Every log has compacted what the count read acquires; the sequencer learns of it without packets (R266, assumption 6). -/
def State.countSeen (s : State) (r : LRec) : Bool := r.want.all fun w => w.2 ≤ (s.core w.1).log.comp

/-- The sequencer reads an indirect count at its home, through that core's vault agent (R16, R266). -/
def State.askCount (s : State) (r : LRec) : State :=
  let k := r.launch.count
  let h := s.siteOf k.obj k.base
  let p : Piece := { key := 0, off := k.base, addr := h.2, n := 8 }
  (s.onLaunch r.launch.id fun r => { r with asked := true }).send 0 h.1 urgentClass 1 none
    (.fetch ⟨0, countCmd + r.launch.id, 0, 0, k.obj, k.gen, true, [p]⟩)
/-- The count has come, or a status that ends the launch. -/
def State.countCame (s : State) (id g status : Nat) : State :=
  let status := if status = 0 ∧ 2 ^ 32 ≤ g then 3 else status
  if (s.launch? id).any fun r => r.stage == .counted then
    if status = 0 then s.dealOut id g else (s.onLaunch id fun r => { r with status }).launchEnds id
  else s

/-- `LAUNCH_COUNTED`: the head of a queue becomes Counted; an indirect one reads its count once it has acquired (R30,
R266). The event comes again when the count has been read. -/
def execLaunchCounted (s : State) : Host.Outcome State Fault Refusal :=
  .next (if s.arg 1 = 1 then s.countCame (s.arg 0) (s.arg 2) (s.arg 3)
    else match s.headOf (s.arg 0) with
    | none => s
    | some r =>
      let id := r.launch.id
      let step (s : State) (r : LRec) : State :=
        if !r.launch.indirect then s.dealOut id r.launch.groups
        else if r.asked || !s.countSeen r then s
        else s.askCount r
      if r.stage = .queued then
        if !s.mayCount r then s
        else
          let want := if r.launch.indirect then s.logical.map fun w => (w, (s.core w).log.pubPkg) else []
          let r := { r with stage := .counted, want }
          step (s.onLaunch id fun _ => r) r
      else if r.ringWait then s
      else step s r)

/-- `LAUNCH_PACKET_ARRIVAL`: with the fourth control packet a die deals, and eight clocks later the groups are Pending
(R266, R295). -/
def execLaunchPacketArrival (s : State) : Host.Outcome State Fault Refusal :=
  .next (match s.packet? (s.arg 0) with
    | some p => match p.body with
      | .launchPkt l d =>
        let s := s.dropPacket p.id
        let have_ := (((s.die d).packets.find? fun x => x.1 == l.id).map (·.2)).getD 0 + 1
        let others (x : Die) : List (Nat × Nat) := x.packets.filter fun y => y.1 != l.id
        if have_ = 4 then (s.onDie d fun x => { x with packets := others x }).after 8 .groupsPending [d, l.id]
        else s.onDie d fun x => { x with packets := others x ++ [(l.id, have_)] }
      | _ => s
    | none => s)

/-- `GROUPS_PENDING`: the groups of a die become Pending on their cores (R35, R266); those of contained cores end at once
(R44), and a die without groups reports (R43). -/
def execGroupsPending (s : State) : Host.Outcome State Fault Refusal :=
  let d := s.arg 0
  let id := s.arg 1
  .next (match s.launch? id with
    | none => s
    | some r =>
      if s.hasDealt d id then s
      else
        let order := s.cycle * 16 + r.launch.queue
        let s := s.onDie d fun x => { x with dealt := x.dealt ++ [(id, order)] }
        let place (s : State) (g : Nat × Nat × Nat × Nat) : State :=
          if (s.core g.1).contained then s.dieCount d id g.2.2.2 1
          else s.onCore g.1 fun k => { k with deals := k.deals ++ [⟨r.launch, g.2.1, g.2.2.1, g.2.2.2, order⟩] }
        let s := (s.dealOn r.launch d).foldl place s
        let s := if dieGroups r.launch d = 0 then s.send (36 * d) 0 control 1 none (.dieReport id d 0 0) else s
        s.settleBarriers id)

/-! The start of a group (R31, R310). -/

/-- The 32 bytes that a starting group's scratch entry holds (R306, R310). -/
def scratchEntry (gen swz base len core pkg : Nat) (sec : Bool) : Nat :=
  (swz * 8192 + (if sec then 2048 else 0) + kScratch * 256 + gen % 256) + len * 2 ^ 64 +
    (pkg * 2 ^ 28 + core * 256) * 2 ^ 128 + base * 2 ^ 192

/-- A strand as its group's start leaves it (R31): Running, or Paused at once while urgent work runs, when every slot but the
supervisor's is (R32, R39, assumption 32). The trailing copy of a pair starts with the seed of its leading copy's slot:
the spec gives a strand's seed by its `SLOT` and does not say which of the two slots it means, and the two copies must round
alike (R90, assumption 66). What the slot showed of an earlier strand stays in that strand's image (R131). -/
def State.startStrand (s : State) (c b n j : Nat) (l : Launch) (index : Nat) (lead trail : Bool) : State :=
  let s := s.putAway c n
  let t : Slot :=
    { Slot.fresh n with run := if (s.core c).urged then .paused else .running
                        pc := l.entry, code := l.code, g := [(1, l.arg)], k := List.zip (below 4) l.args
                        strand := j, group := index, launch := l.id, world := l.world, prio := l.prio, bank := b, lead, trail
                        seed := s.startSeed c (if trail then n - 8 else n), ctxbase := imageAt n, based := true }
  (s.setSlot c n t).clearFrame c n

/-- `GROUP_START`: the first Pending group of a core takes its slots, frame and allocation (R31, R36, R310). -/
def execGroupStart (s : State) : Host.Outcome State Fault Refusal :=
  let c := s.arg 0
  .next (match s.startable c with
    | none => s
    | some (d, b, slots, base) =>
      let l := d.launch
      let rest (x : Deal) : Deal := { x with first := x.first + x.stride, left := x.left - 1 }
      let s := s.onCore c fun k =>
        { k with deals := (updFirst (fun x => x == d) rest k.deals).filter fun x => x.left != 0 }
      let room := l.room
      let trails := if l.paired then slots.map (· + 8) else []
      let g : Group := { launch := l, index := d.first, slots := slots ++ trails, base, len := room, settled := false }
      let s := (s.zeroMem (scratchLoc c base) room).zeroMem (vaultLoc c (0x7FC6C000 + b * 0x9000)) 0x9000
      let s := s.onCore c fun k => { k with groups := SMap.set k.groups b g }
      let s := (List.zip (below slots.length) slots).foldl (fun s p =>
        let s := s.startStrand c b p.2 p.1 l d.first l.paired false
        if l.paired then s.startStrand c b (p.2 + 8) p.1 l d.first false true else s) s
      let leases (k : Core) : List Lease :=
        if k.leases.any fun e => e.launch == l.id then
          updFirst (fun e => e.launch == l.id) (fun e => { e with dry := false }) k.leases
        else k.leases ++ [{ launch := l.id }]
      let s := s.onCore c fun k =>
        { k with tlb := k.tlb.filter (fun x => !g.slots.contains x.slot), leases := leases k }
      let off := s.scratchObj c b * 64
      let gen := s.tableWord off 1 + 1
      let e := scratchEntry gen l.swz base room (s.logicalOf c) s.pkg l.world
      s.sendPut c off e 32 false (some (c, b)))

/-! Reports and completions (R43, R359, R389). -/

/-- `DIE_REPORT`: a die's groups have ended; with the last die the launch ends (R43). -/
def execDieReport (s : State) : Host.Outcome State Fault Refusal :=
  .next (match s.packet? (s.arg 0) with
    | some p => match p.body with
      | .dieReport id d spent status =>
        let s := (s.dropPacket p.id).onLaunch id fun r =>
          { r with reported := setIns r.reported d, spent := r.spent + spent, status := max r.status status }
        match s.launch? id with
        | none => s
        | some r =>
          if r.stage = .dealt ∧ (below 24).all fun d => !bitOf r.launch.dmask d || r.reported.contains d then s.launchEnds id
          else s
      | _ => s
    | none => s)

/-- The ring of a link has room for an entry (R389). -/
def Link.ringRoom (l : Link) : Bool := (l.head + 1) % 256 != l.tail % 256
/-- `COMPLETION_RING_WRITE`: a host launch's completion is written at the head of its link's ring, which moves on, and the
launch has ended (R389). -/
def execCompletionRingWrite (s : State) : Host.Outcome State Fault Refusal :=
  let k := s.arg 0
  .next (match s.launches.find? fun p => p.2.ringWait && p.2.host == some k && p.2.stage != .ended with
    | none => s
    | some (id, r) =>
      if !(s.link k).ringRoom then s
      else
        let word := min (r.spent / 1000) (2 ^ 48 - 1) * 2 ^ 16 + r.status
        let e : Entry := { kind := 3, tag := BitVec.ofNat 64 id, stat := r.status, payload := BitVec.ofNat 384 (word * 2 ^ 64 + id) }
        let s := s.onLink k fun l =>
          { l with ring := SMap.set l.ring l.head e.bits, head := (l.head + 1) % 256, msix := 0 :: l.msix }
        (s.onLaunch id fun r => { r with stage := .ended, ringWait := false }).settleBarriers id)

/-! Barriers (R267, R356). -/

/-- `BARRIER_ARRIVAL`: an arrival is recorded; the last one of the episode releases it. Another package's arrival carries its
sum. -/
def execBarrierArrival (s : State) : Host.Outcome State Fault Refusal :=
  .next (match s.packet? (s.arg 0) with
    | some p => match p.body with
      | .barrier launch level core ref sum w =>
        let s := s.dropPacket p.id
        let away := 864 ≤ core
        let unit := if away then 0 else barrierUnit level core
        let mine (b : Barrier) : Bool := b.launch == launch && b.level == level && b.unit == unit && b.sum == sum
        let bs := if s.barriers.any mine then s.barriers
          else s.barriers ++ [{ launch := launch, level := level, unit := unit, sum := sum }]
        let add (b : Barrier) : Barrier :=
          { b with arrived := b.arrived ++ [(core, if away then w.toNat else ref)], total := if away then b.total else b.total + w }
        let s := { s with barriers := updFirst mine add bs }
        match s.barriers.find? mine with
        | some b => s.settleBarrier b
        | none => s
      | _ => s
    | none => s)

/-! Energy leases (R358). -/

/-- `ENERGY_LEASE_REQUEST`: the sequencer debits a lease from the launch's quota. -/
def execEnergyLeaseRequest (s : State) : Host.Outcome State Fault Refusal :=
  .next (match s.packet? (s.arg 0) with
    | some p => match p.body with
      | .leaseAsk id c =>
        let units := min 65536 (((s.launch? id).map (·.quota)).getD 0)
        let s := (s.dropPacket p.id).onLaunch id fun r => { r with quota := r.quota - units }
        s.send 0 c control 1 none (.lease id c units)
      | _ => s
    | none => s)

/-- `ENERGY_LEASE_GRANT`: the lease pays the core's balance, or returns to the quota where the launch's last group on the core has
ended meanwhile (R359); without one the launch's strands on the core trap at their next
boundary (R44, R358). -/
def execEnergyLeaseGrant (s : State) : Host.Outcome State Fault Refusal :=
  .next (match s.packet? (s.arg 0) with
    | some p => match p.body with
      | .lease id c units =>
        let s := s.dropPacket p.id
        let pay (e : Lease) : Lease :=
          if e.launch == id then { e with balance := e.balance + units * 1000, asked := false, dry := units == 0 } else e
        let held := (s.core c).leases.any fun e => e.launch == id
        let s := if held then s.onCore c fun k => { k with leases := k.leases.map pay }
          else s.onLaunch id fun r => { r with quota := r.quota + units }
        if units ≠ 0 then s
        else
          let raise : Raise := ⟨causeEnergy, 0, 0, 0, false, 0, 0⟩
          let mine (t : Slot) : Bool := (s.group? c t.bank).any fun g => g.launch.id == id
          let stop (n : Nat) (t : Slot) : Slot :=
            let strand := mine t && !t.trail && n < 13 && t.run != .empty && t.run != .halted
            if strand then { t with later := t.later ++ [raise] } else t
          s.onCore c fun k =>
            { k with slots := k.slots.map (fun q => if q.2.run = .swapped then q else (q.1, stop q.1 q.2))
                     swapped := k.swapped.map fun q => (q.1, stop q.1 q.2) }
      | _ => s
    | none => s)

end Sys2Proof.Machine
end

