-- ==== Sys2Proof/Machine/EvLink.lean ====
section
/-!
DEFINITION. Tracks and links: which flit a transmitter sends (R297), reception and forwarding (R298, R299), retry (R300),
the death of a track or a link (R301, R302).
-/
namespace Sys2Proof.Machine

/-! Losing a packet (R302). -/

/-- The instruction that waits under a reference ends in `LINK_LOST`: no route reaches what it waits for. -/
def State.loseWait (s : State) (c ref : Nat) : State := s.arriveWord c ref 0 (some (causeLinkLost, s.startOf c ref, 2))
/-- What the sender of a message learns. -/
def State.loseMail (s : State) (m : Mail) : State :=
  match m.posted with
  | some num => s.tell m.core (.performed m.core (m.slot % 16) num true)
  | none => s.loseWait m.core m.slot

/-- An acquire of which a packet is lost ends, and a later one of its core that waits behind it for that writer asks it
(R64). -/
def State.loseAcquire (s : State) (c ref w : Nat) : State :=
  ((s.onCore c fun k => { k with acqs := k.acqs.filter fun q => q.slot != ref }).loseWait c ref).nextAcquire c w
/-- Nobody will learn that a table write has settled: the operation that waits for it ends. -/
def State.loseWrite (s : State) (id : Nat) : State :=
  match s.writes.find? fun w => w.id == id with
  | none => s
  | some w =>
    let s := { s with writes := updFirst (fun x => x.id == id) (fun x => { x with waiter := none, posted := none }) s.writes }
    let s := match w.waiter with
      | some (c, ref, _) => s.loseWait c ref
      | none => s
    match w.posted with
    | some (c, n, num) => s.tell c (.performed c n num true)
    | none => s
/-- A launch will never be known to end: the strands of its launcher's core that wait to `JOIN` it end their wait. -/
def State.loseLaunch (s : State) (id : Nat) : State :=
  match s.launch? id with
  | none => s
  | some r => if r.host.isSome then s else (below 16).foldl (fun s n => match (s.slot r.core n).wait with
      | some w => match w.fin with
        | .join _ l => if l = id then s.loseWait r.core (strandRef n w.ticket) else s
        | _ => s
      | none => s) s

/-- What waits on a packet that no route can carry ends (R302): a wait with `LINK_LOST`, a command with status 4; an entry on
its way home is treated as one that its home refuses. A multicast's packet fails for every core that it still goes to. -/
def State.loseOne (s : State) (p : Packet) : State :=
  match p.body with
  | .req r => s.refuse r.core r causeLinkLost 2
  | .lineReply r _ _ _ => s.refuse r.core r causeLinkLost 2
  | .retry r => s.refuse r.core r causeLinkLost 2
  | .reply c ref _ _ _ => s.loseWait c ref
  | .performed c n num _ => s.tell c (.performed c n num true)
  | .logAck c pos h again => s.tell c (.logAck c pos h again)
  | .acqQuery c ref _ w => s.loseAcquire c ref w
  | .acqAnswer c ref w _ _ => s.loseAcquire c ref w
  | .logQuery c ref _ _ => s.loseWait c ref
  | .mail m => s.loseMail m
  | .wake m => s.loseMail m
  | .outcome m _ _ => s.loseMail m
  | .urg c ref _ _ _ => s.loseWait c ref
  | .submit _ c ref host _ _ => if host.isSome then s else (s.releaseFree c forLaunch ref).loseWait c ref
  | .launchPkt l _ => s.loseLaunch l.id
  | .dieReport id _ _ _ => s.loseLaunch id
  | .done id _ _ _ _ => s.loseLaunch id
  | .barrier _ _ c ref _ _ => s.loseWait c ref
  | .leaseAsk _ _ => s
  | .lease _ _ _ => s
  | .segment c num key _ _ _ _ _ =>
    if p.targets.isEmpty then s.tell c (.segAck c num key 0 4)
    else p.targets.foldl (fun s h => s.tell c (.segAck c num (key + h.1) 0 4)) s
  | .segAck c num key _ _ => s.tell c (.segAck c num key 0 4)
  | .descriptor c => s.collEnd c 4 0
  | .fetch f => s.tell f.core (.fetched f [] [] 4)
  | .fetched f _ _ _ => s.tell f.core (.fetched f [] [] 4)
  | .collDone c num _ n => s.tell c (.collDone c num 4 n)
  | .partGone _ => s
  | .shootdown id _ _ => s.loseWrite id
  | .shootAck id _ => s.loseWrite id
  | .marker _ _ => s
  | .drained _ => s
  | .page _ _ _ _ _ _ => s
  | .frame f => if f.host then s else s.loseWait f.core f.slot
  | .frameReply f _ => if f.host then s else s.loseWait f.core f.slot
  | .streamOp _ r => s.loseWait r.core r.slot
  | .streamEvent _ _ _ _ _ => s
  | .nak _ => s
  | .endAck _ => s
/-- A migration that can no longer end: what its two homes hold back for it is lost too. -/
def State.loseMig (s : State) (id : Nat) : State :=
  match s.migs.find? fun m => m.id == id with
  | none => s
  | some m =>
    let s := { s with migs := updFirst (fun x => x.id == id) (fun x => { x with held := [], back := [] }) s.migs }
    (m.held ++ m.back).foldl (fun s i => match s.packet? i with
      | some q => (s.dropPacket i).loseOne q
      | none => s) s
/-- A packet that no route can carry is lost (R302): with a NAK the packet in it, and with a piece of a page what waits for
the page. -/
def State.lose (s : State) (p : Packet) : State :=
  let s := (s.dropPacket p.id).loseOne p
  match p.body with
  | .nak id => match s.packet? id with
    | some q => (s.dropPacket id).loseOne q
    | none => s
  | .marker m _ => s.loseMig m
  | .drained m => s.loseMig m
  | .page m _ _ _ _ _ => s.loseMig m
  | _ => s

/-! Putting a packet on a track. -/

/-- The direction of a packet's route on from a position, if a live link takes it (R299, R302): the other coordinate order goes
round a dead link. -/
def State.liveDir (s : State) (at_ src dst : Nat) : Option Nat :=
  match nextDir at_ src dst false, nextDir at_ src dst true with
  | some a, some b => if !s.linkDead at_ a then some a else if !s.linkDead at_ b then some b else none
  | _, _ => none
def State.liveTrack (s : State) (at_ src dst : Nat) : Option Nat :=
  (s.liveDir at_ src dst).map fun a => s.trackFor at_ a src dst
/-- The same, for a packet that still waits at the end of a track: one that its core has not yet sent stays on the core's own
link. -/
def State.liveFrom (s : State) (t src dst : Nat) : Option Nat :=
  if trackDir t = 4 then
    if s.linkDead (trackPos t) 4 then none else some (s.trackFor (trackPos t) 4 src dst)
  else s.liveTrack (trackPos t) src dst

/-- The upstream track's receiver sends a packet's later flits on by another track. -/
def State.repoint (s : State) (x : TxPkt) (t : Nat) : State :=
  match x.via with
  | none => s
  | some u => s.onTrack u fun k =>
    { k with partials := k.partials.map fun p => if p.2.1 = x.pkt && !x.copy then (p.1, (x.pkt, t + 1)) else p
             copies := k.copies.map fun p => if p.2.1 = x.pkt then (p.1, x.pkt, t) else p }
/-- The track that a flit's credit returns to when it has gone on: a copy's flits hold no place of their own (assumption 88). -/
def TxPkt.creditTo (x : TxPkt) : Option Nat := if x.copy then none else x.via

/-- A packet that waits at a track takes the next live track of its route, or is lost. -/
def State.requeue (s : State) (t : Nat) (x : TxPkt) : State :=
  match s.packet? x.pkt with
  | none => s.giveCredit x.creditTo x.cls (x.avail - x.sent)
  | some p => match s.liveFrom t p.src p.dst with
    | some u => (s.onTrack u fun k => { k with queue := k.queue ++ [x] }).repoint x u
    | none => (s.giveCredit x.creditTo x.cls x.avail).lose p
/-- The packets that wait at a dead track move on. -/
def State.moveOn (s : State) (t : Nat) : State :=
  let q := (s.track t).queue
  q.foldl (fun s x => s.requeue t x) (s.onTrack t fun k => { k with queue := [] })
/-- A packet goes out whole from its source, by a live track. -/
def State.goOut (s : State) (p : Packet) : State :=
  s.requeue (s.firstTrack p.src p.dst) ⟨p.id, p.flits, 0, p.cls, p.flits, none, false⟩

/-! Transmission (R297). -/

/-- The packet of a class whose flit could go next: the open one, else the first that waits; the receiver must hold credit
for it. -/
def Track.candidate (k : Track) (cls : Nat) : Option TxPkt :=
  let mine := k.queue.filter fun x => x.cls == cls
  let pick := (mine.find? fun x => x.sent != 0).orElse fun _ => mine.head?
  pick.filter fun x => x.sent < x.avail && SMap.get k.credit cls 0 < linkCredit cls
/-- The packet whose flit goes next (R297). -/
def Track.next (k : Track) : Option TxPkt :=
  let b := k.candidate bulk
  let u := k.candidate urgentClass
  let c := k.candidate control
  if b.isSome ∧ 31 ≤ k.nonBulk then b
  else if c.isSome ∧ !k.lastCtl then c
  else if u.isSome then u
  else if c.isSome then c
  else b
/-- A packet of a lower class stands open on a track (R295). -/
def Track.openBelow (k : Track) (cls : Nat) : Bool := k.queue.any fun x => x.sent != 0 && decide (x.cls < cls)

/-- Whether a track crosses to another die. -/
def crosses (t : Nat) : Bool := posDie (trackPos t) != posDie (hopTo (trackPos t) (trackDir t))
/-- The clocks from a flit's transmission to its reception: one over a mesh hop or a local port, five over a die crossing,
twelve through a fabric port (R425). -/
def hopClocks (t : Nat) : Nat := if trackDir t = 6 then 12 else if crosses t then 5 else 1
/-- The energy of a flit's hop in pJ (R357). -/
def hopEnergy (t : Nat) : Nat := if trackDir t = 6 then 60 else if crosses t then 10 else 6
/-- A lane of a fabric port moves 25 flits in 28 clocks, so the port's two move 25 in 14 (R24); in which clocks is this
model's choice (assumption 64). -/
def laneClock (clock : Nat) : Bool := decide (25 * clock % 28 < 25)
def laneOpen (t clock : Nat) : Bool := trackDir t != 6 || laneClock clock

/-- A flit that is sent for the first time is charged to the launch of its packet, unless the packet is sent again (R357). -/
def State.chargeFlit (s : State) (t : Nat) (x : TxPkt) : State :=
  match s.packet? x.pkt with
  | some p => if p.launch.isSome && !p.resent then s.charge p.launch (hopEnergy t) else s
  | none => s
/-- A packet that starts on its first track while one of a lower class stands open there has cut in (R295). -/
def State.markCut (s : State) (t : Nat) (x : TxPkt) : State :=
  if x.via.isNone && x.sent == 0 && (s.track t).openBelow x.cls then
    match s.packet? x.pkt with
    | some p => { s with packets := SMap.set s.packets p.id { p with cut := true } }
    | none => s
  else s

/-- Sends one flit, or resends one of the retry buffer (R300). -/
def State.transmit (s : State) (t : Nat) : State :=
  let k := s.track t
  let due := s.cycle + hopClocks t
  if k.dead then s.moveOn t
  else if !laneOpen t s.cycle then s
  else if k.resend ≠ 0 then
    match k.retry[k.retry.length - k.resend]? with
    | some f => s.onTrack t fun k => { k with air := k.air ++ [{ f with clock := due }], resend := k.resend - 1 }
    | none => s.onTrack t fun k => { k with resend := 0 }
  else if 64 ≤ k.retry.length then s
  else match k.next with
    | none => s
    | some x =>
      let f : Flit := ⟨x.pkt, x.sent == 0, x.sent + 1 == x.flits, x.cls, k.lseq, due⟩
      let mine (y : TxPkt) : Bool := y.pkt == x.pkt
      let q := if f.last then delFirst mine k.queue else updFirst mine (fun y => { y with sent := y.sent + 1 }) k.queue
      let s := ((s.markCut t x).chargeFlit t x).onTrack t fun k =>
        { k with queue := q, retry := k.retry ++ [f], air := k.air ++ [f], lseq := (k.lseq + 1) % 128
                 credit := SMap.set k.credit x.cls (SMap.get k.credit x.cls 0 + 1)
                 nonBulk := if x.cls = bulk then 0 else k.nonBulk + 1, lastCtl := x.cls == control }
      s.giveCredit x.creditTo x.cls 1

/-- `FLIT_TRANSMIT`: a transmitter's flit of this clock (R297). -/
def execFlitTransmit (s : State) : Host.Outcome State Fault Refusal := .next (s.transmit (s.arg 0))

/-! Reception (R298–R300). -/

/-- A packet has left the package whole: a fabric switch takes a marked atomic, and all else goes on to its package (R24,
R321). -/
def State.leave (s : State) (p : Packet) : State :=
  let s := s.dropPacket p.id
  match p.body with
  | .req r => if r.window then s.intoSwitch r else { s with outbox := s.outbox ++ [p] }
  | _ => { s with outbox := s.outbox ++ [p] }
/-- A multicast's packet has reached one of its cores: it is that core's own now, and its addresses count from the allocation
there (R278). -/
def Packet.landed (p : Packet) (h : Nat) : Packet :=
  match p.targets.find? fun x => x.1 == h with
  | none => p
  | some x =>
    match p.body with
    | .segment c num key place bytes poison obj gen =>
      let base := if place = 1 then x.2 else 0
      { p with dst := h, targets := []
               body := .segment c num (key + h) place (bytes.map fun b => (b.1 + base, b.2)) (poison.map (· + base)) obj gen }
    | _ => p
/-- The ways on of a multicast's packet from a router, each with the cores it leads to: where they part, the packet is copied
(R278). Cores to which no live link leads come under direction 7. -/
def State.waysOn (s : State) (at_ : Nat) (p : Packet) : List (Nat × List (Nat × Nat)) :=
  p.targets.foldl (fun (ws : List (Nat × List (Nat × Nat))) h =>
    let d := (s.liveDir at_ p.src h.1).getD 7
    if ws.any fun w => w.1 == d then ws.map fun w => if w.1 = d then (d, w.2 ++ [h]) else w else ws ++ [(d, [h])]) []
/-- A packet's first flit goes on by a direction. -/
def State.passOn (s : State) (t : Nat) (f : Flit) (p : Packet) (dir : Nat) (copy : Bool) : State :=
  let u := s.trackFor (hopTo (trackPos t) (trackDir t)) dir p.src p.dst
  let s := s.onTrack u fun k => { k with queue := k.queue ++ [⟨p.id, 1, 0, p.cls, p.flits, some t, copy⟩] }
  if f.last then s
  else s.onTrack t fun k =>
    if copy then { k with copies := k.copies ++ [(f.pkt, p.id, u)] }
    else { k with partials := SMap.set k.partials f.cls (f.pkt, u + 1) }
/-- A multicast's packet goes on from a router: one copy for each way, the first of them the packet itself (R278). -/
def State.part (s : State) (t : Nat) (f : Flit) (p : Packet) : State :=
  let ws := s.waysOn (hopTo (trackPos t) (trackDir t)) p
  let lost := (ws.filter fun w => w.1 == 7).flatMap (·.2)
  let to_ (hs : List (Nat × Nat)) : Packet := { p with dst := (hs.head?.map (·.1)).getD p.dst, targets := hs }
  let s := if lost.isEmpty then s else s.loseOne (to_ lost)
  match ws.filter fun w => w.1 != 7 with
  | [] => (s.giveCredit (some t) f.cls 1).dropPacket p.id
  | w :: rest =>
    let q := to_ w.2
    let s := { s with packets := SMap.set s.packets q.id q }.passOn t f q w.1 false
    rest.foldl (fun s w =>
      let q : Packet := { to_ w.2 with id := s.pktNum }
      { s with pktNum := s.pktNum + 1, packets := SMap.set s.packets q.id q }.passOn t f q w.1 true) s
/-- A later flit of a packet that a router has copied is there for its copies too. -/
def State.feedCopies (s : State) (t : Nat) (f : Flit) : State :=
  let mine := (s.track t).copies.filter fun x => x.1 == f.pkt
  let more (x : TxPkt) : TxPkt := { x with avail := x.avail + 1 }
  let s := mine.foldl (fun s x => s.onTrack x.2.2 fun k => { k with queue := updFirst (fun y => y.pkt == x.2.1) more k.queue }) s
  if f.last && !mine.isEmpty then s.onTrack t fun k => { k with copies := k.copies.filter fun x => x.1 != f.pkt } else s

/-- A good flit at the end of its packet's way, at a core or beyond a fabric port. -/
def State.arriveFlit (s : State) (t : Nat) (f : Flit) (p : Packet) : State :=
  if !f.last then (s.giveCredit (some t) f.cls 1).onTrack t fun k => { k with partials := SMap.set k.partials f.cls (f.pkt, 0) }
  else
    let s := s.onTrack t fun k => { k with partials := SMap.del k.partials f.cls }
    if trackDir t = 6 then (s.giveCredit (some t) f.cls 1).leave p
    else if p.targets.isEmpty then s.deliverVia p (some t)
    else
      let q := p.landed (hopTo (trackPos t) (trackDir t))
      { s with packets := SMap.set s.packets q.id q }.deliverVia q (some t)
/-- A good flit: acknowledged, and sent on or complete. -/
def State.receive (s : State) (t : Nat) (f : Flit) : State :=
  let at_ := hopTo (trackPos t) (trackDir t)
  let s := s.onTrack t fun k =>
    { k with expect := (k.expect + 1) % 128, retry := k.retry.filter (fun x => x.lseq != f.lseq), failures := 0 }
  let s := if f.first then s else s.feedCopies t f
  match s.packet? f.pkt with
  | none => (s.giveCredit (some t) f.cls 1).onTrack t fun k =>
      { k with partials := k.partials.filter fun p => p.2.1 != f.pkt }
  | some p =>
    if 5 ≤ trackDir t then s.arriveFlit t f p
    else if f.first then
      if !p.targets.isEmpty then s.part t f p
      else match s.liveDir at_ p.src p.dst with
      | none => (s.giveCredit (some t) f.cls 1).lose p
      | some d => s.passOn t f p d false
    else
      let u := (SMap.get (s.track t).partials f.cls (0, 0)).2 - 1
      let more (x : TxPkt) : TxPkt := { x with avail := x.avail + 1 }
      let s := s.onTrack u fun k => { k with queue := updFirst (fun x => x.pkt == f.pkt) more k.queue }
      if f.last then s.onTrack t fun k => { k with partials := SMap.del k.partials f.cls } else s

/-! Coming in from other packages (R24, R425). -/

/-- The lane of a fabric port by which a packet of another package comes in: its port's position, and the lane that its endpoints
fix (R299). -/
def laneIn (p : Packet) : Nat := entryAt p.src p.dst * 2 + (physCore p.src + 5 * physCore p.dst) % 24 % 2
/-- The oldest packet of a lane has one more flit in the port: with the first it goes on over the mesh. -/
def State.takeFlit (s : State) (x : Nat × Packet × Nat) : State :=
  let p := x.2.1
  let rest (y : Nat × Packet × Nat) : Nat × Packet × Nat := (y.1, y.2.1, y.2.2 - 1)
  let mine (y : Nat × Packet × Nat) : Bool := y.2.1.id == p.id
  let s := { s with inbound := (updFirst mine rest s.inbound).filter fun y => y.2.2 != 0 }
  if x.2.2 = p.flits then
    let out : TxPkt := ⟨p.id, 1, 0, p.cls, p.flits, none, false⟩
    let s := { s with packets := SMap.set s.packets p.id p }
    s.onTrack (s.firstTrack p.src p.dst) fun k => { k with queue := k.queue ++ [out] }
  else
    let more (y : TxPkt) : TxPkt := if y.pkt = p.id ∧ y.avail < y.flits then { y with avail := y.avail + 1 } else y
    { s with tracks := s.tracks.map fun t => (t.1, { t.2 with queue := t.2.queue.map more }) }
/-- Packets of other packages that have been in their fabric port for its 12 clocks go on over the mesh (R425), a flit at a time in
the clocks in which their lane is open, one packet of a lane after another (assumption 64). -/
def State.takeFabric (s : State) : State :=
  let come := (s.fabric.filter fun p => p.1 + 12 ≤ s.cycle).map (·.2)
  let s := if come.isEmpty then s
    else
      let s := { s with fabric := s.fabric.filter fun p => s.cycle < p.1 + 12 }
      come.foldl (fun s (p : Packet) =>
        { s with pktNum := s.pktNum + 1, inbound := s.inbound ++ [(laneIn p, { p with id := s.pktNum }, p.flits)] }) s
  if s.inbound.isEmpty || !laneClock s.cycle then s
  else
    let heads := s.inbound.foldl (fun (l : List (Nat × Packet × Nat)) x => if l.any fun y => y.1 == x.1 then l else l ++ [x]) []
    heads.foldl (fun s x => s.takeFlit x) s

/-- `FLIT_RECEIVE`: the oldest flit in flight whose clock has come; one whose `CRC` fails is discarded with every later one,
and the receiver asks for a retry (R300). -/
def execFlitReceive (s : State) : Host.Outcome State Fault Refusal :=
  let t := s.arg 0
  .next (match (s.track t).air with
    | [] => s
    | f :: rest =>
      if s.cycle < f.clock then s
      else
        let s := s.onTrack t fun k => { k with air := rest }
        if s.badFlits.contains (t, s.cycle) then s.after (hopClocks t) .retryRequest [t]
        else if f.lseq ≠ (s.track t).expect then s
        else s.receive t f)

/-! Retry and death. -/

/-- Whether a track holds anything of a packet. -/
def Track.carries (k : Track) (pkt : Nat) : Bool :=
  (k.queue.any fun x => x.pkt == pkt) || (k.retry.any fun f => f.pkt == pkt) || (k.air.any fun f => f.pkt == pkt) ||
    k.partials.any fun p => p.2.1 == pkt
/-- No flit of a packet has been sent yet. -/
def State.unsent (s : State) (pkt : Nat) : Bool := s.tracks.any fun t => t.2.queue.any fun x => x.pkt == pkt && x.via.isNone && x.sent == 0
/-- The packets that must be sent again with those that a dead track has lost: the lost ones, and every later one of the same
way that is still on a track, since a resent packet goes out before it (R299, R301). -/
def State.toResend (s : State) (lost : List Nat) : List Nat :=
  (s.packets.filter fun x => s.tracks.any fun t => t.2.carries x.1).foldl (fun acc x =>
    if lost.any fun i => i ≤ x.1 && (s.packet? i).any fun p => p.sameWay x.2 then setIns acc x.1 else acc) lost

/-- The copies of a packet that routers have begun and not finished, with those of the copies. -/
def State.unfinished (s : State) (pkts : List Nat) : Nat → List Nat
  | 0 => []
  | fuel + 1 =>
    let kids := s.tracks.flatMap fun t => (t.2.copies.filter fun x => pkts.contains x.1).map (·.2.1)
    if kids.isEmpty then [] else kids ++ s.unfinished kids fuel
/-- A packet leaves every track and takes a new name, so that flits of it that are still on their way are dropped; it is a
resent one if a flit of it had gone. The cores of its copies that are not yet whole are its own again (assumption 88). -/
def State.withdraw (s : State) (pkt : Nat) : State × Option Packet :=
  match s.packet? pkt with
  | none => (s, none)
  | some p =>
    let kids := s.unfinished [pkt] 64
    let more := kids.flatMap fun i => ((s.packet? i).map (·.targets)).getD []
    let q : Packet := { p with id := s.pktNum, resent := p.resent || !s.unsent pkt, targets := p.targets ++ more }
    let mine : List TxPkt := s.tracks.flatMap fun (x : Nat × Track) => x.2.queue.filter fun y => y.pkt == pkt
    let s := mine.foldl (fun s x => s.giveCredit x.creditTo x.cls (x.avail - x.sent)) (s.dropPacket pkt)
    let s := kids.foldl (fun s i => s.dropPacket i) s
    let out (i : Nat) : Bool := i == pkt || kids.contains i
    let drop (x : Nat × Track) : Nat × Track :=
      (x.1, { x.2 with queue := x.2.queue.filter (fun y => !out y.pkt), copies := x.2.copies.filter fun y => !out y.1 && !out y.2.1 })
    ({ s with pktNum := s.pktNum + 1, packets := SMap.set s.packets q.id q, tracks := s.tracks.map drop }, some q)
/-- A packet whose flits a dead track has lost is sent again (R301): from its source, or, in the urgent class, by way of a NAK
that brings it back there, after which what follows it on its way goes out too. One of another package is sent again by its
source there, beyond this model. -/
def State.restart (s : State) (at_ pkt : Nat) : State :=
  match s.withdraw pkt with
  | (s, none) => s
  | (s, some q) =>
    if s.nakPending q then s
    else if q.cls = urgentClass ∧ at_ ≠ q.src then s.send at_ q.src urgentClass q.flits none (.nak q.id)
    else if 864 ≤ q.src then s.dropPacket q.id
    else s.goOut q

/-- A track dies (R301): partial packets and retry buffers go, the traffic moves to the next live track, and packets that
lost a flit are sent again. -/
def State.trackDies (s : State) (t : Nat) : State :=
  let k := s.track t
  if k.dead then s
  else
    let from_ := trackPos t
    let dir := trackDir t
    let touched := (k.queue.filter (fun x => x.sent != 0)).map (·.pkt) ++ k.retry.map (·.pkt) ++ k.air.map (·.pkt) ++
      k.partials.map fun p => p.2.1
    let again := s.toResend (touched.foldl setIns [])
    let waiting := k.queue.filter fun x => !again.contains x.pkt
    let s := s.onTrack t fun k => { dead := true, queue := waiting, copies := k.copies }
    let s := if (below (lanesOf dir)).all fun l => (s.track (trackId from_ dir l)).dead then
        { s with deadLinks := setIns s.deadLinks (from_ * 7 + dir) }.now .linkDeath [from_ * 7 + dir]
      else s
    (again.foldl (fun s p => s.restart from_ p) s).moveOn t

/-- `RETRY_REQUEST`: the transmitter resends from the first unacknowledged flit; when 16 retries in a row have failed the track
dies (R300, R301). -/
def execRetryRequest (s : State) : Host.Outcome State Fault Refusal :=
  let t := s.arg 0
  let n := (s.track t).failures + 1
  .next (if (s.track t).dead then s
    else if 17 ≤ n then s.trackDies t
    else s.onTrack t fun k => { k with failures := n, air := [], resend := k.retry.length })

/-- `URGENT_NAK_RESEND`: the source endpoint sends again a packet that came back to it, and then what waited for it on its way
(R301); in another package the endpoint is beyond this model. -/
def execUrgentNakResend (s : State) : Host.Outcome State Fault Refusal :=
  .next (match s.packet? (s.arg 0) with
    | some p => match p.body with
      | .nak id =>
        let s := s.dropPacket p.id
        match s.packet? id with
        | some q =>
          let all := (s.packets.filter fun x => id ≤ x.1 && x.2.sameWay q).map (·.2)
          all.foldl (fun s x => s.goOut x) s
        | none => s
      | _ => s
    | none => s)

/-- `TRACK_DEATH` (R301). -/
def execTrackDeath (s : State) : Host.Outcome State Fault Refusal := .next (s.trackDies (s.arg 0))

/-- The direction back. -/
def backDir (d : Nat) : Nat := match d with
  | 0 => 1 | 1 => 0 | 2 => 3 | 3 => 2 | 4 => 5 | 5 => 4 | _ => 6
/-- `LINK_DEATH`: every track of a link is dead, in both directions; what waited is routed round it or ends, and Phaekus is
told (R302). -/
def execLinkDeath (s : State) : Host.Outcome State Fault Refusal :=
  let l := s.arg 0
  let at_ := l / 7
  let other := hopTo at_ (l % 7)
  let l' := other * 7 + backDir (l % 7)
  let s := { s with deadLinks := setIns (setIns s.deadLinks l) l' }
  let kill (s : State) (l : Nat) : State := (below (lanesOf (l % 7))).foldl (fun s i => s.trackDies (trackId (l / 7) (l % 7) i)) s
  .next ((kill (kill s l) l').onMgmt fun m => { m with told := setIns m.told (2 ^ 16 + l) })

end Sys2Proof.Machine
end

