-- ==== Sys2Proof/Machine/EvTraps.lean ====
section
/-!
DEFINITION. Trap delivery (R362–R364), urgent work (R39, R40, R374, R375), deadlock and quiet periods (R46, R392),
containment (R78, R323, R324, R380, R381), and the traps of a chain that is no instruction (R115, R157).
-/
namespace Sys2Proof.Machine

/-- An MSI-X vector fires on both links (R384). -/
def State.fire (s : State) (v : Nat) : State :=
  [0, 1].foldl (fun s k => s.onLink k fun l => { l with msix := v :: l.msix }) s

/-! Delivery. -/

/-- An uncorrectable error waits in a frame (R380). -/
def State.frameHurt (s : State) (c at_ : Nat) : Bool :=
  let lo := vaultLoc c at_
  s.badGranules.any fun p => p.2 == 1 && lo ≤ p.1 * 16 && p.1 * 16 < lo + 0x400
/-- The slot whose frame the next delivery of a core writes. -/
def State.nextFrame (s : State) (c : Nat) : Option Nat :=
  let t := s.slot c 15
  if t.run == .trapped then some t.frame
  else match (s.core c).trap.pend with
    | p :: _ => if p.2 = 15 then none else some (s.slot c p.2).frame
    | [] => none

/-- Whether slot 15 may take a new item of work: nesting level 0, no trap of its own. -/
def State.supFree (s : State) (c : Nat) : Bool :=
  (s.core c).trap.level == 0 && (s.slot c 15).run == .empty && !(s.core c).contained

/-- `TRAP_DELIVERY`: a nested trap at once; else, at nesting level 0 and with no urgent request waiting, the first pending
entry (R362–R364). A frame that an uncorrectable error strikes contains the core (R380). -/
def execTrapDelivery (s : State) : Host.Outcome State Fault Refusal :=
  let c := s.arg 0
  let nested := (s.slot c 15).run == .trapped
  .next (if (s.core c).contained then s
    else if !nested && !(s.supFree c && (s.core c).trap.urgent.isEmpty) then s
    else if (s.nextFrame c).any (s.frameHurt c) then s.now .containment [c]
    else if nested then match (s.slot c 15).raised with
      | some r => if 8 < (s.slot c 15).held.length then s.after 1 .trapDelivery [c] else s.deliverNested c r
      | none => s
    else s.deliverNext c)

/-! Urgent work. -/

/-- `URG_REQUEST_ARRIVAL`: the target accepts a request if it has room (R374). -/
def execUrgRequestArrival (s : State) : Host.Outcome State Fault Refusal :=
  .next (match s.packet? (s.arg 0) with
    | some p => match p.body with
      | .urg core ref entry arg requester =>
        let c := p.dst
        let s := s.dropPacket p.id
        let ok := !(s.core c).contained && (s.core c).trap.urgent.length < 4
        let s := if ok then s.onTrap c fun k => { k with urgent := k.urgent ++ [(entry, requester, arg)] } else s
        s.send c core urgentClass 1 none (.reply core ref (if ok then 1 else 0) 0 none)
      | _ => s
    | none => s)

/-- Urgent work begins: slot 15 starts, and with its first instruction every other slot that runs is Paused (R32, R39, R375). -/
def State.beginUrgent (s : State) (c off : Nat) (g1 g2 : Word) : State :=
  let s := s.onTrap c fun k =>
    { k with level := 1, urging := true, limited := false, urgStart := none, handled := none }
  s.startSup c off g1 g2 (s.cycle + 16)

/-- `URGENT_EPISODE_START`: the oldest request runs at its entry (R362, R375). -/
def execUrgentEpisodeStart (s : State) : Host.Outcome State Fault Refusal :=
  let c := s.arg 0
  .next (match (s.core c).trap.urgent with
    | [] => s
    | (entry, requester, arg) :: rest =>
      if !s.supFree c then s
      else
        let s := s.onTrap c fun k => { k with urgent := rest }
        s.beginUrgent c (0x40 + 16 * entry) (BitVec.ofNat 64 requester) arg)

/-- The running episode has taken more clocks than `URGLIM` (R40, R375). -/
def Core.overLimit (k : Core) (now : Nat) : Bool :=
  k.trap.urging && !k.trap.limited && k.trap.urgStart.any fun t => k.urglim < now - t

/-- `URG_LIMIT`: a nested trap in slot 15, and the Paused slots resume (R40). -/
def execUrgLimit (s : State) : Host.Outcome State Fault Refusal :=
  let c := s.arg 0
  .next (if !(s.core c).overLimit s.cycle || (s.core c).contained then s
    else
      let pc := (s.slot c 15).pc
      ((s.onTrap c fun k => { k with limited := true }).raiseAt c 15 causeUrgLimit pc (s.core c).urglim pc false).unpause c)

/-! Deadlock (R46) and quiet periods (R392). -/

/-- No flit is in flight, queued or awaiting retry, in a fabric port neither. -/
def State.netIdle (s : State) : Bool :=
  s.packets.isEmpty && !(s.fabric.any fun p => decide (p.1 ≤ s.cycle)) && s.tracks.all fun p => p.2.queue.isEmpty && p.2.retry.isEmpty && p.2.air.isEmpty
/-- All engines of a core are idle. -/
def Core.enginesIdle (k : Core) : Bool :=
  k.copies.isEmpty && k.agentQ.isEmpty && !k.agentBusy && k.vault.reqs.isEmpty && k.matQ.isEmpty && k.latch.isEmpty &&
  k.nextShip.isNone && !k.log.ents.any fun e => e.shipped && !e.acked
/-- All engines of the package are idle. -/
def State.enginesIdle (s : State) : Bool :=
  (s.cores.all fun p => p.2.enginesIdle) &&
  (s.dies.all fun p => p.2.walkers == 0 && p.2.walkQ.isEmpty && p.2.insts.isEmpty &&
    !p.2.gather.any fun x => s.collReady p.1 x) &&
  !s.launches.any fun p => p.2.stage == .counted
/-- Live cores that are not contained. -/
def State.working (s : State) : List Nat := s.logical.filter fun c => !(s.core c).contained
/-- Every condition of R46 but the one on host wake. -/
def State.allQuiet (s : State) : Bool :=
  s.netIdle && s.enginesIdle && (s.working.all fun c => s.wallLine c false) &&
  s.working.any fun c => (below 16).any fun n => (s.slot c n).run == .parked && (s.slot c n).why.party
/-- A line is low for another reason than a handler of the deadlock trap. -/
def State.lineLow (s : State) : Bool := s.working.any fun c => !s.wallLine c (s.core c).trap.deadlock

/-- `DEADLOCK`: every supervisor slot takes the trap, and the detector is disarmed (R46). -/
def execDeadlock (s : State) : Host.Outcome State Fault Refusal :=
  .next (if s.mgmt.armed && !s.mgmt.hwake && s.allQuiet then
      (s.working.foldl (fun s c => s.supEvent c causeDeadlock 0 0) s).onMgmt fun m => { m with armed := false }
    else s)

/-- `QUIET_PERIOD`: with host wake armed, a quiet period fires vector 1 once (R392). -/
def execQuietPeriod (s : State) : Host.Outcome State Fault Refusal :=
  .next (if s.mgmt.hwake && !s.mgmt.quietNow && s.allQuiet then (s.fire 1).onMgmt fun m => { m with quietNow := true } else s)

/-! Containment. -/

/-- The column and row extents of a rectangle code (R141). -/
def rectSpan (code : Nat) : Nat :=
  match code with
  | 0 => 1 | 1 => 2 | 2 => 3 | _ => 6
/-- The live, uncontained cores of the rectangle of a position (R323). -/
def State.rectangle (s : State) (c : Nat) : List Nat :=
  let r := (s.die (posDie c)).rect
  let w := rectSpan (r % 8)
  let h := rectSpan (r / 8 % 8)
  let num (x : Nat) : Nat := posY x / h * (6 / w) + posX x / w
  s.logical.filter fun x => posDie x == posDie c && num x == num c && !(s.core x).contained

/-- What containment leaves of a log (R78). -/
def Log.contain (l : Log) : Log :=
  let tail := max l.pubVault l.comp
  { l with tail, ents := l.ents.filter (fun e => e.pos < tail), drain := 0, spill := false, early := false }.compact

/-- The groups of a core end with status *contained* (R44). -/
def State.containGroups (s : State) (c : Nat) : State :=
  let k := s.core c
  let ends := (k.groups.map fun p => (p.2.launch.id, 1)) ++ k.deals.map fun d => (d.launch.id, d.left)
  let frames := k.groups.map (·.1)
  let s := s.onCore c fun k => { k with groups := [], deals := [], swapped := [] }
  let s := frames.foldl (fun s b =>
    let off := s.scratchObj c b * 64
    let w := s.tableWord off 8
    s.sendPut c off (w - bitsOf w 8 3 * 256) 8 false none) s
  ends.foldl (fun s e => (s.lastGroup c e.1).dieCount (posDie c) e.1 e.2 1) s

/-- The streams that a contained core opened close, and the reservations its slots hold are abandoned (R381). -/
def State.containStreams (s : State) (c : Nat) : State :=
  s.dies.foldl (fun s d =>
    d.2.streams.foldl (fun s e =>
      let x := s.stream d.1 e.1
      let s := if x.opened && x.core == c then s.closeStream d.1 e.1 else s
      let x := s.stream d.1 e.1
      if x.resv.any fun r => r.2.2.2.2 == c then (s.endStep d.1 e.1 true).1 else s) s) s

/-- One core is contained (R381); the other packages of the pod are told, for the collectives that it takes part in (R289). -/
def State.containCore (s : State) (c : Nat) : State :=
  let away := (s.core c).homeWaiters.filter fun w => w.core != c
  let images := ((below 16).map (s.slot c) ++ (s.core c).swapped.map (·.2)).filter (·.based)
  let s := images.foldl (fun s t => (s.clearSide c t.ctxbase).clearReplay c t.ctxbase) s
  let s := s.onCore c fun k => { k with contained := true, log := k.log.contain }
  let s := s.containGroups c
  let stop (n : Nat) : Nat × Slot :=
    (n, { s.slot c n with run := .contained, why := .none, wait := none, walked := [], held := [], later := [], raised := none
                          outs := [], lvq := [], kept := none, joined := none, doing := none, before := none, hold := none
                          idle := 0 })
  let s := s.onCore c fun k =>
    { k with slots := (below 16).map stop, swapped := [], inbox := [], resv := [], waiters := [], homeWaiters := []
             board := k.board.filter fun e => k.copies.any fun m => m.started && m.num == e.holder
             trap := {}, matQ := [], tst := none, headBusy := false, acqs := [], latch := [], shared := [], csrs := [], evcs := [], imgs := [], tlb := []
             leases := []
             copies := (k.copies.filter fun m => m.started).map (fun m => { m with sent := true }) }
  let drop (p : Nat × Core) : Nat × Core := (p.1, { p.2 with homeWaiters := p.2.homeWaiters.filter fun w => w.core != c })
  let s := { s with cores := s.cores.map drop }
  let s := away.foldl (fun s w => s.send c w.core urgentClass 1 none (.reply w.core w.slot 0 0 (some (causeLinkLost, 0, 1)))) s
  let s := s.onDie (posDie c) fun d => { d with descs := d.descs.filter fun x => x.core != c }
  let s := Config.podOthers.foldl (fun s p =>
    s.send c (foreignPos p 0) control 1 none (.partGone (foreignPos s.pkg (s.logicalOf c)))) s
  let s := (s.containStreams c).answerQueries c
  s.onMgmt fun m => { m with told := setIns m.told c, starting := setDel m.starting c }

/-- `CONTAINMENT`: the rectangle of a position, under the `RECTDEF` of this clock (R323, R380–R382). -/
def execContainment (s : State) : Host.Outcome State Fault Refusal :=
  let cs := s.rectangle (s.arg 0)
  .next (if cs.isEmpty then s
    else
      let s := (cs.foldl (fun s c => s.containCore c) s).fire 3
      s.barriers.foldl (fun s b => s.settleBarriers b.launch) s)

/-! Chains that are no instruction. -/

/-- `ILLEGAL_ENCODING`: a precise trap with the decoder's cause (R115, R117). -/
def execIllegalEncoding (s : State) : Host.Outcome State Fault Refusal :=
  .next (s.trap (s.arg 0) s.issue.start s.baseValue)
/-- `INSTRUCTION_FETCH_FAULT`: the fetch check's cause, at the start being fetched (R157). -/
def execInstructionFetchFault (s : State) : Host.Outcome State Fault Refusal :=
  .next (s.trap (s.arg 0) (s.arg 1) (s.arg 2))

end Sys2Proof.Machine
end

