-- ==== Sys2Proof/Machine/EvHost.lean ====
section
/-!
DEFINITION. Staged start (R393–R395), Phaekus (R396, R397), firmware images (R399, R400), clock, reservations and thermal
states (R401–R405), and the host's BARs (R385–R392).
-/
namespace Sys2Proof.Machine

/-! Firmware images (R399, R400). -/

/-- The little-endian number of bytes. -/
def bytesNat : List Byte → Nat
  | [] => 0
  | b :: r => b.toNat + 256 * bytesNat r
/-- A field of an image. -/
def imageField (img : List Byte) (off n : Nat) : Nat := bytesNat ((img.drop off).take n)
/-- The four checks of an image (R400), with the security version it carries. -/
def imageAccepted (img : List Byte) (minVersion : Nat) : Bool :=
  let body := imageField img 8 4
  let message := img.take (64 + body)
  let shape := imageField img 0 8 == 0x4E42323446573031 && body % 64 == 0 && body ≤ 2 ^ 26 &&
    imageField img 16 48 == 0 && img.length == 64 + body + 64 + 3309
  let nums (l : List Byte) : List Nat := l.map (·.toNat)
  let ed := ed25519Verify (nums ((below 32).map Config.ed25519Key)) (nums message) (nums ((img.drop (64 + body)).take 64))
  let ml := mldsa65Verify (nums ((below 1952).map Config.mldsa65Key)) (nums message) (nums ((img.drop (128 + body)).take 3309))
  shape && minVersion ≤ imageField img 12 4 && ed && ml
/-- Phaekus verifies its image and, on acceptance, raises the fused minimum. -/
def State.verifyImage (s : State) : State × Bool :=
  let img := Config.firmwareImage
  if imageAccepted img s.mgmt.minVersion then
    (s.onMgmt fun m => { m with minVersion := max m.minVersion (imageField img 12 4) }, true)
  else (s, false)

/-! The core tables (R319). -/

/-- CRC-32C (reflected, polynomial 0x82F63B78), one byte at a time (R10). -/
def crcBits (c : Nat) : Nat → Nat
  | 0 => c
  | n + 1 => crcBits (if c % 2 = 1 then (c / 2) ^^^ 0x82F63B78 else c / 2) n
def crc32c (bs : List Nat) : Nat := (bs.foldl (fun c b => crcBits (c ^^^ b) 8) 0xFFFFFFFF) ^^^ 0xFFFFFFFF
/-- The bytes of a number. -/
def natBytes (x : Nat) : Nat → List Nat
  | 0 => []
  | n + 1 => x % 256 :: natBytes (x / 256) n

/-- The live positions in logical order (R34). -/
def State.liveOrder (s : State) : List Nat :=
  ((below 24).flatMap fun d => (below 9).flatMap fun q => (below 4).map fun m => quadMember d q m).filter s.live
/-- The 8 KiB of a core table, as bytes (R319). -/
def coreTable (order : List Nat) : List Nat :=
  let entry (c : Nat) : Nat := 2 ^ 31 + posDie c * 64 + posCore c
  let fwd := (order.flatMap fun c => natBytes (entry c) 4) ++ List.replicate (4 * (864 - order.length)) 0 ++ natBytes order.length 4
  let rev := (below 864).flatMap fun p => natBytes (if order.contains p then indexIn order p else 0xFFFF) 2
  fwd ++ natBytes (crc32c fwd) 4 ++ List.replicate 632 0 ++ rev ++ List.replicate 2368 0
/-- Where a die's core table lies: in the reserved part of the core area of its lowest logical core (assumption 9). -/
def State.coreTableAt (s : State) (d : Nat) : Nat := vaultLoc ((s.logical.find? fun c => posDie c == d).getD 0) 0x7FD9C000
/-- Writes bytes at a location. -/
def State.putBytes (s : State) (loc : Nat) : List Nat → State
  | [] => s
  | b :: r => (s.writeMem loc b 1).putBytes (loc + 1) r
def State.buildTables (s : State) : State :=
  let t := coreTable s.logical
  (below 24).foldl (fun s d => s.putBytes (s.coreTableAt d) t) s
/-- A die's table passes its own CRC and agrees with die 0's (R394). -/
def State.tablePasses (s : State) (d : Nat) : Bool :=
  let at_ := s.coreTableAt d
  let crc := s.readMem (at_ + 0xD84) 4
  crc32c ((below 0xD84).map fun i => s.readMem (at_ + i) 1) == crc && crc == s.readMem (s.coreTableAt 0 + 0xD84) 4
def State.tablesPass (s : State) : Bool := (below 24).all s.tablePasses

/-! Staged start (R393). -/

/-- The words of an object entry as a number (R306). -/
def entryNat (kind gen len hmode glog hcore hcnt pkg where_ : Nat) (sec : Bool) : Nat :=
  (gen + kind * 256 + (if sec then 2048 else 0)) + len * 2 ^ 64 +
    (hmode + glog * 4 + hcore * 256 + hcnt * 2 ^ 18 + pkg * 2 ^ 28) * 2 ^ 128 + where_ * 2 ^ 192
/-- The entries of the device range (R304, R305, R319). -/
def State.deviceEntries (s : State) : State :=
  let n := s.logical.length
  let s := s.tablePut 64 (entryNat kShared 0 (2 ^ 32) 1 12 0 (n - 1) s.pkg 0x6B600000 true) 32
  let s := (below 24).foldl (fun s d =>
    let home := s.logicalOf ((s.logical.find? fun c => posDie c == d).getD 0)
    s.tablePut ((0x10 + d) * 64) (entryNat kContext 0 8192 0 0 home 0 s.pkg 0x7FD9C000 true) 32) s
  (below n).foldl (fun s c =>
    s.tablePut ((0x100 + c) * 64) (entryNat kContext 0 (2 ^ 22) 0 0 c 0 s.pkg 0x7FC00000 true) 32) s

/-- The capabilities a supervisor slot starts with: k14 over its core area (R360), k15 over the alias (R310). -/
def supCaps (logical : Nat) : SMap Cap :=
  [(14, Cap.make (2 ^ 22) 0 (rR + rW + rK) 0 (0x100 + logical)),
   (15, Cap.make 1572864 0 (rR + rW + rK + rS + rA + rN + rG) 0 aliasObj)]
/-- The fused repairs have taken their spare rows and lanes (R192, R193, R393). -/
def State.withFuses (s : State) (c : Nat) (k : Core) : Core :=
  let rows : SMap Nat := (below 32).filterMap fun b =>
    if SMap.get s.fusedRows (32 * c + b) 0 = 0 then none else some (b, SMap.get s.fusedRows (32 * c + b) 0)
  { k with vault := { k.vault with spareRows := rows, spareLanes := 64 - SMap.get s.fusedLanes c 0 } }
/-- A core as staged start leaves it; the pinned lines are in its register cache (R134). -/
def freshCore (c logical : Nat) : Core :=
  let code : Cap := ⟨Config.supervisorCode c, true⟩
  let slot (n : Nat) : Nat × Slot := (n, { Slot.fresh n with seed := 0x9E3779B97F4A7C15#64 ^^^ BitVec.ofNat 64 (logical * 65536 + n) })
  let sup : Slot := { (slot 15).2 with code, pc := code.base, k := supCaps logical, ctxbase := imageAt 15, based := true }
  let pinned (i : Nat) : RcLine := { addr := imageAt 15 + 0x8000 + 256 * i, used := 0, mark := none, slot := 15 }
  { slots := (below 15).map slot ++ [(15, sup)], rc := (below 4).map pinned }

/-- An event's clocks count from the clock at which `CYCLE` starts. -/
def State.rebase (s : State) : State :=
  let back (d : Due) : Due := { d with clock := d.clock - s.cycle }
  { (s.onMgmt fun m => { m with wallBase := s.wall, wallFrom := 0 }) with
    cycle := 0, pending := s.pending.map back, inputs := s.inputs.map back
    fabric := s.fabric.map (fun p => (p.1 - s.cycle, p.2))
    badFlits := s.badFlits.map fun p => (p.1, p.2 - s.cycle) }

/-- Stage 1 ends and stage 2 begins, once every core table passes (R393, R394); bank 0 of every vault refreshes at `CYCLE` 0
(R190). -/
def State.fullFunction (s : State) : State :=
  let s := { s with logical := s.liveOrder }.buildTables
  let s := if s.tablesPass then s else s.buildTables
  if !s.tablesPass then s.onMgmt fun m => { m with stg := 3 }
  else
    let map (d : Nat) : BitVec 36 := BitVec.ofNat 36 (sumList ((below 36).map fun p => if s.live (36 * d + p) then 2 ^ p else 0))
    let die (d : Nat) : Nat × Die := (d, { hmap := map d, l2pbase := 0x10 + d })
    let cores := s.logical.map fun c => (c, s.withFuses c (freshCore c (s.logicalOf c)))
    let enter (m : SMap Core) (p : Nat × Core) : SMap Core := SMap.set m p.1 p.2
    let s : State := { s with dies := (below 24).map die, quads := [], cores := cores.foldl enter [] }
    let clear (s : State) (c : Nat) : State := (s.zeroMem (vaultLoc c 0x7FC00000) 0x6C000).clearFrame c 15
    let s := s.logical.foldl clear s
    let s := s.deviceEntries.rebase
    let s := s.onMgmt fun m => { m with stg := 2, starting := s.logical.foldl setIns [] }
    let starts : List Ev := s.logical.map fun c => Ev.mk .startEpisode [c]
    let firsts : List Ev := s.logical.map fun c => Ev.mk .refreshStart [c, 0]
    { s with agenda := s.agenda ++ firsts ++ starts }

/-- `STAGED_START`: at power-on Phaekus verifies its image; a clock later the firmware brings the package to full function
(R393). -/
def execStagedStart (s : State) : Host.Outcome State Fault Refusal :=
  .next (if s.arg 0 = 0 then
      if s.mgmt.stg ≠ 0 then s
      else
        let r := s.verifyImage
        if r.2 then ((r.1.onMgmt fun m => { m with stg := 1 }).after 1 .stagedStart [1]).after msClocks .phaekusHeartbeat []
        else s.onMgmt fun m => { m with stg := 3 }
    else if s.mgmt.stg = 1 then s.fullFunction else s)

/-- `START_EPISODE` (R395). -/
def execStartEpisode (s : State) : Host.Outcome State Fault Refusal :=
  let c := s.arg 0
  .next (if s.mgmt.starting.contains c && s.supFree c then s.beginUrgent c 0x140 0 (BitVec.ofNat 64 (s.logicalOf c)) else s)

/-! Phaekus (R396, R397). -/

/-- A containment that Phaekus makes; during a takeover it waits (R396, R397). -/
def State.askContain (s : State) (c : Nat) : State :=
  if s.mgmt.failover then s.onMgmt fun m => { m with waiting := m.waiting ++ [c] } else s.now .containment [c]

/-- `PHAEKUS_HEARTBEAT`: every 1 ms a heartbeat comes, or is missed while the active Phaekus is silent; the third missed in a
row begins a takeover. The outside world's event (argument 1) silences the active Phaekus (R397). -/
def execPhaekusHeartbeat (s : State) : Host.Outcome State Fault Refusal :=
  .next (if s.arg 0 = 1 then s.onMgmt fun m => { m with silent := true }
    else
      let s := s.after msClocks .phaekusHeartbeat []
      if !s.mgmt.silent then s.onMgmt fun m => { m with missed := 0 }
      else
        let s := s.onMgmt fun m => { m with missed := m.missed + 1 }
        if s.mgmt.missed = 3 then s.now .failover [] else s)

/-- The credits of an array are settled before its reservation changes (R403). -/
def State.settleCredits (s : State) (q : Nat) : State :=
  let x := s.credits q
  s.onQuad q fun k => { k with credits := x, creditClock := s.cycle }
/-- Phaekus takes up the request that a quad's byte of `QRES` holds (R403). -/
def State.takeQres (s : State) (q : Nat) : State :=
  let x := SMap.get s.mgmt.qres q 16
  if x = SMap.get s.mgmt.qtaken q 16 then s else (s.settleCredits q).onMgmt fun m => { m with qtaken := SMap.set m.qtaken q x }

/-- `FAILOVER`: the standby verifies the image and takes over; what waited is then done (R397). -/
def execFailover (s : State) : Host.Outcome State Fault Refusal :=
  .next (if s.arg 0 = 0 then (s.onMgmt fun m => { m with failover := true }).after 1 .failover [1]
    else if !s.mgmt.failover then s
    else
      let r := s.verifyImage
      let s := r.1
      if !r.2 then s.onMgmt fun m => { m with stg := 3 }
      else
        let s := (below 216).foldl (fun s q => s.takeQres q) s
        let waiting := s.mgmt.waiting
        let s := s.onMgmt fun m => { m with failover := false, silent := false, missed := 0, waiting := [] }
        { s with agenda := (waiting.map fun c => ⟨.containment, [c]⟩) ++ s.agenda })

/-! Clock and reservations (R401, R403). -/

/-- `REFCFG` of a step with the normal refresh rate (R401). -/
def stepRefcfg (step : Nat) : Nat :=
  match step with
  | 0 => 0x00B41554 | 1 => 0x00B41248 | 2 => 0x00B40F3C | _ => 0x00B40AAA

/-- A vault bus stalls for 96 clocks from now (R194, R401). -/
def State.stallBus (s : State) (c : Nat) : State :=
  (s.onVault c fun v => { v with busStall := max v.busStall (s.cycle + 96) }).after 96 .vaultBusStallEnd [c]

/-- `CLOCK_STEP_CHANGE`: Phaekus chooses the fastest step that the host's cap and the power last measured allow (an argument is a
new measurement); it takes effect at a rotation boundary, 1 ms after the last change at the earliest, which is a count of clocks
(R1, R401). During a takeover it waits (R397). -/
def execClockStepChange (s : State) : Host.Outcome State Fault Refusal :=
  let s := if s.evt.isEmpty then s else s.onMgmt fun m => { m with powerStep := min 3 (s.arg 0) }
  let step := max s.mgmt.powerStep s.mgmt.clkcap
  .next (if step = s.mgmt.step then s
    else if s.mgmt.failover then if s.mgmt.stg = 3 then s else s.after 1 .clockStepChange []
    else if !s.past s.mgmt.lastStep msClocks then
      s.after (s.mgmt.lastStep.getD 0 + msClocks - s.cycle) .clockStepChange []
    else if s.cycle % 16 ≠ 0 then s.after (16 - s.cycle % 16) .clockStepChange []
    else
      let s := s.onMgmt fun m => { m with step, wallBase := s.wall, wallFrom := s.cycle, lastStep := some s.cycle }
      let s := (below 24).foldl (fun s d => s.onDie d fun x => { x with refcfg := stepRefcfg step }) s
      s.logical.foldl (fun s c => s.stallBus c) s)

/-- `QUAD_RESERVATION_UPDATE`: above the power limit (argument 1) every quad's reservation falls by a sixteenth, below it
(argument 0) it rises by one, at most once per 100 µs (R403). During a takeover it waits (R397). -/
def execQuadReservationUpdate (s : State) : Host.Outcome State Fault Refusal :=
  .next (if s.mgmt.failover then if s.mgmt.stg = 3 then s else s.after 1 .quadReservationUpdate s.evt
    else if !s.past s.mgmt.lastPower (msClocks / 10) then s
    else
      let cap := if s.arg 0 = 1 then max 1 (s.mgmt.powerCap - 1) else min 16 (s.mgmt.powerCap + 1)
      if cap = s.mgmt.powerCap then s
      else ((below 216).foldl (fun s q => s.settleCredits q) s).onMgmt fun m =>
        { m with powerCap := cap, lastPower := some s.cycle })

/-- `THERMAL_SAMPLE`: a core's logic and vault temperatures in °C; a threshold state is entered or left, and a trip contains the
rectangle (R404, R405). -/
def execThermalSample (s : State) : Host.Outcome State Fault Refusal :=
  let c := s.arg 0
  let logic := s.arg 1
  let dram := s.arg 2
  let v := (s.core c).vault
  let turns (on : Bool) (t limit : Nat) (at_ : Option Nat) : Bool := s.since at_ oneMs && (if on then t < limit - 3 else limit ≤ t)
  let dramTurns := turns v.dramHot dram 85 v.dramSince
  let logicTurns := turns v.throt logic 100 v.logicSince
  let s := if logicTurns then s.settleCredits (posArray c) else s
  let s := s.onVault c fun v =>
    { v with logicT := logic % 256, dramT := dram % 256
             dramHot := v.dramHot != dramTurns, dramSince := if dramTurns then some s.wall else v.dramSince
             throt := v.throt != logicTurns, logicSince := if logicTurns then some s.wall else v.logicSince }
  let s := if dramTurns || logicTurns then s.stallBus c else s
  .next (if 125 ≤ logic then s.askContain c else s)

/-! The host's BARs (R385–R390). -/

/-- What the host reads from an 8-byte register (R386, R388); a reserved offset reads zero. -/
def State.hostRead (s : State) (link bar off : Nat) : Nat :=
  if bar = 0 then
    if off = 0 then s.mgmt.stg + (if s.mgmt.failover then 4 else 0)
    else if off = 0x100 then (if s.mgmt.hwake then 1 else 0)
    else if off = 0x200 then s.mgmt.step
    else if off = 0x208 then s.mgmt.clkcap
    else if 0x1000 ≤ off ∧ off < 0x10D8 then
      (below 8).foldl (fun x i => x + SMap.get s.mgmt.qres (off - 0x1000 + i) 16 * 256 ^ i) 0
    else if 0x2000 ≤ off ∧ off < 0x20D8 then (below 8).foldl (fun x i => x + s.rho (off - 0x2000 + i) * 256 ^ i) 0
    else if 0x3000 ≤ off ∧ off < 0x4B00 then s.therm ((off - 0x3000) / 8)
    else if 0x5100 ≤ off ∧ off < 0x51C0 then
      sumList ((below 36).map fun p => if (s.core (36 * ((off - 0x5100) / 8) + p)).contained then 2 ^ p else 0)
    else 0
  else if bar = 2 then s.tableWord (0x400000 + off) 8
  else
    let l := s.link link
    if off < 0x2000 then
      if off % 0x200 = 0xA8 then (SMap.get l.results (off / 0x200) 0).toNat
      else if off % 0x200 < 0xA0 then bitsOf (SMap.get l.slots (off / 0x200) 0).toNat (8 * (off % 0x200)) 64
      else 0
    else if off < 0x6000 then bitsOf (SMap.get l.ring ((off - 0x2000) / 64) 0).toNat (8 * (off % 64)) 64
    else if off = 0x6000 then l.head
    else if off = 0x6008 then l.tail
    else if off = 0x7148 then l.frameResult.toNat
    else if 0x7000 ≤ off ∧ off < 0x7140 then bitsOf l.frame.toNat (8 * (off - 0x7000)) 64
    else if 0x9000 ≤ off ∧ off < 0xA000 then
      (below 8).foldl (fun x i => x + (SMap.get l.outMail (off - 0x9000 + i) 0).toNat * 256 ^ i) 0
    else 0

/-- The bytes of BAR4 that a host write stores: those of the submission slots' templates and images, of the frame window
and of the host's messages; the others are reserved, or have a write of their own (R388, R390). -/
def barByte (off : Nat) : Bool :=
  (off < 0x2000 && (off % 0x200 < 0x38 || (0x40 ≤ off % 0x200 && off % 0x200 < 0xA0))) ||
    (0x7000 ≤ off && off < 0x7014) || (0x7040 ≤ off && off < 0x7140) || (0x8000 ≤ off && off < 0x9000)
/-- One byte written to BAR4. -/
def Link.putByte (l : Link) (off : Nat) (v : Byte) : Link :=
  if !barByte off then l
  else if off < 0x2000 then
    let x := (SMap.get l.slots (off / 0x200) 0).toNat
    { l with slots := SMap.set l.slots (off / 0x200) (BitVec.ofNat 1344 (withByte x (off % 0x200) v)) }
  else if off < 0x8000 then { l with frame := BitVec.ofNat 2688 (withByte l.frame.toNat (off - 0x7000) v) }
  else { l with inMail := SMap.set l.inMail (off - 0x8000) v }

/-- `HOST_BAR_WRITE`: link, BAR, offset, bytes, value; a register with a row of its own is not written here (R386, R388,
R390, R392). -/
def execHostBarWrite (s : State) : Host.Outcome State Fault Refusal :=
  let k := s.arg 0
  let off := s.arg 2
  let n := min 8 (s.arg 3)
  let v := s.arg 4
  .next (if s.arg 1 = 0 then
      if off = 0x100 then s.onMgmt fun m => { m with hwake := bitOf v 0 }
      else if off = 0x208 then
        (s.onMgmt fun m => { m with clkcap := v % 4 }).now .clockStepChange []
      else s
    else if s.arg 1 = 4 then
      if off = 0x6008 then s.onLink k fun l => { l with tail := v }
      else s.onLink k fun l => (below n).foldl (fun (l : Link) i => l.putByte (off + i) (byteOf v i)) l
    else s)

/-- `QRES_WRITE`: the byte 9d + q; 0 and values above 16 store 16 (R386). Phaekus takes the request up at once, or at the end of
a takeover (R397). -/
def execQresWrite (s : State) : Host.Outcome State Fault Refusal :=
  let q := s.arg 1
  let v := s.arg 2 % 256
  let x := if v = 0 ∨ 16 < v then 16 else v
  .next (if 216 ≤ q then s
    else
      let s := s.onMgmt fun m => { m with qres := SMap.set m.qres q x }
      if s.mgmt.failover then s else s.takeQres q)

/-- `CONTREQ_WRITE` (R386, R396). -/
def execContreqWrite (s : State) : Host.Outcome State Fault Refusal :=
  let c := s.arg 1 % 2048
  .next (if c < 864 then s.askContain c else s)

/-- `BAR2_TABLE_WRITE`: link, offset, bytes, value; the write goes to the entry's home, which discards a write to a secure entry,
one that would make it secure and one that would make it of kind `context` (R387). Before the table stands it is lost
(R393, assumption 48). -/
def execBar2TableWrite (s : State) : Host.Outcome State Fault Refusal :=
  let off := 0x400000 + s.arg 1 % 0x400000
  .next (if s.mgmt.stg = 2 then s.sendPut (linkPos (s.arg 0)) off (s.arg 3) (min (s.arg 2) (64 - off % 64)) true none else s)

/-- A capability image in a submission slot, and whether it fails with code 9 (R388). -/
def imageCap (x i : Nat) : Cap × Bool :=
  let b := bitsOf x (8 * (0x40 + 16 * i)) 128
  (⟨BitVec.ofNat 128 b, b != 0⟩, bitsOf b 120 8 != 0)

/-- A doorbell submits a slot's contents from a non-secure submitter; one in progress is ignored, and before full function it
is refused with code 9 (R388, R393). -/
def State.doorbell (s : State) (k q : Nat) (indirect : Bool) : State :=
  if 16 ≤ q ∨ (s.link k).busy.contains q then s
  else if s.mgmt.stg ≠ 2 then
    s.onLink k fun l => { l with results := SMap.set l.results q (BitVec.ofNat 64 (2 ^ 63 + 2 ^ 62 + 9)) }
  else
    let x := (SMap.get (s.link k).slots q 0).toNat
    let t := launchTemplate x indirect
    let img (i : Nat) : Cap × Bool := imageCap x i
    let bad := t.2 || (below (if indirect then 6 else 5)).any fun i => (img i).2
    let l : Launch := { t.1 with queue := q, code := (img 0).1, args := (below 4).map (fun i => (img (i + 1)).1)
                                 count := if indirect then (img 5).1 else ⟨0, false⟩ }
    let s := s.onLink k fun l => { l with results := SMap.set l.results q 0, busy := setIns l.busy q }
    s.send (linkPos k) 0 urgentClass 5 none (.submit l (linkPos k) 0 (some k) false bad)

/-- `LAUNCH_DOORBELL_DIRECT` (R388). -/
def execLaunchDoorbellDirect (s : State) : Host.Outcome State Fault Refusal := .next (s.doorbell (s.arg 0) (s.arg 1) false)
/-- `LAUNCH_DOORBELL_INDIRECT` (R388). -/
def execLaunchDoorbellIndirect (s : State) : Host.Outcome State Fault Refusal := .next (s.doorbell (s.arg 0) (s.arg 1) true)
/-- `LAUNCH_RESULT_READ`: the result is cleared as it is read (R388). -/
def execLaunchResultRead (s : State) : Host.Outcome State Fault Refusal :=
  .next (s.onLink (s.arg 0) fun l => { l with results := SMap.set l.results (s.arg 1) 0 })

/-- `FRAME_DOORBELL`: the window's frame leaves for its stream table; one in progress is ignored (R390). -/
def execFrameDoorbell (s : State) : Host.Outcome State Fault Refusal :=
  let k := s.arg 0
  let l := s.link k
  let x := l.frame.toNat
  let h := bitsOf x 0 64
  let t := bitsOf x 144 8
  let f : Frame :=
    { handle := BitVec.ofNat 64 h, pf := bitsOf x 64 64, seq := bitsOf x 128 16, count := t, bad := 64 < t || bitsOf x 152 8 != 0
      tokens := BitVec.ofNat 2048 (bitsOf x 512 (32 * min t 64)), sec := false, core := k, slot := 0, host := true }
  .next (if l.frameBusy then s
    else if shDie h < 24 then
      (s.onLink k fun l => { l with frameBusy := true, frameResult := 0 }).send (linkPos k) (36 * shDie h) urgentClass
        (flitsFor (4 * min t 64)) none (.frame f)
    else s.onLink k fun l => { l with frameResult := BitVec.ofNat 64 (2 ^ 63 + 2) })
/-- `FRAME_RESULT_READ`: the result is cleared as it is read (R390). -/
def execFrameResultRead (s : State) : Host.Outcome State Fault Refusal :=
  .next (s.onLink (s.arg 0) fun l => { l with frameResult := 0 })

/-- `PCIE_ERROR`: link, and 0 for one error, 1 for a link that goes down, 2 for one that comes back; the commands in progress
on the link complete with status 4 (R391). -/
def execPcieError (s : State) : Host.Outcome State Fault Refusal :=
  let k := s.arg 0
  let uses (x : Option Xl) : Bool := x.any fun t => t.ent.kind == kHost && t.ent.hlink == k
  let hit (m : CopyCmd) : CopyCmd :=
    if m.started && (uses m.src || uses m.dst) then { m with status := max m.status 4, failed := true } else m
  let each (p : Nat × Core) : Nat × Core := (p.1, { p.2 with copies := p.2.copies.map hit })
  .next (if s.arg 1 = 2 then s.onLink k fun l => { l with down := false }
    else
      let t : State := { s with cores := s.cores.map each }
      if s.arg 1 = 1 then t.onLink k fun l => { l with down := true } else t)

end Sys2Proof.Machine
end

