-- ==== Sys2Proof/Machine/EvStream.lean ====
section
/-!
DEFINITION. The stream tables at work: operations (R338), frames (R334) and the events that reach owners (R337).
-/
namespace Sys2Proof.Machine

/-- `STREAM_OP_PERFORM`: the operation of a die's table that is due on this clock (R338). -/
def execStreamOpPerform (s : State) : Host.Outcome State Fault Refusal :=
  let die := s.arg 0
  .next (match (s.die die).streamRun.find? fun p => p.1 == s.arg 1 with
    | some (k, r) => (s.onDie die fun d => { d with streamRun := SMap.del d.streamRun k }).streamStep die r
    | none => s)

/-- The checks of a frame and what they do (R334): the state and the outcome code. -/
def State.frameStep (s : State) (die : Nat) (f : Frame) : State × Nat :=
  let h := f.handle.toNat
  let idx := shIdx h
  let e := s.stream die idx
  if !s.namesStream die h then (s, 2)
  else if f.bad ∨ 64 < f.count then (s, 4)
  else if e.sec && !f.sec then (s, 4)
  else
    let d := (f.seq + 65536 - e.fseq) % 65536
    if d ≠ 0 then
      let s := if d ≤ 32767 then s.onStream die idx fun e => { e with fseq := (f.seq + 1) % 65536 } else s
      (s.frameFault die idx causeFrameOrder f.pf f.seq f.count, 0)
    else if e.queue.length = 16 then (s, 3)
    else
      let x : Queued := ⟨f.pf, f.count, f.tokens, none, f.seq⟩
      ((s.onStream die idx fun e => { e with queue := e.queue ++ [x], fseq := (e.fseq + 1) % 65536 }).applyQueue die idx, 0)

/-- `FRAME_ARRIVAL`: a frame is performed four clocks after its entry's table starts it (R334, R338). -/
def execFrameArrival (s : State) : Host.Outcome State Fault Refusal :=
  .next (match s.packet? (s.arg 0) with
    | some p => match p.body with
      | .frame f =>
        let ended := s.onDie (s.arg 1) fun d => { d with streamRun := SMap.del d.streamRun (s.arg 2) }
        let r := (ended.dropPacket p.id).frameStep (s.arg 1) f
        r.1.send p.dst (if f.host then p.src else f.core) urgentClass 1 none (.frameReply f r.2)
      | _ => s
    | none => s)

/-- `TRUNCATION_EVENT`: a truncation or close event fills the owner's reservation, or takes the place of an untaken event of
the stream; without the reservation it is dropped and counted (R337). -/
def execTruncationEvent (s : State) : Host.Outcome State Fault Refusal :=
  .next (match s.packet? (s.arg 0) with
    | some p => match p.body with
      | .streamEvent _ _ _ e _ =>
        let s := s.dropPacket p.id
        let c := p.dst
        let key := streamKey e.tag.toNat
        let full : Entry := { e with spkg := s.pkg, score := s.logicalOf c, sslot := e.taker }
        if (s.core c).resv.any fun r => r.what == forStream && r.num == key then s.fillReserved c forStream key e
        else if (s.core c).inbox.any fun x => x.kind == 8 && x.tag == e.tag then
          s.onCore c fun k => { k with inbox := updFirst (fun x => x.kind == 8 && x.tag == e.tag) (fun _ => full) k.inbox }
        else s.count c 10 1
      | _ => s
    | none => s)

end Sys2Proof.Machine
end

