-- ==== Sys2Proof/Machine/Scalar.lean ====
section
/-!
DEFINITION. Page 0: integer arithmetic, logic, shifts, multiplication and division, compares, moves, select and load
immediate (R142–R155).
-/
namespace Sys2Proof.Machine

/-! Shared effects. -/

/-- A three-register instruction (R142). -/
def State.bin (s : State) (w : Width) (nat : Bool) (d a b : Gpr) (f : Nat → Nat → Nat) : Host.Outcome State Fault Refusal :=
  s.guarded (s.putScalar w nat d (f (s.src w a) (s.src w b)))
/-- A shift by g[b] mod n, all 64 bits of it (R148). -/
def State.shift (s : State) (w : Width) (d a b : Gpr) (f : Nat → Nat → Nat → Nat) : Host.Outcome State Fault Refusal :=
  s.guarded (s.putScalar w false d (f w.bits (s.src w a) ((s.gpr b).toNat % w.bits)))
/-- A shift by the natural immediate mod n (R148). -/
def State.shiftImm (s : State) (w : Width) (d a : Gpr) (i : Imm) (f : Nat → Nat → Nat → Nat) :
    Host.Outcome State Fault Refusal :=
  s.guarded (s.putScalar w false d (f w.bits (s.src w a) (i.val % w.bits)))
/-- A compare of two registers (R150). -/
def State.cmp (s : State) (w : Width) (d : Pr) (a b : Gpr) (f : Nat → Nat → Bool) : Host.Outcome State Fault Refusal :=
  s.guarded (s.putTruth d (f (s.src w a) (s.src w b)))
/-- A compare with an immediate, sign-extended to n bits (R150). -/
def State.cmpImm (s : State) (w : Width) (d : Pr) (a : Gpr) (i : Imm) (f : Nat → Nat → Bool) :
    Host.Outcome State Fault Refusal :=
  s.guarded (s.putTruth d (f (s.src w a) (immInt w.bits i)))
/-- A unary instruction (R151). -/
def State.un (s : State) (w : Width) (nat : Bool) (d a : Gpr) (f : Nat → Nat) : Host.Outcome State Fault Refusal :=
  s.guarded (s.putScalar w nat d (f (s.src w a)))

/-- The complement of an n-bit number. -/
def notN (n x : Nat) : Nat := 2 ^ n - 1 - x % 2 ^ n
def shlN (n x k : Nat) : Nat := x * 2 ^ k % 2 ^ n
def shrN (_ x k : Nat) : Nat := x / 2 ^ k
def sraN (n x k : Nat) : Nat := toBits n (sv n x / 2 ^ k)
def rolN (n x k : Nat) : Nat := (x * 2 ^ k % 2 ^ n) ||| (x / 2 ^ (n - k))
def rorN (n x k : Nat) : Nat := (x / 2 ^ k) ||| (x * 2 ^ (n - k) % 2 ^ n)
/-- The quotient and remainder of R80, signed. -/
def divS (n x y : Nat) : Nat := if y = 0 then 2 ^ n - 1 else toBits n ((sv n x).tdiv (sv n y))
def remS (n x y : Nat) : Nat := if y = 0 then x else toBits n ((sv n x).tmod (sv n y))
/-- The quotient and remainder of R80, natural. -/
def divU (n x y : Nat) : Nat := if y = 0 then 2 ^ n - 1 else x / y
def remU (_ x y : Nat) : Nat := if y = 0 then x else x % y
/-- A division counts one event when it divides by zero (R149). -/
def State.division (s : State) (w : Width) (nat : Bool) (d a b : Gpr) (f : Nat → Nat → Nat) :
    Host.Outcome State Fault Refusal :=
  s.guarded ((s.events { idz := if s.src w b = 0 then 1 else 0 }).putScalar w nat d (f (s.src w a) (s.src w b)))

/-- Zero bits above the highest one of n bits, and below the lowest. -/
def clzN (n x : Nat) : Nat := if x = 0 then n else n - 1 - Nat.log2 x
def ctzFrom (x k : Nat) : Nat → Nat
  | 0 => k
  | n + 1 => if bitOf x k then k else ctzFrom x (k + 1) n
def ctzN (n x : Nat) : Nat := ctzFrom x 0 n
def popN (x : Nat) : Nat → Nat
  | 0 => 0
  | n + 1 => x % 2 + popN (x / 2) n
/-- The n / 8 low bytes in reverse order. -/
def bswapN (x : Nat) : Nat → Nat
  | 0 => 0
  | n + 1 => x % 256 * 256 ^ n + bswapN (x / 256) n


/-- `ADD` (R146). -/
def execAdd (w : Width) (d a b : Gpr) (s : State) : Host.Outcome State Fault Refusal :=
  s.bin w false d a b fun x y => x + y

/-- `MIN` (R146). -/
def execMin (w : Width) (d a b : Gpr) (s : State) : Host.Outcome State Fault Refusal :=
  s.bin w false d a b fun x y => if sv w.bits x ≤ sv w.bits y then x else y

/-- `MAX` (R146). -/
def execMax (w : Width) (d a b : Gpr) (s : State) : Host.Outcome State Fault Refusal :=
  s.bin w false d a b fun x y => if sv w.bits y ≤ sv w.bits x then x else y

/-- `MINN` (R146). -/
def execMinn (w : Width) (d a b : Gpr) (s : State) : Host.Outcome State Fault Refusal :=
  s.bin w true d a b fun x y => if x ≤ y then x else y

/-- `MAXN` (R146). -/
def execMaxn (w : Width) (d a b : Gpr) (s : State) : Host.Outcome State Fault Refusal :=
  s.bin w true d a b fun x y => if y ≤ x then x else y

/-- `SUB` (R146). -/
def execSub (w : Width) (d a b : Gpr) (s : State) : Host.Outcome State Fault Refusal :=
  s.bin w false d a b fun x y => x + 2 ^ w.bits - y

/-- `AND` (R147). -/
def execAnd (w : Width) (d a b : Gpr) (s : State) : Host.Outcome State Fault Refusal :=
  s.bin w false d a b fun x y => x &&& y

/-- `OR` (R147). -/
def execOr (w : Width) (d a b : Gpr) (s : State) : Host.Outcome State Fault Refusal :=
  s.bin w false d a b fun x y => x ||| y

/-- `XOR` (R147). -/
def execXor (w : Width) (d a b : Gpr) (s : State) : Host.Outcome State Fault Refusal :=
  s.bin w false d a b fun x y => x ^^^ y

/-- `ANDN` (R147). -/
def execAndn (w : Width) (d a b : Gpr) (s : State) : Host.Outcome State Fault Refusal :=
  s.bin w false d a b fun x y => x &&& notN w.bits y

/-- `ORN` (R147). -/
def execOrn (w : Width) (d a b : Gpr) (s : State) : Host.Outcome State Fault Refusal :=
  s.bin w false d a b fun x y => x ||| notN w.bits y

/-- `XNOR` (R147). -/
def execXnor (w : Width) (d a b : Gpr) (s : State) : Host.Outcome State Fault Refusal :=
  s.bin w false d a b fun x y => notN w.bits (x ^^^ y)

/-- `ADDI` (R146). -/
def execAddi (w : Width) (d a : Gpr) (i : Imm) (s : State) : Host.Outcome State Fault Refusal :=
  s.guarded (s.putScalar w false d (s.src w a + immInt w.bits i))

/-- `SHL` (R148). -/
def execShl (w : Width) (d a b : Gpr) (s : State) : Host.Outcome State Fault Refusal :=
  s.shift w d a b shlN

/-- `SHLI` (R148). -/
def execShli (w : Width) (d a : Gpr) (i : Imm) (s : State) : Host.Outcome State Fault Refusal :=
  s.shiftImm w d a i shlN

/-- `SHR` (R148). -/
def execShr (w : Width) (d a b : Gpr) (s : State) : Host.Outcome State Fault Refusal :=
  s.shift w d a b shrN

/-- `SHRI` (R148). -/
def execShri (w : Width) (d a : Gpr) (i : Imm) (s : State) : Host.Outcome State Fault Refusal :=
  s.shiftImm w d a i shrN

/-- `SRA` (R148). -/
def execSra (w : Width) (d a b : Gpr) (s : State) : Host.Outcome State Fault Refusal :=
  s.shift w d a b sraN

/-- `SRAI` (R148). -/
def execSrai (w : Width) (d a : Gpr) (i : Imm) (s : State) : Host.Outcome State Fault Refusal :=
  s.shiftImm w d a i sraN

/-- `ROL` (R148). -/
def execRol (w : Width) (d a b : Gpr) (s : State) : Host.Outcome State Fault Refusal :=
  s.shift w d a b rolN

/-- `ROLI` (R148). -/
def execRoli (w : Width) (d a : Gpr) (i : Imm) (s : State) : Host.Outcome State Fault Refusal :=
  s.shiftImm w d a i rolN

/-- `ROR` (R148). -/
def execRor (w : Width) (d a b : Gpr) (s : State) : Host.Outcome State Fault Refusal :=
  s.shift w d a b rorN

/-- `RORI` (R148). -/
def execRori (w : Width) (d a : Gpr) (i : Imm) (s : State) : Host.Outcome State Fault Refusal :=
  s.shiftImm w d a i rorN

/-- `MUL` (R149). -/
def execMul (w : Width) (d a b : Gpr) (s : State) : Host.Outcome State Fault Refusal :=
  s.bin w false d a b fun x y => x * y

/-- `MULH` (R149). -/
def execMulh (w : Width) (d a b : Gpr) (s : State) : Host.Outcome State Fault Refusal :=
  s.bin w false d a b fun x y => toBits w.bits (sv w.bits x * sv w.bits y / 2 ^ w.bits)

/-- `MULHN` (R149). -/
def execMulhn (w : Width) (d a b : Gpr) (s : State) : Host.Outcome State Fault Refusal :=
  s.bin w true d a b fun x y => x * y / 2 ^ w.bits

/-- `DIV` (R80, R149). -/
def execDiv (w : Width) (d a b : Gpr) (s : State) : Host.Outcome State Fault Refusal :=
  s.division w false d a b (divS w.bits)

/-- `DIVN` (R80, R149). -/
def execDivn (w : Width) (d a b : Gpr) (s : State) : Host.Outcome State Fault Refusal :=
  s.division w true d a b (divU w.bits)

/-- `REM` (R80, R149). -/
def execRem (w : Width) (d a b : Gpr) (s : State) : Host.Outcome State Fault Refusal :=
  s.division w false d a b (remS w.bits)

/-- `REMN` (R80, R149). -/
def execRemn (w : Width) (d a b : Gpr) (s : State) : Host.Outcome State Fault Refusal :=
  s.division w true d a b (remU w.bits)

/-- `CMPEQ` (R150). -/
def execCmpeq (w : Width) (d : Pr) (a b : Gpr) (s : State) : Host.Outcome State Fault Refusal :=
  s.cmp w d a b fun x y => x == y

/-- `CMPEQI` (R150). -/
def execCmpeqi (w : Width) (d : Pr) (a : Gpr) (i : Imm) (s : State) : Host.Outcome State Fault Refusal :=
  s.cmpImm w d a i fun x y => x == y

/-- `CMPNE` (R150). -/
def execCmpne (w : Width) (d : Pr) (a b : Gpr) (s : State) : Host.Outcome State Fault Refusal :=
  s.cmp w d a b fun x y => x != y

/-- `CMPNEI` (R150). -/
def execCmpnei (w : Width) (d : Pr) (a : Gpr) (i : Imm) (s : State) : Host.Outcome State Fault Refusal :=
  s.cmpImm w d a i fun x y => x != y

/-- `CMPLT` (R150). -/
def execCmplt (w : Width) (d : Pr) (a b : Gpr) (s : State) : Host.Outcome State Fault Refusal :=
  s.cmp w d a b fun x y => decide (sv w.bits x < sv w.bits y)

/-- `CMPLTI` (R150). -/
def execCmplti (w : Width) (d : Pr) (a : Gpr) (i : Imm) (s : State) : Host.Outcome State Fault Refusal :=
  s.cmpImm w d a i fun x y => decide (sv w.bits x < sv w.bits y)

/-- `CMPLE` (R150). -/
def execCmple (w : Width) (d : Pr) (a b : Gpr) (s : State) : Host.Outcome State Fault Refusal :=
  s.cmp w d a b fun x y => decide (sv w.bits x ≤ sv w.bits y)

/-- `CMPLEI` (R150). -/
def execCmplei (w : Width) (d : Pr) (a : Gpr) (i : Imm) (s : State) : Host.Outcome State Fault Refusal :=
  s.cmpImm w d a i fun x y => decide (sv w.bits x ≤ sv w.bits y)

/-- `CMPLTN` (R150). -/
def execCmpltn (w : Width) (d : Pr) (a b : Gpr) (s : State) : Host.Outcome State Fault Refusal :=
  s.cmp w d a b fun x y => decide (x < y)

/-- `CMPLTNI` (R150). -/
def execCmpltni (w : Width) (d : Pr) (a : Gpr) (i : Imm) (s : State) : Host.Outcome State Fault Refusal :=
  s.cmpImm w d a i fun x y => decide (x < y)

/-- `CMPLEN` (R150). -/
def execCmplen (w : Width) (d : Pr) (a b : Gpr) (s : State) : Host.Outcome State Fault Refusal :=
  s.cmp w d a b fun x y => decide (x ≤ y)

/-- `CMPLENI` (R150). -/
def execCmpleni (w : Width) (d : Pr) (a : Gpr) (i : Imm) (s : State) : Host.Outcome State Fault Refusal :=
  s.cmpImm w d a i fun x y => decide (x ≤ y)

/-- `MOV` of a general register: all 64 bits (R152). -/
def execMov (d a : Gpr) (s : State) : Host.Outcome State Fault Refusal :=
  s.guarded (s.putGpr d (s.gpr a)).retire

/-- `MOV` of a capability: all 128 bits and the tag, with no check (R152). -/
def execMovCap (d a : Kr) (s : State) : Host.Outcome State Fault Refusal :=
  s.guarded (s.putCap d (s.cap a)).retire

/-- `NEG` (R151). -/
def execNeg (w : Width) (d a : Gpr) (s : State) : Host.Outcome State Fault Refusal :=
  s.un w false d a fun x => 2 ^ w.bits - x

/-- `NOT` (R151). -/
def execNot (w : Width) (d a : Gpr) (s : State) : Host.Outcome State Fault Refusal :=
  s.un w false d a fun x => notN w.bits x

/-- `CLZ` (R151). -/
def execClz (w : Width) (d a : Gpr) (s : State) : Host.Outcome State Fault Refusal :=
  s.un w false d a fun x => clzN w.bits x

/-- `CTZ` (R151). -/
def execCtz (w : Width) (d a : Gpr) (s : State) : Host.Outcome State Fault Refusal :=
  s.un w false d a fun x => ctzN w.bits x

/-- `POPC` (R151). -/
def execPopc (w : Width) (d a : Gpr) (s : State) : Host.Outcome State Fault Refusal :=
  s.un w false d a fun x => popN x w.bits

/-- `SEXT` (R151). -/
def execSext (w : Width) (d a : Gpr) (s : State) : Host.Outcome State Fault Refusal :=
  s.un w false d a fun x => x

/-- `ZEXT` (R151). -/
def execZext (w : Width) (d a : Gpr) (s : State) : Host.Outcome State Fault Refusal :=
  s.un w true d a fun x => x

/-- `BSWAP` (R151). -/
def execBswap (w : Width) (d a : Gpr) (s : State) : Host.Outcome State Fault Refusal :=
  s.un w false d a fun x => bswapN x (w.bits / 8)

/-- `SEL` executes whatever its guard and chooses by it (R153). -/
def execSel (d a b : Gpr) (s : State) : Host.Outcome State Fault Refusal :=
  .next (s.putGpr d (if s.guardOk then s.gpr a else s.gpr b)).retire

/-- `LIH` replaces the upper 16 bits (R154). -/
def execLih (d : Gpr) (i : Imm) (s : State) : Host.Outcome State Fault Refusal :=
  s.guarded (s.putGpr d (BitVec.ofNat 64 (immInt 16 i * 2 ^ 48 + (s.gpr d).toNat % 2 ^ 48))).retire

/-- `LI` writes its sign-extended immediate (R106, R155). -/
def execLi (d : Gpr) (i : Imm) (s : State) : Host.Outcome State Fault Refusal :=
  s.guarded (s.putGpr d (BitVec.ofNat 64 (liValue i))).retire

end Sys2Proof.Machine
end

