-- ==== Sys2Proof/Machine/Dispatch.lean ====
section
/-!
DEFINITION. One arm for each instruction and event: a call of its meaning.
-/
namespace Sys2Proof.Machine

/-- The effect of an instruction that issues, or of an event that is due, on the machine. -/
def exec (i : Instr) (s : State) : Host.Outcome State Fault Refusal :=
  match i with
  | .add w d a b => Sys2Proof.Machine.execAdd w d a b s
  | .min w d a b => Sys2Proof.Machine.execMin w d a b s
  | .max w d a b => Sys2Proof.Machine.execMax w d a b s
  | .minn w d a b => Sys2Proof.Machine.execMinn w d a b s
  | .maxn w d a b => Sys2Proof.Machine.execMaxn w d a b s
  | .addi w d a imm => Sys2Proof.Machine.execAddi w d a imm s
  | .sub w d a b => Sys2Proof.Machine.execSub w d a b s
  | .and w d a b => Sys2Proof.Machine.execAnd w d a b s
  | .or w d a b => Sys2Proof.Machine.execOr w d a b s
  | .xor w d a b => Sys2Proof.Machine.execXor w d a b s
  | .andn w d a b => Sys2Proof.Machine.execAndn w d a b s
  | .orn w d a b => Sys2Proof.Machine.execOrn w d a b s
  | .xnor w d a b => Sys2Proof.Machine.execXnor w d a b s
  | .shl w d a b => Sys2Proof.Machine.execShl w d a b s
  | .shr w d a b => Sys2Proof.Machine.execShr w d a b s
  | .sra w d a b => Sys2Proof.Machine.execSra w d a b s
  | .rol w d a b => Sys2Proof.Machine.execRol w d a b s
  | .ror w d a b => Sys2Proof.Machine.execRor w d a b s
  | .shli w d a imm => Sys2Proof.Machine.execShli w d a imm s
  | .shri w d a imm => Sys2Proof.Machine.execShri w d a imm s
  | .srai w d a imm => Sys2Proof.Machine.execSrai w d a imm s
  | .roli w d a imm => Sys2Proof.Machine.execRoli w d a imm s
  | .rori w d a imm => Sys2Proof.Machine.execRori w d a imm s
  | .mul w d a b => Sys2Proof.Machine.execMul w d a b s
  | .mulh w d a b => Sys2Proof.Machine.execMulh w d a b s
  | .mulhn w d a b => Sys2Proof.Machine.execMulhn w d a b s
  | .div w d a b => Sys2Proof.Machine.execDiv w d a b s
  | .divn w d a b => Sys2Proof.Machine.execDivn w d a b s
  | .rem w d a b => Sys2Proof.Machine.execRem w d a b s
  | .remn w d a b => Sys2Proof.Machine.execRemn w d a b s
  | .cmpeq w d a b => Sys2Proof.Machine.execCmpeq w d a b s
  | .cmpne w d a b => Sys2Proof.Machine.execCmpne w d a b s
  | .cmplt w d a b => Sys2Proof.Machine.execCmplt w d a b s
  | .cmple w d a b => Sys2Proof.Machine.execCmple w d a b s
  | .cmpltn w d a b => Sys2Proof.Machine.execCmpltn w d a b s
  | .cmplen w d a b => Sys2Proof.Machine.execCmplen w d a b s
  | .cmpeqi w d a imm => Sys2Proof.Machine.execCmpeqi w d a imm s
  | .cmpnei w d a imm => Sys2Proof.Machine.execCmpnei w d a imm s
  | .cmplti w d a imm => Sys2Proof.Machine.execCmplti w d a imm s
  | .cmplei w d a imm => Sys2Proof.Machine.execCmplei w d a imm s
  | .cmpltni w d a imm => Sys2Proof.Machine.execCmpltni w d a imm s
  | .cmpleni w d a imm => Sys2Proof.Machine.execCmpleni w d a imm s
  | .mov d a => Sys2Proof.Machine.execMov d a s
  | .movCap d a => Sys2Proof.Machine.execMovCap d a s
  | .neg w d a => Sys2Proof.Machine.execNeg w d a s
  | .not w d a => Sys2Proof.Machine.execNot w d a s
  | .clz w d a => Sys2Proof.Machine.execClz w d a s
  | .ctz w d a => Sys2Proof.Machine.execCtz w d a s
  | .popc w d a => Sys2Proof.Machine.execPopc w d a s
  | .sext w d a => Sys2Proof.Machine.execSext w d a s
  | .zext w d a => Sys2Proof.Machine.execZext w d a s
  | .bswap w d a => Sys2Proof.Machine.execBswap w d a s
  | .sel d a b => Sys2Proof.Machine.execSel d a b s
  | .lih d imm => Sys2Proof.Machine.execLih d imm s
  | .br o => Sys2Proof.Machine.execBr o s
  | .li d imm => Sys2Proof.Machine.execLi d imm s
  | .jmp t => Sys2Proof.Machine.execJmp t s
  | .call d t => Sys2Proof.Machine.execCall d t s
  | .ret t => Sys2Proof.Machine.execRet t s
  | .vadd w d a b => Sys2Proof.Machine.execVadd w d a b s
  | .vsub w d a b => Sys2Proof.Machine.execVsub w d a b s
  | .vmin w d a b => Sys2Proof.Machine.execVmin w d a b s
  | .vmax w d a b => Sys2Proof.Machine.execVmax w d a b s
  | .vminn w d a b => Sys2Proof.Machine.execVminn w d a b s
  | .vmaxn w d a b => Sys2Proof.Machine.execVmaxn w d a b s
  | .vadds w n d a b => Sys2Proof.Machine.execVadds w n d a b s
  | .vsubs w n d a b => Sys2Proof.Machine.execVsubs w n d a b s
  | .vmul w d a b => Sys2Proof.Machine.execVmul w d a b s
  | .vmulh w d a b => Sys2Proof.Machine.execVmulh w d a b s
  | .vmulhn w d a b => Sys2Proof.Machine.execVmulhn w d a b s
  | .vmad w d a b => Sys2Proof.Machine.execVmad w d a b s
  | .vdot4 n d a b => Sys2Proof.Machine.execVdot4 n d a b s
  | .vand w d a b => Sys2Proof.Machine.execVand w d a b s
  | .vor w d a b => Sys2Proof.Machine.execVor w d a b s
  | .vxor w d a b => Sys2Proof.Machine.execVxor w d a b s
  | .vandn w d a b => Sys2Proof.Machine.execVandn w d a b s
  | .vshl w d a b => Sys2Proof.Machine.execVshl w d a b s
  | .vshr w d a b => Sys2Proof.Machine.execVshr w d a b s
  | .vsra w d a b => Sys2Proof.Machine.execVsra w d a b s
  | .vcmpeq w d a b => Sys2Proof.Machine.execVcmpeq w d a b s
  | .vcmpne w d a b => Sys2Proof.Machine.execVcmpne w d a b s
  | .vcmplt w d a b => Sys2Proof.Machine.execVcmplt w d a b s
  | .vcmple w d a b => Sys2Proof.Machine.execVcmple w d a b s
  | .vcmpltn w d a b => Sys2Proof.Machine.execVcmpltn w d a b s
  | .vcmplen w d a b => Sys2Proof.Machine.execVcmplen w d a b s
  | .vsel d a b => Sys2Proof.Machine.execVsel d a b s
  | .vbcast w d a => Sys2Proof.Machine.execVbcast w d a s
  | .vbcastImm w d imm => Sys2Proof.Machine.execVbcastImm w d imm s
  | .viota w d a => Sys2Proof.Machine.execViota w d a s
  | .vmovpToPred d a => Sys2Proof.Machine.execVmovpToPred d a s
  | .vmovpToVec d a => Sys2Proof.Machine.execVmovpToVec d a s
  | .vperm w d a b => Sys2Proof.Machine.execVperm w d a b s
  | .vrot w d a b => Sys2Proof.Machine.execVrot w d a b s
  | .vzip w d a b => Sys2Proof.Machine.execVzip w d a b s
  | .vunzip w d a b => Sys2Proof.Machine.execVunzip w d a b s
  | .vredadd w d a => Sys2Proof.Machine.execVredadd w d a s
  | .vredmin w n d a => Sys2Proof.Machine.execVredmin w n d a s
  | .vredmax w n d a => Sys2Proof.Machine.execVredmax w n d a s
  | .vredand w d a => Sys2Proof.Machine.execVredand w d a s
  | .vredor w d a => Sys2Proof.Machine.execVredor w d a s
  | .vscanadd w d a => Sys2Proof.Machine.execVscanadd w d a s
  | .vscanmax w n d a => Sys2Proof.Machine.execVscanmax w n d a s
  | .vextr w n d a b => Sys2Proof.Machine.execVextr w n d a b s
  | .vins w d a b => Sys2Proof.Machine.execVins w d a b s
  | .pand d a b => Sys2Proof.Machine.execPand d a b s
  | .por d a b => Sys2Proof.Machine.execPor d a b s
  | .pxor d a b => Sys2Proof.Machine.execPxor d a b s
  | .pnot d a => Sys2Proof.Machine.execPnot d a s
  | .pcnt d a => Sys2Proof.Machine.execPcnt d a s
  | .pfirst d a => Sys2Proof.Machine.execPfirst d a s
  | .vfadd t r d a b => Sys2Proof.Machine.execVfadd t r d a b s
  | .vfsub t r d a b => Sys2Proof.Machine.execVfsub t r d a b s
  | .vfmul t r d a b => Sys2Proof.Machine.execVfmul t r d a b s
  | .vfmin t d a b => Sys2Proof.Machine.execVfmin t d a b s
  | .vfmax t d a b => Sys2Proof.Machine.execVfmax t d a b s
  | .vfma t r d a b => Sys2Proof.Machine.execVfma t r d a b s
  | .vfms t r d a b => Sys2Proof.Machine.execVfms t r d a b s
  | .vfnma t r d a b => Sys2Proof.Machine.execVfnma t r d a b s
  | .vfdiv t r d a b => Sys2Proof.Machine.execVfdiv t r d a b s
  | .vfsqrt t r d a => Sys2Proof.Machine.execVfsqrt t r d a s
  | .vfrcp t d a => Sys2Proof.Machine.execVfrcp t d a s
  | .vfrsq t d a => Sys2Proof.Machine.execVfrsq t d a s
  | .vfcmpeq t d a b => Sys2Proof.Machine.execVfcmpeq t d a b s
  | .vfcmpne t d a b => Sys2Proof.Machine.execVfcmpne t d a b s
  | .vfcmplt t d a b => Sys2Proof.Machine.execVfcmplt t d a b s
  | .vfcmple t d a b => Sys2Proof.Machine.execVfcmple t d a b s
  | .vfcmpun t d a b => Sys2Proof.Machine.execVfcmpun t d a b s
  | .vcvt c r n d a => Sys2Proof.Machine.execVcvt c r n d a s
  | .vqmx t m n d a => Sys2Proof.Machine.execVqmx t m n d a s
  | .vdqmx t m d a => Sys2Proof.Machine.execVdqmx t m d a s
  | .vfexp2 t d a => Sys2Proof.Machine.execVfexp2 t d a s
  | .vflog2 t d a => Sys2Proof.Machine.execVflog2 t d a s
  | .vftanh t d a => Sys2Proof.Machine.execVftanh t d a s
  | .vfsigm t d a => Sys2Proof.Machine.execVfsigm t d a s
  | .vsmx c d a b => Sys2Proof.Machine.execVsmx c d a b s
  | .vfredadd t r d a => Sys2Proof.Machine.execVfredadd t r d a s
  | .vfredmax t d a => Sys2Proof.Machine.execVfredmax t d a s
  | .vfredmin t d a => Sys2Proof.Machine.execVfredmin t d a s
  | .vfabs t d a => Sys2Proof.Machine.execVfabs t d a s
  | .vfneg t d a => Sys2Proof.Machine.execVfneg t d a s
  | .vfclass t d a => Sys2Proof.Machine.execVfclass t d a s
  | .ld t d k b => Sys2Proof.Machine.execLd t d k b s
  | .ldi t d k imm => Sys2Proof.Machine.execLdi t d k imm s
  | .st t d k b => Sys2Proof.Machine.execSt t d k b s
  | .sti t d k imm => Sys2Proof.Machine.execSti t d k imm s
  | .vld w d k x => Sys2Proof.Machine.execVld w d k x s
  | .vst w d k x => Sys2Proof.Machine.execVst w d k x s
  | .tld e x9 tr d k x => Sys2Proof.Machine.execTld e x9 tr d k x s
  | .rowact k x => Sys2Proof.Machine.execRowact k x s
  | .rowpre k x => Sys2Proof.Machine.execRowpre k x s
  | .capld d k b => Sys2Proof.Machine.execCapld d k b s
  | .capst d k b => Sys2Proof.Machine.execCapst d k b s
  | .capnarrow d k b => Sys2Proof.Machine.execCapnarrow d k b s
  | .capoff d k x9 => Sys2Proof.Machine.execCapoff d k x9 s
  | .mma ov nt d a b => Sys2Proof.Machine.execMma ov nt d a b s
  | .mmas ov nt d a b => Sys2Proof.Machine.execMmas ov nt d a b s
  | .mzero d => Sys2Proof.Machine.execMzero d s
  | .mfmt f => Sys2Proof.Machine.execMfmt f s
  | .tst d k x => Sys2Proof.Machine.execTst d k x s
  | .mepi m t r n a => Sys2Proof.Machine.execMepi m t r n a s
  | .tldacc d k x => Sys2Proof.Machine.execTldacc d k x s
  | .obput d a b => Sys2Proof.Machine.execObput d a b s
  | .obget d a b => Sys2Proof.Machine.execObget d a b s
  | .mstat d x9 => Sys2Proof.Machine.execMstat d x9 s
  | .mfence => Sys2Proof.Machine.execMfence s
  | .mfenceCore => Sys2Proof.Machine.execMfenceCore s
  | .rel sc => Sys2Proof.Machine.execRel sc s
  | .acq sc d a => Sys2Proof.Machine.execAcq sc d a s
  | .fence sc => Sys2Proof.Machine.execFence sc s
  | .amoadd t d k x x9 => Sys2Proof.Machine.execAmoadd t d k x x9 s
  | .amomin t d k x x9 => Sys2Proof.Machine.execAmomin t d k x x9 s
  | .amomax t d k x x9 => Sys2Proof.Machine.execAmomax t d k x x9 s
  | .amoand t d k x x9 => Sys2Proof.Machine.execAmoand t d k x x9 s
  | .amoor t d k x x9 => Sys2Proof.Machine.execAmoor t d k x x9 s
  | .amoxor t d k x x9 => Sys2Proof.Machine.execAmoxor t d k x x9 s
  | .amoswap t d k x x9 => Sys2Proof.Machine.execAmoswap t d k x x9 s
  | .cas t d k x => Sys2Proof.Machine.execCas t d k x s
  | .ldc d k x => Sys2Proof.Machine.execLdc d k x s
  | .ldf d k x => Sys2Proof.Machine.execLdf d k x s
  | .stp d k x => Sys2Proof.Machine.execStp d k x s
  | .sete k x => Sys2Proof.Machine.execSete k x s
  | .setf d k x => Sys2Proof.Machine.execSetf d k x s
  | .feq d k x => Sys2Proof.Machine.execFeq d k x s
  | .swarm sc d k x => Sys2Proof.Machine.execSwarm sc d k x s
  | .swwait d k x => Sys2Proof.Machine.execSwwait d k x s
  | .swadd sc d k x => Sys2Proof.Machine.execSwadd sc d k x s
  | .swrd d k x => Sys2Proof.Machine.execSwrd d k x s
  | .bar sc => Sys2Proof.Machine.execBar sc s
  | .logq d a x9 => Sys2Proof.Machine.execLogq d a x9 s
  | .mirfl d k b => Sys2Proof.Machine.execMirfl d k b s
  | .mirflAll => Sys2Proof.Machine.execMirflAll s
  | .cpy a => Sys2Proof.Machine.execCpy a s
  | .cpyMulticast a => Sys2Proof.Machine.execCpyMulticast a s
  | .cpyConvert a => Sys2Proof.Machine.execCpyConvert a s
  | .cpyf a => Sys2Proof.Machine.execCpyf a s
  | .collAllreduce sc a => Sys2Proof.Machine.execCollAllreduce sc a s
  | .collReduceScatter sc a => Sys2Proof.Machine.execCollReduceScatter sc a s
  | .collAllGather sc a => Sys2Proof.Machine.execCollAllGather sc a s
  | .collXorParity sc a => Sys2Proof.Machine.execCollXorParity sc a s
  | .send u d a b => Sys2Proof.Machine.execSend u d a b s
  | .recv d a => Sys2Proof.Machine.execRecv d a s
  | .rcallRd n d k x => Sys2Proof.Machine.execRcallRd n d k x s
  | .rcallWr n d k x => Sys2Proof.Machine.execRcallWr n d k x s
  | .rcallAdd d k x => Sys2Proof.Machine.execRcallAdd d k x s
  | .rcallSwap d k x => Sys2Proof.Machine.execRcallSwap d k x s
  | .rcallCas d k x => Sys2Proof.Machine.execRcallCas d k x s
  | .launch d a b => Sys2Proof.Machine.execLaunch d a b s
  | .launchi d a b => Sys2Proof.Machine.execLaunchi d a b s
  | .join d a => Sys2Proof.Machine.execJoin d a s
  | .epoll d x9 => Sys2Proof.Machine.execEpoll d x9 s
  | .sopen d a => Sys2Proof.Machine.execSopen d a s
  | .sclose a => Sys2Proof.Machine.execSclose a s
  | .sframe d a b => Sys2Proof.Machine.execSframe d a b s
  | .sgen d a => Sys2Proof.Machine.execSgen d a s
  | .sgenAbandon d a => Sys2Proof.Machine.execSgenAbandon d a s
  | .splay a b => Sys2Proof.Machine.execSplay a b s
  | .strunc a b => Sys2Proof.Machine.execStrunc a b s
  | .ssnap d a b => Sys2Proof.Machine.execSsnap d a b s
  | .skvaddr d a b => Sys2Proof.Machine.execSkvaddr d a b s
  | .sstat d a => Sys2Proof.Machine.execSstat d a s
  | .scommit a b => Sys2Proof.Machine.execScommit a b s
  | .snext d a => Sys2Proof.Machine.execSnext d a s
  | .trap imm => Sys2Proof.Machine.execTrap imm s
  | .tret => Sys2Proof.Machine.execTret s
  | .tretHalt => Sys2Proof.Machine.execTretHalt s
  | .tretAbort => Sys2Proof.Machine.execTretAbort s
  | .csrr d imm => Sys2Proof.Machine.execCsrr d imm s
  | .csrw a imm => Sys2Proof.Machine.execCsrw a imm s
  | .csrwCtxbase a imm => Sys2Proof.Machine.execCsrwCtxbase a imm s
  | .csrwLogsize a imm => Sys2Proof.Machine.execCsrwLogsize a imm s
  | .csrwMirsize a imm => Sys2Proof.Machine.execCsrwMirsize a imm s
  | .csrwUrglim a imm => Sys2Proof.Machine.execCsrwUrglim a imm s
  | .csrwSeed a imm => Sys2Proof.Machine.execCsrwSeed a imm s
  | .csrwWinbase a imm => Sys2Proof.Machine.execCsrwWinbase a imm s
  | .csrwRectdef a imm => Sys2Proof.Machine.execCsrwRectdef a imm s
  | .yield a => Sys2Proof.Machine.execYield a s
  | .park => Sys2Proof.Machine.execPark s
  | .wake a => Sys2Proof.Machine.execWake a s
  | .urg e d a b => Sys2Proof.Machine.execUrg e d a b s
  | .halt => Sys2Proof.Machine.execHalt s
  | .regevict d a => Sys2Proof.Machine.execRegevict d a s
  | .regload d a => Sys2Proof.Machine.execRegload d a s
  | .cntrd d n => Sys2Proof.Machine.execCntrd d n s
  | .cntclr a => Sys2Proof.Machine.execCntclr a s
  | .cntsum sc d a => Sys2Proof.Machine.execCntsum sc d a s
  | .brk imm => Sys2Proof.Machine.execBrk imm s
  | .step => Sys2Proof.Machine.execStep s
  | .stagedStart => Sys2Proof.Machine.execStagedStart s
  | .startEpisode => Sys2Proof.Machine.execStartEpisode s
  | .phaekusHeartbeat => Sys2Proof.Machine.execPhaekusHeartbeat s
  | .failover => Sys2Proof.Machine.execFailover s
  | .clockStepChange => Sys2Proof.Machine.execClockStepChange s
  | .quadReservationUpdate => Sys2Proof.Machine.execQuadReservationUpdate s
  | .thermalSample => Sys2Proof.Machine.execThermalSample s
  | .vaultRequestArrival => Sys2Proof.Machine.execVaultRequestArrival s
  | .vaultBeat => Sys2Proof.Machine.execVaultBeat s
  | .rowRepairEnd => Sys2Proof.Machine.execRowRepairEnd s
  | .refreshStart => Sys2Proof.Machine.execRefreshStart s
  | .refreshEnd => Sys2Proof.Machine.execRefreshEnd s
  | .laneFailure => Sys2Proof.Machine.execLaneFailure s
  | .laneRepairEnd => Sys2Proof.Machine.execLaneRepairEnd s
  | .vaultBusStallEnd => Sys2Proof.Machine.execVaultBusStallEnd s
  | .writeQueueSend => Sys2Proof.Machine.execWriteQueueSend s
  | .registerLineFill => Sys2Proof.Machine.execRegisterLineFill s
  | .vectorStart => Sys2Proof.Machine.execVectorStart s
  | .yieldEnd => Sys2Proof.Machine.execYieldEnd s
  | .walkStart => Sys2Proof.Machine.execWalkStart s
  | .walkComplete => Sys2Proof.Machine.execWalkComplete s
  | .walkRetry => Sys2Proof.Machine.execWalkRetry s
  | .shootdown => Sys2Proof.Machine.execShootdown s
  | .tableWriteSettled => Sys2Proof.Machine.execTableWriteSettled s
  | .fenceMarker => Sys2Proof.Machine.execFenceMarker s
  | .drainedPacket => Sys2Proof.Machine.execDrainedPacket s
  | .logShip => Sys2Proof.Machine.execLogShip s
  | .logEntryApply => Sys2Proof.Machine.execLogEntryApply s
  | .logAck => Sys2Proof.Machine.execLogAck s
  | .homeRead => Sys2Proof.Machine.execHomeRead s
  | .homeReadReply => Sys2Proof.Machine.execHomeReadReply s
  | .vaultAgentRequest => Sys2Proof.Machine.execVaultAgentRequest s
  | .homeAtomic => Sys2Proof.Machine.execHomeAtomic s
  | .homeFullEmpty => Sys2Proof.Machine.execHomeFullEmpty s
  | .homeSyncWord => Sys2Proof.Machine.execHomeSyncWord s
  | .homeWaitRetry => Sys2Proof.Machine.execHomeWaitRetry s
  | .remoteReply => Sys2Proof.Machine.execRemoteReply s
  | .postedPerformed => Sys2Proof.Machine.execPostedPerformed s
  | .switchMergeForward => Sys2Proof.Machine.execSwitchMergeForward s
  | .acqQuery => Sys2Proof.Machine.execAcqQuery s
  | .acqWriterDone => Sys2Proof.Machine.execAcqWriterDone s
  | .logqQuery => Sys2Proof.Machine.execLogqQuery s
  | .messageArrival => Sys2Proof.Machine.execMessageArrival s
  | .wakeArrival => Sys2Proof.Machine.execWakeArrival s
  | .nakArrival => Sys2Proof.Machine.execNakArrival s
  | .handlerDispatch => Sys2Proof.Machine.execHandlerDispatch s
  | .submissionArrival => Sys2Proof.Machine.execSubmissionArrival s
  | .launchAccept => Sys2Proof.Machine.execLaunchAccept s
  | .launchCounted => Sys2Proof.Machine.execLaunchCounted s
  | .launchPacketArrival => Sys2Proof.Machine.execLaunchPacketArrival s
  | .groupsPending => Sys2Proof.Machine.execGroupsPending s
  | .groupStart => Sys2Proof.Machine.execGroupStart s
  | .dieReport => Sys2Proof.Machine.execDieReport s
  | .completionRingWrite => Sys2Proof.Machine.execCompletionRingWrite s
  | .barrierArrival => Sys2Proof.Machine.execBarrierArrival s
  | .energyLeaseRequest => Sys2Proof.Machine.execEnergyLeaseRequest s
  | .energyLeaseGrant => Sys2Proof.Machine.execEnergyLeaseGrant s
  | .copyCommandStart => Sys2Proof.Machine.execCopyCommandStart s
  | .copySegment => Sys2Proof.Machine.execCopySegment s
  | .segmentApply => Sys2Proof.Machine.execSegmentApply s
  | .copyCompletion => Sys2Proof.Machine.execCopyCompletion s
  | .followOnIssue => Sys2Proof.Machine.execFollowOnIssue s
  | .hostFlushRead => Sys2Proof.Machine.execHostFlushRead s
  | .collDescriptorArrival => Sys2Proof.Machine.execCollDescriptorArrival s
  | .collInstanceRun => Sys2Proof.Machine.execCollInstanceRun s
  | .matrixGrant => Sys2Proof.Machine.execMatrixGrant s
  | .matrixPerform => Sys2Proof.Machine.execMatrixPerform s
  | .tstChunkWrite => Sys2Proof.Machine.execTstChunkWrite s
  | .flitTransmit => Sys2Proof.Machine.execFlitTransmit s
  | .flitReceive => Sys2Proof.Machine.execFlitReceive s
  | .retryRequest => Sys2Proof.Machine.execRetryRequest s
  | .trackDeath => Sys2Proof.Machine.execTrackDeath s
  | .linkDeath => Sys2Proof.Machine.execLinkDeath s
  | .urgentNakResend => Sys2Proof.Machine.execUrgentNakResend s
  | .endToEndAck => Sys2Proof.Machine.execEndToEndAck s
  | .frameArrival => Sys2Proof.Machine.execFrameArrival s
  | .streamOpPerform => Sys2Proof.Machine.execStreamOpPerform s
  | .truncationEvent => Sys2Proof.Machine.execTruncationEvent s
  | .trapDelivery => Sys2Proof.Machine.execTrapDelivery s
  | .urgRequestArrival => Sys2Proof.Machine.execUrgRequestArrival s
  | .urgentEpisodeStart => Sys2Proof.Machine.execUrgentEpisodeStart s
  | .urgLimit => Sys2Proof.Machine.execUrgLimit s
  | .deadlock => Sys2Proof.Machine.execDeadlock s
  | .quietPeriod => Sys2Proof.Machine.execQuietPeriod s
  | .containment => Sys2Proof.Machine.execContainment s
  | .hostBarWrite => Sys2Proof.Machine.execHostBarWrite s
  | .qresWrite => Sys2Proof.Machine.execQresWrite s
  | .contreqWrite => Sys2Proof.Machine.execContreqWrite s
  | .bar2TableWrite => Sys2Proof.Machine.execBar2TableWrite s
  | .launchDoorbellDirect => Sys2Proof.Machine.execLaunchDoorbellDirect s
  | .launchDoorbellIndirect => Sys2Proof.Machine.execLaunchDoorbellIndirect s
  | .launchResultRead => Sys2Proof.Machine.execLaunchResultRead s
  | .frameDoorbell => Sys2Proof.Machine.execFrameDoorbell s
  | .frameResultRead => Sys2Proof.Machine.execFrameResultRead s
  | .illegalEncoding => Sys2Proof.Machine.execIllegalEncoding s
  | .instructionFetchFault => Sys2Proof.Machine.execInstructionFetchFault s
  | .pcieError => Sys2Proof.Machine.execPcieError s

end Sys2Proof.Machine
end

