-- ==== Sys2Proof/Machine/Turns.lean ====
section
/-!
DEFINITION. What a slot does on its turn (R17, R38): fetching and decoding, the register lines of the instruction, and how the
two copies of a pair share it (R42, R245, R379).
-/
namespace Sys2Proof.Machine

/-! The kinds of instructions of a pair (R42, R245). -/

/-- How the copies of a pair share an instruction. -/
inductive PairKind where
  /-- Each copy performs it on its own registers. -/
  | each
  /-- The leading copy performs it and the trailing copy takes its results from the load-value queue. -/
  | lead
  /-- It is performed once, when the comparator has matched both copies; the number is its kind in `PAIR_MISMATCH` (R379), 0 of
  those that have none. -/
  | once (kind : Nat)
deriving DecidableEq, Repr

/-- The kind of an instruction of page 3, by its fields. -/
def pairKind3 (f : Fields) : PairKind :=
  match f.m with
  | 0x2 => .once 1 | 0x3 => .once 1 | 0x5 => .once 1
  | 0x8 => if f.md = 1 then .once 1 else if f.md = 0 then .lead else .each
  | _ => .lead
/-- Page 4: a tile store and `TLDACC` are the leading copy's alone, since the array keeps both accumulators (R245). -/
def pairKind4 (f : Fields) : PairKind :=
  match f.m with
  | 0x3 => .once 1 | 0x5 => .once 1 | 0x4 => .lead | 0x6 => .lead
  | 0x7 => if f.md = 0 ∧ f.q6 = 0 then .once 1 else .each
  | _ => .each
def pairKind5 (f : Fields) : PairKind :=
  match f.m with
  | 0x0 => .once 4 | 0x1 => .once 4 | 0x2 => .once 4 | 0x9 => .once 4
  | 0x7 => .lead | 0x8 => .lead
  | _ => .once 1
def pairKind6 (f : Fields) : PairKind :=
  match f.m with
  | 0x3 => .once 2 | 0x4 => .lead | 0x8 => .lead | 0x9 => .lead
  | _ => .once 3
/-- Page 8: reads of registers that are not the slot's own go through the load-value queue, on which the spec is silent
(assumption 63). -/
def pairKind8 (f : Fields) : PairKind :=
  match f.m with
  | 0x3 => if f.immN < 0x200 then .each else .lead
  | 0x4 => if f.immN < 0x200 then .each else .once 4
  | 0x5 => if f.md = 2 then .once 2 else if f.md = 1 then .lead else .each
  | 0x6 => .once 4
  | 0x7 => .once 0
  | 0x9 => .lead
  | _ => .each
/-- How a pair carries out an instruction whose guard holds. -/
def pairKind (i : Instr) : PairKind :=
  match i.fields with
  | none => .each
  | some f => match f.page with
    | 3 => pairKind3 f | 4 => pairKind4 f | 5 => pairKind5 f | 6 => pairKind6 f | 7 => .once 4 | 8 => pairKind8 f
    | _ => .each

/-- The issue record of a decoded chain. -/
def State.withIssue (s : State) (c n : Nat) (x : Chain) : State :=
  let pc := (s.slot c n).pc
  { s with issue := ⟨c, n, x.gd, pc, pc + 2 * x.len, x.base, x.pos, s.issue.evc⟩ }

/-- Whether the issuing instruction has no effect: its guard is false, or a vector load or store has no active element. -/
def State.guardedOff (s : State) (i : Instr) : Bool :=
  match i with
  | .vld w _ _ x => (s.activeIdx w.bits x).isEmpty
  | .vst w _ _ x => (s.activeIdx w.bits x).isEmpty
  | _ => !isVector i && !s.guardOk
/-- How a pair carries out a chain of one of its copies now. -/
def State.kindNow (s : State) (c n : Nat) (x : Chain) : PairKind :=
  if (s.withIssue c n x).guardedOff x.ins then .each else pairKind x.ins

/-! What the comparator sees (R42): the kind of the output, its address and its data. -/

/-- Where a capability and an index lead. -/
def State.addrOf (s : State) (k : Kr) (x : Nat) : List Nat :=
  let q := s.cap k
  [if q.tag then 1 else 0, q.obj, q.gen, q.base + x]
/-- A capability that leaves the core. -/
def State.capOut (s : State) (r : Nat) : List Nat :=
  let q := s.cap (BitVec.ofNat 4 r)
  [q.bits.toNat, if q.tag then 1 else 0]
def State.gprOut (s : State) (r : Gpr) : Nat := (s.gpr r).toNat
/-- A copy's block and the capabilities that it names: none for a buffer (R272). -/
def State.blockOut (s : State) (a : Vr) (src : Bool) : List Nat :=
  let b := (s.vec a).toNat % 2 ^ 512
  b :: (if src && !cSrcB b then s.capOut (cSrcK b) else []) ++ if !cDstB b then s.capOut (cDstK b) else []
/-- A collective's block and its two capabilities (R286). -/
def State.collOut (s : State) (a : Vr) : List Nat :=
  let b := (s.vec a).toNat % 2 ^ 512
  b :: s.capOut (cSrcK b) ++ s.capOut (cDstK b)
/-- The operation that an output is, whatever the form of its operands. -/
def Fields.operation (f : Fields) : List Nat :=
  let form : Bool := f.page == 6 || (f.page == 5 && f.m == 6)
  [f.page, if f.page = 3 ∧ f.m = 3 then 2 else f.m, if f.page = 3 ∧ f.m = 5 then 0 else f.md, if form then 0 else f.ty]

/-- The operands of an atomic whose data is `g[S]`. -/
def State.amoOut (s : State) (t : AmoTy) (d : Gpr) (k : Kr) (x : Idx) (r : BitVec 3) : List Nat :=
  s.addrOf k (s.index x) ++ [s.gprOut (BitVec.ofNat 6 r.toNat) % 2 ^ (8 * amoBytes t), if d = 0 then 1 else 0]
/-- The operands of an output as its issuing copy gives them. -/
def State.operandsOut (s : State) (i : Instr) : List Nat :=
  match i with
  | .st t d k b => s.addrOf k (s.gprOut b) ++ [s.gprOut d % 2 ^ (8 * t.bytes)]
  | .sti t d k i => s.addrOf k i.val ++ [s.gprOut d % 2 ^ (8 * t.bytes)]
  | .vst w d k x =>
    let data := elems w.bits (s.vec d)
    s.addrOf k 0 ++ (s.activeIdx w.bits x).flatMap fun p => [toBits 64 p.2, data[p.1]?.getD 0]
  | .capst d k b => s.addrOf k (s.gprOut b) ++ s.capOut d.toNat
  | .obput d a b => [d.code, (s.vec a).toNat, s.gprOut b]
  | .tst _ k x => s.addrOf k (s.index x)
  | .mfmt _ => (encode ⟨false, 0⟩ i).map (·.toNat)
  | .mepi m t r n a => [m.toNat, t.code, r.code, if n then 1 else 0, (s.vec a).toNat]
  | .rel sc => [sc.code]
  | .acq sc _ a => [sc.code, s.gprOut a]
  | .fence sc => [sc.code]
  | .mirfl d k b => s.addrOf k (s.gprOut b) ++ [s.gprOut d]
  | .amoadd t d k x r => s.amoOut t d k x r
  | .amomin t d k x r => s.amoOut t d k x r
  | .amomax t d k x r => s.amoOut t d k x r
  | .amoand t d k x r => s.amoOut t d k x r
  | .amoor t d k x r => s.amoOut t d k x r
  | .amoxor t d k x r => s.amoOut t d k x r
  | .amoswap t d k x r => s.amoOut t d k x r
  | .cas t d k x =>
    s.addrOf k (s.index x) ++ [s.gprOut d % 2 ^ (8 * amoBytes t), s.gprOut (nextGpr d) % 2 ^ (8 * amoBytes t)]
  | .ldc _ k x => s.addrOf k (s.index x)
  | .ldf _ k x => s.addrOf k (s.index x)
  | .stp d k x => s.addrOf k (s.index x) ++ [s.gprOut d]
  | .sete k x => s.addrOf k (s.index x)
  | .setf d k x => s.addrOf k (s.index x) ++ [s.gprOut d]
  | .feq d k x => s.addrOf k (s.index x) ++ [s.gprOut d]
  | .swarm sc d k x => s.addrOf k (s.index x) ++ [sc.code, s.gprOut d]
  | .swwait _ k x => s.addrOf k (s.index x)
  | .swadd sc d k x => s.addrOf k (s.index x) ++ [sc.code, s.gprOut d]
  | .swrd _ k x => s.addrOf k (s.index x)
  | .send _ d a b => [(s.vec a).toNat % 2 ^ 512, if d = 0 ∧ b = 0 then 1 else 0]
  | .wake a => [s.gprOut a]
  | .cpy a => s.blockOut a true
  | .cpyf a => s.blockOut a false
  | .collAllreduce sc a => sc.code :: s.collOut a
  | .rcallRd n _ k x => s.addrOf k (s.index x) ++ [n.toNat]
  | .rcallWr n d k x => s.addrOf k (s.index x) ++ [n.toNat, (s.vec d).toNat % 2 ^ (8 * rcBytes n)]
  | .rcallAdd d k x => s.addrOf k (s.index x) ++ [(s.vword d 0).toNat]
  | .rcallSwap d k x => s.addrOf k (s.index x) ++ [(s.vword d 0).toNat]
  | .rcallCas d k x => s.addrOf k (s.index x) ++ [(s.vword d 0).toNat, (s.vword d 1).toNat]
  | .launch _ a b => (s.vec a).toNat % 2 ^ 448 :: (below 5).flatMap fun i => s.capOut (b.toNat + i)
  | .launchi _ a b => (s.vec a).toNat % 2 ^ 448 :: (below 6).flatMap fun i => s.capOut (b.toNat + i)
  | .sopen _ a =>
    let x := (s.vec a).toNat % 2 ^ 512
    x :: s.capOut (bitsOf x 0 4) ++ s.capOut (bitsOf x 4 4)
  | .sclose a => [s.gprOut a]
  | .sframe _ a _ => [(s.vec a).toNat % 2 ^ 2560]
  | .sgen _ a => [s.gprOut a]
  | .sgenAbandon _ a => [s.gprOut a]
  | .splay a b => [s.gprOut a, s.gprOut b]
  | .strunc a b => [s.gprOut a, s.gprOut b]
  | .ssnap _ a b => [s.gprOut a, s.gprOut b]
  | .skvaddr _ a b => [s.gprOut a, s.gprOut b]
  | .sstat _ a => [s.gprOut a]
  | .scommit a b => [s.gprOut a, s.gprOut b]
  | .snext _ a => [s.gprOut a]
  | .csrw a i => [i.val, s.gprOut a]
  | .csrwCtxbase a i => [i.val, s.gprOut a]
  | .csrwLogsize a i => [i.val, s.gprOut a]
  | .csrwMirsize a i => [i.val, s.gprOut a]
  | .csrwUrglim a i => [i.val, s.gprOut a]
  | .csrwSeed a i => [i.val, s.gprOut a]
  | .csrwWinbase a i => [i.val, s.gprOut a]
  | .csrwRectdef a i => [i.val, s.gprOut a]
  | .urg e _ a b => [e.toNat, s.gprOut a, s.gprOut b]
  | _ => []
/-- An output of kind `k` as the comparator compares it. -/
def State.outputOf (s : State) (c n k : Nat) (x : Chain) : List Nat :=
  k :: ((x.ins.fields.map Fields.operation).getD []) ++ (s.withIssue c n x).operandsOut x.ins
/-- The bytes of store data that an output takes in the comparator; none but stores take any. -/
def State.outputSize (s : State) (c n : Nat) (x : Chain) : Nat :=
  match x.ins with
  | .st t _ _ _ => t.bytes
  | .sti t _ _ _ => t.bytes
  | .vst w _ _ i => w.bits / 8 * ((s.withIssue c n x).activeIdx w.bits i).length
  | .capst _ _ _ => 16
  | _ => 0
/-- The bytes that the comparator holds (R42). -/
abbrev comparatorBytes : Nat := 2048

/-! Issuing. -/

/-- What a slot does on its turn. -/
inductive Turn where
  /-- Nothing issues. -/
  | idle (s : State)
  /-- An instruction issues. -/
  | issue (i : Instr) (s : State)
deriving Repr

/-- Counts an issue (R354, R357), and keeps the counters as they were before it. -/
def State.countIssue (s : State) (c n : Nat) (i : Instr) : State :=
  let s := { s with issue := { s.issue with evc := (s.core c).evc } }
  let s := if n = 15 then s else (s.count c 13 1).charge (s.acctOf c n) 16
  if isVector i then s.charge (s.acctOf c n) 600 else s

/-- The first instruction of an urgent episode starts the clock of `URGLIM` and pauses every other slot (R32, R39, R375); a
`YIELD` ends with it (R268). -/
def State.noteUrgent (s : State) (c n : Nat) : State :=
  if n = 15 ∧ (s.core c).trap.urging ∧ (s.core c).trap.urgStart = none then
    let stop (p : Nat × Slot) : Nat × Slot :=
      if p.1 != 15 && s.runAt c p.1 == .running then (p.1, { p.2 with run := .paused, back := .running, idle := 0 }) else p
    (s.onCore c fun k => { k with slots := k.slots.map stop }).onTrap c fun k => { k with urgStart := some s.cycle }
  else s

/-- Bytes of objects by their first and last page. -/
def reachedPages (k : Cap) (x n : Nat) : Nat × Nat × Nat := (k.obj, (k.base + x) / 2 ^ 21, (k.base + x + max n 1 - 1) / 2 ^ 21)
/-- The pages that the issuing instruction reaches: those of its capability operand, or of the objects its block names. -/
def State.reaches (s : State) (i : Instr) : List (Nat × Nat × Nat) :=
  let at_ (k : Kr) (x n : Nat) : List (Nat × Nat × Nat) := [reachedPages (s.cap k) x n]
  let src (b : Nat) : List (Nat × Nat × Nat) := at_ (BitVec.ofNat 4 (cSrcK b)) (cSrcOff b) (cLen b)
  let dst (b : Nat) : List (Nat × Nat × Nat) := at_ (BitVec.ofNat 4 (cDstK b)) (cDstOff b) (cDstLen b)
  let elements (w : Width) (k : Kr) (x : VIdx) : List (Nat × Nat × Nat) :=
    (s.activeIdx w.bits x).flatMap fun p => at_ k p.2.toNat 1
  match i with
  | .vld w _ k x => elements w k x
  | .vst w _ k x => elements w k x
  | .tld e n _ _ k x => at_ k (s.index x) (tileBytes e n.toNat)
  | .tldacc _ k x => at_ k (s.index x) 16384
  | .tst _ k x => at_ k (s.index x) (storeSize (s.core s.ic).fmt (s.core s.ic).epi)
  | .cpy a => src (s.blockOf a) ++ dst (s.blockOf a)
  | .cpyf a => dst (s.blockOf a)
  | .collAllreduce _ a => src (s.blockOf a) ++ dst (s.blockOf a)
  | _ => match i.fields with
    | none => []
    | some f => match rowOf f with
      | none => []
      | some r => match r.a with
        | .cap _ =>
          if f.page < 3 ∨ 6 < f.page then []
          else at_ (BitVec.ofNat 4 f.a) (match r.b with
            | .imm => f.immN
            | _ => (s.gpr (BitVec.ofNat 6 f.b)).toNat) 1
        | _ => []
/-- An instruction's accesses, and the fetch of its halfwords, use the slot's translations (R314): what is used last is
replaced last. -/
def State.useTlb (s : State) (c n : Nat) (x : Chain) : State :=
  let u := s.withIssue c n x
  let t := s.slot c n
  let ps := (t.code.obj, t.pc / 2 ^ 21, (t.pc + 2 * x.len - 1) / 2 ^ 21) :: if u.guardOk then u.reaches x.ins else []
  let used (e : Tlb) : Bool := e.slot == n && ps.any fun p => e.obj == p.1 && p.2.1 ≤ e.page && e.page ≤ p.2.2
  s.onCore c fun k => { k with tlb := k.tlb.map fun e => if used e then { e with used := s.cycle } else e }

/-- The private registers that an instruction writes, by kind and code: none where it has no effect, and no predicate where no
lane is active (R108, R164). -/
def State.ownDests (s : State) (c n : Nat) (x : Chain) : List (Nat × Nat) :=
  let u := s.withIssue c n x
  let ds := (s.pairResults c n x.ins).map fun r => (r.1, r.2.1)
  if u.guardedOff x.ins then [] else if isVector x.ins && u.guardMask == 0 then ds.filter fun d => d.1 != 2 else ds
/-- The register lines of an instruction are used (R134), and its translations (R314), and the registers before it are kept
until its writes commit (R127), but for those that a leading copy has set aside. -/
def State.touchRegs (s : State) (c n : Nat) (x : Chain) : State :=
  ((s.useLines c (s.linesFor c n x.gd x.ins) (s.linesTo c n x.ins)).useTlb c n x).onSlot c n fun t =>
    if t.kept.isSome then t
    else { t with lanes := allLanes, before := some (s.cycle + 15, t.regs, s.ownDests c n x) }
/-- The lines that an instruction still lacks are filled while the slot is parked (R133). -/
def State.fillFor (s : State) (c n : Nat) (x : Chain) (ls : List Nat) : State :=
  s.fillLines c n (s.linesFor c n x.gd x.ins) ls
/-- A decoded instruction issues if its register lines are present; `doing` says what a leading copy performs for both. -/
def State.issueOne (s : State) (c n : Nat) (x : Chain) (doing : Option Instr) : Turn :=
  match s.missingLines c n x.gd x.ins with
  | [] =>
    let i := s.rowFor c n x.ins
    let s := (s.touchRegs c n x).onSlot c n fun t => { t with doing }
    .issue i (((s.withIssue c n x).noteUrgent c n).countIssue c n i)
  | ls => .idle (s.fillFor c n x ls)

/-! The copies of a pair (R42). -/

/-- An output goes into the comparator. A store lets the leading copy go on, unless its strand single-steps. It counts as
issued when it is performed, since it may still be refused (R354). -/
def State.giveOutput (s : State) (c n k : Nat) (x : Chain) : State :=
  let t := s.slot c n
  let size := s.outputSize c n x
  let o : PairOut := ⟨s.outputOf c n k x, size, x, t.regs⟩
  let s := (s.touchRegs c n x).onSlot c n fun t => { t with outs := t.outs ++ [o] }
  if 0 < size && !t.step then s.onSlot c n fun t => { t with pc := t.pc + 2 * x.len, done := t.done + 1, walked := [] } else s

/-- Instructions that each copy performs and that need not wait for the trailing copy: arithmetic, transfers within the code
object, and reads of the slot's own control registers. -/
def runsAhead (i : Instr) : Bool :=
  match i with
  | .jmp (.cap _ _) => false
  | .call _ (.cap _ _) => false
  | .ret (.cap _ _) => false
  | .jmp _ => true
  | .call _ _ => true
  | .ret _ => true
  | _ => i.fields.any fun f => f.page ≤ 2 || (f.page == 8 && f.m == 3)
/-- The turn of a leading copy. What `runsAhead` names, instructions without effect, stores and, while the comparator is empty,
loads and other reads run ahead of the trailing copy, should that have lost a turn; whatever else the leading copy does waits
until the trailing copy has come to it (assumption 58). -/
def State.turnLead (s : State) (c n : Nat) (x : Chain) : Turn :=
  let t := s.slot c n
  let behind := s.pairBehind c n
  let off := (s.withIssue c n x).guardedOff x.ins
  let ahead := !t.step && (off || runsAhead x.ins)
  let reads := !t.step && t.outs.isEmpty && x.ins.fields.any fun f => f.page != 4
  if t.doing.isSome then s.issueOne c n x t.doing
  else if t.outs.getLast?.any fun o => o.regs.done == t.done then .idle s
  else match s.kindNow c n x with
    | .each => if behind && !ahead then .idle s else s.issueOne c n x (if drawsSeed x.ins then some x.ins else none)
    | .lead => if behind && !reads then .idle s else s.issueOne c n x (some (s.rowFor c n x.ins))
    | .once k => match s.missingLines c n x.gd x.ins with
      | [] =>
        let held := sumList (t.outs.map (·.size))
        let size := s.outputSize c n x
        if 0 < size && comparatorBytes < held + size then .idle s else .idle (s.giveOutput c n k x)
      | ls => .idle (s.fillFor c n x ls)

/-- The copies disagree (R379): the trap is taken at the start of the output that differed, its frame without resumption; the
leading copy stands where it gave its output. -/
def State.mismatch (s : State) (c lead pc kind : Nat) (r : RegFile) : State :=
  (s.onSlot c lead fun t => t.withRegs r).raiseAt c lead causePairMismatch pc (kind * 2 ^ 32) pc true
/-- The leading copy performs an output that has been matched, with the registers with which it gave it. -/
def State.performOutput (s : State) (c lead : Nat) (o : PairOut) (rest : List PairOut) : Turn :=
  let s := s.onSlot c lead fun t =>
    { t.withRegs o.regs with outs := rest, doing := some o.ins.ins, kept := if t.done = o.regs.done then none else some t.regs }
  match s.missingLines c lead o.ins.gd o.ins.ins with
  | [] =>
    let i := s.rowFor c lead o.ins.ins
    .issue i (((s.touchRegs c lead o.ins).withIssue c lead o.ins).countIssue c lead o.ins.ins)
  | ls => .idle (s.fillFor c lead o.ins ls)
/-- A trailing copy that waits for the leading one, which has nothing for it, has come to it: only copies that went different
ways stand at different counts here (R162, assumption 58). -/
def State.meet (s : State) (c n : Nat) : State := s.onSlot c n fun t => { t with done := (s.slot c (n - 8)).done }
/-- The operands of an instruction in a slot's registers. -/
def State.operandsIn (s : State) (c n : Nat) (i : Instr) : List Nat :=
  ({ s with issue := { s.issue with core := c, slot := n } }).operandsOut i
/-- The trailing copy issues what the leading copy is performing for both, and waits with it (R42). A tile store's chunks wait
for this, since both copies must name one destination (R379). -/
def State.joinLead (s : State) (c n : Nat) (x : Chain) (doing : Instr) : State :=
  let lead := n - 8
  let s := ((s.touchRegs c n x).countIssue c n x.ins).onSlot c n fun t => { t with joined := some x }
  match doing with
  | .tst _ _ _ =>
    let same : Bool := match x.ins with
      | .tst _ _ _ => s.operandsIn c lead doing == s.operandsIn c n x.ins
      | _ => false
    let told (o : MatOp) : MatOp := if o.slot == lead && o.agrees.isNone then { o with agrees := some same } else o
    s.onCore c fun k => { k with matQ := k.matQ.map told }
  | _ => s

/-- The turn of a trailing copy. An instruction that draws random numbers draws those of the leading copy, so it starts from that
copy's generator, and the trailing slot's own `SEED` then holds what the leading slot's holds after it: on this the spec is
silent (R90, assumption 66). -/
def State.turnTrail (s : State) (c n : Nat) (x : Chain) : Turn :=
  let t := s.slot c n
  let lead := n - 8
  let h := s.slot c lead
  if t.joined.isSome then .idle s
  else match s.missingLines c n x.gd x.ins with
    | l :: ls => .idle (s.fillFor c n x (l :: ls))
    | [] => match s.kindNow c n x with
      | .each =>
        if h.done ≤ t.done && h.outs.isEmpty then .idle s
        else match drawsSeed x.ins, h.lvq with
          | true, e :: r =>
            ((s.onSlot c lead fun t => { t with lvq := r }).onSlot c n fun t => { t with seed := e.seed }).issueOne c n x none
          | _, _ => s.issueOne c n x none
      | .lead => match h.lvq with
        | e :: r =>
          let s := ((s.onSlot c lead fun t => { t with lvq := r }).touchRegs c n x).countIssue c n x.ins
          .idle (s.takeValue c n e x (t.done + 1))
        | [] => match h.doing, h.outs with
          | some i, _ => .idle (s.joinLead c n x i)
          | none, [] => .idle (s.meet c n)
          | none, o :: _ => .idle (s.mismatch c lead o.regs.pc (o.vals.headD 0) o.regs)
      | .once k => match h.outs with
        | [] => match h.doing with
          | some (.tst a d x') => .idle (s.joinLead c n x (.tst a d x'))
          | _ => .idle (s.meet c n)
        | o :: r =>
          let s := ((s.touchRegs c n x).countIssue c n x.ins).onSlot c n fun t => { t with joined := some x }
          if o.vals = s.outputOf c n k x then s.performOutput c lead o r
          else .idle (s.mismatch c lead t.pc (if k = 0 then o.vals.headD 0 else k) o.regs)

/-! The turn. -/

/-- A turn on which something may be fetched: walks for the code, a fetch fault, or a decoded chain (R100, R102, R157). -/
def State.turnFetch (s : State) (c n : Nat) : Turn :=
  let t := s.slot c n
  let none' : Chain := ⟨⟨false, 0⟩, .illegalEncoding, 1, 0, 0⟩
  match s.fetch c n with
  | .walk ps =>
    let s := s.onSlot c n fun t =>
      { t with run := .parked, why := .walk
               wait := some { fin := .again, left := ps.length, start := t.pc, next := t.pc } }
    .idle (ps.foldl (fun s p => s.now .walkStart [c, n, p.1, p.2]) s)
  | .fault cause a v =>
    if s.pairBehind c n then .idle s
    else .issue .instructionFetchFault { (s.withIssue c n none').noteUrgent c n with evt := [cause, a, v] }
  | .dec d => match d with
    | .more => .idle s
    | .ill cause h p =>
      let code := match cause with
        | .illOp => causeIllOp
        | .illPrefix => causeIllPrefix
        | .illField => causeIllField
      if s.pairBehind c n then .idle s
      else
        let s := ((s.withIssue c n { none' with base := h, pos := p }).noteUrgent c n).countIssue c n .illegalEncoding
        .issue .illegalEncoding { s with evt := [code, h.toNat, p] }
    | .ok gd i len base p =>
      let x : Chain := ⟨gd, i, len, base, p⟩
      if t.lead then s.turnLead c n x else if t.trail then s.turnTrail c n x else s.issueOne c n x none

/-- Whether a copy of a pair is kept from its turn by the other one (R42): both leave and re-enter the rotation together, the
leading copy first; a trailing copy that has come to what its parked leading copy performs for both still issues it. -/
def State.mateAway (s : State) (c n : Nat) : Bool :=
  let t := s.slot c n
  match pairMate t n with
  | none => false
  | some m =>
    let h := s.slot c m
    let joins := t.trail && h.run == .parked && h.doing.isSome && t.done == h.done && h.outs.isEmpty && t.joined.isNone
    !joins && (h.run != .running || (t.trail && s.cycle < max t.since h.since + 8))
/-- The turn of a slot (R17, R38). A copy of a pair has a turn only while both are in the rotation (R42). A trap that the
strand is to take at its next boundary waits for an instruction that has begun (R361) and goes before a `YIELD`'s idle rotations
(R268); then come the turns that the vector latch takes (R19). -/
def State.turn (s : State) (c n : Nat) : Turn :=
  let t := s.slot c n
  if t.run != .running || s.mateAway c n || (s.core c).contained then .idle s
  else if n = 15 ∧ (s.cycle < (s.core c).trap.readyAt ∨ (s.core c).trap.fills ≠ []) then .idle s
  else if (s.group? c t.bank).any fun g => !g.settled then .idle s
  else match (if t.redo then [] else t.later) with
    | r :: rest =>
      if s.pairBehind c n then .idle s
      else .idle ((s.setSlot c n { t with later := rest }).raiseAt c n r.cause
        (if r.cause = causeEnergy then t.pc else r.addr) r.value t.pc false)
    | [] =>
      if s.cycle < t.idle then .idle s
      else if s.cycle < t.vready then .idle (s.count c 7 1)
      else s.turnFetch c n

/-! Placing an instruction for the next step (the host's question): what a launch, `LOGSIZE`-free and with its registers
resident, would have left in slot 0 of core 0. -/

/-- The object, generation and vault address of the placed code. -/
abbrev placedObj : Nat := 0x2000
abbrev placedAt : Nat := 0x10000

/-- Halfwords at consecutive addresses, little-endian. -/
def putHalves (m : List Host.Cell) (a : Nat) : List Half → List Host.Cell
  | [] => m
  | h :: r => putHalves (Memory.writeNat m a h.toNat 2) (a + 2) r

/-- Slot 0 of core 0 runs the given halfwords, zeros after them, and it is its turn. -/
def State.placed (s : State) (hs : List Half) : State :=
  let hs := hs ++ List.replicate (5 - hs.length) (0 : Half)
  let ent : ObjEnt := { kind := kCode, len := 10, hpkg := s.pkg, loc := placedAt, ok := true }
  let tlb : Tlb := ⟨0, placedObj, 0, ent, true, 0, placedAt, placedObj, 0, false⟩
  let t : Slot :=
    { s.slot 0 0 with run := .running, why := .none, pc := 0, code := Cap.make 10 0 rX 0 placedObj, idle := 0
                      wait := none, later := [], redo := false, vready := 0, lead := false, trail := false, bank := 0, walked := [tlb]
                      ctxbase := 0x7FCFC000, based := true, away := false }
  let s := { s with agenda := [], turns := [0], tail := [], cycle := s.cycle / 16 * 16
                    mem := putHalves s.mem (vaultLoc 0 placedAt) hs }
  let s := if (s.group? 0 0).isSome then s else
    s.onCore 0 fun k => { k with groups := SMap.set k.groups 0 ⟨{ id := 0 }, 0, [0], 0, 0, [], [], [], true⟩ }
  let s := (s.onCore 0 fun k => { k with contained := false }).setSlot 0 0 t
  match decode hs with
  | .ok gd i _ _ _ =>
    let ls := s.missingLines 0 0 gd i
    s.onCore 0 fun k => { k with rc := k.rc ++ ls.map fun a => { addr := a, used := s.cycle, mark := none, slot := 0 } }
  | _ => s

end Sys2Proof.Machine
end

