-- ==== Sys2Proof/Machine/Tick.lean ====
section
/-!
DEFINITION. The clock: what becomes due on each clock, what each unit does on it, which slots have their turn, and what
commits at its end (R17, R127, R198, R255).
-/
namespace Sys2Proof.Machine

/-- Cores whose slot for this clock is in the rotation. -/
def State.turnsNow (s : State) : List Nat :=
  (s.cores.filter fun p => !p.2.contained && (p.2.slot (s.cycle % 16)).run == .running).map (·.1)

/-! Waits that end with a state of the core. -/

/-- Whether what a strand waits for has come about: the operations a fence or `HALT` waits for have been performed, or the
write queue has taken every line of a store or of a side log. -/
def State.waitOver (s : State) (c n : Nat) (t : Slot) (w : Wait) : Bool :=
  let taken : Bool := !s.isLate c (.slot (strandRef n w.ticket))
  match w.fin with
  | .halt => s.haltReady c n t
  | .mfence ops => !(s.core c).matQ.any fun o => ops.contains o.num
  | .fence ops => ops.all fun i => !(t.posted.any fun p => p.num == i) && !(t.held.any fun h => h.num == i)
  | .queued => taken
  | .again => w.tag && taken
  | .none => false
  | .load _ _ _ => false
  | .vload _ _ _ => false
  | .capld _ => false
  | .vbytes _ _ => false
  | .word _ => false
  | .outcome _ _ => false
  | .pred _ => false
  | .recv _ _ => false
  | .join _ _ => false
  | .park => false
  | .tile _ _ _ _ _ _ => false
  | .matrix _ => false
  | .sstat _ => false
  | .regload _ _ => false
  | .atomic _ _ _ => false
/-- Ends such a wait of a slot; a `HALT` whose operations end while urgent work runs is Paused (R32). -/
def State.endWaitAt (s : State) (c n : Nat) : State :=
  let t := s.slot c n
  match t.run, t.wait with
  | .parked, some w =>
    if w.fin.unperformed then s.performOwn c n t
    else if !s.waitOver c n t w then s
    else match w.fin with
      | .halt =>
        if (s.core c).urged && n != 15 then s.onSlot c n fun t => { t with run := .paused, back := .parked }
        else (s.onSlot c n fun t => { t with run := .running, why := .none, wait := none }).retireStrand c n
      | _ => s.endWait c n w
  | _, _ => s
/-- Ends such waits of a core, lower slots first; a Swapped strand's reason counts as satisfied (R376). -/
def State.endWaits (s : State) (c : Nat) : State :=
  let s := (below 16).foldl (fun s n => s.endWaitAt c n) s
  if (s.core c).swapped.isEmpty then s
  else
    let s := (s.core c).swapped.foldl (fun s p => if p.2.wait.any fun w => w.fin.unperformed then s.performOwn c p.1 p.2 else s) s
    let mark (p : Nat × Slot) : Nat × Slot :=
      if p.2.wait.any (fun w => s.waitOver c p.1 p.2 w) then (p.1, { p.2 with due := true }) else p
    s.onCore c fun k => { k with swapped := k.swapped.map mark }

/-! What a core's units do on a clock. -/

/-- The event that the copy engine's command at its end brings next (R276, R280, R281, R391). -/
def CopyCmd.endEvent (m : CopyCmd) : Instr :=
  if m.toHost && 0 < m.wrote && !m.flushed then .hostFlushRead
  else if !m.fill && cFollow m.block && !m.followed then .followOnIssue
  else .copyCompletion
/-- An uncorrectable error has struck a pinned line of the supervisor's image, and the core is to be contained (R380). -/
def State.pinnedHurt (s : State) (c : Nat) : Bool :=
  !s.badGranules.isEmpty && !(s.core c).contained && !s.mgmt.waiting.contains c &&
    s.badGranules.any fun p => p.2 == 1 && p.1 * 16 / 2 ^ 31 == c && s.rcPinned c (p.1 * 16 % 2 ^ 31)
/-- The events of a core that stand on this clock: messages are dispatched outside urgent work (R39). -/
def State.coreEvents (s : State) (c : Nat) : List Ev :=
  let k := s.core c
  let one (b : Bool) (e : Instr) : List Ev := if b then [⟨e, [c]⟩] else []
  one (s.nextBeat c).isSome .vaultBeat ++
  one (k.vault.wq.any fun e => !e.sent) .writeQueueSend ++
  one (!k.latch.isEmpty && k.vfree ≤ s.cycle) .vectorStart ++
  one (!k.agentQ.isEmpty && !k.agentBusy) .vaultAgentRequest ++
  one k.nextShip.isSome .logShip ++
  one k.copyToStart.isSome .copyCommandStart ++
  (match k.copyToEnd with
    | some m => [⟨m.endEvent, [c]⟩]
    | none => []) ++
  (if (s.collToEnd c).isSome then [⟨.copyCompletion, [c, 0, 1]⟩] else []) ++
  one (!k.urged && (s.dispatchable c).isSome) .handlerDispatch ++
  one (s.startable c).isSome .groupStart ++
  one (!k.trap.urgent.isEmpty && s.supFree c) .urgentEpisodeStart ++
  one (k.trap.urgent.isEmpty && !k.trap.pend.isEmpty && s.supFree c) .trapDelivery ++
  one (k.overLimit s.cycle) .urgLimit ++
  one (s.pinnedHurt c) .containment
/-- The copy engine's accesses of this clock (R198). -/
def State.engineEvents (s : State) : List Ev :=
  (s.cores.filter fun p => (p.2.copyToSend s.cycle).isSome).map fun p => ⟨.copySegment, [p.1]⟩

/-- A turn of a parked slot counts (R354). -/
def State.countParked (s : State) (c : Nat) : State := if s.runAt c (s.cycle % 16) = .parked then s.count c 14 1 else s
/-- A clock on which a tile load stalls counts (R195). -/
def State.countStall (s : State) (c : Nat) : State :=
  if s.tileStalled c then s.onCore c fun k => { k with tldw := min (k.tldw + 1) 0xFFFFFFFF } else s
/-- Cores ask for the leases their launches need (R358). -/
def State.askLeases (s : State) (c : Nat) : State :=
  let needs (e : Lease) : Bool :=
    e.balance ≤ 0 && !e.asked && !e.dry && (((s.launch? e.launch).map (·.launch.quota)).getD 0 != 0)
  let asks := (s.core c).leases.filter needs
  asks.foldl (fun s e =>
    (s.onCore c fun k =>
      { k with leases := updFirst (fun x => x.launch == e.launch) (fun x => { x with asked := true }) k.leases }).send c 0
        control 1 none (.leaseAsk e.launch c)) s

/-! What the dies, arrays, links and sequencer do on a clock. -/

/-- The entry an operation on a stream table is about, if it names one. -/
def StreamReq.entry (r : StreamReq) : Option Nat :=
  match r.op with
  | .sopen _ _ _ => none
  | .snext _ => none
  | _ => some (shIdx r.handle.toNat)
/-- A stream table starts the oldest operation or frame whose entry is free, and performs it four clocks later (R338). -/
def State.streamStart (s : State) (d : Nat) : State :=
  let x := s.die d
  let busy (r : StreamReq) : Bool := r.entry.any fun i => x.streamRun.any fun p => p.2.entry == some i
  match x.streamQ.find? fun r => !busy r with
  | none => s
  | some r =>
    let s := s.onDie d fun x =>
      { x with streamQ := delFirst (fun y => y == r) x.streamQ, streamRun := SMap.set x.streamRun (s.cycle + 4) r }
    match r.op with
    | .frame pkt => s.after 4 .frameArrival [pkt, d, s.cycle + 4]
    | _ => s.after 4 .streamOpPerform [d, s.cycle + 4]

/-- The collectives of a die that can begin, one event for each instance, and those that can go on (R287, R288). -/
def State.collEvents (s : State) (d : Nat) : List Ev :=
  let ready := (s.die d).gather.filter fun x => s.collReady d x
  let firsts := ready.foldl (fun (l : List Coll) x => if l.any fun y => y.joins x then l else l ++ [x]) []
  firsts.map (fun x => ⟨.collInstanceRun, [d, x.id]⟩) ++
    ((s.die d).insts.filter Inst.ready).map fun x => ⟨.collInstanceRun, [d, x.id, 1]⟩

/-- Arrays with an operation that could be granted; those of a busy array count a wait (R230). -/
def State.arrayEvents (s : State) : State × List Ev :=
  let arrays := (s.cores.filter fun p => !p.2.matQ.isEmpty).foldl (fun l p => setIns l (posArray p.1)) []
  let s' := arrays.foldl (fun s q =>
    if s.cycle < (s.quad q).until_ then
      ((s.grantOrder q).filter fun c =>
        match s.matReady c with
        | some o => (s.quad q).running != some (c, o.num)
        | none => false).foldl (fun s c => s.countWait c) s
    else s) s
  (s', (arrays.filter fun q => (s.quad q).until_ ≤ s.cycle).map fun q => ⟨.matrixGrant, [q]⟩)

/-- The sequencer's events, in the order of the queues (R30, R265, R389). -/
def State.launchEvents (s : State) : List Ev :=
  let accept := (below 16).filter fun q => (s.submissions.any fun x => x.1 == q) && s.queueRoom q
  let count := (below 16).filter fun q => (s.headOf q).any fun r => !r.ringWait
  let rings := [0, 1].filter fun k => (s.link k).ringRoom && s.launches.any fun p => p.2.ringWait && p.2.host == some k
  (accept.map fun q => ⟨.launchAccept, [q]⟩) ++ (count.map fun q => ⟨.launchCounted, [q]⟩) ++
    rings.map fun k => ⟨.completionRingWrite, [k]⟩

/-- Receptions come before transmissions: a flit that arrives on a clock can be sent on from the next (R425). -/
def State.trackEvents (s : State) : List Ev :=
  let rx := s.tracks.filter fun p => p.2.air.head?.any fun f => f.clock ≤ s.cycle
  let tx := s.tracks.filter fun p => !p.2.queue.isEmpty || p.2.resend != 0
  (tx.map fun p => ⟨.flitTransmit, [p.1]⟩) ++ rx.map fun p => ⟨.flitReceive, [p.1]⟩

/-- Detection of deadlock and of quiet periods (R46, R392), once staged start has brought the cores up. -/
def State.watchQuiet (s : State) : State × List Ev :=
  if s.cores.isEmpty then (s, [])
  else
    let quiet := s.allQuiet
    let s := if s.lineLow && !s.mgmt.armed then s.onMgmt fun m => { m with armed := true } else s
    let s := if s.mgmt.quietNow && !(quiet && s.mgmt.hwake) then s.onMgmt fun m => { m with quietNow := false } else s
    (s, if !quiet then [] else if s.mgmt.hwake then (if s.mgmt.quietNow then [] else [⟨.quietPeriod, []⟩])
      else if s.mgmt.armed then [⟨.deadlock, []⟩] else [])

/-- The refreshes that may begin on this clock, at the interval as it stands and at half of it, and, where the clock's step may
change, at every step's: the event looks at the interval of its own clock, which a thermal sample or a change of step may just
have set (R190, R401). They come before any beat. -/
def State.refreshEvents (s : State) (changes : Bool) : List Ev :=
  let all := if changes then (below 4).map fun i => bitsOf (stepRefcfg i) 0 16 else []
  s.cores.flatMap fun p =>
    let is := bitsOf (s.die (posDie p.1)).refcfg 0 16 :: all
    let on (i b : Nat) : Bool := i != 0 && s.cycle % i == b * i / 32
    ((below 32).filter fun b => is.any fun i => on i b || on (i / 2) b).map fun b => ⟨.refreshStart, [p.1, b]⟩
/-- Clocks between the samples of a core's temperatures: 10 µs (R1, R404). -/
abbrev sampleClocks : Nat := 14000
/-- Every core samples its temperatures, at multiples of the interval (R404, assumption 46). -/
def State.thermalEvents (s : State) : List Ev :=
  if s.cycle % sampleClocks ≠ 0 then []
  else s.cores.map fun p => ⟨.thermalSample, [p.1, Config.temperature p.1 false s.cycle, Config.temperature p.1 true s.cycle]⟩

/-! The order of one clock's events. -/

/-- The place of a core's strand among senders: package, logical core, slot (R255, R375). -/
def State.senderKey (s : State) (c slot : Nat) : Nat :=
  (if c < 864 then s.pkg * 1024 + s.logicalOf c else s.pkgOf c * 1024 + (c - 864) % 1024) * 16 + slot % 16
/-- The order of what a packet fills. -/
def State.packetKey (s : State) (p : Packet) : Option (Nat × Nat) :=
  match p.body with
  | .mail m => some (1, s.senderKey m.core m.slot)
  | .done _ _ _ _ slot => some (0, slot % 16)
  | .streamEvent _ _ _ e _ => some (0, e.taker % 16)
  | .urg core ref _ _ _ => some (1, s.senderKey core ref)
  | _ => none
/-- Events that fill an inbox on one clock, or bring an urgent request, have an order among them: device-generated messages by
their takers' slots, then arrivals by their senders (R255, R375). -/
def State.fillKey (s : State) (e : Ev) : Option (Nat × Nat) :=
  let c := e.args.headD 0
  match e.ev with
  | .copyCompletion =>
    if e.args.length = 3 then (s.collToEnd c).map fun x => (0, x.1.slot) else ((s.core c).copyToEnd).map fun m => (0, m.slot)
  | .matrixPerform => match (s.quad c).running with
    | some (p, num) => ((s.core p).matQ.find? fun o => o.num == num && o.notify).map fun o => (0, o.slot)
    | none => none
  | .messageArrival => (s.packet? c).bind s.packetKey
  | .truncationEvent => (s.packet? c).bind s.packetKey
  | .urgRequestArrival => (s.packet? c).bind s.packetKey
  | _ => none
/-- Places an event among those that have an order. -/
def insKeyed (x : (Nat × Nat) × Ev) : List ((Nat × Nat) × Ev) → List ((Nat × Nat) × Ev)
  | [] => [x]
  | y :: r => if x.1.1 < y.1.1 ∨ (x.1.1 = y.1.1 ∧ x.1.2 < y.1.2) then x :: y :: r else y :: insKeyed x r
/-- The events of a clock: what is due, the fills in their order, and what stands. -/
def State.inOrder (s : State) (due standing : List Ev) : List Ev :=
  let keyed := (due ++ standing).filterMap fun e => (s.fillKey e).map fun k => (k, e)
  let plain (es : List Ev) : List Ev := es.filter fun e => (s.fillKey e).isNone
  plain due ++ (keyed.foldl (fun l x => insKeyed x l) []).map (·.2) ++ plain standing

/-- What the clock brings besides the events that are due: the state and the standing events. -/
def State.standing (s : State) : State × List Ev :=
  let cores := s.cores.map (·.1)
  let s := s.takeFabric
  let s := cores.foldl (fun s c => ((s.endWaits c).countParked c).askLeases c) s
  let s := s.dies.foldl (fun s d => s.streamStart d.1) s
  let a := s.arrayEvents
  let q := a.1.watchQuiet
  let s := q.1
  (s, cores.flatMap (fun c => s.coreEvents c) ++ a.2 ++ s.dies.flatMap (fun d => s.collEvents d.1) ++ s.launchEvents ++
    s.trackEvents ++ q.2)

/-! The end of a clock. -/

/-- The register of an image that an offset lies in, by kind and code. -/
def imageReg (o : Nat) : Nat × Nat :=
  if o < 0x8000 then (1, o / 1024) else if o < 0x8100 then (0, (o - 0x8000) / 8)
  else if o < 0x8200 then (3, (o - 0x8100) / 16) else if o < 0x8300 then (2, (o - 0x8200) / 32) else (4, (o - 0x8300) / 8)
/-- The lanes of a register of its image that the slot's own writes take, of those that commit on the clocks asked for (R127,
R128). -/
def Slot.ownLanes (t : Slot) (on : Nat → Bool) (r : Nat × Nat) : Pred :=
  let came : List (Nat × Nat × Pred) := match t.arrival with
    | some (c, ds) => if on c then ds else []
    | none => []
  let issued : List (Nat × Nat × Pred) := match t.before with
    | some (c, _, ds) => if on c && t.wait.isNone then ds.map fun d => (d.1, d.2, if d.1 = 1 then t.lanes else allLanes) else []
    | none => []
  ((came ++ issued).filter fun d => d.1 == r.1 && d.2.1 == r.2).foldl (fun m d => m ||| d.2.2) 0
/-- Whether a shared write that commits now covers a byte of a bank image. -/
def ShWrite.covers (w : ShWrite) (now b o : Nat) : Bool :=
  decide (w.clock ≤ now) && w.bank == b && (if o < 0x8000 then w.vec && w.reg == o / 1024 && w.lanes.getLsbD (o % 1024 / 4)
    else !w.vec && o < 0x8100 && w.reg == (o - 0x8000) / 8)
/-- A supervisor's store into held image lines commits: lane by lane it loses to the own write of the image's slot and to shared
writes on the same clock, and counts once if it loses anything. An own write that commits later stands in the end; till then
the image shows the store (R127, R128). -/
def State.commitImg (s : State) (c : Nat) (w : ImgWrite) : State :=
  let own (on : Nat → Bool) (a : Nat) : Bool := match s.imageOf c a with
    | some (n, o) => ((s.slot c n).ownLanes on (imageReg o)).getLsbD (if o < 0x8000 then o % 1024 / 4 else 0)
    | none => false
  let kept (a : Nat) : Bool := own (fun x => s.cycle ≤ x) a
  let loses (a : Nat) : Bool := own (fun x => x == s.cycle) a || ((s.imageOf c a).isNone &&
    (s.bankOf c a).any fun p => (s.core c).shared.any fun x => x.covers s.cycle p.1 p.2)
  let older (t : Slot) : Slot := match t.before with
    | some (_, r, _) => t.withRegs r
    | none => t
  let put (s : State) (keep : Nat → Bool) : State :=
    (s.putVaultCells c (w.cells.filter fun p => !keep p.1)).putTag? c (w.cap.filter fun p => !keep p.1)
  let slots := w.cells.foldl (fun acc p => match s.imageOf c p.1 with
    | some (n, _) => setIns acc n
    | none => acc) []
  let s' := slots.foldl (fun s' n =>
    let old := ((put (s.onSlot c n older) fun _ => false).slot c n).regs
    s'.onSlot c n fun t => { t with before := t.before.map fun b => (b.1, old, b.2.2) }) (put s kept)
  s'.countLost c (if w.cells.any fun p => loses p.1 then 1 else 0)
/-- The image stores of a core whose commit clock has come. -/
def State.commitImgs (s : State) (c : Nat) : State :=
  let due := (s.core c).imgs.filter fun w => w.clock ≤ s.cycle
  if due.isEmpty then s
  else due.foldl (fun s w => s.commitImg c w) (s.onCore c fun k => { k with imgs := k.imgs.filter fun w => s.cycle < w.clock })

/-- The buffer moves whose commit clock has come write their bytes, and what waits for them goes on (R127, R236). -/
def State.commitObs (s : State) (c : Nat) : State :=
  let due := (s.core c).obs.filter fun w => w.clock ≤ s.cycle
  if due.isEmpty then s
  else due.foldl (fun s w => (s.writeMem (bufLoc c w.buf w.off) w.val.toNat 1024).endHolder c w.holder)
    (s.onCore c fun k => { k with obs := k.obs.filter fun w => s.cycle < w.clock })

/-- What commits on the clock that ends, on one core; the counters are then what an instruction of the next clock reads
(R356). -/
def State.commitCore (s : State) (c : Nat) : State :=
  let s := (((((s.countStall c).commitImgs c).commitShared c).commitObs c).commitEvcs c).commitCsrs c
  if (s.core c).evcSeen = (s.core c).evc then s else s.onCore c fun k => { k with evcSeen := k.evc }

/-- An access that the vault agent makes for a remote engine in the scratchpad, which comes after the slots' (R198). -/
def State.agentAccess (s : State) (e : Ev) : Bool :=
  e.ev == .segmentApply || (e.ev == .vaultAgentRequest && e.args.length == 2 &&
    match (s.packet? (e.args.getD 1 0)).map (·.body) with
    | some (Body.fetch f) => f.place == 1
    | _ => false)

/-- One clock ends and the next begins. -/
def State.tick (s : State) : State :=
  let s := s.cores.foldl (fun s p => s.commitCore p.1) s
  let s := { s with cycle := s.cycle + 1 }
  let due := (s.pending.takeWhile fun d => d.clock ≤ s.cycle).map fun d => Ev.mk d.ev d.args
  let come := (s.inputs.filter fun d => d.clock ≤ s.cycle).map fun d => Ev.mk d.ev d.args
  let s := { s with pending := s.pending.dropWhile fun d => d.clock ≤ s.cycle
                    inputs := s.inputs.filter fun d => s.cycle < d.clock }
  let late := due.filter s.agentAccess
  let now := (due.filter fun e => !s.agentAccess e) ++ come
  let changes := now.any fun e => e.ev == .clockStepChange || e.ev == .hostBarWrite
  let x := s.standing
  { x.1 with agenda := x.1.agenda ++ x.1.inOrder now (x.1.thermalEvents ++ x.1.refreshEvents changes ++ x.2)
             turns := x.1.turnsNow, tail := x.1.engineEvents ++ late }

end Sys2Proof.Machine
end

