-- ==== Sys2Proof/Machine/Step.lean ====
section
/-!
DEFINITION. One step of the machine: the next event that is due on this clock, else the next slot whose turn it is, else the
next access of an engine (R198), else the end of the clock; and how a table word is placed so that the next step runs it.
-/
namespace Sys2Proof.Machine

/-- One step. -/
def step (s : State) : Host.Outcome State Fault Refusal :=
  match s.agenda with
  | e :: rest => exec e.ev { s with agenda := rest, evt := e.args }
  | [] =>
    match s.turns with
    | c :: rest =>
      match ({ s with turns := rest }).turn c (s.cycle % 16) with
      | .idle t => .next t
      | .issue i t => exec i t
    | [] =>
      match s.tail with
      | e :: rest => exec e.ev { s with tail := rest, evt := e.args }
      | [] => .next s.tick

/-- The state with a table word at slot 0 of core 0, whose turn it is: what a launch does to place a program. -/
def State.withFetchWord (s : State) (nbits w : Nat) : State := s.placed (tableHalves nbits w)

end Sys2Proof.Machine
end

