-- ==== Sys2Proof/Certificates/Slice0/Obligations.lean ====
section
/-!
DEFINITION. The statements for the provers, with the words they are written in. Statements about an instruction give the
next state that exec answers; the operations they name (writing a register, retiring, parking, sending) have statements of
their own.
-/


/-! The vocabulary of the statements. -/

namespace Sys2Proof.Spec
open Sys2Proof.Machine

/-- The low bits of a general register that a scalar instruction of width w reads (R142). -/
abbrev low (s : State) (w : Width) (r : Gpr) : BitVec w.bits := (s.gpr r).setWidth w.bits
/-- An immediate of 4 bits and 12 for each prefix, sign-extended or cut to the width (R98). -/
abbrev immBits (w : Width) (i : Imm) : BitVec w.bits := (BitVec.ofNat (4 + 12 * i.ext) i.val).signExtend w.bits
/-- What a guarded scalar instruction answers: its effect, or with a false guard nothing but the advance (R108, R157). -/
abbrev guardedNext (s t : State) : Host.Outcome State Fault Refusal := .next (if s.guardOk then t else s.retire)
/-- g[d] := x, and the program counter advances (R157). -/
abbrev put (s : State) (d : Gpr) (x : Word) : State := (s.putGpr d x).retire
/-- An n-bit result written sign-extended (R142). -/
abbrev putS (s : State) (d : Gpr) {n : Nat} (x : BitVec n) : State := put s d (x.signExtend 64)
/-- An n-bit result written zero-extended (R142). -/
abbrev putN (s : State) (d : Gpr) {n : Nat} (x : BitVec n) : State := put s d (x.setWidth 64)
/-- The state after an access, in which the slot holds the translations for which it has waited (R314, R315). -/
abbrev After (s : State) (obj : Nat) (u : State) : State := u.installWalked s.ic (s.walkedFor obj)
/-- p[d] := 256 copies of a truth value, and the program counter advances (R126, R150). -/
abbrev truth (s : State) (d : Pr) (b : Bool) : State := (s.putPred d (if b then BitVec.allOnes 256 else 0)).retire

/-- Element i of a vector register at a width (R163). -/
abbrev elt (w : Nat) (v : Vec) (i : Nat) : BitVec w := v.extractLsb' (i * w) w
/-- The element is active: the mask bit of its first lane is set (R163, R164). -/
abbrev active (s : State) (w i : Nat) : Bool := s.guardMask.getLsbD (i * w / 32)
/-- The lanes of the active elements (R163). -/
abbrev CoversActive (s : State) (w : Nat) (lanes : Pred) : Prop :=
  ∀ j, j < 256 → lanes.getLsbD j = s.guardMask.getLsbD (if w = 64 then 2 * (j / 2) else j)
/-- The instruction leaves f i in every active element of v[d] and the old value in every other one, and counts the
events fl (R164). -/
abbrev Elements (e : Instr) (s : State) (w : Nat) (d : Vr) (fl : Fl) (f : Nat → BitVec w) : Prop :=
  ∃ x lanes, exec e s = .next (s.vecResult d x lanes fl) ∧ CoversActive s w lanes ∧
    ∀ i, i < 8192 / w → elt w x i = if active s w i then f i else elt w (s.vec d) i
/-- Lane j of a vector compare: the truth of every element in the lane (R171). -/
abbrev laneTruth (w : Nat) (t : Nat → Bool) (j : Nat) : Bool :=
  if w = 64 then t (j / 2) else (List.range (32 / w)).all fun q => t (j * (32 / w) + q)
/-- The instruction leaves t j in every bit j of p[d] whose mask bit is set and the old value in every other one, and
counts the events fl (R171, R178). -/
abbrev LaneBits (e : Instr) (s : State) (d : Pr) (fl : Fl) (t : Nat → Bool) : Prop :=
  ∃ x, exec e s = .next ((((s.latchEvents fl).putPred d x).startVector []).retire) ∧
    ∀ j, j < 256 → x.getLsbD j = if s.guardMask.getLsbD j then t j else (s.pred d).getLsbD j
/-- The instruction writes a word to g[d] through the vector unit and counts the events fl (R164). -/
abbrev vecWord (s : State) (d : Gpr) (x : Word) (fl : Fl) : Host.Outcome State Fault Refusal :=
  .next (s.vecToGpr d x fl)
/-- The events of the active elements, summed in order (R164). -/
abbrev activeEvents (s : State) (w : Nat) (f : Nat → Fl) : Fl :=
  ((List.range (8192 / w)).filter fun i => active s w i).foldr (fun i a => (f i).add a) Fl.none
/-- The tree of adjacent pairs over the 2ⁿ leaves from 2ⁿ × i (R97). -/
def pairTree {α : Type} (op : α → α → α) (x : Nat → α) : Nat → Nat → α
  | 0, i => x i
  | n + 1, i => op (pairTree op x n (2 * i)) (pairTree op x n (2 * i + 1))

/-- The generator after some draws (R90). -/
def seedAfter (x : Word) : Nat → Word
  | 0 => x
  | n + 1 =>
    let a := seedAfter x n
    let b := a ^^^ (a <<< 13)
    let c := b ^^^ (b >>> 7)
    c ^^^ (c <<< 17)
/-- The rounding of result i of an instruction: its mode, under `rsr` with draw number i + 1 (R89, R90). -/
def modeOf (s : State) (r : Rnd) (i : Nat) : RMode :=
  ⟨r, if r = .rsr then (seedAfter s.me.seed (i + 1)).toNat / 2 ^ 32 else 0⟩
/-- The slot's generator after an instruction of n results: only `rsr` draws (R90). -/
abbrev drawn (s : State) (r : Rnd) (n : Nat) : State :=
  s.setSeed (if r = .rsr then seedAfter s.me.seed n else s.me.seed)
/-- As Elements, for a result that rounds: op gives the bits and events of element i under its rounding. -/
abbrev FloatElements (e : Instr) (s : State) (w : Nat) (d : Vr) (r : Rnd) (op : RMode → Nat → Nat × Fl) : Prop :=
  ∃ x lanes, exec e s = .next ((drawn s r (8192 / w)).vecResult d x lanes (activeEvents s w fun i => (op (modeOf s r i) i).2)) ∧
    CoversActive s w lanes ∧
    ∀ i, i < 8192 / w → elt w x i =
      if active s w i then BitVec.ofNat w (op (modeOf s r i) i).1 else elt w (s.vec d) i
/-- The value of element i of a register in a format. -/
abbrev fval (f : Fmt) (v : Vec) (i : Nat) : Fv := f.value (elt f.width v i).toNat
/-- The value of element i of a second source: a register's element or the immediate (R179). -/
def fsrcVal (s : State) (f : Fmt) (b : FSrc) (i : Nat) : Fv :=
  match b with
  | .vec v => fval f (s.vec v) i
  | .imm k => f.value (immFloat f k)
/-- The number that a finite value is. -/
def num : Fv → Rat
  | .fin n m e => (if n then -1 else 1) * m * 2 ^ e
  | .inf _ => 0
  | .nan _ => 0
/-- The tree of R97 with each step told its level and place. -/
def levelTree {α : Type} (op : Nat → Nat → α → α → α) (x : Nat → α) : Nat → Nat → α
  | 0, i => x i
  | n + 1, i => op n i (levelTree op x n (2 * i)) (levelTree op x n (2 * i + 1))

end Sys2Proof.Spec

open Sys2Proof Sys2Proof.Machine Sys2Proof.Spec

/-! Page 0. -/

/-- R146. The sums and differences wrap at the width; the signed extremes compare signed values, the natural ones
natural values. -/
def Obligations.ScalarArithmetic : Prop :=
  ∀ (s : State) (w : Width) (d a b : Gpr) (i : Imm),
    exec (.add w d a b) s = guardedNext s (putS s d (low s w a + low s w b)) ∧
    exec (.addi w d a i) s = guardedNext s (putS s d (low s w a + immBits w i)) ∧
    exec (.sub w d a b) s = guardedNext s (putS s d (low s w a - low s w b)) ∧
    exec (.min w d a b) s = guardedNext s (putS s d (if (low s w a).sle (low s w b) then low s w a else low s w b)) ∧
    exec (.max w d a b) s = guardedNext s (putS s d (if (low s w b).sle (low s w a) then low s w a else low s w b)) ∧
    exec (.minn w d a b) s = guardedNext s (putN s d (if (low s w a).ule (low s w b) then low s w a else low s w b)) ∧
    exec (.maxn w d a b) s = guardedNext s (putN s d (if (low s w b).ule (low s w a) then low s w a else low s w b))

/-- R147. Bitwise logic at the width. -/
def Sys2Proof.Spec.ScalarLogic : Prop :=
  ∀ (s : State) (w : Width) (d a b : Gpr),
    exec (.and w d a b) s = guardedNext s (putS s d (low s w a &&& low s w b)) ∧
    exec (.or w d a b) s = guardedNext s (putS s d (low s w a ||| low s w b)) ∧
    exec (.xor w d a b) s = guardedNext s (putS s d (low s w a ^^^ low s w b)) ∧
    exec (.andn w d a b) s = guardedNext s (putS s d (low s w a &&& ~~~(low s w b))) ∧
    exec (.orn w d a b) s = guardedNext s (putS s d (low s w a ||| ~~~(low s w b))) ∧
    exec (.xnor w d a b) s = guardedNext s (putS s d (~~~(low s w a ^^^ low s w b)))

/-- R148. A register amount is g[b] modulo the width, an immediate amount its natural value modulo the width. -/
def Obligations.ScalarShifts : Prop :=
  ∀ (s : State) (w : Width) (d a b : Gpr) (i : Imm),
    exec (.shl w d a b) s = guardedNext s (putS s d (low s w a <<< ((s.gpr b).toNat % w.bits))) ∧
    exec (.shr w d a b) s = guardedNext s (putS s d (low s w a >>> ((s.gpr b).toNat % w.bits))) ∧
    exec (.sra w d a b) s = guardedNext s (putS s d ((low s w a).sshiftRight ((s.gpr b).toNat % w.bits))) ∧
    exec (.rol w d a b) s = guardedNext s (putS s d ((low s w a).rotateLeft ((s.gpr b).toNat % w.bits))) ∧
    exec (.ror w d a b) s = guardedNext s (putS s d ((low s w a).rotateRight ((s.gpr b).toNat % w.bits))) ∧
    exec (.shli w d a i) s = guardedNext s (putS s d (low s w a <<< (i.val % w.bits))) ∧
    exec (.shri w d a i) s = guardedNext s (putS s d (low s w a >>> (i.val % w.bits))) ∧
    exec (.srai w d a i) s = guardedNext s (putS s d ((low s w a).sshiftRight (i.val % w.bits))) ∧
    exec (.roli w d a i) s = guardedNext s (putS s d ((low s w a).rotateLeft (i.val % w.bits))) ∧
    exec (.rori w d a i) s = guardedNext s (putS s d ((low s w a).rotateRight (i.val % w.bits)))

/-- R149 and R80. The low and high halves of products; quotients truncated toward zero, with the corners of R80; one
event for each division by zero. -/
def Obligations.ScalarMultiplyDivide : Prop :=
  ∀ (s : State) (w : Width) (d a b : Gpr),
    let x := low s w a
    let y := low s w b
    let div (r : State → State) : State := r (s.events { idz := if y = 0 then 1 else 0 })
    exec (.mul w d a b) s = guardedNext s (putS s d (x * y)) ∧
    exec (.mulh w d a b) s = guardedNext s (putS s d (BitVec.ofInt w.bits (x.toInt * y.toInt / 2 ^ w.bits))) ∧
    exec (.mulhn w d a b) s = guardedNext s (putN s d (BitVec.ofNat w.bits (x.toNat * y.toNat / 2 ^ w.bits))) ∧
    exec (.div w d a b) s =
      guardedNext s (div fun t => putS t d (if y = 0 then BitVec.allOnes w.bits else x.sdiv y)) ∧
    exec (.divn w d a b) s =
      guardedNext s (div fun t => putN t d (if y = 0 then BitVec.allOnes w.bits else x / y)) ∧
    exec (.rem w d a b) s = guardedNext s (div fun t => putS t d (if y = 0 then x else x.srem y)) ∧
    exec (.remn w d a b) s = guardedNext s (div fun t => putN t d (if y = 0 then x else x % y))

/-- R150. A compare writes 256 copies of its truth value; the immediate is sign-extended for the natural members too. -/
def Sys2Proof.Spec.ScalarCompares : Prop :=
  ∀ (s : State) (w : Width) (d : Pr) (a b : Gpr) (i : Imm),
    exec (.cmpeq w d a b) s = guardedNext s (truth s d (decide (low s w a = low s w b))) ∧
    exec (.cmpne w d a b) s = guardedNext s (truth s d (decide (low s w a ≠ low s w b))) ∧
    exec (.cmplt w d a b) s = guardedNext s (truth s d ((low s w a).slt (low s w b))) ∧
    exec (.cmple w d a b) s = guardedNext s (truth s d ((low s w a).sle (low s w b))) ∧
    exec (.cmpltn w d a b) s = guardedNext s (truth s d ((low s w a).ult (low s w b))) ∧
    exec (.cmplen w d a b) s = guardedNext s (truth s d ((low s w a).ule (low s w b))) ∧
    exec (.cmpeqi w d a i) s = guardedNext s (truth s d (decide (low s w a = immBits w i))) ∧
    exec (.cmpnei w d a i) s = guardedNext s (truth s d (decide (low s w a ≠ immBits w i))) ∧
    exec (.cmplti w d a i) s = guardedNext s (truth s d ((low s w a).slt (immBits w i))) ∧
    exec (.cmplei w d a i) s = guardedNext s (truth s d ((low s w a).sle (immBits w i))) ∧
    exec (.cmpltni w d a i) s = guardedNext s (truth s d ((low s w a).ult (immBits w i))) ∧
    exec (.cmpleni w d a i) s = guardedNext s (truth s d ((low s w a).ule (immBits w i)))

/-- R151. The unary family; the counts are stated by the bits they count, and a byte swap by the bytes it moves. -/
def Sys2Proof.Spec.ScalarUnary : Prop :=
  ∀ (s : State) (w : Width) (d a : Gpr),
    let x := low s w a
    exec (.neg w d a) s = guardedNext s (putS s d (-x)) ∧
    exec (.not w d a) s = guardedNext s (putS s d (~~~x)) ∧
    exec (.sext w d a) s = guardedNext s (putS s d x) ∧
    exec (.zext w d a) s = guardedNext s (putN s d x) ∧
    (∃ k, exec (.clz w d a) s = guardedNext s (putS s d (BitVec.ofNat w.bits k)) ∧ k ≤ w.bits ∧
      (∀ j, j < k → x.getMsbD j = false) ∧ (k < w.bits → x.getMsbD k = true)) ∧
    (∃ k, exec (.ctz w d a) s = guardedNext s (putS s d (BitVec.ofNat w.bits k)) ∧ k ≤ w.bits ∧
      (∀ j, j < k → x.getLsbD j = false) ∧ (k < w.bits → x.getLsbD k = true)) ∧
    exec (.popc w d a) s =
      guardedNext s (putS s d (BitVec.ofNat w.bits ((List.range w.bits).countP fun j => x.getLsbD j))) ∧
    (∃ r : BitVec w.bits, exec (.bswap w d a) s = guardedNext s (putS s d r) ∧
      ∀ j, j < w.bits / 8 → r.extractLsb' (8 * j) 8 = x.extractLsb' (8 * (w.bits / 8 - 1 - j)) 8)

/-- R152, R153, R154 and R106. Moves copy whole registers; `SEL` executes whatever its guard; `LIH` replaces the upper 16
bits; `LI` writes its sign-extended immediate. -/
def Sys2Proof.Spec.ScalarMoves : Prop :=
  ∀ (s : State) (d a b : Gpr) (k k' : Kr) (i : Imm),
    exec (.mov d a) s = guardedNext s (put s d (s.gpr a)) ∧
    exec (.movCap k k') s = guardedNext s (s.putCap k (s.cap k')).retire ∧
    exec (.sel d a b) s = .next (put s d (if s.guardOk then s.gpr a else s.gpr b)) ∧
    exec (.lih d i) s = guardedNext s (put s d ((immBits .w16 i).setWidth 64 <<< 48 ||| s.gpr d &&& 0xFFFFFFFFFFFF#64)) ∧
    exec (.li d i) s = guardedNext s (put s d ((BitVec.ofNat (8 + 12 * i.ext) i.val).signExtend 64))

/-- R147, R151: the logic and one-operand instructions of general registers. -/
def Obligations.ScalarBits : Prop := Spec.ScalarLogic ∧ Spec.ScalarUnary

/-- The compares and moves of general registers. -/
def Obligations.ScalarComparesAndMoves : Prop := Spec.ScalarCompares ∧ Spec.ScalarMoves


/-! Page 1. -/

/-- R168 and R169. Sums, differences, extremes and products of elements; `VADDS` and `VSUBS` clamp to the range of the
width and count each clamped active element; `VMAD` adds the old element of d, `VDOT4` the four byte products of a lane. -/
def Sys2Proof.Spec.VectorArithmetic : Prop :=
  ∀ (s : State) (w : Width) (n : Bool) (d a b : Vr),
    let x := elt w.bits (s.vec a)
    let y := elt w.bits (s.vec b)
    let val (v : BitVec w.bits) : Int := if n then v.toNat else v.toInt
    let lo : Int := if n then 0 else -(2 ^ (w.bits - 1))
    let hi : Int := if n then 2 ^ w.bits - 1 else 2 ^ (w.bits - 1) - 1
    let clamp (i : Int) : BitVec w.bits := BitVec.ofInt w.bits (max lo (min hi i))
    let sat (f : Nat → Int) : Fl := activeEvents s w.bits fun i => { sat := if f i < lo ∨ hi < f i then 1 else 0 }
    let byte (v : Vec) (i : Nat) : Int := if n then (elt 8 v i).toNat else (elt 8 v i).toInt
    Elements (.vadd w d a b) s w.bits d .none (fun i => x i + y i) ∧
    Elements (.vsub w d a b) s w.bits d .none (fun i => x i - y i) ∧
    Elements (.vmin w d a b) s w.bits d .none (fun i => if (x i).sle (y i) then x i else y i) ∧
    Elements (.vmax w d a b) s w.bits d .none (fun i => if (y i).sle (x i) then x i else y i) ∧
    Elements (.vminn w d a b) s w.bits d .none (fun i => if (x i).ule (y i) then x i else y i) ∧
    Elements (.vmaxn w d a b) s w.bits d .none (fun i => if (y i).ule (x i) then x i else y i) ∧
    Elements (.vadds w n d a b) s w.bits d (sat fun i => val (x i) + val (y i))
      (fun i => clamp (val (x i) + val (y i))) ∧
    Elements (.vsubs w n d a b) s w.bits d (sat fun i => val (x i) - val (y i))
      (fun i => clamp (val (x i) - val (y i))) ∧
    Elements (.vmul w d a b) s w.bits d .none (fun i => x i * y i) ∧
    Elements (.vmulh w d a b) s w.bits d .none
      (fun i => BitVec.ofInt w.bits ((x i).toInt * (y i).toInt / 2 ^ w.bits)) ∧
    Elements (.vmulhn w d a b) s w.bits d .none
      (fun i => BitVec.ofNat w.bits ((x i).toNat * (y i).toNat / 2 ^ w.bits)) ∧
    Elements (.vmad w d a b) s w.bits d .none (fun i => x i * y i + elt w.bits (s.vec d) i) ∧
    Elements (.vdot4 n d a b) s 32 d .none (fun j => elt 32 (s.vec d) j + BitVec.ofInt 32
      (byte (s.vec a) (4 * j) * byte (s.vec b) (4 * j) + byte (s.vec a) (4 * j + 1) * byte (s.vec b) (4 * j + 1) +
       byte (s.vec a) (4 * j + 2) * byte (s.vec b) (4 * j + 2) + byte (s.vec a) (4 * j + 3) * byte (s.vec b) (4 * j + 3)))

/-- R170. Logic and shifts of elements; a shift amount is the element of b modulo the width. -/
def Sys2Proof.Spec.VectorLogicShifts : Prop :=
  ∀ (s : State) (w : Width) (d a b : Vr),
    let x := elt w.bits (s.vec a)
    let y := elt w.bits (s.vec b)
    Elements (.vand w d a b) s w.bits d .none (fun i => x i &&& y i) ∧
    Elements (.vor w d a b) s w.bits d .none (fun i => x i ||| y i) ∧
    Elements (.vxor w d a b) s w.bits d .none (fun i => x i ^^^ y i) ∧
    Elements (.vandn w d a b) s w.bits d .none (fun i => x i &&& ~~~(y i)) ∧
    Elements (.vshl w d a b) s w.bits d .none (fun i => x i <<< ((y i).toNat % w.bits)) ∧
    Elements (.vshr w d a b) s w.bits d .none (fun i => x i >>> ((y i).toNat % w.bits)) ∧
    Elements (.vsra w d a b) s w.bits d .none (fun i => (x i).sshiftRight ((y i).toNat % w.bits))

/-- R171, page 1. Integer compares of elements into the lanes of a predicate. -/
def Obligations.VectorCompares : Prop :=
  ∀ (s : State) (w : Width) (d : Pr) (a b : Vr),
    let x := elt w.bits (s.vec a)
    let y := elt w.bits (s.vec b)
    LaneBits (.vcmpeq w d a b) s d .none (laneTruth w.bits fun i => decide (x i = y i)) ∧
    LaneBits (.vcmpne w d a b) s d .none (laneTruth w.bits fun i => decide (x i ≠ y i)) ∧
    LaneBits (.vcmplt w d a b) s d .none (laneTruth w.bits fun i => (x i).slt (y i)) ∧
    LaneBits (.vcmple w d a b) s d .none (laneTruth w.bits fun i => (x i).sle (y i)) ∧
    LaneBits (.vcmpltn w d a b) s d .none (laneTruth w.bits fun i => (x i).ult (y i)) ∧
    LaneBits (.vcmplen w d a b) s d .none (laneTruth w.bits fun i => (x i).ule (y i))

/-- R172 and R173. `VSEL` (page 1, M 5) chooses lane by lane and writes every lane, whatever its guard, and with an
unwritten guard copies `a`; `VBCAST`, `VIOTA` and `VMOVP` fill active
elements and lanes. -/
def Sys2Proof.Spec.VectorSelectBroadcast : Prop :=
  ∀ (s : State) (w : Width) (d a b : Vr) (g : Gpr) (p : Pr) (k : Imm),
    (∃ x, exec (.vsel d a b) s = .next (s.vecResult d x allLanes .none) ∧
      (∀ j, j < 256 → elt 32 x j = if s.guardMask.getLsbD j then elt 32 (s.vec a) j else elt 32 (s.vec b) j) ∧
      (s.guardMask = BitVec.allOnes 256 → x = s.vec a)) ∧
    (∃ f, (Instr.vsel d a b).fields = some f ∧ f.page = 1 ∧ f.m = 5) ∧
    Elements (.vbcast w d g) s w.bits d .none (fun _ => low s w g) ∧
    Elements (.vbcastImm w d k) s w.bits d .none (fun _ => immBits w k) ∧
    Elements (.viota w d g) s w.bits d .none (fun i => low s w g + BitVec.ofNat w.bits i) ∧
    LaneBits (.vmovpToPred p a) s p .none (fun j => decide (elt 32 (s.vec a) j ≠ 0)) ∧
    Elements (.vmovpToVec d p) s 32 d .none (fun j => if (s.pred p).getLsbD j then BitVec.allOnes 32 else 0)

/-- R174 and R175. A permute forms a whole image first, with every index modulo the element count; `VEXTR` and `VINS` do
nothing to their destination when the one element they name is inactive. -/
def Sys2Proof.Spec.VectorPermutes : Prop :=
  ∀ (s : State) (w : Width) (n : Bool) (d a b : Vr) (g h : Gpr),
    let e := 8192 / w.bits
    let x := elt w.bits (s.vec a)
    let y := elt w.bits (s.vec b)
    let k := (s.gpr h).toNat % e
    Elements (.vperm w d a b) s w.bits d .none (fun i => x ((y i).toNat % e)) ∧
    Elements (.vrot w d a h) s w.bits d .none (fun i => x ((i + (s.gpr h).toNat) % e)) ∧
    Elements (.vzip w d a b) s w.bits d .none (fun i => if i % 2 = 0 then x (i / 2) else y (i / 2)) ∧
    Elements (.vunzip w d a b) s w.bits d .none (fun i => if i < e / 2 then x (2 * i) else y (2 * (i - e / 2))) ∧
    exec (.vextr w n g a h) s = (if active s w.bits k then
        vecWord s g (if n then (x k).setWidth 64 else (x k).signExtend 64) .none
      else .next (s.startVector []).retire) ∧
    (if active s w.bits k then
        ∃ v lanes, exec (.vins w d g h) s = .next (s.vecResult d v lanes .none) ∧
          (∀ j, j < 256 → lanes.getLsbD j = decide (j * 32 / w.bits = k ∨ j = k * w.bits / 32)) ∧
          ∀ i, i < e → elt w.bits v i = if i = k then low s w g else elt w.bits (s.vec d) i
      else exec (.vins w d g h) s = .next (s.startVector []).retire)

/-- R97, R176 and R177. An integer reduction is one tree of adjacent pairs over all elements with the identity in place
of the inactive ones; a scan combines the active elements up to each active one. -/
def Obligations.VectorReductionsScans : Prop :=
  ∀ (s : State) (w : Width) (n : Bool) (g : Gpr) (d a : Vr),
    let x := elt w.bits (s.vec a)
    let le (u v : BitVec w.bits) : Bool := if n then u.ule v else u.sle v
    let least (u v : BitVec w.bits) := if le u v then u else v
    let most (u v : BitVec w.bits) := if le v u then u else v
    let red (ident : BitVec w.bits) (op : BitVec w.bits → BitVec w.bits → BitVec w.bits) : BitVec w.bits :=
      pairTree op (fun i => if active s w.bits i then x i else ident) (Nat.log2 (8192 / w.bits)) 0
    let scan (op : BitVec w.bits → BitVec w.bits → BitVec w.bits) (i : Nat) : BitVec w.bits :=
      (((List.range i).filter fun j => active s w.bits j).map x).foldr op (x i)
    exec (.vredadd w g a) s = vecWord s g ((red 0 (· + ·)).signExtend 64) .none ∧
    exec (.vredmin w n g a) s = vecWord s g (if n then (red (BitVec.allOnes w.bits) least).setWidth 64
      else (red (BitVec.intMax w.bits) least).signExtend 64) .none ∧
    exec (.vredmax w n g a) s = vecWord s g (if n then (red 0 most).setWidth 64
      else (red (BitVec.intMin w.bits) most).signExtend 64) .none ∧
    exec (.vredand w g a) s = vecWord s g ((red (BitVec.allOnes w.bits) (· &&& ·)).signExtend 64) .none ∧
    exec (.vredor w g a) s = vecWord s g ((red 0 (· ||| ·)).signExtend 64) .none ∧
    Elements (.vscanadd w d a) s w.bits d .none (scan (· + ·)) ∧
    Elements (.vscanmax w n d a) s w.bits d .none (scan most)

/-- R178. Predicate logic bit by bit under the mask; `PCNT` counts the masked bits and writes whatever the mask holds;
`PFIRST` keeps the lowest masked bit. -/
def Obligations.PredicateLogic : Prop :=
  ∀ (s : State) (g : Gpr) (d a b : Pr),
    let x (j : Nat) : Bool := (s.pred a).getLsbD j
    let y (j : Nat) : Bool := (s.pred b).getLsbD j
    let m (j : Nat) : Bool := s.guardMask.getLsbD j
    LaneBits (.pand d a b) s d .none (fun j => x j && y j) ∧
    LaneBits (.por d a b) s d .none (fun j => x j || y j) ∧
    LaneBits (.pxor d a b) s d .none (fun j => x j != y j) ∧
    LaneBits (.pnot d a) s d .none (fun j => !x j) ∧
    exec (.pcnt g a) s =
      vecWord s g (BitVec.ofNat 64 ((List.range 256).countP fun j => x j && m j)) .none ∧
    LaneBits (.pfirst d a) s d .none (fun j => x j && m j && (List.range j).all fun i => !(x i && m i))

/-- Vector arithmetic, logic and shifts. -/
def Obligations.VectorIntegers : Prop := Spec.VectorArithmetic ∧ Spec.VectorLogicShifts

/-- Selects, broadcasts and permutes. -/
def Obligations.VectorMoves : Prop := Spec.VectorSelectBroadcast ∧ Spec.VectorPermutes


/-! Page 2. -/

/-- R179 and R180. Each active element is the exact result of its operands rounded once in the instruction's mode; the
fused members read the old d; `VFMIN`, `VFMAX`, `VFRCP` and `VFRSQ` take no mode. -/
def Obligations.FloatArithmetic : Prop :=
  ∀ (s : State) (t : VTy) (r : Rnd) (d a a' : Vr) (b : FSrc),
    let f := vtyFmt t
    let x := fval f (s.vec a)
    let y := fsrcVal s f b
    let z := fval f (s.vec d)
    let el (e : Instr) (r : Rnd) (op : RMode → Nat → Nat × Fl) : Prop := FloatElements e s f.width d r op
    el (.vfadd t r d a b) r (fun md i => f.finish md (fvAdd md (x i) (y i))) ∧
    el (.vfsub t r d a b) r (fun md i => f.finish md (fvAdd md (x i) (y i).negate)) ∧
    el (.vfmul t r d a b) r (fun md i => f.finish md (fvMul (x i) (y i))) ∧
    el (.vfma t r d a b) r (fun md i => f.finish md (fvFma md (x i) (y i) (z i))) ∧
    el (.vfms t r d a b) r (fun md i => f.finish md (fvFma md (x i) (y i) (z i).negate)) ∧
    el (.vfnma t r d a b) r (fun md i => f.finish md (fvFma md (x i).negate (y i) (z i))) ∧
    el (.vfmin t d a b) .rne (fun md i => f.finish md (fvPick false (x i) (y i))) ∧
    el (.vfmax t d a b) .rne (fun md i => f.finish md (fvPick true (x i) (y i))) ∧
    el (.vfdiv t r d a a') r (fun md i => f.finish md (fvDiv (x i) (fval f (s.vec a') i))) ∧
    el (.vfsqrt t r d a) r (fun md i => f.finish md (fvSqrt (x i))) ∧
    el (.vfrcp t d a) .rne (fun _ i => rcpValue f (x i)) ∧
    el (.vfrsq t d a) .rne (fun _ i => rsqValue f (x i))

/-- R85 to R88, R179 and R180. What the exact results are: sums and products of finite numbers are exact rationals,
comparison is of rationals, and the special operands give the values and events that the rules name. -/
def Sys2Proof.Spec.FloatExactValues : Prop :=
  (∀ (md : RMode) (a b : Bool) (m n : Nat) (e k : Int),
    let x : Fv := .fin a m e
    let y : Fv := .fin b n k
    ((fvAdd md x y).1.isFin = true ∧ num (fvAdd md x y).1 = num x + num y ∧ (fvAdd md x y).2 = .none) ∧
    ((fvMul x y).1.isFin = true ∧ num (fvMul x y).1 = num x * num y ∧ (fvMul x y).1.neg? = (a != b) ∧
      (fvMul x y).2 = .none) ∧
    fvCmp x y = some (if num x < num y then .lt else if num x = num y then .eq else .gt) ∧
    (m ≠ 0 → n = 0 → fvDiv x y = (.inf (a != b), { dz := 1 })) ∧
    (m = 0 → n = 0 → fvDiv x y = (.nan false, { inv := 1 })) ∧
    (m ≠ 0 → a = true → fvSqrt x = (.nan false, { inv := 1 })) ∧
    (m = 0 → num (fvSqrt x).1 = 0 ∧ (fvSqrt x).1.neg? = a)) ∧
  (∀ (md : RMode) (a : Bool) (m : Nat) (e : Int),
    fvAdd md (.inf a) (.inf !a) = (.nan false, { inv := 1 }) ∧
    fvAdd md (.inf a) (.inf a) = (.inf a, .none) ∧
    fvAdd md (.inf a) (.fin (!a) m e) = (.inf a, .none) ∧
    fvMul (.inf a) (.fin a 0 e) = (.nan false, { inv := 1 }) ∧
    fvDiv (.inf a) (.inf a) = (.nan false, { inv := 1 })) ∧
  (∀ (md : RMode) (q : Bool) (x : Fv), x.isSig = false →
    fvAdd md (.nan q) x = (.nan false, flInv q) ∧ fvMul (.nan q) x = (.nan false, flInv q) ∧
    fvDiv (.nan q) x = (.nan false, flInv q) ∧ fvSqrt (.nan q) = (.nan false, flInv q) ∧
    fvPick true (.nan q) x = (.nan false, flInv q) ∧ fvCmp (.nan q) x = none) ∧
  (∀ (t : VTy) (n q : Bool) (m : Nat) (e : Int),
    let f := vtyFmt t
    rcpValue f (.fin n 0 e) = (f.infBits n, { dz := 1 }) ∧ rcpValue f (.inf n) = (f.sign n, .none) ∧
    rcpValue f (.nan q) = (f.nanBits, flInv q) ∧ rsqValue f (.fin n 0 e) = (f.infBits n, { dz := 1 }) ∧
    rsqValue f (.inf false) = (0, .none) ∧ rsqValue f (.inf true) = (f.nanBits, { inv := 1 }) ∧
    (m ≠ 0 → rsqValue f (.fin true m e) = (f.nanBits, { inv := 1 })))

/-- R86, R89 and R91. Delivery: a NaN becomes the canonical one of R86; a number the format represents is delivered as it
is, in every mode and without events; an overflow goes to the infinity or the largest finite number that R91 names. -/
def Sys2Proof.Spec.FloatDelivery : Prop :=
  ((ftyFmt .f64).nanBits = 0x7FF8000000000000 ∧ (ftyFmt .f32).nanBits = 0x7FC00000 ∧ (ftyFmt .f16).nanBits = 0x7E00 ∧
    (ftyFmt .bf16).nanBits = 0x7FC0 ∧ (ftyFmt .e4m3).nanBits = 0x7F ∧ (ftyFmt .e5m2).nanBits = 0x7E) ∧
  (∀ (t : FTy) (md : RMode) (q : Bool), (ftyFmt t).deliver md false (.nan q) = ((ftyFmt t).nanBits, flInv q)) ∧
  (∀ (t : FTy) (md : RMode) (x : Nat), x < 2 ^ (ftyFmt t).width → ((ftyFmt t).value x).isFin = true →
    (ftyFmt t).deliver md false ((ftyFmt t).value x) = (x, .none)) ∧
  (∀ (t : VTy) (md : RMode) (n : Bool) (m : Nat) (e : Int), m ≠ 0 → (2 : Rat) ^ 2000 ≤ (m : Rat) * 2 ^ e →
    (vtyFmt t).deliver md false (.fin n m e) = (match md.rnd, n with
      | .rtz, _ => (vtyFmt t).maxBits n
      | .rup, true => (vtyFmt t).maxBits n
      | .rdn, false => (vtyFmt t).maxBits n
      | _, _ => (vtyFmt t).infBits n, { ovf := 1, inx := 1 }))

/-- R171, page 2, and R181. Float compares by value, with invalid counted for any NaN by `VFCMPLT` and `VFCMPLE` and for a
signalling NaN by the others; sign operations and classes read the bits. -/
def Obligations.FloatCompareClass : Prop :=
  ∀ (s : State) (t : VTy) (p : Pr) (d a b : Vr),
    let f := vtyFmt t
    let w := f.width
    let x := fval f (s.vec a)
    let y := fval f (s.vec b)
    let cmp (i : Nat) : Option Ordering := fvCmp (x i) (y i)
    let quiet : Fl := activeEvents s w fun i => flInv ((x i).isSig || (y i).isSig)
    let loud : Fl := activeEvents s w fun i => flInv ((x i).isNan || (y i).isNan)
    let bits (i : Nat) : BitVec w := elt w (s.vec a) i
    let top : BitVec w := BitVec.twoPow w (w - 1)
    let canon (i : Nat) (v : BitVec w) : Nat × Fl :=
      if (x i).isNan then (f.nanBits, flInv (x i).isSig) else (v.toNat, .none)
    LaneBits (.vfcmpeq t p a b) s p quiet (laneTruth w fun i => cmp i == some .eq) ∧
    LaneBits (.vfcmpne t p a b) s p quiet (laneTruth w fun i => cmp i != some .eq) ∧
    LaneBits (.vfcmplt t p a b) s p loud (laneTruth w fun i => cmp i == some .lt) ∧
    LaneBits (.vfcmple t p a b) s p loud (laneTruth w fun i => cmp i == some .lt || cmp i == some .eq) ∧
    LaneBits (.vfcmpun t p a b) s p quiet (laneTruth w fun i => (x i).isNan || (y i).isNan) ∧
    FloatElements (.vfabs t d a) s w d .rne (fun _ i => canon i (bits i &&& ~~~top)) ∧
    FloatElements (.vfneg t d a) s w d .rne (fun _ i => canon i (bits i ^^^ top)) ∧
    FloatElements (.vfclass t d a) s w d .rne (fun _ i =>
      let neg := (bits i).msb
      let ef := (bits i).toNat / 2 ^ f.fbits % 2 ^ f.ebits
      let fr := (bits i).toNat % 2 ^ f.fbits
      (2 ^ (if ef = 2 ^ f.ebits - 1 then
          if fr = 0 then (if neg then 0 else 7) else if fr < 2 ^ (f.fbits - 1) then 8 else 9
        else if ef = 0 then
          if fr = 0 then (if neg then 3 else 4) else (if neg then 2 else 5)
        else if neg then 1 else 6), .none))

/-- R182, R183, R92, R93 and R95. A conversion fills the elements both counts share and zeroes the rest; `VQMX` writes the
elements and the scale of its active blocks and no other byte; `VDQMX` scales each element by its block's scale. -/
def Obligations.FloatConversions : Prop :=
  (∀ (s : State) (c : Cvt) (r : Rnd) (n : Bool) (d a : Vr),
    let ws := cvtWidths c
    FloatElements (.vcvt c r n d a) s ws.2 d r (fun md i =>
      if i < 8192 / ws.1 then convert c md n (elt ws.1 (s.vec a) i).toNat else (0, .none))) ∧
  (∀ (s : State) (t : STy) (m : MTy) (d a : Vr),
    let f := styFmt t
    let r (i : Nat) : Nat × Fl := f.deliver rneMode false
      (mxValue m ((s.vec a).extractLsb' (i * mtyBits m) (mtyBits m)).toNat (elt 8 (s.vec a) (1008 + i / 32)).toNat)
    Elements (.vdqmx t m d a) s f.width d (activeEvents s f.width fun i => (r i).2)
      (fun i => BitVec.ofNat f.width (r i).1)) ∧
  (∀ (s : State) (t : STy) (m : MTy) (n : Bool) (d a : Vr),
    let f := styFmt t
    let blocks := 8192 / f.width / 32
    let q (k : Nat) := mxQuantise m n ((List.range 32).map fun j => fval f (s.vec a) (32 * k + j))
    let on (k : Nat) : Bool := active s f.width (32 * k)
    let fl := (List.range blocks).foldl (fun acc k => if on k then acc.add (q k).2.2 else acc) Fl.none
    ∃ v lanes, exec (.vqmx t m n d a) s = .next (s.vecResult d v lanes fl) ∧
      (∀ k, k < blocks →
        elt 8 v (1008 + k) = (if on k then BitVec.ofNat 8 (q k).1 else elt 8 (s.vec d) (1008 + k)) ∧
        ∀ j, j < 32 → v.extractLsb' ((32 * k + j) * mtyBits m) (mtyBits m) =
          if on k then BitVec.ofNat (mtyBits m) ((q k).2.1.getD j 0)
          else (s.vec d).extractLsb' ((32 * k + j) * mtyBits m) (mtyBits m)) ∧
      ∀ i, i < 1024 → blocks * (4 * mtyBits m) ≤ i → i < 1008 ∨ 1008 + blocks ≤ i → elt 8 v i = elt 8 (s.vec d) i) ∧
  (∀ (md : RMode) (n : Nat), 0 < n → toInt md true n (.nan false) = (0, { inv := 1 }) ∧
    toInt md false n (.inf true) = (0, { inv := 1 }) ∧ toInt md false n (.inf false) = (2 ^ n - 1, { inv := 1 }))

/-- R184. The transcendental members compute `f32` values; the exact results and special values are those the rule lists. -/
def Obligations.Transcendentals : Prop :=
  (∀ (s : State) (t : STy) (d a : Vr),
    let f := styFmt t
    let x := fval f (s.vec a)
    FloatElements (.vfexp2 t d a) s f.width d .rne (fun _ i => transValue f .exp2 (x i)) ∧
    FloatElements (.vflog2 t d a) s f.width d .rne (fun _ i => transValue f .log2 (x i)) ∧
    FloatElements (.vftanh t d a) s f.width d .rne (fun _ i => transValue f .tanh (x i)) ∧
    FloatElements (.vfsigm t d a) s f.width d .rne (fun _ i => transValue f .sigm (x i))) ∧
  (∀ (k : Nat), k < 254 →
    transValue fmtF32 .exp2 (intValue ((k : Int) - 126)) = ((k + 1) * 2 ^ 23, .none) ∧
    transValue fmtF32 .log2 (fmtF32.value ((k + 1) * 2 ^ 23)) =
      (fmtF32.deliver rneMode false (intValue ((k : Int) - 126)))) ∧
  (∀ (n q : Bool) (m : Nat) (e : Int) (g : Trans),
    transF32 g (.nan q) = (0x7FC00000, flInv q) ∧
    transF32 .exp2 (.inf true) = (0, .none) ∧ transF32 .exp2 (.inf false) = (0x7F800000, .none) ∧
    transF32 .log2 (.fin n 0 e) = (0xFF800000, { dz := 1 }) ∧ transF32 .log2 (.inf false) = (0x7F800000, .none) ∧
    (m ≠ 0 → transF32 .log2 (.fin true m e) = (0x7FC00000, { inv := 1 })) ∧
    transF32 .tanh (.fin n 0 e) = (if n then 0x80000000 else 0, .none) ∧
    transF32 .tanh (.inf n) = (if n then 0xBF800000 else 0x3F800000, .none) ∧
    (19 / 2 ≤ |num (.fin n m e)| → transF32 .tanh (.fin n m e) = (if n then 0xBF800000 else 0x3F800000, .none)) ∧
    transF32 .sigm (.fin n 0 e) = (0x3F000000, .none) ∧ transF32 .sigm (.inf true) = (0, .none) ∧
    transF32 .sigm (.inf false) = (0x3F800000, .none) ∧
    (35 / 2 ≤ num (.fin false m e) → transF32 .sigm (.fin false m e) = (0x3F800000, .none)))

/-- R97, R176 and R185. A float reduction is one tree whose steps draw level by level; `VSMX` writes the state lanes of
every segment and the terms of the active lanes, and a NaN score spoils its segment alone. -/
def Obligations.FloatReductionsSoftmax : Prop :=
  (∀ (s : State) (t : VTy) (r : Rnd) (d : Gpr) (a : Vr),
    let f := vtyFmt t
    let w := f.width
    let e := 8192 / w
    let red (r : Rnd) (ident : Nat) (op : RMode → Fv → Fv → Fv × Fl) : Word :=
      BitVec.ofNat 64 (levelTree
        (fun n i x y =>
          let md := modeOf s r (e - e / 2 ^ n + i)
          (f.finish md (op md (f.value x) (f.value y))).1)
        (fun i => if active s w i then (elt w (s.vec a) i).toNat else ident) (Nat.log2 e) 0)
    (∃ fl, exec (.vfredadd t r d a) s =
      .next ((drawn s r (e - 1)).vecToGpr d (red r (2 ^ (w - 1)) fun md x y => fvAdd md x y) fl)) ∧
    (∃ fl, exec (.vfredmax t d a) s =
      .next ((drawn s .rne (e - 1)).vecToGpr d (red .rne (f.infBits true) fun _ x y => fvPick true x y) fl)) ∧
    (∃ fl, exec (.vfredmin t d a) s =
      .next ((drawn s .rne (e - 1)).vecToGpr d (red .rne (f.infBits false) fun _ x y => fvPick false x y) fl))) ∧
  (∀ (s : State) (c : BitVec 3) (d a b : Vr), c.toNat < 5 → d ≠ b →
    let len := 16 * 2 ^ c.toNat
    let seg (k : Nat) : SmxSeg := smxSegment (elt 32 (s.vec b) k).toNat (elt 32 (s.vec b) (64 + k)).toNat
      ((List.range len).map fun j => (s.guardMask.getLsbD (k * len + j), (elt 32 (s.vec a) (k * len + j)).toNat))
      (4 + c.toNat)
    ∃ vb vd lanes fl, exec (.vsmx c d a b) s = .next (
        let t := (s.latchEvents fl).vecWrite b vb lanes
        let u := t.1.vecWrite d vd s.guardMask
        (u.1.startVector (t.2 ++ u.2)).retire) ∧
      (∀ k, k < 256 / len → elt 32 vb k = BitVec.ofNat 32 (seg k).m ∧ elt 32 vb (64 + k) = BitVec.ofNat 32 (seg k).l ∧
        elt 32 vb (128 + k) = BitVec.ofNat 32 (seg k).alpha) ∧
      (∀ j, j < 256 → lanes.getLsbD j = decide (j < 192 ∧ j % 64 < 256 / len)) ∧
      (∀ j, j < 256 → ¬(j < 192 ∧ j % 64 < 256 / len) → elt 32 vb j = elt 32 (s.vec b) j) ∧
      ∀ j, j < 256 → elt 32 vd j =
        if s.guardMask.getLsbD j then BitVec.ofNat 32 ((seg (j / len)).terms.getD (j % len) 0) else elt 32 (s.vec d) j) ∧
  (∀ (m l n : Nat) (xs : List (Bool × Nat)),
    ((fmtF32.value m).isNan = true ∨ (fmtF32.value l).isNan = true ∨ ∃ p ∈ xs, p.1 = true ∧ (fmtF32.value p.2).isNan = true) →
    let r := smxSegment m l xs n
    r.m = 0x7FC00000 ∧ r.l = 0x7FC00000 ∧ r.alpha = 0x7FC00000 ∧ ∀ i, i < xs.length → r.terms.getD i 0 = 0x7FC00000)

/-- The values of floating-point operations and how a result is delivered. -/
def Obligations.FloatResults : Prop := Spec.FloatExactValues ∧ Spec.FloatDelivery


/-! Control flow, registers and the advance of the program counter. -/

/-- R105, R144, R158, R159 and R160. A branch or relative transfer goes to the start plus twice its sign-extended offset,
modulo 2⁶⁴; a register form to g[b]; a call leaves the next start in its link, all sources read first. A capability form
whose check passes also exchanges the code capability; one whose check fails traps with the cause of the failing step, and
none of them parks. -/
def Sys2Proof.Spec.Transfers : Prop :=
  ∀ (s : State) (o : BitVec 12) (i : Imm) (d b : Gpr) (k : Kr),
    let at_ (x : BitVec 64) : Nat := (BitVec.ofNat 64 s.issue.start + (x <<< 1)).toNat
    let far : BitVec 64 := immBits .w64 i
    let link : Word := BitVec.ofNat 64 s.issue.next
    let sum : Nat := (s.cap k).base + (s.gpr b).toNat
    let through (x : Nat) (e : Instr) (t : State) : Prop :=
      match s.checkTransfer (s.cap k) k.toNat x with
      | .ok y => exec e s = guardedNext s (After s y.obj ((t.setCode (s.cap k)).retireTo x))
      | .bad cause addr v => exec e s = guardedNext s (s.badChk cause addr v)
      | .walk _ => False
    (s.me.walked = [] → ∀ cause addr v, s.badChk cause addr v = s.trap cause addr v) ∧
    exec (.br o) s = guardedNext s (s.retireTo (at_ (o.signExtend 64))) ∧
    exec (.jmp (.rel i)) s = guardedNext s (s.retireTo (at_ far)) ∧
    exec (.jmp (.reg b)) s = guardedNext s (s.retireTo (s.gpr b).toNat) ∧
    exec (.call d (.rel i)) s = guardedNext s ((s.putGpr d link).retireTo (at_ far)) ∧
    exec (.call d (.reg b)) s = guardedNext s ((s.putGpr d link).retireTo (s.gpr b).toNat) ∧
    exec (.ret (.reg b)) s = guardedNext s (s.retireTo (s.gpr b).toNat) ∧
    through sum (.jmp (.cap k b)) s ∧
    through sum (.call d (.cap k b)) ((s.putGpr d link).putCap k s.me.code) ∧
    through (s.gpr b).toNat (.ret (.cap k b)) s

/-- R160 and R161. The checks of a transfer through a capability: the first failing one gives the cause, with the
capability's base or the target as its address and the register's number as its value. That a page whose translation the
slot does not hold is read from the table at once (assumption 68), that a target outside the capability is checked with
the entry of its base's page (assumption 54) and raises `BOUNDS` below the base too (assumption 23) are the model's
choices. -/
def Sys2Proof.Spec.TransferChecks : Prop :=
  ∀ (s : State) (k : Cap) (n x : Nat), k.obj ≠ aliasObj →
    let inside := k.base ≤ x ∧ x + 2 ≤ k.limit
    let page := if inside then x / 2 ^ 21 else k.base / 2 ^ 21
    let t := (s.lookup s.ic s.is k.obj page).getD (s.walkResult s.is k.obj page)
    let e := t.ent
    s.checkTransfer k n x =
      match ([(!k.tag, causeCapTag, k.base),
          (!e.ok || e.kind == 0 || k.gen != e.gen, causeCapTag, k.base),
          (!k.rights.testBit 2 || e.kind != kCode, causeRights, k.base),
          (e.sec && !s.me.world, causeWorld, k.base),
          (!decide inside || decide (e.len < x + 2), causeBounds, x),
          (x % 2 == 1, causeAlign, x)] : List (Bool × Nat × Nat)).find? (·.1) with
      | some c => .bad c.2.1 c.2.2 n
      | none => .ok ⟨k.obj, e.gen, e, x, [t]⟩

/-- R110 and R127. A general register: g0 reads as zero and discards writes; a write to g1 to g31 is read back and no
other register changes; a write to a shared register is queued for the clock 15 after the issue, and nothing is read
differently until then. -/
def Sys2Proof.Spec.RegisterWrites : Prop :=
  ∀ (s : State) (d : Gpr) (x : Word),
    let t := s.putGpr d x
    s.gpr 0 = 0 ∧ s.putGpr 0 x = s ∧ s.pred 0 = BitVec.allOnes 256 ∧ (∀ p, s.putPred 0 p = s) ∧
    (d ≠ 0 → d.toNat < 32 → t.gpr d = x ∧ (t.core s.ic).shared = (s.core s.ic).shared) ∧
    (32 ≤ d.toNat → t.gpr d = s.gpr d ∧ (t.core s.ic).shared = (s.core s.ic).shared ++
      [⟨s.cycle + 15, s.is, s.me.bank, false, d.toNat - 32, x, 0, 0⟩]) ∧
    (∀ r, r ≠ d → t.gpr r = s.gpr r) ∧ (∀ r, t.vec r = s.vec r) ∧ (∀ r, t.pred r = s.pred r) ∧
    (∀ r, t.cap r = s.cap r) ∧ (∀ c n, ¬(c = s.ic ∧ n = s.is) → t.slot c n = s.slot c n) ∧
    { t with cores := [] } = { s with cores := [] }

/-- R127 and R128. A word written to a shared register of a resident group stands after the commit of its clock; of two
such writes to one register on one clock the lower slot's stands, and `SHWLOSS` counts the other. A write whose clock has
not come stays queued. -/
def Sys2Proof.Spec.SharedWriteCommit : Prop :=
  ∀ (s : State) (c b r m n k : Nat) (x y : Word), b < 16 → (s.group? c b).isSome = true → m < n →
    let w (slot : Nat) (v : Word) : ShWrite := ⟨s.cycle, slot, b, false, r, v, 0, 0⟩
    let with_ (l : List ShWrite) : State := s.onCore c fun core => { core with shared := l, shwloss := k }
    let one := (with_ [w m x]).commitShared c
    let two := (with_ [w m x, w n y]).commitShared c
    let later := (with_ [{ w m x with clock := s.cycle + 1 }]).commitShared c
    one.bankC c b r = x ∧ (one.core c).shared = [] ∧ ((one.core c).shwloss = min k 0xFFFFFFFF) ∧
    two.bankC c b r = x ∧ (two.core c).shwloss = min (min k 0xFFFFFFFF + 1) 0xFFFFFFFF ∧
    later.bankC c b r = s.bankC c b r ∧ (later.core c).shared = [{ w m x with clock := s.cycle + 1 }]

/-- The issuing slot does not hold the results of its instruction for a trailing copy (R42). -/
abbrev Sys2Proof.Spec.Alone (s : State) : Prop := s.me.lead = true → s.me.doing = none

/-- R42, R157 and R371. An instruction that completes leaves the program counter at the next start; a strand that
single-steps takes `STEP` with the completed start as its address and the next start to resume at. A leading copy that has
performed an instruction for both hands its results to the trailing copy that waits for them, which completes the
instruction that it has issued itself, or puts them at the end of its load-value queue: how the two copies keep together is
the model's choice (assumption 58). -/
def Obligations.Retirement : Prop :=
  ∀ (s : State),
    let t := s.retire
    let steps : Bool := s.me.step && s.is != 15 && !s.me.lead
    let mate := s.slot s.ic (s.is + 8)
    (Alone s → t.me.pc = s.issue.next) ∧
    (Alone s → steps = false → t.me = { s.me with pc := s.issue.next, done := s.me.done + 1, walked := [], redo := false } ∧
      (∀ c n, ¬(c = s.ic ∧ n = s.is) → t.slot c n = s.slot c n) ∧
      (∀ c, { t.core c with slots := [] } = { s.core c with slots := [] }) ∧
      { t with cores := [] } = { s with cores := [] }) ∧
    (steps = true → t.me.run = .trapped ∧ ∃ st,
      t.me.raised = some ⟨causeStep, s.issue.start, 0, s.issue.next, false, s.cycle, st⟩) ∧
    (∀ i, s.me.lead = true → s.me.doing = some i → s.me.kept = none → mate.joined = none →
      ∃ v : PairVal, v.landed = s.me.landed ∧ t.me =
        { s.me with pc := s.issue.next, done := s.me.done + 1, walked := [], redo := false, doing := none
                    lvq := s.me.lvq ++ [v] }) ∧
    (∀ i x, s.me.lead = true → s.me.doing = some i → mate.joined = some x → mate.step = false →
      let m := t.slot s.ic (s.is + 8)
      m.pc = mate.pc + 2 * x.len ∧ m.done = s.me.done + 1 ∧ m.joined = none ∧ m.landed = s.me.landed)

/-- The destination of the scalar instructions that write one general register and nothing else but counters. -/
def Sys2Proof.Spec.scalarDest (i : Instr) (d : Gpr) : Prop :=
  (∃ w a b, i ∈ ([.add w d a b, .sub w d a b, .min w d a b, .max w d a b, .minn w d a b, .maxn w d a b, .and w d a b,
      .or w d a b, .xor w d a b, .andn w d a b, .orn w d a b, .xnor w d a b, .shl w d a b, .shr w d a b, .sra w d a b,
      .rol w d a b, .ror w d a b, .mul w d a b, .mulh w d a b, .mulhn w d a b, .div w d a b, .divn w d a b,
      .rem w d a b, .remn w d a b] : List Instr)) ∨
  (∃ w a k, i ∈ ([.addi w d a k, .shli w d a k, .shri w d a k, .srai w d a k, .roli w d a k, .rori w d a k] : List Instr)) ∨
  (∃ w a, i ∈ ([.clz w d a, .ctz w d a, .popc w d a, .neg w d a, .not w d a, .sext w d a, .zext w d a, .bswap w d a] :
      List Instr)) ∨
  (∃ a b k, i ∈ ([.mov d a, .sel d a b, .lih d k, .li d k] : List Instr))

/-- The frame of the scalar instructions (R142, R157): every register but the destination, every predicate, capability
and vector register, every other slot and core, every byte of memory and everything else outside the slot is unchanged;
of the core only the counters, the events and shared writes on their way and, when the strand single-steps, the pending traps
change, and of a trailing copy that so traps the matrix operations that it will not issue. -/
def Obligations.ScalarFrame : Prop :=
  ∀ (i : Instr) (d : Gpr) (s t : State), Alone s → scalarDest i d → exec i s = .next t →
    (∀ r, r ≠ d → t.gpr r = s.gpr r) ∧ (∀ r, t.vec r = s.vec r) ∧ (∀ r, t.pred r = s.pred r) ∧
    (∀ r, t.cap r = s.cap r) ∧ (∀ a, t.readByte a = s.readByte a) ∧
    (s.me.lead = false → s.me.trail = false → ∀ n, n ≠ s.is → t.slot s.ic n = s.slot s.ic n) ∧
    (∀ c, c ≠ s.ic → t.core c = s.core c) ∧
    (∀ c, { t.core c with slots := [], shared := [], evc := [], evcs := [], board := [], matQ := [], trap := {} } =
      { s.core c with slots := [], shared := [], evc := [], evcs := [], board := [], matQ := [], trap := {} }) ∧
    (s.me.trail = false → (t.core s.ic).matQ = (s.core s.ic).matQ) ∧
    { t with cores := [] } = { s with cores := [] }

/-- A vector result (R127, R128, R165, R355): a private v[d] holds the value at once, which is the model's choice (log entry
6), and a shared one joins the slot's latch with its lanes; every other register keeps its value; the slot can issue again only
when the vector unit has started the instruction, which is due at once if the unit is free; the program counter advances. The
events wait for the commit clock that the start gives; those of a scalar instruction are added 15 clocks after its issue. -/
def Obligations.VectorResults : Prop :=
  ∀ (s : State) (d : Vr) (g : Gpr) (x : Vec) (y : Word) (lanes : Pred) (fl : Fl), s.me.step = false → Alone s →
    let v := s.vecResult d x lanes fl
    let w := s.vecToGpr g y fl
    let quiet (t : State) : Prop :=
      (∀ r, t.pred r = s.pred r) ∧ (∀ r, t.cap r = s.cap r) ∧ t.me.pc = s.issue.next ∧ s.cycle < t.me.vready ∧
      (∀ n, n ≠ s.is → t.slot s.ic n = s.slot s.ic n) ∧ (∀ c, c ≠ s.ic → t.core c = s.core c) ∧
      t.agenda = (if (s.core s.ic).vfree ≤ s.cycle then [⟨.vectorStart, [s.ic]⟩] else []) ++ s.agenda ∧
      { t with cores := [], agenda := [] } = { s with cores := [], agenda := [] }
    let counted (t : State) (q : Nat) : Prop := (t.core s.ic).evcs =
      (s.core s.ic).evcs ++ if fl.counts = [] then [] else [⟨q, s.is, fl.counts, 0⟩]
    s.cycle < 2 ^ 70 → quiet v ∧ quiet w ∧ counted v (2 ^ 70) ∧ counted w (2 ^ 70) ∧ counted (s.events fl) (s.cycle + 15) ∧
      (∀ r, v.gpr r = s.gpr r) ∧ (∀ r, r ≠ d → v.vec r = s.vec r) ∧
      (∀ r, w.vec r = s.vec r) ∧ (∀ r, r ≠ g → w.gpr r = s.gpr r) ∧
      (d.toNat < 32 → v.vec d = x ∧ (v.core s.ic).latch = (s.core s.ic).latch ++ [(s.cycle, s.is, [])]) ∧
      (32 ≤ d.toNat → v.vec d = s.vec d ∧ (v.core s.ic).latch = (s.core s.ic).latch ++
        [(s.cycle, s.is, [⟨0, s.is, s.me.bank, true, d.toNat - 32, 0, x, lanes⟩])]) ∧
      (g ≠ 0 → g.toNat < 32 → w.gpr g = y) ∧
      (32 ≤ g.toNat → w.gpr g = s.gpr g ∧ (w.core s.ic).latch = (s.core s.ic).latch ++
        [(s.cycle, s.is, [⟨0, s.is, s.me.bank, false, g.toNat - 32, y, 0, 0⟩])])

/-- R50. The first failing check of an access decides, in the order of the rule; an access whose pages are all translated
and whose checks all pass gives its translation. The model's choices: where the access passes the capability's limit, the
page of the capability's base is translated (assumption 54), and an unmapped page has no home of its own, so that step 7
decides on it (assumption 27). -/
def Obligations.CapabilityChecks : Prop :=
  ∀ (s : State) (c n : Nat) (k : Cap) (num x len need align elem : Nat) (side : Bool) (kind : ObjEnt → Nat → Bool)
    (t : Tlb) (rest : List Tlb), k.obj ≠ aliasObj →
    let e := k.base + x
    ((if e + len ≤ k.limit then pagesOf e len else [k.base / 2 ^ 21]).map fun p => s.lookup c n k.obj p) =
      (t :: rest).map some →
    let o := t.ent
    let g := 2 ^ o.glog
    let hi := min (e + len) (max (e + 1) o.len) - 1
    let homes : List Nat := if o.hmode = 1 ∧ o.kind ≠ kScratch
      then (List.range (min (hi / g - e / g + 1) (o.hcnt + 1))).map fun i => s.testHome c t (e + i * g)
      else (t :: rest).map fun p => s.testHome c p e
    s.check c n k num x len need align elem side kind =
      match ([(!k.tag, causeCapTag, k.base),
          (!o.ok || o.kind == 0 || k.gen != o.gen, causeCapTag, k.base),
          (!decide (k.rights &&& need = need) || homes.any fun h => !kind o h, causeRights, k.base),
          (decide (k.limit < e + len) || decide (o.len < e + len), causeBounds, e),
          (decide (e % align ≠ 0), causeAlign, e),
          (o.sec && !(s.slot c n).world, causeWorld, k.base),
          (!side && (t :: rest).any (fun p => !p.mapped), causePage, e)] : List (Bool × Nat × Nat)).find? (·.1) with
      | some f => .bad f.2.1 f.2.2 (elem * 16 + num)
      | none => .ok ⟨k.obj, o.gen, o, e, t :: rest⟩

/-- Branches, jumps, calls and returns, and their checks.
The clauses that rest on log entries 23, 54 and 68 state the model's choices. -/
def Obligations.ControlTransfers : Prop := Spec.Transfers ∧ Spec.TransferChecks

/-- Register writes, and the commit of shared ones. -/
def Obligations.GeneralRegisters : Prop := Spec.RegisterWrites ∧ Spec.SharedWriteCommit


/-! Memory. -/

/-- R2. A number written to memory is read back, the bytes at other addresses stand, its tags are lost, and the memory
keeps its canonical form. -/
def Obligations.ReadAfterWrite : Prop :=
  ∀ (s : State) (a x n : Nat), Memory.wf s.mem = true →
    let t := s.writeMem a x n
    t.readMem a n = x % 256 ^ n ∧ (∀ b, b < a ∨ a + n ≤ b → t.readByte b = s.readByte b) ∧
    (∀ b, a ≤ b → b < a + n → t.tagAt b = false) ∧ Memory.wf t.mem = true ∧
    { t with mem := [], tags := [], poison := [], badGranules := [] } =
      { s with mem := [], tags := [], poison := [], badGranules := [] }

/-- The place in a scratchpad of byte x of a checked object. -/
abbrev Sys2Proof.Spec.padByte (s : State) (t : Xl) (x : Nat) : Nat := scratchLoc s.ic (s.home t x).2
/-- An entry of an earlier holder on the scoreboard stands in the way of an access of n bytes of the scratchpad (R284). -/
abbrev Sys2Proof.Spec.Held (s : State) (lo n : Nat) (write : Bool) : Prop :=
  ∃ e ∈ (s.core s.ic).board, e.holder ≤ (s.core s.ic).order ∧ (e.write || write) = true ∧
    ∃ l h, e.region = .scratch l h ∧ lo < h ∧ l < lo + n
/-- A slot parks until it may issue its instruction again. -/
abbrev Sys2Proof.Spec.parksAgain (s : State) : State := s.notIssued.park .remote { fin := .again, left := 1 }
/-- What an access of the scratchpad does beside its registers: it is charged, and reads meet the physical faults of its
granules (R191, R357). -/
abbrev Sys2Proof.Spec.padRead (s : State) (n : Nat) (ps : List (Nat × Nat)) : State :=
  ps.foldl (fun u p => u.meetFaults s.ic p.1 p.2) (s.chargeScratch n)

/-- R191. A read meets the physical faults of the granules that it touches once each: an uncorrectable one poisons its
granule and a corrected one is counted. Nothing else changes. -/
def Sys2Proof.Spec.FaultsMet : Prop :=
  ∀ (s : State) (c a n : Nat),
    let u := s.meetFaults c a n
    let corrected := s.badGranules.filter fun p => (granules a n).contains p.1 && p.2 != 1
    (∀ g, g ∈ u.poison ↔ g ∈ s.poison ∨ (g ∈ granules a n ∧ (g, 1) ∈ s.badGranules)) ∧
    (∀ p, p ∈ u.badGranules ↔ p ∈ s.badGranules ∧ p.1 ∉ granules a n) ∧
    (SMap.get (s.core c).evc 8 0 < 2 ^ 64 →
      SMap.get (u.core c).evc 8 0 = min (SMap.get (s.core c).evc 8 0 + corrected.length) (2 ^ 64 - 1)) ∧
    { u with cores := [], poison := [], badGranules := [] } = { s with cores := [], poison := [], badGranules := [] } ∧
    (∀ x, x ≠ c → u.core x = s.core x) ∧ { u.core c with evc := [] } = { s.core c with evc := [] }

/-- R191, R208, R211, R212, R215 and R284 for the scratchpad. A checked load completes at once where no earlier holder stands
in its way: `LD` and `LDI` write the value of their width, zero-extended for the natural types, `CAPLD` the granule with its
tag, `VLD` the active elements in rising order; poisoned bytes end it in `POISON`. Held bytes park it until it may issue
again. What it is charged and the faults it meets are all that changes beside the registers. That conflicts of banks delay
nothing is the model's choice (assumption 6). -/
def Sys2Proof.Spec.ScratchpadLoads : Prop :=
  ∀ (s : State) (ty : MemTy) (w : Width) (d b : Gpr) (v : Vr) (k q : Kr) (i : Imm) (x : VIdx) (t : Xl)
    (els : List (Nat × Nat)), t.ent.kind = kScratch → s.sideUsed s.ic s.is = 0 →
    let m := ty.bytes
    let at_ := (s.home t t.off).2
    let pad := padByte s t t.off
    let c := padRead s m [(pad, m)]
    let value : Word := let y := BitVec.ofNat (8 * m) (s.readMem pad m)
      if ty.isNat then y.setWidth 64 else y.signExtend 64
    let scalar (e : Instr) : Prop :=
      (¬ Held s at_ m false → exec e s = guardedNext s (After s t.obj (
        if c.poisoned pad m then c.trap causePoison t.off k.toNat else put c d value))) ∧
      (Held s at_ m false → exec e s = guardedNext s (After s t.obj (parksAgain s)))
    let u := padRead s 16 [(pad, 16)]
    let n := w.bits / 8
    let z := padRead s (els.length * n) (els.map fun p => (padByte s t p.2, n))
    ({ c with cores := [], launches := [], poison := [], badGranules := [] } =
        { s with cores := [], launches := [], poison := [], badGranules := [] } ∧
      (∀ a, a ≠ s.ic → a ≠ s.ic % 1024 → c.core a = s.core a) ∧
      { c.core s.ic with evc := [], leases := [] } = { s.core s.ic with evc := [], leases := [] }) ∧
    (s.chk k (s.gpr b).toNat m rR m 0 false s.mayLoad = .ok t → scalar (.ld ty d k b)) ∧
    (s.chk k i.val m rR m 0 false s.mayLoad = .ok t → scalar (.ldi ty d k i)) ∧
    (s.chk k (s.gpr b).toNat 16 (rR + rK) 16 0 false s.mayLoad = .ok t → ¬ Held s at_ 16 false →
      exec (.capld q k b) s = guardedNext s (After s t.obj (
        if u.poisoned pad 16 then u.trap causePoison t.off k.toNat else (u.putCap q (s.readCap pad)).retire))) ∧
    (s.chkVec k rR n false s.mayLoad (s.activeIdx w.bits x) = .ok t els → els ≠ [] →
      (∀ p ∈ els, p.1 < 8192 / w.bits ∧ ¬ Held s (s.home t p.2).2 n false) →
      match els.find? fun p => z.poisoned (padByte s t p.2) n with
      | some p => exec (.vld w v k x) s = .next (After s t.obj (z.trap causePoison p.2 (p.1 * 16 + k.toNat)))
      | none => ∃ y lanes, exec (.vld w v k x) s =
          .next (After s t.obj (z.putVecAt s.ic s.is v y (s.cycle + 15) lanes).retire) ∧
        ∀ j, j < 8192 / w.bits → elt w.bits y j = match els.reverse.find? fun p => p.1 == j with
          | some p => BitVec.ofNat w.bits (s.readMem (padByte s t p.2) n)
          | none => elt w.bits (s.vec v) j)

/-- R49, R208, R211, R212, R215 and R284 for the scratchpad. A checked store with no waiter on the core completes at once where
no earlier holder stands in its way; the bytes it stores hold the data, the later of two that fall on one place, every other
byte of memory is unchanged, and so is everything else but what it is charged and the advance of the program counter. `CAPST`
keeps the tag. A store of held bytes parks until it may issue again. That conflicts of banks delay nothing is the model's
choice (assumption 6). -/
def Sys2Proof.Spec.ScratchpadStores : Prop :=
  ∀ (s : State) (ty : MemTy) (w : Width) (d b : Gpr) (v : Vr) (k q : Kr) (i : Imm) (x : VIdx) (t : Xl)
    (els : List (Nat × Nat)), t.ent.kind = kScratch → (s.core s.ic).waiters = [] → Memory.wf s.mem = true →
    let n := w.bits / 8
    let pad := padByte s t
    let held (y : Nat) : Prop := Held s (s.home t y).2 1 true
    let frame (u : State) : Prop :=
      { u with cores := [], launches := [], mem := [], tags := [], poison := [], badGranules := [] } =
        { s with cores := [], launches := [], mem := [], tags := [], poison := [], badGranules := [] } ∧
      (∀ c, c ≠ s.ic → c ≠ s.ic % 1024 → u.core c = s.core c) ∧
      { u.core s.ic with evc := [], leases := [] } = { s.core s.ic with evc := [], leases := [] }
    let stores (e : Instr) : Prop :=
      ((∀ j, j < ty.bytes → ¬ held (t.off + j)) → ∃ u : State, exec e s = guardedNext s (After s t.obj u.retire) ∧
        frame u ∧ (∀ a, (∀ j, j < ty.bytes → a ≠ pad (t.off + j)) → u.readByte a = s.readByte a) ∧
        ∀ j, j < ty.bytes → (∀ j', j < j' → j' < ty.bytes → pad (t.off + j') ≠ pad (t.off + j)) →
          u.readByte (pad (t.off + j)) = (s.gpr d).extractLsb' (8 * j) 8) ∧
      ((∃ j, j < ty.bytes ∧ held (t.off + j)) → exec e s = guardedNext s (After s t.obj (parksAgain s)))
    (s.chkStore k (s.gpr b).toNat ty.bytes rW ty.bytes 0 s.mayStore = .ok t → stores (.st ty d k b)) ∧
    (s.chkStore k i.val ty.bytes rW ty.bytes 0 s.mayStore = .ok t → stores (.sti ty d k i)) ∧
    (s.chkStore k (s.gpr b).toNat 16 (rW + rK) 16 0 s.mayStore = .ok t → (s.home t t.off).1 = s.ic →
      ¬ Held s (s.home t t.off).2 16 true →
      exec (.capst q k b) s = guardedNext s (After s t.obj (
        if (s.cap q).tag = false ∨ (s.cap q).rights.testBit 7 = true ∨ t.obj = aliasObj ∨
            (s.me.bank < 16 ∧ t.obj = s.scratchObj s.ic s.me.bank)
        then ((s.chargeScratch 16).writeCap (pad t.off) (s.cap q)).retire
        else s.trap causeRights (s.cap k).base k.toNat))) ∧
    (s.chkVec k rW n true s.mayStore (s.activeIdx w.bits x) = .ok t els → els ≠ [] →
      (∀ p ∈ els, ∀ j, j < n → ¬ held (p.2 + j)) →
      ∃ u : State, exec (.vst w v k x) s = .next (After s t.obj u.retire) ∧ frame u ∧
        (∀ a, (∀ p ∈ els, ∀ j, j < n → a ≠ pad (p.2 + j)) → u.readByte a = s.readByte a) ∧
        ∀ p ∈ els, ∀ j, j < n → (∀ p' ∈ els, ∀ j', j' < n → pad (p'.2 + j') = pad (p.2 + j) → p' = p ∧ j' = j) →
          u.readByte (pad (p.2 + j)) = (elt w.bits (s.vec v) p.1).extractLsb' (8 * j) 8)

/-- R54, R56, R201 and R209. A scalar store to a shared object with room in the log appends one 8-byte entry at the tail, with
the mask and the data of the bytes written, and its ring bytes enter the write queue; the slot waits only for a line that
finds no room there. Where the ring is then more than half full, entries that compaction has passed leave at the front (R60).
Without room in the log the slot parks for it and nothing is appended. That a parked strand's program counter stays is the
model's choice (assumption 50). -/
def Sys2Proof.Spec.SharedStores : Prop :=
  ∀ (s : State) (ty : MemTy) (d b : Gpr) (k : Kr) (t : Xl),
    s.chkStore k (s.gpr b).toNat ty.bytes rW ty.bytes 0 s.mayStore = .ok t → t.ent.kind = kShared →
    t.off % ty.bytes = 0 →
    let n := ty.bytes
    let o := t.off % 8
    let h := s.home t (t.off - o)
    let e : LogEnt := { pos := 0, kind := 0, size := 0, mask := (2 ^ n - 1) * 2 ^ o, off := t.off - o, gen := t.gen
                        obj := t.obj, data := BitVec.ofNat 512 ((s.gpr d).toNat % 256 ^ n * 256 ^ o), tag := false
                        home := h.1, addr := h.2, shipped := false, acked := false }
    let l := (s.core s.ic).log
    let ref := s.myRef
    let u := ({ s with pktNum := s.pktNum + 1 }.onLog s.ic fun l => l.append [e]).vaultWrite s.ic
      (l.ringCells l.tail [e]) (s.acctOf s.ic s.is) (.slot ref)
    (l.room [e] = true → exec (.st ty d k b) s = guardedNext s (After s t.obj (
        if u.isLate s.ic (.slot ref) then u.parkRef .remote ref { fin := .queued, left := 1 } else u.retire)) ∧
      (u.core s.ic).log.tail = l.tail + 24 ∧
      ∃ m, (u.core s.ic).log.ents = (l.ents ++ [{ e with pos := l.tail }]).drop m ∧
        (∀ x ∈ (l.ents ++ [{ e with pos := l.tail }]).take m, x.pos < l.comp) ∧
        (l.tail + 24 - l.recl ≤ l.size * 2 ^ 20 / 2 → m = 0)) ∧
    (l.room [e] = false → exec (.st ty d k b) s =
      guardedNext s (After s t.obj (s.notIssued.park .logFull { fin := .again, left := 1 })))

/-- R208 and R209. A checked load of a private object whose bytes lie in one block and are not in the write queue parks its
slot for the vault:
the program counter stays, which is the model's choice (assumption 50), the wait remembers the destination, and the request
is due at the controller 2 clocks later. -/
def Sys2Proof.Spec.VaultLoads : Prop :=
  ∀ (s : State) (ty : MemTy) (d b : Gpr) (k : Kr) (t : Xl),
    s.chk k (s.gpr b).toNat ty.bytes rR ty.bytes 0 false s.mayLoad = .ok t → t.ent.kind = kPrivate →
    (s.core s.ic).board = [] → s.sideUsed s.ic s.is = 0 → (s.core s.ic).vault.wq = [] →
    s.cachedImage s.ic (s.home t t.off).2 = false → s.guardOk = true →
    ((s.home t t.off).2 + ty.bytes - 1) / 256 = (s.home t t.off).2 / 256 →
    ∃ u : State, exec (.ld ty d k b) s = .next u ∧ u.me.run = .parked ∧ u.me.why = .remote ∧ u.me.pc = s.me.pc ∧
      (∃ w, u.me.wait = some w ∧ w.fin = .load d ty.bytes ty.isNat ∧ w.left = 1 ∧ w.next = s.issue.next ∧
        w.reads = [⟨0, t.off, (s.home t t.off).2, ty.bytes, 0⟩]) ∧
      (∃ r, (u.core s.ic).vault.reqs = (s.core s.ic).vault.reqs ++ [r] ∧ r.beats = 1 ∧
        r.addr = (s.home t t.off).2 / 256 * 256 ∧ ⟨s.cycle + 2, .vaultRequestArrival, [s.ic, r.id]⟩ ∈ u.pending) ∧
      (∀ r, u.gpr r = s.gpr r) ∧ u.mem = s.mem

/-- R215. `CAPNARROW` narrows a tagged capability that holds N within its limit and otherwise traps; `CAPOFF` reads a field
of any capability. -/
def Obligations.CapabilityInstructions : Prop :=
  ∀ (s : State) (d : Gpr) (j k : Kr) (b : Gpr) (sel : BitVec 3),
    let c := s.cap k
    let base := c.base + (s.gpr b).toNat
    let r := s.gpr (b + 1)
    let limit := base + (r.extractLsb' 0 40).toNat
    exec (.capnarrow j k b) s = guardedNext s (
      if c.tag = false then s.trap causeCapTag c.base k.toNat
      else if c.rights.testBit 6 = false then s.trap causeRights c.base k.toNat
      else if c.limit < limit then s.trap causeBounds (base % 2 ^ 64) k.toNat
      else (s.putCap j (Cap.make limit base (c.rights &&& (r.extractLsb' 56 8).toNat) c.gen c.obj)).retire) ∧
    exec (.capoff d k sel) s = guardedNext s (put s d (
      if sel = 0 then BitVec.ofNat 64 c.base else if sel = 1 then BitVec.ofNat 64 c.limit
      else if sel = 2 then BitVec.ofNat 64 c.rights else if sel = 3 then BitVec.ofNat 64 c.gen
      else if sel = 4 then BitVec.ofNat 64 c.obj else if sel = 5 then (if c.tag then 1 else 0)
      else BitVec.ofNat 64 c.limit - BitVec.ofNat 64 c.base)) ∧
    (∀ (l a g n o : Nat), l < 2 ^ 40 → a < 2 ^ 40 → g < 256 → n < 256 → o < 2 ^ 24 →
      let m := Cap.make l a g n o
      m.limit = l ∧ m.base = a ∧ m.rights = g ∧ m.gen = n ∧ m.obj = o ∧ m.tag = true)

/-- Loads from and stores to the scratchpad, and the physical faults that reads meet.
The clauses that rest on log entry 6 state the model's choice. -/
def Obligations.ScratchpadAccesses : Prop := Spec.FaultsMet ∧ Spec.ScratchpadLoads ∧ Spec.ScratchpadStores

/-- Stores to shared memory and loads from a vault. The clauses that rest on log entry 50 state the model's choice. -/
def Obligations.VaultAndSharedAccesses : Prop := Spec.SharedStores ∧ Spec.VaultLoads


/-! Page 5: ordering, atomics, full/empty words and sync words. -/

/-- R57, R216, R218, R214. A release publishes every scope up to its own at the tail of the log; a fence with nothing
outstanding in its scope goes on and parks otherwise; with a side log that is not empty each of them, and an acquire,
takes `PAGE` first. -/
def Obligations.ReleaseFence : Prop :=
  ∀ (s : State) (sc : Scope) (d : Pr) (a : Gpr),
    let l := (s.core s.ic).log
    let u := s.onLog s.ic fun l => l.publish sc.code
    let wait := if sc.code < 2 then [] else s.fenceSet s.me sc.code
    (∀ lvl ∈ [2, 4, 5, 6, 7, 8], (u.core s.ic).log.pub lvl = if lvl ≤ sc.code then l.tail else l.pub lvl) ∧
    (∀ c, { u.core c with log := {} } = { s.core c with log := {} }) ∧ { u with cores := [] } = { s with cores := [] } ∧
    (s.sideUsed s.ic s.is = 0 → exec (.rel sc) s = guardedNext s u.retire ∧
      exec (.fence sc) s =
        guardedNext s (if wait = [] then s.retire else s.park .remote { fin := .fence wait, left := 1 })) ∧
    (s.sideUsed s.ic s.is ≠ 0 →
      let t := s.trap causePage (s.sideOff s.ic s.is 0) 0x8000
      exec (.rel sc) s = guardedNext s t ∧ exec (.fence sc) s = guardedNext s t ∧
      exec (.acq sc d a) s = guardedNext s t)

/-- R64 and R217. An acquire of no other core writes 0 to its predicate; a mask that is malformed for the scope traps
with the mask as the value; otherwise the slot parks for the acquire and a query is on its way to every writer that no
earlier acquire of the core still waits for, and to no other. The whole-scope mask names every core in the scope. That a
parked strand's program counter stays is the model's choice (assumption 50). -/
def Obligations.Acquires : Prop :=
  ∀ (s : State) (sc : Scope) (d : Pr) (a : Gpr) (l : List Nat), s.sideUsed s.ic s.is = 0 → s.guardOk = true →
    let m := (s.gpr a).toNat
    let writers := l.filter fun t => t != s.ic
    (m = 2 ^ 61 → s.logSet sc.code m = some ((s.logical.filter fun t => inScope sc.code s.ic t) ++
      if 7 ≤ sc.code then s.podCores else [])) ∧
    (s.logSet sc.code m = none → exec (.acq sc d a) s = .next (s.trap causeBounds 0 m)) ∧
    (s.logSet sc.code m = some l → writers = [] → exec (.acq sc d a) s = .next (s.putPred d 0).retire) ∧
    (s.logSet sc.code m = some l → writers ≠ [] → ∃ u : State, exec (.acq sc d a) s = .next u ∧
      u.me.run = .parked ∧ u.me.why = .acquire ∧ u.me.pc = s.me.pc ∧ (∀ r, u.gpr r = s.gpr r) ∧ u.mem = s.mem ∧
      ∃ q, (u.core s.ic).acqs = (s.core s.ic).acqs ++ [q] ∧ q.writers = writers ∧ q.scope = sc.code ∧
        q.slot % 16 = s.is % 16 ∧
        let busy (w : Nat) : Prop := ∃ o ∈ (s.core s.ic).acqs, w ∈ o.writers
        let asks (p : Nat × Packet) (w : Nat) : Prop :=
          p.2.src = s.ic ∧ p.2.dst = w ∧ p.2.body = .acqQuery s.ic q.slot (levelOf s.ic w) w
        (∀ w ∈ writers, ¬ busy w → ∃ p ∈ u.packets, asks p w) ∧
        (∀ p ∈ u.packets, p ∉ s.packets → ∃ w ∈ writers, ¬ busy w ∧ asks p w))

/-- R223. `LOGQ` names the issuing core by all ones, or a core by its package and logical number. A name of no live core
gives all ones; the cursor for a named core and a position of the issuing core's own log are read at once; for a position
of another core's log the slot parks, its program counter standing by the model's choice (assumption 50), and the query is on
its way to that core. -/
def Sys2Proof.Spec.LogQuery : Prop :=
  ∀ (s : State) (d a : Gpr) (sel : BitVec 4),
    let l := (s.core s.ic).log
    let name := (s.gpr a).toNat
    let pos := ([l.tail, l.pubVault, l.pubQuad, l.pubDie, l.pubPkg, l.pubPod, l.pubSys, l.comp, l.recl] : List Nat)
    let named : Option Nat := if s.gpr a = BitVec.allOnes 64 then some s.ic
      else if 2 ^ 16 ≤ name then none else s.namedPos (name / 1024) (name % 1024)
    (named = none → exec (.logq d a sel) s = guardedNext s (put s d (BitVec.allOnes 64))) ∧
    (∀ p, named = some p → sel = 9 →
      exec (.logq d a sel) s = guardedNext s (put s d (BitVec.ofNat 64 (s.readMem (s.cursorLoc s.ic p) 8)))) ∧
    (named = some s.ic → sel.toNat < 9 →
      exec (.logq d a sel) s = guardedNext s (put s d (BitVec.ofNat 64 (pos.getD sel.toNat 0)))) ∧
    (∀ p, named = some p → p ≠ s.ic → sel ≠ 9 → s.guardOk = true → ∃ u : State, exec (.logq d a sel) s = .next u ∧
      u.me.run = .parked ∧ u.me.why = .remote ∧ u.me.pc = s.me.pc ∧ (∀ r, u.gpr r = s.gpr r) ∧
      ∃ w ref q, u.me.wait = some w ∧ w.fin = .word d ∧ ref % 16 = s.is % 16 ∧ w.ticket = ref / 16 ∧ q ∈ u.packets ∧
        q.2.dst = p ∧ q.2.body = .logQuery s.ic ref p sel.toNat)

/-- R50, R63, R224, R315 and R316. `MIRFL` never parks: it discards every line of the mirror, or, of a checked range of an object
that is `shared` or `code`, the lines of the object that overlap it, and for any other object nothing; a range that fails a
check traps with the cause of that step. Nothing else changes, but that reads in flight of such lines are marked. The model's
choices: translations that the slot does not hold are read from the table at once (assumption 57), only the page of the
first byte need be mapped, and a range that leaves the capability's limit is checked with the entry of its base's page
(assumption 54). -/
def Sys2Proof.Spec.MirrorFlush : Prop :=
  ∀ (s : State) (d b : Gpr) (k : Kr),
    let c := s.cap k
    let n := (s.gpr d).toNat
    let x := (s.gpr b).toNat
    let page := (c.base + x) / 2 ^ 21
    let look := if c.tag then s.prewalk s.ic s.is c.obj [page, c.base / 2 ^ 21] else s
    let flushed (u : State) (gone : MirLine → Prop) : Prop :=
      (∀ m, m ∈ (u.core s.ic).mirror ↔ m ∈ (s.core s.ic).mirror ∧ ¬ gone m) ∧
      { u.core s.ic with mirror := [], flying := [] } = { s.core s.ic with mirror := [], flying := [] } ∧
      (∀ c, c ≠ s.ic → u.core c = s.core c) ∧ { u with cores := [] } = { s with cores := [] }
    (∃ u : State, exec .mirflAll s = guardedNext s u.retire ∧ flushed u fun _ => True) ∧
    match look.checkSpan s.ic s.is c k.toNat x n rR 1 0 false (fun _ _ => true) [page] with
    | .ok t =>
      (t.ent.kind = kShared ∨ t.ent.kind = kCode → ∃ u : State,
        exec (.mirfl d k b) s = guardedNext s (After s t.obj u.retire) ∧ flushed u fun m =>
          m.obj = t.obj ∧ 0 < n ∧ t.off / 64 ≤ m.line ∧ m.line ≤ (t.off + n - 1) / 64) ∧
      (t.ent.kind ≠ kShared → t.ent.kind ≠ kCode → exec (.mirfl d k b) s = guardedNext s (After s t.obj s.retire))
    | .bad cause e v => exec (.mirfl d k b) s = guardedNext s (s.badChk cause e v)
    | .walk _ => False

/-- The log query and the mirror flush. The clauses that rest on log entries 50, 54 and 57 state the model's choices. -/
def Obligations.LogQueryMirrorFlush : Prop := Spec.LogQuery ∧ Spec.MirrorFlush

/-- A word operation reaches a word of the issuing core's scratchpad, and nobody waits on the core. -/
abbrev Sys2Proof.Spec.WordHere (s : State) (t : Xl) : Prop :=
  t.ent.kind = kScratch ∧ (s.home t t.off).1 = s.ic ∧ (s.core s.ic).waiters = [] ∧ s.sideUsed s.ic s.is = 0

/-- R191, R219, R220 and R284 for the scratchpad. An atomic writes the new value of its type and returns the old one, signed
for `i32` and natural for `n32`; `CAS` writes its new value where the word equals the expected one, and its slot parks until
its access has been served. Poison ends them in `POISON`, and a word that an earlier holder keeps parks them. The model's
choices: conflicts of banks delay nothing, and the access of `CAS` is served one clock later (assumption 6); a parked
strand's program counter stays (assumption 50). -/
def Obligations.ScratchpadAtomics : Prop :=
  ∀ (s : State) (ty : AmoTy) (d : Gpr) (k : Kr) (x : Idx) (q : BitVec 3) (t : Xl),
    s.chk k (s.index x) (amoBytes ty) (rR + rW + rA) (amoBytes ty) 0 false s.mayAmo = .ok t → WordHere s t →
    let n := amoBytes ty
    let loc := padByte s t t.off
    let c := padRead s n [(loc, n)]
    let old : BitVec (8 * n) := BitVec.ofNat (8 * n) (s.readMem loc n)
    let v : BitVec (8 * n) := (s.gpr (q.setWidth 6)).setWidth (8 * n)
    let le : Bool := if ty = .n32 then old.ule v else old.sle v
    let back : Word := if ty = .n32 then old.setWidth 64 else old.signExtend 64
    let stops (e : Instr) : Prop :=
      (Held s (s.home t t.off).2 n true → exec e s = guardedNext s (After s t.obj (parksAgain s))) ∧
      (¬ Held s (s.home t t.off).2 n true → c.poisoned loc n = true →
        exec e s = guardedNext s (After s t.obj (c.trap causePoison t.off k.toNat)))
    let does (e : Instr) (new : BitVec (8 * n)) : Prop := stops e ∧
      (¬ Held s (s.home t t.off).2 n true → c.poisoned loc n = false →
        exec e s = guardedNext s (After s t.obj (put (c.writeMem loc new.toNat n) d back)))
    does (.amoadd ty d k x q) (old + v) ∧ does (.amomin ty d k x q) (if le then old else v) ∧
    does (.amomax ty d k x q) (if le then v else old) ∧ does (.amoand ty d k x q) (old &&& v) ∧
    does (.amoor ty d k x q) (old ||| v) ∧ does (.amoxor ty d k x q) (old ^^^ v) ∧ does (.amoswap ty d k x q) v ∧
    stops (.cas ty d k x) ∧
    (¬ Held s (s.home t t.off).2 n true → c.poisoned loc n = false → s.guardOk = true → Memory.wf s.mem = true →
      ∃ u : State, exec (.cas ty d k x) s = .next u ∧ u.me.run = .parked ∧ u.me.why = .remote ∧ u.me.pc = s.me.pc ∧
      u.readMem loc n = (if old = (s.gpr d).setWidth (8 * n) then ((s.gpr (d + 1)).setWidth (8 * n)).toNat else old.toNat) ∧
      (∀ b, b < loc ∨ loc + n ≤ b → u.readByte b = s.readByte b) ∧
      ∃ p w ref, ⟨s.cycle + 1, .remoteReply, [p.id]⟩ ∈ u.pending ∧ u.packet? p.id = some p ∧ u.me.wait = some w ∧
        w.fin = .word d ∧ p.body = .reply s.ic ref back 0 none ∧ ref % 16 = s.is % 16 ∧ w.ticket = ref / 16)

/-- What a word operation at the scratchpad does: it parks for an earlier holder, ends in `POISON` where it reads poison, takes
effect, or waits. `c` is the state in which the operation has reached its word, from state `p`. -/
abbrev Sys2Proof.Spec.AtWord (s p c : State) (k : Kr) (t : Xl) (e : Instr) (write reads ready : Bool) (done : State)
    (waits : Prop) : Prop :=
  let loc := padByte s t t.off
  let held := Held s (s.home t t.off).2 8 write
  (held → exec e s = guardedNext s (After s t.obj (parksAgain p))) ∧
  (¬ held → (reads && c.poisoned loc 8) = true →
    exec e s = guardedNext s (After s t.obj (c.trap causePoison t.off k.toNat))) ∧
  (¬ held → (reads && c.poisoned loc 8) = false →
    (ready = true → exec e s = guardedNext s (After s t.obj done)) ∧ (ready = false → s.guardOk = true → waits))

/-- R191, R221, R222 and R284 for the scratchpad. A full/empty operation whose condition holds takes effect at once; one whose
condition does not hold parks its slot for the word, as the last waiter; a word that an earlier holder keeps parks it, and
poison ends one that reads its word. The model's choices: conflicts of banks delay nothing (assumption 6), and a parked
strand's program counter stays (assumption 50). -/
def Sys2Proof.Spec.ScratchpadFullEmpty : Prop :=
  ∀ (s : State) (d : Gpr) (k : Kr) (x : Idx) (t : Xl), WordHere s t →
    let loc := padByte s t t.off
    let c := padRead s 8 [(loc, 8)]
    let isFull := s.full.contains loc
    let word := BitVec.ofNat 64 (s.readMem loc 8)
    let waits (e : Instr) : Prop := ∃ u : State, exec e s = .next u ∧ u.me.run = .parked ∧
      u.me.why = .word ∧ u.me.pc = s.me.pc ∧ u.mem = s.mem ∧ u.full = s.full ∧ (∀ r, u.gpr r = s.gpr r) ∧
      ∃ w, (u.core s.ic).waiters = [w] ∧ w.key = loc ∧ w.slot % 16 = s.is % 16
    let on (need : Nat) (write reads ready : Bool) (e : Instr) (done : State) : Prop :=
      s.chk k (s.index x) 8 need 8 0 false s.mayWord = .ok t → AtWord s s c k t e write reads ready done (waits e)
    let filled (v : Word) : State := (c.writeMem loc v.toNat 8).setFull loc true
    on (rR + rW + rS) true true isFull (.ldc d k x) (put (c.setFull loc false) d word) ∧
    on (rR + rS) false true isFull (.ldf d k x) (put c d word) ∧
    on (rR + rS) false true (isFull && word == s.gpr d) (.feq d k x) c.retire ∧
    on (rW + rS) true false (!isFull) (.stp d k x) (filled (s.gpr d)).retire ∧
    on (rW + rS) true false true (.setf d k x) (filled (s.gpr d)).retire ∧
    on (rW + rS) true false true (.sete k x) (c.setFull loc false).retire

/-- R191, R284, R348, R349, R351 and R352 for the scratchpad. A sync word holds a generation, a target and a count; arming sets
the target and keeps or clears the count, adding raises the count to at most its field, and a count that reaches the target
advances the generation; a wait goes on when the generation differs from its operand and parks otherwise. A release scope
publishes first. The model's choices: conflicts of banks delay nothing (assumption 6), and a parked strand's program counter
stays (assumption 50). -/
def Sys2Proof.Spec.ScratchpadSyncWords : Prop :=
  ∀ (s : State) (sc : Scope) (d : Gpr) (k : Kr) (x : Idx) (t : Xl), WordHere s t →
    let loc := padByte s t t.off
    let word := s.readMem loc 8
    let gen := word / 2 ^ 56
    let target := word / 2 ^ 28 % 2 ^ 28
    let count := word % 2 ^ 28
    let settled (t c : Nat) : Nat :=
      if t = 0 ∨ c < t then gen * 2 ^ 56 + t * 2 ^ 28 + c else (gen + c / t) % 256 * 2 ^ 56 + t * 2 ^ 28 + c % t
    let v := s.gpr d
    let pre := if sc.code < 2 then s else s.onLog s.ic fun l => l.publish sc.code
    let c := padRead pre 8 [(loc, 8)]
    let r := padRead s 8 [(loc, 8)]
    let sum := count + v.toNat % 2 ^ 28
    let sat := if 2 ^ 28 - 1 < sum then c.count s.ic 12 1 else c
    let on (p c : State) (need : Nat) (write ready : Bool) (e : Instr) (done : State) : Prop :=
      s.chk k (s.index x) 8 need 8 0 false s.mayWord = .ok t →
      AtWord s p c k t e write true ready done (∃ u : State, exec e s = .next u ∧ u.me.run = .parked ∧
        u.me.why = .sync ∧ u.mem = s.mem ∧ u.me.pc = s.me.pc)
    on pre c (rW + rS) true true (.swarm sc d k x)
      (c.writeMem loc (settled (v.toNat % 2 ^ 28) (if v.getLsbD 63 then 0 else count)) 8).retire ∧
    on pre c (rW + rS) true true (.swadd sc d k x)
      (sat.writeMem loc (settled target (min sum (2 ^ 28 - 1))) 8).retire ∧
    on s r (rR + rS) false true (.swrd d k x) (put r d (BitVec.ofNat 64 word)) ∧
    on s r (rR + rS) false (gen != v.toNat % 256) (.swwait d k x) (put r d (BitVec.ofNat 64 word))

/-- Full and empty words and sync words of the scratchpad.
The clauses that rest on log entries 6 and 50 state the model's choices. -/
def Obligations.ScratchpadWords : Prop := Spec.ScratchpadFullEmpty ∧ Spec.ScratchpadSyncWords


/-! Tiles, page 4 and the quad arrays. -/

/-- The instruction joins its core's matrix queue with the context of its issue, and every other field of the core but
the scoreboard and what the slot does next is unchanged (R228, R237, R241). -/
abbrev Sys2Proof.Spec.Joins (s u : State) (kind : MatKind) (notify : Bool) : Prop :=
  ∃ o : MatOp, (u.core s.ic).matQ = (s.core s.ic).matQ ++ [o] ∧ o.kind = kind ∧ o.slot = s.is ∧
    o.fmt = (s.core s.ic).fmt ∧ o.epi = (s.core s.ic).epi ∧ o.issue = s.cycle ∧ o.notify = (notify && !s.me.trail) ∧
    o.shadow = s.me.trail ∧ o.num = (s.core s.ic).order + 1 ∧ u.mem = s.mem ∧ (∀ r, u.gpr r = s.gpr r) ∧
    (∀ r, u.vec r = s.vec r) ∧ ∀ c, c ≠ s.ic → u.core c = s.core c
/-- No operation at the place of a leading copy's waits for the issuing slot to issue it (R228). -/
abbrev Sys2Proof.Spec.NoneAwaited (s : State) : Prop := ∀ o ∈ (s.core s.ic).matQ, ¬(o.slot = s.is ∧ o.awaited = true)
/-- The slot waits for a reply or another core's work, with its program counter at the start (R37). -/
abbrev Sys2Proof.Spec.Parked (s u : State) (why : Why) : Prop :=
  u.me.run = .parked ∧ u.me.why = why ∧ u.me.pc = s.me.pc

/-- R228, R229, R239 and R240. `MMA`, `MMAS` and `MZERO` join the matrix queue when it has fewer than eight operations,
the scoreboard has room for their buffers and a notification can be reserved, and the strand goes on; a full queue makes
the turn a bubble; a scaled multiply without an MX format traps. A leading copy's operation keeps a place behind its own for
its trailing copy's, which the queue accepts only when that copy issues it, with its operands and the context of its own
issue. That the place is kept, and that a pair posts the leading copy's notice alone, are the model's choices (assumption
58). The clauses that rest on log entry 51 state the model's choice. -/
def Obligations.MatrixQueue : Prop :=
  ∀ (s : State) (ov nt : Bool) (d : Acc) (a b : Ob),
    let k := s.core s.ic
    let room (n : Nat) : Prop := k.accepted.length < 8 ∧ k.board.length + n ≤ 32 ∧ s.me.lead = false ∧ NoneAwaited s
    (room 2 → (nt = true → k.canReserve = true) →
      (∃ u, exec (.mma ov nt d a b) s = guardedNext s u.retire ∧ Joins s u (.mma false ov d.toNat a.toNat b.toNat) nt ∧
        (u.core s.ic).board = k.board ++
          [⟨.buf a.toNat 0 18432, false, k.order + 1⟩, ⟨.buf b.toNat 0 18432, false, k.order + 1⟩]) ∧
      (isMx k.fmt = true → ∃ u, exec (.mmas ov nt d a b) s = guardedNext s u.retire ∧
        Joins s u (.mma true ov d.toNat a.toNat b.toNat) nt)) ∧
    (isMx k.fmt = false → exec (.mmas ov nt d a b) s = guardedNext s (s.trap causeIllField s.issue.start s.baseValue)) ∧
    (room 0 → ∃ u, exec (.mzero d) s = guardedNext s u.retire ∧ Joins s u (.mzero d.toNat) false) ∧
    (8 ≤ k.accepted.length → exec (.mma ov nt d a b) s = guardedNext s s.notIssued ∧
      exec (.mzero d) s = guardedNext s s.notIssued) ∧
    (s.me.lead = true → NoneAwaited s → k.accepted.length < 8 → k.board.length ≤ 32 → ∃ (u : State) (o : MatOp), exec (.mzero d) s = guardedNext s u.retire ∧
      o.kind = .mzero d.toNat ∧ o.slot = s.is ∧ o.awaited = false ∧ o.notify = false ∧
      (u.core s.ic).matQ = k.matQ ++
        [o, { o with num := o.num + 1, slot := s.is + 8, shadow := true, awaited := true }]) ∧
    (∀ o l r, k.matQ = l ++ o :: r → o.slot = s.is → o.awaited = true →
      (∀ x ∈ l, ¬(x.slot = s.is ∧ x.awaited = true) ∧ x.num ≠ o.num) → k.accepted.length < 8 → k.board.length ≤ 32 →
      ∃ (u : State) (y : MatOp), exec (.mzero d) s = guardedNext s u.retire ∧ (u.core s.ic).matQ = l ++ y :: r ∧
        y.num = o.num ∧ y.kind = .mzero d.toNat ∧ y.slot = s.is ∧ y.awaited = false ∧ y.fmt = k.fmt ∧ y.epi = k.epi ∧
        y.issue = s.cycle ∧ y.shadow = s.me.trail)

/-- R237, R241, R243 and R244. `MFMT` and `MEPI` set the core's format and epilogue and nothing else; `MSTAT` reads the
context word, the accepted operations, the governor or the landed bytes; a fence with nothing accepted before it goes on and
parks for the accepted operations otherwise. That an `MEPI` or `MFMT` of a pair acts once for the core, and that a parked
strand's program counter stays, are the model's choices (assumptions 58 and 50). -/
def Obligations.MatrixContext : Prop :=
  ∀ (s : State) (f : MFmt) (m : BitVec 3) (t : FTy) (r : Rnd) (n : Bool) (a : Vr) (d : Gpr) (sel : BitVec 2),
    let k := s.core s.ic
    let fmt := s.onCore s.ic fun k => { k with fmt := f }
    let epi := s.onCore s.ic fun k => { k with epi := ⟨m.toNat, t, r, n, s.vec a⟩ }
    let wait (core : Bool) : State :=
      match (k.accepted.filter fun o => core || o.slot == s.is).map (·.num) with
      | [] => s.retire
      | o :: l => s.park .remote { fin := .mfence (o :: l), left := 1 }
    exec (.mfmt f) s = guardedNext s fmt.retire ∧ exec (.mepi m t r n a) s = guardedNext s epi.retire ∧
    exec (.mstat d sel) s = guardedNext s (put s d (BitVec.ofNat 64 (
      if sel = 0 then mfmtCode k.fmt + 2 ^ 4 * k.epi.mode + 2 ^ 7 * ftyCode k.epi.ty + 2 ^ 10 * rndCode k.epi.rnd +
        (if k.epi.sat then 2 ^ 13 else 0)
      else if sel = 1 then k.accepted.length
      else if sel = 2 then s.rho (posArray s.ic) % 32 + 2 ^ 16 * s.credits (posArray s.ic)
      else s.me.landed))) ∧
    exec .mfence s = guardedNext s (wait false) ∧ exec .mfenceCore s = guardedNext s (wait true)

/-- R231, R232, R235 and R242. A checked tile load takes a scoreboard entry for the part of the buffer that it writes and
parks its slot with its bytes to come and one vault request for each piece; accumulator loads and tile stores also join the
matrix queue; `ROWACT` and `ROWPRE` send a request that moves no data and go on. The model's choices: a tile store has no size
limit of its own (assumption 22), and a parked strand's program counter stays (assumption 50). -/
def Sys2Proof.Spec.Tiles : Prop :=
  ∀ (s : State) (e : TElem) (sh : BitVec 4) (tr : BitVec 2) (d : Ob) (c : Acc) (k : Kr) (x : Idx) (t : Xl),
    let core := s.core s.ic
    let n := Machine.tileBytes e sh.toNat
    let z := storeSize core.fmt core.epi
    (s.chk k (s.index x) 1 rR 1 0 false s.tileKind = .ok t →
      exec (.rowact k x) s = guardedNext s (After s t.obj (s.vreq s.ic (s.home t t.off).2 0 .open none).retire) ∧
      exec (.rowpre k x) s = guardedNext s (After s t.obj (s.vreq s.ic (s.home t t.off).2 0 .close none).retire)) ∧
    (s.guardOk = true → core.board = [] → NoneAwaited s → s.sideUsed s.ic s.is = 0 →
      (s.chk k (s.index x) n rR 256 0 false s.tileKind = .ok t → s.allHere t n = true →
        ∃ u : State, exec (.tld e sh tr d k x) s = .next u ∧ Parked s u .remote ∧ u.me.landed = 0 ∧ u.mem = s.mem ∧
          (u.core s.ic).board = [⟨if sh.toNat < 12 then .buf d.toNat 0 n else .buf d.toNat 16384 (16384 + n), true,
            core.order + 1⟩] ∧
          (u.core s.ic).vault.reqs.map (·.addr) =
            core.vault.reqs.map (·.addr) ++ (s.tilePieces t n).map (·.addr) ∧
          ∃ w, u.me.wait = some w ∧ w.fin = .tile false d.toNat e sh.toNat tr.toNat n ∧ w.reads = s.tilePieces t n) ∧
      (core.accepted.length < 8 → s.chk k (s.index x) 16384 rR 256 0 false s.tileKind = .ok t → s.allHere t 16384 = true →
        ∃ u : State, exec (.tldacc c k x) s = .next u ∧ Parked s u .remote ∧
          Joins s u (.tldacc c.toNat (s.tilePieces t 16384)) false ∧ u.me.landed = 0) ∧
      (core.accepted.length < 8 → s.chk k (s.index x) z rW 64 0 false s.tstKind = .ok t → s.allHere t z = true →
        (t.ent.kind = kScratch → s.ownScratch (s.cap k) = true) →
        ∃ u : State, exec (.tst c k x) s = .next u ∧ Parked s u .remote ∧
          Joins s u (.tst c.toNat (if t.ent.kind = kScratch then 1 else if t.ent.kind = kShared then 2 else 0) t.obj t.gen
            t.off (s.linePieces t z)) false))

/-- R236. A buffer move is 1 KiB at an offset that is a multiple of 1,024 within the buffer or accumulator, else it traps
with the offset; a write of an operand buffer holds its bytes on the scoreboard and commits 15 clocks after its issue; a read
of one gives its bytes, or traps for poison in them; an accumulator's moves join the matrix queue. That a parked strand's
program counter stays is the model's choice (assumption 50). -/
def Sys2Proof.Spec.BufferMoves : Prop :=
  ∀ (s : State) (o : Ob) (c : Acc) (v : Vr) (b : Gpr),
    let core := s.core s.ic
    let x := (s.gpr b).toNat
    let loc := bufLoc s.ic o.toNat x
    (18432 ≤ x → exec (.obput (.ob o) v b) s = guardedNext s (s.trap causeBounds x 0) ∧
      exec (.obget v (.ob o) b) s = guardedNext s (s.trap causeBounds x 0)) ∧
    (16384 ≤ x → exec (.obput (.acc c) v b) s = guardedNext s (s.trap causeBounds x 0) ∧
      exec (.obget v (.acc c) b) s = guardedNext s (s.trap causeBounds x 0)) ∧
    (x < 16384 → x % 1024 ≠ 0 → exec (.obput (.ob o) v b) s = guardedNext s (s.trap causeAlign x 0) ∧
      exec (.obget v (.acc c) b) s = guardedNext s (s.trap causeAlign x 0)) ∧
    (x < 18432 → x % 1024 = 0 → s.me.hold = none → core.board = [] →
      let seen := s.meetFaults s.ic loc 1024
      (∃ u : State, exec (.obput (.ob o) v b) s = guardedNext s u.retire ∧ u.mem = s.mem ∧
        (u.core s.ic).obs = core.obs ++ [⟨s.cycle + 15, core.order + 1, o.toNat, x, s.vec v⟩] ∧
        (u.core s.ic).board = [⟨.buf o.toNat x (x + 1024), true, core.order + 1⟩] ∧ ∀ r, u.gpr r = s.gpr r) ∧
      (seen.poisoned loc 1024 = true → ∃ u : State, exec (.obget v (.ob o) b) s = guardedNext s (u.trap causePoison x 0) ∧
        u.mem = s.mem ∧ ∀ r, u.vec r = s.vec r) ∧
      (seen.poisoned loc 1024 = false → ∃ u : State, exec (.obget v (.ob o) b) s = guardedNext s u.retire ∧ u.mem = s.mem ∧
        (v.toNat < 32 → u.vec v = BitVec.ofNat 8192 (s.readMem loc 1024)) ∧ (u.core s.ic).board = [] ∧
        ∀ r, r ≠ v → u.vec r = s.vec r)) ∧
    (∀ h w, core.obs = [⟨s.cycle, h, o.toNat, x, w⟩] → Memory.wf s.mem = true →
      let u := s.commitObs s.ic
      u.readMem loc 1024 = w.toNat ∧ (∀ a, a < loc ∨ loc + 1024 ≤ a → u.readByte a = s.readByte a) ∧
      (u.core s.ic).obs = [] ∧ ∀ e ∈ (u.core s.ic).board, e.holder ≠ h) ∧
    (x < 16384 → x % 1024 = 0 → core.board = [] → core.accepted.length < 8 → s.me.lead = false → NoneAwaited s →
      s.guardOk = true →
      (∃ u : State, exec (.obput (.acc c) v b) s = .next u ∧ Parked s u .remote ∧
        Joins s u (.obput c.toNat (s.vec v) x) false) ∧
      (∃ u : State, exec (.obget v (.acc c) b) s = .next u ∧ Parked s u .remote ∧ Joins s u (.obget v c.toNat x) false))

/-- R21, R230, R239 and R240. An idle array grants the first ready member in its order: the operation runs for its busy
clocks, its credits are taken, and it is performed at their end. Performing a multiply leaves every element of the
accumulator with the accumulated product of its rows; `MZERO` clears the accumulator; a buffer put lands its bytes; a tile
store to the scratchpad writes its chunks of 2 KiB in order. That a chunk takes 8 clocks is the model's choice (assumption
6). -/
def Sys2Proof.Spec.MatrixGrants : Prop :=
  ∀ (s : State) (q c : Nat) (o : MatOp),
    let g : State := { s with evt := [q] }
    let sh := mshape o.fmt
    let sz := accBytes o.fmt
    ((s.grantOrder q).filterMap (fun c => (s.matReady c).map fun o => (c, o)) = [(c, o)] →
      (s.quad q).until_ ≤ s.cycle → 16 * o.busy ≤ s.credits q →
      ∃ u : State, exec .matrixGrant g = .next u ∧ (u.quad q).until_ = s.cycle + o.busy ∧
        (u.quad q).running = some (c, o.num) ∧ (u.quad q).credits = s.credits q - 16 * o.busy ∧ u.mem = s.mem ∧
        ⟨s.cycle + o.busy, .matrixPerform, [q]⟩ ∈ u.pending) ∧
    ((s.quad q).running = some (c, o.num) → (s.core c).matQ.find? (fun x => x.num == o.num) = some o →
      (s.core c).contained = false →
      let idle := g.onQuad q fun x => { x with running := none }
      (∀ mx ov d a b, o.kind = .mma mx ov d a b → Memory.wf s.mem = true →
        let acc := accAt c d o.shadow
        let row (n r : Nat) := operandRow o.fmt mx (s.readMem (bufLoc c n 0) 16384) (s.readMem (bufLoc c n 16384) 2048) r sh.k
        ∃ u : State, exec .matrixPerform g = .next u ∧ (∀ x ∈ (u.core c).matQ, x.num ≠ o.num) ∧
          (∀ i j, i < sh.m → j < sh.n → u.readMem (acc + (i * sh.n + j) * sz) sz =
            (mmaElem o.fmt (row a i) (row b j) (if ov then 0 else s.readMem (acc + (i * sh.n + j) * sz) sz)).1 % 256 ^ sz) ∧
          (∀ x, x < acc ∨ acc + sh.m * sh.n * sz ≤ x → u.readByte x = s.readByte x)) ∧
      (∀ d, o.kind = .mzero d → Memory.wf s.mem = true → ∃ u : State, exec .matrixPerform g = .next (u.matDone c o) ∧
        (∀ x, (u.matDone c o).readByte x = if accAt c d o.shadow ≤ x ∧ x < accAt c d o.shadow + 16384 then 0 else s.readByte x) ∧
        { u with mem := [], tags := [], poison := [], badGranules := [] } =
          { idle with mem := [], tags := [], poison := [], badGranules := [] }) ∧
      (∀ d v off, o.kind = .obput d v off → exec .matrixPerform g =
        .next ((idle.writeMem (accAt c d o.shadow + off) v.toNat 1024).matAnswer c o id))) ∧
    (∀ ps k acks out d obj gen off, (s.core c).tst = some (k, acks, out, out) → s.isLate c .tile = false →
      (s.core c).accepted.head? = some o → o.kind = .tst d 1 obj gen off ps → o.agrees = some true →
      (s.core c).waiters = [] →
      2048 * k < out.length → Memory.wf s.mem = true →
      let mine := ps.filter fun p => p.key / 2048 == k
      ∃ u : State, exec .tstChunkWrite { s with evt := [c] } = .next u ∧ (u.core c).tst = some (k + 1, acks, out, out) ∧
        ⟨s.cycle + 8, .tstChunkWrite, [c]⟩ ∈ u.pending ∧
        (∀ a, (∀ p ∈ mine, ¬(scratchLoc c p.addr ≤ a ∧ a < scratchLoc c p.addr + p.n)) → u.readByte a = s.readByte a) ∧
        ∀ p ∈ mine, ∀ i, i < p.n → p.key + i < out.length →
          (∀ r ∈ mine, r = p ∨ r.addr + r.n ≤ p.addr ∨ p.addr + p.n ≤ r.addr) →
          u.readByte (scratchLoc c (p.addr + i)) = ((out[p.key + i]?).map (·.2)).getD 0)

/-- R96. An INT8 element whose accumulator is far from the ends of its range is the exact sum of the old value and the
256 products; nothing saturates. -/
def Sys2Proof.Spec.MatrixIntegerSums : Prop :=
  ∀ (x y : Nat → BitVec 8) (acc : BitVec 32), -(2 ^ 30) ≤ acc.toInt → acc.toInt ≤ 2 ^ 30 →
    let row (f : Nat → BitVec 8) := (List.range 256).map fun i => (opValue .int8 (f i).toNat, 127)
    mmaElem .int8 (row x) (row y) acc.toNat =
      ((acc + BitVec.ofInt 32 (((List.range 256).map fun i => (x i).toInt * (y i).toInt).sum)).toNat, .none)

/-- The matrix queue at work and its exact integer sums. The clauses that rest on log entry 6 state the model's choice. -/
def Obligations.MatrixEvents : Prop := Spec.MatrixGrants ∧ Spec.MatrixIntegerSums

/-- Tiles and the moves between buffers, accumulators and registers.
The clauses that rest on log entries 22 and 50 state the model's choices. -/
def Obligations.TilesAndBuffers : Prop := Spec.Tiles ∧ Spec.BufferMoves


/-! Pages 6 and 7: engines, messages, launches, barriers and slot control. -/

/-- The slot parks for a reason and one packet leaves for its answer: where it goes, its class and flits, and what it
carries, given the name by which the reply finds the strand (R37, R295, R296). -/
abbrev Sys2Proof.Spec.Asks (e : Instr) (s : State) (why : Why) (fin : Fin) (dst cls flits : Nat) (body : Nat → Body)
    (also : State → Nat → Prop := fun _ _ => True) : Prop :=
  s.guardOk = true → ∃ u : State, exec e s = .next u ∧ u.me.run = .parked ∧ u.me.why = why ∧ u.me.pc = s.me.pc ∧
    u.mem = s.mem ∧ (∀ r, u.gpr r = s.gpr r) ∧ (∀ r, u.vec r = s.vec r) ∧ ∃ w ref p, u.me.wait = some w ∧ w.fin = fin ∧
      w.left = 1 ∧ w.start = s.issue.start ∧ w.next = s.issue.next ∧ w.ticket = ref / 16 ∧ ref % 16 = s.is % 16 ∧
      p ∈ u.packets.map (·.2) ∧ p.src = s.ic ∧ p.dst = dst ∧ p.cls = cls ∧
      p.flits = flits ∧ p.body = body ref ∧ also u ref
/-- The issuing slot's packet leaves and its strand goes on (R71). -/
abbrev Sys2Proof.Spec.Leaves (u : State) (src dst cls flits : Nat) (body : Body) : Prop :=
  ∃ p, p ∈ u.packets.map (·.2) ∧ p.src = src ∧ p.dst = dst ∧ p.cls = cls ∧ p.flits = flits ∧ p.body = body

/-- The ranges of a copy or fill pass their checks: a buffer's lies below its end, an object's is checked, and so is the
sync word (R272, R273, R274, R278). -/
def Sys2Proof.Spec.RangesOk (s : State) (b : Nat) (fill : Bool) (src dst : Option Xl) : Prop :=
  let ks := BitVec.ofNat 4 (cSrcK b)
  let kd := BitVec.ofNat 4 (cDstK b)
  (if fill then src = none
   else if cSrcB b then src = none ∧ cSrcOff b + cLen b ≤ 18432
   else ∃ t, src = some t ∧ s.chk ks (cSrcOff b) (cLen b) rR 1 0 false s.copySrc = .ok t) ∧
  (if cDstB b then dst = none ∧ cDstOff b + cDstLen b ≤ 18432 ∧ (cSyncEn b = true → cKind b = 1 ∧ cSyncOff b % 8 = 0 ∧
      ∃ g, s.group? s.ic s.me.bank = some g ∧ cSyncOff b + 8 ≤ g.len)
   else ∃ t, dst = some t ∧ s.chk kd (cDstOff b) (cDstLen b) rW 1 1 false s.copyDst = .ok t ∧
      (cKind b = 1 → s.ownScratchObj (s.cap kd) = true) ∧ (cSyncEn b = true →
        (t.ent.kind = kScratch ∨ t.ent.kind = kShared) ∧ ∃ y, s.chk kd (cSyncOff b) 8 rS 8 2 false s.copyDst = .ok y))

/-- R214, R254, R272, R273, R280 and R282. With a side log that is not empty a copy takes `PAGE`. A malformed command block
traps with the offset of its first bad word. A well-formed one whose ranges pass their checks joins the copy queue with a
reserved inbox entry for its completion and one for the notice of its follow-on multiply, if that asks for one, and the
strand goes on; a full queue makes the turn a bubble. -/
def Sys2Proof.Spec.CopyCommands : Prop :=
  ∀ (s : State) (a : Vr) (e : Instr) (fill : Bool) (bad : Option Nat),
    let b := s.blockOf a
    let k := s.core s.ic
    (e, fill, bad) ∈ [(.cpy a, false, copyBad 0 b), (.cpyMulticast a, false, copyBad 1 b),
      (.cpyConvert a, false, copyBad 2 b), (.cpyf a, true, fillBad b)] →
    let noted := !fill && cFollow b && followNotes b
    let kept (src dst : Option Xl) (z : State) : State :=
      (src.toList ++ dst.toList ++ if cSyncEn b then dst.toList else []).foldr (fun y z => After s y.obj z) z
    (s.sideUsed s.ic s.is ≠ 0 → exec e s = guardedNext s (s.trap causePage (s.sideOff s.ic s.is 0) 0x8000)) ∧
    (∀ off, s.sideUsed s.ic s.is = 0 → bad = some off →
      exec e s = guardedNext s (s.trap causeIllField s.issue.start off)) ∧
    (∀ src dst, s.sideUsed s.ic s.is = 0 → bad = none → RangesOk s b fill src dst →
      (16 ≤ k.copies.length → exec e s = guardedNext s (kept src dst s.notIssued)) ∧
      (k.copies.length < 16 → k.canReserveN (if noted then 2 else 1) = true → k.board.length + 6 ≤ 32 →
        ∃ u : State, exec e s = guardedNext s (kept src dst u.retire) ∧ u.mem = s.mem ∧ (∀ r, u.gpr r = s.gpr r) ∧
          (∀ c, c ≠ s.ic → u.core c = s.core c) ∧ ∃ m, (u.core s.ic).copies = k.copies ++ [m] ∧ m.num = k.order + 1 ∧
            m.slot = s.is ∧ m.fill = fill ∧ m.block = b ∧ m.src = src ∧ m.dst = dst ∧ m.started = false ∧ m.wrote = 0 ∧
            (u.core s.ic).resv =
              k.resv ++ (if noted then [⟨s.is, forMatrix, m.num + 1⟩] else []) ++ [⟨s.is, forCommand, m.num⟩]))

/-- R286 and R287. A collective whose block and ranges pass takes a place among its die's commands, sends its descriptor,
with its participants in rank order, to the die of the first of them, reserves the entry for its completion, and the strand
goes on; a malformed block traps with the offset of its first bad word, a malformed set with the set. -/
def Sys2Proof.Spec.Collectives : Prop :=
  ∀ (s : State) (sc : Scope) (a : Vr) (e : Instr) (kind : Nat),
    let b := s.blockOf a
    let k := s.core s.ic
    let set := s.collSet sc.code b
    s.sideUsed s.ic s.is = 0 → (e, kind) ∈ [(.collAllreduce sc a, 0), (.collReduceScatter sc a, 1), (.collAllGather sc a, 2),
      (.collXorParity sc a, 3)] →
    (∀ off, s.collBad kind sc.code b set = some off →
      exec e s = guardedNext s (s.trap causeIllField s.issue.start off)) ∧
    (s.collBad kind sc.code b none = none → set = none → exec e s = guardedNext s (s.trap causeBounds 0 (kSet b))) ∧
    (∀ l src dst, s.collBad kind sc.code b set = none → set = some l →
      let ks := BitVec.ofNat 4 (cSrcK b)
      let kd := BitVec.ofNat 4 (cDstK b)
      let die := posDie s.ic
      s.chk ks (cSrcOff b) (cLen b) rR 1 0 false (s.collKind (s.cap ks)) = .ok src →
      s.chk kd (cDstOff b) (collWrites b l.length (s.pkg == kParity b)) rW 1 1 false (s.collKind (s.cap kd)) = .ok dst →
      k.canReserve = true → k.board.length + 2 ≤ 32 → (s.die die).descs.length < 64 →
      ∃ (v : State) (c : Coll), exec e s = guardedNext s (After s src.obj (After s dst.obj (
          (v.retire.onDie die fun d => { d with descs := d.descs ++ [c] }).send s.ic
            (if l.headD s.ic < 864 then 36 * posDie (l.headD s.ic) else l.headD s.ic) bulk 2 c.launch (.descriptor c)))) ∧
        v.mem = s.mem ∧ (∀ d, v.die d = s.die d) ∧ c.core = s.ic ∧ c.slot = s.is ∧ c.num = k.order + 1 ∧ c.block = b ∧
        c.scope = sc.code ∧ c.src = src ∧ c.dst = dst ∧ c.set = l ∧ c.die = die ∧ (∀ r, v.gpr r = s.gpr r) ∧
        (v.core s.ic).resv = k.resv ++ [⟨s.is, forCommand, c.num⟩])

/-- R290 and R296. A remote call on private or KV memory is checked as it issues; the slot parks for the reply, and for every
run of its bytes that lies together at one home a request goes there, with the part of the data that belongs to it. A run for
each home is the model's choice where the bytes straddle two (assumption 86), and so is that a parked strand's program
counter stays (assumption 50). -/
def Sys2Proof.Spec.RemoteCalls : Prop :=
  ∀ (s : State) (n : BitVec 3) (d : Vr) (k : Kr) (x : Idx) (t : Xl),
    s.sideUsed s.ic s.is = 0 → s.guardOk = true →
    let len := 8 * 2 ^ n.toNat
    let word (i : Nat) : Word := (s.vec d).extractLsb' (64 * i) 64
    let does (e : Instr) (z need : Nat) (op : Nat → Nat → HomeOp) (fin : Fin) (cls flits : Nat → Nat) : Prop :=
      s.chk k (s.index x) z need 8 0 false (fun o _ => o.kind == kPrivate || o.kind == kKv) = .ok t →
      let runs := s.homeRuns t z
      (∀ i, i < z / 8 → ∃ r ∈ runs, r.1 ≤ 8 * i ∧ 8 * i < r.1 + r.2.2 ∧
        s.home t (t.off + 8 * i) = (r.2.1.1, r.2.1.2 + (8 * i - r.1))) ∧
      ∃ (u : State) (w : Wait) (ref : Nat), exec e s = .next u ∧ Parked s u .remote ∧ u.mem = s.mem ∧
        (∀ r, u.gpr r = s.gpr r) ∧ (∀ r, u.vec r = s.vec r) ∧ u.me.wait = some w ∧ w.fin = fin ∧ w.left = runs.length ∧
        w.start = s.issue.start ∧ w.next = s.issue.next ∧ w.ticket = ref / 16 ∧ ref % 16 = s.is % 16 ∧
        ∀ r ∈ runs,
          let q : Req := s.sited ⟨op r.1 r.2.2, s.ic, ref, t.obj, t.gen, t.off + r.1, r.2.1.1, r.2.1.2, none, false,
            (s.core s.ic).log.tail, s.acctOf s.ic s.is⟩
          Leaves u s.ic q.home (cls r.2.2) (flits r.2.2) (.req q)
    let all := rR + rW + rA
    does (.rcallRd n d k x) len rR (fun _ m => .rcRead m) (.vbytes d len) (fun _ => urgentClass) (fun _ => 1) ∧
    does (.rcallWr n d k x) len rW (fun i m => .rcWrite m (BitVec.ofNat 8192 ((s.vec d).toNat / 256 ^ i % 256 ^ m))) .none
      (fun m => if m ≤ 256 then urgentClass else bulk) (fun m => 1 + (m + 63) / 64) ∧
    does (.rcallAdd d k x) 8 all (fun _ _ => .rcAdd (word 0)) (.vbytes d 8) (fun _ => urgentClass) (fun _ => 2) ∧
    does (.rcallSwap d k x) 8 all (fun _ _ => .rcSwap (word 0)) (.vbytes d 8) (fun _ => urgentClass) (fun _ => 2) ∧
    does (.rcallCas d k x) 8 all (fun _ _ => .rcCas (word 0) (word 1)) (.vbytes d 8) (fun _ => urgentClass) (fun _ => 2)

/-- Nothing of a core changes when its inbox is looked at: no slot waits for the inbox and no group holds parked entries. -/
abbrev Sys2Proof.Spec.InboxStill (s : State) : Prop :=
  (∀ n, (s.slot s.ic n).run = .parked → (s.slot s.ic n).why ≠ .inbox) ∧ ∀ p ∈ (s.core s.ic).groups, p.2.parking = []

/-- R249, R259, R260, R261 and R263. `SEND` of p0 and g0 is posted and goes on, any other waits for its outcome; a handle
of no core answers at once. `RECV` takes the oldest entry the slot may take and parks without one; `JOIN` takes its
launch's completion, answers all ones when none is due, and parks otherwise; `EPOLL` reads the queue. The model's choices: a
parked strand's program counter stays (assumption 50), and an operation leaves for the home that its byte has at that moment
(assumption 55). -/
def Sys2Proof.Spec.Messages : Prop :=
  ∀ (s : State) (u : Bool) (d : Pr) (a : Vr) (av : Option Vr) (b g : Gpr) (sel : BitVec 2) (e : Entry),
    s.sideUsed s.ic s.is = 0 →
    let v := s.vec a
    let k := s.core s.ic
    let h : Word := v.extractLsb' 0 64
    let cls := if u then urgentClass else bulk
    let mail (ref : Nat) (posted : Option Nat) : Body :=
      .mail ⟨h, v.extractLsb' 64 64, v.extractLsb' 128 384, u, s.me.world, s.ic, ref, s.issue.start, posted⟩
    let take : State := s.onCore s.ic fun k => { k with inbox := delFirst (fun x => x == e) k.inbox }
    (s.handlePos h.toNat = none → ¬(d = 0 ∧ b = 0) →
      exec (.send u d a b) s = guardedNext s ((s.putPred d 0).putGpr b 4).retire) ∧
    (s.handlePos h.toNat = none → exec (.send u 0 a 0) s = guardedNext s (s.eventsAt (s.cycle + 15) [(10, 1)]).retire) ∧
    (∀ dst, s.handlePos h.toNat = some dst →
      (¬(d = 0 ∧ b = 0) → Asks (.send u d a b) s .remote (.outcome d b) dst cls 2 fun ref => mail ref none) ∧
      (s.me.outstanding < 16 → ∃ (t : State) (num : Nat), exec (.send u 0 a 0) s = guardedNext s t.retire ∧
        t.me.posted = s.me.posted ++ [⟨num, dst, 0, 0, none, false, 0⟩] ∧ Leaves t s.ic dst cls 2 (mail s.is (some num)))) ∧
    (s.firstTake s.ic s.is = some e → e.kind ≠ 3 → e.kind ≠ 8 → e.wrote = none → InboxStill s →
      exec (.recv g none) s = guardedNext s (take.putGpr g e.tag).retire ∧
      exec (.recv g (some a)) s = guardedNext s ((take.putGpr g e.tag).putVecAt s.ic s.is a
        (BitVec.ofNat 8192 (v.toNat / 2 ^ 512 * 2 ^ 512 + e.bits.toNat)) (s.cycle + 15) (BitVec.ofNat 256 (2 ^ 16 - 1))).retire) ∧
    (s.firstTake s.ic s.is = none → s.guardOk = true → ∃ t : State, exec (.recv g av) s = .next t ∧ Parked s t .inbox ∧
      (t.core s.ic).inbox = k.inbox ∧ ∀ r, t.gpr r = s.gpr r) ∧
    (s.joinEntry s.ic s.is (s.gpr b).toNat = some e → InboxStill s → s.launches.find? (fun p => p.1 == e.tag.toNat) = none →
      exec (.join g b) s = guardedNext s ({ take with pktNum := s.pktNum + 1 }.putGpr g (e.payload.extractLsb' 64 64)).retire) ∧
    (∀ id r, s.joinEntry s.ic s.is (s.gpr b).toNat = some e → InboxStill s →
      s.launches.find? (fun p => p.1 == e.tag.toNat) = some (id, r) → (s.coreSet r.launch).any (fun w => w != s.ic) = true →
      s.guardOk = true → ∃ t : State, exec (.join g b) s = .next t ∧ Parked s t .acquire ∧ (t.core s.ic).inbox = (take.core s.ic).inbox ∧
        (g ≠ 0 → g.toNat < 32 → t.gpr g = e.payload.extractLsb' 64 64)) ∧
    (s.joinEntry s.ic s.is (s.gpr b).toNat = none →
      let due := k.resv.any fun r => r.what == forLaunch && r.num == (s.gpr b).toNat && r.taker == s.is
      (due = false → exec (.join g b) s = guardedNext s (put s g (BitVec.allOnes 64))) ∧
      (due = true → s.guardOk = true → ∃ t : State, exec (.join g b) s = .next t ∧ Parked s t .inbox)) ∧
    (sel.toNat < 3 → let mine := k.inbox.filter (s.takes s.ic s.is)
      exec (.epoll g sel) s = guardedNext s (put s g (
        if sel = 0 then BitVec.ofNat 64 mine.length
        else if sel = 1 then (mine.head?.map (·.tag)).getD (BitVec.allOnes 64)
        else BitVec.ofNat 64 (64 - (k.inbox.length + k.resv.length)))))

/-- R264, R265, R267 and R356. A launch reserves the entry of its completion and asks the sequencer, and its slot parks
for the answer; the registers of its capabilities and the scope of a barrier must exist, whatever the guard. A barrier or
sum barrier of a strand arrives and parks; handlers and the supervisor do not take part. That a parked strand's program
counter stays is the model's choice (assumption 50). -/
def Sys2Proof.Spec.LaunchesBarriers : Prop :=
  ∀ (s : State) (d g : Gpr) (a : Vr) (b : Kr) (sc : Scope),
    let k := s.core s.ic
    let ill := s.trap causeIllField s.issue.start s.baseValue
    let cap (i : Nat) : Cap := s.cap (BitVec.ofNat 4 (b.toNat + i))
    let submits (e : Instr) (ind : Bool) : Prop :=
      let t := launchTemplate (s.vec a).toNat ind
      Asks e s .remote (.word d) 0 urgentClass 5 (fun ref => .submit { t.1 with
          code := cap 0, args := [cap 1, cap 2, cap 3, cap 4], count := cap 5 } s.ic ref none s.me.world t.2)
        fun u ref => (u.core s.ic).resv = k.resv ++ [⟨s.is, forLaunch, ref⟩]
    (s.sideUsed s.ic s.is = 0 →
      (k.canReserve = true → (b.toNat ≤ 11 → submits (.launch d a b) false) ∧
        (b.toNat ≤ 10 → submits (.launchi d a b) true)) ∧
      (k.canReserve = false → b.toNat ≤ 10 → exec (.launch d a b) s = guardedNext s s.notIssued ∧
        exec (.launchi d a b) s = guardedNext s s.notIssued)) ∧
    (11 < b.toNat → exec (.launch d a b) s = .next ill) ∧
    (10 < b.toNat → exec (.launchi d a b) s = .next ill) ∧
    (2 ≤ sc.code → sc.code ≤ 7 →
      let level := if sc.code = 3 then 2 else sc.code
      (s.is < 13 ∨ s.me.trail = true → ∃ node,
        Asks (.bar sc) s .barrier .none node control 1 (fun ref => .barrier s.me.launch level s.ic ref false 0) ∧
        Asks (.cntsum sc d g) s .barrier (.word d) node control 1
          (fun ref => .barrier s.me.launch level s.ic ref true (s.gpr g))) ∧
      (13 ≤ s.is → s.me.trail = false → exec (.bar sc) s = guardedNext s s.retire ∧
        exec (.cntsum sc d g) s = guardedNext s (put s d (s.gpr g)))) ∧
    (sc.code < 2 ∨ 7 < sc.code → exec (.bar sc) s = .next ill ∧ exec (.cntsum sc d g) s = .next ill)

/-- R268, R269 and R375. `YIELD` keeps its slot idle for the rotations it names; `PARK` goes on at once when a wake or an entry is
there and parks otherwise; `WAKE` leaves as a posted operation, on its own core at its commit clock; `HALT` waits until
what the slot issued has been performed, and then the strand is Halted or the handler's slot empty. The model's choices:
slot 15's `HALT` retires no strand, so it waits for nothing and ends the urgent work, with its translations (assumption 33);
a parked strand's program counter stays (assumption 50). -/
def Sys2Proof.Spec.SlotControl : Prop :=
  ∀ (s : State) (a : Gpr),
    let n := (s.gpr a).toNat % 256
    let here := s.firstTake s.ic s.is
    let handle := s.gpr a
    let wakeMail (num : Nat) : Body := .wake ⟨handle, 0, 0, false, s.me.world, s.ic, s.is, s.issue.start, some num⟩
    (n = 0 → exec (.yield a) s = guardedNext s s.retire) ∧
    (0 < n → ∃ u : State, exec (.yield a) s = guardedNext s u.retire ∧ u.me.idle = s.cycle + 16 * n + 1 ∧ u.mem = s.mem ∧
      (∀ r, u.gpr r = s.gpr r) ∧ ⟨s.cycle + (16 * n + 1), .yieldEnd, [s.ic, s.is]⟩ ∈ u.pending) ∧
    (s.me.wake = true → ∃ u : State, exec .park s = guardedNext s u.retire ∧ u.me = { s.me with wake := false } ∧
      (u.core s.ic).inbox = (s.core s.ic).inbox) ∧
    (s.me.wake = false → here.isSome = true → exec .park s = guardedNext s s.retire) ∧
    (s.me.wake = false → here = none → s.guardOk = true → ∃ u : State, exec .park s = .next u ∧ Parked s u .inbox) ∧
    (s.handlePos handle.toNat = none → exec (.wake a) s = guardedNext s (s.eventsAt (s.cycle + 15) [(10, 1)]).retire) ∧
    (∀ dst, s.handlePos handle.toNat = some dst → s.me.outstanding < 16 → ∃ (u : State) (num : Nat), exec (.wake a) s = guardedNext s u.retire ∧
      u.me.posted = s.me.posted ++ [⟨num, dst, 0, 0, none, false, 0⟩] ∧
      (dst ≠ s.ic → Leaves u s.ic dst bulk 2 (wakeMail num)) ∧
      (dst = s.ic → ∃ p, u.packet? p.id = some p ∧ p.body = wakeMail num ∧
        ⟨s.cycle + 15, .wakeArrival, [p.id]⟩ ∈ u.pending)) ∧
    (s.is ≠ 15 → s.sideUsed s.ic s.is = 0 → s.haltReady s.ic s.is s.me = false → s.guardOk = true →
      ∃ u : State, exec .halt s = .next u ∧ Parked s u .remote) ∧
    (s.is < 13 → s.me.lead = false → s.me.trail = false → s.sideUsed s.ic s.is = 0 → s.haltReady s.ic s.is s.me = true →
      s.me.run = .running → InboxStill s → s.barriers = [] → (∃ p ∈ s.strandsOf s.ic s.me.bank, p.1 ≠ s.is ∧ p.2.run ≠ .halted) →
      ∃ u : State, exec .halt s = guardedNext s u ∧ u.me.run = .halted ∧ u.mem = s.mem ∧ ∀ r, u.gpr r = s.gpr r) ∧
    (s.is = 13 ∨ s.is = 14 → s.me.trail = false → s.sideUsed s.ic s.is = 0 → s.haltReady s.ic s.is s.me = true →
      InboxStill s →
      ∃ u : State, exec .halt s = guardedNext s u ∧ u.me.run = .empty ∧ u.mem = s.mem ∧ u.me.g = s.me.g) ∧
    (s.is = 15 → s.sideUsed s.ic s.is = 0 → (s.core s.ic).trap.urging = false →
      exec .halt s = guardedNext s s.retire) ∧
    (s.is = 15 → s.sideUsed s.ic s.is = 0 → (s.core s.ic).trap.urging = true → ∃ u : State, exec .halt s = guardedNext s u ∧
      u.me.run = .empty ∧ (u.core s.ic).trap.urging = false ∧ (u.core s.ic).trap.level = 0 ∧
      ∀ x ∈ (u.core s.ic).tlb, x.slot ≠ 15)

/-- Copies, fills and collectives. -/
def Obligations.EngineCommands : Prop := Spec.CopyCommands ∧ Spec.Collectives

/-- Launches, barriers and slot control. The clauses that rest on log entries 33 and 50 state the model's choices. -/
def Obligations.LaunchesAndSlots : Prop := Spec.LaunchesBarriers ∧ Spec.SlotControl

/-- Remote calls and messages. The clauses that rest on log entries 50, 55 and 86 state the model's choices. -/
def Obligations.RemoteCallsAndMessages : Prop := Spec.RemoteCalls ∧ Spec.Messages


/-! Page 7: streams. -/

/-- R339, R340 and R341–R346. A stream instruction sends its operation to the table of the die its handle names, `SOPEN` and
`SNEXT` to the table of their own die, and its slot parks for the answer; `SOPEN` names the group that issues it. The model's
choices: a handle of no die of the package is a `STREAM_STATE` trap of code 1 (assumption 82), and a parked strand's program
counter stays (assumption 50). -/
def Sys2Proof.Spec.StreamOperations : Prop :=
  ∀ (s : State) (d a b : Gpr) (v : Vr),
    let h := (s.gpr a).toNat
    let x := (s.gpr b).toNat
    let own := posDie s.ic
    let asks (e : Instr) (die : Nat) (op : StreamOp) (handle : Word) (fin : Fin) (flits : Nat) : Prop :=
      Asks e s .remote fin (36 * die) urgentClass flits fun ref => .streamOp die ⟨op, s.ic, ref, handle, s.me.world⟩
    let kreg (lo : Nat) : Cap := s.cap ((s.vec v).extractLsb' lo 4)
    let named : List (Instr × StreamOp × Fin) :=
      [(.sclose a, .sclose, .none), (.sgen d a, .sgen false, .word d), (.sgenAbandon d a, .sgen true, .word d),
       (.splay a b, .splay x, .none), (.strunc a b, .strunc x, .none), (.ssnap d a b, .ssnap x, .word d),
       (.skvaddr d a b, .skvaddr x, .word d), (.sstat v a, .sstat, .sstat v), (.scommit a b, .scommit x, .none)]
    (∀ p ∈ named, (bitsOf h 36 5 < 24 → asks p.1 (bitsOf h 36 5) p.2.1 (s.gpr a) p.2.2 1) ∧
      (24 ≤ bitsOf h 36 5 → exec p.1 s = guardedNext s (s.trap causeStreamState s.issue.start 1))) ∧
    asks (.sopen d v) own (.sopen ((s.vec v).setWidth 512) [kreg 0, kreg 4]
      ((s.group? s.ic s.me.bank).map fun g => (g.launch.id, g.index))) 0 (.word d) 2 ∧
    asks (.snext d a) own (.snext h) 0 (.word d) 1

/-- R333 and R343. `SFRAME` builds a frame from its vector register and waits for the frame's outcome; that a handle of no die
of the package answers code 2 at once is the model's choice (assumption 82). -/
def Sys2Proof.Spec.StreamFrames : Prop :=
  ∀ (s : State) (d : Pr) (v : Vr) (b : Gpr),
    let x := s.vec v
    let die := (x.extractLsb' 36 5).toNat
    let n := (x.extractLsb' 144 8).toNat
    (die < 24 → Asks (.sframe d v b) s .remote (.outcome d b) (36 * die) urgentClass (1 + (4 * min n 64 + 63) / 64) fun ref =>
      .frame { handle := x.extractLsb' 0 64, pf := (x.extractLsb' 64 64).toNat, seq := (x.extractLsb' 128 16).toNat, count := n
               bad := decide (64 < n) || x.extractLsb' 152 360 != 0
               tokens := BitVec.ofNat 2048 ((x.extractLsb' 512 2048).toNat % 2 ^ (32 * min n 64)), sec := s.me.world
               core := s.ic, slot := ref, host := false }) ∧
    (24 ≤ die → exec (.sframe d v b) s = guardedNext s ((s.putPred d 0).putGpr b 2).retire)

/-- The answer that a stream table sends to the strand that asked (R340). -/
abbrev Sys2Proof.Spec.Answers (s : State) (die : Nat) (r : StreamReq) (w : Word) : State :=
  s.send (36 * die) r.core urgentClass 1 none (.reply r.core r.slot w 0 none)
/-- The refusal that makes the asking instruction trap, with the start of that instruction (R340). -/
abbrev Sys2Proof.Spec.Refuses (s : State) (die : Nat) (r : StreamReq) (cause value : Nat) : State :=
  s.send (36 * die) r.core urgentClass 1 none (.reply r.core r.slot 0 0 (some (cause, s.startOf r.core r.slot, value)))

/-- R338, R340 and R344–R346. A table performs an operation on the clock it was started for. One whose handle names no open
entry is refused with `STREAM_STATE` 1, one from the wrong world on a secure entry with `WORLD`. The cursor operations
move their cursors within their bounds and are refused with their codes outside them; `SSNAP` and `SKVADDR` give
addresses; a step takes the first ready entry at the cursor; a reservation's holder alone may end its step. -/
def Sys2Proof.Spec.StreamTables : Prop :=
  ∀ (s : State) (die : Nat) (k : Nat) (r : StreamReq),
    (s.die die).streamRun.find? (fun p => p.1 == k) = some (k, r) →
    let u := s.onDie die fun d => { d with streamRun := SMap.del d.streamRun k }
    let g : State := { u with evt := [die, k] }
    let h := r.handle.toNat
    let idx := h % 4096
    let e := s.stream die idx
    let runs (t : State) : Prop := exec .streamOpPerform { s with evt := [die, k] } = .next t
    let set (f : Stream) : State := g.onStream die idx fun _ => f
    let table := (∀ d c o, r.op ≠ .sopen d c o) ∧ ∀ w, r.op ≠ .snext w
    let open_ := s.namesStream die h = true ∧ (e.sec = true → r.world = true)
    let reserved (n : Nat) : Prop := ∃ q m i c t, e.resv = some (q, m, i, c, t) ∧ q ≤ n ∧ n < q + m
    (table → s.namesStream die h = false → runs (Refuses g die r causeStreamState 1)) ∧
    (table → s.namesStream die h = true → e.sec = true → r.world = false → runs (Refuses g die r causeWorld 0)) ∧
    (∀ n, r.op = .splay n → open_ → (n ≤ e.g → runs (Answers (set { e with p := max e.p n }) die r 0)) ∧
      (e.g < n → runs (Refuses g die r causeStreamState 3))) ∧
    (∀ n, r.op = .scommit n → open_ → (e.c ≤ n → n ≤ e.p → runs (Answers (set { e with c := n }) die r 0)) ∧
      (n < e.c ∨ e.p < n → runs (Refuses g die r causeStreamState 4))) ∧
    (∀ n, r.op = .ssnap n → open_ →
      (e.c ≤ n ∧ n ≤ e.g ∨ reserved n → runs (Answers g die r (BitVec.ofNat 64 (e.ring + n % (e.w + 1) * e.z)))) ∧
      (¬(e.c ≤ n ∧ n ≤ e.g ∨ reserved n) → runs (Answers g die r (BitVec.allOnes 64)))) ∧
    (∀ n, r.op = .skvaddr n → open_ →
      (n ≤ e.g ∨ reserved n → runs (Answers g die r (BitVec.ofNat 64 (n * 2 ^ e.glog)))) ∧
      (¬(n ≤ e.g ∨ reserved n) → runs (Answers g die r (BitVec.allOnes 64)))) ∧
    (∀ a, r.op = .sgen a → open_ → (∀ q m i, e.resv ≠ some (q, m, i, r.slot % 16, r.core)) →
      runs (Refuses g die r causeStreamState 2)) ∧
    (∀ q m, r.op = .sgen false → open_ → e.resv = some (q, m, false, r.slot % 16, r.core) → e.queue = [] → e.stalled = [] →
      ∃ t : State, runs (Answers t die r (BitVec.ofNat 64 (q + m - 1))) ∧
        t.stream die idx = { e with g := q + m - 1, resv := none }) ∧
    (∀ w, r.op = .snext w → s.nextReady die r.world = none → runs (Answers g die r (BitVec.allOnes 64))) ∧
    (∀ w i x, r.op = .snext w → s.nextReady die r.world = some (i, x) → x = s.stream die i →
      ∃ t : State, runs (Answers t die r (BitVec.ofNat 64 (s.streamHandle die i x))) ∧ (t.die die).cursor = (i + 1) % 4096 ∧
        let m := if 0 < x.pendIn then min (min (min (max w 1) 64) x.pendIn) (min x.w (x.cap - (x.g + 1))) else 1
        (t.stream die i).resv = some (x.g + 1, m, decide (0 < x.pendIn), r.slot % 16, r.core))

/-- R295, R334, R335 and R337. A frame for no open stream answers code 2, even where it is malformed, which is the model's
choice (assumption 51), as is that a handle of another package or of no die names none (assumption 82); a malformed one or
one from the wrong world answers code 4; a
sound one in order joins the entry's queue and, outside a step, truncates the stream at once: the cursors fall to its
position and its inputs stand in the entry. An event of a stream fills the entry reserved for it. -/
def Sys2Proof.Spec.StreamFramesArrive : Prop :=
  ∀ (s : State) (p : Packet) (f : Frame), s.packet? p.id = some p → p.body = .frame f → p.dst < 864 →
    ∀ key : Nat,
    let die := p.dst / 36
    let h := f.handle.toNat
    let idx := h % 4096
    let e := s.stream die idx
    let base := ({ s with evt := [p.id, die, key] }.onDie die fun d => { d with streamRun := SMap.del d.streamRun key }).dropPacket p.id
    let answer (t : State) (code : Nat) : State :=
      t.send p.dst (if f.host then p.src else f.core) urgentClass 1 none (.frameReply f code)
    let runs (t : State) : Prop := exec .frameArrival { s with evt := [p.id, die, key] } = .next t
    (s.namesStream die h = false → runs (answer base 2)) ∧
    (s.namesStream die h = true → f.bad = true ∨ 64 < f.count ∨ (e.sec = true ∧ f.sec = false) → runs (answer base 4)) ∧
    (s.namesStream die h = true → f.bad = false → f.count ≤ 64 → (e.sec = true → f.sec = true) → f.seq = e.fseq →
      e.queue.length = 16 → runs (answer base 3)) ∧
    (s.namesStream die h = true → f.bad = false → f.count ≤ 64 → (e.sec = true → f.sec = true) → f.seq = e.fseq →
      e.queue = [] → e.stalled = [] →
      (e.resv ≠ none → ∃ t, runs (answer t 0) ∧ t.stream die idx =
        { e with queue := [⟨f.pf, f.count, f.tokens, none, f.seq⟩], fseq := (e.fseq + 1) % 65536 }) ∧
      (e.resv = none → e.c ≤ f.pf → ∃ t, runs (answer t 0) ∧
        let q := min f.pf e.g
        t.stream die idx = { e with s := e.s + 1, g := q, p := q, pendIn := f.count, first := q + 1, tokens := f.tokens
                                    fseq := (e.fseq + 1) % 65536 }))

/-- R325 and R337. A truncation or close event fills the entry that its owner reserved for this generation of the stream, replaces an untaken event of its stream, and is
counted as refused without either. -/
def Sys2Proof.Spec.StreamTruncation : Prop :=
  ∀ (s : State) (p : Packet) (die idx owner : Nat) (x : Entry) (close : Bool),
    s.packet? p.id = some p → p.body = .streamEvent die idx owner x close →
    (∀ n, (s.slot p.dst n).run = .parked → (s.slot p.dst n).why ≠ .inbox) →
    let c := p.dst
    let k := s.core c
    let key := bitsOf x.tag.toNat 36 5 * 2 ^ 20 + bitsOf x.tag.toNat 0 20
    let full : Entry := { x with spkg := s.pkg, score := s.logicalOf c, sslot := x.taker }
    let mine (y : Entry) : Bool := y.kind == 8 && y.tag == x.tag
    let held := k.resv.any fun r => r.what == forStream && r.num == key
    ∃ u : State, exec .truncationEvent { s with evt := [p.id] } = .next u ∧
      (held = true → (u.core c).inbox = k.inbox ++ [full] ∧
        (u.core c).resv = delFirst (fun r => r.what == forStream && r.num == key) k.resv) ∧
      (held = false → k.inbox.any mine = true → (u.core c).inbox = updFirst mine (fun _ => full) k.inbox ∧
        (u.core c).resv = k.resv) ∧
      (held = false → k.inbox.any mine = false → (u.core c).inbox = k.inbox ∧
        SMap.get (u.core c).evc 10 0 = min (SMap.get k.evc 10 0 + 1) (2 ^ 64 - 1))

/-- The stream instructions and frames. The clauses that rest on log entries 50 and 82 state the model's choices. -/
def Obligations.StreamInstructions : Prop := Spec.StreamOperations ∧ Spec.StreamFrames

/-- What reaches a stream table and what it sends. The clauses that rest on log entries 51 and 82 state the model's choices. -/
def Obligations.StreamEvents : Prop := Spec.StreamTables ∧ Spec.StreamFramesArrive ∧ Spec.StreamTruncation


/-! Page 8: traps, returns and control registers. -/

/-- A trap stops a slot: what it raised, the strand's state unchanged, and its entry in the core's queue; in the supervisor's
slot it is delivered at once (R361, R362, R364). -/
abbrev Sys2Proof.Spec.Taken (s u : State) (cause addr value resume : Nat) : Prop :=
  u.me.run = .trapped ∧ u.me.pc = s.me.pc ∧ u.mem = s.mem ∧ (∀ r, u.gpr r = s.gpr r) ∧ (∀ r, u.vec r = s.vec r) ∧
  (∀ r, u.pred r = s.pred r) ∧ (∀ r, u.cap r = s.cap r) ∧
  u.me.raised = some ⟨cause, addr, value, resume, false, s.cycle, s.statusAt s.ic (strandSlot s.me s.is)⟩ ∧
  (s.is ≠ 15 → (s.cycle, if s.me.trail then s.is - 8 else s.is) ∈ (u.core s.ic).trap.pend) ∧
  (s.is = 15 → u.agenda = ⟨.trapDelivery, [s.ic]⟩ :: s.agenda)

/-- R115, R157, R361, R370 and R372. `TRAP` and `BRK` trap with their immediate and resume at the next start; a chain that is
no instruction and a failed fetch trap at their start; `STEP` sets the slot's single-step bit at its commit clock, and has no
effect in slot 15. In slot 15 at nesting level 2 every trap contains the core (R364). A leading copy of a pair that its trailing
copy has not come to takes its trap later, with it (R42; assumption 58). -/
def Obligations.TrapsRaised : Prop :=
  ∀ (s : State) (i : Imm) (cause addr value : Nat),
    (s.is = 15 → (s.core s.ic).trap.level < 2) → s.pairBehind s.ic s.is = false →
    (∃ u : State, exec (.trap i) s = guardedNext s u ∧ Taken s u 0x55 s.issue.start i.val s.issue.next) ∧
    (∃ u : State, exec (.brk i) s = guardedNext s u ∧ Taken s u 0x54 s.issue.start i.val s.issue.next) ∧
    (∃ u : State, exec .illegalEncoding { s with evt := [cause, value, addr] } = .next u ∧
      Taken s u cause s.issue.start (s.issue.word.toNat + s.issue.pos * 65536) s.issue.start) ∧
    (∃ u : State, exec .instructionFetchFault { s with evt := [cause, addr, value] } = .next u ∧
      Taken s u cause addr value s.issue.start) ∧
    (s.is ≠ 15 → s.me.step = false → Alone s → ∃ u : State, exec .step s = guardedNext s u ∧
      u.me = { s.me with pc := s.issue.next, done := s.me.done + 1, walked := [], redo := false } ∧ u.mem = s.mem ∧
      (u.core s.ic).csrs = (s.core s.ic).csrs ++ [⟨s.cycle + 15, s.is, 5, 0x40⟩] ∧
      ∀ w : State, s.is < 15 → ((w.applyCsr s.ic ⟨s.cycle + 15, s.is, 5, 0x40⟩).slot s.ic s.is).step = true) ∧
    (s.is = 15 → exec .step s = guardedNext s s.retire)

/-- Slot 15 starts at offset 0 of its code capability after 16 clocks, with two registers written (R362, R363). -/
abbrev Sys2Proof.Spec.HandlerStarts (s u : State) (c : Nat) (g1 g2 : Nat) : Prop :=
  let h := u.slot c 15
  h.run = .running ∧ h.code = ⟨Config.supervisorCode c, true⟩ ∧ h.pc = h.code.base ∧ u.gprAt c 15 1 = BitVec.ofNat 64 g1 ∧
  u.gprAt c 15 2 = BitVec.ofNat 64 g2 ∧ (∀ r, r ≠ 1 → r ≠ 2 → r.toNat < 32 → u.gprAt c 15 r = s.gprAt c 15 r) ∧
  (∀ r, r.toNat < 32 → u.vecAt c 15 r = s.vecAt c 15 r) ∧ (∀ r, u.predAt c 15 r = s.predAt c 15 r) ∧
  (∀ r, u.capAt c 15 r = s.capAt c 15 r) ∧
  (u.core c).trap.readyAt = s.cycle + 16
/-- A frame holds what was raised, and no other byte of memory has changed (R365). -/
abbrev Sys2Proof.Spec.FrameHolds (s u : State) (c at_ : Nat) (r : Raise) (ctl : Nat) (code : Cap) (g1 g2 : Word) : Prop :=
  let word (off : Nat) : Nat := u.readMem (vaultLoc c (at_ + off)) 8
  word 0 = r.resume % 2 ^ 64 ∧ word 8 = r.status % 2 ^ 64 ∧ word 0x10 = r.cause % 2 ^ 64 ∧ word 0x18 = r.addr % 2 ^ 64 ∧
  word 0x20 = r.value % 2 ^ 64 ∧ word 0x28 = ctl ∧ word 0x40 = r.cycle % 2 ^ 64 ∧ word 0x48 = g1.toNat ∧
  word 0x50 = g2.toNat ∧ u.readMem (vaultLoc c (at_ + 0x30)) 16 = code.bits.toNat ∧
  ∀ a, a < vaultLoc c at_ ∨ vaultLoc c at_ + 0x400 ≤ a → u.readByte a = s.readByte a
/-- A frame holds the held operations in the order of their issue: each its capability, index and data (R366). -/
abbrev Sys2Proof.Spec.Replays (u : State) (c at_ : Nat) (hs : List Machine.Held) : Prop :=
  ∀ (j : Nat) (h : Machine.Held), hs[j]? = some h → u.readCap (vaultLoc c (at_ + 0x100 + 64 * j)) = h.cap ∧
    u.readMem (vaultLoc c (at_ + 0x110 + 64 * j)) 8 = h.index % 2 ^ 64 ∧
    u.readMem (vaultLoc c (at_ + 0x118 + 64 * j)) 8 = h.data.toNat
/-- The cause registers of a slot (R136). -/
abbrev Sys2Proof.Spec.CauseHolds (t : Slot) (cause addr value : Nat) : Prop :=
  t.tcause = cause % 256 ∧ t.taddr = addr % 2 ^ 64 ∧ t.tvalue = value % 2 ^ 64

/-- R362, R363, R364, R365 and R366. Delivery at nesting level 0 takes the first pending entry: a slot's goes into its frame and its
cause registers and makes it the handled slot, an event of the core into slot 15's own registers with no frame. A nested
trap is delivered at once into the supervisor's own frame, with g1 and g2 saved, at level 2, and the handled slot stays. At
most eight operations are held back, and a frame holds them. The model's choice (log entry 10): offset 0 is counted from
the base of the supervisor's code capability, which each delivery gives the slot again. -/
def Obligations.TrapDelivery : Prop :=
  ∀ (s : State) (c : Nat), (s.core c).contained = false → s.badGranules = [] → Memory.wf s.mem = true →
    let k := (s.core c).trap
    let sup := s.slot c 15
    let g : State := { s with evt := [c] }
    (∀ n q rest r, k.level = 0 → sup.run = .empty → k.urgent = [] → k.pend = (q, n) :: rest → n ≠ 15 →
      (s.slot c n).raised = some r → (s.slot c n).held.length ≤ 8 →
      let t := s.slot c n
      ∃ u : State, exec .trapDelivery g = .next u ∧ HandlerStarts s u c n r.cause ∧
        FrameHolds s u c (t.ctxbase + 0x8400) r (t.held.length + if r.noResume then 16 else 0) t.code 0 0 ∧ Replays u c (t.ctxbase + 0x8400) t.held ∧
        (u.slot c n).held = [] ∧
        CauseHolds (u.slot c n) r.cause r.addr r.value ∧ (u.core c).trap.level = 1 ∧
        (u.core c).trap.handled = some n ∧ (u.core c).trap.pend = rest ∧ (u.slot c n).run = t.run ∧
        (u.slot c n).pc = t.pc ∧ ∀ m, u.gprAt c n m = s.gprAt c n m) ∧
    (∀ q rest cause addr value es, k.level = 0 → sup.run = .empty → k.urgent = [] → k.pend = (q, 15) :: rest →
      k.events = (cause, addr, value) :: es →
      ∃ u : State, exec .trapDelivery g = .next u ∧ HandlerStarts s u c 15 cause ∧ u.mem = s.mem ∧
        CauseHolds (u.slot c 15) cause addr value ∧ (u.core c).trap.level = 1 ∧ (u.core c).trap.handled = none ∧
        (u.core c).trap.pend = rest ∧ (u.core c).trap.events = es) ∧
    (∀ r, sup.run = .trapped → sup.raised = some r → sup.held.length ≤ 8 →
      ∃ u : State, exec .trapDelivery g = .next u ∧ HandlerStarts s u c 15 r.cause ∧
        FrameHolds s u c (sup.ctxbase + 0x8400) r (sup.held.length + 32 + if r.noResume then 16 else 0) sup.code (s.gprAt c 15 1)
          (s.gprAt c 15 2) ∧ Replays u c (sup.ctxbase + 0x8400) sup.held ∧ (u.slot c 15).held = [] ∧
        CauseHolds (u.slot c 15) r.cause r.addr r.value ∧ (u.core c).trap.level = 2 ∧
        (u.core c).trap.handled = k.handled) ∧
    (0 < k.level → sup.run ≠ .trapped → exec .trapDelivery g = .next g)

/-- R367, R368 and R369. `TRET` outside a trap handler, with reserved bits set in the frame, of a frame that cannot be resumed,
or with a member not allowed, is `BAD_TRET` with its reason. At level 2 it restores what the nested trap interrupted. A slot
resumes at its frame's program counter with its frame's code capability and single-step bit; `tret.halt` halts it;
`tret.abort` leaves no group of its launch on the core. The supervisor is idle again in each of these. -/
def Obligations.TrapReturn : Prop :=
  ∀ (s : State),
    let c := s.ic
    let k := (s.core c).trap
    let word (at_ off : Nat) : Nat := s.readMem (vaultLoc c (at_ + off)) 8
    let reserved (at_ : Nat) : Bool :=
      word at_ 8 / 2 ^ 16 != 0 || (word at_ 8).testBit 11 || (word at_ 8).testBit 7 || (word at_ 8).testBit 3 ||
        word at_ 0x28 / 64 != 0
    let bad (e : Instr) (reason : Nat) : Prop := exec e s = guardedNext s (s.trap causeBadTret s.issue.start reason)
    let idle (u : State) : Prop := (u.slot c 15).run = .empty ∧ (u.core c).trap.level = 0 ∧ (u.core c).trap.handled = none
    let all := [Instr.tret, .tretHalt, .tretAbort]
    (s.is ≠ 15 ∨ k.level = 0 ∨ (k.level = 1 ∧ k.urging = true) → ∀ e ∈ all, bad e 1) ∧
    (s.is = 15 → k.level = 2 →
      let f := s.me.ctxbase + 0x8400
      (reserved f = true → ∀ e ∈ all, bad e 2) ∧
      (reserved f = false → bad .tretHalt 4 ∧ bad .tretAbort 4 ∧ ∃ u : State, exec .tret s = guardedNext s u ∧
        (u.core c).trap = { k with level := 1 } ∧ u.me.pc = word f 0 ∧ u.me.code = s.readCap (vaultLoc c (f + 0x30)) ∧
        u.gpr 1 = BitVec.ofNat 64 (word f 0x48) ∧ u.gpr 2 = BitVec.ofNat 64 (word f 0x50) ∧ u.mem = s.mem ∧
        ∀ r, r ≠ 1 → r ≠ 2 → u.gpr r = s.gpr r)) ∧
    (s.is = 15 → k.level = 1 → k.urging = false → k.handled = none → bad .tretHalt 4 ∧ bad .tretAbort 4 ∧
      ∃ u : State, exec .tret s = guardedNext s u ∧ idle u ∧ u.mem = s.mem) ∧
    (∀ h, s.is = 15 → k.level = 1 → k.urging = false → k.handled = some h → h ≠ 15 → (s.slot c h).run = .trapped →
      (s.slot c h).lead = false → (s.slot c h).trail = false →
      let t := s.slot c h
      let f := t.ctxbase + 0x8400
      (reserved f = true → ∀ e ∈ all, bad e 2) ∧
      (reserved f = false →
        ((word f 0x28).testBit 4 = true → bad .tret 3) ∧
        ((word f 0x28).testBit 4 = false → word f 0x28 % 16 = 0 → s.sideUsed c h = 0 → t.held = [] →
          (s.core c).vault.late = [] →
          ∃ u : State, exec .tret s = guardedNext s u ∧ idle u ∧ (u.slot c h).run = .running ∧ (u.slot c h).pc = word f 0 ∧
            (u.slot c h).code = s.readCap (vaultLoc c (f + 0x30)) ∧ (u.slot c h).step = (word f 8).testBit 6 ∧
            (∀ r, u.gprAt c h r = s.gprAt c h r) ∧ ∀ r, u.vecAt c h r = s.vecAt c h r) ∧
        (h < 13 → s.barriers = [] → (∃ p ∈ s.strandsOf c t.bank, p.1 ≠ h ∧ p.1 ≠ 15 ∧ p.2.run ≠ .halted) →
          ∃ u : State, exec .tretHalt s = guardedNext s u ∧ idle u ∧ (u.slot c h).run = .halted) ∧
        (s.barriers = [] → ∃ u : State, exec .tretAbort s = guardedNext s u ∧ idle u ∧
          (∀ p ∈ (u.core c).groups, p.2.launch.id ≠ t.launch) ∧ ∀ x ∈ (u.core c).deals, x.launch.id ≠ t.launch)))


/-- The words of a slot's registers by number (R136); its status is as the core shows it. -/
def Sys2Proof.Spec.slotWords (s : State) (c n : Nat) : List (Nat × Nat) :=
  let t := s.slot c n
  [(0, n), (1, t.strand), (2, t.group), (3, t.launch), (4, if t.world then 1 else 0),
   (5, { t with run := s.runAt c n, why := s.whyAt c n }.status n), (6, t.seed.toNat),
   (7, t.tcause), (8, t.taddr), (9, t.ctxbase + 0x8400), (10, t.tvalue), (11, t.ctxbase)]
/-- Numbers that name no control register (R135). -/
abbrev Sys2Proof.Spec.NoCsr (n : Nat) : Prop :=
  (0xC ≤ n ∧ n < 0x100) ∨ (0x100 ≤ n ∧ n < 0x200 ∧ 12 ≤ n % 16) ∨ (0x240 ≤ n ∧ n < 0x300) ∨ 0x308 ≤ n
/-- Another slot's register, for the supervisor alone (R135). -/
abbrev Sys2Proof.Spec.SlotCsr (n : Nat) : Prop := 0x100 ≤ n ∧ n < 0x200 ∧ n % 16 < 12
/-- A slot reads as running where it is neither parked, paused nor stopped; both copies of a pair leave the rotation with
either (R42). -/
abbrev Sys2Proof.Spec.InRotation (s : State) (c m : Nat) : Prop :=
  (s.slot c m).run = .running ∧ ∀ m', pairMate (s.slot c m) m = some m' → (s.slot c m').run = .running

/-- R135, R136, R138, R139, R140 and R356. Every `CSRR` of a register completes, in any slot for its own and the core's and the
die's registers and in the supervisor's for another slot's: it reads its field, the number of an event counter the counter;
`SHWLOSS` and the tile counters are cleared as they are read. A number of no register is `ILL_FIELD`, and another slot's
register `PRIV` for slots 0–14, whatever the guard. `CNTRD` and `CSRR` read an event counter as it stood before the issue clock; `CNTCLR`, in slot 15 alone, clears the counters of
its mask at its commit clock, on which an instruction's events are added (R355). The model's choices: a number of no register
stops whatever the guard (log entry 24), and a slot that is empty shows what its last strand left (log entry 25). -/
def Sys2Proof.Spec.ControlRegisterReads : Prop :=
  ∀ (s : State) (d a : Gpr) (i : Imm) (n : BitVec 4),
    let c := s.ic
    let k := s.core c
    let x := s.die (posDie c)
    let reads (v : Nat) : Prop := exec (.csrr d i) s = guardedNext s (put s d (BitVec.ofNat 64 v))
    let stops (e : Instr) (cause : Nat) : Prop := exec e s = .next (s.trap cause s.issue.start s.baseValue)
    let plain : List (Nat × Nat) :=
      [(0x200, s.logicalOf c), (0x201, posCore c), (0x202, posQuad c), (0x203, posDie c), (0x204, s.pkg),
       (0x205, Config.pod.toNat), (0x206, s.cycle), (0x209, k.urglim), (0x20B, k.log.tail), (0x20C, k.log.pubVault),
       (0x20D, k.log.comp), (0x20E, k.log.recl), (0x20F, k.log.size), (0x210, k.mirsize), (0x300, x.hmap.toNat),
       (0x301, x.l2pbase), (0x303, SMap.get x.win 0 0), (0x304, SMap.get x.win 1 0), (0x305, SMap.get x.win 2 0),
       (0x306, SMap.get x.win 3 0), (0x307, x.rect)]
    (¬NoCsr i.val → (SlotCsr i.val → s.is = 15) → ∃ (v : Nat) (t : State),
      exec (.csrr d i) s = guardedNext s t.retire ∧ { t with cores := [] } = { s with cores := [] } ∧ (∀ r, r ≠ d → t.gpr r = s.gpr r) ∧
      (d ≠ 0 → d.toNat < 32 → t.gpr d = BitVec.ofNat 64 v) ∧ (i.val ≠ 0x20A → i.val ≠ 0x211 → t = s.putGpr d (BitVec.ofNat 64 v))) ∧
    (NoCsr i.val → stops (.csrr d i) causeIllField) ∧
    (s.is ≠ 15 → SlotCsr i.val → stops (.csrr d i) causePriv) ∧
    (∀ p ∈ slotWords s c s.is, i.val = p.1 → reads p.2) ∧
    (∀ m p, m < 16 → s.is = 15 → p ∈ slotWords s c m → i.val = 0x100 + 16 * m + p.1 → reads p.2) ∧
    (∀ p ∈ plain, i.val = p.1 → reads p.2) ∧
    (∀ j, j < 16 → i.val = 0x220 + j → reads (SMap.get k.evcSeen j 0)) ∧
    ((0x214 ≤ i.val ∧ i.val < 0x220) ∨ (0x230 ≤ i.val ∧ i.val < 0x240) → reads 0) ∧
    (i.val = 0x207 → ∃ v, reads v ∧ v < 2 ^ 16 ∧ ∀ m, m < 16 → (v.testBit m = true ↔ InRotation s c m)) ∧
    (i.val = 0x20A → exec (.csrr d i) s =
      guardedNext s ((s.putGpr d (BitVec.ofNat 64 k.shwloss)).onCore c fun k => { k with shwloss := 0 }).retire) ∧
    (i.val = 0x211 → exec (.csrr d i) s = guardedNext s
      ((s.putGpr d (BitVec.ofNat 64 (k.arbw * 2 ^ 32 + k.tldw))).onCore c fun k => { k with arbw := 0, tldw := 0 }).retire) ∧
    exec (.cntrd d n) s = guardedNext s (put s d (BitVec.ofNat 64 (SMap.get k.evcSeen n.toNat 0))) ∧
    (s.is ≠ 15 → stops (.cntclr a) causePriv) ∧
    (s.is = 15 → exec (.cntclr a) s = guardedNext s
      (s.onCore c fun k => { k with evcs := k.evcs ++ [⟨s.cycle + 15, 15, [], (s.gpr a).toNat % 2 ^ 16⟩] }).retire) ∧
    (∀ q m w, k.evcs = [⟨q, m, [], w⟩] → q ≤ s.cycle → w < 2 ^ 16 → ∃ u : State, s.commitEvcs c = u ∧
      { u with cores := [] } = { s with cores := [] } ∧ { u.core c with evc := [], evcs := [] } = { k with evc := [], evcs := [] } ∧
      ∀ j, SMap.get (u.core c).evc j 0 = if w.testBit j then 0 else SMap.get k.evc j 0) ∧
    (∀ q m j v, k.evcs = [⟨q, m, [(j, v)], 0⟩] → q ≤ s.cycle → ∃ u : State, s.commitEvcs c = u ∧ (u.core c).evcs = [] ∧
      SMap.get (u.core c).evc j 0 = min (SMap.get k.evc j 0 + v) (2 ^ 64 - 1) ∧
      ∀ j', j' ≠ j → SMap.get (u.core c).evc j' 0 = SMap.get k.evc j' 0) ∧
    ((∀ w ∈ k.evcs, s.cycle < w.clock) → s.commitEvcs c = s)

/-- The instructions that write control registers (R373). -/
abbrev Sys2Proof.Spec.csrWriters (a : Gpr) (i : Imm) : List Instr :=
  [.csrw a i, .csrwCtxbase a i, .csrwLogsize a i, .csrwMirsize a i, .csrwUrglim a i, .csrwSeed a i, .csrwWinbase a i,
   .csrwRectdef a i]
/-- Registers that only the supervisor writes (R135, R136, R138, R141). -/
abbrev Sys2Proof.Spec.SupCsr (n : Nat) : Prop :=
  n ∈ [5, 7, 8, 10, 11, 0x209, 0x20F, 0x210] ∨ SlotCsr n ∨ (0x220 ≤ n ∧ n < 0x230) ∨ (0x303 ≤ n ∧ n < 0x308)

/-- R116, R127, R135 and R373. Every `CSRW` of a number that names a register completes, in the supervisor's slot for every
register and in any slot for those that the supervisor does not own: the value waits for the instruction's commit clock, and
nothing else changes. A number of no register is `ILL_FIELD`, and a register of the supervisor's `PRIV` for slots 0–14,
whatever the guard. -/
def Sys2Proof.Spec.ControlRegisterWrites : Prop :=
  ∀ (s : State) (a : Gpr) (i : Imm), ∀ e ∈ csrWriters a i,
    (NoCsr i.val → exec e s = .next (s.trap causeIllField s.issue.start s.baseValue)) ∧
    (s.is ≠ 15 → SupCsr i.val → exec e s = .next (s.trap causePriv s.issue.start s.baseValue)) ∧
    (¬NoCsr i.val → (SupCsr i.val → s.is = 15) → exec e s = guardedNext s
      (s.onCore s.ic fun k => { k with csrs := k.csrs ++ [⟨s.cycle + 15, s.is, i.val, s.gpr a⟩] }).retire)

/-- R90, R127, R136–R138 and R141. At its commit clock a written control register takes the value its row describes: the
single-step bit of a slot but 15, the cause registers, the seed with zero replaced, the image address of a slot that is free,
the core's sizes and limits, a counter, a window or rectangle of the die. A write to a read-only register and an inadmissible
value are ignored, and a write whose clock has not come still waits. The model's choice: the supervisor may write every slot's
`SEED` (log entry 34). -/
def Sys2Proof.Spec.ControlRegisterCommits : Prop :=
  ∀ (s : State) (c : Nat) (w : CsrWrite) (rest : List CsrWrite),
    (s.core c).csrs = w :: rest → w.clock ≤ s.cycle → (∀ x ∈ rest, s.cycle < x.clock) →
    let s1 := s.onCore c fun k => { k with csrs := rest }
    let k := s.core c
    let v := w.value.toNat
    let becomes (t : State) : Prop := s.commitCsrs c = t
    let slotOf (r m : Nat) : Prop := (w.num = r ∧ m = w.slot) ∨ (m < 16 ∧ w.num = 0x100 + 16 * m + r)
    (∀ m,
      (∀ r ∈ [0, 1, 2, 3, 4, 9], slotOf r m → becomes s1) ∧
      (slotOf 5 m → becomes (if m = 15 then s1 else s1.onSlot c m fun t => { t with step := v.testBit 6 })) ∧
      (slotOf 6 m → becomes (s1.onSlot c m fun t =>
        { t with seed := if w.value = 0 then 0x9E3779B97F4A7C15 else w.value })) ∧
      (slotOf 7 m → becomes (s1.onSlot c m fun t => { t with tcause := v % 256 })) ∧
      (slotOf 8 m → becomes (s1.onSlot c m fun t => { t with taddr := v })) ∧
      (slotOf 10 m → becomes (s1.onSlot c m fun t => { t with tvalue := v })) ∧
      (slotOf 11 m →
        let base := v / 2 ^ 12 % 2 ^ 19 * 2 ^ 12
        let t := s.slot c m
        let may : Prop := (t.run = .empty ∨ t.run = .swapped) ∧ base + 0xA000 ≤ 2 ^ 31
        (may → base ≠ t.ctxbase → ∃ u : State, becomes u ∧ u.slot c m = { t with ctxbase := base, based := true, away := true } ∧
          (∀ n, n ≠ m → u.slot c n = s.slot c n) ∧ (t.away = true ∨ t.based = false → u.mem = s.mem)) ∧
        (¬may ∨ base = t.ctxbase → becomes s1))) ∧
    (∀ j, j < 16 → w.num = 0x220 + j → becomes (s1.onCore c fun k => { k with evc := SMap.set k.evc j v })) ∧
    (w.num = 0x209 → becomes (s1.onCore c fun k => { k with urglim := max 1 (v % 2 ^ 32) })) ∧
    (w.num = 0x20F →
      let ok : Prop := k.log.tail = k.log.recl ∧ 1 ≤ v % 512 ∧ v % 512 ≤ 256
      (ok → becomes (s1.onLog c fun l => { l with size := v % 512 })) ∧ (¬ok → becomes (s1.onLog c id))) ∧
    (w.num = 0x210 → ∃ u : State, becomes u ∧ (u.core c).mirsize = min (v % 128) 64 ∧ (u.core c).mirror = []) ∧
    (∀ j, j < 4 → w.num = 0x303 + j →
      let len := v / 2 ^ 6 % 2 ^ 6
      let ok : Prop := v / 2 ^ 12 % 2 ^ 28 * 2 ^ 12 % 2 ^ len = 0 ∧ (v % 2 = 1 → 12 ≤ len ∧ len ≤ 40)
      (ok → becomes (s1.onDie (posDie c) fun d => { d with win := SMap.set d.win j (v / 64 * 64 + v % 2) })) ∧
      (¬ok → becomes (s1.onDie (posDie c) id))) ∧
    (w.num = 0x307 →
      let ok : Prop := v % 8 ≤ 3 ∧ v / 8 % 8 ≤ 3
      (ok → becomes (s1.onDie (posDie c) fun d => { d with rect := v % 64 })) ∧ (¬ok → becomes (s1.onDie (posDie c) id))) ∧
    (0x200 ≤ w.num → w.num < 0x308 → ¬SupCsr w.num → becomes s1)

/-- R374, R376, R377 and R378. `URG` asks the core it names and parks for its answer; a name of no live core answers 0 at
once. `REGEVICT` writes the strand of a slot to its image, keeps it Swapped and drops its translations; `REGLOAD` brings a
strand back from its image once the image's control line is present, in the state that the image gives. Both are the
supervisor's alone, and answer a code. A vector instruction in the latch completes first. The model's choices: `URG` moves the
counter when its wait ends (log entry 50), and a strand whose image says Parked, for which no wait was kept, issues its
instruction again when the reason comes about (log entry 62). -/
def Obligations.ContextSwitch : Prop :=
  ∀ (s : State) (e : BitVec 4) (p : Pr) (d a b : Gpr),
    let c := s.ic
    let k := s.core c
    let n := (s.gpr a).toNat
    let t := s.slot c n
    let img := vaultLoc c t.ctxbase
    let word (u : State) (off : Nat) : Nat := u.readMem (img + off) 8
    let priv (e : Instr) : Prop := exec e s = .next (s.trap causePriv s.issue.start s.baseValue)
    (s.nameTarget n = none → exec (.urg e p a b) s = guardedNext s (s.putPred p 0).retire) ∧
    (n = 2 ^ 64 - 1 → s.nameTarget n = some c) ∧
    (∀ to_, s.nameTarget n = some to_ → Asks (.urg e p a b) s .remote (.pred p) to_ urgentClass 2 fun ref =>
      .urg c ref e.toNat (s.gpr b) (s.logicalOf c + s.pkg * 2 ^ 10 + s.is * 2 ^ 16 + if s.me.world then 2 ^ 20 else 0)) ∧
    (s.is ≠ 15 → priv (.regevict d a) ∧ priv (.regload d a)) ∧
    (s.is = 15 →
      (12 < n → exec (.regevict d a) s = guardedNext s (put s d 3) ∧ exec (.regload d a) s = guardedNext s (put s d 3)) ∧
      (n ≤ 12 → t.lead = true ∨ t.trail = true → exec (.regevict d a) s = guardedNext s (put s d 2)) ∧
      (n ≤ 12 → t.lead = false → t.trail = false → t.run ∈ [Run.empty, .swapped, .halted, .contained] ∨
        (∃ q, (q, n) ∈ k.trap.pend) → exec (.regevict d a) s = guardedNext s (put s d 1)) ∧
      (n ≤ 12 → t.lead = false → t.trail = false → t.run ∈ [Run.running, .parked, .paused, .trapped] →
        (∀ q, (q, n) ∉ k.trap.pend) → Memory.wf s.mem = true → ∃ u : State,
        exec (.regevict d a) s = guardedNext s (put u d 0) ∧ (u.slot c n).run = .swapped ∧
        (u.slot c n).ctxbase = t.ctxbase ∧ (u.core c).trap.handled ≠ some n ∧
        (u.core c).tlb = k.tlb.filter (fun x => x.slot != n) ∧ word u 0x8300 = t.pc % 2 ^ 64 ∧
        (∀ r : Gpr, r.toNat < 32 → word u (0x8000 + 8 * r.toNat) = (s.gprAt c n r).toNat) ∧
        (∀ r : Vr, r.toNat < 32 → u.readMem (img + 0x400 * r.toNat) 1024 = (s.vecAt c n r).toNat) ∧
        (∀ x, x < img ∨ img + 0x8400 ≤ x → u.readByte x = s.readByte x) ∧
        ((∀ w ∈ k.csrs, w.slot ≠ n) → (∀ x ∈ k.latch, x.2.1 ≠ n) → word u 0x8330 = t.status n % 2 ^ 64 ∧
          (u.core c).swapped = k.swapped ++
            [(n, { t with run := .swapped, back := t.run, idle := 0, away := true, before := none })]) ∧
        ∀ q ws, k.latch.find? (fun x => x.2.1 == n) = some (q, n, ws) → (∀ x ∈ (u.core c).latch, x.2.1 ≠ n) ∧
          ∀ p ∈ (u.core c).swapped, p.1 = n → p ∉ k.swapped → p.2.vready = 0) ∧
      (n ≤ 12 → k.rc.any (fun x => x.addr == t.ctxbase + 0x8300) = true →
        (t.run ≠ .empty → t.run ≠ .swapped → exec (.regload d a) s = guardedNext s (put s d 1)) ∧
        (t.run = .empty ∨ t.run = .swapped → word s 0x8308 ≠ n ∨ 3 < word s 0x8330 / 2 ^ 8 % 2 ^ 3 →
          exec (.regload d a) s = guardedNext s (put s d 2)) ∧
        (t.run = .empty ∨ t.run = .swapped → word s 0x8308 = n → word s 0x8330 / 2 ^ 8 % 2 ^ 3 = 0 →
          k.swapped = [] → InboxStill s → ∃ u : State, exec (.regload d a) s = guardedNext s (put u d 0) ∧
          (u.slot c n).run = (if k.trap.urging && !k.trap.limited && k.trap.urgStart.isSome then .paused else .running) ∧
          (u.slot c n).pc = word s 0x8300 ∧ u.mem = s.mem ∧
          ∀ r : Gpr, r ≠ 0 → r.toNat < 32 → u.gprAt c n r = BitVec.ofNat 64 (word s (0x8000 + 8 * r.toNat))) ∧
        (t.run = .empty ∨ t.run = .swapped → word s 0x8308 = n → word s 0x8330 / 2 ^ 8 % 2 ^ 3 = 1 →
          k.swapped = [] → InboxStill s → ∃ u : State, exec (.regload d a) s = guardedNext s (put u d 0) ∧
          (u.slot c n).run = .parked ∧ (u.slot c n).pc = word s 0x8300 ∧ u.mem = s.mem)) ∧
      (n ≤ 12 → k.rc.any (fun x => x.addr == t.ctxbase + 0x8300) = false → s.guardOk = true →
        ∃ u : State, exec (.regload d a) s = .next u ∧ u.me.run = .parked ∧ u.me.why = .line ∧ u.mem = s.mem))

/-- Reads and writes of the control registers. The clauses that rest on log entries 24, 25 and 34 state the model's choices. -/
def Obligations.ControlRegisters : Prop :=
  Spec.ControlRegisterReads ∧ Spec.ControlRegisterWrites ∧ Spec.ControlRegisterCommits


/-! Events (R425): the vault controller, the tables, the store log and the homes. -/

/-- R189–R195, R209, R133, R134, R19 and R268. The vault controller: an arrived request opens its row; a beat is counted, and the
last one ends its request; refresh, repair and stalls hold banks or the bus, and a bank that is free again opens the row it
was opening; a lane's failure takes a spare, then falls to half the width when the stall ends, then contains the core. The
write queue's head becomes a request, a filled register line lets its slot issue again or waits for a way, the vector unit
takes the oldest latched instruction every second clock, and an idle period ends. The model's choices: the bus falls to half its
width when the stall ends (log entry 74), and an event of the core that comes while another waits is dropped (log entry 89). -/
def Obligations.VaultEvents : Prop :=
  ∀ (s : State) (c b : Nat) (r : VReq),
    let k := s.core c
    let v := k.vault
    let at_ (l : List Nat) : State := { s with evt := l }
    let vault (u : State) : Vault := (u.core c).vault
    let plain := r.beats ≠ 0 ∧ r.cont ≠ .open ∧ r.cont ≠ .close ∧ ∀ n, r.cont ≠ .tile n
    let bank := r.addr / 2 ^ 13 % 32
    let row := r.addr / 2 ^ 18
    let opened (x : VReq) : Prop :=
      (v.rows.find? (fun p => p.1 == bank) = none → x.ready = max s.cycle (SMap.get v.pre bank 0) + 20) ∧
      (∀ o, v.rows.find? (fun p => p.1 == bank) = some (bank, row, o) → x.ready = max (s.cycle + 12) o) ∧
      (∀ q o, v.rows.find? (fun p => p.1 == bank) = some (bank, q, o) → q ≠ row → x.ready = s.cycle + 40)
    let opens (e : Instr) (l : List Nat) : Prop := ∃ u : State, exec e (at_ l) = .next u ∧ u.mem = s.mem ∧
      ∃ x, (vault u).reqs = [x] ∧ opened x ∧ { x with ready := 0 } = { r with arrived := true }
    (plain → v.reqs = [r] → r.ready = 0 → v.bankBusy bank s.cycle = false → r.arrived = true →
      opens .vaultBusStallEnd [c] ∧ (v.busStall ≤ s.cycle → v.falling = false → opens .laneRepairEnd [c])) ∧
    (s.cycle < v.busStall → exec .laneRepairEnd (at_ [c]) = .next (at_ [c])) ∧
    (v.busStall ≤ s.cycle → v.falling = true → v.reqs = [] → ∃ u : State, exec .laneRepairEnd (at_ [c]) = .next u ∧
      (vault u).half = true ∧ (vault u).falling = false ∧ u.mem = s.mem ∧
      ((∀ q, (q, 15) ∉ k.trap.pend) → (u.core c).trap.events = [(causeVaultEvent, 0, 2)] ∧ (s.cycle, 15) ∈ (u.core c).trap.pend) ∧
      (∀ q, (q, 15) ∈ k.trap.pend → (u.core c).trap = k.trap)) ∧
    (plain → v.reqs = [r] → r.ready = 0 → v.bankBusy bank s.cycle = false → opens .vaultRequestArrival [c, r.id]) ∧
    (plain → v.reqs = [r] → s.nextBeat c = some r → s.badGranules = [] →
      let needs := if v.half then 2 * r.beats else r.beats
      (r.done + 1 < needs → ∃ u : State, exec .vaultBeat (at_ [c]) = .next u ∧ u.mem = s.mem ∧ (vault u).lastBeat = s.cycle ∧
        (vault u).reqs = [{ r with done := r.done + 1, started := true }]) ∧
      (∀ line, r.done + 1 = needs → r.cont = .write line → v.late = [] → k.homeWaiters = [] →
        ∃ u : State, exec .vaultBeat (at_ [c]) = .next u ∧ u.mem = s.mem ∧ (vault u).lastBeat = s.cycle ∧ (vault u).reqs = [] ∧
          (vault u).wq = delFirst (fun e => e.line == line && e.sent) v.wq)) ∧
    (s.nextBeat c = none → exec .vaultBeat (at_ [c]) = .next (at_ [c])) ∧
    (∀ e ∈ [Instr.rowRepairEnd, .refreshEnd], v.reqs = [] →
      (s.cycle < SMap.get v.busy b 0 → exec e (at_ [c, b]) = .next (at_ [c, b])) ∧
      (SMap.get v.busy b 0 ≤ s.cycle → v.busStall ≤ s.cycle → ∃ u : State, exec e (at_ [c, b]) = .next u ∧
        SMap.get (vault u).busy b 0 = 0 ∧ u.mem = s.mem ∧ ∀ q, v.reopen.find? (fun p => p.1 == b) = some (b, q) →
          (vault u).rows.find? (fun p => p.1 == b) = some (b, q, s.cycle + 20)) ∧
      (SMap.get v.busy b 0 ≤ s.cycle → s.cycle < v.busStall → ∃ u : State, exec e (at_ [c, b]) = .next u ∧
        SMap.get (vault u).busy b 0 = v.busStall ∧ ⟨v.busStall, e, [c, b]⟩ ∈ u.pending)) ∧
    (let every := s.refcfgOf c % 2 ^ 16
      let len := s.refcfgOf c / 2 ^ 16 % 2 ^ 8
      (every ≠ 0 → s.cycle % every = b * every / 32 → ∃ u : State, exec .refreshStart (at_ [c, b]) = .next u ∧ u.mem = s.mem ∧
        SMap.get (vault u).busy b 0 = max (SMap.get v.busy b 0) (s.cycle + len) ∧ (∀ p ∈ (vault u).rows, p.1 ≠ b) ∧
        ⟨s.cycle + len, .refreshEnd, [c, b]⟩ ∈ u.pending) ∧
      (every = 0 ∨ s.cycle % every ≠ b * every / 32 → exec .refreshStart (at_ [c, b]) = .next (at_ [c, b]))) ∧
    (v.half = true → v.spareLanes = 0 → exec .laneFailure (at_ [c]) = .next ((at_ [c]).now .containment [c])) ∧
    (v.half = false ∨ v.spareLanes ≠ 0 → ∃ u : State, exec .laneFailure (at_ [c]) = .next u ∧
      (vault u).busStall = max v.busStall (s.cycle + 2800) ∧ (vault u).spareLanes = v.spareLanes - 1 ∧
      (vault u).half = v.half ∧ (vault u).falling = (v.falling || v.spareLanes == 0) ∧ u.mem = s.mem ∧
      ⟨s.cycle + 2800, .laneRepairEnd, [c]⟩ ∈ u.pending) ∧
    (∀ e, v.wq.find? (fun x => !x.sent) = some e → ∃ u : State, exec .writeQueueSend (at_ [c]) = .next u ∧ u.mem = s.mem ∧
      (vault u).wq = updFirst (fun x => !x.sent) (fun x => { x with sent := true }) v.wq) ∧
    (∀ n a w, n < 16 → (s.slot c n).run = .parked → (s.slot c n).why = .line → (s.slot c n).wait = some w → w.fin = .again →
      w.left = 1 → w.err = none → w.reads = [] → w.ticket = 0 → k.trap.urging = false →
      let set := k.rc.filter fun x => x.addr / 2 ^ 8 % 2 ^ 7 == a / 2 ^ 8 % 2 ^ 7
      (set.length < 11 ∨ (∃ x ∈ k.rc, x.addr = a) → ∃ u : State, exec .registerLineFill (at_ [c, n, a]) = .next u ∧
        (u.slot c n).run = .running ∧ (u.core c).rc.any (fun x => x.addr == a) = true ∧ u.mem = s.mem) ∧
      (11 ≤ set.length → (∀ x ∈ k.rc, x.addr ≠ a) → s.rcVictim c a w.needs = none →
        exec .registerLineFill (at_ [c, n, a]) = .next ((at_ [c, n, a]).after 1 .registerLineFill [c, n, a]))) ∧
    (∀ q n ws rest, k.latch = (q, n, ws) :: rest → k.vfree ≤ s.cycle →
      ∃ u : State, exec .vectorStart (at_ [c]) = .next u ∧ (u.core c).latch = rest ∧ (u.core c).vfree = s.cycle + 2 ∧
        ((s.slot c n).vready = 2 ^ 70 → (u.slot c n).vready = s.cycle + 2) ∧
        (∀ w, k.evcs = [w] → w.slot = n → w.clock = 2 ^ 70 → (u.core c).evcs = [{ w with clock := s.cycle + 1 }]) ∧
        (u.core c).shared = k.shared ++ ws.map fun w => { w with clock := s.cycle + 1 }) ∧
    (∀ n, ∃ u : State, exec .yieldEnd (at_ [c, n]) = .next u ∧
      u.slot c n = { s.slot c n with idle := if (s.slot c n).idle ≤ s.cycle then 0 else (s.slot c n).idle })

/-- R312, R314, R315, R316 and R317. A miss takes a walker, waits, or comes again 64 clocks later; a walker asks the home of each
line that the die's cache misses with an urgent request, and ends 24 clocks after it misses none; the result goes to the
waiting instruction, and a translation that enters a full TLB takes the place of the least recently used. A shootdown drops what
the die holds of a table line and acknowledges; the last acknowledgement settles a write and answers its strand; with a
migration's last marker and the whole page the old home sends the drained packet, after which the new home serves what it held
and then clears the migration. The model's choices are those of log entries 79 and 84. -/
def Obligations.TranslationEvents : Prop :=
  ∀ (s : State) (c n obj page : Nat) (p : Packet),
    let die := posDie c
    let d := s.die die
    let at_ (l : List Nat) : State := { s with evt := l }
    let goes (w : Walk) (u : State) : Prop :=
      (s.walkMiss w = none → ⟨s.cycle + 24, .walkComplete, [w.core, w.id]⟩ ∈ u.pending) ∧
      (∀ l, s.walkMiss w = some l → Leaves u w.core (s.tableHome (l * 64)) urgentClass 1
        (.fetch ⟨w.core, w.id, 0, 0, 1, (s.objEntry 1).gen, true,
          [⟨0, l * 64, s.tableLoc (l * 64) % 2 ^ 31, 64, s.tableHome (l * 64)⟩]⟩))
    (∀ e ∈ [Instr.walkStart, .walkRetry],
      (d.walkers < 96 → let w : Walk := ⟨walkCmd + s.pktNum, c, n, obj, page, true⟩
        ∃ u : State, exec e (at_ [c, n, obj, page]) = .next u ∧ (u.die die).walkers = d.walkers + 1 ∧
          (u.die die).walks = d.walks ++ [w] ∧ u.mem = s.mem ∧ goes w u) ∧
      (96 ≤ d.walkers → d.walkQ.length < 256 → ∃ u : State, exec e (at_ [c, n, obj, page]) = .next u ∧
        (u.die die).walkQ = d.walkQ ++ [(c, n, obj, page)]) ∧
      (96 ≤ d.walkers → 256 ≤ d.walkQ.length → exec e (at_ [c, n, obj, page]) =
        .next ((at_ [c, n, obj, page]).after 64 .walkRetry [c, n, obj, page]))) ∧
    (∀ w : Walk, d.walks.find? (fun x => x.id == w.id) = some w → w.core = c →
      (∀ l, s.walkMiss w = some l → ∃ u : State, exec .walkComplete (at_ [c, w.id, 1]) = .next u ∧ u.mem = s.mem ∧
        (u.die die).walkers = d.walkers ∧ ∃ q, (l, q) ∈ (u.die die).cache) ∧
      (∀ x, d.walkQ = [] → (s.slot c (w.slot % 16)).run = .parked → (s.slot c (w.slot % 16)).why = .walk →
        (s.slot c (w.slot % 16)).wait = some x → x.ticket = w.slot / 16 → x.fin = .again → x.left = 1 → x.err = none →
        x.reads = [] → (s.core c).trap.urging = false →
        ∃ u : State, exec .walkComplete (at_ [c, w.id]) = .next u ∧ (u.slot c (w.slot % 16)).run = .running ∧
          (u.slot c (w.slot % 16)).walked = (s.slot c (w.slot % 16)).walked ++ [s.walkResult w.slot w.obj w.page] ∧
          (u.core c).tlb = (s.core c).tlb ∧ (u.die die).walkers = d.walkers - 1 ∧ u.mem = s.mem)) ∧
    (∀ (k : Core) (t : Tlb), t ∈ (k.tlbInstall t).tlb ∧ (k.tlb.length ≤ 64 → (k.tlbInstall t).tlb.length ≤ 64) ∧
      ∀ x ∈ k.tlb, ¬(x.slot = t.slot ∧ x.obj = t.obj ∧ x.page = t.page) → x ∉ (k.tlbInstall t).tlb →
        64 ≤ k.tlb.length ∧ ∀ y ∈ (k.tlbInstall t).tlb, y ≠ t → x.used ≤ y.used) ∧
    (∀ id line k, s.packet? p.id = some p → p.body = .shootdown id line k → p.src < 864 →
      ∃ u : State, exec .shootdown (at_ [p.id]) = .next u ∧ (∀ q ∈ (u.die k).cache, q.1 ≠ line) ∧
        (∀ m, posDie m = k → (u.core m).tlb = (s.core m).tlb.filter fun t => t.obj != line && t.pageLine != line) ∧
        (∀ m n, posDie m = k → ∀ t ∈ (u.slot m n).walked, t.obj = line ∨ t.pageLine = line → t.stale = true) ∧
        (∀ m, posDie m ≠ k → (u.core m).tlb = (s.core m).tlb) ∧ u.mem = s.mem ∧
        Leaves u (36 * k) p.src control 1 (.shootAck id k)) ∧
    (∀ id k w, s.packet? p.id = some p → p.body = .shootAck id k → s.writes.find? (fun x => x.id == id) = some w →
      w.posted = none → w.group = none → w.migs = [] →
      ∃ u : State, exec .tableWriteSettled (at_ [p.id]) = .next u ∧ u.mem = s.mem ∧
        (1 < w.acks → u.writes = updFirst (fun x => x.id == id) (fun x => { x with acks := x.acks - 1 }) s.writes) ∧
        (w.acks ≤ 1 → (∀ x ∈ u.writes, x.id ≠ id) ∧ ∀ q ref x, w.waiter = some (q, ref, x) →
          Leaves u (s.tableHome (w.line * 64)) q urgentClass 2 (.reply q ref x 0 none))) ∧
    (∀ id e m, s.packet? p.id = some p → p.body = .marker id e → s.migs.find? (fun x => x.id == id) = some m →
      ∃ u : State, exec .fenceMarker (at_ [p.id]) = .next u ∧ u.mem = s.mem ∧
        u.migs = updFirst (fun x => x.id == id) (fun x => { x with markers := x.markers - 1 }) s.migs ∧
        (m.markers = 1 → m.settled = true → m.sent = 2048 → m.back = [] → Leaves u m.old m.new bulk 1 (.drained id))) ∧
    (∀ id m, s.packet? p.id = some p → p.body = .drained id → s.migs.find? (fun x => x.id == id) = some m →
      ∃ u : State, exec .drainedPacket (at_ [p.id]) = .next u ∧ u.mem = s.mem ∧
        (m.open_ = false → (u.core m.new).agentQ = (m.held ++ p.id :: (s.core m.new).agentQ).take 64 ∧
          u.migs = updFirst (fun x => x.id == id) (fun x => { x with open_ := true, held := [] }) s.migs) ∧
        (m.open_ = true → (∀ x ∈ s.migs, x.id ≠ id → x.entry ≠ m.entry) → u.migs = s.migs.filter (fun x => x.id != id) ∧
          ∃ r dst cls fl, Leaves u m.new dst cls fl (.req r) ∧ r.obj = 1 ∧ r.off = m.entry ∧
            r.op = .word (.amo .and .i64 (BitVec.ofNat 64 (2 ^ 64 - 1 - (2 ^ 50 - 2 ^ 34) - 2)))))

/-- A vault byte that no register image and no bank image shows (R129, R130). -/
abbrev Sys2Proof.Spec.PlainByte (s : State) (c a : Nat) : Prop :=
  s.imageOf c a = none ∧ s.bankOf c a = none ∧ s.memoryBits c a = 0xFF
/-- R58, R62, R63, R64, R189, R202, R217 and R223. Shipping asks the vault for the next entry's bytes in the ring, and when they
have come sends it to the home of its byte; the home writes the bytes the entry names, and no others, and acknowledges, and
poisons them where the entry's ring bytes are poisoned or its check fails in the ring; an entry whose check fails on its way, and
those that follow it in its log, go back and are shipped again; it waits for room in its write queue. The acknowledgement compacts
the log and discards the mirror line. An acquire's query is answered when the writer's
published position is compacted; an answer moves the cursor, and the last one ends the acquire with whether a writer was
contained. The model's choices: where an entry goes whose page has no home any more (log entry 55), and the order in which writers
enter a full queue (log entry 73). -/
def Obligations.LogEvents : Prop :=
  ∀ (s : State) (c : Nat) (p : Packet),
    let at_ (l : List Nat) : State := { s with evt := l }
    let carries (b : Body) : Prop := s.packet? p.id = some p ∧ p.body = b
    let l := (s.core c).log
    let room (h : Nat) : Prop := (s.core h).vault.late = [] ∧ (s.core h).vault.wq.length < 64
    let sound (r : Req) (e : LogEnt) : Prop := carries (.req r) ∧ r.op = .entry e ∧ (s.core p.dst).contained = false ∧
      s.migs = [] ∧ (s.objEntry r.obj).gen = r.gen
    let inOrder (r : Req) (e : LogEnt) : Prop := ∀ g ∈ (s.core p.dst).gaps, g.1 = r.core → e.pos ≤ g.2
    (∀ e, (s.core c).nextShip = some e → ∃ u : State, exec .logShip (at_ [c]) = .next u ∧ u.mem = s.mem ∧
      (u.core c).log.ents = l.ents.map (fun x => if x.pos == e.pos then { x with asked := true } else x) ∧
      (∃ r ∈ (u.core c).vault.reqs, r.addr = 0x6FC00000 + e.pos % (l.size * 2 ^ 20) ∧ r.cont = .ship e.pos) ∧
      ⟨s.cycle + 2, .vaultRequestArrival, [c, s.pktNum]⟩ ∈ u.pending) ∧
    ((s.core c).nextShip = none → exec .logShip (at_ [c]) = .next (at_ [c])) ∧
    (∀ e, l.ents = [e] → e.asked = true → e.shipped = false → (∀ r ∈ (s.core c).vault.reqs, r.cont ≠ .ship e.pos) →
      let h := s.siteNow e.obj e.gen e.off (e.home, e.addr)
      let went := { e with ready := true }
      ∃ u : State, exec .logShip (at_ [c, e.pos]) = .next u ∧ u.mem = s.mem ∧
        (u.core c).log.ents = [{ went with shipped := true }] ∧ ∃ hurt,
          (hurt = true ↔ ∃ i, i < 2 + 2 ^ e.size ∧ s.poisoned (vaultLoc c (l.ringAddr (e.pos + 8 * i))) 8 = true) ∧
          Leaves u c h.1 bulk (1 + (16 + 8 * 2 ^ e.size + 63) / 64)
            (.req ⟨.entry { went with bad := hurt }, c, 0, e.obj, e.gen, e.off, h.1, h.2, none, false, 0, none⟩)) ∧
    (∀ e r, carries (.req r) → r.op = .entry e → (s.core p.dst).contained = false → s.migs = [] → (s.core p.dst).vault.late ≠ [] →
      exec .logEntryApply (at_ [p.id]) = .next ((at_ [p.id]).after 1 .logEntryApply [p.id])) ∧
    (∀ e r, sound r e → inOrder r e → r.obj ≠ 1 → (s.core p.dst).homeWaiters = [] → s.badEntries = [] → e.bad = false →
      Memory.wf s.mem = true → room p.dst → (e.kind = 1 → e.size = 1) →
      let loc := vaultLoc p.dst r.addr
      let writes (i : Nat) : Prop := i < 8 * 2 ^ e.size ∧ (e.size = 0 → e.mask.testBit i)
      (∀ i, writes i → PlainByte s p.dst (r.addr + i)) →
      ∃ u : State, exec .logEntryApply (at_ [p.id]) = .next u ∧ Leaves u p.dst r.core control 1 (.logAck r.core e.pos p.dst false) ∧
        (∀ i, writes i → u.readByte (loc + i) = e.data.extractLsb' (8 * i) 8) ∧
        (∀ a, (∀ i, writes i → a ≠ loc + i) → u.readByte a = s.readByte a)) ∧
    (∀ e r, sound r e → inOrder r e → s.badEntries = [(r.core, e.pos, 1)] ∨ s.badEntries = [] ∧ e.bad = true → room p.dst →
      ∃ u : State, exec .logEntryApply (at_ [p.id]) = .next u ∧ u.mem = s.mem ∧ u.badEntries = [] ∧
        Leaves u p.dst r.core control 1 (.logAck r.core e.pos p.dst false) ∧
        ∀ g ∈ granules (vaultLoc p.dst r.addr) (8 * 2 ^ e.size), g ∈ u.poison) ∧
    (∀ e r, sound r e → room p.dst → ¬inOrder r e ∨ e.bad = false ∧ s.badEntries = [(r.core, e.pos, 0)] →
      ∃ u : State, exec .logEntryApply (at_ [p.id]) = .next u ∧ u.mem = s.mem ∧ (r.core, e.pos) ∈ (u.core p.dst).gaps ∧
        Leaves u p.dst r.core control 1 (.logAck r.core e.pos p.dst true)) ∧
    (∀ pos h, carries (.logAck c pos h true) → ∃ u : State, exec .logAck (at_ [p.id]) = .next u ∧ u.mem = s.mem ∧
      (u.core c).log.ents = l.ents.map fun x => if x.pos == pos then { x with shipped := false, asked := false, ready := false } else x) ∧
    (∀ pos h e, carries (.logAck c pos h false) → l.ents = [e] → e.pos = pos → e.shipped = true →
      ∃ u : State, exec .logAck (at_ [p.id]) = .next u ∧ (u.core c).log.comp = max l.comp l.tail ∧ u.mem = s.mem ∧
        ∀ m ∈ (u.core c).mirror, m ∈ (s.core c).mirror ∧ ¬(m.obj = e.obj ∧ m.line = e.off / 64)) ∧
    (∀ ref level w, carries (.acqQuery c ref level w) → (s.core w).acqPos = [] →
      let target := (s.core w).log.pub level
      ∃ u : State, exec .acqQuery (at_ [p.id]) = .next u ∧ u.mem = s.mem ∧
        (target ≤ (s.core w).log.comp → Leaves u w c urgentClass 1 (.acqAnswer c ref w target (s.core w).contained) ∧
          (u.core w).acqPos = []) ∧
        ((s.core w).log.comp < target → (u.core w).acqPos = [⟨c, ref, target, p.launch⟩] ∧ u.packets = (s.dropPacket p.id).packets)) ∧
    (∀ ref w target held scope acct d x, carries (.acqAnswer c ref w target held) → Memory.wf s.mem = true → target < 2 ^ 64 →
      room c → (∀ i, i < 8 → PlainByte s c (s.cursorAddr w + i)) → (s.core c).acqs = [⟨ref, scope, [w], false, acct⟩] → (s.slot c (ref % 16)).run = .parked →
      (s.slot c (ref % 16)).wait = some x → x.ticket = ref / 16 → x.left = 1 → x.fin = .pred d → x.err = none → x.reads = [] →
      (s.slot c (ref % 16)).kept = none →
      ∃ u : State, exec .acqWriterDone (at_ [p.id]) = .next u ∧ (u.core c).acqs = [] ∧
        u.readMem (s.cursorLoc c w) 8 = max (s.readMem (s.cursorLoc c w) 8) target ∧
        (d ≠ 0 → u.predAt c (ref % 16) d = if held then BitVec.allOnes 256 else 0) ∧ (u.slot c (ref % 16)).pc = x.next) ∧
    (∀ ref t sel, carries (.logQuery c ref t sel) → ∃ u : State, exec .logqQuery (at_ [p.id]) = .next u ∧ u.mem = s.mem ∧
      Leaves u t c urgentClass 2 (.reply c ref (BitVec.ofNat 64 ((s.core t).log.position sel)) 0 none))

/-- R63, R68, R69, R72, R73, R222, R258, R290, R291 and R313. The agent of a home takes the request at its queue's head; a
line read answers with a snapshot; a word operation is performed and answered, or waits at the home; a stale generation
ends a returning request in `CAP_TAG`; replies write the register that waits for them; a posted operation's performance
takes it off its strand. The model's choices: where an operation goes whose page has no home any more (log entry 55), the order in
which writers enter a full queue (log entry 73), and that a home's reply counts its offset and bytes (log entry 86). -/
def Obligations.HomeEvents : Prop :=
  ∀ (s : State) (p : Packet) (r : Req),
    let h := p.dst
    let at_ (l : List Nat) : State := { s with evt := l }
    let carries := s.packet? p.id = some p ∧ p.body = .req r
    let sound := (s.core h).contained = false ∧ (s.objEntry r.obj).gen = r.gen ∧ s.migs = []
    let loc := vaultLoc h r.addr
    let words := [Instr.homeAtomic, .homeFullEmpty, .homeSyncWord]
    (∀ rest, carries → p.sep = 0 → (s.core h).agentQ = p.id :: rest → (s.core h).agentBusy = false →
      (s.core h).contained = false → s.migs = [] → (s.core h).agentWait = [] → ∃ u : State, exec .vaultAgentRequest (at_ [h]) = .next u ∧
        (u.core h).agentQ = rest ∧ (u.core h).agentBusy = true ∧ u.mem = s.mem ∧
        (0 < r.op.reads → (∃ qs, (u.core h).vault.reqs = (s.core h).vault.reqs ++ qs ∧ (∀ q ∈ qs, q.cont = .agent p.id) ∧
          qs.length = (r.addr + r.op.reads - 1) / 8192 - r.addr / 8192 + 1) ∧
          (r.addr % 8192 + r.op.reads ≤ 8192 → ∃ q, (u.core h).vault.reqs = (s.core h).vault.reqs ++ [q] ∧ q.addr = r.addr ∧
            q.beats = (r.addr % 256 + r.op.reads + 255) / 256))) ∧
    (∀ v, carries → sound → r.op = .rcAdd v → s.poisoned loc 8 = false → s.opRoom h r = true →
      ∃ u : State, exec .vaultAgentRequest (at_ [h, p.id]) = .next u ∧
        Leaves u h r.core urgentClass 2 (.reply r.core r.slot (BitVec.ofNat 64 (r.off % 2 ^ 40 + 8 * 2 ^ 40))
          (BitVec.ofNat 8192 (cellsNat (s.vaultCells h r.addr 0 8))) none)) ∧
    (∀ n, carries → sound → r.op = .rcRead n → s.poisoned loc n = false →
      ∃ u : State, exec .vaultAgentRequest (at_ [h, p.id]) = .next u ∧ u.mem = s.mem ∧
        Leaves u h r.core (if n ≤ 256 then urgentClass else bulk) (flitsFor n) (.reply r.core r.slot
          (BitVec.ofNat 64 (r.off % 2 ^ 40 + n * 2 ^ 40)) (BitVec.ofNat 8192 (cellsNat (s.vaultCells h r.addr 0 n))) none)) ∧
    (carries → sound → r.op = .readLine → ∃ (u : State) (tags : BitVec 4) (poison : BitVec 4), exec .homeRead (at_ [p.id]) = .next u ∧ u.mem = s.mem ∧
      Leaves u h r.core urgentClass 2 (.lineReply r (BitVec.ofNat 512 (s.readMem loc 64)) tags poison)) ∧
    (carries → (s.core h).contained = false → (s.objEntry r.obj).gen ≠ r.gen → r.posted = none → s.migs = [] →
      (∀ e, r.op ≠ .entry e) → (∀ n v b g, r.op ≠ .entryPut n v b g) → s.opRoom h r = true →
      ∀ e ∈ Instr.homeRead :: words, ∃ u : State, exec e (at_ [p.id]) = .next u ∧ u.mem = s.mem ∧
        Leaves u h r.core urgentClass 1 (.reply r.core r.slot 0 0 (some (causeCapTag, r.off, 0)))) ∧
    (∀ op, carries → sound → r.op = .word op → r.posted = none → op.reads = true → s.poisoned loc op.bytes = true →
      s.opRoom h r = true → ∀ e ∈ words, ∃ u : State, exec e (at_ [p.id]) = .next u ∧ u.mem = s.mem ∧
        Leaves u h r.core urgentClass 1 (.reply r.core r.slot 0 0 (some (causePoison, r.off, 0)))) ∧
    (∀ op, carries → sound → r.op = .word op → r.posted = none → r.obj ≠ 1 → (op.reads = true → s.poisoned loc op.bytes = false) →
      (s.core h).homeWaiters = [] → ∀ e ∈ words,
      (s.opRoom h r = false → exec e (at_ [p.id]) = .next ((at_ [p.id]).after 1 r.op.event [p.id])) ∧
      (s.opRoom h r = true →
        (∀ t w q, s.wordStep (.vault h r.addr) op r.acct = some (t, w, q) → ∃ u : State, exec e (at_ [p.id]) = .next u ∧
          u.mem = t.mem ∧ u.full = t.full ∧ Leaves u h r.core urgentClass 2 (.reply r.core r.slot w 0 none)) ∧
        (s.wordStep (.vault h r.addr) op r.acct = none → ∃ u : State, exec e (at_ [p.id]) = .next u ∧ u.mem = s.mem ∧
          (u.core h).homeWaiters = [⟨loc, op, r.core, r.slot, r.acct⟩]))) ∧
    (s.packet? p.id = some p → p.body = .retry r →
      exec .homeWaitRetry (at_ [p.id, 0]) = .next ((at_ [p.id, 0]).after 256 .homeWaitRetry [p.id, 1]) ∧
      let d := s.siteNow r.obj r.gen r.off (r.home, r.addr)
      ∃ (u : State) (cls flits : Nat), exec .homeWaitRetry (at_ [p.id, 1]) = .next u ∧ u.mem = s.mem ∧
        Leaves u r.core d.1 cls flits (.req { r with home := d.1, addr := d.2 })) ∧
    (∀ data tags d n zx w off, s.packet? p.id = some p → p.body = .lineReply r data tags 0 →
      let m := r.slot % 16
      (s.slot r.core m).run = .parked → (s.slot r.core m).wait = some w → w.ticket = r.slot / 16 → w.left = 1 → w.fin = .load d n zx →
      w.bytes = [] → w.err = none → (∃ a q, w.reads = [⟨0, off, a, n, q⟩]) → off / 64 = r.off / 64 → off % 64 + n ≤ 64 →
      n ∈ [1, 2, 4, 8] → d ≠ 0 → d.toNat < 32 → (s.slot r.core m).kept = none → ∃ u : State, exec .homeReadReply (at_ [p.id]) = .next u ∧
        ((s.core r.core).mirsize = 0 → u.mem = s.mem) ∧
        let x := data.toNat / 256 ^ (off % 64) % 256 ^ n
        u.gprAt r.core m d = if zx then BitVec.ofNat 64 x else (BitVec.ofNat (8 * n) x).signExtend 64) ∧
    (∀ c ref x d w, s.packet? p.id = some p → p.body = .reply c ref x 0 none → (s.slot c (ref % 16)).run = .parked →
      (s.slot c (ref % 16)).wait = some w → w.ticket = ref / 16 → w.left = 1 → w.fin = .word d → w.err = none → w.reads = [] →
      d ≠ 0 → d.toNat < 32 → (s.slot c (ref % 16)).kept = none → (∀ y ∈ (s.core c).swapped, y.1 ≠ ref % 16) →
      ∃ u : State, exec .remoteReply (at_ [p.id]) = .next u ∧ u.gprAt c (ref % 16) d = x ∧
        (u.slot c (ref % 16)).pc = w.next ∧ u.mem = s.mem) ∧
    (∀ c n num refused, s.packet? p.id = some p → p.body = .performed c n num refused → (s.slot c n).held = [] →
      s.merges = [] → ∃ u : State, exec .postedPerformed (at_ [p.id]) = .next u ∧ u.mem = s.mem ∧
        (u.slot c n).posted = (s.slot c n).posted.filter (fun x => x.num != num) ∧
        SMap.get (u.core c).evc 10 0 =
          if refused then min (SMap.get (s.core c).evc 10 0 + 1) (2 ^ 64 - 1) else SMap.get (s.core c).evc 10 0) ∧
    (∀ c n num rest m, s.packet? p.id = some p → p.body = .performed c n num false → s.merges = [m] → m.gone = true →
      m.parts = (c, n, num) :: rest → (∀ k j, (s.slot k j).held = []) → ∃ u : State, exec .postedPerformed (at_ [p.id]) = .next u ∧
        u.merges = [] ∧ ∀ x ∈ m.parts, ∀ j, ∀ y ∈ (u.slot x.1 j).posted, y.num ≠ x.2.2) ∧
    (∀ id m, s.merges.find? (fun m => m.id == id && !m.gone) = some m → ∃ u : State, exec .switchMergeForward (at_ [id]) = .next u ∧
      u.mem = s.mem ∧ u.merges = updFirst (fun x => x.id == m.id) (fun x => { x with gone := true }) s.merges ∧
      ∃ q ∈ u.outbox, q.src = m.req.core ∧ q.dst = m.req.home ∧ q.cls = urgentClass ∧ q.flits = 2 ∧
        q.body = .req { m.req with window := true })


/-! Events: messages, launches and engines. -/

/-- No slot of a core waits for the inbox and no group of it holds parked entries. -/
abbrev Sys2Proof.Spec.StillAt (s : State) (c : Nat) : Prop :=
  (∀ n, (s.slot c n).run = .parked → (s.slot c n).why ≠ .inbox) ∧ ∀ p ∈ (s.core c).groups, p.2.parking = []

/-- R33, R252, R256, R259, R262 and R268. A message whose handle resolves to a Resident group with a free entry joins the inbox
and succeeds; a full inbox answers 3, a handle that does not resolve its code. A wake sets the strand's bit. The outcome
ends a waiting `SEND`, or a posted one, for which *not resident* raises a trap at the next boundary. Dispatch starts a
handler with the message in its registers. -/
def Sys2Proof.Spec.MessageEvents : Prop :=
  ∀ (s : State) (p : Packet) (m : Mail),
    let c := p.dst
    let k := s.core c
    let at_ : State := { s with evt := [p.id] }
    let carries (b : Body) : Prop := s.packet? p.id = some p ∧ p.body = b
    let entry (b : Nat) : Entry := s.mailEntry m b
    (∀ w, k.contained = true → s.resolve c m w = .code 2) ∧
    (∀ w, k.contained = false → m.handle.toNat / 2 ^ 62 % 4 = 3 → s.resolve c m w = .code 4) ∧
    (carries (.mail m) → StillAt s c →
      (∀ n, s.resolve c m false = .code n → n ≠ 0 → ∃ u : State, exec .messageArrival at_ = .next u ∧
        (u.core c).inbox = k.inbox ∧ Leaves u c m.core urgentClass 1 (.outcome m n false)) ∧
      (∀ b, s.resolve c m false = .here b → k.inbox.length + k.resv.length < 64 → ∃ u : State,
        exec .messageArrival at_ = .next u ∧ (u.core c).inbox = k.inbox ++ [entry b] ∧
        Leaves u c m.core control 1 (.outcome m 0 false)) ∧
      (∀ b, s.resolve c m false = .here b → 64 ≤ k.inbox.length + k.resv.length → ∃ u : State,
        exec .messageArrival at_ = .next u ∧ (u.core c).inbox = k.inbox ∧
        Leaves u c m.core urgentClass 1 (.outcome m 3 false))) ∧
    (∀ id status energy n, carries (.done id status energy c n) → StillAt s c →
      k.resv.any (fun r => r.what == forLaunch && r.num == id) = true → ∃ (u : State) (e : Entry),
        exec .messageArrival at_ = .next u ∧ (u.core c).inbox = k.inbox ++ [e] ∧ e.kind = 3 ∧ e.tag = BitVec.ofNat 64 id ∧
        e.taker = n ∧ e.stat = status ∧
        e.payload = BitVec.ofNat 384 ((min energy (2 ^ 48 - 1) * 2 ^ 16 + status) * 2 ^ 64 + id)) ∧
    (∀ b n g, carries (.wake m) → s.resolve c m true = .here b → s.group? c b = some g → n ∈ g.slots →
      (n, s.slot c n) ∈ k.slots → (k.slots.filter fun q => q.1 == n).length = 1 →
      (s.slot c n).bank = b → (s.slot c n).strand = m.handle.toNat / 2 ^ 32 % 2 ^ 4 → (s.slot c n).run = .running →
      ∃ u : State, exec .wakeArrival at_ = .next u ∧ (u.slot c n).wake = true ∧ (u.slot c n).idle = 0 ∧
        Leaves u c m.core control 1 (.outcome m 0 true)) ∧
    (∀ code w d g x, carries (.outcome m code w) → m.posted = none → (s.slot m.core (m.slot % 16)).run = .parked →
      (s.slot m.core (m.slot % 16)).wait = some x → x.ticket = m.slot / 16 → x.left = 1 → x.fin = .outcome d g →
      x.err = none → x.reads = [] → (s.slot m.core (m.slot % 16)).kept = none → code < 2 ^ 64 → ∃ u : State, exec .nakArrival at_ = .next u ∧ u.mem = s.mem ∧
        (d ≠ 0 → u.predAt m.core (m.slot % 16) d = if code = 0 then BitVec.allOnes 256 else 0) ∧
        (g ≠ 0 → g.toNat < 32 → u.gprAt m.core (m.slot % 16) g = BitVec.ofNat 64 code)) ∧
    (∀ code w num n x, carries (.outcome m code w) → m.posted = some num → n < 16 → (s.core m.core).slots = [(n, x)] →
      x.posted.any (fun y => y.num == num) = true → x.held = [] → ∃ u : State, exec .nakArrival at_ = .next u ∧ u.mem = s.mem ∧
        (u.slot m.core n).posted = x.posted.filter (fun y => y.num != num) ∧
        (u.slot m.core n).later = x.later ++
          if code = 1 then [⟨causeNotResident, m.start, m.handle.toNat, 0, false, 0, 0⟩] else []) ∧
    (∀ q e n g, s.dispatchable q = some (e, n) → e.fault = none → s.group? q e.taker = some g →
      StillAt s q → ∃ u : State, exec .handlerDispatch { s with evt := [q] } = .next u ∧
        (u.core q).inbox = delFirst (fun x => x == e) (s.core q).inbox ∧ (u.slot q n).run = .running ∧
        (u.slot q n).pc = e.tag.toNat ∧ (u.slot q n).code = g.launch.code ∧ (u.slot q n).bank = e.taker ∧
        u.gprAt q n 1 = e.bits.extractLsb' 64 64 ∧
        ∀ i, i < 6 → u.gprAt q n (BitVec.ofNat 6 (i + 2)) = e.payload.extractLsb' (64 * i) 64)

/-- R30, R31, R43, R265, R266, R267, R310, R358 and R389. The sequencer refuses a submission with the lowest code that applies
or gives it the next sequence of its queue; a counted launch is dealt to its dies, whose fourth packet makes its groups
Pending; a group starts with its slots, registers and allocation; the last die's report ends the launch; barriers release
when every strand has arrived; leases are debited and paid. The model's choices: a strand that starts in an urgent episode is
Paused at once (log entry 32), the worst status of the reports is the launch's (log entry 43), and a barrier is counted in one
place (log entry 6). -/
def Sys2Proof.Spec.LaunchEvents : Prop :=
  ∀ (s : State) (p : Packet) (q : Nat),
    let at_ (l : List Nat) : State := { s with evt := l }
    let carries (b : Body) : Prop := s.packet? p.id = some p ∧ p.body = b
    (∀ l c ref w bad, carries (.submit l c ref none w bad) →
      (∀ code, s.submitCode l w bad = some code → StillAt s c → ∃ u : State, exec .submissionArrival (at_ [p.id]) = .next u ∧
        (u.core c).resv = delFirst (fun r => r.what == forLaunch && r.num == ref) (s.core c).resv ∧
        Leaves u 0 c urgentClass 1 (.reply c ref (BitVec.ofNat 64 (2 ^ 63 + code)) 0 none)) ∧
      (s.submitCode l w bad = none → ∃ u : State, exec .submissionArrival (at_ [p.id]) = .next u ∧
        u.submissions = s.submissions ++ [(l.queue, p)] ∧ u.agenda = ⟨.launchAccept, [l.queue]⟩ :: s.agenda)) ∧
    (∀ l c ref w bad, p.body = .submit l c ref none w bad → s.queueRoom q = true →
      s.submissions.find? (fun x => x.1 == q) = some (q, p) →
      let seq := SMap.get s.nextSeq q 0
      let id := seq * 16 + q
      ∃ (u : State) (r : LRec), exec .launchAccept (at_ [q]) = .next u ∧ u.launch? id = some r ∧ r.stage = .queued ∧
        r.launch = { l with id, queue := q } ∧ r.core = c ∧ SMap.get u.nextSeq q 0 = seq + 1 ∧
        u.submissions = delFirst (fun x => x.1 == q) s.submissions ∧
        Leaves u 0 c urgentClass 1 (.reply c ref (BitVec.ofNat 64 id) 0 none)) ∧
    (∀ r, s.headOf q = some r → r.stage = .queued → s.mayCount r = true → r.launch.indirect = false → r.launch.groups ≠ 0 →
      s.launch? r.launch.id = some r → ∃ (u : State) (r' : LRec), exec .launchCounted (at_ [q]) = .next u ∧
        u.launch? r.launch.id = some r' ∧ r'.stage = .dealt ∧ r'.launch = r.launch ∧
        ∀ d, d < 24 → r.launch.dmask.testBit d = true → Leaves u 0 (36 * d) control 1 (.launchPkt r.launch d)) ∧
    (∀ l d, carries (.launchPkt l d) →
      let had := (((s.die d).packets.find? fun x => x.1 == l.id).map (·.2)).getD 0
      let rest := (s.die d).packets.filter fun x => x.1 != l.id
      ∃ u : State, exec .launchPacketArrival (at_ [p.id]) = .next u ∧
        (had = 3 → (u.die d).packets = rest ∧ ⟨s.cycle + 8, .groupsPending, [d, l.id]⟩ ∈ u.pending) ∧
        (had ≠ 3 → (u.die d).packets = rest ++ [(l.id, had + 1)])) ∧
    (∀ d id r, s.launch? id = some r → s.hasDealt d id = false → s.barriers = [] →
      ∃ u : State, exec .groupsPending (at_ [d, id]) = .next u ∧ u.hasDealt d id = true ∧
        ∀ x ∈ s.dealOn r.launch d, (s.core x.1).contained = false →
          ∃ y ∈ (u.core x.1).deals, y.launch = r.launch ∧ y.first = x.2.1 ∧ y.stride = x.2.2.1 ∧ y.left = x.2.2.2) ∧
    (∀ c d b slots base, s.startable c = some (d, b, slots, base) →
      let l := d.launch
      let k := (s.core c).trap
      ∃ (u : State) (g : Group), exec .groupStart (at_ [c]) = .next u ∧ u.group? c b = some g ∧ g.index = d.first ∧
        g.base = base ∧ g.launch = l ∧ g.settled = false ∧
        ∀ x ∈ List.zip (List.range slots.length) slots, let t := u.slot c x.2
          t.run = (if k.urging && !k.limited && k.urgStart.isSome then .paused else .running) ∧ t.pc = l.entry ∧ t.code = l.code ∧ t.strand = x.1 ∧ t.group = d.first ∧ t.launch = l.id ∧
          t.bank = b ∧ t.lead = l.paired ∧ u.gprAt c x.2 1 = l.arg) ∧
    (∀ id d spent status r, carries (.dieReport id d spent status) → s.launch? id = some r → r.stage = .dealt → r.host = none →
      (∀ x, x < 24 → r.launch.dmask.testBit x = true → x = d ∨ x ∈ r.reported) → s.barriers = [] →
      ∃ (u : State) (r' : LRec), exec .dieReport (at_ [p.id]) = .next u ∧ u.launch? id = some r' ∧ r'.stage = .ended ∧
        r'.status = max r.status status ∧
        Leaves u 0 r.core control 1 (.done id (max r.status status) ((r.spent + spent) / 1000) r.core r.slot)) ∧
    (∀ k id r, s.launches.find? (fun x => x.2.ringWait && x.2.host == some k && x.2.stage != .ended) = some (id, r) →
      s.launch? id = some r → (s.link k).ringRoom = true → s.barriers = [] → ∃ (u : State) (r' : LRec) (e : Entry),
        exec .completionRingWrite (at_ [k]) = .next u ∧ u.launch? id = some r' ∧ r'.stage = .ended ∧
        SMap.get (u.link k).ring (s.link k).head 0 = e.bits ∧ e.kind = 3 ∧ e.tag = BitVec.ofNat 64 id ∧ e.stat = r.status ∧
        (u.link k).head = ((s.link k).head + 1) % 256 ∧ (u.link k).msix = 0 :: (s.link k).msix) ∧
    (∀ launch level c ref sum w, carries (.barrier launch level c ref sum w) → c < 864 → level < 7 → s.barriers = [] →
      let b : Barrier := { launch, level, unit := barrierUnit level c, sum, arrived := [(c, ref)], total := w }
      ∃ u : State, exec .barrierArrival (at_ [p.id]) = .next u ∧
        (s.barrierFull b = false → u.barriers = [b] ∧ u.cores = s.cores) ∧
        (s.barrierFull b = true → u.barriers = [{ b with gen := 1, arrived := [], total := 0 }])) ∧
    (∀ id c r, carries (.leaseAsk id c) → s.launch? id = some r → ∃ (u : State) (r' : LRec),
      exec .energyLeaseRequest (at_ [p.id]) = .next u ∧ u.launch? id = some r' ∧ r'.quota = r.quota - min 65536 r.quota ∧
      Leaves u 0 c control 1 (.lease id c (min 65536 r.quota))) ∧
    (∀ id c units e, carries (.lease id c units) → (s.core c).leases = [e] → e.launch = id →
      ∃ u : State, exec .energyLeaseGrant (at_ [p.id]) = .next u ∧ u.mem = s.mem ∧
        (u.core c).leases = [{ e with balance := e.balance + units * 1000, asked := false, dry := units == 0 }])

/-- R75–R77, R275, R276, R280, R281, R284, R391 and R426. A command starts in turn and takes the bytes that its destination
overlaps as they stand, sends its segments and ends with a completion entry; a segment's bytes land whole and are
acknowledged; a follow-on multiply joins the matrix queue, for a pair on the shadow accumulators as well; a read after a command's
host writes comes back by the link with the bytes it reads, or with status 4 where the link is down. The model's choice: which of
the two reads a byte of an overlap gives is a free value (log entry 14). -/
def Sys2Proof.Spec.CopyEvents : Prop :=
  ∀ (s : State) (c : Nat) (m : CopyCmd) (p : Packet),
    let k := s.core c
    let at_ (l : List Nat) : State := { s with evt := l }
    let carries (b : Body) : Prop := s.packet? p.id = some p ∧ p.body = b
    let b := m.block
    (k.copies = [m] → k.copyToStart = some m → m.fill = true ∨ cKind b ≠ 1 →
      ∃ u : State, exec .copyCommandStart (at_ [c]) = .next u ∧ u.mem = s.mem ∧ (u.core c).copies =
        [{ m with started := true, nextAt := s.cycle + 1, targets := [], refused := 0, old := s.oldBytes c m }]) ∧
    (k.copies = [m] → k.copyToSend s.cycle = some m → m.fill = true → m.dst = none → m.src = none → cSyncEn b = false →
      cDstK b < 8 → cDstOff b + cDstLen b ≤ 18432 → k.contained = false → m.segs = [] → Memory.wf s.mem = true →
      cKind b = 0 → m.at_ ≤ cDstLen b → m.failed = false → k.vault.late = [] →
      let lo := m.at_
      let e := cDstOff b + lo
      let n := min (cDstLen b - lo) (if cUrg b then min (256 - e % 256) (8192 - e % 8192) else 8192 - e % 8192)
      ∃ (u : State) (m' : CopyCmd), exec .copySegment (at_ [c]) = .next u ∧ (u.core c).copies = [m'] ∧ m'.at_ = lo + n ∧
        m'.sent = decide (cDstLen b ≤ lo + n) ∧ m'.wrote = m.wrote + n ∧ m'.segs = [] ∧
        (∀ i, i < n → u.readByte (bufLoc c (cDstK b) (e + i)) = BitVec.ofNat 8 (cSrcOff b / 256 ^ ((e + i) % 8))) ∧
        ∀ x, x < bufLoc c (cDstK b) e ∨ bufLoc c (cDstK b) (e + n) ≤ x → u.readByte x = s.readByte x) ∧
    (∀ num key bytes gen, carries (.segment c num key 1 bytes [] 0 gen) → (s.core p.dst).contained = false →
      (s.core p.dst).waiters = [] → (s.core p.dst).vault.late = [] → (∀ m, s.copy? c num = some m → cSyncEn m.block = false) →
      (bytes.map (·.1)).Nodup → Memory.wf s.mem = true → ∃ u : State, exec .segmentApply (at_ [p.id]) = .next u ∧
        (∀ x ∈ bytes, u.readByte (scratchLoc p.dst x.1) = x.2) ∧
        (∀ a, (∀ x ∈ bytes, a ≠ scratchLoc p.dst x.1) → u.readByte a = s.readByte a) ∧
        Leaves u p.dst c control 1 (.segAck c num key bytes.length 0)) ∧
    (∀ key n status, carries (.segAck c m.num key n status) → k.copies = [m] → m.num < tstCmd → ∃ u : State,
      exec .endToEndAck (at_ [p.id]) = .next u ∧ u.mem = s.mem ∧ (u.core c).copies = [{ m with
        flying := m.flying - 1, wrote := m.wrote + n, status := max m.status status
        segs := if 2 < status then m.segs.filter (fun x => x.1 != key) else m.segs
        failed := m.failed || (decide (2 < status) && (cKind b != 1 || m.fill)) }]) ∧
    (k.copies = [m] → m.sent = true → m.flying = 0 → m.reading = 0 → m.segs = [] →
      (∀ t, m.dst = some t → ∃ u : State, exec .hostFlushRead (at_ [c]) = .next u ∧ u.mem = s.mem ∧
        (u.core c).copies = [{ m with flushed := true, reading := 1 }] ∧
        Leaves u c (linkPos t.ent.hlink) (if cUrg b then urgentClass else bulk) 1
          (.fetch ⟨c, m.num, 0, 5, t.obj, t.gen, cUrg b, [hostPiece t (cDstLen b - 1) 1]⟩)) ∧
      (∀ ov d x y, followOn b = some (.mma ov false d x y) → m.failed = false →
        let two := if m.paired then 2 else 1
        (8 < k.accepted.length + two → exec .followOnIssue (at_ [c]) = .next (at_ [c])) ∧
        (k.accepted.length + two ≤ 8 → ∃ (u : State) (o : MatOp), exec .followOnIssue (at_ [c]) = .next u ∧ u.mem = s.mem ∧
          (u.core c).matQ = k.matQ ++ o ::
            (if m.paired then [{ o with num := m.num + 2, slot := m.slot + 8, shadow := true }] else []) ∧
          o.kind = .mma false ov d.toNat x.toNat y.toNat ∧ o.num = m.num + 1 ∧ o.slot = m.slot ∧ o.fmt = k.fmt ∧ o.start = m.start ∧
          o.shadow = false ∧ (u.core c).copies = [{ m with followed := true }])) ∧
      (m.toShared = false → StillAt s c → k.resv.any (fun r => r.what == forCommand && r.num == m.num) = true →
        ∃ (u : State) (e : Entry), exec .copyCompletion (at_ [c]) = .next u ∧ u.mem = s.mem ∧ (u.core c).copies = [] ∧
          (u.core c).inbox = k.inbox ++ [e] ∧ e.kind = 2 ∧ e.tag = BitVec.ofNat 64 (bitsOf b 448 64) ∧ e.stat = m.status ∧
          e.taker = m.slot ∧ e.payload = BitVec.ofNat 384 (m.refused * 2 ^ 64 + m.wrote) ∧
          ∀ x ∈ (u.core c).board, x.holder ≠ m.num)) ∧
    (∀ f, carries (.fetch f) → let l := if p.dst = linkPos 0 then 0 else 1
      ∃ u : State, exec .hostFlushRead (at_ [p.id, 1]) = .next u ∧ u.mem = s.mem ∧
        let cls := if f.urgent then urgentClass else bulk
        ((s.link l).down = true → Leaves u p.dst f.core cls 1 (.fetched f [] [] 4)) ∧
        ((s.link l).down = false → Leaves u p.dst f.core cls (flitsFor (s.hostBytes l f).length) (.fetched f (s.hostBytes l f) [] 0)))

/-- R281 and R287–R289. The descriptors of a collective gather at its die; the instance reads its participants' sources, sends
every rank its result and, once all is applied, tells each how it has ended, which posts its completion entry. A participant
that is contained ends the instance with status 3. The model's choices on what goes between the participants are those of log
entry 77. -/
def Sys2Proof.Spec.CollectiveEvents : Prop :=
  ∀ (s : State) (die : Nat) (x : Coll) (i : Inst) (p : Packet),
    let d := s.die die
    let at_ (l : List Nat) : State := { s with evt := l }
    let carries (b : Body) : Prop := s.packet? p.id = some p ∧ p.body = b
    let eng := 36 * die
    let n := cLen x.block
    (carries (.descriptor x) → ∃ u : State, exec .collDescriptorArrival (at_ [p.id]) = .next u ∧ u.mem = s.mem ∧
      (u.die (posDie p.dst)).gather = (s.die (posDie p.dst)).gather ++ [x]) ∧
    (d.gather = [x] → x.set = [x.core] → s.partContained x.core = true → ∃ u : State,
      exec .collInstanceRun (at_ [die, x.id]) = .next u ∧ u.mem = s.mem ∧ (u.die die).gather = [] ∧
        Leaves u eng x.core control 1 (.collDone x.core x.num 3 0)) ∧
    (d.gather = [x] → x.set = [x.core] → s.partContained x.core = false → s.collReady die x = true → d.insts = [] →
      ∃ (u : State) (j : Inst), exec .collInstanceRun (at_ [die, x.id]) = .next u ∧ u.mem = s.mem ∧ (u.die die).gather = [] ∧
        (u.die die).insts = [j] ∧ j.ms = [x] ∧ j.sent = false ∧ j.got = [] ∧
        ∀ h ∈ byHome (s.linesOf x.src 0 n), ∃ f : Fetch, f.num = j.id ∧ f.ps = h.2 ∧ Leaves u eng h.1 control 1 (.fetch f)) ∧
    (∀ h a (f : Nat → Byte), d.insts = [i] → i.ms = [x] → i.sent = false → i.reading = 0 → i.status = 0 → cKind x.block = 2 →
      0 < n → x.dst.off % 64 + n ≤ 64 → x.dst.ent.kind = kPrivate → s.home x.dst x.dst.off = (h, a) →
      i.got = [(0, (List.range n).map fun j => (j, f j), [])] →
      ∃ (u : State) (flits : Nat), exec .collInstanceRun (at_ [die, i.id, 1]) = .next u ∧ u.mem = s.mem ∧
        (u.die die).insts = [{ i with sent := true, got := [], wrote := [n], flying := i.flying + 1 }] ∧
        Leaves u eng h bulk flits (.segment eng i.id 1 0 ((List.range n).map fun j => (a + j, f j)) []
          (if x.dst.obj = aliasObj then 0 else x.dst.obj) x.dst.gen)) ∧
    (d.insts = [i] → i.sent = true → i.flying = 0 → ∃ u : State, exec .collInstanceRun (at_ [die, i.id, 1]) = .next u ∧
      u.mem = s.mem ∧ (u.die die).insts = [] ∧ ∀ y ∈ List.zip i.ms i.wrote, Leaves u eng y.1.core control 1 (.collDone y.1.core y.1.num
        (if i.ms.any (fun m => s.partContained m.core) then max i.status 3 else i.status) y.2)) ∧
    (∀ st w, carries (.collDone x.core x.num st w) → (s.die (posDie x.core)).descs = [x] → ∃ u : State,
      exec .endToEndAck (at_ [p.id]) = .next u ∧ u.mem = s.mem ∧ (u.die (posDie x.core)).descs = [{ x with fin := some (st, w) }]) ∧
    (∀ st w, (s.die (posDie x.core)).descs = [x] → x.fin = some (st, w) → x.dst.ent.kind = kPrivate → StillAt s x.core →
      (s.core x.core).resv.any (fun r => r.what == forCommand && r.num == x.num) = true → ∃ (u : State) (e : Entry),
        exec .copyCompletion (at_ [x.core, 1]) = .next u ∧ u.mem = s.mem ∧ (u.die (posDie x.core)).descs = [] ∧
        (u.core x.core).inbox = (s.core x.core).inbox ++ [e] ∧ e.kind = 2 ∧ e.stat = st ∧ e.taker = x.slot ∧
        e.payload = BitVec.ofNat 384 w)

/-- The copy and collective engines. The clauses that rest on log entries 14 and 77 state the model's choices. -/
def Obligations.EngineEvents : Prop := Spec.CopyEvents ∧ Spec.CollectiveEvents

/-- Messages and launches on their way. The clauses that rest on log entries 6, 32 and 43 state the model's choices. -/
def Obligations.MessageAndLaunchEvents : Prop := Spec.MessageEvents ∧ Spec.LaunchEvents


/-! Events: links, Phaekus, the host and the supervisor. -/

/-- A track that holds no packet and no flit. -/
abbrev Sys2Proof.Spec.Idle (k : Track) : Prop := k.queue = [] ∧ k.retry = [] ∧ k.air = [] ∧ k.partials = []

/-- R24, R295, R297, R299–R302, R357 and R425. An open bulk packet gets its flit after 31 others, a control flit goes next unless
one has just gone; a flit that goes is kept for retry, and none goes while 64 are kept or a port's lane is closed. A flit
whose check fails is discarded and a retry asked for, as is every later one; a good first flit goes on by the next track of
its route, a good last flit completes its packet at its destination, or leaves the package through a port. A retry resends from
the first kept flit, and after sixteen failed retries in a row the track dies. A link dies with its last track; a packet
returned by a dead track is sent again. The model's choices: acknowledgements and credits return at once (log entry 16), in which
clocks a port's lane is open (log entry 64), and what leaves for another package is kept apart (log entry 15). -/
def Obligations.LinkEvents : Prop :=
  ∀ (s : State) (t : Nat),
    let k := s.track t
    let at_ (l : List Nat) : State := { s with evt := l }
    let due := s.cycle + hopClocks t
    let here := hopTo (trackPos t) (trackDir t)
    let link := trackPos t * 7 + trackDir t
    let stays (e : Instr) : Prop := exec e (at_ [t]) = .next (at_ [t])
    (∀ b, k.candidate bulk = some b → 31 ≤ k.nonBulk → k.next = some b) ∧
    (∀ x, k.candidate control = some x → k.candidate bulk = none ∨ k.nonBulk < 31 → k.lastCtl = false → k.next = some x) ∧
    (k.dead = false → laneOpen t s.cycle = false → stays .flitTransmit) ∧
    (k.dead = false → laneOpen t s.cycle = true → k.resend = 0 →
      (64 ≤ k.retry.length ∨ k.next = none → stays .flitTransmit) ∧
      (∀ x, k.retry.length < 64 → k.next = some x → x.via = none →
        let f : Flit := ⟨x.pkt, x.sent == 0, x.sent + 1 == x.flits, x.cls, k.lseq, due⟩
        let cuts : Bool := x.sent == 0 && k.queue.any fun y => y.sent != 0 && decide (y.cls < x.cls)
        ∃ u : State, exec .flitTransmit (at_ [t]) = .next u ∧ u.mem = s.mem ∧
          (u.track t).air = k.air ++ [f] ∧ (u.track t).retry = k.retry ++ [f] ∧ (u.track t).lseq = (k.lseq + 1) % 128 ∧
          (u.track t).nonBulk = (if x.cls = bulk then 0 else k.nonBulk + 1) ∧ (u.track t).lastCtl = (x.cls == control) ∧
          (cuts = false → u.packets = s.packets) ∧
          ∀ q, cuts = true → s.packet? x.pkt = some q → q.id = x.pkt → u.packet? x.pkt = some { q with cut := true })) ∧
    (∀ n f, k.dead = false → laneOpen t s.cycle = true → k.resend = n + 1 → k.retry[k.retry.length - (n + 1)]? = some f →
      ∃ u : State, exec .flitTransmit (at_ [t]) = .next u ∧ u.mem = s.mem ∧
        u.track t = { k with air := k.air ++ [{ f with clock := due }], resend := n }) ∧
    (∀ f rest, k.air = f :: rest → f.clock ≤ s.cycle →
      let bad := s.badFlits.contains (t, s.cycle)
      (bad = true → ∃ u : State, exec .flitReceive (at_ [t]) = .next u ∧
        u.track t = { k with air := rest } ∧ ⟨due, .retryRequest, [t]⟩ ∈ u.pending ∧ u.mem = s.mem) ∧
      (bad = false → f.lseq ≠ k.expect → ∃ u : State, exec .flitReceive (at_ [t]) = .next u ∧
        u.track t = { k with air := rest } ∧ u.pending = s.pending ∧ u.mem = s.mem) ∧
      (∀ p, bad = false → f.lseq = k.expect → s.packet? f.pkt = some p → ∃ u : State, exec .flitReceive (at_ [t]) = .next u ∧
        (trackDir t = 5 → f.last = true → p.targets = [] → ∀ e, p.body.due = some e → ⟨s.cycle + 1, e, [p.id]⟩ ∈ u.pending ∧ u.mem = s.mem ∧
          (u.track t).air = rest ∧ (u.track t).expect = (k.expect + 1) % 128 ∧ (u.track t).failures = 0 ∧
          (u.track t).retry = k.retry.filter fun x => x.lseq != f.lseq) ∧
        (trackDir t = 6 → f.last = true → (∀ r, p.body = .req r → r.window = false) → u.outbox = s.outbox ++ [p] ∧ u.mem = s.mem) ∧
        (trackDir t < 5 → f.first = true → p.targets = [] → ∀ w, s.liveTrack here p.src p.dst = some w → w ≠ t →
          (u.track w).queue = (s.track w).queue ++ [⟨p.id, 1, 0, p.cls, p.flits, some t, false⟩] ∧ u.mem = s.mem))) ∧
    (∀ e ∈ [Instr.retryRequest, .trackDeath], k.dead = true → stays e) ∧
    (k.dead = false →
      (k.failures < 16 → ∃ u : State, exec .retryRequest (at_ [t]) = .next u ∧ u.mem = s.mem ∧
        u.track t = { k with failures := k.failures + 1, air := [], resend := k.retry.length }) ∧
      (16 ≤ k.failures → Idle k → ∃ u : State, exec .retryRequest (at_ [t]) = .next u ∧ (u.track t).dead = true ∧
        u.mem = s.mem) ∧
      (Idle k → ∃ u : State, exec .trackDeath (at_ [t]) = .next u ∧ (u.track t).dead = true ∧ u.mem = s.mem ∧
        ((∀ l, l < lanesOf (trackDir t) → trackId (trackPos t) (trackDir t) l ≠ t →
            (s.track (trackId (trackPos t) (trackDir t) l)).dead = true) →
          u.agenda = ⟨.linkDeath, [link]⟩ :: s.agenda ∧ link ∈ u.deadLinks))) ∧
    (∀ a d, d < 7 →
      let b := hopTo a d
      (∀ l, l < lanesOf d → Idle (s.track (trackId a d l)) ∧ Idle (s.track (trackId b (backDir d) l))) →
      ∃ u : State, exec .linkDeath (at_ [a * 7 + d]) = .next u ∧ u.mem = s.mem ∧ a * 7 + d ∈ u.deadLinks ∧
        b * 7 + backDir d ∈ u.deadLinks ∧ 2 ^ 16 + (a * 7 + d) ∈ u.mgmt.told ∧
        ∀ l, l < lanesOf d → (u.track (trackId a d l)).dead = true ∧ (u.track (trackId b (backDir d) l)).dead = true) ∧
    (∀ (p q : Packet), s.packet? p.id = some p → p.body = .nak q.id → (s.dropPacket p.id).packets = [(q.id, q)] →
      q.src < 864 → s.linkDead q.src 4 = false →
      let w := s.trackFor q.src 4 q.src q.dst
      ∃ u : State, exec .urgentNakResend (at_ [p.id]) = .next u ∧ u.mem = s.mem ∧
        (u.track w).queue = (s.track w).queue ++ [⟨q.id, q.flits, 0, q.cls, q.flits, none, false⟩])

/-- R393–R397, R400, R401 and R403–R405. An accepted image raises the fused minimum and leads to full function, a rejected
one to the failed state; full function starts the clocks and the start episode of every core. A missed heartbeat counts, and
the third begins a takeover, whose end takes up the requests and makes the containments that waited. A clock step is the slower of
what power and the host allow, and waits for a rotation boundary, for 1 ms since the last and for the end of a takeover, as a
reservation does; a thermal state is entered, and a trip contains. The model's choices: where a start episode begins (log entry
10), the clocks that a stage or a takeover lasts and in which a wait for one looks again (log entry 6), and where power and
temperature come from (log entry 46). -/
def Obligations.ManagementEvents : Prop :=
  ∀ (s : State) (c x y : Nat),
    let m := s.mgmt
    let at_ (l : List Nat) : State := { s with evt := l }
    let good := imageAccepted Config.firmwareImage m.minVersion
    let raised := max m.minVersion (imageField Config.firmwareImage 12 4)
    (m.stg = 0 →
      (good = true → ∃ u : State, exec .stagedStart (at_ [0]) = .next u ∧ u.mem = s.mem ∧
        u.mgmt = { m with minVersion := raised, stg := 1 } ∧ ⟨s.cycle + 1, .stagedStart, [1]⟩ ∈ u.pending) ∧
      (good = false → ∃ u : State, exec .stagedStart (at_ [0]) = .next u ∧ u.mem = s.mem ∧ u.mgmt = { m with stg := 3 })) ∧
    (m.stg = 1 → ∃ u : State, exec .stagedStart (at_ [1]) = .next u ∧ (u.mgmt.stg = 2 ∨ u.mgmt.stg = 3) ∧
      (u.mgmt.stg = 2 → u.cycle = 0 ∧ u.logical = s.liveOrder ∧ ∀ q ∈ u.logical, ⟨.startEpisode, [q]⟩ ∈ u.agenda ∧
        (u.slot q 15).code = ⟨Config.supervisorCode q, true⟩ ∧ (u.slot q 15).k = supCaps (u.logicalOf q) ∧
        (u.core q).contained = false)) ∧
    (m.starting.contains c = true → s.supFree c = true → ∃ u : State, exec .startEpisode (at_ [c]) = .next u ∧ u.mem = s.mem ∧
      let h := u.slot c 15
      h.run = .running ∧ h.code = ⟨Config.supervisorCode c, true⟩ ∧ h.pc = h.code.base + 0x140 ∧ u.gprAt c 15 1 = 0 ∧
      u.gprAt c 15 2 = BitVec.ofNat 64 (s.logicalOf c) ∧ (u.core c).trap.level = 1 ∧ (u.core c).trap.urging = true) ∧
    (exec .phaekusHeartbeat (at_ [1]) = .next ((at_ [1]).onMgmt fun m => { m with silent := true })) ∧
    (∃ u : State, exec .phaekusHeartbeat (at_ []) = .next u ∧ u.mem = s.mem ∧
      u.mgmt = { m with missed := if m.silent then m.missed + 1 else 0 } ∧
      ⟨s.cycle + msClocks, .phaekusHeartbeat, []⟩ ∈ u.pending ∧
      u.agenda = if m.silent ∧ m.missed = 2 then ⟨.failover, []⟩ :: s.agenda else s.agenda) ∧
    (∃ u : State, exec .failover (at_ []) = .next u ∧ u.mem = s.mem ∧ u.mgmt = { m with failover := true } ∧
      ⟨s.cycle + 1, .failover, [1]⟩ ∈ u.pending) ∧
    (m.failover = true → ∃ u : State, exec .failover (at_ [1]) = .next u ∧ u.mem = s.mem ∧
      (good = false → u.mgmt = { m with stg := 3 }) ∧
      (good = true → u.mgmt = { m with minVersion := raised, failover := false, silent := false, missed := 0, waiting := []
                                       qtaken := u.mgmt.qtaken } ∧
        (∀ q, q < 216 → SMap.get u.mgmt.qtaken q 16 = SMap.get m.qres q 16) ∧
        u.agenda = (m.waiting.map fun q => ⟨.containment, [q]⟩) ++ s.agenda)) ∧
    (∀ l, l = [x] ∨ l = [] ∧ x = m.powerStep ∧ x < 4 →
      let step := max (min 3 x) m.clkcap;
      (step = m.step → exec .clockStepChange (at_ l) = .next ((at_ l).onMgmt fun m => { m with powerStep := min 3 x })) ∧
      (step ≠ m.step → m.failover = true → m.stg ≠ 3 → exec .clockStepChange (at_ l) =
        .next (((at_ l).onMgmt fun m => { m with powerStep := min 3 x }).after 1 .clockStepChange [])) ∧
      (step ≠ m.step → m.failover = true → m.stg = 3 → exec .clockStepChange (at_ l) =
        .next ((at_ l).onMgmt fun m => { m with powerStep := min 3 x })) ∧
      (step ≠ m.step → m.failover = false → s.past m.lastStep msClocks = true → s.cycle % 16 ≠ 0 →
        exec .clockStepChange (at_ l) = .next (((at_ l).onMgmt fun m => { m with powerStep := min 3 x }).after
          (16 - s.cycle % 16) .clockStepChange [])) ∧
      (step ≠ m.step → m.failover = false → s.past m.lastStep msClocks = false → ∃ u : State, exec .clockStepChange (at_ l) = .next u ∧
        u.mem = s.mem ∧ u.mgmt = { m with powerStep := min 3 x } ∧
        ⟨s.cycle + (m.lastStep.getD 0 + msClocks - s.cycle), .clockStepChange, []⟩ ∈ u.pending) ∧
      (step ≠ m.step → m.failover = false → s.past m.lastStep msClocks = true → s.cycle % 16 = 0 → ∃ u : State,
        exec .clockStepChange (at_ l) = .next u ∧ u.mem = s.mem ∧ u.mgmt.step = step ∧ u.mgmt.lastStep = some s.cycle ∧
        u.wall = s.wall ∧ (∀ d, d < 24 → (u.die d).refcfg = stepRefcfg step) ∧
        ∀ q ∈ s.logical, (u.core q).vault.busStall = max (s.core q).vault.busStall (s.cycle + 96))) ∧
    (m.failover = true → exec .quadReservationUpdate (at_ [x]) =
      .next (if m.stg = 3 then at_ [x] else (at_ [x]).after 1 .quadReservationUpdate [x])) ∧
    (let cap := if x = 1 then max 1 (m.powerCap - 1) else min 16 (m.powerCap + 1);
      m.failover = false → s.past m.lastPower (msClocks / 10) = true → cap ≠ m.powerCap → ∃ u : State,
        exec .quadReservationUpdate (at_ [x]) = .next u ∧ u.mem = s.mem ∧
        u.mgmt = { m with powerCap := cap, lastPower := some s.cycle } ∧
        ∀ q, q < 216 → (u.quad q).credits = s.credits q ∧ (u.quad q).creditClock = s.cycle) ∧
    (∃ u : State, exec .thermalSample (at_ [c, x, y]) = .next u ∧ u.mem = s.mem ∧
      let v := (s.core c).vault
      let w := (u.core c).vault
      w.logicT = x % 256 ∧ w.dramT = y % 256 ∧
      (v.dramHot = false → s.since v.dramSince oneMs = true → (w.dramHot = true ↔ 85 ≤ y)) ∧
      (v.throt = false → s.since v.logicSince oneMs = true → (w.throt = true ↔ 100 ≤ x)) ∧
      (w.dramHot ≠ v.dramHot ∨ w.throt ≠ v.throt → w.busStall = max v.busStall (s.cycle + 96)) ∧
      (125 ≤ x → m.failover = false → u.agenda = ⟨.containment, [c]⟩ :: s.agenda) ∧
      (125 ≤ x → m.failover = true → u.mgmt.waiting = m.waiting ++ [c]))

/-- R385–R391. Host writes reach the registers of BAR0 and BAR4; a quad's reservation and a containment request have their
own; a write to the tables goes to the entry's home, which discards it where the entry is or would become secure or of kind
`context`, and else stores its bytes. A doorbell submits its slot once, and is refused before full function; results are cleared
as they are read; a frame leaves for its stream's die. A link that fails fails the commands on it. The model's choices: that a
write of the tables is lost before full function (log entry 48), and what of the PCIe links the model holds (log entry 53). -/
def Obligations.HostEvents : Prop :=
  ∀ (s : State) (k q v n : Nat),
    let l := s.link k
    let at_ (l : List Nat) : State := { s with evt := l }
    let link (u : State) : Link := u.link k
    (exec .hostBarWrite (at_ [k, 0, 0x100, n, v]) =
      .next ((at_ [k, 0, 0x100, n, v]).onMgmt fun m => { m with hwake := v.testBit 0 })) ∧
    (∃ u : State, exec .hostBarWrite (at_ [k, 0, 0x208, n, v]) = .next u ∧ u.mgmt = { s.mgmt with clkcap := v % 4 } ∧
      u.agenda = ⟨.clockStepChange, []⟩ :: s.agenda) ∧
    (∃ u : State, exec .hostBarWrite (at_ [k, 4, 0x6008, n, v]) = .next u ∧ link u = { l with tail := v }) ∧
    (∀ i, q < 16 → i < 7 → v < 2 ^ 64 → ∃ u : State, exec .hostBarWrite (at_ [k, 4, 0x200 * q + 8 * i, 8, v]) = .next u ∧
      u.mem = s.mem ∧ ∀ j, j < 168 → (SMap.get (link u).slots q 0).extractLsb' (8 * j) 8 =
        if j / 8 = i then BitVec.ofNat 8 (v / 256 ^ (j % 8)) else (SMap.get l.slots q 0).extractLsb' (8 * j) 8) ∧
    (q < 216 → ∃ u : State, exec .qresWrite (at_ [k, q, v]) = .next u ∧ u.mem = s.mem ∧
      SMap.get u.mgmt.qres q 16 = (if v % 256 = 0 ∨ 16 < v % 256 then 16 else v % 256) ∧
      (s.mgmt.failover = false → SMap.get u.mgmt.qtaken q 16 = SMap.get u.mgmt.qres q 16) ∧
      (s.mgmt.failover = true → u.mgmt.qtaken = s.mgmt.qtaken ∧ u.quads = s.quads)) ∧
    (q < 864 → (s.mgmt.failover = false → exec .contreqWrite (at_ [k, q]) = .next ((at_ [k, q]).now .containment [q])) ∧
      (s.mgmt.failover = true → ∃ u : State, exec .contreqWrite (at_ [k, q]) = .next u ∧
        u.mgmt = { s.mgmt with waiting := s.mgmt.waiting ++ [q] } ∧ u.agenda = s.agenda)) ∧
    (∀ off, off < 0x400000 →
      (s.mgmt.stg ≠ 2 → exec .bar2TableWrite (at_ [k, off, n, v]) = .next (at_ [k, off, n, v])) ∧
      (s.mgmt.stg = 2 → ∃ (u : State) (r : Req) (dst cls flits : Nat), exec .bar2TableWrite (at_ [k, off, n, v]) = .next u ∧
        u.mem = s.mem ∧ Leaves u (linkPos k) dst cls flits (.req r) ∧ r.obj = 1 ∧ r.off = 0x400000 + off ∧
        r.op = .entryPut (min n (64 - off % 64)) v true none)) ∧
    (∀ (p : Packet) (r : Req) (a : Nat), s.packet? p.id = some p → p.body = .req r → r.op = .entryPut n v true none →
      s.migFrom p.dst r.addr = none → s.lineRoom p.dst (r.addr / 64) = true → (s.objEntry r.obj).gen = r.gen →
      0x400000 ≤ a → a < 0x800000 → r.off = a → 0 < n → a % 64 + n ≤ 64 →
      let old := s.tableWord (a / 64 * 64) 8
      let word := if a % 64 < 8 then putBits old (a % 64) v (min n (8 - a % 64)) % 2 ^ 64 else old
      let shut : Bool := old.testBit 11 || word.testBit 11 || word / 256 % 8 == kContext
      (shut = true → ∃ u : State, exec .vaultAgentRequest (at_ [p.dst, p.id]) = .next u ∧ u.mem = s.mem ∧ u.writes = s.writes) ∧
      (shut = false → vaultLoc p.dst r.addr = s.tableLoc a → (∀ i, i < n → PlainByte s p.dst (r.addr + i)) →
        (old / 256 % 8 = 0 → word / 256 % 8 = 0) → Memory.wf s.mem = true →
        ∃ u : State, exec .vaultAgentRequest (at_ [p.dst, p.id]) = .next u ∧
          (u.writes.map (·.line)) = s.writes.map (·.line) ++ [a / 64] ∧
          ∀ b, u.readByte b = if s.tableLoc a ≤ b ∧ b < s.tableLoc a + n then BitVec.ofNat 8 (v / 256 ^ (b - s.tableLoc a))
            else s.readByte b)) ∧
    (∀ e ∈ [(Instr.launchDoorbellDirect, false), (.launchDoorbellIndirect, true)], q < 16 →
      (l.busy.contains q = true → exec e.1 (at_ [k, q]) = .next (at_ [k, q])) ∧
      (l.busy.contains q = false → s.mgmt.stg ≠ 2 → ∃ u : State, exec e.1 (at_ [k, q]) = .next u ∧ u.packets = s.packets ∧
        link u = { l with results := SMap.set l.results q (BitVec.ofNat 64 (2 ^ 63 + 2 ^ 62 + 9)) }) ∧
      (l.busy.contains q = false → s.mgmt.stg = 2 →
        let x := (SMap.get l.slots q 0).toNat
        let t := launchTemplate x e.2
        ∃ (u : State) (sub : Launch) (bad : Bool), exec e.1 (at_ [k, q]) = .next u ∧ u.mem = s.mem ∧
          (link u).busy.contains q = true ∧ SMap.get (link u).results q 1 = 0 ∧
          sub = { t.1 with queue := q, code := sub.code, args := sub.args, count := sub.count } ∧ (t.2 = true → bad = true) ∧
          sub.code.bits = (SMap.get l.slots q 0).extractLsb' 512 128 ∧
          Leaves u (linkPos k) 0 urgentClass 5 (.submit sub (linkPos k) 0 (some k) false bad))) ∧
    (∃ u : State, exec .launchResultRead (at_ [k, q]) = .next u ∧ link u = { l with results := SMap.set l.results q 0 }) ∧
    (let h := l.frame.toNat % 2 ^ 64;
      let die := h / 2 ^ 36 % 32;
      (l.frameBusy = true → exec .frameDoorbell (at_ [k]) = .next (at_ [k])) ∧
      (l.frameBusy = false → 24 ≤ die → ∃ u : State, exec .frameDoorbell (at_ [k]) = .next u ∧ u.packets = s.packets ∧
        link u = { l with frameResult := BitVec.ofNat 64 (2 ^ 63 + 2) }) ∧
      (l.frameBusy = false → die < 24 → ∃ (u : State) (f : Frame) (flits : Nat), exec .frameDoorbell (at_ [k]) = .next u ∧
        u.mem = s.mem ∧ (link u).frameBusy = true ∧ (link u).frameResult = 0 ∧ f.handle = BitVec.ofNat 64 h ∧
        f.pf = l.frame.toNat / 2 ^ 64 % 2 ^ 64 ∧ f.seq = l.frame.toNat / 2 ^ 128 % 2 ^ 16 ∧
        f.count = l.frame.toNat / 2 ^ 144 % 2 ^ 8 ∧ f.host = true ∧ f.core = k ∧ f.sec = false ∧
        Leaves u (linkPos k) (36 * die) urgentClass flits (.frame f))) ∧
    (∃ u : State, exec .frameResultRead (at_ [k]) = .next u ∧ link u = { l with frameResult := 0 }) ∧
    (∃ u : State, exec .pcieError (at_ [k, 2]) = .next u ∧ link u = { l with down := false } ∧ u.cores = s.cores) ∧
    (∃ u : State, exec .pcieError (at_ [k, 1]) = .next u ∧ link u = { l with down := true } ∧ u.mem = s.mem) ∧
    (∀ m x, (s.core q).copies = [m] → m.started = true → m.src = some x → x.ent.kind = kHost → x.ent.hlink = k →
      ∃ u : State, exec .pcieError (at_ [k, 0]) = .next u ∧ u.mem = s.mem ∧
        (u.core q).copies = [{ m with status := max m.status 4, failed := true }])

/-- R32, R39, R40, R46, R78, R323, R374, R375, R381 and R392. A core with room accepts an urgent request; an episode starts at
its entry, and its first instruction pauses every running slot; past its limit it traps and the Paused slots resume. The deadlock trap reaches every
working core once, and with host wake armed a quiet period fires vector 1 instead. A containment stops every slot of a core,
drops its inbox and its unpublished log, and is told. The model's choices: where the supervisor starts (log entry 10), that
the limit is what `URGLIM` holds then (log entry 37), that a vector fires on both links (log entry 44), and that a second event for a
supervisor slot is dropped while one waits (log entry 89). -/
def Obligations.SupervisorEvents : Prop :=
  ∀ (s : State) (c : Nat) (p : Packet),
    let k := s.core c
    let at_ (l : List Nat) : State := { s with evt := l }
    (∀ core ref entry arg requester, s.packet? p.id = some p → p.body = .urg core ref entry arg requester → p.dst = c →
      let ok := !k.contained && decide (k.trap.urgent.length < 4)
      ∃ u : State, exec .urgRequestArrival (at_ [p.id]) = .next u ∧ u.mem = s.mem ∧
        (u.core c).trap.urgent = (if ok then k.trap.urgent ++ [(entry, requester, arg)] else k.trap.urgent) ∧
        Leaves u c core urgentClass 1 (.reply core ref (if ok then 1 else 0) 0 none)) ∧
    (∀ entry requester arg rest, k.trap.urgent = (entry, requester, arg) :: rest → k.contained = false → k.trap.level = 0 →
      (s.slot c 15).run = .empty → ∃ u : State, exec .urgentEpisodeStart (at_ [c]) = .next u ∧ u.mem = s.mem ∧
        (let h := u.slot c 15;
          h.run = .running ∧ h.code = ⟨Config.supervisorCode c, true⟩ ∧ h.pc = h.code.base + 0x40 + 16 * entry ∧
          u.gprAt c 15 1 = BitVec.ofNat 64 requester ∧ u.gprAt c 15 2 = arg) ∧
        (u.core c).trap.urgent = rest ∧ (u.core c).trap.level = 1 ∧ (u.core c).trap.urging = true ∧
        (u.core c).trap.urgStart = none ∧ ∀ n, n < 15 → u.slot c n = s.slot c n) ∧
    (k.trap.urging = true → k.trap.urgStart = none →
      let u := s.noteUrgent c 15
      (u.core c).trap = { k.trap with urgStart := some s.cycle } ∧ u.slot c 15 = s.slot c 15 ∧
      ∀ n, n < 15 → (u.slot c n).run = (if s.runAt c n = .running then .paused else (s.slot c n).run) ∧
        (u.slot c n).pc = (s.slot c n).pc) ∧
    (k.overLimit s.cycle = true → k.contained = false → k.trap.level < 2 → (s.slot c 15).hold = none →
      (s.slot c 15).lead = false → StillAt s c →
      (∀ n, n < 15 → (s.slot c n).run = .paused → (s.slot c n).back = .running) → ∃ u : State,
        exec .urgLimit (at_ [c]) = .next u ∧ u.mem = s.mem ∧ ⟨.trapDelivery, [c]⟩ ∈ u.agenda ∧
        (u.core c).trap.limited = true ∧ (u.slot c 15).run = .trapped ∧ (u.slot c 15).raised = some ⟨causeUrgLimit,
          (s.slot c 15).pc, k.urglim, (s.slot c 15).pc, false, s.cycle, s.statusAt c (strandSlot (s.slot c 15) 15)⟩ ∧
        ∀ n, n < 15 → (u.slot c n).run = if (s.slot c n).run = .paused then .running else (s.slot c n).run) ∧
    (s.logical.Nodup → s.mgmt.armed = true → s.mgmt.hwake = false → s.allQuiet = true → ∃ u : State,
      exec .deadlock (at_ []) = .next u ∧ u.mem = s.mem ∧ u.mgmt = { s.mgmt with armed := false } ∧
      ∀ q ∈ s.logical, (s.core q).contained = false →
        if (s.core q).trap.pend.any (fun p => p.2 == 15) then (u.core q).trap = (s.core q).trap
        else (u.core q).trap.events = [(causeDeadlock, 0, 0)] ∧ (s.cycle, 15) ∈ (u.core q).trap.pend) ∧
    (s.mgmt.armed = false ∨ s.mgmt.hwake = true ∨ s.allQuiet = false → exec .deadlock (at_ []) = .next (at_ [])) ∧
    (s.mgmt.hwake = true → s.mgmt.quietNow = false → s.allQuiet = true → ∃ u : State, exec .quietPeriod (at_ []) = .next u ∧
      u.mem = s.mem ∧ u.cores = s.cores ∧ u.mgmt = { s.mgmt with quietNow := true } ∧
      (u.link 0).msix = 1 :: (s.link 0).msix ∧ (u.link 1).msix = 1 :: (s.link 1).msix) ∧
    (s.rectangle c = [] → exec .containment (at_ [c]) = .next (at_ [c])) ∧
    (∀ q, s.rectangle c = [q] → (s.core q).groups = [] → (s.core q).deals = [] → (∀ d ∈ s.dies, d.2.streams = []) →
      s.barriers = [] → ∃ u : State, exec .containment (at_ [c]) = .next u ∧ (u.core q).contained = true ∧
        (∀ n, n < 16 → (u.slot q n).run = .contained) ∧ (u.core q).inbox = [] ∧ (u.core q).resv = [] ∧ q ∈ u.mgmt.told ∧
        (∀ e ∈ (u.core q).log.ents, e ∈ (s.core q).log.ents ∧ e.pos < max (s.core q).log.pubVault (s.core q).log.comp) ∧
        (u.link 0).msix = 3 :: (s.link 0).msix ∧ (u.link 1).msix = 3 :: (s.link 1).msix)


/-! The machine as a whole: decoding, the step, reset, and what every step keeps. -/

/-- R101–R112, by the examples of the chapter on encoding: these chains are these instructions, and these are none. -/
def Obligations.DecodedWords : Prop :=
  decode [0x1000] = .ok ⟨false, 0⟩ (.addi .w64 0 0 ⟨0, 0⟩) 1 0x1000 0 ∧
  decode [0xF220, 0x0341] = .ok ⟨false, 0⟩ (.add .w64 35 4 33) 2 0x0341 1 ∧
  decode [0xE012, 0xD734] = .ok ⟨false, 0⟩ (.li 7 ⟨1, 0x1234⟩) 2 0xD734 1 ∧
  decode [0xD7FD] = .ok ⟨false, 0⟩ (.li 7 ⟨0, 0xFD⟩) 1 0xD7FD 0 ∧
  decode [0xF408, 0xF002, 0x1423] = .ok ⟨false, 2⟩ (.vfma .f32 .rne 4 2 (.vec 3)) 3 0x1423 2 ∧
  decode [0xF40C, 0xF009, 0x0526] = .ok ⟨true, 1⟩ (.ld .i64 5 2 6) 3 0x0526 2 ∧
  decode [0xF414, 0xF940, 0x0000] = .ok ⟨false, 0⟩ (.rel .die) 3 0x0000 2 ∧
  decode [0xCFF0] = .ok ⟨false, 0⟩ (.br 0xFF0) 1 0xCFF0 0 ∧
  decode [0xFC00] = .ill .illPrefix 0xFC00 0 ∧ decode [0xF401, 0x0000] = .ill .illField 0xF401 0 ∧
  decode [0xF424, 0x0000] = .ill .illOp 0x0000 1

/-- R98–R116. Every well-formed instruction whose prefixes are at most four is read back from its own chain, with its guard,
its whole length and every operand; the rows that a command's block tells apart share their words (R272, R286). -/
def Obligations.EncodeDecode : Prop :=
  (∀ (gd : Guard) (i : Instr), i.wf = true → i.fits gd = true → i.fields ≠ none →
    (∀ sc a, i ∉ [Instr.cpyMulticast a, .cpyConvert a, .collReduceScatter sc a, .collAllGather sc a, .collXorParity sc a]) →
    ∃ base pos, decode (encode gd i) = .ok gd i (encode gd i).length base pos ∧
      (encode gd i).getLast? = some base ∧ pos + 1 = (encode gd i).length) ∧
  ∀ (gd : Guard) (sc : Scope) (a : Vr), encode gd (.cpyMulticast a) = encode gd (.cpy a) ∧
    encode gd (.cpyConvert a) = encode gd (.cpy a) ∧
    ∀ i ∈ [Instr.collReduceScatter sc a, .collAllGather sc a, .collXorParity sc a],
      encode gd i = encode gd (.collAllreduce sc a)

/-- R17, R38, R100, R115, R116, R133, R157, R198 and R425. A step performs the event at the head of the agenda; else the next
core's slot of this clock has its turn; else the next access of an engine is made; else the clock ends. A slot that runs, with
nothing that holds it back, runs the instruction that the halfwords at its program counter decode to, once the register cache
holds its lines; a chain that is no instruction and a failed check trap; one whose lines or translations are missing parks. The
model's choices: the order of what happens on one clock (log entry 12), the fields that say what is due (log entry 11), and that a
parked strand's program counter stays at the instruction it waits in (log entry 50). -/
def Obligations.StepRunsDecoded : Prop :=
  ∀ s : State,
    (∀ e rest, s.agenda = e :: rest → step s = exec e.ev { s with agenda := rest, evt := e.args }) ∧
    (∀ e rest, s.agenda = [] → s.turns = [] → s.tail = e :: rest → step s = exec e.ev { s with tail := rest, evt := e.args }) ∧
    (s.agenda = [] → s.turns = [] → s.tail = [] → step s = .next s.tick) ∧
    ∀ c rest, s.agenda = [] → s.turns = c :: rest →
      let n := s.cycle % 16
      let u : State := { s with turns := rest }
      let t := u.slot c n
      let no : Machine.Chain := ⟨⟨false, 0⟩, .illegalEncoding, 1, 0, 0⟩
      (t.run ≠ .running → step s = .next u) ∧
      (t.run = .running → t.lead = false → t.trail = false → (u.core c).contained = false →
        (n = 15 → (u.core c).trap.readyAt ≤ s.cycle ∧ (u.core c).trap.fills = []) → t.idle ≤ s.cycle →
        (∀ g, u.group? c t.bank = some g → g.settled = true) → t.vready ≤ s.cycle → t.later = [] →
        (∀ hs gd i len base pos, hs.length = len → decode hs = .ok gd i len base pos →
          (∀ j h, hs[j]? = some h → ∃ x, u.checkFetch c n (t.pc + 2 * j) = .ok x ∧
            u.codeLost x (t.pc + 2 * j) = none ∧ u.codeHalf x (t.pc + 2 * j) = h) →
          u.fetch c n = .dec (.ok gd i len base pos)) ∧
        (∀ gd i len base pos, u.fetch c n = .dec (.ok gd i len base pos) →
          let x : Machine.Chain := ⟨gd, i, len, base, pos⟩
          (u.missingLines c n gd i = [] → let j := u.rowFor c n i
            let v := (u.touchRegs c n x).onSlot c n fun t => { t with doing := none }
            step s = exec j (((v.withIssue c n x).noteUrgent c n).countIssue c n j)) ∧
          (u.missingLines c n gd i ≠ [] → step s = .next (u.fillLines c n (u.linesFor c n gd i) (u.missingLines c n gd i)))) ∧
        (∀ cause a v, u.fetch c n = .fault cause a v → step s =
          exec .instructionFetchFault { (u.withIssue c n no).noteUrgent c n with evt := [cause, a, v] }) ∧
        (∀ ps, u.fetch c n = .walk ps → ∃ v : State, step s = .next v ∧ (v.slot c n).run = .parked ∧ (v.slot c n).why = .walk ∧
          (v.slot c n).pc = t.pc ∧ v.mem = s.mem) ∧
        (∀ cause h p, u.fetch c n = .dec (.ill cause h p) → ∃ code : Nat,
          code = (match cause with | .illOp => 1 | .illPrefix => 2 | .illField => 3) ∧
          let v := ((u.withIssue c n { no with base := h, pos := p }).noteUrgent c n).countIssue c n .illegalEncoding
          step s = exec .illegalEncoding { v with evt := [code, h.toNat, p] }))

/-- R125, R136–R141, R186, R386 and R393. At power-on nothing runs and the start sequence is due; every slot is empty with its
registers at their reset values, and so are the control registers of a core and of a die. That a byte nothing has written
reads as zero is the model's choice (log entry 1). -/
def Obligations.ResetState : Prop :=
  let s := State.reset
  s.agenda = [⟨.stagedStart, []⟩] ∧ s.turns = [] ∧ s.cycle = 0 ∧ s.mgmt.stg = 0 ∧ s.mgmt.hwake = false ∧
  (∀ q, SMap.get s.mgmt.qres q 16 = 16) ∧ Memory.wf s.mem = true ∧ (∀ a, s.readByte a = 0) ∧ (∀ a, s.tagAt a = false) ∧
  (∀ c n, let t := s.slot c n
    t.run = .empty ∧ t.world = (n == 15) ∧ t.strand = 0 ∧ t.group = 0 ∧ t.launch = 0 ∧ t.tcause = 0 ∧ t.taddr = 0 ∧
    t.tvalue = 0 ∧ (∀ r, s.gprAt c n r = 0) ∧ (∀ r, s.vecAt c n r = 0) ∧ (∀ r, s.capAt c n r = ⟨0, false⟩) ∧
    ∀ p, s.predAt c n p = if p = 0 then BitVec.allOnes 256 else 0) ∧
  (∀ c, let k := s.core c
    k.urglim = 0x10000 ∧ k.shwloss = 0 ∧ k.log.tail = 0 ∧ k.log.pubVault = 0 ∧ k.log.comp = 0 ∧ k.log.recl = 0 ∧
    k.log.size = 16 ∧ k.mirsize = 16 ∧ k.arbw = 0 ∧ k.tldw = 0 ∧ k.context = 0x73 ∧ (∀ i, SMap.get k.evc i 0 = 0)) ∧
  ∀ d, let k := s.die d
    k.refcfg = 0x00B41554 ∧ k.rect = 9 ∧ ∀ i, SMap.get k.win i 0 = 0

/-- R186. Every step keeps memory in its one canonical form: addresses rise, and no cell holds what an unlisted address reads
as. -/
def Obligations.MemoryInvariant : Prop :=
  ∀ s t : State, Memory.wf s.mem = true → step s = .next t → Memory.wf t.mem = true
end

