-- ==== Sys2Proof/Laws/Exec.lean ====
section
/-!
SUPPORT. Which meaning each instruction has: the arms of exec, one equation each, so that no proof unfolds the dispatch.
-/
namespace Sys2Proof.Machine

variable (s : State)

theorem exec_add (w : Width) (d : Gpr) (a : Gpr) (b : Gpr) : exec (.add w d a b) s = execAdd w d a b s := rfl
theorem exec_min (w : Width) (d : Gpr) (a : Gpr) (b : Gpr) : exec (.min w d a b) s = execMin w d a b s := rfl
theorem exec_max (w : Width) (d : Gpr) (a : Gpr) (b : Gpr) : exec (.max w d a b) s = execMax w d a b s := rfl
theorem exec_minn (w : Width) (d : Gpr) (a : Gpr) (b : Gpr) : exec (.minn w d a b) s = execMinn w d a b s := rfl
theorem exec_maxn (w : Width) (d : Gpr) (a : Gpr) (b : Gpr) : exec (.maxn w d a b) s = execMaxn w d a b s := rfl
theorem exec_addi (w : Width) (d : Gpr) (a : Gpr) (i : Imm) : exec (.addi w d a i) s = execAddi w d a i s := rfl
theorem exec_sub (w : Width) (d : Gpr) (a : Gpr) (b : Gpr) : exec (.sub w d a b) s = execSub w d a b s := rfl
theorem exec_and (w : Width) (d : Gpr) (a : Gpr) (b : Gpr) : exec (.and w d a b) s = execAnd w d a b s := rfl
theorem exec_or (w : Width) (d : Gpr) (a : Gpr) (b : Gpr) : exec (.or w d a b) s = execOr w d a b s := rfl
theorem exec_xor (w : Width) (d : Gpr) (a : Gpr) (b : Gpr) : exec (.xor w d a b) s = execXor w d a b s := rfl
theorem exec_andn (w : Width) (d : Gpr) (a : Gpr) (b : Gpr) : exec (.andn w d a b) s = execAndn w d a b s := rfl
theorem exec_orn (w : Width) (d : Gpr) (a : Gpr) (b : Gpr) : exec (.orn w d a b) s = execOrn w d a b s := rfl
theorem exec_xnor (w : Width) (d : Gpr) (a : Gpr) (b : Gpr) : exec (.xnor w d a b) s = execXnor w d a b s := rfl
theorem exec_shl (w : Width) (d : Gpr) (a : Gpr) (b : Gpr) : exec (.shl w d a b) s = execShl w d a b s := rfl
theorem exec_shr (w : Width) (d : Gpr) (a : Gpr) (b : Gpr) : exec (.shr w d a b) s = execShr w d a b s := rfl
theorem exec_sra (w : Width) (d : Gpr) (a : Gpr) (b : Gpr) : exec (.sra w d a b) s = execSra w d a b s := rfl
theorem exec_rol (w : Width) (d : Gpr) (a : Gpr) (b : Gpr) : exec (.rol w d a b) s = execRol w d a b s := rfl
theorem exec_ror (w : Width) (d : Gpr) (a : Gpr) (b : Gpr) : exec (.ror w d a b) s = execRor w d a b s := rfl
theorem exec_shli (w : Width) (d : Gpr) (a : Gpr) (i : Imm) : exec (.shli w d a i) s = execShli w d a i s := rfl
theorem exec_shri (w : Width) (d : Gpr) (a : Gpr) (i : Imm) : exec (.shri w d a i) s = execShri w d a i s := rfl
theorem exec_srai (w : Width) (d : Gpr) (a : Gpr) (i : Imm) : exec (.srai w d a i) s = execSrai w d a i s := rfl
theorem exec_roli (w : Width) (d : Gpr) (a : Gpr) (i : Imm) : exec (.roli w d a i) s = execRoli w d a i s := rfl
theorem exec_rori (w : Width) (d : Gpr) (a : Gpr) (i : Imm) : exec (.rori w d a i) s = execRori w d a i s := rfl
theorem exec_mul (w : Width) (d : Gpr) (a : Gpr) (b : Gpr) : exec (.mul w d a b) s = execMul w d a b s := rfl
theorem exec_mulh (w : Width) (d : Gpr) (a : Gpr) (b : Gpr) : exec (.mulh w d a b) s = execMulh w d a b s := rfl
theorem exec_mulhn (w : Width) (d : Gpr) (a : Gpr) (b : Gpr) : exec (.mulhn w d a b) s = execMulhn w d a b s := rfl
theorem exec_div (w : Width) (d : Gpr) (a : Gpr) (b : Gpr) : exec (.div w d a b) s = execDiv w d a b s := rfl
theorem exec_divn (w : Width) (d : Gpr) (a : Gpr) (b : Gpr) : exec (.divn w d a b) s = execDivn w d a b s := rfl
theorem exec_rem (w : Width) (d : Gpr) (a : Gpr) (b : Gpr) : exec (.rem w d a b) s = execRem w d a b s := rfl
theorem exec_remn (w : Width) (d : Gpr) (a : Gpr) (b : Gpr) : exec (.remn w d a b) s = execRemn w d a b s := rfl
theorem exec_cmpeq (w : Width) (d : Pr) (a : Gpr) (b : Gpr) : exec (.cmpeq w d a b) s = execCmpeq w d a b s := rfl
theorem exec_cmpne (w : Width) (d : Pr) (a : Gpr) (b : Gpr) : exec (.cmpne w d a b) s = execCmpne w d a b s := rfl
theorem exec_cmplt (w : Width) (d : Pr) (a : Gpr) (b : Gpr) : exec (.cmplt w d a b) s = execCmplt w d a b s := rfl
theorem exec_cmple (w : Width) (d : Pr) (a : Gpr) (b : Gpr) : exec (.cmple w d a b) s = execCmple w d a b s := rfl
theorem exec_cmpltn (w : Width) (d : Pr) (a : Gpr) (b : Gpr) : exec (.cmpltn w d a b) s = execCmpltn w d a b s := rfl
theorem exec_cmplen (w : Width) (d : Pr) (a : Gpr) (b : Gpr) : exec (.cmplen w d a b) s = execCmplen w d a b s := rfl
theorem exec_cmpeqi (w : Width) (d : Pr) (a : Gpr) (i : Imm) : exec (.cmpeqi w d a i) s = execCmpeqi w d a i s := rfl
theorem exec_cmpnei (w : Width) (d : Pr) (a : Gpr) (i : Imm) : exec (.cmpnei w d a i) s = execCmpnei w d a i s := rfl
theorem exec_cmplti (w : Width) (d : Pr) (a : Gpr) (i : Imm) : exec (.cmplti w d a i) s = execCmplti w d a i s := rfl
theorem exec_cmplei (w : Width) (d : Pr) (a : Gpr) (i : Imm) : exec (.cmplei w d a i) s = execCmplei w d a i s := rfl
theorem exec_cmpltni (w : Width) (d : Pr) (a : Gpr) (i : Imm) : exec (.cmpltni w d a i) s = execCmpltni w d a i s := rfl
theorem exec_cmpleni (w : Width) (d : Pr) (a : Gpr) (i : Imm) : exec (.cmpleni w d a i) s = execCmpleni w d a i s := rfl
theorem exec_mov (d : Gpr) (a : Gpr) : exec (.mov d a) s = execMov d a s := rfl
theorem exec_movCap (d : Kr) (a : Kr) : exec (.movCap d a) s = execMovCap d a s := rfl
theorem exec_neg (w : Width) (d : Gpr) (a : Gpr) : exec (.neg w d a) s = execNeg w d a s := rfl
theorem exec_not (w : Width) (d : Gpr) (a : Gpr) : exec (.not w d a) s = execNot w d a s := rfl
theorem exec_clz (w : Width) (d : Gpr) (a : Gpr) : exec (.clz w d a) s = execClz w d a s := rfl
theorem exec_ctz (w : Width) (d : Gpr) (a : Gpr) : exec (.ctz w d a) s = execCtz w d a s := rfl
theorem exec_popc (w : Width) (d : Gpr) (a : Gpr) : exec (.popc w d a) s = execPopc w d a s := rfl
theorem exec_sext (w : Width) (d : Gpr) (a : Gpr) : exec (.sext w d a) s = execSext w d a s := rfl
theorem exec_zext (w : Width) (d : Gpr) (a : Gpr) : exec (.zext w d a) s = execZext w d a s := rfl
theorem exec_bswap (w : Width) (d : Gpr) (a : Gpr) : exec (.bswap w d a) s = execBswap w d a s := rfl
theorem exec_sel (d : Gpr) (a : Gpr) (b : Gpr) : exec (.sel d a b) s = execSel d a b s := rfl
theorem exec_lih (d : Gpr) (i : Imm) : exec (.lih d i) s = execLih d i s := rfl
theorem exec_br (o : BitVec 12) : exec (.br o) s = execBr o s := rfl
theorem exec_li (d : Gpr) (i : Imm) : exec (.li d i) s = execLi d i s := rfl
theorem exec_jmp (t : Target) : exec (.jmp t) s = execJmp t s := rfl
theorem exec_call (d : Gpr) (t : Target) : exec (.call d t) s = execCall d t s := rfl
theorem exec_ret (t : RetTarget) : exec (.ret t) s = execRet t s := rfl
theorem exec_vadd (w : Width) (d : Vr) (a : Vr) (b : Vr) : exec (.vadd w d a b) s = execVadd w d a b s := rfl
theorem exec_vsub (w : Width) (d : Vr) (a : Vr) (b : Vr) : exec (.vsub w d a b) s = execVsub w d a b s := rfl
theorem exec_vmin (w : Width) (d : Vr) (a : Vr) (b : Vr) : exec (.vmin w d a b) s = execVmin w d a b s := rfl
theorem exec_vmax (w : Width) (d : Vr) (a : Vr) (b : Vr) : exec (.vmax w d a b) s = execVmax w d a b s := rfl
theorem exec_vminn (w : Width) (d : Vr) (a : Vr) (b : Vr) : exec (.vminn w d a b) s = execVminn w d a b s := rfl
theorem exec_vmaxn (w : Width) (d : Vr) (a : Vr) (b : Vr) : exec (.vmaxn w d a b) s = execVmaxn w d a b s := rfl
theorem exec_vadds (w : Width) (n : Bool) (d : Vr) (a : Vr) (b : Vr) : exec (.vadds w n d a b) s = execVadds w n d a b s := rfl
theorem exec_vsubs (w : Width) (n : Bool) (d : Vr) (a : Vr) (b : Vr) : exec (.vsubs w n d a b) s = execVsubs w n d a b s := rfl
theorem exec_vmul (w : Width) (d : Vr) (a : Vr) (b : Vr) : exec (.vmul w d a b) s = execVmul w d a b s := rfl
theorem exec_vmulh (w : Width) (d : Vr) (a : Vr) (b : Vr) : exec (.vmulh w d a b) s = execVmulh w d a b s := rfl
theorem exec_vmulhn (w : Width) (d : Vr) (a : Vr) (b : Vr) : exec (.vmulhn w d a b) s = execVmulhn w d a b s := rfl
theorem exec_vmad (w : Width) (d : Vr) (a : Vr) (b : Vr) : exec (.vmad w d a b) s = execVmad w d a b s := rfl
theorem exec_vdot4 (n : Bool) (d : Vr) (a : Vr) (b : Vr) : exec (.vdot4 n d a b) s = execVdot4 n d a b s := rfl
theorem exec_vand (w : Width) (d : Vr) (a : Vr) (b : Vr) : exec (.vand w d a b) s = execVand w d a b s := rfl
theorem exec_vor (w : Width) (d : Vr) (a : Vr) (b : Vr) : exec (.vor w d a b) s = execVor w d a b s := rfl
theorem exec_vxor (w : Width) (d : Vr) (a : Vr) (b : Vr) : exec (.vxor w d a b) s = execVxor w d a b s := rfl
theorem exec_vandn (w : Width) (d : Vr) (a : Vr) (b : Vr) : exec (.vandn w d a b) s = execVandn w d a b s := rfl
theorem exec_vshl (w : Width) (d : Vr) (a : Vr) (b : Vr) : exec (.vshl w d a b) s = execVshl w d a b s := rfl
theorem exec_vshr (w : Width) (d : Vr) (a : Vr) (b : Vr) : exec (.vshr w d a b) s = execVshr w d a b s := rfl
theorem exec_vsra (w : Width) (d : Vr) (a : Vr) (b : Vr) : exec (.vsra w d a b) s = execVsra w d a b s := rfl
theorem exec_vcmpeq (w : Width) (d : Pr) (a : Vr) (b : Vr) : exec (.vcmpeq w d a b) s = execVcmpeq w d a b s := rfl
theorem exec_vcmpne (w : Width) (d : Pr) (a : Vr) (b : Vr) : exec (.vcmpne w d a b) s = execVcmpne w d a b s := rfl
theorem exec_vcmplt (w : Width) (d : Pr) (a : Vr) (b : Vr) : exec (.vcmplt w d a b) s = execVcmplt w d a b s := rfl
theorem exec_vcmple (w : Width) (d : Pr) (a : Vr) (b : Vr) : exec (.vcmple w d a b) s = execVcmple w d a b s := rfl
theorem exec_vcmpltn (w : Width) (d : Pr) (a : Vr) (b : Vr) : exec (.vcmpltn w d a b) s = execVcmpltn w d a b s := rfl
theorem exec_vcmplen (w : Width) (d : Pr) (a : Vr) (b : Vr) : exec (.vcmplen w d a b) s = execVcmplen w d a b s := rfl
theorem exec_vsel (d : Vr) (a : Vr) (b : Vr) : exec (.vsel d a b) s = execVsel d a b s := rfl
theorem exec_vbcast (w : Width) (d : Vr) (a : Gpr) : exec (.vbcast w d a) s = execVbcast w d a s := rfl
theorem exec_vbcastImm (w : Width) (d : Vr) (i : Imm) : exec (.vbcastImm w d i) s = execVbcastImm w d i s := rfl
theorem exec_viota (w : Width) (d : Vr) (a : Gpr) : exec (.viota w d a) s = execViota w d a s := rfl
theorem exec_vmovpToPred (d : Pr) (a : Vr) : exec (.vmovpToPred d a) s = execVmovpToPred d a s := rfl
theorem exec_vmovpToVec (d : Vr) (a : Pr) : exec (.vmovpToVec d a) s = execVmovpToVec d a s := rfl
theorem exec_vperm (w : Width) (d : Vr) (a : Vr) (b : Vr) : exec (.vperm w d a b) s = execVperm w d a b s := rfl
theorem exec_vrot (w : Width) (d : Vr) (a : Vr) (b : Gpr) : exec (.vrot w d a b) s = execVrot w d a b s := rfl
theorem exec_vzip (w : Width) (d : Vr) (a : Vr) (b : Vr) : exec (.vzip w d a b) s = execVzip w d a b s := rfl
theorem exec_vunzip (w : Width) (d : Vr) (a : Vr) (b : Vr) : exec (.vunzip w d a b) s = execVunzip w d a b s := rfl
theorem exec_vredadd (w : Width) (d : Gpr) (a : Vr) : exec (.vredadd w d a) s = execVredadd w d a s := rfl
theorem exec_vredmin (w : Width) (n : Bool) (d : Gpr) (a : Vr) : exec (.vredmin w n d a) s = execVredmin w n d a s := rfl
theorem exec_vredmax (w : Width) (n : Bool) (d : Gpr) (a : Vr) : exec (.vredmax w n d a) s = execVredmax w n d a s := rfl
theorem exec_vredand (w : Width) (d : Gpr) (a : Vr) : exec (.vredand w d a) s = execVredand w d a s := rfl
theorem exec_vredor (w : Width) (d : Gpr) (a : Vr) : exec (.vredor w d a) s = execVredor w d a s := rfl
theorem exec_vscanadd (w : Width) (d : Vr) (a : Vr) : exec (.vscanadd w d a) s = execVscanadd w d a s := rfl
theorem exec_vscanmax (w : Width) (n : Bool) (d : Vr) (a : Vr) : exec (.vscanmax w n d a) s = execVscanmax w n d a s := rfl
theorem exec_vextr (w : Width) (n : Bool) (d : Gpr) (a : Vr) (b : Gpr) : exec (.vextr w n d a b) s = execVextr w n d a b s := rfl
theorem exec_vins (w : Width) (d : Vr) (a : Gpr) (b : Gpr) : exec (.vins w d a b) s = execVins w d a b s := rfl
theorem exec_pand (d : Pr) (a : Pr) (b : Pr) : exec (.pand d a b) s = execPand d a b s := rfl
theorem exec_por (d : Pr) (a : Pr) (b : Pr) : exec (.por d a b) s = execPor d a b s := rfl
theorem exec_pxor (d : Pr) (a : Pr) (b : Pr) : exec (.pxor d a b) s = execPxor d a b s := rfl
theorem exec_pnot (d : Pr) (a : Pr) : exec (.pnot d a) s = execPnot d a s := rfl
theorem exec_pcnt (d : Gpr) (a : Pr) : exec (.pcnt d a) s = execPcnt d a s := rfl
theorem exec_pfirst (d : Pr) (a : Pr) : exec (.pfirst d a) s = execPfirst d a s := rfl
theorem exec_vfadd (t : VTy) (r : Rnd) (d : Vr) (a : Vr) (b : FSrc) : exec (.vfadd t r d a b) s = execVfadd t r d a b s := rfl
theorem exec_vfsub (t : VTy) (r : Rnd) (d : Vr) (a : Vr) (b : FSrc) : exec (.vfsub t r d a b) s = execVfsub t r d a b s := rfl
theorem exec_vfmul (t : VTy) (r : Rnd) (d : Vr) (a : Vr) (b : FSrc) : exec (.vfmul t r d a b) s = execVfmul t r d a b s := rfl
theorem exec_vfmin (t : VTy) (d : Vr) (a : Vr) (b : FSrc) : exec (.vfmin t d a b) s = execVfmin t d a b s := rfl
theorem exec_vfmax (t : VTy) (d : Vr) (a : Vr) (b : FSrc) : exec (.vfmax t d a b) s = execVfmax t d a b s := rfl
theorem exec_vfma (t : VTy) (r : Rnd) (d : Vr) (a : Vr) (b : FSrc) : exec (.vfma t r d a b) s = execVfma t r d a b s := rfl
theorem exec_vfms (t : VTy) (r : Rnd) (d : Vr) (a : Vr) (b : FSrc) : exec (.vfms t r d a b) s = execVfms t r d a b s := rfl
theorem exec_vfnma (t : VTy) (r : Rnd) (d : Vr) (a : Vr) (b : FSrc) : exec (.vfnma t r d a b) s = execVfnma t r d a b s := rfl
theorem exec_vfdiv (t : VTy) (r : Rnd) (d : Vr) (a : Vr) (b : Vr) : exec (.vfdiv t r d a b) s = execVfdiv t r d a b s := rfl
theorem exec_vfsqrt (t : VTy) (r : Rnd) (d : Vr) (a : Vr) : exec (.vfsqrt t r d a) s = execVfsqrt t r d a s := rfl
theorem exec_vfrcp (t : VTy) (d : Vr) (a : Vr) : exec (.vfrcp t d a) s = execVfrcp t d a s := rfl
theorem exec_vfrsq (t : VTy) (d : Vr) (a : Vr) : exec (.vfrsq t d a) s = execVfrsq t d a s := rfl
theorem exec_vfcmpeq (t : VTy) (d : Pr) (a : Vr) (b : Vr) : exec (.vfcmpeq t d a b) s = execVfcmpeq t d a b s := rfl
theorem exec_vfcmpne (t : VTy) (d : Pr) (a : Vr) (b : Vr) : exec (.vfcmpne t d a b) s = execVfcmpne t d a b s := rfl
theorem exec_vfcmplt (t : VTy) (d : Pr) (a : Vr) (b : Vr) : exec (.vfcmplt t d a b) s = execVfcmplt t d a b s := rfl
theorem exec_vfcmple (t : VTy) (d : Pr) (a : Vr) (b : Vr) : exec (.vfcmple t d a b) s = execVfcmple t d a b s := rfl
theorem exec_vfcmpun (t : VTy) (d : Pr) (a : Vr) (b : Vr) : exec (.vfcmpun t d a b) s = execVfcmpun t d a b s := rfl
theorem exec_vcvt (c : Cvt) (r : Rnd) (n : Bool) (d : Vr) (a : Vr) : exec (.vcvt c r n d a) s = execVcvt c r n d a s := rfl
theorem exec_vqmx (t : STy) (m : MTy) (n : Bool) (d : Vr) (a : Vr) : exec (.vqmx t m n d a) s = execVqmx t m n d a s := rfl
theorem exec_vdqmx (t : STy) (m : MTy) (d : Vr) (a : Vr) : exec (.vdqmx t m d a) s = execVdqmx t m d a s := rfl
theorem exec_vfexp2 (t : STy) (d : Vr) (a : Vr) : exec (.vfexp2 t d a) s = execVfexp2 t d a s := rfl
theorem exec_vflog2 (t : STy) (d : Vr) (a : Vr) : exec (.vflog2 t d a) s = execVflog2 t d a s := rfl
theorem exec_vftanh (t : STy) (d : Vr) (a : Vr) : exec (.vftanh t d a) s = execVftanh t d a s := rfl
theorem exec_vfsigm (t : STy) (d : Vr) (a : Vr) : exec (.vfsigm t d a) s = execVfsigm t d a s := rfl
theorem exec_vsmx (c : BitVec 3) (d : Vr) (a : Vr) (b : Vr) : exec (.vsmx c d a b) s = execVsmx c d a b s := rfl
theorem exec_vfredadd (t : VTy) (r : Rnd) (d : Gpr) (a : Vr) : exec (.vfredadd t r d a) s = execVfredadd t r d a s := rfl
theorem exec_vfredmax (t : VTy) (d : Gpr) (a : Vr) : exec (.vfredmax t d a) s = execVfredmax t d a s := rfl
theorem exec_vfredmin (t : VTy) (d : Gpr) (a : Vr) : exec (.vfredmin t d a) s = execVfredmin t d a s := rfl
theorem exec_vfabs (t : VTy) (d : Vr) (a : Vr) : exec (.vfabs t d a) s = execVfabs t d a s := rfl
theorem exec_vfneg (t : VTy) (d : Vr) (a : Vr) : exec (.vfneg t d a) s = execVfneg t d a s := rfl
theorem exec_vfclass (t : VTy) (d : Vr) (a : Vr) : exec (.vfclass t d a) s = execVfclass t d a s := rfl
theorem exec_ld (t : MemTy) (d : Gpr) (k : Kr) (b : Gpr) : exec (.ld t d k b) s = execLd t d k b s := rfl
theorem exec_ldi (t : MemTy) (d : Gpr) (k : Kr) (i : Imm) : exec (.ldi t d k i) s = execLdi t d k i s := rfl
theorem exec_st (t : MemTy) (d : Gpr) (k : Kr) (b : Gpr) : exec (.st t d k b) s = execSt t d k b s := rfl
theorem exec_sti (t : MemTy) (d : Gpr) (k : Kr) (i : Imm) : exec (.sti t d k i) s = execSti t d k i s := rfl
theorem exec_vld (w : Width) (d : Vr) (k : Kr) (x : VIdx) : exec (.vld w d k x) s = execVld w d k x s := rfl
theorem exec_vst (w : Width) (d : Vr) (k : Kr) (x : VIdx) : exec (.vst w d k x) s = execVst w d k x s := rfl
theorem exec_tld (e : TElem) (x9 : BitVec 4) (tr : BitVec 2) (d : Ob) (k : Kr) (x : Idx) : exec (.tld e x9 tr d k x) s = execTld e x9 tr d k x s := rfl
theorem exec_rowact (k : Kr) (x : Idx) : exec (.rowact k x) s = execRowact k x s := rfl
theorem exec_rowpre (k : Kr) (x : Idx) : exec (.rowpre k x) s = execRowpre k x s := rfl
theorem exec_capld (d : Kr) (k : Kr) (b : Gpr) : exec (.capld d k b) s = execCapld d k b s := rfl
theorem exec_capst (d : Kr) (k : Kr) (b : Gpr) : exec (.capst d k b) s = execCapst d k b s := rfl
theorem exec_capnarrow (d : Kr) (k : Kr) (b : Gpr) : exec (.capnarrow d k b) s = execCapnarrow d k b s := rfl
theorem exec_capoff (d : Gpr) (k : Kr) (x9 : BitVec 3) : exec (.capoff d k x9) s = execCapoff d k x9 s := rfl
theorem exec_mma (ov : Bool) (nt : Bool) (d : Acc) (a : Ob) (b : Ob) : exec (.mma ov nt d a b) s = execMma ov nt d a b s := rfl
theorem exec_mmas (ov : Bool) (nt : Bool) (d : Acc) (a : Ob) (b : Ob) : exec (.mmas ov nt d a b) s = execMmas ov nt d a b s := rfl
theorem exec_mzero (d : Acc) : exec (.mzero d) s = execMzero d s := rfl
theorem exec_mfmt (f : MFmt) : exec (.mfmt f) s = execMfmt f s := rfl
theorem exec_tst (d : Acc) (k : Kr) (x : Idx) : exec (.tst d k x) s = execTst d k x s := rfl
theorem exec_mepi (m : BitVec 3) (t : FTy) (r : Rnd) (n : Bool) (a : Vr) : exec (.mepi m t r n a) s = execMepi m t r n a s := rfl
theorem exec_tldacc (d : Acc) (k : Kr) (x : Idx) : exec (.tldacc d k x) s = execTldacc d k x s := rfl
theorem exec_obput (d : ObAcc) (a : Vr) (b : Gpr) : exec (.obput d a b) s = execObput d a b s := rfl
theorem exec_obget (d : Vr) (a : ObAcc) (b : Gpr) : exec (.obget d a b) s = execObget d a b s := rfl
theorem exec_mstat (d : Gpr) (x9 : BitVec 2) : exec (.mstat d x9) s = execMstat d x9 s := rfl
theorem exec_mfence : exec .mfence s = execMfence s := rfl
theorem exec_mfenceCore : exec .mfenceCore s = execMfenceCore s := rfl
theorem exec_rel (sc : Scope) : exec (.rel sc) s = execRel sc s := rfl
theorem exec_acq (sc : Scope) (d : Pr) (a : Gpr) : exec (.acq sc d a) s = execAcq sc d a s := rfl
theorem exec_fence (sc : Scope) : exec (.fence sc) s = execFence sc s := rfl
theorem exec_amoadd (t : AmoTy) (d : Gpr) (k : Kr) (x : Idx) (x9 : BitVec 3) : exec (.amoadd t d k x x9) s = execAmoadd t d k x x9 s := rfl
theorem exec_amomin (t : AmoTy) (d : Gpr) (k : Kr) (x : Idx) (x9 : BitVec 3) : exec (.amomin t d k x x9) s = execAmomin t d k x x9 s := rfl
theorem exec_amomax (t : AmoTy) (d : Gpr) (k : Kr) (x : Idx) (x9 : BitVec 3) : exec (.amomax t d k x x9) s = execAmomax t d k x x9 s := rfl
theorem exec_amoand (t : AmoTy) (d : Gpr) (k : Kr) (x : Idx) (x9 : BitVec 3) : exec (.amoand t d k x x9) s = execAmoand t d k x x9 s := rfl
theorem exec_amoor (t : AmoTy) (d : Gpr) (k : Kr) (x : Idx) (x9 : BitVec 3) : exec (.amoor t d k x x9) s = execAmoor t d k x x9 s := rfl
theorem exec_amoxor (t : AmoTy) (d : Gpr) (k : Kr) (x : Idx) (x9 : BitVec 3) : exec (.amoxor t d k x x9) s = execAmoxor t d k x x9 s := rfl
theorem exec_amoswap (t : AmoTy) (d : Gpr) (k : Kr) (x : Idx) (x9 : BitVec 3) : exec (.amoswap t d k x x9) s = execAmoswap t d k x x9 s := rfl
theorem exec_cas (t : AmoTy) (d : Gpr) (k : Kr) (x : Idx) : exec (.cas t d k x) s = execCas t d k x s := rfl
theorem exec_ldc (d : Gpr) (k : Kr) (x : Idx) : exec (.ldc d k x) s = execLdc d k x s := rfl
theorem exec_ldf (d : Gpr) (k : Kr) (x : Idx) : exec (.ldf d k x) s = execLdf d k x s := rfl
theorem exec_stp (d : Gpr) (k : Kr) (x : Idx) : exec (.stp d k x) s = execStp d k x s := rfl
theorem exec_sete (k : Kr) (x : Idx) : exec (.sete k x) s = execSete k x s := rfl
theorem exec_setf (d : Gpr) (k : Kr) (x : Idx) : exec (.setf d k x) s = execSetf d k x s := rfl
theorem exec_feq (d : Gpr) (k : Kr) (x : Idx) : exec (.feq d k x) s = execFeq d k x s := rfl
theorem exec_swarm (sc : Scope) (d : Gpr) (k : Kr) (x : Idx) : exec (.swarm sc d k x) s = execSwarm sc d k x s := rfl
theorem exec_swwait (d : Gpr) (k : Kr) (x : Idx) : exec (.swwait d k x) s = execSwwait d k x s := rfl
theorem exec_swadd (sc : Scope) (d : Gpr) (k : Kr) (x : Idx) : exec (.swadd sc d k x) s = execSwadd sc d k x s := rfl
theorem exec_swrd (d : Gpr) (k : Kr) (x : Idx) : exec (.swrd d k x) s = execSwrd d k x s := rfl
theorem exec_bar (sc : Scope) : exec (.bar sc) s = execBar sc s := rfl
theorem exec_logq (d : Gpr) (a : Gpr) (x9 : BitVec 4) : exec (.logq d a x9) s = execLogq d a x9 s := rfl
theorem exec_mirfl (d : Gpr) (k : Kr) (b : Gpr) : exec (.mirfl d k b) s = execMirfl d k b s := rfl
theorem exec_mirflAll : exec .mirflAll s = execMirflAll s := rfl
theorem exec_cpy (a : Vr) : exec (.cpy a) s = execCpy a s := rfl
theorem exec_cpyMulticast (a : Vr) : exec (.cpyMulticast a) s = execCpyMulticast a s := rfl
theorem exec_cpyConvert (a : Vr) : exec (.cpyConvert a) s = execCpyConvert a s := rfl
theorem exec_cpyf (a : Vr) : exec (.cpyf a) s = execCpyf a s := rfl
theorem exec_collAllreduce (sc : Scope) (a : Vr) : exec (.collAllreduce sc a) s = execCollAllreduce sc a s := rfl
theorem exec_collReduceScatter (sc : Scope) (a : Vr) : exec (.collReduceScatter sc a) s = execCollReduceScatter sc a s := rfl
theorem exec_collAllGather (sc : Scope) (a : Vr) : exec (.collAllGather sc a) s = execCollAllGather sc a s := rfl
theorem exec_collXorParity (sc : Scope) (a : Vr) : exec (.collXorParity sc a) s = execCollXorParity sc a s := rfl
theorem exec_send (u : Bool) (d : Pr) (a : Vr) (b : Gpr) : exec (.send u d a b) s = execSend u d a b s := rfl
theorem exec_recv (d : Gpr) (a : Option Vr) : exec (.recv d a) s = execRecv d a s := rfl
theorem exec_rcallRd (n : BitVec 3) (d : Vr) (k : Kr) (x : Idx) : exec (.rcallRd n d k x) s = execRcallRd n d k x s := rfl
theorem exec_rcallWr (n : BitVec 3) (d : Vr) (k : Kr) (x : Idx) : exec (.rcallWr n d k x) s = execRcallWr n d k x s := rfl
theorem exec_rcallAdd (d : Vr) (k : Kr) (x : Idx) : exec (.rcallAdd d k x) s = execRcallAdd d k x s := rfl
theorem exec_rcallSwap (d : Vr) (k : Kr) (x : Idx) : exec (.rcallSwap d k x) s = execRcallSwap d k x s := rfl
theorem exec_rcallCas (d : Vr) (k : Kr) (x : Idx) : exec (.rcallCas d k x) s = execRcallCas d k x s := rfl
theorem exec_launch (d : Gpr) (a : Vr) (b : Kr) : exec (.launch d a b) s = execLaunch d a b s := rfl
theorem exec_launchi (d : Gpr) (a : Vr) (b : Kr) : exec (.launchi d a b) s = execLaunchi d a b s := rfl
theorem exec_join (d : Gpr) (a : Gpr) : exec (.join d a) s = execJoin d a s := rfl
theorem exec_epoll (d : Gpr) (x9 : BitVec 2) : exec (.epoll d x9) s = execEpoll d x9 s := rfl
theorem exec_sopen (d : Gpr) (a : Vr) : exec (.sopen d a) s = execSopen d a s := rfl
theorem exec_sclose (a : Gpr) : exec (.sclose a) s = execSclose a s := rfl
theorem exec_sframe (d : Pr) (a : Vr) (b : Gpr) : exec (.sframe d a b) s = execSframe d a b s := rfl
theorem exec_sgen (d : Gpr) (a : Gpr) : exec (.sgen d a) s = execSgen d a s := rfl
theorem exec_sgenAbandon (d : Gpr) (a : Gpr) : exec (.sgenAbandon d a) s = execSgenAbandon d a s := rfl
theorem exec_splay (a : Gpr) (b : Gpr) : exec (.splay a b) s = execSplay a b s := rfl
theorem exec_strunc (a : Gpr) (b : Gpr) : exec (.strunc a b) s = execStrunc a b s := rfl
theorem exec_ssnap (d : Gpr) (a : Gpr) (b : Gpr) : exec (.ssnap d a b) s = execSsnap d a b s := rfl
theorem exec_skvaddr (d : Gpr) (a : Gpr) (b : Gpr) : exec (.skvaddr d a b) s = execSkvaddr d a b s := rfl
theorem exec_sstat (d : Vr) (a : Gpr) : exec (.sstat d a) s = execSstat d a s := rfl
theorem exec_scommit (a : Gpr) (b : Gpr) : exec (.scommit a b) s = execScommit a b s := rfl
theorem exec_snext (d : Gpr) (a : Gpr) : exec (.snext d a) s = execSnext d a s := rfl
theorem exec_trap (i : Imm) : exec (.trap i) s = execTrap i s := rfl
theorem exec_tret : exec .tret s = execTret s := rfl
theorem exec_tretHalt : exec .tretHalt s = execTretHalt s := rfl
theorem exec_tretAbort : exec .tretAbort s = execTretAbort s := rfl
theorem exec_csrr (d : Gpr) (i : Imm) : exec (.csrr d i) s = execCsrr d i s := rfl
theorem exec_csrw (a : Gpr) (i : Imm) : exec (.csrw a i) s = execCsrw a i s := rfl
theorem exec_csrwCtxbase (a : Gpr) (i : Imm) : exec (.csrwCtxbase a i) s = execCsrwCtxbase a i s := rfl
theorem exec_csrwLogsize (a : Gpr) (i : Imm) : exec (.csrwLogsize a i) s = execCsrwLogsize a i s := rfl
theorem exec_csrwMirsize (a : Gpr) (i : Imm) : exec (.csrwMirsize a i) s = execCsrwMirsize a i s := rfl
theorem exec_csrwUrglim (a : Gpr) (i : Imm) : exec (.csrwUrglim a i) s = execCsrwUrglim a i s := rfl
theorem exec_csrwSeed (a : Gpr) (i : Imm) : exec (.csrwSeed a i) s = execCsrwSeed a i s := rfl
theorem exec_csrwWinbase (a : Gpr) (i : Imm) : exec (.csrwWinbase a i) s = execCsrwWinbase a i s := rfl
theorem exec_csrwRectdef (a : Gpr) (i : Imm) : exec (.csrwRectdef a i) s = execCsrwRectdef a i s := rfl
theorem exec_yield (a : Gpr) : exec (.yield a) s = execYield a s := rfl
theorem exec_park : exec .park s = execPark s := rfl
theorem exec_wake (a : Gpr) : exec (.wake a) s = execWake a s := rfl
theorem exec_urg (e : BitVec 4) (d : Pr) (a : Gpr) (b : Gpr) : exec (.urg e d a b) s = execUrg e d a b s := rfl
theorem exec_halt : exec .halt s = execHalt s := rfl
theorem exec_regevict (d : Gpr) (a : Gpr) : exec (.regevict d a) s = execRegevict d a s := rfl
theorem exec_regload (d : Gpr) (a : Gpr) : exec (.regload d a) s = execRegload d a s := rfl
theorem exec_cntrd (d : Gpr) (n : BitVec 4) : exec (.cntrd d n) s = execCntrd d n s := rfl
theorem exec_cntclr (a : Gpr) : exec (.cntclr a) s = execCntclr a s := rfl
theorem exec_cntsum (sc : Scope) (d : Gpr) (a : Gpr) : exec (.cntsum sc d a) s = execCntsum sc d a s := rfl
theorem exec_brk (i : Imm) : exec (.brk i) s = execBrk i s := rfl
theorem exec_step : exec .step s = execStep s := rfl
theorem exec_stagedStart : exec .stagedStart s = execStagedStart s := rfl
theorem exec_startEpisode : exec .startEpisode s = execStartEpisode s := rfl
theorem exec_phaekusHeartbeat : exec .phaekusHeartbeat s = execPhaekusHeartbeat s := rfl
theorem exec_failover : exec .failover s = execFailover s := rfl
theorem exec_clockStepChange : exec .clockStepChange s = execClockStepChange s := rfl
theorem exec_quadReservationUpdate : exec .quadReservationUpdate s = execQuadReservationUpdate s := rfl
theorem exec_thermalSample : exec .thermalSample s = execThermalSample s := rfl
theorem exec_vaultRequestArrival : exec .vaultRequestArrival s = execVaultRequestArrival s := rfl
theorem exec_vaultBeat : exec .vaultBeat s = execVaultBeat s := rfl
theorem exec_rowRepairEnd : exec .rowRepairEnd s = execRowRepairEnd s := rfl
theorem exec_refreshStart : exec .refreshStart s = execRefreshStart s := rfl
theorem exec_refreshEnd : exec .refreshEnd s = execRefreshEnd s := rfl
theorem exec_laneFailure : exec .laneFailure s = execLaneFailure s := rfl
theorem exec_laneRepairEnd : exec .laneRepairEnd s = execLaneRepairEnd s := rfl
theorem exec_vaultBusStallEnd : exec .vaultBusStallEnd s = execVaultBusStallEnd s := rfl
theorem exec_writeQueueSend : exec .writeQueueSend s = execWriteQueueSend s := rfl
theorem exec_registerLineFill : exec .registerLineFill s = execRegisterLineFill s := rfl
theorem exec_vectorStart : exec .vectorStart s = execVectorStart s := rfl
theorem exec_yieldEnd : exec .yieldEnd s = execYieldEnd s := rfl
theorem exec_walkStart : exec .walkStart s = execWalkStart s := rfl
theorem exec_walkComplete : exec .walkComplete s = execWalkComplete s := rfl
theorem exec_walkRetry : exec .walkRetry s = execWalkRetry s := rfl
theorem exec_shootdown : exec .shootdown s = execShootdown s := rfl
theorem exec_tableWriteSettled : exec .tableWriteSettled s = execTableWriteSettled s := rfl
theorem exec_fenceMarker : exec .fenceMarker s = execFenceMarker s := rfl
theorem exec_drainedPacket : exec .drainedPacket s = execDrainedPacket s := rfl
theorem exec_logShip : exec .logShip s = execLogShip s := rfl
theorem exec_logEntryApply : exec .logEntryApply s = execLogEntryApply s := rfl
theorem exec_logAck : exec .logAck s = execLogAck s := rfl
theorem exec_homeRead : exec .homeRead s = execHomeRead s := rfl
theorem exec_homeReadReply : exec .homeReadReply s = execHomeReadReply s := rfl
theorem exec_vaultAgentRequest : exec .vaultAgentRequest s = execVaultAgentRequest s := rfl
theorem exec_homeAtomic : exec .homeAtomic s = execHomeAtomic s := rfl
theorem exec_homeFullEmpty : exec .homeFullEmpty s = execHomeFullEmpty s := rfl
theorem exec_homeSyncWord : exec .homeSyncWord s = execHomeSyncWord s := rfl
theorem exec_homeWaitRetry : exec .homeWaitRetry s = execHomeWaitRetry s := rfl
theorem exec_remoteReply : exec .remoteReply s = execRemoteReply s := rfl
theorem exec_postedPerformed : exec .postedPerformed s = execPostedPerformed s := rfl
theorem exec_switchMergeForward : exec .switchMergeForward s = execSwitchMergeForward s := rfl
theorem exec_acqQuery : exec .acqQuery s = execAcqQuery s := rfl
theorem exec_acqWriterDone : exec .acqWriterDone s = execAcqWriterDone s := rfl
theorem exec_logqQuery : exec .logqQuery s = execLogqQuery s := rfl
theorem exec_messageArrival : exec .messageArrival s = execMessageArrival s := rfl
theorem exec_wakeArrival : exec .wakeArrival s = execWakeArrival s := rfl
theorem exec_nakArrival : exec .nakArrival s = execNakArrival s := rfl
theorem exec_handlerDispatch : exec .handlerDispatch s = execHandlerDispatch s := rfl
theorem exec_submissionArrival : exec .submissionArrival s = execSubmissionArrival s := rfl
theorem exec_launchAccept : exec .launchAccept s = execLaunchAccept s := rfl
theorem exec_launchCounted : exec .launchCounted s = execLaunchCounted s := rfl
theorem exec_launchPacketArrival : exec .launchPacketArrival s = execLaunchPacketArrival s := rfl
theorem exec_groupsPending : exec .groupsPending s = execGroupsPending s := rfl
theorem exec_groupStart : exec .groupStart s = execGroupStart s := rfl
theorem exec_dieReport : exec .dieReport s = execDieReport s := rfl
theorem exec_completionRingWrite : exec .completionRingWrite s = execCompletionRingWrite s := rfl
theorem exec_barrierArrival : exec .barrierArrival s = execBarrierArrival s := rfl
theorem exec_energyLeaseRequest : exec .energyLeaseRequest s = execEnergyLeaseRequest s := rfl
theorem exec_energyLeaseGrant : exec .energyLeaseGrant s = execEnergyLeaseGrant s := rfl
theorem exec_copyCommandStart : exec .copyCommandStart s = execCopyCommandStart s := rfl
theorem exec_copySegment : exec .copySegment s = execCopySegment s := rfl
theorem exec_segmentApply : exec .segmentApply s = execSegmentApply s := rfl
theorem exec_copyCompletion : exec .copyCompletion s = execCopyCompletion s := rfl
theorem exec_followOnIssue : exec .followOnIssue s = execFollowOnIssue s := rfl
theorem exec_hostFlushRead : exec .hostFlushRead s = execHostFlushRead s := rfl
theorem exec_collDescriptorArrival : exec .collDescriptorArrival s = execCollDescriptorArrival s := rfl
theorem exec_collInstanceRun : exec .collInstanceRun s = execCollInstanceRun s := rfl
theorem exec_matrixGrant : exec .matrixGrant s = execMatrixGrant s := rfl
theorem exec_matrixPerform : exec .matrixPerform s = execMatrixPerform s := rfl
theorem exec_tstChunkWrite : exec .tstChunkWrite s = execTstChunkWrite s := rfl
theorem exec_flitTransmit : exec .flitTransmit s = execFlitTransmit s := rfl
theorem exec_flitReceive : exec .flitReceive s = execFlitReceive s := rfl
theorem exec_retryRequest : exec .retryRequest s = execRetryRequest s := rfl
theorem exec_trackDeath : exec .trackDeath s = execTrackDeath s := rfl
theorem exec_linkDeath : exec .linkDeath s = execLinkDeath s := rfl
theorem exec_urgentNakResend : exec .urgentNakResend s = execUrgentNakResend s := rfl
theorem exec_endToEndAck : exec .endToEndAck s = execEndToEndAck s := rfl
theorem exec_frameArrival : exec .frameArrival s = execFrameArrival s := rfl
theorem exec_streamOpPerform : exec .streamOpPerform s = execStreamOpPerform s := rfl
theorem exec_truncationEvent : exec .truncationEvent s = execTruncationEvent s := rfl
theorem exec_trapDelivery : exec .trapDelivery s = execTrapDelivery s := rfl
theorem exec_urgRequestArrival : exec .urgRequestArrival s = execUrgRequestArrival s := rfl
theorem exec_urgentEpisodeStart : exec .urgentEpisodeStart s = execUrgentEpisodeStart s := rfl
theorem exec_urgLimit : exec .urgLimit s = execUrgLimit s := rfl
theorem exec_deadlock : exec .deadlock s = execDeadlock s := rfl
theorem exec_quietPeriod : exec .quietPeriod s = execQuietPeriod s := rfl
theorem exec_containment : exec .containment s = execContainment s := rfl
theorem exec_hostBarWrite : exec .hostBarWrite s = execHostBarWrite s := rfl
theorem exec_qresWrite : exec .qresWrite s = execQresWrite s := rfl
theorem exec_contreqWrite : exec .contreqWrite s = execContreqWrite s := rfl
theorem exec_bar2TableWrite : exec .bar2TableWrite s = execBar2TableWrite s := rfl
theorem exec_launchDoorbellDirect : exec .launchDoorbellDirect s = execLaunchDoorbellDirect s := rfl
theorem exec_launchDoorbellIndirect : exec .launchDoorbellIndirect s = execLaunchDoorbellIndirect s := rfl
theorem exec_launchResultRead : exec .launchResultRead s = execLaunchResultRead s := rfl
theorem exec_frameDoorbell : exec .frameDoorbell s = execFrameDoorbell s := rfl
theorem exec_frameResultRead : exec .frameResultRead s = execFrameResultRead s := rfl
theorem exec_illegalEncoding : exec .illegalEncoding s = execIllegalEncoding s := rfl
theorem exec_instructionFetchFault : exec .instructionFetchFault s = execInstructionFetchFault s := rfl
theorem exec_pcieError : exec .pcieError s = execPcieError s := rfl

end Sys2Proof.Machine
end

