-- ==== Sys2Proof/Laws/State.lean ====
section
/-!
SUPPORT. What each update of the state leaves alone: one lemma per field per update, all by definition.
-/
namespace Sys2Proof.Machine

section setCore
variable (s : State) (c : Nat) (x : Core)
@[simp] theorem State.setCore_cycle : (s.setCore c x).cycle = s.cycle := rfl
@[simp] theorem State.setCore_mem : (s.setCore c x).mem = s.mem := rfl
@[simp] theorem State.setCore_tags : (s.setCore c x).tags = s.tags := rfl
@[simp] theorem State.setCore_poison : (s.setCore c x).poison = s.poison := rfl
@[simp] theorem State.setCore_full : (s.setCore c x).full = s.full := rfl
@[simp] theorem State.setCore_dies : (s.setCore c x).dies = s.dies := rfl
@[simp] theorem State.setCore_quads : (s.setCore c x).quads = s.quads := rfl
@[simp] theorem State.setCore_links : (s.setCore c x).links = s.links := rfl
@[simp] theorem State.setCore_mgmt : (s.setCore c x).mgmt = s.mgmt := rfl
@[simp] theorem State.setCore_issue : (s.setCore c x).issue = s.issue := rfl
@[simp] theorem State.setCore_evt : (s.setCore c x).evt = s.evt := rfl
@[simp] theorem State.setCore_agenda : (s.setCore c x).agenda = s.agenda := rfl
@[simp] theorem State.setCore_turns : (s.setCore c x).turns = s.turns := rfl
@[simp] theorem State.setCore_tail : (s.setCore c x).tail = s.tail := rfl
@[simp] theorem State.setCore_pending : (s.setCore c x).pending = s.pending := rfl
@[simp] theorem State.setCore_inputs : (s.setCore c x).inputs = s.inputs := rfl
@[simp] theorem State.setCore_badFlits : (s.setCore c x).badFlits = s.badFlits := rfl
@[simp] theorem State.setCore_badGranules : (s.setCore c x).badGranules = s.badGranules := rfl
@[simp] theorem State.setCore_badEntries : (s.setCore c x).badEntries = s.badEntries := rfl
@[simp] theorem State.setCore_packets : (s.setCore c x).packets = s.packets := rfl
@[simp] theorem State.setCore_pktNum : (s.setCore c x).pktNum = s.pktNum := rfl
@[simp] theorem State.setCore_endSeq : (s.setCore c x).endSeq = s.endSeq := rfl
@[simp] theorem State.setCore_tracks : (s.setCore c x).tracks = s.tracks := rfl
@[simp] theorem State.setCore_deadLinks : (s.setCore c x).deadLinks = s.deadLinks := rfl
@[simp] theorem State.setCore_launches : (s.setCore c x).launches = s.launches := rfl
@[simp] theorem State.setCore_nextSeq : (s.setCore c x).nextSeq = s.nextSeq := rfl
@[simp] theorem State.setCore_submissions : (s.setCore c x).submissions = s.submissions := rfl
@[simp] theorem State.setCore_barriers : (s.setCore c x).barriers = s.barriers := rfl
@[simp] theorem State.setCore_writes : (s.setCore c x).writes = s.writes := rfl
@[simp] theorem State.setCore_migs : (s.setCore c x).migs = s.migs := rfl
@[simp] theorem State.setCore_merges : (s.setCore c x).merges = s.merges := rfl
@[simp] theorem State.setCore_outbox : (s.setCore c x).outbox = s.outbox := rfl
@[simp] theorem State.setCore_fabric : (s.setCore c x).fabric = s.fabric := rfl
@[simp] theorem State.setCore_inbound : (s.setCore c x).inbound = s.inbound := rfl
@[simp] theorem State.setCore_gone : (s.setCore c x).gone = s.gone := rfl
@[simp] theorem State.setCore_fuses : (s.setCore c x).fuses = s.fuses := rfl
@[simp] theorem State.setCore_fusedRows : (s.setCore c x).fusedRows = s.fusedRows := rfl
@[simp] theorem State.setCore_fusedLanes : (s.setCore c x).fusedLanes = s.fusedLanes := rfl
@[simp] theorem State.setCore_free : (s.setCore c x).free = s.free := rfl
@[simp] theorem State.setCore_logical : (s.setCore c x).logical = s.logical := rfl
end setCore

section onCore
variable (s : State) (c : Nat) (f : Core → Core)
@[simp] theorem State.onCore_cycle : (s.onCore c f).cycle = s.cycle := rfl
@[simp] theorem State.onCore_mem : (s.onCore c f).mem = s.mem := rfl
@[simp] theorem State.onCore_tags : (s.onCore c f).tags = s.tags := rfl
@[simp] theorem State.onCore_poison : (s.onCore c f).poison = s.poison := rfl
@[simp] theorem State.onCore_full : (s.onCore c f).full = s.full := rfl
@[simp] theorem State.onCore_dies : (s.onCore c f).dies = s.dies := rfl
@[simp] theorem State.onCore_quads : (s.onCore c f).quads = s.quads := rfl
@[simp] theorem State.onCore_links : (s.onCore c f).links = s.links := rfl
@[simp] theorem State.onCore_mgmt : (s.onCore c f).mgmt = s.mgmt := rfl
@[simp] theorem State.onCore_issue : (s.onCore c f).issue = s.issue := rfl
@[simp] theorem State.onCore_evt : (s.onCore c f).evt = s.evt := rfl
@[simp] theorem State.onCore_agenda : (s.onCore c f).agenda = s.agenda := rfl
@[simp] theorem State.onCore_turns : (s.onCore c f).turns = s.turns := rfl
@[simp] theorem State.onCore_tail : (s.onCore c f).tail = s.tail := rfl
@[simp] theorem State.onCore_pending : (s.onCore c f).pending = s.pending := rfl
@[simp] theorem State.onCore_inputs : (s.onCore c f).inputs = s.inputs := rfl
@[simp] theorem State.onCore_badFlits : (s.onCore c f).badFlits = s.badFlits := rfl
@[simp] theorem State.onCore_badGranules : (s.onCore c f).badGranules = s.badGranules := rfl
@[simp] theorem State.onCore_badEntries : (s.onCore c f).badEntries = s.badEntries := rfl
@[simp] theorem State.onCore_packets : (s.onCore c f).packets = s.packets := rfl
@[simp] theorem State.onCore_pktNum : (s.onCore c f).pktNum = s.pktNum := rfl
@[simp] theorem State.onCore_endSeq : (s.onCore c f).endSeq = s.endSeq := rfl
@[simp] theorem State.onCore_tracks : (s.onCore c f).tracks = s.tracks := rfl
@[simp] theorem State.onCore_deadLinks : (s.onCore c f).deadLinks = s.deadLinks := rfl
@[simp] theorem State.onCore_launches : (s.onCore c f).launches = s.launches := rfl
@[simp] theorem State.onCore_nextSeq : (s.onCore c f).nextSeq = s.nextSeq := rfl
@[simp] theorem State.onCore_submissions : (s.onCore c f).submissions = s.submissions := rfl
@[simp] theorem State.onCore_barriers : (s.onCore c f).barriers = s.barriers := rfl
@[simp] theorem State.onCore_writes : (s.onCore c f).writes = s.writes := rfl
@[simp] theorem State.onCore_migs : (s.onCore c f).migs = s.migs := rfl
@[simp] theorem State.onCore_merges : (s.onCore c f).merges = s.merges := rfl
@[simp] theorem State.onCore_outbox : (s.onCore c f).outbox = s.outbox := rfl
@[simp] theorem State.onCore_fabric : (s.onCore c f).fabric = s.fabric := rfl
@[simp] theorem State.onCore_inbound : (s.onCore c f).inbound = s.inbound := rfl
@[simp] theorem State.onCore_gone : (s.onCore c f).gone = s.gone := rfl
@[simp] theorem State.onCore_fuses : (s.onCore c f).fuses = s.fuses := rfl
@[simp] theorem State.onCore_fusedRows : (s.onCore c f).fusedRows = s.fusedRows := rfl
@[simp] theorem State.onCore_fusedLanes : (s.onCore c f).fusedLanes = s.fusedLanes := rfl
@[simp] theorem State.onCore_free : (s.onCore c f).free = s.free := rfl
@[simp] theorem State.onCore_logical : (s.onCore c f).logical = s.logical := rfl
end onCore

section setSlot
variable (s : State) (c n : Nat) (x : Slot)
@[simp] theorem State.setSlot_cycle : (s.setSlot c n x).cycle = s.cycle := rfl
@[simp] theorem State.setSlot_mem : (s.setSlot c n x).mem = s.mem := rfl
@[simp] theorem State.setSlot_tags : (s.setSlot c n x).tags = s.tags := rfl
@[simp] theorem State.setSlot_poison : (s.setSlot c n x).poison = s.poison := rfl
@[simp] theorem State.setSlot_full : (s.setSlot c n x).full = s.full := rfl
@[simp] theorem State.setSlot_dies : (s.setSlot c n x).dies = s.dies := rfl
@[simp] theorem State.setSlot_quads : (s.setSlot c n x).quads = s.quads := rfl
@[simp] theorem State.setSlot_links : (s.setSlot c n x).links = s.links := rfl
@[simp] theorem State.setSlot_mgmt : (s.setSlot c n x).mgmt = s.mgmt := rfl
@[simp] theorem State.setSlot_issue : (s.setSlot c n x).issue = s.issue := rfl
@[simp] theorem State.setSlot_evt : (s.setSlot c n x).evt = s.evt := rfl
@[simp] theorem State.setSlot_agenda : (s.setSlot c n x).agenda = s.agenda := rfl
@[simp] theorem State.setSlot_turns : (s.setSlot c n x).turns = s.turns := rfl
@[simp] theorem State.setSlot_tail : (s.setSlot c n x).tail = s.tail := rfl
@[simp] theorem State.setSlot_pending : (s.setSlot c n x).pending = s.pending := rfl
@[simp] theorem State.setSlot_inputs : (s.setSlot c n x).inputs = s.inputs := rfl
@[simp] theorem State.setSlot_badFlits : (s.setSlot c n x).badFlits = s.badFlits := rfl
@[simp] theorem State.setSlot_badGranules : (s.setSlot c n x).badGranules = s.badGranules := rfl
@[simp] theorem State.setSlot_badEntries : (s.setSlot c n x).badEntries = s.badEntries := rfl
@[simp] theorem State.setSlot_packets : (s.setSlot c n x).packets = s.packets := rfl
@[simp] theorem State.setSlot_pktNum : (s.setSlot c n x).pktNum = s.pktNum := rfl
@[simp] theorem State.setSlot_endSeq : (s.setSlot c n x).endSeq = s.endSeq := rfl
@[simp] theorem State.setSlot_tracks : (s.setSlot c n x).tracks = s.tracks := rfl
@[simp] theorem State.setSlot_deadLinks : (s.setSlot c n x).deadLinks = s.deadLinks := rfl
@[simp] theorem State.setSlot_launches : (s.setSlot c n x).launches = s.launches := rfl
@[simp] theorem State.setSlot_nextSeq : (s.setSlot c n x).nextSeq = s.nextSeq := rfl
@[simp] theorem State.setSlot_submissions : (s.setSlot c n x).submissions = s.submissions := rfl
@[simp] theorem State.setSlot_barriers : (s.setSlot c n x).barriers = s.barriers := rfl
@[simp] theorem State.setSlot_writes : (s.setSlot c n x).writes = s.writes := rfl
@[simp] theorem State.setSlot_migs : (s.setSlot c n x).migs = s.migs := rfl
@[simp] theorem State.setSlot_merges : (s.setSlot c n x).merges = s.merges := rfl
@[simp] theorem State.setSlot_outbox : (s.setSlot c n x).outbox = s.outbox := rfl
@[simp] theorem State.setSlot_fabric : (s.setSlot c n x).fabric = s.fabric := rfl
@[simp] theorem State.setSlot_inbound : (s.setSlot c n x).inbound = s.inbound := rfl
@[simp] theorem State.setSlot_gone : (s.setSlot c n x).gone = s.gone := rfl
@[simp] theorem State.setSlot_fuses : (s.setSlot c n x).fuses = s.fuses := rfl
@[simp] theorem State.setSlot_fusedRows : (s.setSlot c n x).fusedRows = s.fusedRows := rfl
@[simp] theorem State.setSlot_fusedLanes : (s.setSlot c n x).fusedLanes = s.fusedLanes := rfl
@[simp] theorem State.setSlot_free : (s.setSlot c n x).free = s.free := rfl
@[simp] theorem State.setSlot_logical : (s.setSlot c n x).logical = s.logical := rfl
end setSlot

section onSlot
variable (s : State) (c n : Nat) (f : Slot → Slot)
@[simp] theorem State.onSlot_cycle : (s.onSlot c n f).cycle = s.cycle := rfl
@[simp] theorem State.onSlot_mem : (s.onSlot c n f).mem = s.mem := rfl
@[simp] theorem State.onSlot_tags : (s.onSlot c n f).tags = s.tags := rfl
@[simp] theorem State.onSlot_poison : (s.onSlot c n f).poison = s.poison := rfl
@[simp] theorem State.onSlot_full : (s.onSlot c n f).full = s.full := rfl
@[simp] theorem State.onSlot_dies : (s.onSlot c n f).dies = s.dies := rfl
@[simp] theorem State.onSlot_quads : (s.onSlot c n f).quads = s.quads := rfl
@[simp] theorem State.onSlot_links : (s.onSlot c n f).links = s.links := rfl
@[simp] theorem State.onSlot_mgmt : (s.onSlot c n f).mgmt = s.mgmt := rfl
@[simp] theorem State.onSlot_issue : (s.onSlot c n f).issue = s.issue := rfl
@[simp] theorem State.onSlot_evt : (s.onSlot c n f).evt = s.evt := rfl
@[simp] theorem State.onSlot_agenda : (s.onSlot c n f).agenda = s.agenda := rfl
@[simp] theorem State.onSlot_turns : (s.onSlot c n f).turns = s.turns := rfl
@[simp] theorem State.onSlot_tail : (s.onSlot c n f).tail = s.tail := rfl
@[simp] theorem State.onSlot_pending : (s.onSlot c n f).pending = s.pending := rfl
@[simp] theorem State.onSlot_inputs : (s.onSlot c n f).inputs = s.inputs := rfl
@[simp] theorem State.onSlot_badFlits : (s.onSlot c n f).badFlits = s.badFlits := rfl
@[simp] theorem State.onSlot_badGranules : (s.onSlot c n f).badGranules = s.badGranules := rfl
@[simp] theorem State.onSlot_badEntries : (s.onSlot c n f).badEntries = s.badEntries := rfl
@[simp] theorem State.onSlot_packets : (s.onSlot c n f).packets = s.packets := rfl
@[simp] theorem State.onSlot_pktNum : (s.onSlot c n f).pktNum = s.pktNum := rfl
@[simp] theorem State.onSlot_endSeq : (s.onSlot c n f).endSeq = s.endSeq := rfl
@[simp] theorem State.onSlot_tracks : (s.onSlot c n f).tracks = s.tracks := rfl
@[simp] theorem State.onSlot_deadLinks : (s.onSlot c n f).deadLinks = s.deadLinks := rfl
@[simp] theorem State.onSlot_launches : (s.onSlot c n f).launches = s.launches := rfl
@[simp] theorem State.onSlot_nextSeq : (s.onSlot c n f).nextSeq = s.nextSeq := rfl
@[simp] theorem State.onSlot_submissions : (s.onSlot c n f).submissions = s.submissions := rfl
@[simp] theorem State.onSlot_barriers : (s.onSlot c n f).barriers = s.barriers := rfl
@[simp] theorem State.onSlot_writes : (s.onSlot c n f).writes = s.writes := rfl
@[simp] theorem State.onSlot_migs : (s.onSlot c n f).migs = s.migs := rfl
@[simp] theorem State.onSlot_merges : (s.onSlot c n f).merges = s.merges := rfl
@[simp] theorem State.onSlot_outbox : (s.onSlot c n f).outbox = s.outbox := rfl
@[simp] theorem State.onSlot_fabric : (s.onSlot c n f).fabric = s.fabric := rfl
@[simp] theorem State.onSlot_inbound : (s.onSlot c n f).inbound = s.inbound := rfl
@[simp] theorem State.onSlot_gone : (s.onSlot c n f).gone = s.gone := rfl
@[simp] theorem State.onSlot_fuses : (s.onSlot c n f).fuses = s.fuses := rfl
@[simp] theorem State.onSlot_fusedRows : (s.onSlot c n f).fusedRows = s.fusedRows := rfl
@[simp] theorem State.onSlot_fusedLanes : (s.onSlot c n f).fusedLanes = s.fusedLanes := rfl
@[simp] theorem State.onSlot_free : (s.onSlot c n f).free = s.free := rfl
@[simp] theorem State.onSlot_logical : (s.onSlot c n f).logical = s.logical := rfl
end onSlot

section onVault
variable (s : State) (c : Nat) (f : Vault → Vault)
@[simp] theorem State.onVault_cycle : (s.onVault c f).cycle = s.cycle := rfl
@[simp] theorem State.onVault_mem : (s.onVault c f).mem = s.mem := rfl
@[simp] theorem State.onVault_tags : (s.onVault c f).tags = s.tags := rfl
@[simp] theorem State.onVault_poison : (s.onVault c f).poison = s.poison := rfl
@[simp] theorem State.onVault_full : (s.onVault c f).full = s.full := rfl
@[simp] theorem State.onVault_dies : (s.onVault c f).dies = s.dies := rfl
@[simp] theorem State.onVault_quads : (s.onVault c f).quads = s.quads := rfl
@[simp] theorem State.onVault_links : (s.onVault c f).links = s.links := rfl
@[simp] theorem State.onVault_mgmt : (s.onVault c f).mgmt = s.mgmt := rfl
@[simp] theorem State.onVault_issue : (s.onVault c f).issue = s.issue := rfl
@[simp] theorem State.onVault_evt : (s.onVault c f).evt = s.evt := rfl
@[simp] theorem State.onVault_agenda : (s.onVault c f).agenda = s.agenda := rfl
@[simp] theorem State.onVault_turns : (s.onVault c f).turns = s.turns := rfl
@[simp] theorem State.onVault_tail : (s.onVault c f).tail = s.tail := rfl
@[simp] theorem State.onVault_pending : (s.onVault c f).pending = s.pending := rfl
@[simp] theorem State.onVault_inputs : (s.onVault c f).inputs = s.inputs := rfl
@[simp] theorem State.onVault_badFlits : (s.onVault c f).badFlits = s.badFlits := rfl
@[simp] theorem State.onVault_badGranules : (s.onVault c f).badGranules = s.badGranules := rfl
@[simp] theorem State.onVault_badEntries : (s.onVault c f).badEntries = s.badEntries := rfl
@[simp] theorem State.onVault_packets : (s.onVault c f).packets = s.packets := rfl
@[simp] theorem State.onVault_pktNum : (s.onVault c f).pktNum = s.pktNum := rfl
@[simp] theorem State.onVault_endSeq : (s.onVault c f).endSeq = s.endSeq := rfl
@[simp] theorem State.onVault_tracks : (s.onVault c f).tracks = s.tracks := rfl
@[simp] theorem State.onVault_deadLinks : (s.onVault c f).deadLinks = s.deadLinks := rfl
@[simp] theorem State.onVault_launches : (s.onVault c f).launches = s.launches := rfl
@[simp] theorem State.onVault_nextSeq : (s.onVault c f).nextSeq = s.nextSeq := rfl
@[simp] theorem State.onVault_submissions : (s.onVault c f).submissions = s.submissions := rfl
@[simp] theorem State.onVault_barriers : (s.onVault c f).barriers = s.barriers := rfl
@[simp] theorem State.onVault_writes : (s.onVault c f).writes = s.writes := rfl
@[simp] theorem State.onVault_migs : (s.onVault c f).migs = s.migs := rfl
@[simp] theorem State.onVault_merges : (s.onVault c f).merges = s.merges := rfl
@[simp] theorem State.onVault_outbox : (s.onVault c f).outbox = s.outbox := rfl
@[simp] theorem State.onVault_fabric : (s.onVault c f).fabric = s.fabric := rfl
@[simp] theorem State.onVault_inbound : (s.onVault c f).inbound = s.inbound := rfl
@[simp] theorem State.onVault_gone : (s.onVault c f).gone = s.gone := rfl
@[simp] theorem State.onVault_fuses : (s.onVault c f).fuses = s.fuses := rfl
@[simp] theorem State.onVault_fusedRows : (s.onVault c f).fusedRows = s.fusedRows := rfl
@[simp] theorem State.onVault_fusedLanes : (s.onVault c f).fusedLanes = s.fusedLanes := rfl
@[simp] theorem State.onVault_free : (s.onVault c f).free = s.free := rfl
@[simp] theorem State.onVault_logical : (s.onVault c f).logical = s.logical := rfl
end onVault

section onLog
variable (s : State) (c : Nat) (f : Log → Log)
@[simp] theorem State.onLog_cycle : (s.onLog c f).cycle = s.cycle := rfl
@[simp] theorem State.onLog_mem : (s.onLog c f).mem = s.mem := rfl
@[simp] theorem State.onLog_tags : (s.onLog c f).tags = s.tags := rfl
@[simp] theorem State.onLog_poison : (s.onLog c f).poison = s.poison := rfl
@[simp] theorem State.onLog_full : (s.onLog c f).full = s.full := rfl
@[simp] theorem State.onLog_dies : (s.onLog c f).dies = s.dies := rfl
@[simp] theorem State.onLog_quads : (s.onLog c f).quads = s.quads := rfl
@[simp] theorem State.onLog_links : (s.onLog c f).links = s.links := rfl
@[simp] theorem State.onLog_mgmt : (s.onLog c f).mgmt = s.mgmt := rfl
@[simp] theorem State.onLog_issue : (s.onLog c f).issue = s.issue := rfl
@[simp] theorem State.onLog_evt : (s.onLog c f).evt = s.evt := rfl
@[simp] theorem State.onLog_agenda : (s.onLog c f).agenda = s.agenda := rfl
@[simp] theorem State.onLog_turns : (s.onLog c f).turns = s.turns := rfl
@[simp] theorem State.onLog_tail : (s.onLog c f).tail = s.tail := rfl
@[simp] theorem State.onLog_pending : (s.onLog c f).pending = s.pending := rfl
@[simp] theorem State.onLog_inputs : (s.onLog c f).inputs = s.inputs := rfl
@[simp] theorem State.onLog_badFlits : (s.onLog c f).badFlits = s.badFlits := rfl
@[simp] theorem State.onLog_badGranules : (s.onLog c f).badGranules = s.badGranules := rfl
@[simp] theorem State.onLog_badEntries : (s.onLog c f).badEntries = s.badEntries := rfl
@[simp] theorem State.onLog_packets : (s.onLog c f).packets = s.packets := rfl
@[simp] theorem State.onLog_pktNum : (s.onLog c f).pktNum = s.pktNum := rfl
@[simp] theorem State.onLog_endSeq : (s.onLog c f).endSeq = s.endSeq := rfl
@[simp] theorem State.onLog_tracks : (s.onLog c f).tracks = s.tracks := rfl
@[simp] theorem State.onLog_deadLinks : (s.onLog c f).deadLinks = s.deadLinks := rfl
@[simp] theorem State.onLog_launches : (s.onLog c f).launches = s.launches := rfl
@[simp] theorem State.onLog_nextSeq : (s.onLog c f).nextSeq = s.nextSeq := rfl
@[simp] theorem State.onLog_submissions : (s.onLog c f).submissions = s.submissions := rfl
@[simp] theorem State.onLog_barriers : (s.onLog c f).barriers = s.barriers := rfl
@[simp] theorem State.onLog_writes : (s.onLog c f).writes = s.writes := rfl
@[simp] theorem State.onLog_migs : (s.onLog c f).migs = s.migs := rfl
@[simp] theorem State.onLog_merges : (s.onLog c f).merges = s.merges := rfl
@[simp] theorem State.onLog_outbox : (s.onLog c f).outbox = s.outbox := rfl
@[simp] theorem State.onLog_fabric : (s.onLog c f).fabric = s.fabric := rfl
@[simp] theorem State.onLog_inbound : (s.onLog c f).inbound = s.inbound := rfl
@[simp] theorem State.onLog_gone : (s.onLog c f).gone = s.gone := rfl
@[simp] theorem State.onLog_fuses : (s.onLog c f).fuses = s.fuses := rfl
@[simp] theorem State.onLog_fusedRows : (s.onLog c f).fusedRows = s.fusedRows := rfl
@[simp] theorem State.onLog_fusedLanes : (s.onLog c f).fusedLanes = s.fusedLanes := rfl
@[simp] theorem State.onLog_free : (s.onLog c f).free = s.free := rfl
@[simp] theorem State.onLog_logical : (s.onLog c f).logical = s.logical := rfl
end onLog

section onTrap
variable (s : State) (c : Nat) (f : TrapState → TrapState)
@[simp] theorem State.onTrap_cycle : (s.onTrap c f).cycle = s.cycle := rfl
@[simp] theorem State.onTrap_mem : (s.onTrap c f).mem = s.mem := rfl
@[simp] theorem State.onTrap_tags : (s.onTrap c f).tags = s.tags := rfl
@[simp] theorem State.onTrap_poison : (s.onTrap c f).poison = s.poison := rfl
@[simp] theorem State.onTrap_full : (s.onTrap c f).full = s.full := rfl
@[simp] theorem State.onTrap_dies : (s.onTrap c f).dies = s.dies := rfl
@[simp] theorem State.onTrap_quads : (s.onTrap c f).quads = s.quads := rfl
@[simp] theorem State.onTrap_links : (s.onTrap c f).links = s.links := rfl
@[simp] theorem State.onTrap_mgmt : (s.onTrap c f).mgmt = s.mgmt := rfl
@[simp] theorem State.onTrap_issue : (s.onTrap c f).issue = s.issue := rfl
@[simp] theorem State.onTrap_evt : (s.onTrap c f).evt = s.evt := rfl
@[simp] theorem State.onTrap_agenda : (s.onTrap c f).agenda = s.agenda := rfl
@[simp] theorem State.onTrap_turns : (s.onTrap c f).turns = s.turns := rfl
@[simp] theorem State.onTrap_tail : (s.onTrap c f).tail = s.tail := rfl
@[simp] theorem State.onTrap_pending : (s.onTrap c f).pending = s.pending := rfl
@[simp] theorem State.onTrap_inputs : (s.onTrap c f).inputs = s.inputs := rfl
@[simp] theorem State.onTrap_badFlits : (s.onTrap c f).badFlits = s.badFlits := rfl
@[simp] theorem State.onTrap_badGranules : (s.onTrap c f).badGranules = s.badGranules := rfl
@[simp] theorem State.onTrap_badEntries : (s.onTrap c f).badEntries = s.badEntries := rfl
@[simp] theorem State.onTrap_packets : (s.onTrap c f).packets = s.packets := rfl
@[simp] theorem State.onTrap_pktNum : (s.onTrap c f).pktNum = s.pktNum := rfl
@[simp] theorem State.onTrap_endSeq : (s.onTrap c f).endSeq = s.endSeq := rfl
@[simp] theorem State.onTrap_tracks : (s.onTrap c f).tracks = s.tracks := rfl
@[simp] theorem State.onTrap_deadLinks : (s.onTrap c f).deadLinks = s.deadLinks := rfl
@[simp] theorem State.onTrap_launches : (s.onTrap c f).launches = s.launches := rfl
@[simp] theorem State.onTrap_nextSeq : (s.onTrap c f).nextSeq = s.nextSeq := rfl
@[simp] theorem State.onTrap_submissions : (s.onTrap c f).submissions = s.submissions := rfl
@[simp] theorem State.onTrap_barriers : (s.onTrap c f).barriers = s.barriers := rfl
@[simp] theorem State.onTrap_writes : (s.onTrap c f).writes = s.writes := rfl
@[simp] theorem State.onTrap_migs : (s.onTrap c f).migs = s.migs := rfl
@[simp] theorem State.onTrap_merges : (s.onTrap c f).merges = s.merges := rfl
@[simp] theorem State.onTrap_outbox : (s.onTrap c f).outbox = s.outbox := rfl
@[simp] theorem State.onTrap_fabric : (s.onTrap c f).fabric = s.fabric := rfl
@[simp] theorem State.onTrap_inbound : (s.onTrap c f).inbound = s.inbound := rfl
@[simp] theorem State.onTrap_gone : (s.onTrap c f).gone = s.gone := rfl
@[simp] theorem State.onTrap_fuses : (s.onTrap c f).fuses = s.fuses := rfl
@[simp] theorem State.onTrap_fusedRows : (s.onTrap c f).fusedRows = s.fusedRows := rfl
@[simp] theorem State.onTrap_fusedLanes : (s.onTrap c f).fusedLanes = s.fusedLanes := rfl
@[simp] theorem State.onTrap_free : (s.onTrap c f).free = s.free := rfl
@[simp] theorem State.onTrap_logical : (s.onTrap c f).logical = s.logical := rfl
end onTrap

section count
variable (s : State) (c i n : Nat)
@[simp] theorem State.count_cycle : (s.count c i n).cycle = s.cycle := rfl
@[simp] theorem State.count_mem : (s.count c i n).mem = s.mem := rfl
@[simp] theorem State.count_tags : (s.count c i n).tags = s.tags := rfl
@[simp] theorem State.count_poison : (s.count c i n).poison = s.poison := rfl
@[simp] theorem State.count_full : (s.count c i n).full = s.full := rfl
@[simp] theorem State.count_dies : (s.count c i n).dies = s.dies := rfl
@[simp] theorem State.count_quads : (s.count c i n).quads = s.quads := rfl
@[simp] theorem State.count_links : (s.count c i n).links = s.links := rfl
@[simp] theorem State.count_mgmt : (s.count c i n).mgmt = s.mgmt := rfl
@[simp] theorem State.count_issue : (s.count c i n).issue = s.issue := rfl
@[simp] theorem State.count_evt : (s.count c i n).evt = s.evt := rfl
@[simp] theorem State.count_agenda : (s.count c i n).agenda = s.agenda := rfl
@[simp] theorem State.count_turns : (s.count c i n).turns = s.turns := rfl
@[simp] theorem State.count_tail : (s.count c i n).tail = s.tail := rfl
@[simp] theorem State.count_pending : (s.count c i n).pending = s.pending := rfl
@[simp] theorem State.count_inputs : (s.count c i n).inputs = s.inputs := rfl
@[simp] theorem State.count_badFlits : (s.count c i n).badFlits = s.badFlits := rfl
@[simp] theorem State.count_badGranules : (s.count c i n).badGranules = s.badGranules := rfl
@[simp] theorem State.count_badEntries : (s.count c i n).badEntries = s.badEntries := rfl
@[simp] theorem State.count_packets : (s.count c i n).packets = s.packets := rfl
@[simp] theorem State.count_pktNum : (s.count c i n).pktNum = s.pktNum := rfl
@[simp] theorem State.count_endSeq : (s.count c i n).endSeq = s.endSeq := rfl
@[simp] theorem State.count_tracks : (s.count c i n).tracks = s.tracks := rfl
@[simp] theorem State.count_deadLinks : (s.count c i n).deadLinks = s.deadLinks := rfl
@[simp] theorem State.count_launches : (s.count c i n).launches = s.launches := rfl
@[simp] theorem State.count_nextSeq : (s.count c i n).nextSeq = s.nextSeq := rfl
@[simp] theorem State.count_submissions : (s.count c i n).submissions = s.submissions := rfl
@[simp] theorem State.count_barriers : (s.count c i n).barriers = s.barriers := rfl
@[simp] theorem State.count_writes : (s.count c i n).writes = s.writes := rfl
@[simp] theorem State.count_migs : (s.count c i n).migs = s.migs := rfl
@[simp] theorem State.count_merges : (s.count c i n).merges = s.merges := rfl
@[simp] theorem State.count_outbox : (s.count c i n).outbox = s.outbox := rfl
@[simp] theorem State.count_fabric : (s.count c i n).fabric = s.fabric := rfl
@[simp] theorem State.count_inbound : (s.count c i n).inbound = s.inbound := rfl
@[simp] theorem State.count_gone : (s.count c i n).gone = s.gone := rfl
@[simp] theorem State.count_fuses : (s.count c i n).fuses = s.fuses := rfl
@[simp] theorem State.count_fusedRows : (s.count c i n).fusedRows = s.fusedRows := rfl
@[simp] theorem State.count_fusedLanes : (s.count c i n).fusedLanes = s.fusedLanes := rfl
@[simp] theorem State.count_free : (s.count c i n).free = s.free := rfl
@[simp] theorem State.count_logical : (s.count c i n).logical = s.logical := rfl
end count

section onDie
variable (s : State) (d : Nat) (f : Die → Die)
@[simp] theorem State.onDie_cycle : (s.onDie d f).cycle = s.cycle := rfl
@[simp] theorem State.onDie_mem : (s.onDie d f).mem = s.mem := rfl
@[simp] theorem State.onDie_tags : (s.onDie d f).tags = s.tags := rfl
@[simp] theorem State.onDie_poison : (s.onDie d f).poison = s.poison := rfl
@[simp] theorem State.onDie_full : (s.onDie d f).full = s.full := rfl
@[simp] theorem State.onDie_cores : (s.onDie d f).cores = s.cores := rfl
@[simp] theorem State.onDie_quads : (s.onDie d f).quads = s.quads := rfl
@[simp] theorem State.onDie_links : (s.onDie d f).links = s.links := rfl
@[simp] theorem State.onDie_mgmt : (s.onDie d f).mgmt = s.mgmt := rfl
@[simp] theorem State.onDie_issue : (s.onDie d f).issue = s.issue := rfl
@[simp] theorem State.onDie_evt : (s.onDie d f).evt = s.evt := rfl
@[simp] theorem State.onDie_agenda : (s.onDie d f).agenda = s.agenda := rfl
@[simp] theorem State.onDie_turns : (s.onDie d f).turns = s.turns := rfl
@[simp] theorem State.onDie_tail : (s.onDie d f).tail = s.tail := rfl
@[simp] theorem State.onDie_pending : (s.onDie d f).pending = s.pending := rfl
@[simp] theorem State.onDie_inputs : (s.onDie d f).inputs = s.inputs := rfl
@[simp] theorem State.onDie_badFlits : (s.onDie d f).badFlits = s.badFlits := rfl
@[simp] theorem State.onDie_badGranules : (s.onDie d f).badGranules = s.badGranules := rfl
@[simp] theorem State.onDie_badEntries : (s.onDie d f).badEntries = s.badEntries := rfl
@[simp] theorem State.onDie_packets : (s.onDie d f).packets = s.packets := rfl
@[simp] theorem State.onDie_pktNum : (s.onDie d f).pktNum = s.pktNum := rfl
@[simp] theorem State.onDie_endSeq : (s.onDie d f).endSeq = s.endSeq := rfl
@[simp] theorem State.onDie_tracks : (s.onDie d f).tracks = s.tracks := rfl
@[simp] theorem State.onDie_deadLinks : (s.onDie d f).deadLinks = s.deadLinks := rfl
@[simp] theorem State.onDie_launches : (s.onDie d f).launches = s.launches := rfl
@[simp] theorem State.onDie_nextSeq : (s.onDie d f).nextSeq = s.nextSeq := rfl
@[simp] theorem State.onDie_submissions : (s.onDie d f).submissions = s.submissions := rfl
@[simp] theorem State.onDie_barriers : (s.onDie d f).barriers = s.barriers := rfl
@[simp] theorem State.onDie_writes : (s.onDie d f).writes = s.writes := rfl
@[simp] theorem State.onDie_migs : (s.onDie d f).migs = s.migs := rfl
@[simp] theorem State.onDie_merges : (s.onDie d f).merges = s.merges := rfl
@[simp] theorem State.onDie_outbox : (s.onDie d f).outbox = s.outbox := rfl
@[simp] theorem State.onDie_fabric : (s.onDie d f).fabric = s.fabric := rfl
@[simp] theorem State.onDie_inbound : (s.onDie d f).inbound = s.inbound := rfl
@[simp] theorem State.onDie_gone : (s.onDie d f).gone = s.gone := rfl
@[simp] theorem State.onDie_fuses : (s.onDie d f).fuses = s.fuses := rfl
@[simp] theorem State.onDie_fusedRows : (s.onDie d f).fusedRows = s.fusedRows := rfl
@[simp] theorem State.onDie_fusedLanes : (s.onDie d f).fusedLanes = s.fusedLanes := rfl
@[simp] theorem State.onDie_free : (s.onDie d f).free = s.free := rfl
@[simp] theorem State.onDie_logical : (s.onDie d f).logical = s.logical := rfl
end onDie

section onQuad
variable (s : State) (q : Nat) (f : Quad → Quad)
@[simp] theorem State.onQuad_cycle : (s.onQuad q f).cycle = s.cycle := rfl
@[simp] theorem State.onQuad_mem : (s.onQuad q f).mem = s.mem := rfl
@[simp] theorem State.onQuad_tags : (s.onQuad q f).tags = s.tags := rfl
@[simp] theorem State.onQuad_poison : (s.onQuad q f).poison = s.poison := rfl
@[simp] theorem State.onQuad_full : (s.onQuad q f).full = s.full := rfl
@[simp] theorem State.onQuad_cores : (s.onQuad q f).cores = s.cores := rfl
@[simp] theorem State.onQuad_dies : (s.onQuad q f).dies = s.dies := rfl
@[simp] theorem State.onQuad_links : (s.onQuad q f).links = s.links := rfl
@[simp] theorem State.onQuad_mgmt : (s.onQuad q f).mgmt = s.mgmt := rfl
@[simp] theorem State.onQuad_issue : (s.onQuad q f).issue = s.issue := rfl
@[simp] theorem State.onQuad_evt : (s.onQuad q f).evt = s.evt := rfl
@[simp] theorem State.onQuad_agenda : (s.onQuad q f).agenda = s.agenda := rfl
@[simp] theorem State.onQuad_turns : (s.onQuad q f).turns = s.turns := rfl
@[simp] theorem State.onQuad_tail : (s.onQuad q f).tail = s.tail := rfl
@[simp] theorem State.onQuad_pending : (s.onQuad q f).pending = s.pending := rfl
@[simp] theorem State.onQuad_inputs : (s.onQuad q f).inputs = s.inputs := rfl
@[simp] theorem State.onQuad_badFlits : (s.onQuad q f).badFlits = s.badFlits := rfl
@[simp] theorem State.onQuad_badGranules : (s.onQuad q f).badGranules = s.badGranules := rfl
@[simp] theorem State.onQuad_badEntries : (s.onQuad q f).badEntries = s.badEntries := rfl
@[simp] theorem State.onQuad_packets : (s.onQuad q f).packets = s.packets := rfl
@[simp] theorem State.onQuad_pktNum : (s.onQuad q f).pktNum = s.pktNum := rfl
@[simp] theorem State.onQuad_endSeq : (s.onQuad q f).endSeq = s.endSeq := rfl
@[simp] theorem State.onQuad_tracks : (s.onQuad q f).tracks = s.tracks := rfl
@[simp] theorem State.onQuad_deadLinks : (s.onQuad q f).deadLinks = s.deadLinks := rfl
@[simp] theorem State.onQuad_launches : (s.onQuad q f).launches = s.launches := rfl
@[simp] theorem State.onQuad_nextSeq : (s.onQuad q f).nextSeq = s.nextSeq := rfl
@[simp] theorem State.onQuad_submissions : (s.onQuad q f).submissions = s.submissions := rfl
@[simp] theorem State.onQuad_barriers : (s.onQuad q f).barriers = s.barriers := rfl
@[simp] theorem State.onQuad_writes : (s.onQuad q f).writes = s.writes := rfl
@[simp] theorem State.onQuad_migs : (s.onQuad q f).migs = s.migs := rfl
@[simp] theorem State.onQuad_merges : (s.onQuad q f).merges = s.merges := rfl
@[simp] theorem State.onQuad_outbox : (s.onQuad q f).outbox = s.outbox := rfl
@[simp] theorem State.onQuad_fabric : (s.onQuad q f).fabric = s.fabric := rfl
@[simp] theorem State.onQuad_inbound : (s.onQuad q f).inbound = s.inbound := rfl
@[simp] theorem State.onQuad_gone : (s.onQuad q f).gone = s.gone := rfl
@[simp] theorem State.onQuad_fuses : (s.onQuad q f).fuses = s.fuses := rfl
@[simp] theorem State.onQuad_fusedRows : (s.onQuad q f).fusedRows = s.fusedRows := rfl
@[simp] theorem State.onQuad_fusedLanes : (s.onQuad q f).fusedLanes = s.fusedLanes := rfl
@[simp] theorem State.onQuad_free : (s.onQuad q f).free = s.free := rfl
@[simp] theorem State.onQuad_logical : (s.onQuad q f).logical = s.logical := rfl
end onQuad

section onLink
variable (s : State) (l : Nat) (f : Link → Link)
@[simp] theorem State.onLink_cycle : (s.onLink l f).cycle = s.cycle := rfl
@[simp] theorem State.onLink_mem : (s.onLink l f).mem = s.mem := rfl
@[simp] theorem State.onLink_tags : (s.onLink l f).tags = s.tags := rfl
@[simp] theorem State.onLink_poison : (s.onLink l f).poison = s.poison := rfl
@[simp] theorem State.onLink_full : (s.onLink l f).full = s.full := rfl
@[simp] theorem State.onLink_cores : (s.onLink l f).cores = s.cores := rfl
@[simp] theorem State.onLink_dies : (s.onLink l f).dies = s.dies := rfl
@[simp] theorem State.onLink_quads : (s.onLink l f).quads = s.quads := rfl
@[simp] theorem State.onLink_mgmt : (s.onLink l f).mgmt = s.mgmt := rfl
@[simp] theorem State.onLink_issue : (s.onLink l f).issue = s.issue := rfl
@[simp] theorem State.onLink_evt : (s.onLink l f).evt = s.evt := rfl
@[simp] theorem State.onLink_agenda : (s.onLink l f).agenda = s.agenda := rfl
@[simp] theorem State.onLink_turns : (s.onLink l f).turns = s.turns := rfl
@[simp] theorem State.onLink_tail : (s.onLink l f).tail = s.tail := rfl
@[simp] theorem State.onLink_pending : (s.onLink l f).pending = s.pending := rfl
@[simp] theorem State.onLink_inputs : (s.onLink l f).inputs = s.inputs := rfl
@[simp] theorem State.onLink_badFlits : (s.onLink l f).badFlits = s.badFlits := rfl
@[simp] theorem State.onLink_badGranules : (s.onLink l f).badGranules = s.badGranules := rfl
@[simp] theorem State.onLink_badEntries : (s.onLink l f).badEntries = s.badEntries := rfl
@[simp] theorem State.onLink_packets : (s.onLink l f).packets = s.packets := rfl
@[simp] theorem State.onLink_pktNum : (s.onLink l f).pktNum = s.pktNum := rfl
@[simp] theorem State.onLink_endSeq : (s.onLink l f).endSeq = s.endSeq := rfl
@[simp] theorem State.onLink_tracks : (s.onLink l f).tracks = s.tracks := rfl
@[simp] theorem State.onLink_deadLinks : (s.onLink l f).deadLinks = s.deadLinks := rfl
@[simp] theorem State.onLink_launches : (s.onLink l f).launches = s.launches := rfl
@[simp] theorem State.onLink_nextSeq : (s.onLink l f).nextSeq = s.nextSeq := rfl
@[simp] theorem State.onLink_submissions : (s.onLink l f).submissions = s.submissions := rfl
@[simp] theorem State.onLink_barriers : (s.onLink l f).barriers = s.barriers := rfl
@[simp] theorem State.onLink_writes : (s.onLink l f).writes = s.writes := rfl
@[simp] theorem State.onLink_migs : (s.onLink l f).migs = s.migs := rfl
@[simp] theorem State.onLink_merges : (s.onLink l f).merges = s.merges := rfl
@[simp] theorem State.onLink_outbox : (s.onLink l f).outbox = s.outbox := rfl
@[simp] theorem State.onLink_fabric : (s.onLink l f).fabric = s.fabric := rfl
@[simp] theorem State.onLink_inbound : (s.onLink l f).inbound = s.inbound := rfl
@[simp] theorem State.onLink_gone : (s.onLink l f).gone = s.gone := rfl
@[simp] theorem State.onLink_fuses : (s.onLink l f).fuses = s.fuses := rfl
@[simp] theorem State.onLink_fusedRows : (s.onLink l f).fusedRows = s.fusedRows := rfl
@[simp] theorem State.onLink_fusedLanes : (s.onLink l f).fusedLanes = s.fusedLanes := rfl
@[simp] theorem State.onLink_free : (s.onLink l f).free = s.free := rfl
@[simp] theorem State.onLink_logical : (s.onLink l f).logical = s.logical := rfl
end onLink

section onTrack
variable (s : State) (t : Nat) (f : Track → Track)
@[simp] theorem State.onTrack_cycle : (s.onTrack t f).cycle = s.cycle := rfl
@[simp] theorem State.onTrack_mem : (s.onTrack t f).mem = s.mem := rfl
@[simp] theorem State.onTrack_tags : (s.onTrack t f).tags = s.tags := rfl
@[simp] theorem State.onTrack_poison : (s.onTrack t f).poison = s.poison := rfl
@[simp] theorem State.onTrack_full : (s.onTrack t f).full = s.full := rfl
@[simp] theorem State.onTrack_cores : (s.onTrack t f).cores = s.cores := rfl
@[simp] theorem State.onTrack_dies : (s.onTrack t f).dies = s.dies := rfl
@[simp] theorem State.onTrack_quads : (s.onTrack t f).quads = s.quads := rfl
@[simp] theorem State.onTrack_links : (s.onTrack t f).links = s.links := rfl
@[simp] theorem State.onTrack_mgmt : (s.onTrack t f).mgmt = s.mgmt := rfl
@[simp] theorem State.onTrack_issue : (s.onTrack t f).issue = s.issue := rfl
@[simp] theorem State.onTrack_evt : (s.onTrack t f).evt = s.evt := rfl
@[simp] theorem State.onTrack_agenda : (s.onTrack t f).agenda = s.agenda := rfl
@[simp] theorem State.onTrack_turns : (s.onTrack t f).turns = s.turns := rfl
@[simp] theorem State.onTrack_tail : (s.onTrack t f).tail = s.tail := rfl
@[simp] theorem State.onTrack_pending : (s.onTrack t f).pending = s.pending := rfl
@[simp] theorem State.onTrack_inputs : (s.onTrack t f).inputs = s.inputs := rfl
@[simp] theorem State.onTrack_badFlits : (s.onTrack t f).badFlits = s.badFlits := rfl
@[simp] theorem State.onTrack_badGranules : (s.onTrack t f).badGranules = s.badGranules := rfl
@[simp] theorem State.onTrack_badEntries : (s.onTrack t f).badEntries = s.badEntries := rfl
@[simp] theorem State.onTrack_packets : (s.onTrack t f).packets = s.packets := rfl
@[simp] theorem State.onTrack_pktNum : (s.onTrack t f).pktNum = s.pktNum := rfl
@[simp] theorem State.onTrack_endSeq : (s.onTrack t f).endSeq = s.endSeq := rfl
@[simp] theorem State.onTrack_deadLinks : (s.onTrack t f).deadLinks = s.deadLinks := rfl
@[simp] theorem State.onTrack_launches : (s.onTrack t f).launches = s.launches := rfl
@[simp] theorem State.onTrack_nextSeq : (s.onTrack t f).nextSeq = s.nextSeq := rfl
@[simp] theorem State.onTrack_submissions : (s.onTrack t f).submissions = s.submissions := rfl
@[simp] theorem State.onTrack_barriers : (s.onTrack t f).barriers = s.barriers := rfl
@[simp] theorem State.onTrack_writes : (s.onTrack t f).writes = s.writes := rfl
@[simp] theorem State.onTrack_migs : (s.onTrack t f).migs = s.migs := rfl
@[simp] theorem State.onTrack_merges : (s.onTrack t f).merges = s.merges := rfl
@[simp] theorem State.onTrack_outbox : (s.onTrack t f).outbox = s.outbox := rfl
@[simp] theorem State.onTrack_fabric : (s.onTrack t f).fabric = s.fabric := rfl
@[simp] theorem State.onTrack_inbound : (s.onTrack t f).inbound = s.inbound := rfl
@[simp] theorem State.onTrack_gone : (s.onTrack t f).gone = s.gone := rfl
@[simp] theorem State.onTrack_fuses : (s.onTrack t f).fuses = s.fuses := rfl
@[simp] theorem State.onTrack_fusedRows : (s.onTrack t f).fusedRows = s.fusedRows := rfl
@[simp] theorem State.onTrack_fusedLanes : (s.onTrack t f).fusedLanes = s.fusedLanes := rfl
@[simp] theorem State.onTrack_free : (s.onTrack t f).free = s.free := rfl
@[simp] theorem State.onTrack_logical : (s.onTrack t f).logical = s.logical := rfl
end onTrack

section onMgmt
variable (s : State) (f : Mgmt → Mgmt)
@[simp] theorem State.onMgmt_cycle : (s.onMgmt f).cycle = s.cycle := rfl
@[simp] theorem State.onMgmt_mem : (s.onMgmt f).mem = s.mem := rfl
@[simp] theorem State.onMgmt_tags : (s.onMgmt f).tags = s.tags := rfl
@[simp] theorem State.onMgmt_poison : (s.onMgmt f).poison = s.poison := rfl
@[simp] theorem State.onMgmt_full : (s.onMgmt f).full = s.full := rfl
@[simp] theorem State.onMgmt_cores : (s.onMgmt f).cores = s.cores := rfl
@[simp] theorem State.onMgmt_dies : (s.onMgmt f).dies = s.dies := rfl
@[simp] theorem State.onMgmt_quads : (s.onMgmt f).quads = s.quads := rfl
@[simp] theorem State.onMgmt_links : (s.onMgmt f).links = s.links := rfl
@[simp] theorem State.onMgmt_issue : (s.onMgmt f).issue = s.issue := rfl
@[simp] theorem State.onMgmt_evt : (s.onMgmt f).evt = s.evt := rfl
@[simp] theorem State.onMgmt_agenda : (s.onMgmt f).agenda = s.agenda := rfl
@[simp] theorem State.onMgmt_turns : (s.onMgmt f).turns = s.turns := rfl
@[simp] theorem State.onMgmt_tail : (s.onMgmt f).tail = s.tail := rfl
@[simp] theorem State.onMgmt_pending : (s.onMgmt f).pending = s.pending := rfl
@[simp] theorem State.onMgmt_inputs : (s.onMgmt f).inputs = s.inputs := rfl
@[simp] theorem State.onMgmt_badFlits : (s.onMgmt f).badFlits = s.badFlits := rfl
@[simp] theorem State.onMgmt_badGranules : (s.onMgmt f).badGranules = s.badGranules := rfl
@[simp] theorem State.onMgmt_badEntries : (s.onMgmt f).badEntries = s.badEntries := rfl
@[simp] theorem State.onMgmt_packets : (s.onMgmt f).packets = s.packets := rfl
@[simp] theorem State.onMgmt_pktNum : (s.onMgmt f).pktNum = s.pktNum := rfl
@[simp] theorem State.onMgmt_endSeq : (s.onMgmt f).endSeq = s.endSeq := rfl
@[simp] theorem State.onMgmt_tracks : (s.onMgmt f).tracks = s.tracks := rfl
@[simp] theorem State.onMgmt_deadLinks : (s.onMgmt f).deadLinks = s.deadLinks := rfl
@[simp] theorem State.onMgmt_launches : (s.onMgmt f).launches = s.launches := rfl
@[simp] theorem State.onMgmt_nextSeq : (s.onMgmt f).nextSeq = s.nextSeq := rfl
@[simp] theorem State.onMgmt_submissions : (s.onMgmt f).submissions = s.submissions := rfl
@[simp] theorem State.onMgmt_barriers : (s.onMgmt f).barriers = s.barriers := rfl
@[simp] theorem State.onMgmt_writes : (s.onMgmt f).writes = s.writes := rfl
@[simp] theorem State.onMgmt_migs : (s.onMgmt f).migs = s.migs := rfl
@[simp] theorem State.onMgmt_merges : (s.onMgmt f).merges = s.merges := rfl
@[simp] theorem State.onMgmt_outbox : (s.onMgmt f).outbox = s.outbox := rfl
@[simp] theorem State.onMgmt_fabric : (s.onMgmt f).fabric = s.fabric := rfl
@[simp] theorem State.onMgmt_inbound : (s.onMgmt f).inbound = s.inbound := rfl
@[simp] theorem State.onMgmt_gone : (s.onMgmt f).gone = s.gone := rfl
@[simp] theorem State.onMgmt_fuses : (s.onMgmt f).fuses = s.fuses := rfl
@[simp] theorem State.onMgmt_fusedRows : (s.onMgmt f).fusedRows = s.fusedRows := rfl
@[simp] theorem State.onMgmt_fusedLanes : (s.onMgmt f).fusedLanes = s.fusedLanes := rfl
@[simp] theorem State.onMgmt_free : (s.onMgmt f).free = s.free := rfl
@[simp] theorem State.onMgmt_logical : (s.onMgmt f).logical = s.logical := rfl
end onMgmt

section after
variable (s : State) (n : Nat) (e : Instr) (l : List Nat)
@[simp] theorem State.after_cycle : (s.after n e l).cycle = s.cycle := rfl
@[simp] theorem State.after_mem : (s.after n e l).mem = s.mem := rfl
@[simp] theorem State.after_tags : (s.after n e l).tags = s.tags := rfl
@[simp] theorem State.after_poison : (s.after n e l).poison = s.poison := rfl
@[simp] theorem State.after_full : (s.after n e l).full = s.full := rfl
@[simp] theorem State.after_cores : (s.after n e l).cores = s.cores := rfl
@[simp] theorem State.after_dies : (s.after n e l).dies = s.dies := rfl
@[simp] theorem State.after_quads : (s.after n e l).quads = s.quads := rfl
@[simp] theorem State.after_links : (s.after n e l).links = s.links := rfl
@[simp] theorem State.after_mgmt : (s.after n e l).mgmt = s.mgmt := rfl
@[simp] theorem State.after_issue : (s.after n e l).issue = s.issue := rfl
@[simp] theorem State.after_evt : (s.after n e l).evt = s.evt := rfl
@[simp] theorem State.after_agenda : (s.after n e l).agenda = s.agenda := rfl
@[simp] theorem State.after_turns : (s.after n e l).turns = s.turns := rfl
@[simp] theorem State.after_tail : (s.after n e l).tail = s.tail := rfl
@[simp] theorem State.after_inputs : (s.after n e l).inputs = s.inputs := rfl
@[simp] theorem State.after_badFlits : (s.after n e l).badFlits = s.badFlits := rfl
@[simp] theorem State.after_badGranules : (s.after n e l).badGranules = s.badGranules := rfl
@[simp] theorem State.after_badEntries : (s.after n e l).badEntries = s.badEntries := rfl
@[simp] theorem State.after_packets : (s.after n e l).packets = s.packets := rfl
@[simp] theorem State.after_pktNum : (s.after n e l).pktNum = s.pktNum := rfl
@[simp] theorem State.after_endSeq : (s.after n e l).endSeq = s.endSeq := rfl
@[simp] theorem State.after_tracks : (s.after n e l).tracks = s.tracks := rfl
@[simp] theorem State.after_deadLinks : (s.after n e l).deadLinks = s.deadLinks := rfl
@[simp] theorem State.after_launches : (s.after n e l).launches = s.launches := rfl
@[simp] theorem State.after_nextSeq : (s.after n e l).nextSeq = s.nextSeq := rfl
@[simp] theorem State.after_submissions : (s.after n e l).submissions = s.submissions := rfl
@[simp] theorem State.after_barriers : (s.after n e l).barriers = s.barriers := rfl
@[simp] theorem State.after_writes : (s.after n e l).writes = s.writes := rfl
@[simp] theorem State.after_migs : (s.after n e l).migs = s.migs := rfl
@[simp] theorem State.after_merges : (s.after n e l).merges = s.merges := rfl
@[simp] theorem State.after_outbox : (s.after n e l).outbox = s.outbox := rfl
@[simp] theorem State.after_fabric : (s.after n e l).fabric = s.fabric := rfl
@[simp] theorem State.after_inbound : (s.after n e l).inbound = s.inbound := rfl
@[simp] theorem State.after_gone : (s.after n e l).gone = s.gone := rfl
@[simp] theorem State.after_fuses : (s.after n e l).fuses = s.fuses := rfl
@[simp] theorem State.after_fusedRows : (s.after n e l).fusedRows = s.fusedRows := rfl
@[simp] theorem State.after_fusedLanes : (s.after n e l).fusedLanes = s.fusedLanes := rfl
@[simp] theorem State.after_free : (s.after n e l).free = s.free := rfl
@[simp] theorem State.after_logical : (s.after n e l).logical = s.logical := rfl
end after

section now
variable (s : State) (e : Instr) (l : List Nat)
@[simp] theorem State.now_cycle : (s.now e l).cycle = s.cycle := rfl
@[simp] theorem State.now_mem : (s.now e l).mem = s.mem := rfl
@[simp] theorem State.now_tags : (s.now e l).tags = s.tags := rfl
@[simp] theorem State.now_poison : (s.now e l).poison = s.poison := rfl
@[simp] theorem State.now_full : (s.now e l).full = s.full := rfl
@[simp] theorem State.now_cores : (s.now e l).cores = s.cores := rfl
@[simp] theorem State.now_dies : (s.now e l).dies = s.dies := rfl
@[simp] theorem State.now_quads : (s.now e l).quads = s.quads := rfl
@[simp] theorem State.now_links : (s.now e l).links = s.links := rfl
@[simp] theorem State.now_mgmt : (s.now e l).mgmt = s.mgmt := rfl
@[simp] theorem State.now_issue : (s.now e l).issue = s.issue := rfl
@[simp] theorem State.now_evt : (s.now e l).evt = s.evt := rfl
@[simp] theorem State.now_turns : (s.now e l).turns = s.turns := rfl
@[simp] theorem State.now_tail : (s.now e l).tail = s.tail := rfl
@[simp] theorem State.now_pending : (s.now e l).pending = s.pending := rfl
@[simp] theorem State.now_inputs : (s.now e l).inputs = s.inputs := rfl
@[simp] theorem State.now_badFlits : (s.now e l).badFlits = s.badFlits := rfl
@[simp] theorem State.now_badGranules : (s.now e l).badGranules = s.badGranules := rfl
@[simp] theorem State.now_badEntries : (s.now e l).badEntries = s.badEntries := rfl
@[simp] theorem State.now_packets : (s.now e l).packets = s.packets := rfl
@[simp] theorem State.now_pktNum : (s.now e l).pktNum = s.pktNum := rfl
@[simp] theorem State.now_endSeq : (s.now e l).endSeq = s.endSeq := rfl
@[simp] theorem State.now_tracks : (s.now e l).tracks = s.tracks := rfl
@[simp] theorem State.now_deadLinks : (s.now e l).deadLinks = s.deadLinks := rfl
@[simp] theorem State.now_launches : (s.now e l).launches = s.launches := rfl
@[simp] theorem State.now_nextSeq : (s.now e l).nextSeq = s.nextSeq := rfl
@[simp] theorem State.now_submissions : (s.now e l).submissions = s.submissions := rfl
@[simp] theorem State.now_barriers : (s.now e l).barriers = s.barriers := rfl
@[simp] theorem State.now_writes : (s.now e l).writes = s.writes := rfl
@[simp] theorem State.now_migs : (s.now e l).migs = s.migs := rfl
@[simp] theorem State.now_merges : (s.now e l).merges = s.merges := rfl
@[simp] theorem State.now_outbox : (s.now e l).outbox = s.outbox := rfl
@[simp] theorem State.now_fabric : (s.now e l).fabric = s.fabric := rfl
@[simp] theorem State.now_inbound : (s.now e l).inbound = s.inbound := rfl
@[simp] theorem State.now_gone : (s.now e l).gone = s.gone := rfl
@[simp] theorem State.now_fuses : (s.now e l).fuses = s.fuses := rfl
@[simp] theorem State.now_fusedRows : (s.now e l).fusedRows = s.fusedRows := rfl
@[simp] theorem State.now_fusedLanes : (s.now e l).fusedLanes = s.fusedLanes := rfl
@[simp] theorem State.now_free : (s.now e l).free = s.free := rfl
@[simp] theorem State.now_logical : (s.now e l).logical = s.logical := rfl
end now

section touch
variable (s : State) (a n : Nat)
@[simp] theorem State.touch_cycle : (s.touch a n).cycle = s.cycle := rfl
@[simp] theorem State.touch_mem : (s.touch a n).mem = s.mem := rfl
@[simp] theorem State.touch_full : (s.touch a n).full = s.full := rfl
@[simp] theorem State.touch_cores : (s.touch a n).cores = s.cores := rfl
@[simp] theorem State.touch_dies : (s.touch a n).dies = s.dies := rfl
@[simp] theorem State.touch_quads : (s.touch a n).quads = s.quads := rfl
@[simp] theorem State.touch_links : (s.touch a n).links = s.links := rfl
@[simp] theorem State.touch_mgmt : (s.touch a n).mgmt = s.mgmt := rfl
@[simp] theorem State.touch_issue : (s.touch a n).issue = s.issue := rfl
@[simp] theorem State.touch_evt : (s.touch a n).evt = s.evt := rfl
@[simp] theorem State.touch_agenda : (s.touch a n).agenda = s.agenda := rfl
@[simp] theorem State.touch_turns : (s.touch a n).turns = s.turns := rfl
@[simp] theorem State.touch_tail : (s.touch a n).tail = s.tail := rfl
@[simp] theorem State.touch_pending : (s.touch a n).pending = s.pending := rfl
@[simp] theorem State.touch_inputs : (s.touch a n).inputs = s.inputs := rfl
@[simp] theorem State.touch_badFlits : (s.touch a n).badFlits = s.badFlits := rfl
@[simp] theorem State.touch_badEntries : (s.touch a n).badEntries = s.badEntries := rfl
@[simp] theorem State.touch_packets : (s.touch a n).packets = s.packets := rfl
@[simp] theorem State.touch_pktNum : (s.touch a n).pktNum = s.pktNum := rfl
@[simp] theorem State.touch_endSeq : (s.touch a n).endSeq = s.endSeq := rfl
@[simp] theorem State.touch_tracks : (s.touch a n).tracks = s.tracks := rfl
@[simp] theorem State.touch_deadLinks : (s.touch a n).deadLinks = s.deadLinks := rfl
@[simp] theorem State.touch_launches : (s.touch a n).launches = s.launches := rfl
@[simp] theorem State.touch_nextSeq : (s.touch a n).nextSeq = s.nextSeq := rfl
@[simp] theorem State.touch_submissions : (s.touch a n).submissions = s.submissions := rfl
@[simp] theorem State.touch_barriers : (s.touch a n).barriers = s.barriers := rfl
@[simp] theorem State.touch_writes : (s.touch a n).writes = s.writes := rfl
@[simp] theorem State.touch_migs : (s.touch a n).migs = s.migs := rfl
@[simp] theorem State.touch_merges : (s.touch a n).merges = s.merges := rfl
@[simp] theorem State.touch_outbox : (s.touch a n).outbox = s.outbox := rfl
@[simp] theorem State.touch_fabric : (s.touch a n).fabric = s.fabric := rfl
@[simp] theorem State.touch_inbound : (s.touch a n).inbound = s.inbound := rfl
@[simp] theorem State.touch_gone : (s.touch a n).gone = s.gone := rfl
@[simp] theorem State.touch_fuses : (s.touch a n).fuses = s.fuses := rfl
@[simp] theorem State.touch_fusedRows : (s.touch a n).fusedRows = s.fusedRows := rfl
@[simp] theorem State.touch_fusedLanes : (s.touch a n).fusedLanes = s.fusedLanes := rfl
@[simp] theorem State.touch_free : (s.touch a n).free = s.free := rfl
@[simp] theorem State.touch_logical : (s.touch a n).logical = s.logical := rfl
end touch

section writeMem
variable (s : State) (a x n : Nat)
@[simp] theorem State.writeMem_cycle : (s.writeMem a x n).cycle = s.cycle := rfl
@[simp] theorem State.writeMem_full : (s.writeMem a x n).full = s.full := rfl
@[simp] theorem State.writeMem_cores : (s.writeMem a x n).cores = s.cores := rfl
@[simp] theorem State.writeMem_dies : (s.writeMem a x n).dies = s.dies := rfl
@[simp] theorem State.writeMem_quads : (s.writeMem a x n).quads = s.quads := rfl
@[simp] theorem State.writeMem_links : (s.writeMem a x n).links = s.links := rfl
@[simp] theorem State.writeMem_mgmt : (s.writeMem a x n).mgmt = s.mgmt := rfl
@[simp] theorem State.writeMem_issue : (s.writeMem a x n).issue = s.issue := rfl
@[simp] theorem State.writeMem_evt : (s.writeMem a x n).evt = s.evt := rfl
@[simp] theorem State.writeMem_agenda : (s.writeMem a x n).agenda = s.agenda := rfl
@[simp] theorem State.writeMem_turns : (s.writeMem a x n).turns = s.turns := rfl
@[simp] theorem State.writeMem_tail : (s.writeMem a x n).tail = s.tail := rfl
@[simp] theorem State.writeMem_pending : (s.writeMem a x n).pending = s.pending := rfl
@[simp] theorem State.writeMem_inputs : (s.writeMem a x n).inputs = s.inputs := rfl
@[simp] theorem State.writeMem_badFlits : (s.writeMem a x n).badFlits = s.badFlits := rfl
@[simp] theorem State.writeMem_badEntries : (s.writeMem a x n).badEntries = s.badEntries := rfl
@[simp] theorem State.writeMem_packets : (s.writeMem a x n).packets = s.packets := rfl
@[simp] theorem State.writeMem_pktNum : (s.writeMem a x n).pktNum = s.pktNum := rfl
@[simp] theorem State.writeMem_endSeq : (s.writeMem a x n).endSeq = s.endSeq := rfl
@[simp] theorem State.writeMem_tracks : (s.writeMem a x n).tracks = s.tracks := rfl
@[simp] theorem State.writeMem_deadLinks : (s.writeMem a x n).deadLinks = s.deadLinks := rfl
@[simp] theorem State.writeMem_launches : (s.writeMem a x n).launches = s.launches := rfl
@[simp] theorem State.writeMem_nextSeq : (s.writeMem a x n).nextSeq = s.nextSeq := rfl
@[simp] theorem State.writeMem_submissions : (s.writeMem a x n).submissions = s.submissions := rfl
@[simp] theorem State.writeMem_barriers : (s.writeMem a x n).barriers = s.barriers := rfl
@[simp] theorem State.writeMem_writes : (s.writeMem a x n).writes = s.writes := rfl
@[simp] theorem State.writeMem_migs : (s.writeMem a x n).migs = s.migs := rfl
@[simp] theorem State.writeMem_merges : (s.writeMem a x n).merges = s.merges := rfl
@[simp] theorem State.writeMem_outbox : (s.writeMem a x n).outbox = s.outbox := rfl
@[simp] theorem State.writeMem_fabric : (s.writeMem a x n).fabric = s.fabric := rfl
@[simp] theorem State.writeMem_inbound : (s.writeMem a x n).inbound = s.inbound := rfl
@[simp] theorem State.writeMem_gone : (s.writeMem a x n).gone = s.gone := rfl
@[simp] theorem State.writeMem_fuses : (s.writeMem a x n).fuses = s.fuses := rfl
@[simp] theorem State.writeMem_fusedRows : (s.writeMem a x n).fusedRows = s.fusedRows := rfl
@[simp] theorem State.writeMem_fusedLanes : (s.writeMem a x n).fusedLanes = s.fusedLanes := rfl
@[simp] theorem State.writeMem_free : (s.writeMem a x n).free = s.free := rfl
@[simp] theorem State.writeMem_logical : (s.writeMem a x n).logical = s.logical := rfl
end writeMem

end Sys2Proof.Machine
end

