-- ==== Sys2Proof/Laws/Maps.lean ====
section
/-!
SUPPORT. Reading after writing: sparse maps, cores, slots, and the registers of a slot.
-/
namespace Sys2Proof.Machine

@[simp] theorem SMap.get_set {α : Type} (m : SMap α) (k : Nat) (v d : α) : SMap.get (SMap.set m k v) k d = v := by
  induction m with
  | nil => simp [SMap.set, SMap.get]
  | cons p r ih =>
    obtain ⟨j, x⟩ := p
    by_cases h : j = k
    · simp [SMap.set, SMap.get, h]
    · by_cases h' : k < j
      · simp [SMap.set, SMap.get, h, h']
      · simp [SMap.set, SMap.get, h, h', ih]

theorem SMap.get_set_ne {α : Type} (m : SMap α) {k k' : Nat} (h : k' ≠ k) (v d : α) :
    SMap.get (SMap.set m k v) k' d = SMap.get m k' d := by
  induction m with
  | nil => simp [SMap.set, SMap.get, Ne.symm h]
  | cons p r ih =>
    obtain ⟨j, x⟩ := p
    by_cases hj : j = k
    · subst hj
      simp [SMap.set, SMap.get, Ne.symm h]
    · by_cases h' : k < j
      · simp [SMap.set, SMap.get, hj, h', Ne.symm h]
      · simp only [SMap.set, hj, h', if_false, SMap.get]
        rw [ih]

variable (s : State)

@[simp] theorem State.core_setCore (c : Nat) (x : Core) : (s.setCore c x).core c = x := by
  simp [State.setCore, State.core]
theorem State.core_setCore_ne {c c' : Nat} (h : c' ≠ c) (x : Core) : (s.setCore c x).core c' = s.core c' := by
  simp [State.setCore, State.core, SMap.get_set_ne _ h]
@[simp] theorem State.core_onCore (c : Nat) (f : Core → Core) : (s.onCore c f).core c = f (s.core c) := by
  simp [State.onCore]
theorem State.core_onCore_ne {c c' : Nat} (h : c' ≠ c) (f : Core → Core) : (s.onCore c f).core c' = s.core c' := by
  simp [State.onCore, State.core_setCore_ne s h]

@[simp] theorem Core.slot_setSlot (k : Core) (n : Nat) (x : Slot) : (k.setSlot n x).slot n = x := by
  simp [Core.setSlot, Core.slot]
theorem Core.slot_setSlot_ne (k : Core) {n n' : Nat} (h : n' ≠ n) (x : Slot) : (k.setSlot n x).slot n' = k.slot n' := by
  simp [Core.setSlot, Core.slot, SMap.get_set_ne _ h]

@[simp] theorem State.slot_setSlot (c n : Nat) (x : Slot) : (s.setSlot c n x).slot c n = x := by
  simp [State.setSlot, State.slot]
theorem State.slot_setSlot_ne {c n n' : Nat} (h : n' ≠ n) (x : Slot) : (s.setSlot c n x).slot c n' = s.slot c n' := by
  simp [State.setSlot, State.slot, Core.slot_setSlot_ne _ h]
theorem State.slot_setSlot_core {c c' : Nat} (h : c' ≠ c) (n n' : Nat) (x : Slot) :
    (s.setSlot c n x).slot c' n' = s.slot c' n' := by
  simp [State.setSlot, State.slot, State.core_onCore_ne s h]

@[simp] theorem State.slot_onSlot (c n : Nat) (f : Slot → Slot) : (s.onSlot c n f).slot c n = f (s.slot c n) := by
  simp [State.onSlot]
theorem State.slot_onSlot_ne {c n n' : Nat} (h : n' ≠ n) (f : Slot → Slot) :
    (s.onSlot c n f).slot c n' = s.slot c n' := by
  simp [State.onSlot, State.slot_setSlot_ne s h]
theorem State.slot_onSlot_core {c c' : Nat} (h : c' ≠ c) (n n' : Nat) (f : Slot → Slot) :
    (s.onSlot c n f).slot c' n' = s.slot c' n' := by
  simp [State.onSlot, State.slot_setSlot_core s h]
theorem State.core_onSlot (c n : Nat) (f : Slot → Slot) :
    (s.onSlot c n f).core c = (s.core c).setSlot n (f (s.slot c n)) := by
  simp [State.onSlot, State.setSlot]
theorem State.core_onSlot_ne {c c' : Nat} (h : c' ≠ c) (n : Nat) (f : Slot → Slot) :
    (s.onSlot c n f).core c' = s.core c' := by
  simp [State.onSlot, State.setSlot, State.core_onCore_ne s h]

/-- A change of a core that leaves its slots alone leaves every slot alone. -/
theorem State.slot_onCore (c : Nat) (f : Core → Core) (h : (f (s.core c)).slots = (s.core c).slots) (c' n : Nat) :
    (s.onCore c f).slot c' n = s.slot c' n := by
  by_cases hc : c' = c
  · subst hc
    simp [State.slot, Core.slot, h]
  · simp [State.slot, State.core_onCore_ne s hc]

/-- A change of a core's other fields leaves its slots alone. -/
@[simp] theorem State.slot_count (c i n c' m : Nat) : (s.count c i n).slot c' m = s.slot c' m := by
  unfold State.count
  exact s.slot_onCore c _ rfl c' m
@[simp] theorem State.slot_onVault (c : Nat) (f : Vault → Vault) (c' n : Nat) : (s.onVault c f).slot c' n = s.slot c' n :=
  s.slot_onCore c _ rfl c' n
@[simp] theorem State.slot_onLog (c : Nat) (f : Log → Log) (c' n : Nat) : (s.onLog c f).slot c' n = s.slot c' n :=
  s.slot_onCore c _ rfl c' n
@[simp] theorem State.slot_onTrap (c : Nat) (f : TrapState → TrapState) (c' n : Nat) :
    (s.onTrap c f).slot c' n = s.slot c' n :=
  s.slot_onCore c _ rfl c' n
@[simp] theorem State.slot_after (n : Nat) (e : Instr) (l : List Nat) (c m : Nat) : (s.after n e l).slot c m = s.slot c m :=
  rfl
@[simp] theorem State.slot_now (e : Instr) (l : List Nat) (c m : Nat) : (s.now e l).slot c m = s.slot c m := rfl
@[simp] theorem State.slot_writeMem (a x n c m : Nat) : (s.writeMem a x n).slot c m = s.slot c m := rfl

/-- Changes of one slot combine. -/
theorem SMap.set_set {α : Type} (m : SMap α) (k : Nat) (v w : α) : SMap.set (SMap.set m k v) k w = SMap.set m k w := by
  induction m with
  | nil => simp [SMap.set]
  | cons p r ih =>
    obtain ⟨j, x⟩ := p
    by_cases h : j = k
    · simp [SMap.set, h]
    · by_cases h' : k < j
      · simp [SMap.set, h, h']
      · simp [SMap.set, h, h', ih]
theorem State.onCore_onCore (c : Nat) (f g : Core → Core) : (s.onCore c f).onCore c g = s.onCore c (fun k => g (f k)) := by
  simp [State.onCore, State.setCore, State.core, SMap.set_set]
theorem State.setSlot_setSlot (c n : Nat) (x y : Slot) : (s.setSlot c n x).setSlot c n y = s.setSlot c n y := by
  simp [State.setSlot, State.onCore_onCore, Core.setSlot, SMap.set_set]
theorem State.onSlot_onSlot (c n : Nat) (f g : Slot → Slot) :
    (s.onSlot c n f).onSlot c n g = s.onSlot c n (fun t => g (f t)) := by
  unfold State.onSlot
  rw [State.slot_setSlot, State.setSlot_setSlot]

end Sys2Proof.Machine
end

