-- ==== Sys2Proof/Laws/Mem.lean ====
section
/-!
SUPPORT. Memory: a read after a write, and that every memory operation keeps the canonical form.
-/
namespace Sys2Proof.Machine

/-! The canonical form. -/

theorem Memory.wfFrom_mono {m : List Host.Cell} {lo lo' : Nat} (h : lo' ≤ lo) (w : Memory.wfFrom lo m = true) :
    Memory.wfFrom lo' m = true := by
  cases m with
  | nil => rfl
  | cons p r =>
    obtain ⟨a, x⟩ := p
    simp only [Memory.wfFrom, Bool.and_eq_true, decide_eq_true_eq] at w ⊢
    exact ⟨⟨Nat.le_trans h w.1.1, w.1.2⟩, w.2⟩

theorem Memory.write_wfFrom {m : List Host.Cell} {lo : Nat} (w : Memory.wfFrom lo m = true) {a : Nat} (h : lo ≤ a)
    (x : Byte) : Memory.wfFrom lo (Memory.write m a x) = true := by
  induction m generalizing lo with
  | nil =>
    by_cases hx : x = unlisted
    · simp [Memory.write, hx, Memory.wfFrom]
    · simp [Memory.write, hx, Memory.wfFrom, h]
  | cons p r ih =>
    obtain ⟨b, y⟩ := p
    simp only [Memory.wfFrom, Bool.and_eq_true, decide_eq_true_eq] at w
    by_cases hb : b = a
    · subst hb
      by_cases hx : x = unlisted
      · simpa [Memory.write, hx] using Memory.wfFrom_mono (Nat.le_succ_of_le w.1.1) w.2
      · simp [Memory.write, hx, Memory.wfFrom, w.1.1, w.2]
    · by_cases hl : a < b
      · by_cases hx : x = unlisted
        · simp [Memory.write, hb, hl, hx, Memory.wfFrom, w.1.1, w.1.2, w.2]
        · simp [Memory.write, hb, hl, hx, Memory.wfFrom, h, w.1.2, w.2, Nat.succ_le_of_lt hl]
      · have : b + 1 ≤ a := by omega
        simp [Memory.write, hb, hl, Memory.wfFrom, w.1.1, w.1.2, ih w.2 this]

/-- Writing a byte keeps the canonical form. -/
theorem Memory.write_wf {m : List Host.Cell} (w : Memory.wf m = true) (a : Nat) (x : Byte) :
    Memory.wf (Memory.write m a x) = true := Memory.write_wfFrom w (Nat.zero_le a) x
theorem Memory.writeNat_wf {m : List Host.Cell} (w : Memory.wf m = true) (a x n : Nat) :
    Memory.wf (Memory.writeNat m a x n) = true := by
  induction n generalizing m a x with
  | zero => exact w
  | succ n ih => exact ih (Memory.write_wf w a _) (a + 1) (x / 256)

theorem Memory.filter_wfFrom (p : Host.Cell → Bool) {m : List Host.Cell} {lo : Nat} (w : Memory.wfFrom lo m = true) :
    Memory.wfFrom lo (m.filter p) = true := by
  induction m generalizing lo with
  | nil => rfl
  | cons q r ih =>
    obtain ⟨a, x⟩ := q
    simp only [Memory.wfFrom, Bool.and_eq_true, decide_eq_true_eq] at w
    by_cases hp : p (a, x)
    · simp [List.filter, hp, Memory.wfFrom, w.1.1, w.1.2, ih w.2]
    · simpa [List.filter, hp] using ih (Memory.wfFrom_mono (Nat.le_succ_of_le w.1.1) w.2)
theorem Memory.filter_wf (p : Host.Cell → Bool) {m : List Host.Cell} (w : Memory.wf m = true) :
    Memory.wf (m.filter p) = true := Memory.filter_wfFrom p w

/-- The operations on a state's memory keep its canonical form. -/
theorem State.writeMem_wf {s : State} (w : Memory.wf s.mem = true) (a x n : Nat) :
    Memory.wf (s.writeMem a x n).mem = true := Memory.writeNat_wf w a x n
theorem State.writeCells_wf {s : State} (w : Memory.wf s.mem = true) (cs : List Host.Cell) :
    Memory.wf (s.writeCells cs).mem = true := by
  induction cs generalizing s with
  | nil => exact w
  | cons p r ih => exact ih (State.writeMem_wf w _ _ _)
theorem State.zeroMem_wf {s : State} (w : Memory.wf s.mem = true) (a n : Nat) : Memory.wf (s.zeroMem a n).mem = true :=
  Memory.filter_wf _ w
theorem State.writeCap_wf {s : State} (w : Memory.wf s.mem = true) (a : Nat) (c : Cap) :
    Memory.wf (s.writeCap a c).mem = true := by
  simp only [State.writeCap, State.setTag]
  exact State.writeMem_wf w a c.bits.toNat 16
theorem State.putWords_wf {s : State} (w : Memory.wf s.mem = true) (a : Nat) (l : List Nat) :
    Memory.wf (s.putWords a l).mem = true := by
  induction l generalizing s a with
  | nil => exact w
  | cons x r ih => exact ih (State.writeMem_wf w _ _ _) _
theorem State.putGprAt_mem (s : State) (c n : Nat) (r : Gpr) (x : Word) (k : Nat) : (s.putGprAt c n r x k).mem = s.mem := by
  unfold State.putGprAt
  repeat' split
  all_goals rfl
theorem State.putPredAt_mem (s : State) (c n : Nat) (r : Pr) (x : Pred) : (s.putPredAt c n r x).mem = s.mem := by
  unfold State.putPredAt
  repeat' split
  all_goals rfl
theorem State.onGroup_mem (s : State) (c b : Nat) (f : Group → Group) : (s.onGroup c b f).mem = s.mem := by
  unfold State.onGroup
  split <;> rfl
theorem State.setBankW_mem (s : State) (c b i : Nat) (x : Vec) : (s.setBankW c b i x).mem = s.mem := by
  unfold State.setBankW
  split
  · rfl
  · exact State.onGroup_mem ..
theorem State.setBankC_mem (s : State) (c b i : Nat) (x : Word) : (s.setBankC c b i x).mem = s.mem := by
  unfold State.setBankC
  split
  · rfl
  · exact State.onGroup_mem ..
theorem State.putVaultByte_mem (s : State) (c a : Nat) (x : Byte) :
    (s.putVaultByte c a x).mem = s.mem ∨
      (s.putVaultByte c a x).mem = (s.writeMem (vaultLoc c a) (x &&& s.memoryBits c a).toNat 1).mem := by
  unfold State.putVaultByte
  split
  · refine .inl ?_
    dsimp only
    repeat' split
    all_goals first
      | rfl
      | exact State.putGprAt_mem ..
      | exact State.putPredAt_mem ..
  · split
    · refine .inl ?_
      repeat' split
      all_goals first
        | rfl
        | exact State.setBankW_mem ..
        | exact State.setBankC_mem ..
    · exact .inr rfl
/-- A byte stored to a vault, wherever it lands, keeps the canonical form, and so do the bytes of a whole write. -/
theorem State.putVaultByte_wf {s : State} (w : Memory.wf s.mem = true) (c a : Nat) (x : Byte) :
    Memory.wf (s.putVaultByte c a x).mem = true := by
  rcases State.putVaultByte_mem s c a x with h | h <;> rw [h]
  · exact w
  · exact State.writeMem_wf w _ _ _
theorem State.putVaultCells_wf {s : State} (w : Memory.wf s.mem = true) (c : Nat) (cs : List Host.Cell) :
    Memory.wf (s.putVaultCells c cs).mem = true := by
  unfold State.putVaultCells
  show Memory.wf (cs.foldl _ s).mem = true
  induction cs generalizing s with
  | nil => exact w
  | cons p r ih => exact ih (State.putVaultByte_wf w _ _ _)
theorem Memory.writeAt_wf {m : List Host.Cell} (w : Memory.wf m = true) (a : Nat) (cs : List Host.Cell) :
    Memory.wf (Memory.writeAt m a cs) = true := by
  induction cs generalizing m with
  | nil => exact w
  | cons p r ih => exact ih (Memory.write_wf w _ _)
theorem putHalves_wf {m : List Host.Cell} (w : Memory.wf m = true) (a : Nat) (hs : List Half) :
    Memory.wf (putHalves m a hs) = true := by
  induction hs generalizing m a with
  | nil => exact w
  | cons h r ih => exact ih (Memory.writeNat_wf w _ _ _) _
theorem State.reset_wf : Memory.wf State.reset.mem = true := rfl

/-! A read after a write. -/

theorem Memory.read_below {m : List Host.Cell} {lo : Nat} (w : Memory.wfFrom lo m = true) {a : Nat} (h : a < lo) :
    Memory.read m a = unlisted := by
  cases m with
  | nil => rfl
  | cons p r =>
    obtain ⟨b, y⟩ := p
    simp only [Memory.wfFrom, Bool.and_eq_true, decide_eq_true_eq] at w
    have h1 : ¬ b = a := by omega
    have h2 : a < b := by omega
    simp [Memory.read, h1, h2]

theorem Memory.read_write_from {m : List Host.Cell} {lo : Nat} (w : Memory.wfFrom lo m = true) (a : Nat) (x : Byte)
    (b : Nat) : Memory.read (Memory.write m a x) b = if b = a then x else Memory.read m b := by
  induction m generalizing lo with
  | nil =>
    by_cases hx : x = unlisted <;> by_cases hb : b = a <;> simp [Memory.write, Memory.read, hx, hb]
    · intro h
      exact absurd h.symm hb
  | cons p r ih =>
    obtain ⟨c, y⟩ := p
    simp only [Memory.wfFrom, Bool.and_eq_true, decide_eq_true_eq] at w
    by_cases hc : c = a
    · subst hc
      by_cases hx : x = unlisted
      · by_cases hb : b = c
        · subst hb
          simp [Memory.write, hx, Memory.read_below w.2 (Nat.lt_succ_self b)]
        · by_cases hl : b < c
          · simp [Memory.write, hx, Memory.read, hb, Ne.symm hb, hl, Memory.read_below w.2 (Nat.lt_succ_of_lt hl)]
          · simp [Memory.write, hx, Memory.read, hb, Ne.symm hb, hl]
      · by_cases hb : b = c
        · simp [Memory.write, hx, Memory.read, hb]
        · simp [Memory.write, hx, Memory.read, hb, Ne.symm hb]
    · by_cases hl : a < c
      · by_cases hx : x = unlisted
        · by_cases hb : b = a
          · subst hb
            simp [Memory.write, hc, hl, hx, Memory.read]
          · simp [Memory.write, hc, hl, hx, hb]
        · by_cases hb : b = a
          · subst hb
            simp [Memory.write, hc, hl, hx, Memory.read]
          · by_cases hba : b < a
            · have h1 : ¬ c = b := by omega
              have h2 : b < c := by omega
              simp [Memory.write, hc, hl, hx, Memory.read, hb, Ne.symm hb, hba, h1, h2]
            · simp [Memory.write, hc, hl, hx, Memory.read, hb, Ne.symm hb, hba]
      · by_cases hb : c = b
        · subst hb
          simp [Memory.write, hc, hl, Memory.read]
        · by_cases hbc : b < c
          · have h1 : ¬ b = a := by omega
            simp [Memory.write, hc, hl, Memory.read, hb, hbc, h1]
          · simp [Memory.write, hc, hl, Memory.read, hb, hbc, ih w.2]

/-- A byte read after a write: the value written there, the old one elsewhere. -/
theorem Memory.read_write {m : List Host.Cell} (w : Memory.wf m = true) (a : Nat) (x : Byte) (b : Nat) :
    Memory.read (Memory.write m a x) b = if b = a then x else Memory.read m b := Memory.read_write_from w a x b
theorem Memory.read_writeNat_of_ne {m : List Host.Cell} (w : Memory.wf m = true) {a n b : Nat} (x : Nat)
    (h : b < a ∨ a + n ≤ b) : Memory.read (Memory.writeNat m a x n) b = Memory.read m b := by
  induction n generalizing m a x with
  | zero => rfl
  | succ n ih =>
    rw [Memory.writeNat, ih (Memory.write_wf w a _) (x / 256) (by omega), Memory.read_write w, if_neg (by omega)]
/-- Reading the bytes of a number elsewhere is unchanged by a write. -/
theorem Memory.readNat_writeNat_of_disjoint {m : List Host.Cell} (w : Memory.wf m = true) {a n b k : Nat} (x : Nat)
    (h : b + k ≤ a ∨ a + n ≤ b) : Memory.readNat (Memory.writeNat m a x n) b k = Memory.readNat m b k := by
  induction k generalizing b with
  | zero => rfl
  | succ k ih => rw [Memory.readNat, Memory.readNat, Memory.read_writeNat_of_ne w x (by omega), ih (by omega)]
/-- A number written is read back, cut to the bytes written. -/
theorem Memory.readNat_writeNat {m : List Host.Cell} (w : Memory.wf m = true) (a x n : Nat) :
    Memory.readNat (Memory.writeNat m a x n) a n = x % 256 ^ n := by
  induction n generalizing m a x with
  | zero => simp [Memory.readNat, Nat.mod_one]
  | succ n ih =>
    have w' := Memory.write_wf w a (BitVec.ofNat 8 x)
    rw [Memory.writeNat, Memory.readNat, ih w', Memory.read_writeNat_of_ne w' _ (by omega), Memory.read_write w,
      if_pos rfl, BitVec.toNat_ofNat, show (256 : Nat) ^ (n + 1) = 256 * 256 ^ n from Nat.pow_succ']
    exact Nat.mod_mul.symm

end Sys2Proof.Machine
end

