-- ==== Sys2Proof/Laws/PerInstr.lean ====
section
/-!
SUPPORT. Statements made of every instruction: the fields of an encoding pass the checks of their row and name the
instruction again.
-/
namespace Sys2Proof.Laws

/-- The instruction that a chain names: a command's kind stands in its block, not in its words (R272, R286). -/
def FieldTrip.chain : Instr → Instr
  | .cpyMulticast a => .cpy a
  | .cpyConvert a => .cpy a
  | .collReduceScatter sc a => .collAllreduce sc a
  | .collAllGather sc a => .collAllreduce sc a
  | .collXorParity sc a => .collAllreduce sc a
  | i => i
/-- The ranges of the fields of an encoding (R101, R104, R107, R111, R112), and what the compact forms leave out (R106). -/
def FieldTrip.InRange (f : Fields) : Prop :=
  f.page ≤ 8 ∧ f.m ≤ 13 ∧ f.d < 64 ∧ f.a < 64 ∧ f.b < 64 ∧ f.qtop < 16 ∧ f.ty < 8 ∧ f.md < 8 ∧ f.ext ≤ 4 ∧
  f.hi < 4096 ^ f.ext ∧ (12 ≤ f.m → f.page = 0 ∧ f.qtop = 0 ∧ f.ty = 0 ∧ f.md = 0) ∧ (f.m = 12 → f.ext = 0)
/-- Fields pass every check of their row (R109–R116). -/
def FieldTrip.Legal (f : Fields) (r : Row) : Prop :=
  r.q = true ∧ r.base = true ∧ (r.imm = true ∨ f.ext = 0) ∧
  (r.d.baseOk f.d = true ∧ r.a.baseOk f.a = true ∧ r.b.baseOk f.b = true) ∧
  (r.d.highOk f.d = true ∧ r.a.highOk f.a = true ∧ r.b.highOk f.b = true)
/-- The fields of a well-formed instruction are in range and legal, and name it. -/
def FieldTrip.Statement (i : Instr) : Prop :=
  i.wf = true → ∀ f, i.fields = some f →
    InRange f ∧ ∃ r, rowOf f = some r ∧ Legal f r ∧ ofFields f = some (chain i)

/-- The digits of an immediate below and above its base field (R98, R104). -/
theorem FieldTrip.imm4 {i : Imm} (h : i.wf 4 = true) :
    i.ext ≤ 4 ∧ i.val / 16 < 4096 ^ i.ext ∧ i.val / 16 * 16 + i.val % 16 % 16 = i.val ∧ i.val % 16 < 16 := by
  simp only [Imm.wf, Bool.and_eq_true, decide_eq_true_eq] at h
  refine ⟨h.1, ?_, by omega, by omega⟩
  have : (2 : Nat) ^ (4 + 12 * i.ext) = 16 * 4096 ^ i.ext := by rw [Nat.pow_add, Nat.pow_mul]
  omega
theorem FieldTrip.eta4 (n : Nat) : n / 16 * 16 + n % 16 = n := by omega
theorem FieldTrip.eta8 (n : Nat) : n / 256 * 256 + n / 16 % 16 * 16 + n % 16 = n := by omega
theorem FieldTrip.plus8 (s : BitVec 3) : BitVec.ofNat 3 (s.toNat + 8) = s := by
  apply BitVec.eq_of_toNat_eq; simp; omega
theorem FieldTrip.plus4 (s : BitVec 2) : BitVec.ofNat 2 (s.toNat + 4) = s := by
  apply BitVec.eq_of_toNat_eq; simp; omega
theorem FieldTrip.off (o : BitVec 12) :
    BitVec.ofNat 12 (o.toNat / 256 % 16 * 256 + o.toNat / 16 % 16 * 16 + o.toNat % 16) = o := by
  apply BitVec.eq_of_toNat_eq; have := o.isLt; simp; omega
/-- The two readings of R226 agree. -/
theorem FieldTrip.tile {e : TElem} {s : BitVec 4} {tr : BitVec 2} (h : tileFits e s.toNat tr.toNat = true) :
    tileOk e s.toNat tr.toNat = true := by
  revert h; revert s tr; cases e <;> decide
theorem FieldTrip.imm8 {i : Imm} (h : i.wf 8 = true) :
    i.ext ≤ 4 ∧ i.val / 256 < 4096 ^ i.ext ∧
      i.val / 256 * 256 + i.val / 16 % 16 % 16 * 16 + i.val % 16 % 16 = i.val ∧ i.val / 16 % 16 < 16 ∧ i.val % 16 < 16 := by
  simp only [Imm.wf, Bool.and_eq_true, decide_eq_true_eq] at h
  refine ⟨h.1, ?_, by omega, by omega, by omega⟩
  have : (2 : Nat) ^ (8 + 12 * i.ext) = 256 * 4096 ^ i.ext := by rw [Nat.pow_add, Nat.pow_mul]
  omega

theorem FieldTrip.add (w : Width) (d : Gpr) (a : Gpr) (b : Gpr) : Statement (.add w d a b) := by
  intro hw f hf; cases hf
  have := d.isLt
  have := a.isLt
  have := b.isLt
  cases w <;> (try simp only [Width.code, Nat.reduceMul, Nat.reduceAdd, Nat.reduceDiv, Nat.reduceMod]) <;> refine ⟨by simp [InRange, Width.code] <;> (try simp only [decide_eq_true_eq, Bool.and_eq_true]) <;> first | omega | exact ⟨decide_eq_true (by omega), by omega⟩, _, rfl, by simp [Fields.q6, Fields.rc, Legal, FieldKind.baseOk, FieldKind.highOk, Width.code] <;> (try simp only [decide_eq_true_eq, Bool.and_eq_true]) <;> first | omega | exact ⟨decide_eq_true (by omega), by omega⟩, by simp [Fields.q6, Fields.rc, ofFields, ofFields0, chain, Width.ofCode, Width.code] <;> (try simp only [decide_eq_true_eq, Bool.and_eq_true]) <;> first | omega | exact ⟨decide_eq_true (by omega), by omega⟩⟩
theorem FieldTrip.min (w : Width) (d : Gpr) (a : Gpr) (b : Gpr) : Statement (.min w d a b) := by
  intro hw f hf; cases hf
  have := d.isLt
  have := a.isLt
  have := b.isLt
  cases w <;> (try simp only [Width.code, Nat.reduceMul, Nat.reduceAdd, Nat.reduceDiv, Nat.reduceMod]) <;> refine ⟨by simp [InRange, Width.code] <;> (try simp only [decide_eq_true_eq, Bool.and_eq_true]) <;> first | omega | exact ⟨decide_eq_true (by omega), by omega⟩, _, rfl, by simp [Fields.q6, Fields.rc, Legal, FieldKind.baseOk, FieldKind.highOk, Width.code] <;> (try simp only [decide_eq_true_eq, Bool.and_eq_true]) <;> first | omega | exact ⟨decide_eq_true (by omega), by omega⟩, by simp [Fields.q6, Fields.rc, ofFields, ofFields0, chain, Width.ofCode, Width.code] <;> (try simp only [decide_eq_true_eq, Bool.and_eq_true]) <;> first | omega | exact ⟨decide_eq_true (by omega), by omega⟩⟩
theorem FieldTrip.max (w : Width) (d : Gpr) (a : Gpr) (b : Gpr) : Statement (.max w d a b) := by
  intro hw f hf; cases hf
  have := d.isLt
  have := a.isLt
  have := b.isLt
  cases w <;> (try simp only [Width.code, Nat.reduceMul, Nat.reduceAdd, Nat.reduceDiv, Nat.reduceMod]) <;> refine ⟨by simp [InRange, Width.code] <;> (try simp only [decide_eq_true_eq, Bool.and_eq_true]) <;> first | omega | exact ⟨decide_eq_true (by omega), by omega⟩, _, rfl, by simp [Fields.q6, Fields.rc, Legal, FieldKind.baseOk, FieldKind.highOk, Width.code] <;> (try simp only [decide_eq_true_eq, Bool.and_eq_true]) <;> first | omega | exact ⟨decide_eq_true (by omega), by omega⟩, by simp [Fields.q6, Fields.rc, ofFields, ofFields0, chain, Width.ofCode, Width.code] <;> (try simp only [decide_eq_true_eq, Bool.and_eq_true]) <;> first | omega | exact ⟨decide_eq_true (by omega), by omega⟩⟩
theorem FieldTrip.minn (w : Width) (d : Gpr) (a : Gpr) (b : Gpr) : Statement (.minn w d a b) := by
  intro hw f hf; cases hf
  have := d.isLt
  have := a.isLt
  have := b.isLt
  cases w <;> (try simp only [Width.code, Nat.reduceMul, Nat.reduceAdd, Nat.reduceDiv, Nat.reduceMod]) <;> refine ⟨by simp [InRange, Width.code] <;> (try simp only [decide_eq_true_eq, Bool.and_eq_true]) <;> first | omega | exact ⟨decide_eq_true (by omega), by omega⟩, _, rfl, by simp [Fields.q6, Fields.rc, Legal, FieldKind.baseOk, FieldKind.highOk, Width.code] <;> (try simp only [decide_eq_true_eq, Bool.and_eq_true]) <;> first | omega | exact ⟨decide_eq_true (by omega), by omega⟩, by simp [Fields.q6, Fields.rc, ofFields, ofFields0, chain, Width.ofCode, Width.code] <;> (try simp only [decide_eq_true_eq, Bool.and_eq_true]) <;> first | omega | exact ⟨decide_eq_true (by omega), by omega⟩⟩
theorem FieldTrip.maxn (w : Width) (d : Gpr) (a : Gpr) (b : Gpr) : Statement (.maxn w d a b) := by
  intro hw f hf; cases hf
  have := d.isLt
  have := a.isLt
  have := b.isLt
  cases w <;> (try simp only [Width.code, Nat.reduceMul, Nat.reduceAdd, Nat.reduceDiv, Nat.reduceMod]) <;> refine ⟨by simp [InRange, Width.code] <;> (try simp only [decide_eq_true_eq, Bool.and_eq_true]) <;> first | omega | exact ⟨decide_eq_true (by omega), by omega⟩, _, rfl, by simp [Fields.q6, Fields.rc, Legal, FieldKind.baseOk, FieldKind.highOk, Width.code] <;> (try simp only [decide_eq_true_eq, Bool.and_eq_true]) <;> first | omega | exact ⟨decide_eq_true (by omega), by omega⟩, by simp [Fields.q6, Fields.rc, ofFields, ofFields0, chain, Width.ofCode, Width.code] <;> (try simp only [decide_eq_true_eq, Bool.and_eq_true]) <;> first | omega | exact ⟨decide_eq_true (by omega), by omega⟩⟩
theorem FieldTrip.addi (w : Width) (d : Gpr) (a : Gpr) (i : Imm) : Statement (.addi w d a i) := by
  intro hw f hf; cases hf
  have := d.isLt
  have := a.isLt
  have hv : i.wf 4 = true := by simp only [Instr.wf, Bool.and_eq_true] at hw <;> first | exact hw | exact hw.1 | exact hw.1.1
  obtain ⟨h1, h2, h3, h4⟩ := imm4 hv
  cases w <;> (try simp [Instr.wf, Width.code] at hw) <;> (try simp only [Width.code, Fields.putImm, Nat.reduceMul, Nat.reduceAdd, Nat.reduceDiv, Nat.reduceMod]) <;> refine ⟨by simp [InRange, Width.code, Fields.putImm] <;> (try simp only [decide_eq_true_eq, Bool.and_eq_true]) <;> first | omega | exact ⟨decide_eq_true (by omega), by omega⟩, _, rfl, by simp [Fields.q6, Fields.rc, Legal, FieldKind.baseOk, FieldKind.highOk, Width.code, Fields.putImm] <;> (try simp only [decide_eq_true_eq, Bool.and_eq_true]) <;> first | omega | exact ⟨decide_eq_true (by omega), by omega⟩, by simp [Fields.q6, Fields.rc, ofFields, ofFields0, chain, Width.ofCode, Width.code, Fields.putImm, Fields.getImm, Fields.immN, eta4] <;> (try simp only [decide_eq_true_eq, Bool.and_eq_true]) <;> first | omega | exact ⟨decide_eq_true (by omega), by omega⟩⟩
theorem FieldTrip.sub (w : Width) (d : Gpr) (a : Gpr) (b : Gpr) : Statement (.sub w d a b) := by
  intro hw f hf; cases hf
  have := d.isLt
  have := a.isLt
  have := b.isLt
  cases w <;> (try simp only [Width.code, Nat.reduceMul, Nat.reduceAdd, Nat.reduceDiv, Nat.reduceMod]) <;> refine ⟨by simp [InRange, Width.code] <;> (try simp only [decide_eq_true_eq, Bool.and_eq_true]) <;> first | omega | exact ⟨decide_eq_true (by omega), by omega⟩, _, rfl, by simp [Fields.q6, Fields.rc, Legal, FieldKind.baseOk, FieldKind.highOk, Width.code] <;> (try simp only [decide_eq_true_eq, Bool.and_eq_true]) <;> first | omega | exact ⟨decide_eq_true (by omega), by omega⟩, by simp [Fields.q6, Fields.rc, ofFields, ofFields0, chain, Width.ofCode, Width.code] <;> (try simp only [decide_eq_true_eq, Bool.and_eq_true]) <;> first | omega | exact ⟨decide_eq_true (by omega), by omega⟩⟩
theorem FieldTrip.and (w : Width) (d : Gpr) (a : Gpr) (b : Gpr) : Statement (.and w d a b) := by
  intro hw f hf; cases hf
  have := d.isLt
  have := a.isLt
  have := b.isLt
  cases w <;> (try simp only [Width.code, Nat.reduceMul, Nat.reduceAdd, Nat.reduceDiv, Nat.reduceMod]) <;> refine ⟨by simp [InRange, Width.code] <;> (try simp only [decide_eq_true_eq, Bool.and_eq_true]) <;> first | omega | exact ⟨decide_eq_true (by omega), by omega⟩, _, rfl, by simp [Fields.q6, Fields.rc, Legal, FieldKind.baseOk, FieldKind.highOk, Width.code] <;> (try simp only [decide_eq_true_eq, Bool.and_eq_true]) <;> first | omega | exact ⟨decide_eq_true (by omega), by omega⟩, by simp [Fields.q6, Fields.rc, ofFields, ofFields0, chain, Width.ofCode, Width.code] <;> (try simp only [decide_eq_true_eq, Bool.and_eq_true]) <;> first | omega | exact ⟨decide_eq_true (by omega), by omega⟩⟩
theorem FieldTrip.or (w : Width) (d : Gpr) (a : Gpr) (b : Gpr) : Statement (.or w d a b) := by
  intro hw f hf; cases hf
  have := d.isLt
  have := a.isLt
  have := b.isLt
  cases w <;> (try simp only [Width.code, Nat.reduceMul, Nat.reduceAdd, Nat.reduceDiv, Nat.reduceMod]) <;> refine ⟨by simp [InRange, Width.code] <;> (try simp only [decide_eq_true_eq, Bool.and_eq_true]) <;> first | omega | exact ⟨decide_eq_true (by omega), by omega⟩, _, rfl, by simp [Fields.q6, Fields.rc, Legal, FieldKind.baseOk, FieldKind.highOk, Width.code] <;> (try simp only [decide_eq_true_eq, Bool.and_eq_true]) <;> first | omega | exact ⟨decide_eq_true (by omega), by omega⟩, by simp [Fields.q6, Fields.rc, ofFields, ofFields0, chain, Width.ofCode, Width.code] <;> (try simp only [decide_eq_true_eq, Bool.and_eq_true]) <;> first | omega | exact ⟨decide_eq_true (by omega), by omega⟩⟩
theorem FieldTrip.xor (w : Width) (d : Gpr) (a : Gpr) (b : Gpr) : Statement (.xor w d a b) := by
  intro hw f hf; cases hf
  have := d.isLt
  have := a.isLt
  have := b.isLt
  cases w <;> (try simp only [Width.code, Nat.reduceMul, Nat.reduceAdd, Nat.reduceDiv, Nat.reduceMod]) <;> refine ⟨by simp [InRange, Width.code] <;> (try simp only [decide_eq_true_eq, Bool.and_eq_true]) <;> first | omega | exact ⟨decide_eq_true (by omega), by omega⟩, _, rfl, by simp [Fields.q6, Fields.rc, Legal, FieldKind.baseOk, FieldKind.highOk, Width.code] <;> (try simp only [decide_eq_true_eq, Bool.and_eq_true]) <;> first | omega | exact ⟨decide_eq_true (by omega), by omega⟩, by simp [Fields.q6, Fields.rc, ofFields, ofFields0, chain, Width.ofCode, Width.code] <;> (try simp only [decide_eq_true_eq, Bool.and_eq_true]) <;> first | omega | exact ⟨decide_eq_true (by omega), by omega⟩⟩
theorem FieldTrip.andn (w : Width) (d : Gpr) (a : Gpr) (b : Gpr) : Statement (.andn w d a b) := by
  intro hw f hf; cases hf
  have := d.isLt
  have := a.isLt
  have := b.isLt
  cases w <;> (try simp only [Width.code, Nat.reduceMul, Nat.reduceAdd, Nat.reduceDiv, Nat.reduceMod]) <;> refine ⟨by simp [InRange, Width.code] <;> (try simp only [decide_eq_true_eq, Bool.and_eq_true]) <;> first | omega | exact ⟨decide_eq_true (by omega), by omega⟩, _, rfl, by simp [Fields.q6, Fields.rc, Legal, FieldKind.baseOk, FieldKind.highOk, Width.code] <;> (try simp only [decide_eq_true_eq, Bool.and_eq_true]) <;> first | omega | exact ⟨decide_eq_true (by omega), by omega⟩, by simp [Fields.q6, Fields.rc, ofFields, ofFields0, chain, Width.ofCode, Width.code] <;> (try simp only [decide_eq_true_eq, Bool.and_eq_true]) <;> first | omega | exact ⟨decide_eq_true (by omega), by omega⟩⟩
theorem FieldTrip.orn (w : Width) (d : Gpr) (a : Gpr) (b : Gpr) : Statement (.orn w d a b) := by
  intro hw f hf; cases hf
  have := d.isLt
  have := a.isLt
  have := b.isLt
  cases w <;> (try simp only [Width.code, Nat.reduceMul, Nat.reduceAdd, Nat.reduceDiv, Nat.reduceMod]) <;> refine ⟨by simp [InRange, Width.code] <;> (try simp only [decide_eq_true_eq, Bool.and_eq_true]) <;> first | omega | exact ⟨decide_eq_true (by omega), by omega⟩, _, rfl, by simp [Fields.q6, Fields.rc, Legal, FieldKind.baseOk, FieldKind.highOk, Width.code] <;> (try simp only [decide_eq_true_eq, Bool.and_eq_true]) <;> first | omega | exact ⟨decide_eq_true (by omega), by omega⟩, by simp [Fields.q6, Fields.rc, ofFields, ofFields0, chain, Width.ofCode, Width.code] <;> (try simp only [decide_eq_true_eq, Bool.and_eq_true]) <;> first | omega | exact ⟨decide_eq_true (by omega), by omega⟩⟩
theorem FieldTrip.xnor (w : Width) (d : Gpr) (a : Gpr) (b : Gpr) : Statement (.xnor w d a b) := by
  intro hw f hf; cases hf
  have := d.isLt
  have := a.isLt
  have := b.isLt
  cases w <;> (try simp only [Width.code, Nat.reduceMul, Nat.reduceAdd, Nat.reduceDiv, Nat.reduceMod]) <;> refine ⟨by simp [InRange, Width.code] <;> (try simp only [decide_eq_true_eq, Bool.and_eq_true]) <;> first | omega | exact ⟨decide_eq_true (by omega), by omega⟩, _, rfl, by simp [Fields.q6, Fields.rc, Legal, FieldKind.baseOk, FieldKind.highOk, Width.code] <;> (try simp only [decide_eq_true_eq, Bool.and_eq_true]) <;> first | omega | exact ⟨decide_eq_true (by omega), by omega⟩, by simp [Fields.q6, Fields.rc, ofFields, ofFields0, chain, Width.ofCode, Width.code] <;> (try simp only [decide_eq_true_eq, Bool.and_eq_true]) <;> first | omega | exact ⟨decide_eq_true (by omega), by omega⟩⟩
theorem FieldTrip.shl (w : Width) (d : Gpr) (a : Gpr) (b : Gpr) : Statement (.shl w d a b) := by
  intro hw f hf; cases hf
  have := d.isLt
  have := a.isLt
  have := b.isLt
  cases w <;> (try simp only [Width.code, Nat.reduceMul, Nat.reduceAdd, Nat.reduceDiv, Nat.reduceMod]) <;> refine ⟨by simp [InRange, Width.code] <;> (try simp only [decide_eq_true_eq, Bool.and_eq_true]) <;> first | omega | exact ⟨decide_eq_true (by omega), by omega⟩, _, rfl, by simp [Fields.q6, Fields.rc, Legal, FieldKind.baseOk, FieldKind.highOk, Width.code] <;> (try simp only [decide_eq_true_eq, Bool.and_eq_true]) <;> first | omega | exact ⟨decide_eq_true (by omega), by omega⟩, by simp [Fields.q6, Fields.rc, ofFields, ofFields0, chain, Width.ofCode, Width.code] <;> (try simp only [decide_eq_true_eq, Bool.and_eq_true]) <;> first | omega | exact ⟨decide_eq_true (by omega), by omega⟩⟩
theorem FieldTrip.shr (w : Width) (d : Gpr) (a : Gpr) (b : Gpr) : Statement (.shr w d a b) := by
  intro hw f hf; cases hf
  have := d.isLt
  have := a.isLt
  have := b.isLt
  cases w <;> (try simp only [Width.code, Nat.reduceMul, Nat.reduceAdd, Nat.reduceDiv, Nat.reduceMod]) <;> refine ⟨by simp [InRange, Width.code] <;> (try simp only [decide_eq_true_eq, Bool.and_eq_true]) <;> first | omega | exact ⟨decide_eq_true (by omega), by omega⟩, _, rfl, by simp [Fields.q6, Fields.rc, Legal, FieldKind.baseOk, FieldKind.highOk, Width.code] <;> (try simp only [decide_eq_true_eq, Bool.and_eq_true]) <;> first | omega | exact ⟨decide_eq_true (by omega), by omega⟩, by simp [Fields.q6, Fields.rc, ofFields, ofFields0, chain, Width.ofCode, Width.code] <;> (try simp only [decide_eq_true_eq, Bool.and_eq_true]) <;> first | omega | exact ⟨decide_eq_true (by omega), by omega⟩⟩
theorem FieldTrip.sra (w : Width) (d : Gpr) (a : Gpr) (b : Gpr) : Statement (.sra w d a b) := by
  intro hw f hf; cases hf
  have := d.isLt
  have := a.isLt
  have := b.isLt
  cases w <;> (try simp only [Width.code, Nat.reduceMul, Nat.reduceAdd, Nat.reduceDiv, Nat.reduceMod]) <;> refine ⟨by simp [InRange, Width.code] <;> (try simp only [decide_eq_true_eq, Bool.and_eq_true]) <;> first | omega | exact ⟨decide_eq_true (by omega), by omega⟩, _, rfl, by simp [Fields.q6, Fields.rc, Legal, FieldKind.baseOk, FieldKind.highOk, Width.code] <;> (try simp only [decide_eq_true_eq, Bool.and_eq_true]) <;> first | omega | exact ⟨decide_eq_true (by omega), by omega⟩, by simp [Fields.q6, Fields.rc, ofFields, ofFields0, chain, Width.ofCode, Width.code] <;> (try simp only [decide_eq_true_eq, Bool.and_eq_true]) <;> first | omega | exact ⟨decide_eq_true (by omega), by omega⟩⟩
theorem FieldTrip.rol (w : Width) (d : Gpr) (a : Gpr) (b : Gpr) : Statement (.rol w d a b) := by
  intro hw f hf; cases hf
  have := d.isLt
  have := a.isLt
  have := b.isLt
  cases w <;> (try simp only [Width.code, Nat.reduceMul, Nat.reduceAdd, Nat.reduceDiv, Nat.reduceMod]) <;> refine ⟨by simp [InRange, Width.code] <;> (try simp only [decide_eq_true_eq, Bool.and_eq_true]) <;> first | omega | exact ⟨decide_eq_true (by omega), by omega⟩, _, rfl, by simp [Fields.q6, Fields.rc, Legal, FieldKind.baseOk, FieldKind.highOk, Width.code] <;> (try simp only [decide_eq_true_eq, Bool.and_eq_true]) <;> first | omega | exact ⟨decide_eq_true (by omega), by omega⟩, by simp [Fields.q6, Fields.rc, ofFields, ofFields0, chain, Width.ofCode, Width.code] <;> (try simp only [decide_eq_true_eq, Bool.and_eq_true]) <;> first | omega | exact ⟨decide_eq_true (by omega), by omega⟩⟩
theorem FieldTrip.ror (w : Width) (d : Gpr) (a : Gpr) (b : Gpr) : Statement (.ror w d a b) := by
  intro hw f hf; cases hf
  have := d.isLt
  have := a.isLt
  have := b.isLt
  cases w <;> (try simp only [Width.code, Nat.reduceMul, Nat.reduceAdd, Nat.reduceDiv, Nat.reduceMod]) <;> refine ⟨by simp [InRange, Width.code] <;> (try simp only [decide_eq_true_eq, Bool.and_eq_true]) <;> first | omega | exact ⟨decide_eq_true (by omega), by omega⟩, _, rfl, by simp [Fields.q6, Fields.rc, Legal, FieldKind.baseOk, FieldKind.highOk, Width.code] <;> (try simp only [decide_eq_true_eq, Bool.and_eq_true]) <;> first | omega | exact ⟨decide_eq_true (by omega), by omega⟩, by simp [Fields.q6, Fields.rc, ofFields, ofFields0, chain, Width.ofCode, Width.code] <;> (try simp only [decide_eq_true_eq, Bool.and_eq_true]) <;> first | omega | exact ⟨decide_eq_true (by omega), by omega⟩⟩
theorem FieldTrip.shli (w : Width) (d : Gpr) (a : Gpr) (i : Imm) : Statement (.shli w d a i) := by
  intro hw f hf; cases hf
  have := d.isLt
  have := a.isLt
  have hv : i.wf 4 = true := by simp only [Instr.wf, Bool.and_eq_true] at hw <;> first | exact hw | exact hw.1 | exact hw.1.1
  obtain ⟨h1, h2, h3, h4⟩ := imm4 hv
  cases w <;> (try simp [Instr.wf, Width.code] at hw) <;> (try simp only [Width.code, Fields.putImm, Nat.reduceMul, Nat.reduceAdd, Nat.reduceDiv, Nat.reduceMod]) <;> refine ⟨by simp [InRange, Width.code, Fields.putImm] <;> (try simp only [decide_eq_true_eq, Bool.and_eq_true]) <;> first | omega | exact ⟨decide_eq_true (by omega), by omega⟩, _, rfl, by simp [Fields.q6, Fields.rc, Legal, FieldKind.baseOk, FieldKind.highOk, Width.code, Fields.putImm] <;> (try simp only [decide_eq_true_eq, Bool.and_eq_true]) <;> first | omega | exact ⟨decide_eq_true (by omega), by omega⟩, by simp [Fields.q6, Fields.rc, ofFields, ofFields0, chain, Width.ofCode, Width.code, Fields.putImm, Fields.getImm, Fields.immN, eta4] <;> (try simp only [decide_eq_true_eq, Bool.and_eq_true]) <;> first | omega | exact ⟨decide_eq_true (by omega), by omega⟩⟩
theorem FieldTrip.shri (w : Width) (d : Gpr) (a : Gpr) (i : Imm) : Statement (.shri w d a i) := by
  intro hw f hf; cases hf
  have := d.isLt
  have := a.isLt
  have hv : i.wf 4 = true := by simp only [Instr.wf, Bool.and_eq_true] at hw <;> first | exact hw | exact hw.1 | exact hw.1.1
  obtain ⟨h1, h2, h3, h4⟩ := imm4 hv
  cases w <;> (try simp [Instr.wf, Width.code] at hw) <;> (try simp only [Width.code, Fields.putImm, Nat.reduceMul, Nat.reduceAdd, Nat.reduceDiv, Nat.reduceMod]) <;> refine ⟨by simp [InRange, Width.code, Fields.putImm] <;> (try simp only [decide_eq_true_eq, Bool.and_eq_true]) <;> first | omega | exact ⟨decide_eq_true (by omega), by omega⟩, _, rfl, by simp [Fields.q6, Fields.rc, Legal, FieldKind.baseOk, FieldKind.highOk, Width.code, Fields.putImm] <;> (try simp only [decide_eq_true_eq, Bool.and_eq_true]) <;> first | omega | exact ⟨decide_eq_true (by omega), by omega⟩, by simp [Fields.q6, Fields.rc, ofFields, ofFields0, chain, Width.ofCode, Width.code, Fields.putImm, Fields.getImm, Fields.immN, eta4] <;> (try simp only [decide_eq_true_eq, Bool.and_eq_true]) <;> first | omega | exact ⟨decide_eq_true (by omega), by omega⟩⟩
theorem FieldTrip.srai (w : Width) (d : Gpr) (a : Gpr) (i : Imm) : Statement (.srai w d a i) := by
  intro hw f hf; cases hf
  have := d.isLt
  have := a.isLt
  have hv : i.wf 4 = true := by simp only [Instr.wf, Bool.and_eq_true] at hw <;> first | exact hw | exact hw.1 | exact hw.1.1
  obtain ⟨h1, h2, h3, h4⟩ := imm4 hv
  cases w <;> (try simp [Instr.wf, Width.code] at hw) <;> (try simp only [Width.code, Fields.putImm, Nat.reduceMul, Nat.reduceAdd, Nat.reduceDiv, Nat.reduceMod]) <;> refine ⟨by simp [InRange, Width.code, Fields.putImm] <;> (try simp only [decide_eq_true_eq, Bool.and_eq_true]) <;> first | omega | exact ⟨decide_eq_true (by omega), by omega⟩, _, rfl, by simp [Fields.q6, Fields.rc, Legal, FieldKind.baseOk, FieldKind.highOk, Width.code, Fields.putImm] <;> (try simp only [decide_eq_true_eq, Bool.and_eq_true]) <;> first | omega | exact ⟨decide_eq_true (by omega), by omega⟩, by simp [Fields.q6, Fields.rc, ofFields, ofFields0, chain, Width.ofCode, Width.code, Fields.putImm, Fields.getImm, Fields.immN, eta4] <;> (try simp only [decide_eq_true_eq, Bool.and_eq_true]) <;> first | omega | exact ⟨decide_eq_true (by omega), by omega⟩⟩
theorem FieldTrip.roli (w : Width) (d : Gpr) (a : Gpr) (i : Imm) : Statement (.roli w d a i) := by
  intro hw f hf; cases hf
  have := d.isLt
  have := a.isLt
  have hv : i.wf 4 = true := by simp only [Instr.wf, Bool.and_eq_true] at hw <;> first | exact hw | exact hw.1 | exact hw.1.1
  obtain ⟨h1, h2, h3, h4⟩ := imm4 hv
  cases w <;> (try simp [Instr.wf, Width.code] at hw) <;> (try simp only [Width.code, Fields.putImm, Nat.reduceMul, Nat.reduceAdd, Nat.reduceDiv, Nat.reduceMod]) <;> refine ⟨by simp [InRange, Width.code, Fields.putImm] <;> (try simp only [decide_eq_true_eq, Bool.and_eq_true]) <;> first | omega | exact ⟨decide_eq_true (by omega), by omega⟩, _, rfl, by simp [Fields.q6, Fields.rc, Legal, FieldKind.baseOk, FieldKind.highOk, Width.code, Fields.putImm] <;> (try simp only [decide_eq_true_eq, Bool.and_eq_true]) <;> first | omega | exact ⟨decide_eq_true (by omega), by omega⟩, by simp [Fields.q6, Fields.rc, ofFields, ofFields0, chain, Width.ofCode, Width.code, Fields.putImm, Fields.getImm, Fields.immN, eta4] <;> (try simp only [decide_eq_true_eq, Bool.and_eq_true]) <;> first | omega | exact ⟨decide_eq_true (by omega), by omega⟩⟩
theorem FieldTrip.rori (w : Width) (d : Gpr) (a : Gpr) (i : Imm) : Statement (.rori w d a i) := by
  intro hw f hf; cases hf
  have := d.isLt
  have := a.isLt
  have hv : i.wf 4 = true := by simp only [Instr.wf, Bool.and_eq_true] at hw <;> first | exact hw | exact hw.1 | exact hw.1.1
  obtain ⟨h1, h2, h3, h4⟩ := imm4 hv
  cases w <;> (try simp [Instr.wf, Width.code] at hw) <;> (try simp only [Width.code, Fields.putImm, Nat.reduceMul, Nat.reduceAdd, Nat.reduceDiv, Nat.reduceMod]) <;> refine ⟨by simp [InRange, Width.code, Fields.putImm] <;> (try simp only [decide_eq_true_eq, Bool.and_eq_true]) <;> first | omega | exact ⟨decide_eq_true (by omega), by omega⟩, _, rfl, by simp [Fields.q6, Fields.rc, Legal, FieldKind.baseOk, FieldKind.highOk, Width.code, Fields.putImm] <;> (try simp only [decide_eq_true_eq, Bool.and_eq_true]) <;> first | omega | exact ⟨decide_eq_true (by omega), by omega⟩, by simp [Fields.q6, Fields.rc, ofFields, ofFields0, chain, Width.ofCode, Width.code, Fields.putImm, Fields.getImm, Fields.immN, eta4] <;> (try simp only [decide_eq_true_eq, Bool.and_eq_true]) <;> first | omega | exact ⟨decide_eq_true (by omega), by omega⟩⟩
theorem FieldTrip.mul (w : Width) (d : Gpr) (a : Gpr) (b : Gpr) : Statement (.mul w d a b) := by
  intro hw f hf; cases hf
  have := d.isLt
  have := a.isLt
  have := b.isLt
  cases w <;> (try simp only [Width.code, Nat.reduceMul, Nat.reduceAdd, Nat.reduceDiv, Nat.reduceMod]) <;> refine ⟨by simp [InRange, Width.code] <;> (try simp only [decide_eq_true_eq, Bool.and_eq_true]) <;> first | omega | exact ⟨decide_eq_true (by omega), by omega⟩, _, rfl, by simp [Fields.q6, Fields.rc, Legal, FieldKind.baseOk, FieldKind.highOk, Width.code] <;> (try simp only [decide_eq_true_eq, Bool.and_eq_true]) <;> first | omega | exact ⟨decide_eq_true (by omega), by omega⟩, by simp [Fields.q6, Fields.rc, ofFields, ofFields0, chain, Width.ofCode, Width.code] <;> (try simp only [decide_eq_true_eq, Bool.and_eq_true]) <;> first | omega | exact ⟨decide_eq_true (by omega), by omega⟩⟩
theorem FieldTrip.mulh (w : Width) (d : Gpr) (a : Gpr) (b : Gpr) : Statement (.mulh w d a b) := by
  intro hw f hf; cases hf
  have := d.isLt
  have := a.isLt
  have := b.isLt
  cases w <;> (try simp only [Width.code, Nat.reduceMul, Nat.reduceAdd, Nat.reduceDiv, Nat.reduceMod]) <;> refine ⟨by simp [InRange, Width.code] <;> (try simp only [decide_eq_true_eq, Bool.and_eq_true]) <;> first | omega | exact ⟨decide_eq_true (by omega), by omega⟩, _, rfl, by simp [Fields.q6, Fields.rc, Legal, FieldKind.baseOk, FieldKind.highOk, Width.code] <;> (try simp only [decide_eq_true_eq, Bool.and_eq_true]) <;> first | omega | exact ⟨decide_eq_true (by omega), by omega⟩, by simp [Fields.q6, Fields.rc, ofFields, ofFields0, chain, Width.ofCode, Width.code] <;> (try simp only [decide_eq_true_eq, Bool.and_eq_true]) <;> first | omega | exact ⟨decide_eq_true (by omega), by omega⟩⟩
theorem FieldTrip.mulhn (w : Width) (d : Gpr) (a : Gpr) (b : Gpr) : Statement (.mulhn w d a b) := by
  intro hw f hf; cases hf
  have := d.isLt
  have := a.isLt
  have := b.isLt
  cases w <;> (try simp only [Width.code, Nat.reduceMul, Nat.reduceAdd, Nat.reduceDiv, Nat.reduceMod]) <;> refine ⟨by simp [InRange, Width.code] <;> (try simp only [decide_eq_true_eq, Bool.and_eq_true]) <;> first | omega | exact ⟨decide_eq_true (by omega), by omega⟩, _, rfl, by simp [Fields.q6, Fields.rc, Legal, FieldKind.baseOk, FieldKind.highOk, Width.code] <;> (try simp only [decide_eq_true_eq, Bool.and_eq_true]) <;> first | omega | exact ⟨decide_eq_true (by omega), by omega⟩, by simp [Fields.q6, Fields.rc, ofFields, ofFields0, chain, Width.ofCode, Width.code] <;> (try simp only [decide_eq_true_eq, Bool.and_eq_true]) <;> first | omega | exact ⟨decide_eq_true (by omega), by omega⟩⟩
theorem FieldTrip.div (w : Width) (d : Gpr) (a : Gpr) (b : Gpr) : Statement (.div w d a b) := by
  intro hw f hf; cases hf
  have := d.isLt
  have := a.isLt
  have := b.isLt
  cases w <;> (try simp only [Width.code, Nat.reduceMul, Nat.reduceAdd, Nat.reduceDiv, Nat.reduceMod]) <;> refine ⟨by simp [InRange, Width.code] <;> (try simp only [decide_eq_true_eq, Bool.and_eq_true]) <;> first | omega | exact ⟨decide_eq_true (by omega), by omega⟩, _, rfl, by simp [Fields.q6, Fields.rc, Legal, FieldKind.baseOk, FieldKind.highOk, Width.code] <;> (try simp only [decide_eq_true_eq, Bool.and_eq_true]) <;> first | omega | exact ⟨decide_eq_true (by omega), by omega⟩, by simp [Fields.q6, Fields.rc, ofFields, ofFields0, chain, Width.ofCode, Width.code] <;> (try simp only [decide_eq_true_eq, Bool.and_eq_true]) <;> first | omega | exact ⟨decide_eq_true (by omega), by omega⟩⟩
theorem FieldTrip.divn (w : Width) (d : Gpr) (a : Gpr) (b : Gpr) : Statement (.divn w d a b) := by
  intro hw f hf; cases hf
  have := d.isLt
  have := a.isLt
  have := b.isLt
  cases w <;> (try simp only [Width.code, Nat.reduceMul, Nat.reduceAdd, Nat.reduceDiv, Nat.reduceMod]) <;> refine ⟨by simp [InRange, Width.code] <;> (try simp only [decide_eq_true_eq, Bool.and_eq_true]) <;> first | omega | exact ⟨decide_eq_true (by omega), by omega⟩, _, rfl, by simp [Fields.q6, Fields.rc, Legal, FieldKind.baseOk, FieldKind.highOk, Width.code] <;> (try simp only [decide_eq_true_eq, Bool.and_eq_true]) <;> first | omega | exact ⟨decide_eq_true (by omega), by omega⟩, by simp [Fields.q6, Fields.rc, ofFields, ofFields0, chain, Width.ofCode, Width.code] <;> (try simp only [decide_eq_true_eq, Bool.and_eq_true]) <;> first | omega | exact ⟨decide_eq_true (by omega), by omega⟩⟩
theorem FieldTrip.rem (w : Width) (d : Gpr) (a : Gpr) (b : Gpr) : Statement (.rem w d a b) := by
  intro hw f hf; cases hf
  have := d.isLt
  have := a.isLt
  have := b.isLt
  cases w <;> (try simp only [Width.code, Nat.reduceMul, Nat.reduceAdd, Nat.reduceDiv, Nat.reduceMod]) <;> refine ⟨by simp [InRange, Width.code] <;> (try simp only [decide_eq_true_eq, Bool.and_eq_true]) <;> first | omega | exact ⟨decide_eq_true (by omega), by omega⟩, _, rfl, by simp [Fields.q6, Fields.rc, Legal, FieldKind.baseOk, FieldKind.highOk, Width.code] <;> (try simp only [decide_eq_true_eq, Bool.and_eq_true]) <;> first | omega | exact ⟨decide_eq_true (by omega), by omega⟩, by simp [Fields.q6, Fields.rc, ofFields, ofFields0, chain, Width.ofCode, Width.code] <;> (try simp only [decide_eq_true_eq, Bool.and_eq_true]) <;> first | omega | exact ⟨decide_eq_true (by omega), by omega⟩⟩
theorem FieldTrip.remn (w : Width) (d : Gpr) (a : Gpr) (b : Gpr) : Statement (.remn w d a b) := by
  intro hw f hf; cases hf
  have := d.isLt
  have := a.isLt
  have := b.isLt
  cases w <;> (try simp only [Width.code, Nat.reduceMul, Nat.reduceAdd, Nat.reduceDiv, Nat.reduceMod]) <;> refine ⟨by simp [InRange, Width.code] <;> (try simp only [decide_eq_true_eq, Bool.and_eq_true]) <;> first | omega | exact ⟨decide_eq_true (by omega), by omega⟩, _, rfl, by simp [Fields.q6, Fields.rc, Legal, FieldKind.baseOk, FieldKind.highOk, Width.code] <;> (try simp only [decide_eq_true_eq, Bool.and_eq_true]) <;> first | omega | exact ⟨decide_eq_true (by omega), by omega⟩, by simp [Fields.q6, Fields.rc, ofFields, ofFields0, chain, Width.ofCode, Width.code] <;> (try simp only [decide_eq_true_eq, Bool.and_eq_true]) <;> first | omega | exact ⟨decide_eq_true (by omega), by omega⟩⟩
theorem FieldTrip.cmpeq (w : Width) (d : Pr) (a : Gpr) (b : Gpr) : Statement (.cmpeq w d a b) := by
  intro hw f hf; cases hf
  have := d.isLt
  have := a.isLt
  have := b.isLt
  cases w <;> (try simp only [Width.code, Nat.reduceMul, Nat.reduceAdd, Nat.reduceDiv, Nat.reduceMod]) <;> refine ⟨by simp [InRange, Width.code] <;> (try simp only [decide_eq_true_eq, Bool.and_eq_true]) <;> first | omega | exact ⟨decide_eq_true (by omega), by omega⟩, _, rfl, by simp [Fields.q6, Fields.rc, Legal, FieldKind.baseOk, FieldKind.highOk, Width.code] <;> (try simp only [decide_eq_true_eq, Bool.and_eq_true]) <;> first | omega | exact ⟨decide_eq_true (by omega), by omega⟩, by simp [Fields.q6, Fields.rc, ofFields, ofFields0, chain, Width.ofCode, Width.code] <;> (try simp only [decide_eq_true_eq, Bool.and_eq_true]) <;> first | omega | exact ⟨decide_eq_true (by omega), by omega⟩⟩
theorem FieldTrip.cmpne (w : Width) (d : Pr) (a : Gpr) (b : Gpr) : Statement (.cmpne w d a b) := by
  intro hw f hf; cases hf
  have := d.isLt
  have := a.isLt
  have := b.isLt
  cases w <;> (try simp only [Width.code, Nat.reduceMul, Nat.reduceAdd, Nat.reduceDiv, Nat.reduceMod]) <;> refine ⟨by simp [InRange, Width.code] <;> (try simp only [decide_eq_true_eq, Bool.and_eq_true]) <;> first | omega | exact ⟨decide_eq_true (by omega), by omega⟩, _, rfl, by simp [Fields.q6, Fields.rc, Legal, FieldKind.baseOk, FieldKind.highOk, Width.code] <;> (try simp only [decide_eq_true_eq, Bool.and_eq_true]) <;> first | omega | exact ⟨decide_eq_true (by omega), by omega⟩, by simp [Fields.q6, Fields.rc, ofFields, ofFields0, chain, Width.ofCode, Width.code] <;> (try simp only [decide_eq_true_eq, Bool.and_eq_true]) <;> first | omega | exact ⟨decide_eq_true (by omega), by omega⟩⟩
theorem FieldTrip.cmplt (w : Width) (d : Pr) (a : Gpr) (b : Gpr) : Statement (.cmplt w d a b) := by
  intro hw f hf; cases hf
  have := d.isLt
  have := a.isLt
  have := b.isLt
  cases w <;> (try simp only [Width.code, Nat.reduceMul, Nat.reduceAdd, Nat.reduceDiv, Nat.reduceMod]) <;> refine ⟨by simp [InRange, Width.code] <;> (try simp only [decide_eq_true_eq, Bool.and_eq_true]) <;> first | omega | exact ⟨decide_eq_true (by omega), by omega⟩, _, rfl, by simp [Fields.q6, Fields.rc, Legal, FieldKind.baseOk, FieldKind.highOk, Width.code] <;> (try simp only [decide_eq_true_eq, Bool.and_eq_true]) <;> first | omega | exact ⟨decide_eq_true (by omega), by omega⟩, by simp [Fields.q6, Fields.rc, ofFields, ofFields0, chain, Width.ofCode, Width.code] <;> (try simp only [decide_eq_true_eq, Bool.and_eq_true]) <;> first | omega | exact ⟨decide_eq_true (by omega), by omega⟩⟩
theorem FieldTrip.cmple (w : Width) (d : Pr) (a : Gpr) (b : Gpr) : Statement (.cmple w d a b) := by
  intro hw f hf; cases hf
  have := d.isLt
  have := a.isLt
  have := b.isLt
  cases w <;> (try simp only [Width.code, Nat.reduceMul, Nat.reduceAdd, Nat.reduceDiv, Nat.reduceMod]) <;> refine ⟨by simp [InRange, Width.code] <;> (try simp only [decide_eq_true_eq, Bool.and_eq_true]) <;> first | omega | exact ⟨decide_eq_true (by omega), by omega⟩, _, rfl, by simp [Fields.q6, Fields.rc, Legal, FieldKind.baseOk, FieldKind.highOk, Width.code] <;> (try simp only [decide_eq_true_eq, Bool.and_eq_true]) <;> first | omega | exact ⟨decide_eq_true (by omega), by omega⟩, by simp [Fields.q6, Fields.rc, ofFields, ofFields0, chain, Width.ofCode, Width.code] <;> (try simp only [decide_eq_true_eq, Bool.and_eq_true]) <;> first | omega | exact ⟨decide_eq_true (by omega), by omega⟩⟩
theorem FieldTrip.cmpltn (w : Width) (d : Pr) (a : Gpr) (b : Gpr) : Statement (.cmpltn w d a b) := by
  intro hw f hf; cases hf
  have := d.isLt
  have := a.isLt
  have := b.isLt
  cases w <;> (try simp only [Width.code, Nat.reduceMul, Nat.reduceAdd, Nat.reduceDiv, Nat.reduceMod]) <;> refine ⟨by simp [InRange, Width.code] <;> (try simp only [decide_eq_true_eq, Bool.and_eq_true]) <;> first | omega | exact ⟨decide_eq_true (by omega), by omega⟩, _, rfl, by simp [Fields.q6, Fields.rc, Legal, FieldKind.baseOk, FieldKind.highOk, Width.code] <;> (try simp only [decide_eq_true_eq, Bool.and_eq_true]) <;> first | omega | exact ⟨decide_eq_true (by omega), by omega⟩, by simp [Fields.q6, Fields.rc, ofFields, ofFields0, chain, Width.ofCode, Width.code] <;> (try simp only [decide_eq_true_eq, Bool.and_eq_true]) <;> first | omega | exact ⟨decide_eq_true (by omega), by omega⟩⟩
theorem FieldTrip.cmplen (w : Width) (d : Pr) (a : Gpr) (b : Gpr) : Statement (.cmplen w d a b) := by
  intro hw f hf; cases hf
  have := d.isLt
  have := a.isLt
  have := b.isLt
  cases w <;> (try simp only [Width.code, Nat.reduceMul, Nat.reduceAdd, Nat.reduceDiv, Nat.reduceMod]) <;> refine ⟨by simp [InRange, Width.code] <;> (try simp only [decide_eq_true_eq, Bool.and_eq_true]) <;> first | omega | exact ⟨decide_eq_true (by omega), by omega⟩, _, rfl, by simp [Fields.q6, Fields.rc, Legal, FieldKind.baseOk, FieldKind.highOk, Width.code] <;> (try simp only [decide_eq_true_eq, Bool.and_eq_true]) <;> first | omega | exact ⟨decide_eq_true (by omega), by omega⟩, by simp [Fields.q6, Fields.rc, ofFields, ofFields0, chain, Width.ofCode, Width.code] <;> (try simp only [decide_eq_true_eq, Bool.and_eq_true]) <;> first | omega | exact ⟨decide_eq_true (by omega), by omega⟩⟩
theorem FieldTrip.cmpeqi (w : Width) (d : Pr) (a : Gpr) (i : Imm) : Statement (.cmpeqi w d a i) := by
  intro hw f hf; cases hf
  have := d.isLt
  have := a.isLt
  have hv : i.wf 4 = true := by simp only [Instr.wf, Bool.and_eq_true] at hw <;> first | exact hw | exact hw.1 | exact hw.1.1
  obtain ⟨h1, h2, h3, h4⟩ := imm4 hv
  cases w <;> (try simp [Instr.wf, Width.code] at hw) <;> (try simp only [Width.code, Fields.putImm, Nat.reduceMul, Nat.reduceAdd, Nat.reduceDiv, Nat.reduceMod]) <;> refine ⟨by simp [InRange, Width.code, Fields.putImm] <;> (try simp only [decide_eq_true_eq, Bool.and_eq_true]) <;> first | omega | exact ⟨decide_eq_true (by omega), by omega⟩, _, rfl, by simp [Fields.q6, Fields.rc, Legal, FieldKind.baseOk, FieldKind.highOk, Width.code, Fields.putImm] <;> (try simp only [decide_eq_true_eq, Bool.and_eq_true]) <;> first | omega | exact ⟨decide_eq_true (by omega), by omega⟩, by simp [Fields.q6, Fields.rc, ofFields, ofFields0, chain, Width.ofCode, Width.code, Fields.putImm, Fields.getImm, Fields.immN, eta4] <;> (try simp only [decide_eq_true_eq, Bool.and_eq_true]) <;> first | omega | exact ⟨decide_eq_true (by omega), by omega⟩⟩
theorem FieldTrip.cmpnei (w : Width) (d : Pr) (a : Gpr) (i : Imm) : Statement (.cmpnei w d a i) := by
  intro hw f hf; cases hf
  have := d.isLt
  have := a.isLt
  have hv : i.wf 4 = true := by simp only [Instr.wf, Bool.and_eq_true] at hw <;> first | exact hw | exact hw.1 | exact hw.1.1
  obtain ⟨h1, h2, h3, h4⟩ := imm4 hv
  cases w <;> (try simp [Instr.wf, Width.code] at hw) <;> (try simp only [Width.code, Fields.putImm, Nat.reduceMul, Nat.reduceAdd, Nat.reduceDiv, Nat.reduceMod]) <;> refine ⟨by simp [InRange, Width.code, Fields.putImm] <;> (try simp only [decide_eq_true_eq, Bool.and_eq_true]) <;> first | omega | exact ⟨decide_eq_true (by omega), by omega⟩, _, rfl, by simp [Fields.q6, Fields.rc, Legal, FieldKind.baseOk, FieldKind.highOk, Width.code, Fields.putImm] <;> (try simp only [decide_eq_true_eq, Bool.and_eq_true]) <;> first | omega | exact ⟨decide_eq_true (by omega), by omega⟩, by simp [Fields.q6, Fields.rc, ofFields, ofFields0, chain, Width.ofCode, Width.code, Fields.putImm, Fields.getImm, Fields.immN, eta4] <;> (try simp only [decide_eq_true_eq, Bool.and_eq_true]) <;> first | omega | exact ⟨decide_eq_true (by omega), by omega⟩⟩
theorem FieldTrip.cmplti (w : Width) (d : Pr) (a : Gpr) (i : Imm) : Statement (.cmplti w d a i) := by
  intro hw f hf; cases hf
  have := d.isLt
  have := a.isLt
  have hv : i.wf 4 = true := by simp only [Instr.wf, Bool.and_eq_true] at hw <;> first | exact hw | exact hw.1 | exact hw.1.1
  obtain ⟨h1, h2, h3, h4⟩ := imm4 hv
  cases w <;> (try simp [Instr.wf, Width.code] at hw) <;> (try simp only [Width.code, Fields.putImm, Nat.reduceMul, Nat.reduceAdd, Nat.reduceDiv, Nat.reduceMod]) <;> refine ⟨by simp [InRange, Width.code, Fields.putImm] <;> (try simp only [decide_eq_true_eq, Bool.and_eq_true]) <;> first | omega | exact ⟨decide_eq_true (by omega), by omega⟩, _, rfl, by simp [Fields.q6, Fields.rc, Legal, FieldKind.baseOk, FieldKind.highOk, Width.code, Fields.putImm] <;> (try simp only [decide_eq_true_eq, Bool.and_eq_true]) <;> first | omega | exact ⟨decide_eq_true (by omega), by omega⟩, by simp [Fields.q6, Fields.rc, ofFields, ofFields0, chain, Width.ofCode, Width.code, Fields.putImm, Fields.getImm, Fields.immN, eta4] <;> (try simp only [decide_eq_true_eq, Bool.and_eq_true]) <;> first | omega | exact ⟨decide_eq_true (by omega), by omega⟩⟩
theorem FieldTrip.cmplei (w : Width) (d : Pr) (a : Gpr) (i : Imm) : Statement (.cmplei w d a i) := by
  intro hw f hf; cases hf
  have := d.isLt
  have := a.isLt
  have hv : i.wf 4 = true := by simp only [Instr.wf, Bool.and_eq_true] at hw <;> first | exact hw | exact hw.1 | exact hw.1.1
  obtain ⟨h1, h2, h3, h4⟩ := imm4 hv
  cases w <;> (try simp [Instr.wf, Width.code] at hw) <;> (try simp only [Width.code, Fields.putImm, Nat.reduceMul, Nat.reduceAdd, Nat.reduceDiv, Nat.reduceMod]) <;> refine ⟨by simp [InRange, Width.code, Fields.putImm] <;> (try simp only [decide_eq_true_eq, Bool.and_eq_true]) <;> first | omega | exact ⟨decide_eq_true (by omega), by omega⟩, _, rfl, by simp [Fields.q6, Fields.rc, Legal, FieldKind.baseOk, FieldKind.highOk, Width.code, Fields.putImm] <;> (try simp only [decide_eq_true_eq, Bool.and_eq_true]) <;> first | omega | exact ⟨decide_eq_true (by omega), by omega⟩, by simp [Fields.q6, Fields.rc, ofFields, ofFields0, chain, Width.ofCode, Width.code, Fields.putImm, Fields.getImm, Fields.immN, eta4] <;> (try simp only [decide_eq_true_eq, Bool.and_eq_true]) <;> first | omega | exact ⟨decide_eq_true (by omega), by omega⟩⟩
theorem FieldTrip.cmpltni (w : Width) (d : Pr) (a : Gpr) (i : Imm) : Statement (.cmpltni w d a i) := by
  intro hw f hf; cases hf
  have := d.isLt
  have := a.isLt
  have hv : i.wf 4 = true := by simp only [Instr.wf, Bool.and_eq_true] at hw <;> first | exact hw | exact hw.1 | exact hw.1.1
  obtain ⟨h1, h2, h3, h4⟩ := imm4 hv
  cases w <;> (try simp [Instr.wf, Width.code] at hw) <;> (try simp only [Width.code, Fields.putImm, Nat.reduceMul, Nat.reduceAdd, Nat.reduceDiv, Nat.reduceMod]) <;> refine ⟨by simp [InRange, Width.code, Fields.putImm] <;> (try simp only [decide_eq_true_eq, Bool.and_eq_true]) <;> first | omega | exact ⟨decide_eq_true (by omega), by omega⟩, _, rfl, by simp [Fields.q6, Fields.rc, Legal, FieldKind.baseOk, FieldKind.highOk, Width.code, Fields.putImm] <;> (try simp only [decide_eq_true_eq, Bool.and_eq_true]) <;> first | omega | exact ⟨decide_eq_true (by omega), by omega⟩, by simp [Fields.q6, Fields.rc, ofFields, ofFields0, chain, Width.ofCode, Width.code, Fields.putImm, Fields.getImm, Fields.immN, eta4] <;> (try simp only [decide_eq_true_eq, Bool.and_eq_true]) <;> first | omega | exact ⟨decide_eq_true (by omega), by omega⟩⟩
theorem FieldTrip.cmpleni (w : Width) (d : Pr) (a : Gpr) (i : Imm) : Statement (.cmpleni w d a i) := by
  intro hw f hf; cases hf
  have := d.isLt
  have := a.isLt
  have hv : i.wf 4 = true := by simp only [Instr.wf, Bool.and_eq_true] at hw <;> first | exact hw | exact hw.1 | exact hw.1.1
  obtain ⟨h1, h2, h3, h4⟩ := imm4 hv
  cases w <;> (try simp [Instr.wf, Width.code] at hw) <;> (try simp only [Width.code, Fields.putImm, Nat.reduceMul, Nat.reduceAdd, Nat.reduceDiv, Nat.reduceMod]) <;> refine ⟨by simp [InRange, Width.code, Fields.putImm] <;> (try simp only [decide_eq_true_eq, Bool.and_eq_true]) <;> first | omega | exact ⟨decide_eq_true (by omega), by omega⟩, _, rfl, by simp [Fields.q6, Fields.rc, Legal, FieldKind.baseOk, FieldKind.highOk, Width.code, Fields.putImm] <;> (try simp only [decide_eq_true_eq, Bool.and_eq_true]) <;> first | omega | exact ⟨decide_eq_true (by omega), by omega⟩, by simp [Fields.q6, Fields.rc, ofFields, ofFields0, chain, Width.ofCode, Width.code, Fields.putImm, Fields.getImm, Fields.immN, eta4] <;> (try simp only [decide_eq_true_eq, Bool.and_eq_true]) <;> first | omega | exact ⟨decide_eq_true (by omega), by omega⟩⟩
theorem FieldTrip.mov (d : Gpr) (a : Gpr) : Statement (.mov d a) := by
  intro hw f hf; cases hf
  have := d.isLt
  have := a.isLt
  refine ⟨by simp [InRange] <;> (try simp only [decide_eq_true_eq, Bool.and_eq_true]) <;> first | omega | exact ⟨decide_eq_true (by omega), by omega⟩, _, rfl, by simp [Fields.q6, Fields.rc, Legal, FieldKind.baseOk, FieldKind.highOk] <;> (try simp only [decide_eq_true_eq, Bool.and_eq_true]) <;> first | omega | exact ⟨decide_eq_true (by omega), by omega⟩, by simp [Fields.q6, Fields.rc, ofFields, ofFields0, chain] <;> (try simp only [decide_eq_true_eq, Bool.and_eq_true]) <;> first | omega | exact ⟨decide_eq_true (by omega), by omega⟩⟩
theorem FieldTrip.movCap (d : Kr) (a : Kr) : Statement (.movCap d a) := by
  intro hw f hf; cases hf
  have := d.isLt
  have := a.isLt
  refine ⟨by simp [InRange] <;> (try simp only [decide_eq_true_eq, Bool.and_eq_true]) <;> first | omega | exact ⟨decide_eq_true (by omega), by omega⟩, _, rfl, by simp [Fields.q6, Fields.rc, Legal, FieldKind.baseOk, FieldKind.highOk] <;> (try simp only [decide_eq_true_eq, Bool.and_eq_true]) <;> first | omega | exact ⟨decide_eq_true (by omega), by omega⟩, by simp [Fields.q6, Fields.rc, ofFields, ofFields0, chain] <;> (try simp only [decide_eq_true_eq, Bool.and_eq_true]) <;> first | omega | exact ⟨decide_eq_true (by omega), by omega⟩⟩
theorem FieldTrip.neg (w : Width) (d : Gpr) (a : Gpr) : Statement (.neg w d a) := by
  intro hw f hf; cases hf
  have := d.isLt
  have := a.isLt
  cases w <;> (try simp only [Width.code, Nat.reduceMul, Nat.reduceAdd, Nat.reduceDiv, Nat.reduceMod]) <;> refine ⟨by simp [InRange, Width.code] <;> (try simp only [decide_eq_true_eq, Bool.and_eq_true]) <;> first | omega | exact ⟨decide_eq_true (by omega), by omega⟩, _, rfl, by simp [Fields.q6, Fields.rc, Legal, FieldKind.baseOk, FieldKind.highOk, Width.code] <;> (try simp only [decide_eq_true_eq, Bool.and_eq_true]) <;> first | omega | exact ⟨decide_eq_true (by omega), by omega⟩, by simp [Fields.q6, Fields.rc, ofFields, ofFields0, chain, Width.ofCode, Width.code] <;> (try simp only [decide_eq_true_eq, Bool.and_eq_true]) <;> first | omega | exact ⟨decide_eq_true (by omega), by omega⟩⟩
theorem FieldTrip.not (w : Width) (d : Gpr) (a : Gpr) : Statement (.not w d a) := by
  intro hw f hf; cases hf
  have := d.isLt
  have := a.isLt
  cases w <;> (try simp only [Width.code, Nat.reduceMul, Nat.reduceAdd, Nat.reduceDiv, Nat.reduceMod]) <;> refine ⟨by simp [InRange, Width.code] <;> (try simp only [decide_eq_true_eq, Bool.and_eq_true]) <;> first | omega | exact ⟨decide_eq_true (by omega), by omega⟩, _, rfl, by simp [Fields.q6, Fields.rc, Legal, FieldKind.baseOk, FieldKind.highOk, Width.code] <;> (try simp only [decide_eq_true_eq, Bool.and_eq_true]) <;> first | omega | exact ⟨decide_eq_true (by omega), by omega⟩, by simp [Fields.q6, Fields.rc, ofFields, ofFields0, chain, Width.ofCode, Width.code] <;> (try simp only [decide_eq_true_eq, Bool.and_eq_true]) <;> first | omega | exact ⟨decide_eq_true (by omega), by omega⟩⟩
theorem FieldTrip.clz (w : Width) (d : Gpr) (a : Gpr) : Statement (.clz w d a) := by
  intro hw f hf; cases hf
  have := d.isLt
  have := a.isLt
  cases w <;> (try simp only [Width.code, Nat.reduceMul, Nat.reduceAdd, Nat.reduceDiv, Nat.reduceMod]) <;> refine ⟨by simp [InRange, Width.code] <;> (try simp only [decide_eq_true_eq, Bool.and_eq_true]) <;> first | omega | exact ⟨decide_eq_true (by omega), by omega⟩, _, rfl, by simp [Fields.q6, Fields.rc, Legal, FieldKind.baseOk, FieldKind.highOk, Width.code] <;> (try simp only [decide_eq_true_eq, Bool.and_eq_true]) <;> first | omega | exact ⟨decide_eq_true (by omega), by omega⟩, by simp [Fields.q6, Fields.rc, ofFields, ofFields0, chain, Width.ofCode, Width.code] <;> (try simp only [decide_eq_true_eq, Bool.and_eq_true]) <;> first | omega | exact ⟨decide_eq_true (by omega), by omega⟩⟩
theorem FieldTrip.ctz (w : Width) (d : Gpr) (a : Gpr) : Statement (.ctz w d a) := by
  intro hw f hf; cases hf
  have := d.isLt
  have := a.isLt
  cases w <;> (try simp only [Width.code, Nat.reduceMul, Nat.reduceAdd, Nat.reduceDiv, Nat.reduceMod]) <;> refine ⟨by simp [InRange, Width.code] <;> (try simp only [decide_eq_true_eq, Bool.and_eq_true]) <;> first | omega | exact ⟨decide_eq_true (by omega), by omega⟩, _, rfl, by simp [Fields.q6, Fields.rc, Legal, FieldKind.baseOk, FieldKind.highOk, Width.code] <;> (try simp only [decide_eq_true_eq, Bool.and_eq_true]) <;> first | omega | exact ⟨decide_eq_true (by omega), by omega⟩, by simp [Fields.q6, Fields.rc, ofFields, ofFields0, chain, Width.ofCode, Width.code] <;> (try simp only [decide_eq_true_eq, Bool.and_eq_true]) <;> first | omega | exact ⟨decide_eq_true (by omega), by omega⟩⟩
theorem FieldTrip.popc (w : Width) (d : Gpr) (a : Gpr) : Statement (.popc w d a) := by
  intro hw f hf; cases hf
  have := d.isLt
  have := a.isLt
  cases w <;> (try simp only [Width.code, Nat.reduceMul, Nat.reduceAdd, Nat.reduceDiv, Nat.reduceMod]) <;> refine ⟨by simp [InRange, Width.code] <;> (try simp only [decide_eq_true_eq, Bool.and_eq_true]) <;> first | omega | exact ⟨decide_eq_true (by omega), by omega⟩, _, rfl, by simp [Fields.q6, Fields.rc, Legal, FieldKind.baseOk, FieldKind.highOk, Width.code] <;> (try simp only [decide_eq_true_eq, Bool.and_eq_true]) <;> first | omega | exact ⟨decide_eq_true (by omega), by omega⟩, by simp [Fields.q6, Fields.rc, ofFields, ofFields0, chain, Width.ofCode, Width.code] <;> (try simp only [decide_eq_true_eq, Bool.and_eq_true]) <;> first | omega | exact ⟨decide_eq_true (by omega), by omega⟩⟩
theorem FieldTrip.sext (w : Width) (d : Gpr) (a : Gpr) : Statement (.sext w d a) := by
  intro hw f hf; cases hf
  have := d.isLt
  have := a.isLt
  cases w <;> (try simp only [Width.code, Nat.reduceMul, Nat.reduceAdd, Nat.reduceDiv, Nat.reduceMod]) <;> refine ⟨by simp [InRange, Width.code] <;> (try simp only [decide_eq_true_eq, Bool.and_eq_true]) <;> first | omega | exact ⟨decide_eq_true (by omega), by omega⟩, _, rfl, by simp [Fields.q6, Fields.rc, Legal, FieldKind.baseOk, FieldKind.highOk, Width.code] <;> (try simp only [decide_eq_true_eq, Bool.and_eq_true]) <;> first | omega | exact ⟨decide_eq_true (by omega), by omega⟩, by simp [Fields.q6, Fields.rc, ofFields, ofFields0, chain, Width.ofCode, Width.code] <;> (try simp only [decide_eq_true_eq, Bool.and_eq_true]) <;> first | omega | exact ⟨decide_eq_true (by omega), by omega⟩⟩
theorem FieldTrip.zext (w : Width) (d : Gpr) (a : Gpr) : Statement (.zext w d a) := by
  intro hw f hf; cases hf
  have := d.isLt
  have := a.isLt
  cases w <;> (try simp only [Width.code, Nat.reduceMul, Nat.reduceAdd, Nat.reduceDiv, Nat.reduceMod]) <;> refine ⟨by simp [InRange, Width.code] <;> (try simp only [decide_eq_true_eq, Bool.and_eq_true]) <;> first | omega | exact ⟨decide_eq_true (by omega), by omega⟩, _, rfl, by simp [Fields.q6, Fields.rc, Legal, FieldKind.baseOk, FieldKind.highOk, Width.code] <;> (try simp only [decide_eq_true_eq, Bool.and_eq_true]) <;> first | omega | exact ⟨decide_eq_true (by omega), by omega⟩, by simp [Fields.q6, Fields.rc, ofFields, ofFields0, chain, Width.ofCode, Width.code] <;> (try simp only [decide_eq_true_eq, Bool.and_eq_true]) <;> first | omega | exact ⟨decide_eq_true (by omega), by omega⟩⟩
theorem FieldTrip.bswap (w : Width) (d : Gpr) (a : Gpr) : Statement (.bswap w d a) := by
  intro hw f hf; cases hf
  have := d.isLt
  have := a.isLt
  cases w <;> (try simp only [Width.code, Nat.reduceMul, Nat.reduceAdd, Nat.reduceDiv, Nat.reduceMod]) <;> refine ⟨by simp [InRange, Width.code] <;> (try simp only [decide_eq_true_eq, Bool.and_eq_true]) <;> first | omega | exact ⟨decide_eq_true (by omega), by omega⟩, _, rfl, by simp [Fields.q6, Fields.rc, Legal, FieldKind.baseOk, FieldKind.highOk, Width.code] <;> (try simp only [decide_eq_true_eq, Bool.and_eq_true]) <;> first | omega | exact ⟨decide_eq_true (by omega), by omega⟩, by simp [Fields.q6, Fields.rc, ofFields, ofFields0, chain, Width.ofCode, Width.code] <;> (try simp only [decide_eq_true_eq, Bool.and_eq_true]) <;> first | omega | exact ⟨decide_eq_true (by omega), by omega⟩⟩
theorem FieldTrip.sel (d : Gpr) (a : Gpr) (b : Gpr) : Statement (.sel d a b) := by
  intro hw f hf; cases hf
  have := d.isLt
  have := a.isLt
  have := b.isLt
  refine ⟨by simp [InRange] <;> (try simp only [decide_eq_true_eq, Bool.and_eq_true]) <;> first | omega | exact ⟨decide_eq_true (by omega), by omega⟩, _, rfl, by simp [Fields.q6, Fields.rc, Legal, FieldKind.baseOk, FieldKind.highOk] <;> (try simp only [decide_eq_true_eq, Bool.and_eq_true]) <;> first | omega | exact ⟨decide_eq_true (by omega), by omega⟩, by simp [Fields.q6, Fields.rc, ofFields, ofFields0, chain] <;> (try simp only [decide_eq_true_eq, Bool.and_eq_true]) <;> first | omega | exact ⟨decide_eq_true (by omega), by omega⟩⟩
theorem FieldTrip.lih (d : Gpr) (i : Imm) : Statement (.lih d i) := by
  intro hw f hf; cases hf
  have := d.isLt
  have hv : i.wf 4 = true := by simp only [Instr.wf, Bool.and_eq_true] at hw <;> first | exact hw | exact hw.1 | exact hw.1.1
  obtain ⟨h1, h2, h3, h4⟩ := imm4 hv
  (try simp [Instr.wf] at hw) <;> (try simp only [Fields.putImm, Nat.reduceMul, Nat.reduceAdd, Nat.reduceDiv, Nat.reduceMod]) <;> refine ⟨by simp [InRange, Fields.putImm] <;> (try simp only [decide_eq_true_eq, Bool.and_eq_true]) <;> first | omega | exact ⟨decide_eq_true (by omega), by omega⟩, _, rfl, by simp [Fields.q6, Fields.rc, Legal, FieldKind.baseOk, FieldKind.highOk, Fields.putImm] <;> (try simp only [decide_eq_true_eq, Bool.and_eq_true]) <;> first | omega | exact ⟨decide_eq_true (by omega), by omega⟩, by simp [Fields.q6, Fields.rc, ofFields, ofFields0, chain, Fields.putImm, Fields.getImm, Fields.immN, eta4] <;> (try simp only [decide_eq_true_eq, Bool.and_eq_true]) <;> first | omega | exact ⟨decide_eq_true (by omega), by omega⟩⟩
theorem FieldTrip.br (o : BitVec 12) : Statement (.br o) := by
  intro hw f hf; cases hf
  have := o.isLt
  (try simp only [Fields.putOff, Nat.reduceMul, Nat.reduceAdd, Nat.reduceDiv, Nat.reduceMod]) <;> refine ⟨by simp [InRange, Fields.putOff] <;> (try simp only [decide_eq_true_eq, Bool.and_eq_true]) <;> first | omega | exact ⟨decide_eq_true (by omega), by omega⟩, _, rfl, by simp [Fields.q6, Fields.rc, Legal, FieldKind.baseOk, FieldKind.highOk, Fields.putOff] <;> (try simp only [decide_eq_true_eq, Bool.and_eq_true]) <;> first | omega | exact ⟨decide_eq_true (by omega), by omega⟩, by simp [Fields.q6, Fields.rc, ofFields, ofFields0, chain, Fields.putOff, Fields.getOff, off] <;> (try simp only [decide_eq_true_eq, Bool.and_eq_true]) <;> first | omega | exact ⟨decide_eq_true (by omega), by omega⟩⟩
theorem FieldTrip.li (d : Gpr) (i : Imm) : Statement (.li d i) := by
  intro hw f hf; cases hf
  have := d.isLt
  have hv : i.wf 8 = true := by simp only [Instr.wf, Bool.and_eq_true] at hw <;> first | exact hw | exact hw.1 | exact hw.1.1
  obtain ⟨h1, h2, h3, h4, h5⟩ := imm8 hv
  (try simp [Instr.wf] at hw) <;> (try simp only [Fields.putImm8, Nat.reduceMul, Nat.reduceAdd, Nat.reduceDiv, Nat.reduceMod]) <;> refine ⟨by simp [InRange, Fields.putImm8] <;> (try simp only [decide_eq_true_eq, Bool.and_eq_true]) <;> first | omega | exact ⟨decide_eq_true (by omega), by omega⟩, _, rfl, by simp [Fields.q6, Fields.rc, Legal, FieldKind.baseOk, FieldKind.highOk, Fields.putImm8] <;> (try simp only [decide_eq_true_eq, Bool.and_eq_true]) <;> first | omega | exact ⟨decide_eq_true (by omega), by omega⟩, by simp [Fields.q6, Fields.rc, ofFields, ofFields0, chain, Fields.putImm8, Fields.getImm8, Fields.immN, eta8] <;> (try simp only [decide_eq_true_eq, Bool.and_eq_true]) <;> first | omega | exact ⟨decide_eq_true (by omega), by omega⟩⟩
theorem FieldTrip.jmp (t : Target) : Statement (.jmp t) := by
  intro hw f hf; cases hf
  cases t with
  | rel x =>
    have hv : x.wf 4 = true := by simp only [Instr.wf, Target.wf, Bool.and_eq_true] at hw <;> first | exact hw | exact hw.1 | exact hw.1.1
    obtain ⟨h1, h2, h3, h4⟩ := imm4 hv
    (try simp [Instr.wf, Target.wf] at hw) <;> (try simp only [Fields.putTarget, Fields.putImm, Nat.reduceMul, Nat.reduceAdd, Nat.reduceDiv, Nat.reduceMod]) <;> refine ⟨by simp [InRange, Fields.putImm] <;> (try simp only [decide_eq_true_eq, Bool.and_eq_true]) <;> first | omega | exact ⟨decide_eq_true (by omega), by omega⟩, _, rfl, by simp [Fields.q6, Fields.rc, Legal, FieldKind.baseOk, FieldKind.highOk, Fields.putImm] <;> (try simp only [decide_eq_true_eq, Bool.and_eq_true]) <;> first | omega | exact ⟨decide_eq_true (by omega), by omega⟩, by simp [Fields.q6, Fields.rc, ofFields, ofFields8, chain, Fields.putTarget, Fields.getTarget, Fields.putImm, Fields.getImm, Fields.immN, eta4] <;> (try simp only [decide_eq_true_eq, Bool.and_eq_true]) <;> first | omega | exact ⟨decide_eq_true (by omega), by omega⟩⟩
  | reg x =>
    have := x.isLt
    (try simp [Instr.wf, Target.wf] at hw) <;> (try simp only [Fields.putTarget, Fields.putImm, Nat.reduceMul, Nat.reduceAdd, Nat.reduceDiv, Nat.reduceMod]) <;> refine ⟨by simp [InRange, Fields.putImm] <;> (try simp only [decide_eq_true_eq, Bool.and_eq_true]) <;> first | omega | exact ⟨decide_eq_true (by omega), by omega⟩, _, rfl, by simp [Fields.q6, Fields.rc, Legal, FieldKind.baseOk, FieldKind.highOk, Fields.putImm] <;> (try simp only [decide_eq_true_eq, Bool.and_eq_true]) <;> first | omega | exact ⟨decide_eq_true (by omega), by omega⟩, by simp [Fields.q6, Fields.rc, ofFields, ofFields8, chain, Fields.putTarget, Fields.getTarget, Fields.putImm, Fields.getImm, Fields.immN, eta4] <;> (try simp only [decide_eq_true_eq, Bool.and_eq_true]) <;> first | omega | exact ⟨decide_eq_true (by omega), by omega⟩⟩
  | cap y x =>
    have := y.isLt
    have := x.isLt
    (try simp [Instr.wf, Target.wf] at hw) <;> (try simp only [Fields.putTarget, Fields.putImm, Nat.reduceMul, Nat.reduceAdd, Nat.reduceDiv, Nat.reduceMod]) <;> refine ⟨by simp [InRange, Fields.putImm] <;> (try simp only [decide_eq_true_eq, Bool.and_eq_true]) <;> first | omega | exact ⟨decide_eq_true (by omega), by omega⟩, _, rfl, by simp [Fields.q6, Fields.rc, Legal, FieldKind.baseOk, FieldKind.highOk, Fields.putImm] <;> (try simp only [decide_eq_true_eq, Bool.and_eq_true]) <;> first | omega | exact ⟨decide_eq_true (by omega), by omega⟩, by simp [Fields.q6, Fields.rc, ofFields, ofFields8, chain, Fields.putTarget, Fields.getTarget, Fields.putImm, Fields.getImm, Fields.immN, eta4] <;> (try simp only [decide_eq_true_eq, Bool.and_eq_true]) <;> first | omega | exact ⟨decide_eq_true (by omega), by omega⟩⟩
theorem FieldTrip.call (d : Gpr) (t : Target) : Statement (.call d t) := by
  intro hw f hf; cases hf
  cases t with
  | rel x =>
    have := d.isLt
    have hv : x.wf 4 = true := by simp only [Instr.wf, Target.wf, Bool.and_eq_true] at hw <;> first | exact hw | exact hw.1 | exact hw.1.1
    obtain ⟨h1, h2, h3, h4⟩ := imm4 hv
    (try simp [Instr.wf, Target.wf] at hw) <;> (try simp only [Fields.putTarget, Fields.putImm, Nat.reduceMul, Nat.reduceAdd, Nat.reduceDiv, Nat.reduceMod]) <;> refine ⟨by simp [InRange, Fields.putImm] <;> (try simp only [decide_eq_true_eq, Bool.and_eq_true]) <;> first | omega | exact ⟨decide_eq_true (by omega), by omega⟩, _, rfl, by simp [Fields.q6, Fields.rc, Legal, FieldKind.baseOk, FieldKind.highOk, Fields.putImm] <;> (try simp only [decide_eq_true_eq, Bool.and_eq_true]) <;> first | omega | exact ⟨decide_eq_true (by omega), by omega⟩, by simp [Fields.q6, Fields.rc, ofFields, ofFields8, chain, Fields.putTarget, Fields.getTarget, Fields.putImm, Fields.getImm, Fields.immN, eta4] <;> (try simp only [decide_eq_true_eq, Bool.and_eq_true]) <;> first | omega | exact ⟨decide_eq_true (by omega), by omega⟩⟩
  | reg x =>
    have := d.isLt
    have := x.isLt
    (try simp [Instr.wf, Target.wf] at hw) <;> (try simp only [Fields.putTarget, Fields.putImm, Nat.reduceMul, Nat.reduceAdd, Nat.reduceDiv, Nat.reduceMod]) <;> refine ⟨by simp [InRange, Fields.putImm] <;> (try simp only [decide_eq_true_eq, Bool.and_eq_true]) <;> first | omega | exact ⟨decide_eq_true (by omega), by omega⟩, _, rfl, by simp [Fields.q6, Fields.rc, Legal, FieldKind.baseOk, FieldKind.highOk, Fields.putImm] <;> (try simp only [decide_eq_true_eq, Bool.and_eq_true]) <;> first | omega | exact ⟨decide_eq_true (by omega), by omega⟩, by simp [Fields.q6, Fields.rc, ofFields, ofFields8, chain, Fields.putTarget, Fields.getTarget, Fields.putImm, Fields.getImm, Fields.immN, eta4] <;> (try simp only [decide_eq_true_eq, Bool.and_eq_true]) <;> first | omega | exact ⟨decide_eq_true (by omega), by omega⟩⟩
  | cap y x =>
    have := d.isLt
    have := y.isLt
    have := x.isLt
    (try simp [Instr.wf, Target.wf] at hw) <;> (try simp only [Fields.putTarget, Fields.putImm, Nat.reduceMul, Nat.reduceAdd, Nat.reduceDiv, Nat.reduceMod]) <;> refine ⟨by simp [InRange, Fields.putImm] <;> (try simp only [decide_eq_true_eq, Bool.and_eq_true]) <;> first | omega | exact ⟨decide_eq_true (by omega), by omega⟩, _, rfl, by simp [Fields.q6, Fields.rc, Legal, FieldKind.baseOk, FieldKind.highOk, Fields.putImm] <;> (try simp only [decide_eq_true_eq, Bool.and_eq_true]) <;> first | omega | exact ⟨decide_eq_true (by omega), by omega⟩, by simp [Fields.q6, Fields.rc, ofFields, ofFields8, chain, Fields.putTarget, Fields.getTarget, Fields.putImm, Fields.getImm, Fields.immN, eta4] <;> (try simp only [decide_eq_true_eq, Bool.and_eq_true]) <;> first | omega | exact ⟨decide_eq_true (by omega), by omega⟩⟩
theorem FieldTrip.ret (t : RetTarget) : Statement (.ret t) := by
  intro hw f hf; cases hf
  cases t with
  | reg x =>
    have := x.isLt
    (try simp only [Fields.putRTarget, Nat.reduceMul, Nat.reduceAdd, Nat.reduceDiv, Nat.reduceMod]) <;> refine ⟨by simp [InRange] <;> (try simp only [decide_eq_true_eq, Bool.and_eq_true]) <;> first | omega | exact ⟨decide_eq_true (by omega), by omega⟩, _, rfl, by simp [Fields.q6, Fields.rc, Legal, FieldKind.baseOk, FieldKind.highOk] <;> (try simp only [decide_eq_true_eq, Bool.and_eq_true]) <;> first | omega | exact ⟨decide_eq_true (by omega), by omega⟩, by simp [Fields.q6, Fields.rc, ofFields, ofFields8, chain, Fields.putRTarget, Fields.getRTarget] <;> (try simp only [decide_eq_true_eq, Bool.and_eq_true]) <;> first | omega | exact ⟨decide_eq_true (by omega), by omega⟩⟩
  | cap y x =>
    have := y.isLt
    have := x.isLt
    (try simp only [Fields.putRTarget, Nat.reduceMul, Nat.reduceAdd, Nat.reduceDiv, Nat.reduceMod]) <;> refine ⟨by simp [InRange] <;> (try simp only [decide_eq_true_eq, Bool.and_eq_true]) <;> first | omega | exact ⟨decide_eq_true (by omega), by omega⟩, _, rfl, by simp [Fields.q6, Fields.rc, Legal, FieldKind.baseOk, FieldKind.highOk] <;> (try simp only [decide_eq_true_eq, Bool.and_eq_true]) <;> first | omega | exact ⟨decide_eq_true (by omega), by omega⟩, by simp [Fields.q6, Fields.rc, ofFields, ofFields8, chain, Fields.putRTarget, Fields.getRTarget] <;> (try simp only [decide_eq_true_eq, Bool.and_eq_true]) <;> first | omega | exact ⟨decide_eq_true (by omega), by omega⟩⟩
theorem FieldTrip.vadd (w : Width) (d : Vr) (a : Vr) (b : Vr) : Statement (.vadd w d a b) := by
  intro hw f hf; cases hf
  have := d.isLt
  have := a.isLt
  have := b.isLt
  cases w <;> (try simp only [Width.code, Nat.reduceMul, Nat.reduceAdd, Nat.reduceDiv, Nat.reduceMod]) <;> refine ⟨by simp [InRange, Width.code] <;> (try simp only [decide_eq_true_eq, Bool.and_eq_true]) <;> first | omega | exact ⟨decide_eq_true (by omega), by omega⟩, _, rfl, by simp [Fields.q6, Fields.rc, Legal, FieldKind.baseOk, FieldKind.highOk, Width.code] <;> (try simp only [decide_eq_true_eq, Bool.and_eq_true]) <;> first | omega | exact ⟨decide_eq_true (by omega), by omega⟩, by simp [Fields.q6, Fields.rc, ofFields, ofFields1, chain, Width.ofCode, Width.code] <;> (try simp only [decide_eq_true_eq, Bool.and_eq_true]) <;> first | omega | exact ⟨decide_eq_true (by omega), by omega⟩⟩
theorem FieldTrip.vsub (w : Width) (d : Vr) (a : Vr) (b : Vr) : Statement (.vsub w d a b) := by
  intro hw f hf; cases hf
  have := d.isLt
  have := a.isLt
  have := b.isLt
  cases w <;> (try simp only [Width.code, Nat.reduceMul, Nat.reduceAdd, Nat.reduceDiv, Nat.reduceMod]) <;> refine ⟨by simp [InRange, Width.code] <;> (try simp only [decide_eq_true_eq, Bool.and_eq_true]) <;> first | omega | exact ⟨decide_eq_true (by omega), by omega⟩, _, rfl, by simp [Fields.q6, Fields.rc, Legal, FieldKind.baseOk, FieldKind.highOk, Width.code] <;> (try simp only [decide_eq_true_eq, Bool.and_eq_true]) <;> first | omega | exact ⟨decide_eq_true (by omega), by omega⟩, by simp [Fields.q6, Fields.rc, ofFields, ofFields1, chain, Width.ofCode, Width.code] <;> (try simp only [decide_eq_true_eq, Bool.and_eq_true]) <;> first | omega | exact ⟨decide_eq_true (by omega), by omega⟩⟩
theorem FieldTrip.vmin (w : Width) (d : Vr) (a : Vr) (b : Vr) : Statement (.vmin w d a b) := by
  intro hw f hf; cases hf
  have := d.isLt
  have := a.isLt
  have := b.isLt
  cases w <;> (try simp only [Width.code, Nat.reduceMul, Nat.reduceAdd, Nat.reduceDiv, Nat.reduceMod]) <;> refine ⟨by simp [InRange, Width.code] <;> (try simp only [decide_eq_true_eq, Bool.and_eq_true]) <;> first | omega | exact ⟨decide_eq_true (by omega), by omega⟩, _, rfl, by simp [Fields.q6, Fields.rc, Legal, FieldKind.baseOk, FieldKind.highOk, Width.code] <;> (try simp only [decide_eq_true_eq, Bool.and_eq_true]) <;> first | omega | exact ⟨decide_eq_true (by omega), by omega⟩, by simp [Fields.q6, Fields.rc, ofFields, ofFields1, chain, Width.ofCode, Width.code] <;> (try simp only [decide_eq_true_eq, Bool.and_eq_true]) <;> first | omega | exact ⟨decide_eq_true (by omega), by omega⟩⟩
theorem FieldTrip.vmax (w : Width) (d : Vr) (a : Vr) (b : Vr) : Statement (.vmax w d a b) := by
  intro hw f hf; cases hf
  have := d.isLt
  have := a.isLt
  have := b.isLt
  cases w <;> (try simp only [Width.code, Nat.reduceMul, Nat.reduceAdd, Nat.reduceDiv, Nat.reduceMod]) <;> refine ⟨by simp [InRange, Width.code] <;> (try simp only [decide_eq_true_eq, Bool.and_eq_true]) <;> first | omega | exact ⟨decide_eq_true (by omega), by omega⟩, _, rfl, by simp [Fields.q6, Fields.rc, Legal, FieldKind.baseOk, FieldKind.highOk, Width.code] <;> (try simp only [decide_eq_true_eq, Bool.and_eq_true]) <;> first | omega | exact ⟨decide_eq_true (by omega), by omega⟩, by simp [Fields.q6, Fields.rc, ofFields, ofFields1, chain, Width.ofCode, Width.code] <;> (try simp only [decide_eq_true_eq, Bool.and_eq_true]) <;> first | omega | exact ⟨decide_eq_true (by omega), by omega⟩⟩
theorem FieldTrip.vminn (w : Width) (d : Vr) (a : Vr) (b : Vr) : Statement (.vminn w d a b) := by
  intro hw f hf; cases hf
  have := d.isLt
  have := a.isLt
  have := b.isLt
  cases w <;> (try simp only [Width.code, Nat.reduceMul, Nat.reduceAdd, Nat.reduceDiv, Nat.reduceMod]) <;> refine ⟨by simp [InRange, Width.code] <;> (try simp only [decide_eq_true_eq, Bool.and_eq_true]) <;> first | omega | exact ⟨decide_eq_true (by omega), by omega⟩, _, rfl, by simp [Fields.q6, Fields.rc, Legal, FieldKind.baseOk, FieldKind.highOk, Width.code] <;> (try simp only [decide_eq_true_eq, Bool.and_eq_true]) <;> first | omega | exact ⟨decide_eq_true (by omega), by omega⟩, by simp [Fields.q6, Fields.rc, ofFields, ofFields1, chain, Width.ofCode, Width.code] <;> (try simp only [decide_eq_true_eq, Bool.and_eq_true]) <;> first | omega | exact ⟨decide_eq_true (by omega), by omega⟩⟩
theorem FieldTrip.vmaxn (w : Width) (d : Vr) (a : Vr) (b : Vr) : Statement (.vmaxn w d a b) := by
  intro hw f hf; cases hf
  have := d.isLt
  have := a.isLt
  have := b.isLt
  cases w <;> (try simp only [Width.code, Nat.reduceMul, Nat.reduceAdd, Nat.reduceDiv, Nat.reduceMod]) <;> refine ⟨by simp [InRange, Width.code] <;> (try simp only [decide_eq_true_eq, Bool.and_eq_true]) <;> first | omega | exact ⟨decide_eq_true (by omega), by omega⟩, _, rfl, by simp [Fields.q6, Fields.rc, Legal, FieldKind.baseOk, FieldKind.highOk, Width.code] <;> (try simp only [decide_eq_true_eq, Bool.and_eq_true]) <;> first | omega | exact ⟨decide_eq_true (by omega), by omega⟩, by simp [Fields.q6, Fields.rc, ofFields, ofFields1, chain, Width.ofCode, Width.code] <;> (try simp only [decide_eq_true_eq, Bool.and_eq_true]) <;> first | omega | exact ⟨decide_eq_true (by omega), by omega⟩⟩
theorem FieldTrip.vadds (w : Width) (n : Bool) (d : Vr) (a : Vr) (b : Vr) : Statement (.vadds w n d a b) := by
  intro hw f hf; cases hf
  have := d.isLt
  have := a.isLt
  have := b.isLt
  cases w <;> cases n <;> (try simp only [Width.code, boolCode, Nat.reduceMul, Nat.reduceAdd, Nat.reduceDiv, Nat.reduceMod]) <;> refine ⟨by simp [InRange, Width.code, boolCode] <;> (try simp only [decide_eq_true_eq, Bool.and_eq_true]) <;> first | omega | exact ⟨decide_eq_true (by omega), by omega⟩, _, rfl, by simp [Fields.q6, Fields.rc, Legal, FieldKind.baseOk, FieldKind.highOk, Width.code, boolCode] <;> (try simp only [decide_eq_true_eq, Bool.and_eq_true]) <;> first | omega | exact ⟨decide_eq_true (by omega), by omega⟩, by simp [Fields.q6, Fields.rc, ofFields, ofFields1, chain, Width.ofCode, Width.code, boolCode] <;> (try simp only [decide_eq_true_eq, Bool.and_eq_true]) <;> first | omega | exact ⟨decide_eq_true (by omega), by omega⟩⟩
theorem FieldTrip.vsubs (w : Width) (n : Bool) (d : Vr) (a : Vr) (b : Vr) : Statement (.vsubs w n d a b) := by
  intro hw f hf; cases hf
  have := d.isLt
  have := a.isLt
  have := b.isLt
  cases w <;> cases n <;> (try simp only [Width.code, boolCode, Nat.reduceMul, Nat.reduceAdd, Nat.reduceDiv, Nat.reduceMod]) <;> refine ⟨by simp [InRange, Width.code, boolCode] <;> (try simp only [decide_eq_true_eq, Bool.and_eq_true]) <;> first | omega | exact ⟨decide_eq_true (by omega), by omega⟩, _, rfl, by simp [Fields.q6, Fields.rc, Legal, FieldKind.baseOk, FieldKind.highOk, Width.code, boolCode] <;> (try simp only [decide_eq_true_eq, Bool.and_eq_true]) <;> first | omega | exact ⟨decide_eq_true (by omega), by omega⟩, by simp [Fields.q6, Fields.rc, ofFields, ofFields1, chain, Width.ofCode, Width.code, boolCode] <;> (try simp only [decide_eq_true_eq, Bool.and_eq_true]) <;> first | omega | exact ⟨decide_eq_true (by omega), by omega⟩⟩
theorem FieldTrip.vmul (w : Width) (d : Vr) (a : Vr) (b : Vr) : Statement (.vmul w d a b) := by
  intro hw f hf; cases hf
  have := d.isLt
  have := a.isLt
  have := b.isLt
  cases w <;> (try simp only [Width.code, Nat.reduceMul, Nat.reduceAdd, Nat.reduceDiv, Nat.reduceMod]) <;> refine ⟨by simp [InRange, Width.code] <;> (try simp only [decide_eq_true_eq, Bool.and_eq_true]) <;> first | omega | exact ⟨decide_eq_true (by omega), by omega⟩, _, rfl, by simp [Fields.q6, Fields.rc, Legal, FieldKind.baseOk, FieldKind.highOk, Width.code] <;> (try simp only [decide_eq_true_eq, Bool.and_eq_true]) <;> first | omega | exact ⟨decide_eq_true (by omega), by omega⟩, by simp [Fields.q6, Fields.rc, ofFields, ofFields1, chain, Width.ofCode, Width.code] <;> (try simp only [decide_eq_true_eq, Bool.and_eq_true]) <;> first | omega | exact ⟨decide_eq_true (by omega), by omega⟩⟩
theorem FieldTrip.vmulh (w : Width) (d : Vr) (a : Vr) (b : Vr) : Statement (.vmulh w d a b) := by
  intro hw f hf; cases hf
  have := d.isLt
  have := a.isLt
  have := b.isLt
  cases w <;> (try simp only [Width.code, Nat.reduceMul, Nat.reduceAdd, Nat.reduceDiv, Nat.reduceMod]) <;> refine ⟨by simp [InRange, Width.code] <;> (try simp only [decide_eq_true_eq, Bool.and_eq_true]) <;> first | omega | exact ⟨decide_eq_true (by omega), by omega⟩, _, rfl, by simp [Fields.q6, Fields.rc, Legal, FieldKind.baseOk, FieldKind.highOk, Width.code] <;> (try simp only [decide_eq_true_eq, Bool.and_eq_true]) <;> first | omega | exact ⟨decide_eq_true (by omega), by omega⟩, by simp [Fields.q6, Fields.rc, ofFields, ofFields1, chain, Width.ofCode, Width.code] <;> (try simp only [decide_eq_true_eq, Bool.and_eq_true]) <;> first | omega | exact ⟨decide_eq_true (by omega), by omega⟩⟩
theorem FieldTrip.vmulhn (w : Width) (d : Vr) (a : Vr) (b : Vr) : Statement (.vmulhn w d a b) := by
  intro hw f hf; cases hf
  have := d.isLt
  have := a.isLt
  have := b.isLt
  cases w <;> (try simp only [Width.code, Nat.reduceMul, Nat.reduceAdd, Nat.reduceDiv, Nat.reduceMod]) <;> refine ⟨by simp [InRange, Width.code] <;> (try simp only [decide_eq_true_eq, Bool.and_eq_true]) <;> first | omega | exact ⟨decide_eq_true (by omega), by omega⟩, _, rfl, by simp [Fields.q6, Fields.rc, Legal, FieldKind.baseOk, FieldKind.highOk, Width.code] <;> (try simp only [decide_eq_true_eq, Bool.and_eq_true]) <;> first | omega | exact ⟨decide_eq_true (by omega), by omega⟩, by simp [Fields.q6, Fields.rc, ofFields, ofFields1, chain, Width.ofCode, Width.code] <;> (try simp only [decide_eq_true_eq, Bool.and_eq_true]) <;> first | omega | exact ⟨decide_eq_true (by omega), by omega⟩⟩
theorem FieldTrip.vmad (w : Width) (d : Vr) (a : Vr) (b : Vr) : Statement (.vmad w d a b) := by
  intro hw f hf; cases hf
  have := d.isLt
  have := a.isLt
  have := b.isLt
  cases w <;> (try simp only [Width.code, Nat.reduceMul, Nat.reduceAdd, Nat.reduceDiv, Nat.reduceMod]) <;> refine ⟨by simp [InRange, Width.code] <;> (try simp only [decide_eq_true_eq, Bool.and_eq_true]) <;> first | omega | exact ⟨decide_eq_true (by omega), by omega⟩, _, rfl, by simp [Fields.q6, Fields.rc, Legal, FieldKind.baseOk, FieldKind.highOk, Width.code] <;> (try simp only [decide_eq_true_eq, Bool.and_eq_true]) <;> first | omega | exact ⟨decide_eq_true (by omega), by omega⟩, by simp [Fields.q6, Fields.rc, ofFields, ofFields1, chain, Width.ofCode, Width.code] <;> (try simp only [decide_eq_true_eq, Bool.and_eq_true]) <;> first | omega | exact ⟨decide_eq_true (by omega), by omega⟩⟩
theorem FieldTrip.vdot4 (n : Bool) (d : Vr) (a : Vr) (b : Vr) : Statement (.vdot4 n d a b) := by
  intro hw f hf; cases hf
  have := d.isLt
  have := a.isLt
  have := b.isLt
  cases n <;> (try simp only [boolCode, Nat.reduceMul, Nat.reduceAdd, Nat.reduceDiv, Nat.reduceMod]) <;> refine ⟨by simp [InRange, boolCode] <;> (try simp only [decide_eq_true_eq, Bool.and_eq_true]) <;> first | omega | exact ⟨decide_eq_true (by omega), by omega⟩, _, rfl, by simp [Fields.q6, Fields.rc, Legal, FieldKind.baseOk, FieldKind.highOk, boolCode] <;> (try simp only [decide_eq_true_eq, Bool.and_eq_true]) <;> first | omega | exact ⟨decide_eq_true (by omega), by omega⟩, by simp [Fields.q6, Fields.rc, ofFields, ofFields1, chain, boolCode] <;> (try simp only [decide_eq_true_eq, Bool.and_eq_true]) <;> first | omega | exact ⟨decide_eq_true (by omega), by omega⟩⟩
theorem FieldTrip.vand (w : Width) (d : Vr) (a : Vr) (b : Vr) : Statement (.vand w d a b) := by
  intro hw f hf; cases hf
  have := d.isLt
  have := a.isLt
  have := b.isLt
  cases w <;> (try simp only [Width.code, Nat.reduceMul, Nat.reduceAdd, Nat.reduceDiv, Nat.reduceMod]) <;> refine ⟨by simp [InRange, Width.code] <;> (try simp only [decide_eq_true_eq, Bool.and_eq_true]) <;> first | omega | exact ⟨decide_eq_true (by omega), by omega⟩, _, rfl, by simp [Fields.q6, Fields.rc, Legal, FieldKind.baseOk, FieldKind.highOk, Width.code] <;> (try simp only [decide_eq_true_eq, Bool.and_eq_true]) <;> first | omega | exact ⟨decide_eq_true (by omega), by omega⟩, by simp [Fields.q6, Fields.rc, ofFields, ofFields1, chain, Width.ofCode, Width.code] <;> (try simp only [decide_eq_true_eq, Bool.and_eq_true]) <;> first | omega | exact ⟨decide_eq_true (by omega), by omega⟩⟩
theorem FieldTrip.vor (w : Width) (d : Vr) (a : Vr) (b : Vr) : Statement (.vor w d a b) := by
  intro hw f hf; cases hf
  have := d.isLt
  have := a.isLt
  have := b.isLt
  cases w <;> (try simp only [Width.code, Nat.reduceMul, Nat.reduceAdd, Nat.reduceDiv, Nat.reduceMod]) <;> refine ⟨by simp [InRange, Width.code] <;> (try simp only [decide_eq_true_eq, Bool.and_eq_true]) <;> first | omega | exact ⟨decide_eq_true (by omega), by omega⟩, _, rfl, by simp [Fields.q6, Fields.rc, Legal, FieldKind.baseOk, FieldKind.highOk, Width.code] <;> (try simp only [decide_eq_true_eq, Bool.and_eq_true]) <;> first | omega | exact ⟨decide_eq_true (by omega), by omega⟩, by simp [Fields.q6, Fields.rc, ofFields, ofFields1, chain, Width.ofCode, Width.code] <;> (try simp only [decide_eq_true_eq, Bool.and_eq_true]) <;> first | omega | exact ⟨decide_eq_true (by omega), by omega⟩⟩
theorem FieldTrip.vxor (w : Width) (d : Vr) (a : Vr) (b : Vr) : Statement (.vxor w d a b) := by
  intro hw f hf; cases hf
  have := d.isLt
  have := a.isLt
  have := b.isLt
  cases w <;> (try simp only [Width.code, Nat.reduceMul, Nat.reduceAdd, Nat.reduceDiv, Nat.reduceMod]) <;> refine ⟨by simp [InRange, Width.code] <;> (try simp only [decide_eq_true_eq, Bool.and_eq_true]) <;> first | omega | exact ⟨decide_eq_true (by omega), by omega⟩, _, rfl, by simp [Fields.q6, Fields.rc, Legal, FieldKind.baseOk, FieldKind.highOk, Width.code] <;> (try simp only [decide_eq_true_eq, Bool.and_eq_true]) <;> first | omega | exact ⟨decide_eq_true (by omega), by omega⟩, by simp [Fields.q6, Fields.rc, ofFields, ofFields1, chain, Width.ofCode, Width.code] <;> (try simp only [decide_eq_true_eq, Bool.and_eq_true]) <;> first | omega | exact ⟨decide_eq_true (by omega), by omega⟩⟩
theorem FieldTrip.vandn (w : Width) (d : Vr) (a : Vr) (b : Vr) : Statement (.vandn w d a b) := by
  intro hw f hf; cases hf
  have := d.isLt
  have := a.isLt
  have := b.isLt
  cases w <;> (try simp only [Width.code, Nat.reduceMul, Nat.reduceAdd, Nat.reduceDiv, Nat.reduceMod]) <;> refine ⟨by simp [InRange, Width.code] <;> (try simp only [decide_eq_true_eq, Bool.and_eq_true]) <;> first | omega | exact ⟨decide_eq_true (by omega), by omega⟩, _, rfl, by simp [Fields.q6, Fields.rc, Legal, FieldKind.baseOk, FieldKind.highOk, Width.code] <;> (try simp only [decide_eq_true_eq, Bool.and_eq_true]) <;> first | omega | exact ⟨decide_eq_true (by omega), by omega⟩, by simp [Fields.q6, Fields.rc, ofFields, ofFields1, chain, Width.ofCode, Width.code] <;> (try simp only [decide_eq_true_eq, Bool.and_eq_true]) <;> first | omega | exact ⟨decide_eq_true (by omega), by omega⟩⟩
theorem FieldTrip.vshl (w : Width) (d : Vr) (a : Vr) (b : Vr) : Statement (.vshl w d a b) := by
  intro hw f hf; cases hf
  have := d.isLt
  have := a.isLt
  have := b.isLt
  cases w <;> (try simp only [Width.code, Nat.reduceMul, Nat.reduceAdd, Nat.reduceDiv, Nat.reduceMod]) <;> refine ⟨by simp [InRange, Width.code] <;> (try simp only [decide_eq_true_eq, Bool.and_eq_true]) <;> first | omega | exact ⟨decide_eq_true (by omega), by omega⟩, _, rfl, by simp [Fields.q6, Fields.rc, Legal, FieldKind.baseOk, FieldKind.highOk, Width.code] <;> (try simp only [decide_eq_true_eq, Bool.and_eq_true]) <;> first | omega | exact ⟨decide_eq_true (by omega), by omega⟩, by simp [Fields.q6, Fields.rc, ofFields, ofFields1, chain, Width.ofCode, Width.code] <;> (try simp only [decide_eq_true_eq, Bool.and_eq_true]) <;> first | omega | exact ⟨decide_eq_true (by omega), by omega⟩⟩
theorem FieldTrip.vshr (w : Width) (d : Vr) (a : Vr) (b : Vr) : Statement (.vshr w d a b) := by
  intro hw f hf; cases hf
  have := d.isLt
  have := a.isLt
  have := b.isLt
  cases w <;> (try simp only [Width.code, Nat.reduceMul, Nat.reduceAdd, Nat.reduceDiv, Nat.reduceMod]) <;> refine ⟨by simp [InRange, Width.code] <;> (try simp only [decide_eq_true_eq, Bool.and_eq_true]) <;> first | omega | exact ⟨decide_eq_true (by omega), by omega⟩, _, rfl, by simp [Fields.q6, Fields.rc, Legal, FieldKind.baseOk, FieldKind.highOk, Width.code] <;> (try simp only [decide_eq_true_eq, Bool.and_eq_true]) <;> first | omega | exact ⟨decide_eq_true (by omega), by omega⟩, by simp [Fields.q6, Fields.rc, ofFields, ofFields1, chain, Width.ofCode, Width.code] <;> (try simp only [decide_eq_true_eq, Bool.and_eq_true]) <;> first | omega | exact ⟨decide_eq_true (by omega), by omega⟩⟩
theorem FieldTrip.vsra (w : Width) (d : Vr) (a : Vr) (b : Vr) : Statement (.vsra w d a b) := by
  intro hw f hf; cases hf
  have := d.isLt
  have := a.isLt
  have := b.isLt
  cases w <;> (try simp only [Width.code, Nat.reduceMul, Nat.reduceAdd, Nat.reduceDiv, Nat.reduceMod]) <;> refine ⟨by simp [InRange, Width.code] <;> (try simp only [decide_eq_true_eq, Bool.and_eq_true]) <;> first | omega | exact ⟨decide_eq_true (by omega), by omega⟩, _, rfl, by simp [Fields.q6, Fields.rc, Legal, FieldKind.baseOk, FieldKind.highOk, Width.code] <;> (try simp only [decide_eq_true_eq, Bool.and_eq_true]) <;> first | omega | exact ⟨decide_eq_true (by omega), by omega⟩, by simp [Fields.q6, Fields.rc, ofFields, ofFields1, chain, Width.ofCode, Width.code] <;> (try simp only [decide_eq_true_eq, Bool.and_eq_true]) <;> first | omega | exact ⟨decide_eq_true (by omega), by omega⟩⟩
theorem FieldTrip.vcmpeq (w : Width) (d : Pr) (a : Vr) (b : Vr) : Statement (.vcmpeq w d a b) := by
  intro hw f hf; cases hf
  have := d.isLt
  have := a.isLt
  have := b.isLt
  cases w <;> (try simp only [Width.code, Nat.reduceMul, Nat.reduceAdd, Nat.reduceDiv, Nat.reduceMod]) <;> refine ⟨by simp [InRange, Width.code] <;> (try simp only [decide_eq_true_eq, Bool.and_eq_true]) <;> first | omega | exact ⟨decide_eq_true (by omega), by omega⟩, _, rfl, by simp [Fields.q6, Fields.rc, Legal, FieldKind.baseOk, FieldKind.highOk, Width.code] <;> (try simp only [decide_eq_true_eq, Bool.and_eq_true]) <;> first | omega | exact ⟨decide_eq_true (by omega), by omega⟩, by simp [Fields.q6, Fields.rc, ofFields, ofFields1, chain, Width.ofCode, Width.code] <;> (try simp only [decide_eq_true_eq, Bool.and_eq_true]) <;> first | omega | exact ⟨decide_eq_true (by omega), by omega⟩⟩
theorem FieldTrip.vcmpne (w : Width) (d : Pr) (a : Vr) (b : Vr) : Statement (.vcmpne w d a b) := by
  intro hw f hf; cases hf
  have := d.isLt
  have := a.isLt
  have := b.isLt
  cases w <;> (try simp only [Width.code, Nat.reduceMul, Nat.reduceAdd, Nat.reduceDiv, Nat.reduceMod]) <;> refine ⟨by simp [InRange, Width.code] <;> (try simp only [decide_eq_true_eq, Bool.and_eq_true]) <;> first | omega | exact ⟨decide_eq_true (by omega), by omega⟩, _, rfl, by simp [Fields.q6, Fields.rc, Legal, FieldKind.baseOk, FieldKind.highOk, Width.code] <;> (try simp only [decide_eq_true_eq, Bool.and_eq_true]) <;> first | omega | exact ⟨decide_eq_true (by omega), by omega⟩, by simp [Fields.q6, Fields.rc, ofFields, ofFields1, chain, Width.ofCode, Width.code] <;> (try simp only [decide_eq_true_eq, Bool.and_eq_true]) <;> first | omega | exact ⟨decide_eq_true (by omega), by omega⟩⟩
theorem FieldTrip.vcmplt (w : Width) (d : Pr) (a : Vr) (b : Vr) : Statement (.vcmplt w d a b) := by
  intro hw f hf; cases hf
  have := d.isLt
  have := a.isLt
  have := b.isLt
  cases w <;> (try simp only [Width.code, Nat.reduceMul, Nat.reduceAdd, Nat.reduceDiv, Nat.reduceMod]) <;> refine ⟨by simp [InRange, Width.code] <;> (try simp only [decide_eq_true_eq, Bool.and_eq_true]) <;> first | omega | exact ⟨decide_eq_true (by omega), by omega⟩, _, rfl, by simp [Fields.q6, Fields.rc, Legal, FieldKind.baseOk, FieldKind.highOk, Width.code] <;> (try simp only [decide_eq_true_eq, Bool.and_eq_true]) <;> first | omega | exact ⟨decide_eq_true (by omega), by omega⟩, by simp [Fields.q6, Fields.rc, ofFields, ofFields1, chain, Width.ofCode, Width.code] <;> (try simp only [decide_eq_true_eq, Bool.and_eq_true]) <;> first | omega | exact ⟨decide_eq_true (by omega), by omega⟩⟩
theorem FieldTrip.vcmple (w : Width) (d : Pr) (a : Vr) (b : Vr) : Statement (.vcmple w d a b) := by
  intro hw f hf; cases hf
  have := d.isLt
  have := a.isLt
  have := b.isLt
  cases w <;> (try simp only [Width.code, Nat.reduceMul, Nat.reduceAdd, Nat.reduceDiv, Nat.reduceMod]) <;> refine ⟨by simp [InRange, Width.code] <;> (try simp only [decide_eq_true_eq, Bool.and_eq_true]) <;> first | omega | exact ⟨decide_eq_true (by omega), by omega⟩, _, rfl, by simp [Fields.q6, Fields.rc, Legal, FieldKind.baseOk, FieldKind.highOk, Width.code] <;> (try simp only [decide_eq_true_eq, Bool.and_eq_true]) <;> first | omega | exact ⟨decide_eq_true (by omega), by omega⟩, by simp [Fields.q6, Fields.rc, ofFields, ofFields1, chain, Width.ofCode, Width.code] <;> (try simp only [decide_eq_true_eq, Bool.and_eq_true]) <;> first | omega | exact ⟨decide_eq_true (by omega), by omega⟩⟩
theorem FieldTrip.vcmpltn (w : Width) (d : Pr) (a : Vr) (b : Vr) : Statement (.vcmpltn w d a b) := by
  intro hw f hf; cases hf
  have := d.isLt
  have := a.isLt
  have := b.isLt
  cases w <;> (try simp only [Width.code, Nat.reduceMul, Nat.reduceAdd, Nat.reduceDiv, Nat.reduceMod]) <;> refine ⟨by simp [InRange, Width.code] <;> (try simp only [decide_eq_true_eq, Bool.and_eq_true]) <;> first | omega | exact ⟨decide_eq_true (by omega), by omega⟩, _, rfl, by simp [Fields.q6, Fields.rc, Legal, FieldKind.baseOk, FieldKind.highOk, Width.code] <;> (try simp only [decide_eq_true_eq, Bool.and_eq_true]) <;> first | omega | exact ⟨decide_eq_true (by omega), by omega⟩, by simp [Fields.q6, Fields.rc, ofFields, ofFields1, chain, Width.ofCode, Width.code] <;> (try simp only [decide_eq_true_eq, Bool.and_eq_true]) <;> first | omega | exact ⟨decide_eq_true (by omega), by omega⟩⟩
theorem FieldTrip.vcmplen (w : Width) (d : Pr) (a : Vr) (b : Vr) : Statement (.vcmplen w d a b) := by
  intro hw f hf; cases hf
  have := d.isLt
  have := a.isLt
  have := b.isLt
  cases w <;> (try simp only [Width.code, Nat.reduceMul, Nat.reduceAdd, Nat.reduceDiv, Nat.reduceMod]) <;> refine ⟨by simp [InRange, Width.code] <;> (try simp only [decide_eq_true_eq, Bool.and_eq_true]) <;> first | omega | exact ⟨decide_eq_true (by omega), by omega⟩, _, rfl, by simp [Fields.q6, Fields.rc, Legal, FieldKind.baseOk, FieldKind.highOk, Width.code] <;> (try simp only [decide_eq_true_eq, Bool.and_eq_true]) <;> first | omega | exact ⟨decide_eq_true (by omega), by omega⟩, by simp [Fields.q6, Fields.rc, ofFields, ofFields1, chain, Width.ofCode, Width.code] <;> (try simp only [decide_eq_true_eq, Bool.and_eq_true]) <;> first | omega | exact ⟨decide_eq_true (by omega), by omega⟩⟩
theorem FieldTrip.vsel (d : Vr) (a : Vr) (b : Vr) : Statement (.vsel d a b) := by
  intro hw f hf; cases hf
  have := d.isLt
  have := a.isLt
  have := b.isLt
  refine ⟨by simp [InRange] <;> (try simp only [decide_eq_true_eq, Bool.and_eq_true]) <;> first | omega | exact ⟨decide_eq_true (by omega), by omega⟩, _, rfl, by simp [Fields.q6, Fields.rc, Legal, FieldKind.baseOk, FieldKind.highOk] <;> (try simp only [decide_eq_true_eq, Bool.and_eq_true]) <;> first | omega | exact ⟨decide_eq_true (by omega), by omega⟩, by simp [Fields.q6, Fields.rc, ofFields, ofFields1, chain] <;> (try simp only [decide_eq_true_eq, Bool.and_eq_true]) <;> first | omega | exact ⟨decide_eq_true (by omega), by omega⟩⟩
theorem FieldTrip.vbcast (w : Width) (d : Vr) (a : Gpr) : Statement (.vbcast w d a) := by
  intro hw f hf; cases hf
  have := d.isLt
  have := a.isLt
  cases w <;> (try simp only [Width.code, Nat.reduceMul, Nat.reduceAdd, Nat.reduceDiv, Nat.reduceMod]) <;> refine ⟨by simp [InRange, Width.code] <;> (try simp only [decide_eq_true_eq, Bool.and_eq_true]) <;> first | omega | exact ⟨decide_eq_true (by omega), by omega⟩, _, rfl, by simp [Fields.q6, Fields.rc, Legal, FieldKind.baseOk, FieldKind.highOk, Width.code] <;> (try simp only [decide_eq_true_eq, Bool.and_eq_true]) <;> first | omega | exact ⟨decide_eq_true (by omega), by omega⟩, by simp [Fields.q6, Fields.rc, ofFields, ofFields1, chain, Width.ofCode, Width.code] <;> (try simp only [decide_eq_true_eq, Bool.and_eq_true]) <;> first | omega | exact ⟨decide_eq_true (by omega), by omega⟩⟩
theorem FieldTrip.vbcastImm (w : Width) (d : Vr) (i : Imm) : Statement (.vbcastImm w d i) := by
  intro hw f hf; cases hf
  have := d.isLt
  have hv : i.wf 4 = true := by simp only [Instr.wf, Bool.and_eq_true] at hw <;> first | exact hw | exact hw.1 | exact hw.1.1
  obtain ⟨h1, h2, h3, h4⟩ := imm4 hv
  cases w <;> (try simp [Instr.wf, Width.code] at hw) <;> (try simp only [Width.code, Fields.putImm, Nat.reduceMul, Nat.reduceAdd, Nat.reduceDiv, Nat.reduceMod]) <;> refine ⟨by simp [InRange, Width.code, Fields.putImm] <;> (try simp only [decide_eq_true_eq, Bool.and_eq_true]) <;> first | omega | exact ⟨decide_eq_true (by omega), by omega⟩, _, rfl, by simp [Fields.q6, Fields.rc, Legal, FieldKind.baseOk, FieldKind.highOk, Width.code, Fields.putImm] <;> (try simp only [decide_eq_true_eq, Bool.and_eq_true]) <;> first | omega | exact ⟨decide_eq_true (by omega), by omega⟩, by simp [Fields.q6, Fields.rc, ofFields, ofFields1, chain, Width.ofCode, Width.code, Fields.putImm, Fields.getImm, Fields.immN, eta4] <;> (try simp only [decide_eq_true_eq, Bool.and_eq_true]) <;> first | omega | exact ⟨decide_eq_true (by omega), by omega⟩⟩
theorem FieldTrip.viota (w : Width) (d : Vr) (a : Gpr) : Statement (.viota w d a) := by
  intro hw f hf; cases hf
  have := d.isLt
  have := a.isLt
  cases w <;> (try simp only [Width.code, Nat.reduceMul, Nat.reduceAdd, Nat.reduceDiv, Nat.reduceMod]) <;> refine ⟨by simp [InRange, Width.code] <;> (try simp only [decide_eq_true_eq, Bool.and_eq_true]) <;> first | omega | exact ⟨decide_eq_true (by omega), by omega⟩, _, rfl, by simp [Fields.q6, Fields.rc, Legal, FieldKind.baseOk, FieldKind.highOk, Width.code] <;> (try simp only [decide_eq_true_eq, Bool.and_eq_true]) <;> first | omega | exact ⟨decide_eq_true (by omega), by omega⟩, by simp [Fields.q6, Fields.rc, ofFields, ofFields1, chain, Width.ofCode, Width.code] <;> (try simp only [decide_eq_true_eq, Bool.and_eq_true]) <;> first | omega | exact ⟨decide_eq_true (by omega), by omega⟩⟩
theorem FieldTrip.vmovpToPred (d : Pr) (a : Vr) : Statement (.vmovpToPred d a) := by
  intro hw f hf; cases hf
  have := d.isLt
  have := a.isLt
  refine ⟨by simp [InRange] <;> (try simp only [decide_eq_true_eq, Bool.and_eq_true]) <;> first | omega | exact ⟨decide_eq_true (by omega), by omega⟩, _, rfl, by simp [Fields.q6, Fields.rc, Legal, FieldKind.baseOk, FieldKind.highOk] <;> (try simp only [decide_eq_true_eq, Bool.and_eq_true]) <;> first | omega | exact ⟨decide_eq_true (by omega), by omega⟩, by simp [Fields.q6, Fields.rc, ofFields, ofFields1, chain] <;> (try simp only [decide_eq_true_eq, Bool.and_eq_true]) <;> first | omega | exact ⟨decide_eq_true (by omega), by omega⟩⟩
theorem FieldTrip.vmovpToVec (d : Vr) (a : Pr) : Statement (.vmovpToVec d a) := by
  intro hw f hf; cases hf
  have := d.isLt
  have := a.isLt
  refine ⟨by simp [InRange] <;> (try simp only [decide_eq_true_eq, Bool.and_eq_true]) <;> first | omega | exact ⟨decide_eq_true (by omega), by omega⟩, _, rfl, by simp [Fields.q6, Fields.rc, Legal, FieldKind.baseOk, FieldKind.highOk] <;> (try simp only [decide_eq_true_eq, Bool.and_eq_true]) <;> first | omega | exact ⟨decide_eq_true (by omega), by omega⟩, by simp [Fields.q6, Fields.rc, ofFields, ofFields1, chain] <;> (try simp only [decide_eq_true_eq, Bool.and_eq_true]) <;> first | omega | exact ⟨decide_eq_true (by omega), by omega⟩⟩
theorem FieldTrip.vperm (w : Width) (d : Vr) (a : Vr) (b : Vr) : Statement (.vperm w d a b) := by
  intro hw f hf; cases hf
  have := d.isLt
  have := a.isLt
  have := b.isLt
  cases w <;> (try simp only [Width.code, Nat.reduceMul, Nat.reduceAdd, Nat.reduceDiv, Nat.reduceMod]) <;> refine ⟨by simp [InRange, Width.code] <;> (try simp only [decide_eq_true_eq, Bool.and_eq_true]) <;> first | omega | exact ⟨decide_eq_true (by omega), by omega⟩, _, rfl, by simp [Fields.q6, Fields.rc, Legal, FieldKind.baseOk, FieldKind.highOk, Width.code] <;> (try simp only [decide_eq_true_eq, Bool.and_eq_true]) <;> first | omega | exact ⟨decide_eq_true (by omega), by omega⟩, by simp [Fields.q6, Fields.rc, ofFields, ofFields1, chain, Width.ofCode, Width.code] <;> (try simp only [decide_eq_true_eq, Bool.and_eq_true]) <;> first | omega | exact ⟨decide_eq_true (by omega), by omega⟩⟩
theorem FieldTrip.vrot (w : Width) (d : Vr) (a : Vr) (b : Gpr) : Statement (.vrot w d a b) := by
  intro hw f hf; cases hf
  have := d.isLt
  have := a.isLt
  have := b.isLt
  cases w <;> (try simp only [Width.code, Nat.reduceMul, Nat.reduceAdd, Nat.reduceDiv, Nat.reduceMod]) <;> refine ⟨by simp [InRange, Width.code] <;> (try simp only [decide_eq_true_eq, Bool.and_eq_true]) <;> first | omega | exact ⟨decide_eq_true (by omega), by omega⟩, _, rfl, by simp [Fields.q6, Fields.rc, Legal, FieldKind.baseOk, FieldKind.highOk, Width.code] <;> (try simp only [decide_eq_true_eq, Bool.and_eq_true]) <;> first | omega | exact ⟨decide_eq_true (by omega), by omega⟩, by simp [Fields.q6, Fields.rc, ofFields, ofFields1, chain, Width.ofCode, Width.code] <;> (try simp only [decide_eq_true_eq, Bool.and_eq_true]) <;> first | omega | exact ⟨decide_eq_true (by omega), by omega⟩⟩
theorem FieldTrip.vzip (w : Width) (d : Vr) (a : Vr) (b : Vr) : Statement (.vzip w d a b) := by
  intro hw f hf; cases hf
  have := d.isLt
  have := a.isLt
  have := b.isLt
  cases w <;> (try simp only [Width.code, Nat.reduceMul, Nat.reduceAdd, Nat.reduceDiv, Nat.reduceMod]) <;> refine ⟨by simp [InRange, Width.code] <;> (try simp only [decide_eq_true_eq, Bool.and_eq_true]) <;> first | omega | exact ⟨decide_eq_true (by omega), by omega⟩, _, rfl, by simp [Fields.q6, Fields.rc, Legal, FieldKind.baseOk, FieldKind.highOk, Width.code] <;> (try simp only [decide_eq_true_eq, Bool.and_eq_true]) <;> first | omega | exact ⟨decide_eq_true (by omega), by omega⟩, by simp [Fields.q6, Fields.rc, ofFields, ofFields1, chain, Width.ofCode, Width.code] <;> (try simp only [decide_eq_true_eq, Bool.and_eq_true]) <;> first | omega | exact ⟨decide_eq_true (by omega), by omega⟩⟩
theorem FieldTrip.vunzip (w : Width) (d : Vr) (a : Vr) (b : Vr) : Statement (.vunzip w d a b) := by
  intro hw f hf; cases hf
  have := d.isLt
  have := a.isLt
  have := b.isLt
  cases w <;> (try simp only [Width.code, Nat.reduceMul, Nat.reduceAdd, Nat.reduceDiv, Nat.reduceMod]) <;> refine ⟨by simp [InRange, Width.code] <;> (try simp only [decide_eq_true_eq, Bool.and_eq_true]) <;> first | omega | exact ⟨decide_eq_true (by omega), by omega⟩, _, rfl, by simp [Fields.q6, Fields.rc, Legal, FieldKind.baseOk, FieldKind.highOk, Width.code] <;> (try simp only [decide_eq_true_eq, Bool.and_eq_true]) <;> first | omega | exact ⟨decide_eq_true (by omega), by omega⟩, by simp [Fields.q6, Fields.rc, ofFields, ofFields1, chain, Width.ofCode, Width.code] <;> (try simp only [decide_eq_true_eq, Bool.and_eq_true]) <;> first | omega | exact ⟨decide_eq_true (by omega), by omega⟩⟩
theorem FieldTrip.vredadd (w : Width) (d : Gpr) (a : Vr) : Statement (.vredadd w d a) := by
  intro hw f hf; cases hf
  have := d.isLt
  have := a.isLt
  cases w <;> (try simp only [Width.code, Nat.reduceMul, Nat.reduceAdd, Nat.reduceDiv, Nat.reduceMod]) <;> refine ⟨by simp [InRange, Width.code] <;> (try simp only [decide_eq_true_eq, Bool.and_eq_true]) <;> first | omega | exact ⟨decide_eq_true (by omega), by omega⟩, _, rfl, by simp [Fields.q6, Fields.rc, Legal, FieldKind.baseOk, FieldKind.highOk, Width.code] <;> (try simp only [decide_eq_true_eq, Bool.and_eq_true]) <;> first | omega | exact ⟨decide_eq_true (by omega), by omega⟩, by simp [Fields.q6, Fields.rc, ofFields, ofFields1, chain, Width.ofCode, Width.code] <;> (try simp only [decide_eq_true_eq, Bool.and_eq_true]) <;> first | omega | exact ⟨decide_eq_true (by omega), by omega⟩⟩
theorem FieldTrip.vredmin (w : Width) (n : Bool) (d : Gpr) (a : Vr) : Statement (.vredmin w n d a) := by
  intro hw f hf; cases hf
  have := d.isLt
  have := a.isLt
  cases w <;> cases n <;> (try simp only [Width.code, boolCode, Nat.reduceMul, Nat.reduceAdd, Nat.reduceDiv, Nat.reduceMod]) <;> refine ⟨by simp [InRange, Width.code, boolCode] <;> (try simp only [decide_eq_true_eq, Bool.and_eq_true]) <;> first | omega | exact ⟨decide_eq_true (by omega), by omega⟩, _, rfl, by simp [Fields.q6, Fields.rc, Legal, FieldKind.baseOk, FieldKind.highOk, Width.code, boolCode] <;> (try simp only [decide_eq_true_eq, Bool.and_eq_true]) <;> first | omega | exact ⟨decide_eq_true (by omega), by omega⟩, by simp [Fields.q6, Fields.rc, ofFields, ofFields1, chain, Width.ofCode, Width.code, boolCode] <;> (try simp only [decide_eq_true_eq, Bool.and_eq_true]) <;> first | omega | exact ⟨decide_eq_true (by omega), by omega⟩⟩
theorem FieldTrip.vredmax (w : Width) (n : Bool) (d : Gpr) (a : Vr) : Statement (.vredmax w n d a) := by
  intro hw f hf; cases hf
  have := d.isLt
  have := a.isLt
  cases w <;> cases n <;> (try simp only [Width.code, boolCode, Nat.reduceMul, Nat.reduceAdd, Nat.reduceDiv, Nat.reduceMod]) <;> refine ⟨by simp [InRange, Width.code, boolCode] <;> (try simp only [decide_eq_true_eq, Bool.and_eq_true]) <;> first | omega | exact ⟨decide_eq_true (by omega), by omega⟩, _, rfl, by simp [Fields.q6, Fields.rc, Legal, FieldKind.baseOk, FieldKind.highOk, Width.code, boolCode] <;> (try simp only [decide_eq_true_eq, Bool.and_eq_true]) <;> first | omega | exact ⟨decide_eq_true (by omega), by omega⟩, by simp [Fields.q6, Fields.rc, ofFields, ofFields1, chain, Width.ofCode, Width.code, boolCode] <;> (try simp only [decide_eq_true_eq, Bool.and_eq_true]) <;> first | omega | exact ⟨decide_eq_true (by omega), by omega⟩⟩
theorem FieldTrip.vredand (w : Width) (d : Gpr) (a : Vr) : Statement (.vredand w d a) := by
  intro hw f hf; cases hf
  have := d.isLt
  have := a.isLt
  cases w <;> (try simp only [Width.code, Nat.reduceMul, Nat.reduceAdd, Nat.reduceDiv, Nat.reduceMod]) <;> refine ⟨by simp [InRange, Width.code] <;> (try simp only [decide_eq_true_eq, Bool.and_eq_true]) <;> first | omega | exact ⟨decide_eq_true (by omega), by omega⟩, _, rfl, by simp [Fields.q6, Fields.rc, Legal, FieldKind.baseOk, FieldKind.highOk, Width.code] <;> (try simp only [decide_eq_true_eq, Bool.and_eq_true]) <;> first | omega | exact ⟨decide_eq_true (by omega), by omega⟩, by simp [Fields.q6, Fields.rc, ofFields, ofFields1, chain, Width.ofCode, Width.code] <;> (try simp only [decide_eq_true_eq, Bool.and_eq_true]) <;> first | omega | exact ⟨decide_eq_true (by omega), by omega⟩⟩
theorem FieldTrip.vredor (w : Width) (d : Gpr) (a : Vr) : Statement (.vredor w d a) := by
  intro hw f hf; cases hf
  have := d.isLt
  have := a.isLt
  cases w <;> (try simp only [Width.code, Nat.reduceMul, Nat.reduceAdd, Nat.reduceDiv, Nat.reduceMod]) <;> refine ⟨by simp [InRange, Width.code] <;> (try simp only [decide_eq_true_eq, Bool.and_eq_true]) <;> first | omega | exact ⟨decide_eq_true (by omega), by omega⟩, _, rfl, by simp [Fields.q6, Fields.rc, Legal, FieldKind.baseOk, FieldKind.highOk, Width.code] <;> (try simp only [decide_eq_true_eq, Bool.and_eq_true]) <;> first | omega | exact ⟨decide_eq_true (by omega), by omega⟩, by simp [Fields.q6, Fields.rc, ofFields, ofFields1, chain, Width.ofCode, Width.code] <;> (try simp only [decide_eq_true_eq, Bool.and_eq_true]) <;> first | omega | exact ⟨decide_eq_true (by omega), by omega⟩⟩
theorem FieldTrip.vscanadd (w : Width) (d : Vr) (a : Vr) : Statement (.vscanadd w d a) := by
  intro hw f hf; cases hf
  have := d.isLt
  have := a.isLt
  cases w <;> (try simp only [Width.code, Nat.reduceMul, Nat.reduceAdd, Nat.reduceDiv, Nat.reduceMod]) <;> refine ⟨by simp [InRange, Width.code] <;> (try simp only [decide_eq_true_eq, Bool.and_eq_true]) <;> first | omega | exact ⟨decide_eq_true (by omega), by omega⟩, _, rfl, by simp [Fields.q6, Fields.rc, Legal, FieldKind.baseOk, FieldKind.highOk, Width.code] <;> (try simp only [decide_eq_true_eq, Bool.and_eq_true]) <;> first | omega | exact ⟨decide_eq_true (by omega), by omega⟩, by simp [Fields.q6, Fields.rc, ofFields, ofFields1, chain, Width.ofCode, Width.code] <;> (try simp only [decide_eq_true_eq, Bool.and_eq_true]) <;> first | omega | exact ⟨decide_eq_true (by omega), by omega⟩⟩
theorem FieldTrip.vscanmax (w : Width) (n : Bool) (d : Vr) (a : Vr) : Statement (.vscanmax w n d a) := by
  intro hw f hf; cases hf
  have := d.isLt
  have := a.isLt
  cases w <;> cases n <;> (try simp only [Width.code, boolCode, Nat.reduceMul, Nat.reduceAdd, Nat.reduceDiv, Nat.reduceMod]) <;> refine ⟨by simp [InRange, Width.code, boolCode] <;> (try simp only [decide_eq_true_eq, Bool.and_eq_true]) <;> first | omega | exact ⟨decide_eq_true (by omega), by omega⟩, _, rfl, by simp [Fields.q6, Fields.rc, Legal, FieldKind.baseOk, FieldKind.highOk, Width.code, boolCode] <;> (try simp only [decide_eq_true_eq, Bool.and_eq_true]) <;> first | omega | exact ⟨decide_eq_true (by omega), by omega⟩, by simp [Fields.q6, Fields.rc, ofFields, ofFields1, chain, Width.ofCode, Width.code, boolCode] <;> (try simp only [decide_eq_true_eq, Bool.and_eq_true]) <;> first | omega | exact ⟨decide_eq_true (by omega), by omega⟩⟩
theorem FieldTrip.vextr (w : Width) (n : Bool) (d : Gpr) (a : Vr) (b : Gpr) : Statement (.vextr w n d a b) := by
  intro hw f hf; cases hf
  have := d.isLt
  have := a.isLt
  have := b.isLt
  cases w <;> cases n <;> (try simp only [Width.code, boolCode, Nat.reduceMul, Nat.reduceAdd, Nat.reduceDiv, Nat.reduceMod]) <;> refine ⟨by simp [InRange, Width.code, boolCode] <;> (try simp only [decide_eq_true_eq, Bool.and_eq_true]) <;> first | omega | exact ⟨decide_eq_true (by omega), by omega⟩, _, rfl, by simp [Fields.q6, Fields.rc, Legal, FieldKind.baseOk, FieldKind.highOk, Width.code, boolCode] <;> (try simp only [decide_eq_true_eq, Bool.and_eq_true]) <;> first | omega | exact ⟨decide_eq_true (by omega), by omega⟩, by simp [Fields.q6, Fields.rc, ofFields, ofFields1, chain, Width.ofCode, Width.code, boolCode] <;> (try simp only [decide_eq_true_eq, Bool.and_eq_true]) <;> first | omega | exact ⟨decide_eq_true (by omega), by omega⟩⟩
theorem FieldTrip.vins (w : Width) (d : Vr) (a : Gpr) (b : Gpr) : Statement (.vins w d a b) := by
  intro hw f hf; cases hf
  have := d.isLt
  have := a.isLt
  have := b.isLt
  cases w <;> (try simp only [Width.code, Nat.reduceMul, Nat.reduceAdd, Nat.reduceDiv, Nat.reduceMod]) <;> refine ⟨by simp [InRange, Width.code] <;> (try simp only [decide_eq_true_eq, Bool.and_eq_true]) <;> first | omega | exact ⟨decide_eq_true (by omega), by omega⟩, _, rfl, by simp [Fields.q6, Fields.rc, Legal, FieldKind.baseOk, FieldKind.highOk, Width.code] <;> (try simp only [decide_eq_true_eq, Bool.and_eq_true]) <;> first | omega | exact ⟨decide_eq_true (by omega), by omega⟩, by simp [Fields.q6, Fields.rc, ofFields, ofFields1, chain, Width.ofCode, Width.code] <;> (try simp only [decide_eq_true_eq, Bool.and_eq_true]) <;> first | omega | exact ⟨decide_eq_true (by omega), by omega⟩⟩
theorem FieldTrip.pand (d : Pr) (a : Pr) (b : Pr) : Statement (.pand d a b) := by
  intro hw f hf; cases hf
  have := d.isLt
  have := a.isLt
  have := b.isLt
  refine ⟨by simp [InRange] <;> (try simp only [decide_eq_true_eq, Bool.and_eq_true]) <;> first | omega | exact ⟨decide_eq_true (by omega), by omega⟩, _, rfl, by simp [Fields.q6, Fields.rc, Legal, FieldKind.baseOk, FieldKind.highOk] <;> (try simp only [decide_eq_true_eq, Bool.and_eq_true]) <;> first | omega | exact ⟨decide_eq_true (by omega), by omega⟩, by simp [Fields.q6, Fields.rc, ofFields, ofFields1, chain] <;> (try simp only [decide_eq_true_eq, Bool.and_eq_true]) <;> first | omega | exact ⟨decide_eq_true (by omega), by omega⟩⟩
theorem FieldTrip.por (d : Pr) (a : Pr) (b : Pr) : Statement (.por d a b) := by
  intro hw f hf; cases hf
  have := d.isLt
  have := a.isLt
  have := b.isLt
  refine ⟨by simp [InRange] <;> (try simp only [decide_eq_true_eq, Bool.and_eq_true]) <;> first | omega | exact ⟨decide_eq_true (by omega), by omega⟩, _, rfl, by simp [Fields.q6, Fields.rc, Legal, FieldKind.baseOk, FieldKind.highOk] <;> (try simp only [decide_eq_true_eq, Bool.and_eq_true]) <;> first | omega | exact ⟨decide_eq_true (by omega), by omega⟩, by simp [Fields.q6, Fields.rc, ofFields, ofFields1, chain] <;> (try simp only [decide_eq_true_eq, Bool.and_eq_true]) <;> first | omega | exact ⟨decide_eq_true (by omega), by omega⟩⟩
theorem FieldTrip.pxor (d : Pr) (a : Pr) (b : Pr) : Statement (.pxor d a b) := by
  intro hw f hf; cases hf
  have := d.isLt
  have := a.isLt
  have := b.isLt
  refine ⟨by simp [InRange] <;> (try simp only [decide_eq_true_eq, Bool.and_eq_true]) <;> first | omega | exact ⟨decide_eq_true (by omega), by omega⟩, _, rfl, by simp [Fields.q6, Fields.rc, Legal, FieldKind.baseOk, FieldKind.highOk] <;> (try simp only [decide_eq_true_eq, Bool.and_eq_true]) <;> first | omega | exact ⟨decide_eq_true (by omega), by omega⟩, by simp [Fields.q6, Fields.rc, ofFields, ofFields1, chain] <;> (try simp only [decide_eq_true_eq, Bool.and_eq_true]) <;> first | omega | exact ⟨decide_eq_true (by omega), by omega⟩⟩
theorem FieldTrip.pnot (d : Pr) (a : Pr) : Statement (.pnot d a) := by
  intro hw f hf; cases hf
  have := d.isLt
  have := a.isLt
  refine ⟨by simp [InRange] <;> (try simp only [decide_eq_true_eq, Bool.and_eq_true]) <;> first | omega | exact ⟨decide_eq_true (by omega), by omega⟩, _, rfl, by simp [Fields.q6, Fields.rc, Legal, FieldKind.baseOk, FieldKind.highOk] <;> (try simp only [decide_eq_true_eq, Bool.and_eq_true]) <;> first | omega | exact ⟨decide_eq_true (by omega), by omega⟩, by simp [Fields.q6, Fields.rc, ofFields, ofFields1, chain] <;> (try simp only [decide_eq_true_eq, Bool.and_eq_true]) <;> first | omega | exact ⟨decide_eq_true (by omega), by omega⟩⟩
theorem FieldTrip.pcnt (d : Gpr) (a : Pr) : Statement (.pcnt d a) := by
  intro hw f hf; cases hf
  have := d.isLt
  have := a.isLt
  refine ⟨by simp [InRange] <;> (try simp only [decide_eq_true_eq, Bool.and_eq_true]) <;> first | omega | exact ⟨decide_eq_true (by omega), by omega⟩, _, rfl, by simp [Fields.q6, Fields.rc, Legal, FieldKind.baseOk, FieldKind.highOk] <;> (try simp only [decide_eq_true_eq, Bool.and_eq_true]) <;> first | omega | exact ⟨decide_eq_true (by omega), by omega⟩, by simp [Fields.q6, Fields.rc, ofFields, ofFields1, chain] <;> (try simp only [decide_eq_true_eq, Bool.and_eq_true]) <;> first | omega | exact ⟨decide_eq_true (by omega), by omega⟩⟩
theorem FieldTrip.pfirst (d : Pr) (a : Pr) : Statement (.pfirst d a) := by
  intro hw f hf; cases hf
  have := d.isLt
  have := a.isLt
  refine ⟨by simp [InRange] <;> (try simp only [decide_eq_true_eq, Bool.and_eq_true]) <;> first | omega | exact ⟨decide_eq_true (by omega), by omega⟩, _, rfl, by simp [Fields.q6, Fields.rc, Legal, FieldKind.baseOk, FieldKind.highOk] <;> (try simp only [decide_eq_true_eq, Bool.and_eq_true]) <;> first | omega | exact ⟨decide_eq_true (by omega), by omega⟩, by simp [Fields.q6, Fields.rc, ofFields, ofFields1, chain] <;> (try simp only [decide_eq_true_eq, Bool.and_eq_true]) <;> first | omega | exact ⟨decide_eq_true (by omega), by omega⟩⟩
theorem FieldTrip.vfadd (t : VTy) (r : Rnd) (d : Vr) (a : Vr) (b : FSrc) : Statement (.vfadd t r d a b) := by
  intro hw f hf; cases hf
  cases b with
  | vec x =>
    have := d.isLt
    have := a.isLt
    have := x.isLt
    cases t <;> cases r <;> (try simp [Instr.wf, VTy.code, Rnd.code, FSrc.wf] at hw) <;> (try simp only [Fields.putFSrc, Fields.putImm, VTy.code, Rnd.code, Nat.reduceMul, Nat.reduceAdd, Nat.reduceDiv, Nat.reduceMod, rowOf, row2, Fields.q6, Fields.rc, Nat.reduceLeDiff, ge_iff_le, Nat.reduceEqDiff, ↓reduceIte, Nat.zero_add, Nat.zero_div, Nat.zero_ne_one, Nat.zero_mod]) <;> refine ⟨by simp [InRange, VTy.code, Rnd.code] <;> (try simp only [decide_eq_true_eq, Bool.and_eq_true]) <;> first | omega | exact ⟨decide_eq_true (by omega), by omega⟩, _, rfl, by simp [Fields.q6, Fields.rc, Legal, FieldKind.baseOk, FieldKind.highOk, VTy.code, Rnd.code] <;> (try simp only [decide_eq_true_eq, Bool.and_eq_true]) <;> first | omega | exact ⟨decide_eq_true (by omega), by omega⟩, by simp [Fields.q6, Fields.rc, ofFields, ofFields2, chain, VTy.ofCode, VTy.code, Rnd.ofCode, Rnd.code, Fields.putFSrc, Fields.getFSrc, Fields.putImm, Fields.getImm, Fields.immN, eta4] <;> (try simp only [decide_eq_true_eq, Bool.and_eq_true]) <;> first | omega | exact ⟨decide_eq_true (by omega), by omega⟩⟩
  | imm x =>
    have := d.isLt
    have := a.isLt
    have hv : x.wf 4 = true := by simp only [Instr.wf, FSrc.wf, Bool.and_eq_true] at hw <;> first | exact hw | exact hw.1 | exact hw.1.1
    obtain ⟨h1, h2, h3, h4⟩ := imm4 hv
    cases t <;> cases r <;> (try simp [Instr.wf, VTy.code, Rnd.code, FSrc.wf] at hw) <;> (try simp only [Fields.putFSrc, Fields.putImm, VTy.code, Rnd.code, Nat.reduceMul, Nat.reduceAdd, Nat.reduceDiv, Nat.reduceMod, rowOf, row2, Fields.q6, Fields.rc, Nat.reduceLeDiff, ge_iff_le, Nat.reduceEqDiff, ↓reduceIte, Nat.zero_add, Nat.zero_div, Nat.zero_ne_one, Nat.zero_mod]) <;> refine ⟨by simp [InRange, VTy.code, Rnd.code, Fields.putImm] <;> (try simp only [decide_eq_true_eq, Bool.and_eq_true]) <;> first | omega | exact ⟨decide_eq_true (by omega), by omega⟩, _, rfl, by simp [Fields.q6, Fields.rc, Legal, FieldKind.baseOk, FieldKind.highOk, VTy.code, Rnd.code, Fields.putImm] <;> (try simp only [decide_eq_true_eq, Bool.and_eq_true]) <;> first | omega | exact ⟨decide_eq_true (by omega), by omega⟩, by simp [Fields.q6, Fields.rc, ofFields, ofFields2, chain, VTy.ofCode, VTy.code, Rnd.ofCode, Rnd.code, Fields.putFSrc, Fields.getFSrc, Fields.putImm, Fields.getImm, Fields.immN, eta4] <;> (try simp only [decide_eq_true_eq, Bool.and_eq_true]) <;> first | omega | exact ⟨decide_eq_true (by omega), by omega⟩⟩
theorem FieldTrip.vfsub (t : VTy) (r : Rnd) (d : Vr) (a : Vr) (b : FSrc) : Statement (.vfsub t r d a b) := by
  intro hw f hf; cases hf
  cases b with
  | vec x =>
    have := d.isLt
    have := a.isLt
    have := x.isLt
    cases t <;> cases r <;> (try simp [Instr.wf, VTy.code, Rnd.code, FSrc.wf] at hw) <;> (try simp only [Fields.putFSrc, Fields.putImm, VTy.code, Rnd.code, Nat.reduceMul, Nat.reduceAdd, Nat.reduceDiv, Nat.reduceMod, rowOf, row2, Fields.q6, Fields.rc, Nat.reduceLeDiff, ge_iff_le, Nat.reduceEqDiff, ↓reduceIte, Nat.zero_add, Nat.zero_div, Nat.zero_ne_one, Nat.zero_mod]) <;> refine ⟨by simp [InRange, VTy.code, Rnd.code] <;> (try simp only [decide_eq_true_eq, Bool.and_eq_true]) <;> first | omega | exact ⟨decide_eq_true (by omega), by omega⟩, _, rfl, by simp [Fields.q6, Fields.rc, Legal, FieldKind.baseOk, FieldKind.highOk, VTy.code, Rnd.code] <;> (try simp only [decide_eq_true_eq, Bool.and_eq_true]) <;> first | omega | exact ⟨decide_eq_true (by omega), by omega⟩, by simp [Fields.q6, Fields.rc, ofFields, ofFields2, chain, VTy.ofCode, VTy.code, Rnd.ofCode, Rnd.code, Fields.putFSrc, Fields.getFSrc, Fields.putImm, Fields.getImm, Fields.immN, eta4] <;> (try simp only [decide_eq_true_eq, Bool.and_eq_true]) <;> first | omega | exact ⟨decide_eq_true (by omega), by omega⟩⟩
  | imm x =>
    have := d.isLt
    have := a.isLt
    have hv : x.wf 4 = true := by simp only [Instr.wf, FSrc.wf, Bool.and_eq_true] at hw <;> first | exact hw | exact hw.1 | exact hw.1.1
    obtain ⟨h1, h2, h3, h4⟩ := imm4 hv
    cases t <;> cases r <;> (try simp [Instr.wf, VTy.code, Rnd.code, FSrc.wf] at hw) <;> (try simp only [Fields.putFSrc, Fields.putImm, VTy.code, Rnd.code, Nat.reduceMul, Nat.reduceAdd, Nat.reduceDiv, Nat.reduceMod, rowOf, row2, Fields.q6, Fields.rc, Nat.reduceLeDiff, ge_iff_le, Nat.reduceEqDiff, ↓reduceIte, Nat.zero_add, Nat.zero_div, Nat.zero_ne_one, Nat.zero_mod]) <;> refine ⟨by simp [InRange, VTy.code, Rnd.code, Fields.putImm] <;> (try simp only [decide_eq_true_eq, Bool.and_eq_true]) <;> first | omega | exact ⟨decide_eq_true (by omega), by omega⟩, _, rfl, by simp [Fields.q6, Fields.rc, Legal, FieldKind.baseOk, FieldKind.highOk, VTy.code, Rnd.code, Fields.putImm] <;> (try simp only [decide_eq_true_eq, Bool.and_eq_true]) <;> first | omega | exact ⟨decide_eq_true (by omega), by omega⟩, by simp [Fields.q6, Fields.rc, ofFields, ofFields2, chain, VTy.ofCode, VTy.code, Rnd.ofCode, Rnd.code, Fields.putFSrc, Fields.getFSrc, Fields.putImm, Fields.getImm, Fields.immN, eta4] <;> (try simp only [decide_eq_true_eq, Bool.and_eq_true]) <;> first | omega | exact ⟨decide_eq_true (by omega), by omega⟩⟩
theorem FieldTrip.vfmul (t : VTy) (r : Rnd) (d : Vr) (a : Vr) (b : FSrc) : Statement (.vfmul t r d a b) := by
  intro hw f hf; cases hf
  cases b with
  | vec x =>
    have := d.isLt
    have := a.isLt
    have := x.isLt
    cases t <;> cases r <;> (try simp [Instr.wf, VTy.code, Rnd.code, FSrc.wf] at hw) <;> (try simp only [Fields.putFSrc, Fields.putImm, VTy.code, Rnd.code, Nat.reduceMul, Nat.reduceAdd, Nat.reduceDiv, Nat.reduceMod, rowOf, row2, Fields.q6, Fields.rc, Nat.reduceLeDiff, ge_iff_le, Nat.reduceEqDiff, ↓reduceIte, Nat.zero_add, Nat.zero_div, Nat.zero_ne_one, Nat.zero_mod]) <;> refine ⟨by simp [InRange, VTy.code, Rnd.code] <;> (try simp only [decide_eq_true_eq, Bool.and_eq_true]) <;> first | omega | exact ⟨decide_eq_true (by omega), by omega⟩, _, rfl, by simp [Fields.q6, Fields.rc, Legal, FieldKind.baseOk, FieldKind.highOk, VTy.code, Rnd.code] <;> (try simp only [decide_eq_true_eq, Bool.and_eq_true]) <;> first | omega | exact ⟨decide_eq_true (by omega), by omega⟩, by simp [Fields.q6, Fields.rc, ofFields, ofFields2, chain, VTy.ofCode, VTy.code, Rnd.ofCode, Rnd.code, Fields.putFSrc, Fields.getFSrc, Fields.putImm, Fields.getImm, Fields.immN, eta4] <;> (try simp only [decide_eq_true_eq, Bool.and_eq_true]) <;> first | omega | exact ⟨decide_eq_true (by omega), by omega⟩⟩
  | imm x =>
    have := d.isLt
    have := a.isLt
    have hv : x.wf 4 = true := by simp only [Instr.wf, FSrc.wf, Bool.and_eq_true] at hw <;> first | exact hw | exact hw.1 | exact hw.1.1
    obtain ⟨h1, h2, h3, h4⟩ := imm4 hv
    cases t <;> cases r <;> (try simp [Instr.wf, VTy.code, Rnd.code, FSrc.wf] at hw) <;> (try simp only [Fields.putFSrc, Fields.putImm, VTy.code, Rnd.code, Nat.reduceMul, Nat.reduceAdd, Nat.reduceDiv, Nat.reduceMod, rowOf, row2, Fields.q6, Fields.rc, Nat.reduceLeDiff, ge_iff_le, Nat.reduceEqDiff, ↓reduceIte, Nat.zero_add, Nat.zero_div, Nat.zero_ne_one, Nat.zero_mod]) <;> refine ⟨by simp [InRange, VTy.code, Rnd.code, Fields.putImm] <;> (try simp only [decide_eq_true_eq, Bool.and_eq_true]) <;> first | omega | exact ⟨decide_eq_true (by omega), by omega⟩, _, rfl, by simp [Fields.q6, Fields.rc, Legal, FieldKind.baseOk, FieldKind.highOk, VTy.code, Rnd.code, Fields.putImm] <;> (try simp only [decide_eq_true_eq, Bool.and_eq_true]) <;> first | omega | exact ⟨decide_eq_true (by omega), by omega⟩, by simp [Fields.q6, Fields.rc, ofFields, ofFields2, chain, VTy.ofCode, VTy.code, Rnd.ofCode, Rnd.code, Fields.putFSrc, Fields.getFSrc, Fields.putImm, Fields.getImm, Fields.immN, eta4] <;> (try simp only [decide_eq_true_eq, Bool.and_eq_true]) <;> first | omega | exact ⟨decide_eq_true (by omega), by omega⟩⟩
theorem FieldTrip.vfmin (t : VTy) (d : Vr) (a : Vr) (b : FSrc) : Statement (.vfmin t d a b) := by
  intro hw f hf; cases hf
  cases b with
  | vec x =>
    have := d.isLt
    have := a.isLt
    have := x.isLt
    cases t <;> (try simp [Instr.wf, VTy.code, FSrc.wf] at hw) <;> (try simp only [Fields.putFSrc, Fields.putImm, VTy.code, Nat.reduceMul, Nat.reduceAdd, Nat.reduceDiv, Nat.reduceMod]) <;> refine ⟨by simp [InRange, VTy.code] <;> (try simp only [decide_eq_true_eq, Bool.and_eq_true]) <;> first | omega | exact ⟨decide_eq_true (by omega), by omega⟩, _, rfl, by simp [Fields.q6, Fields.rc, Legal, FieldKind.baseOk, FieldKind.highOk, VTy.code] <;> (try simp only [decide_eq_true_eq, Bool.and_eq_true]) <;> first | omega | exact ⟨decide_eq_true (by omega), by omega⟩, by simp [Fields.q6, Fields.rc, ofFields, ofFields2, chain, VTy.ofCode, VTy.code, Fields.putFSrc, Fields.getFSrc, Fields.putImm, Fields.getImm, Fields.immN, eta4] <;> (try simp only [decide_eq_true_eq, Bool.and_eq_true]) <;> first | omega | exact ⟨decide_eq_true (by omega), by omega⟩⟩
  | imm x =>
    have := d.isLt
    have := a.isLt
    have hv : x.wf 4 = true := by simp only [Instr.wf, FSrc.wf, Bool.and_eq_true] at hw <;> first | exact hw | exact hw.1 | exact hw.1.1
    obtain ⟨h1, h2, h3, h4⟩ := imm4 hv
    cases t <;> (try simp [Instr.wf, VTy.code, FSrc.wf] at hw) <;> (try simp only [Fields.putFSrc, Fields.putImm, VTy.code, Nat.reduceMul, Nat.reduceAdd, Nat.reduceDiv, Nat.reduceMod]) <;> refine ⟨by simp [InRange, VTy.code, Fields.putImm] <;> (try simp only [decide_eq_true_eq, Bool.and_eq_true]) <;> first | omega | exact ⟨decide_eq_true (by omega), by omega⟩, _, rfl, by simp [Fields.q6, Fields.rc, Legal, FieldKind.baseOk, FieldKind.highOk, VTy.code, Fields.putImm] <;> (try simp only [decide_eq_true_eq, Bool.and_eq_true]) <;> first | omega | exact ⟨decide_eq_true (by omega), by omega⟩, by simp [Fields.q6, Fields.rc, ofFields, ofFields2, chain, VTy.ofCode, VTy.code, Fields.putFSrc, Fields.getFSrc, Fields.putImm, Fields.getImm, Fields.immN, eta4] <;> (try simp only [decide_eq_true_eq, Bool.and_eq_true]) <;> first | omega | exact ⟨decide_eq_true (by omega), by omega⟩⟩
theorem FieldTrip.vfmax (t : VTy) (d : Vr) (a : Vr) (b : FSrc) : Statement (.vfmax t d a b) := by
  intro hw f hf; cases hf
  cases b with
  | vec x =>
    have := d.isLt
    have := a.isLt
    have := x.isLt
    cases t <;> (try simp [Instr.wf, VTy.code, FSrc.wf] at hw) <;> (try simp only [Fields.putFSrc, Fields.putImm, VTy.code, Nat.reduceMul, Nat.reduceAdd, Nat.reduceDiv, Nat.reduceMod]) <;> refine ⟨by simp [InRange, VTy.code] <;> (try simp only [decide_eq_true_eq, Bool.and_eq_true]) <;> first | omega | exact ⟨decide_eq_true (by omega), by omega⟩, _, rfl, by simp [Fields.q6, Fields.rc, Legal, FieldKind.baseOk, FieldKind.highOk, VTy.code] <;> (try simp only [decide_eq_true_eq, Bool.and_eq_true]) <;> first | omega | exact ⟨decide_eq_true (by omega), by omega⟩, by simp [Fields.q6, Fields.rc, ofFields, ofFields2, chain, VTy.ofCode, VTy.code, Fields.putFSrc, Fields.getFSrc, Fields.putImm, Fields.getImm, Fields.immN, eta4] <;> (try simp only [decide_eq_true_eq, Bool.and_eq_true]) <;> first | omega | exact ⟨decide_eq_true (by omega), by omega⟩⟩
  | imm x =>
    have := d.isLt
    have := a.isLt
    have hv : x.wf 4 = true := by simp only [Instr.wf, FSrc.wf, Bool.and_eq_true] at hw <;> first | exact hw | exact hw.1 | exact hw.1.1
    obtain ⟨h1, h2, h3, h4⟩ := imm4 hv
    cases t <;> (try simp [Instr.wf, VTy.code, FSrc.wf] at hw) <;> (try simp only [Fields.putFSrc, Fields.putImm, VTy.code, Nat.reduceMul, Nat.reduceAdd, Nat.reduceDiv, Nat.reduceMod]) <;> refine ⟨by simp [InRange, VTy.code, Fields.putImm] <;> (try simp only [decide_eq_true_eq, Bool.and_eq_true]) <;> first | omega | exact ⟨decide_eq_true (by omega), by omega⟩, _, rfl, by simp [Fields.q6, Fields.rc, Legal, FieldKind.baseOk, FieldKind.highOk, VTy.code, Fields.putImm] <;> (try simp only [decide_eq_true_eq, Bool.and_eq_true]) <;> first | omega | exact ⟨decide_eq_true (by omega), by omega⟩, by simp [Fields.q6, Fields.rc, ofFields, ofFields2, chain, VTy.ofCode, VTy.code, Fields.putFSrc, Fields.getFSrc, Fields.putImm, Fields.getImm, Fields.immN, eta4] <;> (try simp only [decide_eq_true_eq, Bool.and_eq_true]) <;> first | omega | exact ⟨decide_eq_true (by omega), by omega⟩⟩
theorem FieldTrip.vfma (t : VTy) (r : Rnd) (d : Vr) (a : Vr) (b : FSrc) : Statement (.vfma t r d a b) := by
  intro hw f hf; cases hf
  cases b with
  | vec x =>
    have := d.isLt
    have := a.isLt
    have := x.isLt
    cases t <;> cases r <;> (try simp [Instr.wf, VTy.code, Rnd.code, FSrc.wf] at hw) <;> (try simp only [Fields.putFSrc, Fields.putImm, VTy.code, Rnd.code, Nat.reduceMul, Nat.reduceAdd, Nat.reduceDiv, Nat.reduceMod, rowOf, row2, Fields.q6, Fields.rc, Nat.reduceLeDiff, ge_iff_le, Nat.reduceEqDiff, ↓reduceIte, Nat.zero_add, Nat.zero_div, Nat.zero_ne_one, Nat.zero_mod]) <;> refine ⟨by simp [InRange, VTy.code, Rnd.code] <;> (try simp only [decide_eq_true_eq, Bool.and_eq_true]) <;> first | omega | exact ⟨decide_eq_true (by omega), by omega⟩, _, rfl, by simp [Fields.q6, Fields.rc, Legal, FieldKind.baseOk, FieldKind.highOk, VTy.code, Rnd.code] <;> (try simp only [decide_eq_true_eq, Bool.and_eq_true]) <;> first | omega | exact ⟨decide_eq_true (by omega), by omega⟩, by simp [Fields.q6, Fields.rc, ofFields, ofFields2, chain, VTy.ofCode, VTy.code, Rnd.ofCode, Rnd.code, Fields.putFSrc, Fields.getFSrc, Fields.putImm, Fields.getImm, Fields.immN, eta4] <;> (try simp only [decide_eq_true_eq, Bool.and_eq_true]) <;> first | omega | exact ⟨decide_eq_true (by omega), by omega⟩⟩
  | imm x =>
    have := d.isLt
    have := a.isLt
    have hv : x.wf 4 = true := by simp only [Instr.wf, FSrc.wf, Bool.and_eq_true] at hw <;> first | exact hw | exact hw.1 | exact hw.1.1
    obtain ⟨h1, h2, h3, h4⟩ := imm4 hv
    cases t <;> cases r <;> (try simp [Instr.wf, VTy.code, Rnd.code, FSrc.wf] at hw) <;> (try simp only [Fields.putFSrc, Fields.putImm, VTy.code, Rnd.code, Nat.reduceMul, Nat.reduceAdd, Nat.reduceDiv, Nat.reduceMod, rowOf, row2, Fields.q6, Fields.rc, Nat.reduceLeDiff, ge_iff_le, Nat.reduceEqDiff, ↓reduceIte, Nat.zero_add, Nat.zero_div, Nat.zero_ne_one, Nat.zero_mod]) <;> refine ⟨by simp [InRange, VTy.code, Rnd.code, Fields.putImm] <;> (try simp only [decide_eq_true_eq, Bool.and_eq_true]) <;> first | omega | exact ⟨decide_eq_true (by omega), by omega⟩, _, rfl, by simp [Fields.q6, Fields.rc, Legal, FieldKind.baseOk, FieldKind.highOk, VTy.code, Rnd.code, Fields.putImm] <;> (try simp only [decide_eq_true_eq, Bool.and_eq_true]) <;> first | omega | exact ⟨decide_eq_true (by omega), by omega⟩, by simp [Fields.q6, Fields.rc, ofFields, ofFields2, chain, VTy.ofCode, VTy.code, Rnd.ofCode, Rnd.code, Fields.putFSrc, Fields.getFSrc, Fields.putImm, Fields.getImm, Fields.immN, eta4] <;> (try simp only [decide_eq_true_eq, Bool.and_eq_true]) <;> first | omega | exact ⟨decide_eq_true (by omega), by omega⟩⟩
theorem FieldTrip.vfms (t : VTy) (r : Rnd) (d : Vr) (a : Vr) (b : FSrc) : Statement (.vfms t r d a b) := by
  intro hw f hf; cases hf
  cases b with
  | vec x =>
    have := d.isLt
    have := a.isLt
    have := x.isLt
    cases t <;> cases r <;> (try simp [Instr.wf, VTy.code, Rnd.code, FSrc.wf] at hw) <;> (try simp only [Fields.putFSrc, Fields.putImm, VTy.code, Rnd.code, Nat.reduceMul, Nat.reduceAdd, Nat.reduceDiv, Nat.reduceMod, rowOf, row2, Fields.q6, Fields.rc, Nat.reduceLeDiff, ge_iff_le, Nat.reduceEqDiff, ↓reduceIte, Nat.zero_add, Nat.zero_div, Nat.zero_ne_one, Nat.zero_mod]) <;> refine ⟨by simp [InRange, VTy.code, Rnd.code] <;> (try simp only [decide_eq_true_eq, Bool.and_eq_true]) <;> first | omega | exact ⟨decide_eq_true (by omega), by omega⟩, _, rfl, by simp [Fields.q6, Fields.rc, Legal, FieldKind.baseOk, FieldKind.highOk, VTy.code, Rnd.code] <;> (try simp only [decide_eq_true_eq, Bool.and_eq_true]) <;> first | omega | exact ⟨decide_eq_true (by omega), by omega⟩, by simp [Fields.q6, Fields.rc, ofFields, ofFields2, chain, VTy.ofCode, VTy.code, Rnd.ofCode, Rnd.code, Fields.putFSrc, Fields.getFSrc, Fields.putImm, Fields.getImm, Fields.immN, eta4] <;> (try simp only [decide_eq_true_eq, Bool.and_eq_true]) <;> first | omega | exact ⟨decide_eq_true (by omega), by omega⟩⟩
  | imm x =>
    have := d.isLt
    have := a.isLt
    have hv : x.wf 4 = true := by simp only [Instr.wf, FSrc.wf, Bool.and_eq_true] at hw <;> first | exact hw | exact hw.1 | exact hw.1.1
    obtain ⟨h1, h2, h3, h4⟩ := imm4 hv
    cases t <;> cases r <;> (try simp [Instr.wf, VTy.code, Rnd.code, FSrc.wf] at hw) <;> (try simp only [Fields.putFSrc, Fields.putImm, VTy.code, Rnd.code, Nat.reduceMul, Nat.reduceAdd, Nat.reduceDiv, Nat.reduceMod, rowOf, row2, Fields.q6, Fields.rc, Nat.reduceLeDiff, ge_iff_le, Nat.reduceEqDiff, ↓reduceIte, Nat.zero_add, Nat.zero_div, Nat.zero_ne_one, Nat.zero_mod]) <;> refine ⟨by simp [InRange, VTy.code, Rnd.code, Fields.putImm] <;> (try simp only [decide_eq_true_eq, Bool.and_eq_true]) <;> first | omega | exact ⟨decide_eq_true (by omega), by omega⟩, _, rfl, by simp [Fields.q6, Fields.rc, Legal, FieldKind.baseOk, FieldKind.highOk, VTy.code, Rnd.code, Fields.putImm] <;> (try simp only [decide_eq_true_eq, Bool.and_eq_true]) <;> first | omega | exact ⟨decide_eq_true (by omega), by omega⟩, by simp [Fields.q6, Fields.rc, ofFields, ofFields2, chain, VTy.ofCode, VTy.code, Rnd.ofCode, Rnd.code, Fields.putFSrc, Fields.getFSrc, Fields.putImm, Fields.getImm, Fields.immN, eta4] <;> (try simp only [decide_eq_true_eq, Bool.and_eq_true]) <;> first | omega | exact ⟨decide_eq_true (by omega), by omega⟩⟩
theorem FieldTrip.vfnma (t : VTy) (r : Rnd) (d : Vr) (a : Vr) (b : FSrc) : Statement (.vfnma t r d a b) := by
  intro hw f hf; cases hf
  cases b with
  | vec x =>
    have := d.isLt
    have := a.isLt
    have := x.isLt
    cases t <;> cases r <;> (try simp [Instr.wf, VTy.code, Rnd.code, FSrc.wf] at hw) <;> (try simp only [Fields.putFSrc, Fields.putImm, VTy.code, Rnd.code, Nat.reduceMul, Nat.reduceAdd, Nat.reduceDiv, Nat.reduceMod, rowOf, row2, Fields.q6, Fields.rc, Nat.reduceLeDiff, ge_iff_le, Nat.reduceEqDiff, ↓reduceIte, Nat.zero_add, Nat.zero_div, Nat.zero_ne_one, Nat.zero_mod]) <;> refine ⟨by simp [InRange, VTy.code, Rnd.code] <;> (try simp only [decide_eq_true_eq, Bool.and_eq_true]) <;> first | omega | exact ⟨decide_eq_true (by omega), by omega⟩, _, rfl, by simp [Fields.q6, Fields.rc, Legal, FieldKind.baseOk, FieldKind.highOk, VTy.code, Rnd.code] <;> (try simp only [decide_eq_true_eq, Bool.and_eq_true]) <;> first | omega | exact ⟨decide_eq_true (by omega), by omega⟩, by simp [Fields.q6, Fields.rc, ofFields, ofFields2, chain, VTy.ofCode, VTy.code, Rnd.ofCode, Rnd.code, Fields.putFSrc, Fields.getFSrc, Fields.putImm, Fields.getImm, Fields.immN, eta4] <;> (try simp only [decide_eq_true_eq, Bool.and_eq_true]) <;> first | omega | exact ⟨decide_eq_true (by omega), by omega⟩⟩
  | imm x =>
    have := d.isLt
    have := a.isLt
    have hv : x.wf 4 = true := by simp only [Instr.wf, FSrc.wf, Bool.and_eq_true] at hw <;> first | exact hw | exact hw.1 | exact hw.1.1
    obtain ⟨h1, h2, h3, h4⟩ := imm4 hv
    cases t <;> cases r <;> (try simp [Instr.wf, VTy.code, Rnd.code, FSrc.wf] at hw) <;> (try simp only [Fields.putFSrc, Fields.putImm, VTy.code, Rnd.code, Nat.reduceMul, Nat.reduceAdd, Nat.reduceDiv, Nat.reduceMod, rowOf, row2, Fields.q6, Fields.rc, Nat.reduceLeDiff, ge_iff_le, Nat.reduceEqDiff, ↓reduceIte, Nat.zero_add, Nat.zero_div, Nat.zero_ne_one, Nat.zero_mod]) <;> refine ⟨by simp [InRange, VTy.code, Rnd.code, Fields.putImm] <;> (try simp only [decide_eq_true_eq, Bool.and_eq_true]) <;> first | omega | exact ⟨decide_eq_true (by omega), by omega⟩, _, rfl, by simp [Fields.q6, Fields.rc, Legal, FieldKind.baseOk, FieldKind.highOk, VTy.code, Rnd.code, Fields.putImm] <;> (try simp only [decide_eq_true_eq, Bool.and_eq_true]) <;> first | omega | exact ⟨decide_eq_true (by omega), by omega⟩, by simp [Fields.q6, Fields.rc, ofFields, ofFields2, chain, VTy.ofCode, VTy.code, Rnd.ofCode, Rnd.code, Fields.putFSrc, Fields.getFSrc, Fields.putImm, Fields.getImm, Fields.immN, eta4] <;> (try simp only [decide_eq_true_eq, Bool.and_eq_true]) <;> first | omega | exact ⟨decide_eq_true (by omega), by omega⟩⟩
theorem FieldTrip.vfdiv (t : VTy) (r : Rnd) (d : Vr) (a : Vr) (b : Vr) : Statement (.vfdiv t r d a b) := by
  intro hw f hf; cases hf
  have := d.isLt
  have := a.isLt
  have := b.isLt
  cases t <;> cases r <;> (try simp only [VTy.code, Rnd.code, Nat.reduceMul, Nat.reduceAdd, Nat.reduceDiv, Nat.reduceMod]) <;> refine ⟨by simp [InRange, VTy.code, Rnd.code] <;> (try simp only [decide_eq_true_eq, Bool.and_eq_true]) <;> first | omega | exact ⟨decide_eq_true (by omega), by omega⟩, _, rfl, by simp [Fields.q6, Fields.rc, Legal, FieldKind.baseOk, FieldKind.highOk, VTy.code, Rnd.code] <;> (try simp only [decide_eq_true_eq, Bool.and_eq_true]) <;> first | omega | exact ⟨decide_eq_true (by omega), by omega⟩, by simp [Fields.q6, Fields.rc, ofFields, ofFields2, chain, VTy.ofCode, VTy.code, Rnd.ofCode, Rnd.code] <;> (try simp only [decide_eq_true_eq, Bool.and_eq_true]) <;> first | omega | exact ⟨decide_eq_true (by omega), by omega⟩⟩
theorem FieldTrip.vfsqrt (t : VTy) (r : Rnd) (d : Vr) (a : Vr) : Statement (.vfsqrt t r d a) := by
  intro hw f hf; cases hf
  have := d.isLt
  have := a.isLt
  cases t <;> cases r <;> (try simp only [VTy.code, Rnd.code, Nat.reduceMul, Nat.reduceAdd, Nat.reduceDiv, Nat.reduceMod]) <;> refine ⟨by simp [InRange, VTy.code, Rnd.code] <;> (try simp only [decide_eq_true_eq, Bool.and_eq_true]) <;> first | omega | exact ⟨decide_eq_true (by omega), by omega⟩, _, rfl, by simp [Fields.q6, Fields.rc, Legal, FieldKind.baseOk, FieldKind.highOk, VTy.code, Rnd.code] <;> (try simp only [decide_eq_true_eq, Bool.and_eq_true]) <;> first | omega | exact ⟨decide_eq_true (by omega), by omega⟩, by simp [Fields.q6, Fields.rc, ofFields, ofFields2, chain, VTy.ofCode, VTy.code, Rnd.ofCode, Rnd.code] <;> (try simp only [decide_eq_true_eq, Bool.and_eq_true]) <;> first | omega | exact ⟨decide_eq_true (by omega), by omega⟩⟩
theorem FieldTrip.vfrcp (t : VTy) (d : Vr) (a : Vr) : Statement (.vfrcp t d a) := by
  intro hw f hf; cases hf
  have := d.isLt
  have := a.isLt
  cases t <;> (try simp only [VTy.code, Nat.reduceMul, Nat.reduceAdd, Nat.reduceDiv, Nat.reduceMod]) <;> refine ⟨by simp [InRange, VTy.code] <;> (try simp only [decide_eq_true_eq, Bool.and_eq_true]) <;> first | omega | exact ⟨decide_eq_true (by omega), by omega⟩, _, rfl, by simp [Fields.q6, Fields.rc, Legal, FieldKind.baseOk, FieldKind.highOk, VTy.code] <;> (try simp only [decide_eq_true_eq, Bool.and_eq_true]) <;> first | omega | exact ⟨decide_eq_true (by omega), by omega⟩, by simp [Fields.q6, Fields.rc, ofFields, ofFields2, chain, VTy.ofCode, VTy.code] <;> (try simp only [decide_eq_true_eq, Bool.and_eq_true]) <;> first | omega | exact ⟨decide_eq_true (by omega), by omega⟩⟩
theorem FieldTrip.vfrsq (t : VTy) (d : Vr) (a : Vr) : Statement (.vfrsq t d a) := by
  intro hw f hf; cases hf
  have := d.isLt
  have := a.isLt
  cases t <;> (try simp only [VTy.code, Nat.reduceMul, Nat.reduceAdd, Nat.reduceDiv, Nat.reduceMod]) <;> refine ⟨by simp [InRange, VTy.code] <;> (try simp only [decide_eq_true_eq, Bool.and_eq_true]) <;> first | omega | exact ⟨decide_eq_true (by omega), by omega⟩, _, rfl, by simp [Fields.q6, Fields.rc, Legal, FieldKind.baseOk, FieldKind.highOk, VTy.code] <;> (try simp only [decide_eq_true_eq, Bool.and_eq_true]) <;> first | omega | exact ⟨decide_eq_true (by omega), by omega⟩, by simp [Fields.q6, Fields.rc, ofFields, ofFields2, chain, VTy.ofCode, VTy.code] <;> (try simp only [decide_eq_true_eq, Bool.and_eq_true]) <;> first | omega | exact ⟨decide_eq_true (by omega), by omega⟩⟩
theorem FieldTrip.vfcmpeq (t : VTy) (d : Pr) (a : Vr) (b : Vr) : Statement (.vfcmpeq t d a b) := by
  intro hw f hf; cases hf
  have := d.isLt
  have := a.isLt
  have := b.isLt
  cases t <;> (try simp only [VTy.code, Nat.reduceMul, Nat.reduceAdd, Nat.reduceDiv, Nat.reduceMod]) <;> refine ⟨by simp [InRange, VTy.code] <;> (try simp only [decide_eq_true_eq, Bool.and_eq_true]) <;> first | omega | exact ⟨decide_eq_true (by omega), by omega⟩, _, rfl, by simp [Fields.q6, Fields.rc, Legal, FieldKind.baseOk, FieldKind.highOk, VTy.code] <;> (try simp only [decide_eq_true_eq, Bool.and_eq_true]) <;> first | omega | exact ⟨decide_eq_true (by omega), by omega⟩, by simp [Fields.q6, Fields.rc, ofFields, ofFields2, chain, VTy.ofCode, VTy.code] <;> (try simp only [decide_eq_true_eq, Bool.and_eq_true]) <;> first | omega | exact ⟨decide_eq_true (by omega), by omega⟩⟩
theorem FieldTrip.vfcmpne (t : VTy) (d : Pr) (a : Vr) (b : Vr) : Statement (.vfcmpne t d a b) := by
  intro hw f hf; cases hf
  have := d.isLt
  have := a.isLt
  have := b.isLt
  cases t <;> (try simp only [VTy.code, Nat.reduceMul, Nat.reduceAdd, Nat.reduceDiv, Nat.reduceMod]) <;> refine ⟨by simp [InRange, VTy.code] <;> (try simp only [decide_eq_true_eq, Bool.and_eq_true]) <;> first | omega | exact ⟨decide_eq_true (by omega), by omega⟩, _, rfl, by simp [Fields.q6, Fields.rc, Legal, FieldKind.baseOk, FieldKind.highOk, VTy.code] <;> (try simp only [decide_eq_true_eq, Bool.and_eq_true]) <;> first | omega | exact ⟨decide_eq_true (by omega), by omega⟩, by simp [Fields.q6, Fields.rc, ofFields, ofFields2, chain, VTy.ofCode, VTy.code] <;> (try simp only [decide_eq_true_eq, Bool.and_eq_true]) <;> first | omega | exact ⟨decide_eq_true (by omega), by omega⟩⟩
theorem FieldTrip.vfcmplt (t : VTy) (d : Pr) (a : Vr) (b : Vr) : Statement (.vfcmplt t d a b) := by
  intro hw f hf; cases hf
  have := d.isLt
  have := a.isLt
  have := b.isLt
  cases t <;> (try simp only [VTy.code, Nat.reduceMul, Nat.reduceAdd, Nat.reduceDiv, Nat.reduceMod]) <;> refine ⟨by simp [InRange, VTy.code] <;> (try simp only [decide_eq_true_eq, Bool.and_eq_true]) <;> first | omega | exact ⟨decide_eq_true (by omega), by omega⟩, _, rfl, by simp [Fields.q6, Fields.rc, Legal, FieldKind.baseOk, FieldKind.highOk, VTy.code] <;> (try simp only [decide_eq_true_eq, Bool.and_eq_true]) <;> first | omega | exact ⟨decide_eq_true (by omega), by omega⟩, by simp [Fields.q6, Fields.rc, ofFields, ofFields2, chain, VTy.ofCode, VTy.code] <;> (try simp only [decide_eq_true_eq, Bool.and_eq_true]) <;> first | omega | exact ⟨decide_eq_true (by omega), by omega⟩⟩
theorem FieldTrip.vfcmple (t : VTy) (d : Pr) (a : Vr) (b : Vr) : Statement (.vfcmple t d a b) := by
  intro hw f hf; cases hf
  have := d.isLt
  have := a.isLt
  have := b.isLt
  cases t <;> (try simp only [VTy.code, Nat.reduceMul, Nat.reduceAdd, Nat.reduceDiv, Nat.reduceMod]) <;> refine ⟨by simp [InRange, VTy.code] <;> (try simp only [decide_eq_true_eq, Bool.and_eq_true]) <;> first | omega | exact ⟨decide_eq_true (by omega), by omega⟩, _, rfl, by simp [Fields.q6, Fields.rc, Legal, FieldKind.baseOk, FieldKind.highOk, VTy.code] <;> (try simp only [decide_eq_true_eq, Bool.and_eq_true]) <;> first | omega | exact ⟨decide_eq_true (by omega), by omega⟩, by simp [Fields.q6, Fields.rc, ofFields, ofFields2, chain, VTy.ofCode, VTy.code] <;> (try simp only [decide_eq_true_eq, Bool.and_eq_true]) <;> first | omega | exact ⟨decide_eq_true (by omega), by omega⟩⟩
theorem FieldTrip.vfcmpun (t : VTy) (d : Pr) (a : Vr) (b : Vr) : Statement (.vfcmpun t d a b) := by
  intro hw f hf; cases hf
  have := d.isLt
  have := a.isLt
  have := b.isLt
  cases t <;> (try simp only [VTy.code, Nat.reduceMul, Nat.reduceAdd, Nat.reduceDiv, Nat.reduceMod]) <;> refine ⟨by simp [InRange, VTy.code] <;> (try simp only [decide_eq_true_eq, Bool.and_eq_true]) <;> first | omega | exact ⟨decide_eq_true (by omega), by omega⟩, _, rfl, by simp [Fields.q6, Fields.rc, Legal, FieldKind.baseOk, FieldKind.highOk, VTy.code] <;> (try simp only [decide_eq_true_eq, Bool.and_eq_true]) <;> first | omega | exact ⟨decide_eq_true (by omega), by omega⟩, by simp [Fields.q6, Fields.rc, ofFields, ofFields2, chain, VTy.ofCode, VTy.code] <;> (try simp only [decide_eq_true_eq, Bool.and_eq_true]) <;> first | omega | exact ⟨decide_eq_true (by omega), by omega⟩⟩
theorem FieldTrip.ftyCode (t : FTy) : t.code ≤ 5 ∧ FTy.ofCode t.code = t := by cases t <;> decide
theorem FieldTrip.ityCode (t : ITy) : t.code ≤ 7 ∧ ITy.ofCode t.code = t := by cases t <;> decide
theorem FieldTrip.rndCode (t : Rnd) : t.code ≤ 5 ∧ Rnd.ofCode t.code = t := by cases t <;> decide
theorem FieldTrip.vcvt (c : Cvt) (r : Rnd) (n : Bool) (d : Vr) (a : Vr) : Statement (.vcvt c r n d a) := by
  intro hw f hf; cases hf
  have := d.isLt
  have := a.isLt
  obtain ⟨hr, er⟩ := rndCode r
  have e1 : (2 * r.code + 1) / 2 = r.code := by omega
  cases c with
  | floatFloat x y =>
    obtain ⟨hx, ex⟩ := ftyCode x
    simp only [Fields.putCvt]
    generalize x.code = xc at hx ex ⊢
    cases n <;> cases y <;> (try simp [Instr.wf, Cvt.satOk] at hw) <;> simp only [FTy.code, boolCode] <;>
      exact ⟨by simp [InRange] <;> omega, _, rfl,
        by simp [Fields.q6, Fields.rc, Legal, FieldKind.baseOk, FieldKind.highOk] <;> first | omega | exact ⟨decide_eq_true (by omega), by omega⟩,
        by simp [Fields.q6, Fields.rc, ofFields, ofFields2, chain, Fields.getCvt, er, ex, e1] <;> rfl⟩
  | floatInt x y =>
    obtain ⟨hx, ex⟩ := ftyCode x
    obtain ⟨hy, ey⟩ := ityCode y
    cases n <;> (try simp [Instr.wf, Cvt.satOk] at hw) <;> simp only [Fields.putCvt, boolCode] <;>
      exact ⟨by simp [InRange] <;> omega, _, rfl,
        by simp [Fields.q6, Fields.rc, Legal, FieldKind.baseOk, FieldKind.highOk] <;> first | omega | exact ⟨decide_eq_true (by omega), by omega⟩,
        by simp [Fields.q6, Fields.rc, ofFields, ofFields2, chain, Fields.getCvt, er, ex, ey] <;> omega⟩
  | intFloat x y =>
    obtain ⟨hx, ex⟩ := ityCode x
    obtain ⟨hy, ey⟩ := ftyCode y
    cases n <;> (try simp [Instr.wf, Cvt.satOk] at hw) <;> simp only [Fields.putCvt, boolCode] <;>
      exact ⟨by simp [InRange] <;> omega, _, rfl,
        by simp [Fields.q6, Fields.rc, Legal, FieldKind.baseOk, FieldKind.highOk] <;> first | omega | exact ⟨decide_eq_true (by omega), by omega⟩,
        by simp [Fields.q6, Fields.rc, ofFields, ofFields2, chain, Fields.getCvt, er, ex, ey] <;> omega⟩
theorem FieldTrip.vqmx (t : STy) (m : MTy) (n : Bool) (d : Vr) (a : Vr) : Statement (.vqmx t m n d a) := by
  intro hw f hf; cases hf
  have := d.isLt
  have := a.isLt
  cases t <;> cases m <;> cases n <;> (try simp only [STy.code, MTy.code, boolCode, Nat.reduceMul, Nat.reduceAdd, Nat.reduceDiv, Nat.reduceMod]) <;> refine ⟨by simp [InRange, STy.code, MTy.code, boolCode] <;> (try simp only [decide_eq_true_eq, Bool.and_eq_true]) <;> first | omega | exact ⟨decide_eq_true (by omega), by omega⟩, _, rfl, by simp [Fields.q6, Fields.rc, Legal, FieldKind.baseOk, FieldKind.highOk, STy.code, MTy.code, boolCode] <;> (try simp only [decide_eq_true_eq, Bool.and_eq_true]) <;> first | omega | exact ⟨decide_eq_true (by omega), by omega⟩, by simp [Fields.q6, Fields.rc, ofFields, ofFields2, chain, STy.ofCode, STy.code, MTy.ofCode, MTy.code, boolCode] <;> (try simp only [decide_eq_true_eq, Bool.and_eq_true]) <;> first | omega | exact ⟨decide_eq_true (by omega), by omega⟩⟩
theorem FieldTrip.vdqmx (t : STy) (m : MTy) (d : Vr) (a : Vr) : Statement (.vdqmx t m d a) := by
  intro hw f hf; cases hf
  have := d.isLt
  have := a.isLt
  cases t <;> cases m <;> (try simp only [STy.code, MTy.code, Nat.reduceMul, Nat.reduceAdd, Nat.reduceDiv, Nat.reduceMod]) <;> refine ⟨by simp [InRange, STy.code, MTy.code] <;> (try simp only [decide_eq_true_eq, Bool.and_eq_true]) <;> first | omega | exact ⟨decide_eq_true (by omega), by omega⟩, _, rfl, by simp [Fields.q6, Fields.rc, Legal, FieldKind.baseOk, FieldKind.highOk, STy.code, MTy.code] <;> (try simp only [decide_eq_true_eq, Bool.and_eq_true]) <;> first | omega | exact ⟨decide_eq_true (by omega), by omega⟩, by simp [Fields.q6, Fields.rc, ofFields, ofFields2, chain, STy.ofCode, STy.code, MTy.ofCode, MTy.code] <;> (try simp only [decide_eq_true_eq, Bool.and_eq_true]) <;> first | omega | exact ⟨decide_eq_true (by omega), by omega⟩⟩
theorem FieldTrip.vfexp2 (t : STy) (d : Vr) (a : Vr) : Statement (.vfexp2 t d a) := by
  intro hw f hf; cases hf
  have := d.isLt
  have := a.isLt
  cases t <;> (try simp only [STy.code, Nat.reduceMul, Nat.reduceAdd, Nat.reduceDiv, Nat.reduceMod]) <;> refine ⟨by simp [InRange, STy.code] <;> (try simp only [decide_eq_true_eq, Bool.and_eq_true]) <;> first | omega | exact ⟨decide_eq_true (by omega), by omega⟩, _, rfl, by simp [Fields.q6, Fields.rc, Legal, FieldKind.baseOk, FieldKind.highOk, STy.code] <;> (try simp only [decide_eq_true_eq, Bool.and_eq_true]) <;> first | omega | exact ⟨decide_eq_true (by omega), by omega⟩, by simp [Fields.q6, Fields.rc, ofFields, ofFields2, chain, STy.ofCode, STy.code] <;> (try simp only [decide_eq_true_eq, Bool.and_eq_true]) <;> first | omega | exact ⟨decide_eq_true (by omega), by omega⟩⟩
theorem FieldTrip.vflog2 (t : STy) (d : Vr) (a : Vr) : Statement (.vflog2 t d a) := by
  intro hw f hf; cases hf
  have := d.isLt
  have := a.isLt
  cases t <;> (try simp only [STy.code, Nat.reduceMul, Nat.reduceAdd, Nat.reduceDiv, Nat.reduceMod]) <;> refine ⟨by simp [InRange, STy.code] <;> (try simp only [decide_eq_true_eq, Bool.and_eq_true]) <;> first | omega | exact ⟨decide_eq_true (by omega), by omega⟩, _, rfl, by simp [Fields.q6, Fields.rc, Legal, FieldKind.baseOk, FieldKind.highOk, STy.code] <;> (try simp only [decide_eq_true_eq, Bool.and_eq_true]) <;> first | omega | exact ⟨decide_eq_true (by omega), by omega⟩, by simp [Fields.q6, Fields.rc, ofFields, ofFields2, chain, STy.ofCode, STy.code] <;> (try simp only [decide_eq_true_eq, Bool.and_eq_true]) <;> first | omega | exact ⟨decide_eq_true (by omega), by omega⟩⟩
theorem FieldTrip.vftanh (t : STy) (d : Vr) (a : Vr) : Statement (.vftanh t d a) := by
  intro hw f hf; cases hf
  have := d.isLt
  have := a.isLt
  cases t <;> (try simp only [STy.code, Nat.reduceMul, Nat.reduceAdd, Nat.reduceDiv, Nat.reduceMod]) <;> refine ⟨by simp [InRange, STy.code] <;> (try simp only [decide_eq_true_eq, Bool.and_eq_true]) <;> first | omega | exact ⟨decide_eq_true (by omega), by omega⟩, _, rfl, by simp [Fields.q6, Fields.rc, Legal, FieldKind.baseOk, FieldKind.highOk, STy.code] <;> (try simp only [decide_eq_true_eq, Bool.and_eq_true]) <;> first | omega | exact ⟨decide_eq_true (by omega), by omega⟩, by simp [Fields.q6, Fields.rc, ofFields, ofFields2, chain, STy.ofCode, STy.code] <;> (try simp only [decide_eq_true_eq, Bool.and_eq_true]) <;> first | omega | exact ⟨decide_eq_true (by omega), by omega⟩⟩
theorem FieldTrip.vfsigm (t : STy) (d : Vr) (a : Vr) : Statement (.vfsigm t d a) := by
  intro hw f hf; cases hf
  have := d.isLt
  have := a.isLt
  cases t <;> (try simp only [STy.code, Nat.reduceMul, Nat.reduceAdd, Nat.reduceDiv, Nat.reduceMod]) <;> refine ⟨by simp [InRange, STy.code] <;> (try simp only [decide_eq_true_eq, Bool.and_eq_true]) <;> first | omega | exact ⟨decide_eq_true (by omega), by omega⟩, _, rfl, by simp [Fields.q6, Fields.rc, Legal, FieldKind.baseOk, FieldKind.highOk, STy.code] <;> (try simp only [decide_eq_true_eq, Bool.and_eq_true]) <;> first | omega | exact ⟨decide_eq_true (by omega), by omega⟩, by simp [Fields.q6, Fields.rc, ofFields, ofFields2, chain, STy.ofCode, STy.code] <;> (try simp only [decide_eq_true_eq, Bool.and_eq_true]) <;> first | omega | exact ⟨decide_eq_true (by omega), by omega⟩⟩
theorem FieldTrip.vsmx (c : BitVec 3) (d : Vr) (a : Vr) (b : Vr) : Statement (.vsmx c d a b) := by
  intro hw f hf; cases hf
  have := c.isLt
  have := d.isLt
  have := a.isLt
  have := b.isLt
  (try simp [Instr.wf, ← BitVec.toNat_inj] at hw) <;> refine ⟨by simp [InRange] <;> (try simp only [decide_eq_true_eq, Bool.and_eq_true]) <;> first | omega | exact ⟨decide_eq_true (by omega), by omega⟩, _, rfl, by simp [Fields.q6, Fields.rc, Legal, FieldKind.baseOk, FieldKind.highOk] <;> (try simp only [decide_eq_true_eq, Bool.and_eq_true]) <;> first | omega | exact ⟨decide_eq_true (by omega), by omega⟩, by simp [Fields.q6, Fields.rc, ofFields, ofFields2, chain] <;> (try simp only [decide_eq_true_eq, Bool.and_eq_true]) <;> first | omega | exact ⟨decide_eq_true (by omega), by omega⟩⟩
theorem FieldTrip.vfredadd (t : VTy) (r : Rnd) (d : Gpr) (a : Vr) : Statement (.vfredadd t r d a) := by
  intro hw f hf; cases hf
  have := d.isLt
  have := a.isLt
  cases t <;> cases r <;> (try simp only [VTy.code, Rnd.code, Nat.reduceMul, Nat.reduceAdd, Nat.reduceDiv, Nat.reduceMod]) <;> refine ⟨by simp [InRange, VTy.code, Rnd.code] <;> (try simp only [decide_eq_true_eq, Bool.and_eq_true]) <;> first | omega | exact ⟨decide_eq_true (by omega), by omega⟩, _, rfl, by simp [Fields.q6, Fields.rc, Legal, FieldKind.baseOk, FieldKind.highOk, VTy.code, Rnd.code] <;> (try simp only [decide_eq_true_eq, Bool.and_eq_true]) <;> first | omega | exact ⟨decide_eq_true (by omega), by omega⟩, by simp [Fields.q6, Fields.rc, ofFields, ofFields2, chain, VTy.ofCode, VTy.code, Rnd.ofCode, Rnd.code] <;> (try simp only [decide_eq_true_eq, Bool.and_eq_true]) <;> first | omega | exact ⟨decide_eq_true (by omega), by omega⟩⟩
theorem FieldTrip.vfredmax (t : VTy) (d : Gpr) (a : Vr) : Statement (.vfredmax t d a) := by
  intro hw f hf; cases hf
  have := d.isLt
  have := a.isLt
  cases t <;> (try simp only [VTy.code, Nat.reduceMul, Nat.reduceAdd, Nat.reduceDiv, Nat.reduceMod]) <;> refine ⟨by simp [InRange, VTy.code] <;> (try simp only [decide_eq_true_eq, Bool.and_eq_true]) <;> first | omega | exact ⟨decide_eq_true (by omega), by omega⟩, _, rfl, by simp [Fields.q6, Fields.rc, Legal, FieldKind.baseOk, FieldKind.highOk, VTy.code] <;> (try simp only [decide_eq_true_eq, Bool.and_eq_true]) <;> first | omega | exact ⟨decide_eq_true (by omega), by omega⟩, by simp [Fields.q6, Fields.rc, ofFields, ofFields2, chain, VTy.ofCode, VTy.code] <;> (try simp only [decide_eq_true_eq, Bool.and_eq_true]) <;> first | omega | exact ⟨decide_eq_true (by omega), by omega⟩⟩
theorem FieldTrip.vfredmin (t : VTy) (d : Gpr) (a : Vr) : Statement (.vfredmin t d a) := by
  intro hw f hf; cases hf
  have := d.isLt
  have := a.isLt
  cases t <;> (try simp only [VTy.code, Nat.reduceMul, Nat.reduceAdd, Nat.reduceDiv, Nat.reduceMod]) <;> refine ⟨by simp [InRange, VTy.code] <;> (try simp only [decide_eq_true_eq, Bool.and_eq_true]) <;> first | omega | exact ⟨decide_eq_true (by omega), by omega⟩, _, rfl, by simp [Fields.q6, Fields.rc, Legal, FieldKind.baseOk, FieldKind.highOk, VTy.code] <;> (try simp only [decide_eq_true_eq, Bool.and_eq_true]) <;> first | omega | exact ⟨decide_eq_true (by omega), by omega⟩, by simp [Fields.q6, Fields.rc, ofFields, ofFields2, chain, VTy.ofCode, VTy.code] <;> (try simp only [decide_eq_true_eq, Bool.and_eq_true]) <;> first | omega | exact ⟨decide_eq_true (by omega), by omega⟩⟩
theorem FieldTrip.vfabs (t : VTy) (d : Vr) (a : Vr) : Statement (.vfabs t d a) := by
  intro hw f hf; cases hf
  have := d.isLt
  have := a.isLt
  cases t <;> (try simp only [VTy.code, Nat.reduceMul, Nat.reduceAdd, Nat.reduceDiv, Nat.reduceMod]) <;> refine ⟨by simp [InRange, VTy.code] <;> (try simp only [decide_eq_true_eq, Bool.and_eq_true]) <;> first | omega | exact ⟨decide_eq_true (by omega), by omega⟩, _, rfl, by simp [Fields.q6, Fields.rc, Legal, FieldKind.baseOk, FieldKind.highOk, VTy.code] <;> (try simp only [decide_eq_true_eq, Bool.and_eq_true]) <;> first | omega | exact ⟨decide_eq_true (by omega), by omega⟩, by simp [Fields.q6, Fields.rc, ofFields, ofFields2, chain, VTy.ofCode, VTy.code] <;> (try simp only [decide_eq_true_eq, Bool.and_eq_true]) <;> first | omega | exact ⟨decide_eq_true (by omega), by omega⟩⟩
theorem FieldTrip.vfneg (t : VTy) (d : Vr) (a : Vr) : Statement (.vfneg t d a) := by
  intro hw f hf; cases hf
  have := d.isLt
  have := a.isLt
  cases t <;> (try simp only [VTy.code, Nat.reduceMul, Nat.reduceAdd, Nat.reduceDiv, Nat.reduceMod]) <;> refine ⟨by simp [InRange, VTy.code] <;> (try simp only [decide_eq_true_eq, Bool.and_eq_true]) <;> first | omega | exact ⟨decide_eq_true (by omega), by omega⟩, _, rfl, by simp [Fields.q6, Fields.rc, Legal, FieldKind.baseOk, FieldKind.highOk, VTy.code] <;> (try simp only [decide_eq_true_eq, Bool.and_eq_true]) <;> first | omega | exact ⟨decide_eq_true (by omega), by omega⟩, by simp [Fields.q6, Fields.rc, ofFields, ofFields2, chain, VTy.ofCode, VTy.code] <;> (try simp only [decide_eq_true_eq, Bool.and_eq_true]) <;> first | omega | exact ⟨decide_eq_true (by omega), by omega⟩⟩
theorem FieldTrip.vfclass (t : VTy) (d : Vr) (a : Vr) : Statement (.vfclass t d a) := by
  intro hw f hf; cases hf
  have := d.isLt
  have := a.isLt
  cases t <;> (try simp only [VTy.code, Nat.reduceMul, Nat.reduceAdd, Nat.reduceDiv, Nat.reduceMod]) <;> refine ⟨by simp [InRange, VTy.code] <;> (try simp only [decide_eq_true_eq, Bool.and_eq_true]) <;> first | omega | exact ⟨decide_eq_true (by omega), by omega⟩, _, rfl, by simp [Fields.q6, Fields.rc, Legal, FieldKind.baseOk, FieldKind.highOk, VTy.code] <;> (try simp only [decide_eq_true_eq, Bool.and_eq_true]) <;> first | omega | exact ⟨decide_eq_true (by omega), by omega⟩, by simp [Fields.q6, Fields.rc, ofFields, ofFields2, chain, VTy.ofCode, VTy.code] <;> (try simp only [decide_eq_true_eq, Bool.and_eq_true]) <;> first | omega | exact ⟨decide_eq_true (by omega), by omega⟩⟩
theorem FieldTrip.ld (t : MemTy) (d : Gpr) (k : Kr) (b : Gpr) : Statement (.ld t d k b) := by
  intro hw f hf; cases hf
  have := d.isLt
  have := k.isLt
  have := b.isLt
  cases t <;> (try simp only [MemTy.code, Nat.reduceMul, Nat.reduceAdd, Nat.reduceDiv, Nat.reduceMod]) <;> refine ⟨by simp [InRange, MemTy.code] <;> (try simp only [decide_eq_true_eq, Bool.and_eq_true]) <;> first | omega | exact ⟨decide_eq_true (by omega), by omega⟩, _, rfl, by simp [Fields.q6, Fields.rc, Legal, FieldKind.baseOk, FieldKind.highOk, MemTy.code] <;> (try simp only [decide_eq_true_eq, Bool.and_eq_true]) <;> first | omega | exact ⟨decide_eq_true (by omega), by omega⟩, by simp [Fields.q6, Fields.rc, ofFields, ofFields3, chain, MemTy.ofCode, MemTy.code] <;> (try simp only [decide_eq_true_eq, Bool.and_eq_true]) <;> first | omega | exact ⟨decide_eq_true (by omega), by omega⟩⟩
theorem FieldTrip.ldi (t : MemTy) (d : Gpr) (k : Kr) (i : Imm) : Statement (.ldi t d k i) := by
  intro hw f hf; cases hf
  have := d.isLt
  have := k.isLt
  have hv : i.wf 4 = true := by simp only [Instr.wf, Bool.and_eq_true] at hw <;> first | exact hw | exact hw.1 | exact hw.1.1
  obtain ⟨h1, h2, h3, h4⟩ := imm4 hv
  cases t <;> (try simp [Instr.wf, MemTy.code] at hw) <;> (try simp only [MemTy.code, Fields.putImm, Nat.reduceMul, Nat.reduceAdd, Nat.reduceDiv, Nat.reduceMod]) <;> refine ⟨by simp [InRange, MemTy.code, Fields.putImm] <;> (try simp only [decide_eq_true_eq, Bool.and_eq_true]) <;> first | omega | exact ⟨decide_eq_true (by omega), by omega⟩, _, rfl, by simp [Fields.q6, Fields.rc, Legal, FieldKind.baseOk, FieldKind.highOk, MemTy.code, Fields.putImm] <;> (try simp only [decide_eq_true_eq, Bool.and_eq_true]) <;> first | omega | exact ⟨decide_eq_true (by omega), by omega⟩, by simp [Fields.q6, Fields.rc, ofFields, ofFields3, chain, MemTy.ofCode, MemTy.code, Fields.putImm, Fields.getImm, Fields.immN, eta4] <;> (try simp only [decide_eq_true_eq, Bool.and_eq_true]) <;> first | omega | exact ⟨decide_eq_true (by omega), by omega⟩⟩
theorem FieldTrip.st (t : MemTy) (d : Gpr) (k : Kr) (b : Gpr) : Statement (.st t d k b) := by
  intro hw f hf; cases hf
  have := d.isLt
  have := k.isLt
  have := b.isLt
  cases t <;> (try simp only [MemTy.code, Nat.reduceMul, Nat.reduceAdd, Nat.reduceDiv, Nat.reduceMod]) <;> refine ⟨by simp [InRange, MemTy.code] <;> (try simp only [decide_eq_true_eq, Bool.and_eq_true]) <;> first | omega | exact ⟨decide_eq_true (by omega), by omega⟩, _, rfl, by simp [Fields.q6, Fields.rc, Legal, FieldKind.baseOk, FieldKind.highOk, MemTy.code] <;> (try simp only [decide_eq_true_eq, Bool.and_eq_true]) <;> first | omega | exact ⟨decide_eq_true (by omega), by omega⟩, by simp [Fields.q6, Fields.rc, ofFields, ofFields3, chain, MemTy.ofCode, MemTy.code] <;> (try simp only [decide_eq_true_eq, Bool.and_eq_true]) <;> first | omega | exact ⟨decide_eq_true (by omega), by omega⟩⟩
theorem FieldTrip.sti (t : MemTy) (d : Gpr) (k : Kr) (i : Imm) : Statement (.sti t d k i) := by
  intro hw f hf; cases hf
  have := d.isLt
  have := k.isLt
  have hv : i.wf 4 = true := by simp only [Instr.wf, Bool.and_eq_true] at hw <;> first | exact hw | exact hw.1 | exact hw.1.1
  obtain ⟨h1, h2, h3, h4⟩ := imm4 hv
  cases t <;> (try simp [Instr.wf, MemTy.code] at hw) <;> (try simp only [MemTy.code, Fields.putImm, Nat.reduceMul, Nat.reduceAdd, Nat.reduceDiv, Nat.reduceMod]) <;> refine ⟨by simp [InRange, MemTy.code, Fields.putImm] <;> (try simp only [decide_eq_true_eq, Bool.and_eq_true]) <;> first | omega | exact ⟨decide_eq_true (by omega), by omega⟩, _, rfl, by simp [Fields.q6, Fields.rc, Legal, FieldKind.baseOk, FieldKind.highOk, MemTy.code, Fields.putImm] <;> (try simp only [decide_eq_true_eq, Bool.and_eq_true]) <;> first | omega | exact ⟨decide_eq_true (by omega), by omega⟩, by simp [Fields.q6, Fields.rc, ofFields, ofFields3, chain, MemTy.ofCode, MemTy.code, Fields.putImm, Fields.getImm, Fields.immN, eta4] <;> (try simp only [decide_eq_true_eq, Bool.and_eq_true]) <;> first | omega | exact ⟨decide_eq_true (by omega), by omega⟩⟩
theorem FieldTrip.vld (w : Width) (d : Vr) (k : Kr) (x : VIdx) : Statement (.vld w d k x) := by
  intro hw f hf; cases hf
  cases x with
  | contiguous zx =>
    have := d.isLt
    have := k.isLt
    have := zx.isLt
    cases w <;> (try simp [Instr.wf, Width.code, evenGpr, VIdx.wf] at hw) <;> (try simp only [Fields.putVIdx, Width.code, Nat.reduceMul, Nat.reduceAdd, Nat.reduceDiv, Nat.reduceMod]) <;> refine ⟨by simp [InRange, Width.code] <;> (try simp only [decide_eq_true_eq, Bool.and_eq_true]) <;> first | omega | exact ⟨decide_eq_true (by omega), by omega⟩, _, rfl, by simp [Fields.q6, Fields.rc, Legal, FieldKind.baseOk, FieldKind.highOk, Width.code, evenGpr] <;> (try simp only [decide_eq_true_eq, Bool.and_eq_true]) <;> first | omega | exact ⟨decide_eq_true (by omega), by omega⟩, by simp [Fields.q6, Fields.rc, ofFields, ofFields3, chain, Width.ofCode, Width.code, Fields.putVIdx, Fields.getVIdx] <;> (try simp only [decide_eq_true_eq, Bool.and_eq_true]) <;> first | omega | exact ⟨decide_eq_true (by omega), by omega⟩⟩
  | strided zx =>
    have := d.isLt
    have := k.isLt
    have := zx.isLt
    cases w <;> (try simp [Instr.wf, Width.code, evenGpr, VIdx.wf] at hw) <;> (try simp only [Fields.putVIdx, Width.code, Nat.reduceMul, Nat.reduceAdd, Nat.reduceDiv, Nat.reduceMod]) <;> refine ⟨by simp [InRange, Width.code] <;> (try simp only [decide_eq_true_eq, Bool.and_eq_true]) <;> first | omega | exact ⟨decide_eq_true (by omega), by omega⟩, _, rfl, by simp [Fields.q6, Fields.rc, Legal, FieldKind.baseOk, FieldKind.highOk, Width.code, evenGpr] <;> (try simp only [decide_eq_true_eq, Bool.and_eq_true]) <;> first | omega | exact ⟨decide_eq_true (by omega), by omega⟩, by simp [Fields.q6, Fields.rc, ofFields, ofFields3, chain, Width.ofCode, Width.code, Fields.putVIdx, Fields.getVIdx] <;> (try simp only [decide_eq_true_eq, Bool.and_eq_true]) <;> first | omega | exact ⟨decide_eq_true (by omega), by omega⟩⟩
  | gather zx =>
    have := d.isLt
    have := k.isLt
    have := zx.isLt
    cases w <;> (try simp [Instr.wf, Width.code, evenGpr, VIdx.wf] at hw) <;> (try simp only [Fields.putVIdx, Width.code, Nat.reduceMul, Nat.reduceAdd, Nat.reduceDiv, Nat.reduceMod]) <;> refine ⟨by simp [InRange, Width.code] <;> (try simp only [decide_eq_true_eq, Bool.and_eq_true]) <;> first | omega | exact ⟨decide_eq_true (by omega), by omega⟩, _, rfl, by simp [Fields.q6, Fields.rc, Legal, FieldKind.baseOk, FieldKind.highOk, Width.code, evenGpr] <;> (try simp only [decide_eq_true_eq, Bool.and_eq_true]) <;> first | omega | exact ⟨decide_eq_true (by omega), by omega⟩, by simp [Fields.q6, Fields.rc, ofFields, ofFields3, chain, Width.ofCode, Width.code, Fields.putVIdx, Fields.getVIdx] <;> (try simp only [decide_eq_true_eq, Bool.and_eq_true]) <;> first | omega | exact ⟨decide_eq_true (by omega), by omega⟩⟩
theorem FieldTrip.vst (w : Width) (d : Vr) (k : Kr) (x : VIdx) : Statement (.vst w d k x) := by
  intro hw f hf; cases hf
  cases x with
  | contiguous zx =>
    have := d.isLt
    have := k.isLt
    have := zx.isLt
    cases w <;> (try simp [Instr.wf, Width.code, evenGpr, VIdx.wf] at hw) <;> (try simp only [Fields.putVIdx, Width.code, Nat.reduceMul, Nat.reduceAdd, Nat.reduceDiv, Nat.reduceMod]) <;> refine ⟨by simp [InRange, Width.code] <;> (try simp only [decide_eq_true_eq, Bool.and_eq_true]) <;> first | omega | exact ⟨decide_eq_true (by omega), by omega⟩, _, rfl, by simp [Fields.q6, Fields.rc, Legal, FieldKind.baseOk, FieldKind.highOk, Width.code, evenGpr] <;> (try simp only [decide_eq_true_eq, Bool.and_eq_true]) <;> first | omega | exact ⟨decide_eq_true (by omega), by omega⟩, by simp [Fields.q6, Fields.rc, ofFields, ofFields3, chain, Width.ofCode, Width.code, Fields.putVIdx, Fields.getVIdx] <;> (try simp only [decide_eq_true_eq, Bool.and_eq_true]) <;> first | omega | exact ⟨decide_eq_true (by omega), by omega⟩⟩
  | strided zx =>
    have := d.isLt
    have := k.isLt
    have := zx.isLt
    cases w <;> (try simp [Instr.wf, Width.code, evenGpr, VIdx.wf] at hw) <;> (try simp only [Fields.putVIdx, Width.code, Nat.reduceMul, Nat.reduceAdd, Nat.reduceDiv, Nat.reduceMod]) <;> refine ⟨by simp [InRange, Width.code] <;> (try simp only [decide_eq_true_eq, Bool.and_eq_true]) <;> first | omega | exact ⟨decide_eq_true (by omega), by omega⟩, _, rfl, by simp [Fields.q6, Fields.rc, Legal, FieldKind.baseOk, FieldKind.highOk, Width.code, evenGpr] <;> (try simp only [decide_eq_true_eq, Bool.and_eq_true]) <;> first | omega | exact ⟨decide_eq_true (by omega), by omega⟩, by simp [Fields.q6, Fields.rc, ofFields, ofFields3, chain, Width.ofCode, Width.code, Fields.putVIdx, Fields.getVIdx] <;> (try simp only [decide_eq_true_eq, Bool.and_eq_true]) <;> first | omega | exact ⟨decide_eq_true (by omega), by omega⟩⟩
  | gather zx =>
    have := d.isLt
    have := k.isLt
    have := zx.isLt
    cases w <;> (try simp [Instr.wf, Width.code, evenGpr, VIdx.wf] at hw) <;> (try simp only [Fields.putVIdx, Width.code, Nat.reduceMul, Nat.reduceAdd, Nat.reduceDiv, Nat.reduceMod]) <;> refine ⟨by simp [InRange, Width.code] <;> (try simp only [decide_eq_true_eq, Bool.and_eq_true]) <;> first | omega | exact ⟨decide_eq_true (by omega), by omega⟩, _, rfl, by simp [Fields.q6, Fields.rc, Legal, FieldKind.baseOk, FieldKind.highOk, Width.code, evenGpr] <;> (try simp only [decide_eq_true_eq, Bool.and_eq_true]) <;> first | omega | exact ⟨decide_eq_true (by omega), by omega⟩, by simp [Fields.q6, Fields.rc, ofFields, ofFields3, chain, Width.ofCode, Width.code, Fields.putVIdx, Fields.getVIdx] <;> (try simp only [decide_eq_true_eq, Bool.and_eq_true]) <;> first | omega | exact ⟨decide_eq_true (by omega), by omega⟩⟩
theorem FieldTrip.tld (e : TElem) (s : BitVec 4) (tr : BitVec 2) (d : Ob) (k : Kr) (x : Idx) : Statement (.tld e s tr d k x) := by
  intro hw f hf; cases hf
  cases x with
  | reg zx =>
    have := s.isLt
    have := tr.isLt
    have := d.isLt
    have := k.isLt
    have := zx.isLt
    have ht : tileFits e s.toNat tr.toNat = true := by simp only [Instr.wf, Bool.and_eq_true] at hw; exact hw.2
    cases e <;> (try simp [Instr.wf, TElem.code, Idx.wf] at hw) <;> (try simp only [Fields.putIdx, Fields.putImm, TElem.code, Nat.reduceMul, Nat.reduceAdd, Nat.reduceDiv, Nat.reduceMod, rowOf, row3, Fields.q6, Fields.rc, Nat.reduceLeDiff, ge_iff_le, Nat.reduceEqDiff, ↓reduceIte, Nat.zero_add, Nat.zero_div, Nat.zero_ne_one, Nat.zero_mod, plus4, TElem.ofCode, tile ht, show (tr.toNat + 4) / 4 = 1 by omega, show tr.toNat / 4 = 0 by omega, show (tr.toNat + 4) % 4 = tr.toNat by omega, show tr.toNat % 4 = tr.toNat by omega]) <;> refine ⟨by simp [InRange, TElem.code] <;> (try simp only [decide_eq_true_eq, Bool.and_eq_true]) <;> first | omega | exact ⟨decide_eq_true (by omega), by omega⟩, _, rfl, by simp [Fields.q6, Fields.rc, Legal, FieldKind.baseOk, FieldKind.highOk, TElem.code] <;> (try simp only [decide_eq_true_eq, Bool.and_eq_true]) <;> first | omega | exact ⟨decide_eq_true (by omega), by omega⟩, by simp [Fields.q6, Fields.rc, ofFields, ofFields3, chain, TElem.ofCode, TElem.code, Fields.putIdx, Fields.getIdx, Fields.putImm, Fields.getImm, Fields.immN, eta4] <;> (try simp only [decide_eq_true_eq, Bool.and_eq_true]) <;> first | omega | exact ⟨decide_eq_true (by omega), by omega⟩⟩
  | imm zx =>
    have := s.isLt
    have := tr.isLt
    have := d.isLt
    have := k.isLt
    have hv : zx.wf 4 = true := by simp only [Instr.wf, Idx.wf, Bool.and_eq_true] at hw <;> first | exact hw | exact hw.1 | exact hw.1.1
    obtain ⟨h1, h2, h3, h4⟩ := imm4 hv
    have ht : tileFits e s.toNat tr.toNat = true := by simp only [Instr.wf, Bool.and_eq_true] at hw; exact hw.2
    cases e <;> (try simp [Instr.wf, TElem.code, Idx.wf] at hw) <;> (try simp only [Fields.putIdx, Fields.putImm, TElem.code, Nat.reduceMul, Nat.reduceAdd, Nat.reduceDiv, Nat.reduceMod, rowOf, row3, Fields.q6, Fields.rc, Nat.reduceLeDiff, ge_iff_le, Nat.reduceEqDiff, ↓reduceIte, Nat.zero_add, Nat.zero_div, Nat.zero_ne_one, Nat.zero_mod, plus4, TElem.ofCode, tile ht, show (tr.toNat + 4) / 4 = 1 by omega, show tr.toNat / 4 = 0 by omega, show (tr.toNat + 4) % 4 = tr.toNat by omega, show tr.toNat % 4 = tr.toNat by omega]) <;> refine ⟨by simp [InRange, TElem.code, plus4, TElem.ofCode, tile ht, show (tr.toNat + 4) / 4 = 1 by omega, show tr.toNat / 4 = 0 by omega, show (tr.toNat + 4) % 4 = tr.toNat by omega, show tr.toNat % 4 = tr.toNat by omega, Fields.putImm] <;> (try simp only [decide_eq_true_eq, Bool.and_eq_true]) <;> first | omega | exact ⟨decide_eq_true (by omega), by omega⟩, _, rfl, by simp [Fields.q6, Fields.rc, Legal, FieldKind.baseOk, FieldKind.highOk, TElem.code, Fields.putImm] <;> (try simp only [decide_eq_true_eq, Bool.and_eq_true]) <;> first | omega | exact ⟨decide_eq_true (by omega), by omega⟩, by simp [Fields.q6, Fields.rc, ofFields, ofFields3, chain, TElem.ofCode, TElem.code, Fields.putIdx, Fields.getIdx, Fields.putImm, Fields.getImm, Fields.immN, eta4, plus4, tile ht, show (tr.toNat + 4) / 4 = 1 by omega, show tr.toNat / 4 = 0 by omega, show (tr.toNat + 4) % 4 = tr.toNat by omega, show tr.toNat % 4 = tr.toNat by omega] <;> (try simp only [decide_eq_true_eq, Bool.and_eq_true]) <;> first | omega | exact ⟨decide_eq_true (by omega), by omega⟩⟩
theorem FieldTrip.rowact (k : Kr) (x : Idx) : Statement (.rowact k x) := by
  intro hw f hf; cases hf
  cases x with
  | reg zx =>
    have := k.isLt
    have := zx.isLt
    (try simp [Instr.wf, Idx.wf] at hw) <;> (try simp only [Fields.putIdx, Fields.putImm, Nat.reduceMul, Nat.reduceAdd, Nat.reduceDiv, Nat.reduceMod]) <;> refine ⟨by simp [InRange] <;> (try simp only [decide_eq_true_eq, Bool.and_eq_true]) <;> first | omega | exact ⟨decide_eq_true (by omega), by omega⟩, _, rfl, by simp [Fields.q6, Fields.rc, Legal, FieldKind.baseOk, FieldKind.highOk] <;> (try simp only [decide_eq_true_eq, Bool.and_eq_true]) <;> first | omega | exact ⟨decide_eq_true (by omega), by omega⟩, by simp [Fields.q6, Fields.rc, ofFields, ofFields3, chain, Fields.putIdx, Fields.getIdx, Fields.putImm, Fields.getImm, Fields.immN, eta4] <;> (try simp only [decide_eq_true_eq, Bool.and_eq_true]) <;> first | omega | exact ⟨decide_eq_true (by omega), by omega⟩⟩
  | imm zx =>
    have := k.isLt
    have hv : zx.wf 4 = true := by simp only [Instr.wf, Idx.wf, Bool.and_eq_true] at hw <;> first | exact hw | exact hw.1 | exact hw.1.1
    obtain ⟨h1, h2, h3, h4⟩ := imm4 hv
    (try simp [Instr.wf, Idx.wf] at hw) <;> (try simp only [Fields.putIdx, Fields.putImm, Nat.reduceMul, Nat.reduceAdd, Nat.reduceDiv, Nat.reduceMod]) <;> refine ⟨by simp [InRange, Fields.putImm] <;> (try simp only [decide_eq_true_eq, Bool.and_eq_true]) <;> first | omega | exact ⟨decide_eq_true (by omega), by omega⟩, _, rfl, by simp [Fields.q6, Fields.rc, Legal, FieldKind.baseOk, FieldKind.highOk, Fields.putImm] <;> (try simp only [decide_eq_true_eq, Bool.and_eq_true]) <;> first | omega | exact ⟨decide_eq_true (by omega), by omega⟩, by simp [Fields.q6, Fields.rc, ofFields, ofFields3, chain, Fields.putIdx, Fields.getIdx, Fields.putImm, Fields.getImm, Fields.immN, eta4] <;> (try simp only [decide_eq_true_eq, Bool.and_eq_true]) <;> first | omega | exact ⟨decide_eq_true (by omega), by omega⟩⟩
theorem FieldTrip.rowpre (k : Kr) (x : Idx) : Statement (.rowpre k x) := by
  intro hw f hf; cases hf
  cases x with
  | reg zx =>
    have := k.isLt
    have := zx.isLt
    (try simp [Instr.wf, Idx.wf] at hw) <;> (try simp only [Fields.putIdx, Fields.putImm, Nat.reduceMul, Nat.reduceAdd, Nat.reduceDiv, Nat.reduceMod]) <;> refine ⟨by simp [InRange] <;> (try simp only [decide_eq_true_eq, Bool.and_eq_true]) <;> first | omega | exact ⟨decide_eq_true (by omega), by omega⟩, _, rfl, by simp [Fields.q6, Fields.rc, Legal, FieldKind.baseOk, FieldKind.highOk] <;> (try simp only [decide_eq_true_eq, Bool.and_eq_true]) <;> first | omega | exact ⟨decide_eq_true (by omega), by omega⟩, by simp [Fields.q6, Fields.rc, ofFields, ofFields3, chain, Fields.putIdx, Fields.getIdx, Fields.putImm, Fields.getImm, Fields.immN, eta4] <;> (try simp only [decide_eq_true_eq, Bool.and_eq_true]) <;> first | omega | exact ⟨decide_eq_true (by omega), by omega⟩⟩
  | imm zx =>
    have := k.isLt
    have hv : zx.wf 4 = true := by simp only [Instr.wf, Idx.wf, Bool.and_eq_true] at hw <;> first | exact hw | exact hw.1 | exact hw.1.1
    obtain ⟨h1, h2, h3, h4⟩ := imm4 hv
    (try simp [Instr.wf, Idx.wf] at hw) <;> (try simp only [Fields.putIdx, Fields.putImm, Nat.reduceMul, Nat.reduceAdd, Nat.reduceDiv, Nat.reduceMod]) <;> refine ⟨by simp [InRange, Fields.putImm] <;> (try simp only [decide_eq_true_eq, Bool.and_eq_true]) <;> first | omega | exact ⟨decide_eq_true (by omega), by omega⟩, _, rfl, by simp [Fields.q6, Fields.rc, Legal, FieldKind.baseOk, FieldKind.highOk, Fields.putImm] <;> (try simp only [decide_eq_true_eq, Bool.and_eq_true]) <;> first | omega | exact ⟨decide_eq_true (by omega), by omega⟩, by simp [Fields.q6, Fields.rc, ofFields, ofFields3, chain, Fields.putIdx, Fields.getIdx, Fields.putImm, Fields.getImm, Fields.immN, eta4] <;> (try simp only [decide_eq_true_eq, Bool.and_eq_true]) <;> first | omega | exact ⟨decide_eq_true (by omega), by omega⟩⟩
theorem FieldTrip.capld (d : Kr) (k : Kr) (b : Gpr) : Statement (.capld d k b) := by
  intro hw f hf; cases hf
  have := d.isLt
  have := k.isLt
  have := b.isLt
  refine ⟨by simp [InRange] <;> (try simp only [decide_eq_true_eq, Bool.and_eq_true]) <;> first | omega | exact ⟨decide_eq_true (by omega), by omega⟩, _, rfl, by simp [Fields.q6, Fields.rc, Legal, FieldKind.baseOk, FieldKind.highOk] <;> (try simp only [decide_eq_true_eq, Bool.and_eq_true]) <;> first | omega | exact ⟨decide_eq_true (by omega), by omega⟩, by simp [Fields.q6, Fields.rc, ofFields, ofFields3, chain] <;> (try simp only [decide_eq_true_eq, Bool.and_eq_true]) <;> first | omega | exact ⟨decide_eq_true (by omega), by omega⟩⟩
theorem FieldTrip.capst (d : Kr) (k : Kr) (b : Gpr) : Statement (.capst d k b) := by
  intro hw f hf; cases hf
  have := d.isLt
  have := k.isLt
  have := b.isLt
  refine ⟨by simp [InRange] <;> (try simp only [decide_eq_true_eq, Bool.and_eq_true]) <;> first | omega | exact ⟨decide_eq_true (by omega), by omega⟩, _, rfl, by simp [Fields.q6, Fields.rc, Legal, FieldKind.baseOk, FieldKind.highOk] <;> (try simp only [decide_eq_true_eq, Bool.and_eq_true]) <;> first | omega | exact ⟨decide_eq_true (by omega), by omega⟩, by simp [Fields.q6, Fields.rc, ofFields, ofFields3, chain] <;> (try simp only [decide_eq_true_eq, Bool.and_eq_true]) <;> first | omega | exact ⟨decide_eq_true (by omega), by omega⟩⟩
theorem FieldTrip.capnarrow (d : Kr) (k : Kr) (b : Gpr) : Statement (.capnarrow d k b) := by
  intro hw f hf; cases hf
  have := d.isLt
  have := k.isLt
  have := b.isLt
  (try simp [Instr.wf, evenGpr] at hw) <;> refine ⟨by simp [InRange] <;> (try simp only [decide_eq_true_eq, Bool.and_eq_true]) <;> first | omega | exact ⟨decide_eq_true (by omega), by omega⟩, _, rfl, by simp [Fields.q6, Fields.rc, Legal, FieldKind.baseOk, FieldKind.highOk, evenGpr] <;> (try simp only [decide_eq_true_eq, Bool.and_eq_true]) <;> first | omega | exact ⟨decide_eq_true (by omega), by omega⟩, by simp [Fields.q6, Fields.rc, ofFields, ofFields3, chain] <;> (try simp only [decide_eq_true_eq, Bool.and_eq_true]) <;> first | omega | exact ⟨decide_eq_true (by omega), by omega⟩⟩
theorem FieldTrip.capoff (d : Gpr) (k : Kr) (s : BitVec 3) : Statement (.capoff d k s) := by
  intro hw f hf; cases hf
  have := d.isLt
  have := k.isLt
  have := s.isLt
  (try simp [Instr.wf] at hw) <;> refine ⟨by simp [InRange] <;> (try simp only [decide_eq_true_eq, Bool.and_eq_true]) <;> first | omega | exact ⟨decide_eq_true (by omega), by omega⟩, _, rfl, by simp [Fields.q6, Fields.rc, Legal, FieldKind.baseOk, FieldKind.highOk] <;> (try simp only [decide_eq_true_eq, Bool.and_eq_true]) <;> first | omega | exact ⟨decide_eq_true (by omega), by omega⟩, by simp [Fields.q6, Fields.rc, ofFields, ofFields3, chain] <;> (try simp only [decide_eq_true_eq, Bool.and_eq_true]) <;> first | omega | exact ⟨decide_eq_true (by omega), by omega⟩⟩
theorem FieldTrip.mma (ov : Bool) (nt : Bool) (d : Acc) (a : Ob) (b : Ob) : Statement (.mma ov nt d a b) := by
  intro hw f hf; cases hf
  have := d.isLt
  have := a.isLt
  have := b.isLt
  cases ov <;> cases nt <;> (try simp only [boolCode, Nat.reduceMul, Nat.reduceAdd, Nat.reduceDiv, Nat.reduceMod]) <;> refine ⟨by simp [InRange, boolCode] <;> (try simp only [decide_eq_true_eq, Bool.and_eq_true]) <;> first | omega | exact ⟨decide_eq_true (by omega), by omega⟩, _, rfl, by simp [Fields.q6, Fields.rc, Legal, FieldKind.baseOk, FieldKind.highOk, boolCode] <;> (try simp only [decide_eq_true_eq, Bool.and_eq_true]) <;> first | omega | exact ⟨decide_eq_true (by omega), by omega⟩, by simp [Fields.q6, Fields.rc, ofFields, ofFields4, chain, boolCode] <;> (try simp only [decide_eq_true_eq, Bool.and_eq_true]) <;> first | omega | exact ⟨decide_eq_true (by omega), by omega⟩⟩
theorem FieldTrip.mmas (ov : Bool) (nt : Bool) (d : Acc) (a : Ob) (b : Ob) : Statement (.mmas ov nt d a b) := by
  intro hw f hf; cases hf
  have := d.isLt
  have := a.isLt
  have := b.isLt
  cases ov <;> cases nt <;> (try simp only [boolCode, Nat.reduceMul, Nat.reduceAdd, Nat.reduceDiv, Nat.reduceMod]) <;> refine ⟨by simp [InRange, boolCode] <;> (try simp only [decide_eq_true_eq, Bool.and_eq_true]) <;> first | omega | exact ⟨decide_eq_true (by omega), by omega⟩, _, rfl, by simp [Fields.q6, Fields.rc, Legal, FieldKind.baseOk, FieldKind.highOk, boolCode] <;> (try simp only [decide_eq_true_eq, Bool.and_eq_true]) <;> first | omega | exact ⟨decide_eq_true (by omega), by omega⟩, by simp [Fields.q6, Fields.rc, ofFields, ofFields4, chain, boolCode] <;> (try simp only [decide_eq_true_eq, Bool.and_eq_true]) <;> first | omega | exact ⟨decide_eq_true (by omega), by omega⟩⟩
theorem FieldTrip.mzero (d : Acc) : Statement (.mzero d) := by
  intro hw f hf; cases hf
  have := d.isLt
  refine ⟨by simp [InRange] <;> (try simp only [decide_eq_true_eq, Bool.and_eq_true]) <;> first | omega | exact ⟨decide_eq_true (by omega), by omega⟩, _, rfl, by simp [Fields.q6, Fields.rc, Legal, FieldKind.baseOk, FieldKind.highOk] <;> (try simp only [decide_eq_true_eq, Bool.and_eq_true]) <;> first | omega | exact ⟨decide_eq_true (by omega), by omega⟩, by simp [Fields.q6, Fields.rc, ofFields, ofFields4, chain] <;> (try simp only [decide_eq_true_eq, Bool.and_eq_true]) <;> first | omega | exact ⟨decide_eq_true (by omega), by omega⟩⟩
theorem FieldTrip.mfmt (f : MFmt) : Statement (.mfmt f) := by
  intro hw f hf; cases hf
  cases f with
  | float x =>
    cases x <;> (try simp only [Fields.putMFmt, FTy.code, Nat.reduceMul, Nat.reduceAdd, Nat.reduceDiv, Nat.reduceMod]) <;> refine ⟨by simp [InRange, FTy.code] <;> (try simp only [decide_eq_true_eq, Bool.and_eq_true]) <;> first | omega | exact ⟨decide_eq_true (by omega), by omega⟩, _, rfl, by simp [Fields.q6, Fields.rc, Legal, FieldKind.baseOk, FieldKind.highOk, FTy.code] <;> (try simp only [decide_eq_true_eq, Bool.and_eq_true]) <;> first | omega | exact ⟨decide_eq_true (by omega), by omega⟩, by simp [Fields.q6, Fields.rc, ofFields, ofFields4, chain, Fields.putMFmt, Fields.getMFmt, FTy.ofCode, FTy.code] <;> (try simp only [decide_eq_true_eq, Bool.and_eq_true]) <;> first | omega | exact ⟨decide_eq_true (by omega), by omega⟩⟩
  | mx x =>
    cases x <;> (try simp only [Fields.putMFmt, FTy.code, MTy.code, Nat.reduceMul, Nat.reduceAdd, Nat.reduceDiv, Nat.reduceMod]) <;> refine ⟨by simp [InRange, FTy.code, MTy.code] <;> (try simp only [decide_eq_true_eq, Bool.and_eq_true]) <;> first | omega | exact ⟨decide_eq_true (by omega), by omega⟩, _, rfl, by simp [Fields.q6, Fields.rc, Legal, FieldKind.baseOk, FieldKind.highOk, FTy.code, MTy.code] <;> (try simp only [decide_eq_true_eq, Bool.and_eq_true]) <;> first | omega | exact ⟨decide_eq_true (by omega), by omega⟩, by simp [Fields.q6, Fields.rc, ofFields, ofFields4, chain, Fields.putMFmt, Fields.getMFmt, FTy.ofCode, FTy.code, MTy.ofCode, MTy.code] <;> (try simp only [decide_eq_true_eq, Bool.and_eq_true]) <;> first | omega | exact ⟨decide_eq_true (by omega), by omega⟩⟩
  | int8 =>
    (try simp only [Fields.putMFmt, FTy.code, MTy.code, Nat.reduceMul, Nat.reduceAdd, Nat.reduceDiv, Nat.reduceMod]) <;> refine ⟨by simp [InRange, FTy.code, MTy.code] <;> (try simp only [decide_eq_true_eq, Bool.and_eq_true]) <;> first | omega | exact ⟨decide_eq_true (by omega), by omega⟩, _, rfl, by simp [Fields.q6, Fields.rc, Legal, FieldKind.baseOk, FieldKind.highOk, FTy.code, MTy.code] <;> (try simp only [decide_eq_true_eq, Bool.and_eq_true]) <;> first | omega | exact ⟨decide_eq_true (by omega), by omega⟩, by simp [Fields.q6, Fields.rc, ofFields, ofFields4, chain, Fields.putMFmt, Fields.getMFmt, FTy.ofCode, FTy.code, MTy.ofCode, MTy.code] <;> (try simp only [decide_eq_true_eq, Bool.and_eq_true]) <;> first | omega | exact ⟨decide_eq_true (by omega), by omega⟩⟩
theorem FieldTrip.tst (d : Acc) (k : Kr) (x : Idx) : Statement (.tst d k x) := by
  intro hw f hf; cases hf
  cases x with
  | reg zx =>
    have := d.isLt
    have := k.isLt
    have := zx.isLt
    (try simp [Instr.wf, Idx.wf] at hw) <;> (try simp only [Fields.putIdx, Fields.putImm, Nat.reduceMul, Nat.reduceAdd, Nat.reduceDiv, Nat.reduceMod]) <;> refine ⟨by simp [InRange] <;> (try simp only [decide_eq_true_eq, Bool.and_eq_true]) <;> first | omega | exact ⟨decide_eq_true (by omega), by omega⟩, _, rfl, by simp [Fields.q6, Fields.rc, Legal, FieldKind.baseOk, FieldKind.highOk] <;> (try simp only [decide_eq_true_eq, Bool.and_eq_true]) <;> first | omega | exact ⟨decide_eq_true (by omega), by omega⟩, by simp [Fields.q6, Fields.rc, ofFields, ofFields4, chain, Fields.putIdx, Fields.getIdx, Fields.putImm, Fields.getImm, Fields.immN, eta4] <;> (try simp only [decide_eq_true_eq, Bool.and_eq_true]) <;> first | omega | exact ⟨decide_eq_true (by omega), by omega⟩⟩
  | imm zx =>
    have := d.isLt
    have := k.isLt
    have hv : zx.wf 4 = true := by simp only [Instr.wf, Idx.wf, Bool.and_eq_true] at hw <;> first | exact hw | exact hw.1 | exact hw.1.1
    obtain ⟨h1, h2, h3, h4⟩ := imm4 hv
    (try simp [Instr.wf, Idx.wf] at hw) <;> (try simp only [Fields.putIdx, Fields.putImm, Nat.reduceMul, Nat.reduceAdd, Nat.reduceDiv, Nat.reduceMod]) <;> refine ⟨by simp [InRange, Fields.putImm] <;> (try simp only [decide_eq_true_eq, Bool.and_eq_true]) <;> first | omega | exact ⟨decide_eq_true (by omega), by omega⟩, _, rfl, by simp [Fields.q6, Fields.rc, Legal, FieldKind.baseOk, FieldKind.highOk, Fields.putImm] <;> (try simp only [decide_eq_true_eq, Bool.and_eq_true]) <;> first | omega | exact ⟨decide_eq_true (by omega), by omega⟩, by simp [Fields.q6, Fields.rc, ofFields, ofFields4, chain, Fields.putIdx, Fields.getIdx, Fields.putImm, Fields.getImm, Fields.immN, eta4] <;> (try simp only [decide_eq_true_eq, Bool.and_eq_true]) <;> first | omega | exact ⟨decide_eq_true (by omega), by omega⟩⟩
theorem FieldTrip.mepi (m : BitVec 3) (t : FTy) (r : Rnd) (n : Bool) (a : Vr) : Statement (.mepi m t r n a) := by
  intro hw f hf; cases hf
  have := m.isLt
  have := a.isLt
  cases t <;> cases r <;> cases n <;> (try simp [Instr.wf, FTy.code, Rnd.code, ← BitVec.toNat_inj] at hw) <;> (try simp only [FTy.code, Rnd.code, boolCode, Nat.reduceMul, Nat.reduceAdd, Nat.reduceDiv, Nat.reduceMod]) <;> refine ⟨by simp [InRange, FTy.code, Rnd.code, boolCode] <;> (try simp only [decide_eq_true_eq, Bool.and_eq_true]) <;> first | omega | exact ⟨decide_eq_true (by omega), by omega⟩, _, rfl, by simp [Fields.q6, Fields.rc, Legal, FieldKind.baseOk, FieldKind.highOk, FTy.code, Rnd.code, boolCode] <;> (try simp only [decide_eq_true_eq, Bool.and_eq_true]) <;> first | omega | exact ⟨decide_eq_true (by omega), by omega⟩, by simp [Fields.q6, Fields.rc, ofFields, ofFields4, chain, FTy.ofCode, FTy.code, Rnd.ofCode, Rnd.code, boolCode] <;> (try simp only [decide_eq_true_eq, Bool.and_eq_true]) <;> first | omega | exact ⟨decide_eq_true (by omega), by omega⟩⟩
theorem FieldTrip.tldacc (d : Acc) (k : Kr) (x : Idx) : Statement (.tldacc d k x) := by
  intro hw f hf; cases hf
  cases x with
  | reg zx =>
    have := d.isLt
    have := k.isLt
    have := zx.isLt
    (try simp [Instr.wf, Idx.wf] at hw) <;> (try simp only [Fields.putIdx, Fields.putImm, Nat.reduceMul, Nat.reduceAdd, Nat.reduceDiv, Nat.reduceMod]) <;> refine ⟨by simp [InRange] <;> (try simp only [decide_eq_true_eq, Bool.and_eq_true]) <;> first | omega | exact ⟨decide_eq_true (by omega), by omega⟩, _, rfl, by simp [Fields.q6, Fields.rc, Legal, FieldKind.baseOk, FieldKind.highOk] <;> (try simp only [decide_eq_true_eq, Bool.and_eq_true]) <;> first | omega | exact ⟨decide_eq_true (by omega), by omega⟩, by simp [Fields.q6, Fields.rc, ofFields, ofFields4, chain, Fields.putIdx, Fields.getIdx, Fields.putImm, Fields.getImm, Fields.immN, eta4] <;> (try simp only [decide_eq_true_eq, Bool.and_eq_true]) <;> first | omega | exact ⟨decide_eq_true (by omega), by omega⟩⟩
  | imm zx =>
    have := d.isLt
    have := k.isLt
    have hv : zx.wf 4 = true := by simp only [Instr.wf, Idx.wf, Bool.and_eq_true] at hw <;> first | exact hw | exact hw.1 | exact hw.1.1
    obtain ⟨h1, h2, h3, h4⟩ := imm4 hv
    (try simp [Instr.wf, Idx.wf] at hw) <;> (try simp only [Fields.putIdx, Fields.putImm, Nat.reduceMul, Nat.reduceAdd, Nat.reduceDiv, Nat.reduceMod]) <;> refine ⟨by simp [InRange, Fields.putImm] <;> (try simp only [decide_eq_true_eq, Bool.and_eq_true]) <;> first | omega | exact ⟨decide_eq_true (by omega), by omega⟩, _, rfl, by simp [Fields.q6, Fields.rc, Legal, FieldKind.baseOk, FieldKind.highOk, Fields.putImm] <;> (try simp only [decide_eq_true_eq, Bool.and_eq_true]) <;> first | omega | exact ⟨decide_eq_true (by omega), by omega⟩, by simp [Fields.q6, Fields.rc, ofFields, ofFields4, chain, Fields.putIdx, Fields.getIdx, Fields.putImm, Fields.getImm, Fields.immN, eta4] <;> (try simp only [decide_eq_true_eq, Bool.and_eq_true]) <;> first | omega | exact ⟨decide_eq_true (by omega), by omega⟩⟩
theorem FieldTrip.obput (d : ObAcc) (a : Vr) (b : Gpr) : Statement (.obput d a b) := by
  intro hw f hf; cases hf
  cases d with
  | ob x =>
    have := a.isLt
    have := b.isLt
    have := x.isLt
    (try simp only [ObAcc.code, ObAcc.flag, Nat.reduceMul, Nat.reduceAdd, Nat.reduceDiv, Nat.reduceMod]) <;> refine ⟨by simp [InRange] <;> (try simp only [decide_eq_true_eq, Bool.and_eq_true]) <;> first | omega | exact ⟨decide_eq_true (by omega), by omega⟩, _, rfl, by simp [Fields.q6, Fields.rc, Legal, FieldKind.baseOk, FieldKind.highOk] <;> (try simp only [decide_eq_true_eq, Bool.and_eq_true]) <;> first | omega | exact ⟨decide_eq_true (by omega), by omega⟩, by simp [Fields.q6, Fields.rc, ofFields, ofFields4, chain, ObAcc.code, ObAcc.flag, ObAcc.ofCode] <;> (try simp only [decide_eq_true_eq, Bool.and_eq_true]) <;> first | omega | exact ⟨decide_eq_true (by omega), by omega⟩⟩
  | acc x =>
    have := a.isLt
    have := b.isLt
    have := x.isLt
    (try simp only [ObAcc.code, ObAcc.flag, Nat.reduceMul, Nat.reduceAdd, Nat.reduceDiv, Nat.reduceMod]) <;> refine ⟨by simp [InRange] <;> (try simp only [decide_eq_true_eq, Bool.and_eq_true]) <;> first | omega | exact ⟨decide_eq_true (by omega), by omega⟩, _, rfl, by simp [Fields.q6, Fields.rc, Legal, FieldKind.baseOk, FieldKind.highOk] <;> (try simp only [decide_eq_true_eq, Bool.and_eq_true]) <;> first | omega | exact ⟨decide_eq_true (by omega), by omega⟩, by simp [Fields.q6, Fields.rc, ofFields, ofFields4, chain, ObAcc.code, ObAcc.flag, ObAcc.ofCode] <;> (try simp only [decide_eq_true_eq, Bool.and_eq_true]) <;> first | omega | exact ⟨decide_eq_true (by omega), by omega⟩⟩
theorem FieldTrip.obget (d : Vr) (a : ObAcc) (b : Gpr) : Statement (.obget d a b) := by
  intro hw f hf; cases hf
  cases a with
  | ob x =>
    have := d.isLt
    have := b.isLt
    have := x.isLt
    (try simp only [ObAcc.code, ObAcc.flag, Nat.reduceMul, Nat.reduceAdd, Nat.reduceDiv, Nat.reduceMod]) <;> refine ⟨by simp [InRange] <;> (try simp only [decide_eq_true_eq, Bool.and_eq_true]) <;> first | omega | exact ⟨decide_eq_true (by omega), by omega⟩, _, rfl, by simp [Fields.q6, Fields.rc, Legal, FieldKind.baseOk, FieldKind.highOk] <;> (try simp only [decide_eq_true_eq, Bool.and_eq_true]) <;> first | omega | exact ⟨decide_eq_true (by omega), by omega⟩, by simp [Fields.q6, Fields.rc, ofFields, ofFields4, chain, ObAcc.code, ObAcc.flag, ObAcc.ofCode] <;> (try simp only [decide_eq_true_eq, Bool.and_eq_true]) <;> first | omega | exact ⟨decide_eq_true (by omega), by omega⟩⟩
  | acc x =>
    have := d.isLt
    have := b.isLt
    have := x.isLt
    (try simp only [ObAcc.code, ObAcc.flag, Nat.reduceMul, Nat.reduceAdd, Nat.reduceDiv, Nat.reduceMod]) <;> refine ⟨by simp [InRange] <;> (try simp only [decide_eq_true_eq, Bool.and_eq_true]) <;> first | omega | exact ⟨decide_eq_true (by omega), by omega⟩, _, rfl, by simp [Fields.q6, Fields.rc, Legal, FieldKind.baseOk, FieldKind.highOk] <;> (try simp only [decide_eq_true_eq, Bool.and_eq_true]) <;> first | omega | exact ⟨decide_eq_true (by omega), by omega⟩, by simp [Fields.q6, Fields.rc, ofFields, ofFields4, chain, ObAcc.code, ObAcc.flag, ObAcc.ofCode] <;> (try simp only [decide_eq_true_eq, Bool.and_eq_true]) <;> first | omega | exact ⟨decide_eq_true (by omega), by omega⟩⟩
theorem FieldTrip.mstat (d : Gpr) (s : BitVec 2) : Statement (.mstat d s) := by
  intro hw f hf; cases hf
  have := d.isLt
  have := s.isLt
  refine ⟨by simp [InRange] <;> (try simp only [decide_eq_true_eq, Bool.and_eq_true]) <;> first | omega | exact ⟨decide_eq_true (by omega), by omega⟩, _, rfl, by simp [Fields.q6, Fields.rc, Legal, FieldKind.baseOk, FieldKind.highOk] <;> (try simp only [decide_eq_true_eq, Bool.and_eq_true]) <;> first | omega | exact ⟨decide_eq_true (by omega), by omega⟩, by simp [Fields.q6, Fields.rc, ofFields, ofFields4, chain] <;> (try simp only [decide_eq_true_eq, Bool.and_eq_true]) <;> first | omega | exact ⟨decide_eq_true (by omega), by omega⟩⟩
theorem FieldTrip.rel (sc : Scope) : Statement (.rel sc) := by
  intro hw f hf; cases hf
  cases sc <;> (try simp [Instr.wf, Scope.code, Scope.between] at hw) <;> (try simp only [Scope.code, Nat.reduceMul, Nat.reduceAdd, Nat.reduceDiv, Nat.reduceMod]) <;> refine ⟨by simp [InRange, Scope.code] <;> (try simp only [decide_eq_true_eq, Bool.and_eq_true]) <;> first | omega | exact ⟨decide_eq_true (by omega), by omega⟩, _, rfl, by simp [Fields.q6, Fields.rc, Legal, FieldKind.baseOk, FieldKind.highOk, Scope.code] <;> (try simp only [decide_eq_true_eq, Bool.and_eq_true]) <;> first | omega | exact ⟨decide_eq_true (by omega), by omega⟩, by simp [Fields.q6, Fields.rc, ofFields, ofFields5, chain, Scope.ofCode, Scope.code] <;> (try simp only [decide_eq_true_eq, Bool.and_eq_true]) <;> first | omega | exact ⟨decide_eq_true (by omega), by omega⟩⟩
theorem FieldTrip.acq (sc : Scope) (d : Pr) (a : Gpr) : Statement (.acq sc d a) := by
  intro hw f hf; cases hf
  have := d.isLt
  have := a.isLt
  cases sc <;> (try simp [Instr.wf, Scope.code, Scope.between] at hw) <;> (try simp only [Scope.code, Nat.reduceMul, Nat.reduceAdd, Nat.reduceDiv, Nat.reduceMod]) <;> refine ⟨by simp [InRange, Scope.code] <;> (try simp only [decide_eq_true_eq, Bool.and_eq_true]) <;> first | omega | exact ⟨decide_eq_true (by omega), by omega⟩, _, rfl, by simp [Fields.q6, Fields.rc, Legal, FieldKind.baseOk, FieldKind.highOk, Scope.code] <;> (try simp only [decide_eq_true_eq, Bool.and_eq_true]) <;> first | omega | exact ⟨decide_eq_true (by omega), by omega⟩, by simp [Fields.q6, Fields.rc, ofFields, ofFields5, chain, Scope.ofCode, Scope.code] <;> (try simp only [decide_eq_true_eq, Bool.and_eq_true]) <;> first | omega | exact ⟨decide_eq_true (by omega), by omega⟩⟩
theorem FieldTrip.fence (sc : Scope) : Statement (.fence sc) := by
  intro hw f hf; cases hf
  cases sc <;> (try simp only [Scope.code, Nat.reduceMul, Nat.reduceAdd, Nat.reduceDiv, Nat.reduceMod]) <;> refine ⟨by simp [InRange, Scope.code] <;> (try simp only [decide_eq_true_eq, Bool.and_eq_true]) <;> first | omega | exact ⟨decide_eq_true (by omega), by omega⟩, _, rfl, by simp [Fields.q6, Fields.rc, Legal, FieldKind.baseOk, FieldKind.highOk, Scope.code] <;> (try simp only [decide_eq_true_eq, Bool.and_eq_true]) <;> first | omega | exact ⟨decide_eq_true (by omega), by omega⟩, by simp [Fields.q6, Fields.rc, ofFields, ofFields5, chain, Scope.ofCode, Scope.code] <;> (try simp only [decide_eq_true_eq, Bool.and_eq_true]) <;> first | omega | exact ⟨decide_eq_true (by omega), by omega⟩⟩
theorem FieldTrip.amoadd (t : AmoTy) (d : Gpr) (k : Kr) (x : Idx) (s : BitVec 3) : Statement (.amoadd t d k x s) := by
  intro hw f hf; cases hf
  cases x with
  | reg zx =>
    have := d.isLt
    have := k.isLt
    have := s.isLt
    have := zx.isLt
    cases t <;> (try simp [Instr.wf, AmoTy.code, Idx.wf] at hw) <;> (try simp only [Fields.putIdx, Fields.putImm, AmoTy.code, Nat.reduceMul, Nat.reduceAdd, Nat.reduceDiv, Nat.reduceMod, rowOf, row5, Fields.q6, Fields.rc, Nat.reduceLeDiff, ge_iff_le, Nat.reduceEqDiff, ↓reduceIte, Nat.zero_add, Nat.zero_div, Nat.zero_ne_one, Nat.zero_mod, plus8, show (s.toNat + 8) / 8 = 1 by omega, show s.toNat / 8 = 0 by omega]) <;> refine ⟨by simp [InRange, AmoTy.code] <;> (try simp only [decide_eq_true_eq, Bool.and_eq_true]) <;> first | omega | exact ⟨decide_eq_true (by omega), by omega⟩, _, rfl, by simp [Fields.q6, Fields.rc, Legal, FieldKind.baseOk, FieldKind.highOk, AmoTy.code] <;> (try simp only [decide_eq_true_eq, Bool.and_eq_true]) <;> first | omega | exact ⟨decide_eq_true (by omega), by omega⟩, by simp [Fields.q6, Fields.rc, ofFields, ofFields5, chain, AmoTy.ofCode, AmoTy.code, Fields.putIdx, Fields.getIdx, Fields.putImm, Fields.getImm, Fields.immN, eta4] <;> (try simp only [decide_eq_true_eq, Bool.and_eq_true]) <;> first | omega | exact ⟨decide_eq_true (by omega), by omega⟩⟩
  | imm zx =>
    have := d.isLt
    have := k.isLt
    have := s.isLt
    have hv : zx.wf 4 = true := by simp only [Instr.wf, Idx.wf, Bool.and_eq_true] at hw <;> first | exact hw | exact hw.1 | exact hw.1.1
    obtain ⟨h1, h2, h3, h4⟩ := imm4 hv
    cases t <;> (try simp [Instr.wf, AmoTy.code, Idx.wf] at hw) <;> (try simp only [Fields.putIdx, Fields.putImm, AmoTy.code, Nat.reduceMul, Nat.reduceAdd, Nat.reduceDiv, Nat.reduceMod, rowOf, row5, Fields.q6, Fields.rc, Nat.reduceLeDiff, ge_iff_le, Nat.reduceEqDiff, ↓reduceIte, Nat.zero_add, Nat.zero_div, Nat.zero_ne_one, Nat.zero_mod, plus8, show (s.toNat + 8) / 8 = 1 by omega, show s.toNat / 8 = 0 by omega]) <;> refine ⟨by simp [InRange, AmoTy.code, plus8, show (s.toNat + 8) / 8 = 1 by omega, show s.toNat / 8 = 0 by omega, Fields.putImm] <;> (try simp only [decide_eq_true_eq, Bool.and_eq_true]) <;> first | omega | exact ⟨decide_eq_true (by omega), by omega⟩, _, rfl, by simp [Fields.q6, Fields.rc, Legal, FieldKind.baseOk, FieldKind.highOk, AmoTy.code, Fields.putImm] <;> (try simp only [decide_eq_true_eq, Bool.and_eq_true]) <;> first | omega | exact ⟨decide_eq_true (by omega), by omega⟩, by simp [Fields.q6, Fields.rc, ofFields, ofFields5, chain, AmoTy.ofCode, AmoTy.code, Fields.putIdx, Fields.getIdx, Fields.putImm, Fields.getImm, Fields.immN, eta4, plus8, show (s.toNat + 8) / 8 = 1 by omega, show s.toNat / 8 = 0 by omega] <;> (try simp only [decide_eq_true_eq, Bool.and_eq_true]) <;> first | omega | exact ⟨decide_eq_true (by omega), by omega⟩⟩
theorem FieldTrip.amomin (t : AmoTy) (d : Gpr) (k : Kr) (x : Idx) (s : BitVec 3) : Statement (.amomin t d k x s) := by
  intro hw f hf; cases hf
  cases x with
  | reg zx =>
    have := d.isLt
    have := k.isLt
    have := s.isLt
    have := zx.isLt
    cases t <;> (try simp [Instr.wf, AmoTy.code, Idx.wf] at hw) <;> (try simp only [Fields.putIdx, Fields.putImm, AmoTy.code, Nat.reduceMul, Nat.reduceAdd, Nat.reduceDiv, Nat.reduceMod, rowOf, row5, Fields.q6, Fields.rc, Nat.reduceLeDiff, ge_iff_le, Nat.reduceEqDiff, ↓reduceIte, Nat.zero_add, Nat.zero_div, Nat.zero_ne_one, Nat.zero_mod, plus8, show (s.toNat + 8) / 8 = 1 by omega, show s.toNat / 8 = 0 by omega]) <;> refine ⟨by simp [InRange, AmoTy.code] <;> (try simp only [decide_eq_true_eq, Bool.and_eq_true]) <;> first | omega | exact ⟨decide_eq_true (by omega), by omega⟩, _, rfl, by simp [Fields.q6, Fields.rc, Legal, FieldKind.baseOk, FieldKind.highOk, AmoTy.code] <;> (try simp only [decide_eq_true_eq, Bool.and_eq_true]) <;> first | omega | exact ⟨decide_eq_true (by omega), by omega⟩, by simp [Fields.q6, Fields.rc, ofFields, ofFields5, chain, AmoTy.ofCode, AmoTy.code, Fields.putIdx, Fields.getIdx, Fields.putImm, Fields.getImm, Fields.immN, eta4] <;> (try simp only [decide_eq_true_eq, Bool.and_eq_true]) <;> first | omega | exact ⟨decide_eq_true (by omega), by omega⟩⟩
  | imm zx =>
    have := d.isLt
    have := k.isLt
    have := s.isLt
    have hv : zx.wf 4 = true := by simp only [Instr.wf, Idx.wf, Bool.and_eq_true] at hw <;> first | exact hw | exact hw.1 | exact hw.1.1
    obtain ⟨h1, h2, h3, h4⟩ := imm4 hv
    cases t <;> (try simp [Instr.wf, AmoTy.code, Idx.wf] at hw) <;> (try simp only [Fields.putIdx, Fields.putImm, AmoTy.code, Nat.reduceMul, Nat.reduceAdd, Nat.reduceDiv, Nat.reduceMod, rowOf, row5, Fields.q6, Fields.rc, Nat.reduceLeDiff, ge_iff_le, Nat.reduceEqDiff, ↓reduceIte, Nat.zero_add, Nat.zero_div, Nat.zero_ne_one, Nat.zero_mod, plus8, show (s.toNat + 8) / 8 = 1 by omega, show s.toNat / 8 = 0 by omega]) <;> refine ⟨by simp [InRange, AmoTy.code, plus8, show (s.toNat + 8) / 8 = 1 by omega, show s.toNat / 8 = 0 by omega, Fields.putImm] <;> (try simp only [decide_eq_true_eq, Bool.and_eq_true]) <;> first | omega | exact ⟨decide_eq_true (by omega), by omega⟩, _, rfl, by simp [Fields.q6, Fields.rc, Legal, FieldKind.baseOk, FieldKind.highOk, AmoTy.code, Fields.putImm] <;> (try simp only [decide_eq_true_eq, Bool.and_eq_true]) <;> first | omega | exact ⟨decide_eq_true (by omega), by omega⟩, by simp [Fields.q6, Fields.rc, ofFields, ofFields5, chain, AmoTy.ofCode, AmoTy.code, Fields.putIdx, Fields.getIdx, Fields.putImm, Fields.getImm, Fields.immN, eta4, plus8, show (s.toNat + 8) / 8 = 1 by omega, show s.toNat / 8 = 0 by omega] <;> (try simp only [decide_eq_true_eq, Bool.and_eq_true]) <;> first | omega | exact ⟨decide_eq_true (by omega), by omega⟩⟩
theorem FieldTrip.amomax (t : AmoTy) (d : Gpr) (k : Kr) (x : Idx) (s : BitVec 3) : Statement (.amomax t d k x s) := by
  intro hw f hf; cases hf
  cases x with
  | reg zx =>
    have := d.isLt
    have := k.isLt
    have := s.isLt
    have := zx.isLt
    cases t <;> (try simp [Instr.wf, AmoTy.code, Idx.wf] at hw) <;> (try simp only [Fields.putIdx, Fields.putImm, AmoTy.code, Nat.reduceMul, Nat.reduceAdd, Nat.reduceDiv, Nat.reduceMod, rowOf, row5, Fields.q6, Fields.rc, Nat.reduceLeDiff, ge_iff_le, Nat.reduceEqDiff, ↓reduceIte, Nat.zero_add, Nat.zero_div, Nat.zero_ne_one, Nat.zero_mod, plus8, show (s.toNat + 8) / 8 = 1 by omega, show s.toNat / 8 = 0 by omega]) <;> refine ⟨by simp [InRange, AmoTy.code] <;> (try simp only [decide_eq_true_eq, Bool.and_eq_true]) <;> first | omega | exact ⟨decide_eq_true (by omega), by omega⟩, _, rfl, by simp [Fields.q6, Fields.rc, Legal, FieldKind.baseOk, FieldKind.highOk, AmoTy.code] <;> (try simp only [decide_eq_true_eq, Bool.and_eq_true]) <;> first | omega | exact ⟨decide_eq_true (by omega), by omega⟩, by simp [Fields.q6, Fields.rc, ofFields, ofFields5, chain, AmoTy.ofCode, AmoTy.code, Fields.putIdx, Fields.getIdx, Fields.putImm, Fields.getImm, Fields.immN, eta4] <;> (try simp only [decide_eq_true_eq, Bool.and_eq_true]) <;> first | omega | exact ⟨decide_eq_true (by omega), by omega⟩⟩
  | imm zx =>
    have := d.isLt
    have := k.isLt
    have := s.isLt
    have hv : zx.wf 4 = true := by simp only [Instr.wf, Idx.wf, Bool.and_eq_true] at hw <;> first | exact hw | exact hw.1 | exact hw.1.1
    obtain ⟨h1, h2, h3, h4⟩ := imm4 hv
    cases t <;> (try simp [Instr.wf, AmoTy.code, Idx.wf] at hw) <;> (try simp only [Fields.putIdx, Fields.putImm, AmoTy.code, Nat.reduceMul, Nat.reduceAdd, Nat.reduceDiv, Nat.reduceMod, rowOf, row5, Fields.q6, Fields.rc, Nat.reduceLeDiff, ge_iff_le, Nat.reduceEqDiff, ↓reduceIte, Nat.zero_add, Nat.zero_div, Nat.zero_ne_one, Nat.zero_mod, plus8, show (s.toNat + 8) / 8 = 1 by omega, show s.toNat / 8 = 0 by omega]) <;> refine ⟨by simp [InRange, AmoTy.code, plus8, show (s.toNat + 8) / 8 = 1 by omega, show s.toNat / 8 = 0 by omega, Fields.putImm] <;> (try simp only [decide_eq_true_eq, Bool.and_eq_true]) <;> first | omega | exact ⟨decide_eq_true (by omega), by omega⟩, _, rfl, by simp [Fields.q6, Fields.rc, Legal, FieldKind.baseOk, FieldKind.highOk, AmoTy.code, Fields.putImm] <;> (try simp only [decide_eq_true_eq, Bool.and_eq_true]) <;> first | omega | exact ⟨decide_eq_true (by omega), by omega⟩, by simp [Fields.q6, Fields.rc, ofFields, ofFields5, chain, AmoTy.ofCode, AmoTy.code, Fields.putIdx, Fields.getIdx, Fields.putImm, Fields.getImm, Fields.immN, eta4, plus8, show (s.toNat + 8) / 8 = 1 by omega, show s.toNat / 8 = 0 by omega] <;> (try simp only [decide_eq_true_eq, Bool.and_eq_true]) <;> first | omega | exact ⟨decide_eq_true (by omega), by omega⟩⟩
theorem FieldTrip.amoand (t : AmoTy) (d : Gpr) (k : Kr) (x : Idx) (s : BitVec 3) : Statement (.amoand t d k x s) := by
  intro hw f hf; cases hf
  cases x with
  | reg zx =>
    have := d.isLt
    have := k.isLt
    have := s.isLt
    have := zx.isLt
    cases t <;> (try simp [Instr.wf, AmoTy.code, Idx.wf] at hw) <;> (try simp only [Fields.putIdx, Fields.putImm, AmoTy.code, Nat.reduceMul, Nat.reduceAdd, Nat.reduceDiv, Nat.reduceMod, rowOf, row5, Fields.q6, Fields.rc, Nat.reduceLeDiff, ge_iff_le, Nat.reduceEqDiff, ↓reduceIte, Nat.zero_add, Nat.zero_div, Nat.zero_ne_one, Nat.zero_mod, plus8, show (s.toNat + 8) / 8 = 1 by omega, show s.toNat / 8 = 0 by omega]) <;> refine ⟨by simp [InRange, AmoTy.code] <;> (try simp only [decide_eq_true_eq, Bool.and_eq_true]) <;> first | omega | exact ⟨decide_eq_true (by omega), by omega⟩, _, rfl, by simp [Fields.q6, Fields.rc, Legal, FieldKind.baseOk, FieldKind.highOk, AmoTy.code] <;> (try simp only [decide_eq_true_eq, Bool.and_eq_true]) <;> first | omega | exact ⟨decide_eq_true (by omega), by omega⟩, by simp [Fields.q6, Fields.rc, ofFields, ofFields5, chain, AmoTy.ofCode, AmoTy.code, Fields.putIdx, Fields.getIdx, Fields.putImm, Fields.getImm, Fields.immN, eta4] <;> (try simp only [decide_eq_true_eq, Bool.and_eq_true]) <;> first | omega | exact ⟨decide_eq_true (by omega), by omega⟩⟩
  | imm zx =>
    have := d.isLt
    have := k.isLt
    have := s.isLt
    have hv : zx.wf 4 = true := by simp only [Instr.wf, Idx.wf, Bool.and_eq_true] at hw <;> first | exact hw | exact hw.1 | exact hw.1.1
    obtain ⟨h1, h2, h3, h4⟩ := imm4 hv
    cases t <;> (try simp [Instr.wf, AmoTy.code, Idx.wf] at hw) <;> (try simp only [Fields.putIdx, Fields.putImm, AmoTy.code, Nat.reduceMul, Nat.reduceAdd, Nat.reduceDiv, Nat.reduceMod, rowOf, row5, Fields.q6, Fields.rc, Nat.reduceLeDiff, ge_iff_le, Nat.reduceEqDiff, ↓reduceIte, Nat.zero_add, Nat.zero_div, Nat.zero_ne_one, Nat.zero_mod, plus8, show (s.toNat + 8) / 8 = 1 by omega, show s.toNat / 8 = 0 by omega]) <;> refine ⟨by simp [InRange, AmoTy.code, plus8, show (s.toNat + 8) / 8 = 1 by omega, show s.toNat / 8 = 0 by omega, Fields.putImm] <;> (try simp only [decide_eq_true_eq, Bool.and_eq_true]) <;> first | omega | exact ⟨decide_eq_true (by omega), by omega⟩, _, rfl, by simp [Fields.q6, Fields.rc, Legal, FieldKind.baseOk, FieldKind.highOk, AmoTy.code, Fields.putImm] <;> (try simp only [decide_eq_true_eq, Bool.and_eq_true]) <;> first | omega | exact ⟨decide_eq_true (by omega), by omega⟩, by simp [Fields.q6, Fields.rc, ofFields, ofFields5, chain, AmoTy.ofCode, AmoTy.code, Fields.putIdx, Fields.getIdx, Fields.putImm, Fields.getImm, Fields.immN, eta4, plus8, show (s.toNat + 8) / 8 = 1 by omega, show s.toNat / 8 = 0 by omega] <;> (try simp only [decide_eq_true_eq, Bool.and_eq_true]) <;> first | omega | exact ⟨decide_eq_true (by omega), by omega⟩⟩
theorem FieldTrip.amoor (t : AmoTy) (d : Gpr) (k : Kr) (x : Idx) (s : BitVec 3) : Statement (.amoor t d k x s) := by
  intro hw f hf; cases hf
  cases x with
  | reg zx =>
    have := d.isLt
    have := k.isLt
    have := s.isLt
    have := zx.isLt
    cases t <;> (try simp [Instr.wf, AmoTy.code, Idx.wf] at hw) <;> (try simp only [Fields.putIdx, Fields.putImm, AmoTy.code, Nat.reduceMul, Nat.reduceAdd, Nat.reduceDiv, Nat.reduceMod, rowOf, row5, Fields.q6, Fields.rc, Nat.reduceLeDiff, ge_iff_le, Nat.reduceEqDiff, ↓reduceIte, Nat.zero_add, Nat.zero_div, Nat.zero_ne_one, Nat.zero_mod, plus8, show (s.toNat + 8) / 8 = 1 by omega, show s.toNat / 8 = 0 by omega]) <;> refine ⟨by simp [InRange, AmoTy.code] <;> (try simp only [decide_eq_true_eq, Bool.and_eq_true]) <;> first | omega | exact ⟨decide_eq_true (by omega), by omega⟩, _, rfl, by simp [Fields.q6, Fields.rc, Legal, FieldKind.baseOk, FieldKind.highOk, AmoTy.code] <;> (try simp only [decide_eq_true_eq, Bool.and_eq_true]) <;> first | omega | exact ⟨decide_eq_true (by omega), by omega⟩, by simp [Fields.q6, Fields.rc, ofFields, ofFields5, chain, AmoTy.ofCode, AmoTy.code, Fields.putIdx, Fields.getIdx, Fields.putImm, Fields.getImm, Fields.immN, eta4] <;> (try simp only [decide_eq_true_eq, Bool.and_eq_true]) <;> first | omega | exact ⟨decide_eq_true (by omega), by omega⟩⟩
  | imm zx =>
    have := d.isLt
    have := k.isLt
    have := s.isLt
    have hv : zx.wf 4 = true := by simp only [Instr.wf, Idx.wf, Bool.and_eq_true] at hw <;> first | exact hw | exact hw.1 | exact hw.1.1
    obtain ⟨h1, h2, h3, h4⟩ := imm4 hv
    cases t <;> (try simp [Instr.wf, AmoTy.code, Idx.wf] at hw) <;> (try simp only [Fields.putIdx, Fields.putImm, AmoTy.code, Nat.reduceMul, Nat.reduceAdd, Nat.reduceDiv, Nat.reduceMod, rowOf, row5, Fields.q6, Fields.rc, Nat.reduceLeDiff, ge_iff_le, Nat.reduceEqDiff, ↓reduceIte, Nat.zero_add, Nat.zero_div, Nat.zero_ne_one, Nat.zero_mod, plus8, show (s.toNat + 8) / 8 = 1 by omega, show s.toNat / 8 = 0 by omega]) <;> refine ⟨by simp [InRange, AmoTy.code, plus8, show (s.toNat + 8) / 8 = 1 by omega, show s.toNat / 8 = 0 by omega, Fields.putImm] <;> (try simp only [decide_eq_true_eq, Bool.and_eq_true]) <;> first | omega | exact ⟨decide_eq_true (by omega), by omega⟩, _, rfl, by simp [Fields.q6, Fields.rc, Legal, FieldKind.baseOk, FieldKind.highOk, AmoTy.code, Fields.putImm] <;> (try simp only [decide_eq_true_eq, Bool.and_eq_true]) <;> first | omega | exact ⟨decide_eq_true (by omega), by omega⟩, by simp [Fields.q6, Fields.rc, ofFields, ofFields5, chain, AmoTy.ofCode, AmoTy.code, Fields.putIdx, Fields.getIdx, Fields.putImm, Fields.getImm, Fields.immN, eta4, plus8, show (s.toNat + 8) / 8 = 1 by omega, show s.toNat / 8 = 0 by omega] <;> (try simp only [decide_eq_true_eq, Bool.and_eq_true]) <;> first | omega | exact ⟨decide_eq_true (by omega), by omega⟩⟩
theorem FieldTrip.amoxor (t : AmoTy) (d : Gpr) (k : Kr) (x : Idx) (s : BitVec 3) : Statement (.amoxor t d k x s) := by
  intro hw f hf; cases hf
  cases x with
  | reg zx =>
    have := d.isLt
    have := k.isLt
    have := s.isLt
    have := zx.isLt
    cases t <;> (try simp [Instr.wf, AmoTy.code, Idx.wf] at hw) <;> (try simp only [Fields.putIdx, Fields.putImm, AmoTy.code, Nat.reduceMul, Nat.reduceAdd, Nat.reduceDiv, Nat.reduceMod, rowOf, row5, Fields.q6, Fields.rc, Nat.reduceLeDiff, ge_iff_le, Nat.reduceEqDiff, ↓reduceIte, Nat.zero_add, Nat.zero_div, Nat.zero_ne_one, Nat.zero_mod, plus8, show (s.toNat + 8) / 8 = 1 by omega, show s.toNat / 8 = 0 by omega]) <;> refine ⟨by simp [InRange, AmoTy.code] <;> (try simp only [decide_eq_true_eq, Bool.and_eq_true]) <;> first | omega | exact ⟨decide_eq_true (by omega), by omega⟩, _, rfl, by simp [Fields.q6, Fields.rc, Legal, FieldKind.baseOk, FieldKind.highOk, AmoTy.code] <;> (try simp only [decide_eq_true_eq, Bool.and_eq_true]) <;> first | omega | exact ⟨decide_eq_true (by omega), by omega⟩, by simp [Fields.q6, Fields.rc, ofFields, ofFields5, chain, AmoTy.ofCode, AmoTy.code, Fields.putIdx, Fields.getIdx, Fields.putImm, Fields.getImm, Fields.immN, eta4] <;> (try simp only [decide_eq_true_eq, Bool.and_eq_true]) <;> first | omega | exact ⟨decide_eq_true (by omega), by omega⟩⟩
  | imm zx =>
    have := d.isLt
    have := k.isLt
    have := s.isLt
    have hv : zx.wf 4 = true := by simp only [Instr.wf, Idx.wf, Bool.and_eq_true] at hw <;> first | exact hw | exact hw.1 | exact hw.1.1
    obtain ⟨h1, h2, h3, h4⟩ := imm4 hv
    cases t <;> (try simp [Instr.wf, AmoTy.code, Idx.wf] at hw) <;> (try simp only [Fields.putIdx, Fields.putImm, AmoTy.code, Nat.reduceMul, Nat.reduceAdd, Nat.reduceDiv, Nat.reduceMod, rowOf, row5, Fields.q6, Fields.rc, Nat.reduceLeDiff, ge_iff_le, Nat.reduceEqDiff, ↓reduceIte, Nat.zero_add, Nat.zero_div, Nat.zero_ne_one, Nat.zero_mod, plus8, show (s.toNat + 8) / 8 = 1 by omega, show s.toNat / 8 = 0 by omega]) <;> refine ⟨by simp [InRange, AmoTy.code, plus8, show (s.toNat + 8) / 8 = 1 by omega, show s.toNat / 8 = 0 by omega, Fields.putImm] <;> (try simp only [decide_eq_true_eq, Bool.and_eq_true]) <;> first | omega | exact ⟨decide_eq_true (by omega), by omega⟩, _, rfl, by simp [Fields.q6, Fields.rc, Legal, FieldKind.baseOk, FieldKind.highOk, AmoTy.code, Fields.putImm] <;> (try simp only [decide_eq_true_eq, Bool.and_eq_true]) <;> first | omega | exact ⟨decide_eq_true (by omega), by omega⟩, by simp [Fields.q6, Fields.rc, ofFields, ofFields5, chain, AmoTy.ofCode, AmoTy.code, Fields.putIdx, Fields.getIdx, Fields.putImm, Fields.getImm, Fields.immN, eta4, plus8, show (s.toNat + 8) / 8 = 1 by omega, show s.toNat / 8 = 0 by omega] <;> (try simp only [decide_eq_true_eq, Bool.and_eq_true]) <;> first | omega | exact ⟨decide_eq_true (by omega), by omega⟩⟩
theorem FieldTrip.amoswap (t : AmoTy) (d : Gpr) (k : Kr) (x : Idx) (s : BitVec 3) : Statement (.amoswap t d k x s) := by
  intro hw f hf; cases hf
  cases x with
  | reg zx =>
    have := d.isLt
    have := k.isLt
    have := s.isLt
    have := zx.isLt
    cases t <;> (try simp [Instr.wf, AmoTy.code, Idx.wf] at hw) <;> (try simp only [Fields.putIdx, Fields.putImm, AmoTy.code, Nat.reduceMul, Nat.reduceAdd, Nat.reduceDiv, Nat.reduceMod, rowOf, row5, Fields.q6, Fields.rc, Nat.reduceLeDiff, ge_iff_le, Nat.reduceEqDiff, ↓reduceIte, Nat.zero_add, Nat.zero_div, Nat.zero_ne_one, Nat.zero_mod, plus8, show (s.toNat + 8) / 8 = 1 by omega, show s.toNat / 8 = 0 by omega]) <;> refine ⟨by simp [InRange, AmoTy.code] <;> (try simp only [decide_eq_true_eq, Bool.and_eq_true]) <;> first | omega | exact ⟨decide_eq_true (by omega), by omega⟩, _, rfl, by simp [Fields.q6, Fields.rc, Legal, FieldKind.baseOk, FieldKind.highOk, AmoTy.code] <;> (try simp only [decide_eq_true_eq, Bool.and_eq_true]) <;> first | omega | exact ⟨decide_eq_true (by omega), by omega⟩, by simp [Fields.q6, Fields.rc, ofFields, ofFields5, chain, AmoTy.ofCode, AmoTy.code, Fields.putIdx, Fields.getIdx, Fields.putImm, Fields.getImm, Fields.immN, eta4] <;> (try simp only [decide_eq_true_eq, Bool.and_eq_true]) <;> first | omega | exact ⟨decide_eq_true (by omega), by omega⟩⟩
  | imm zx =>
    have := d.isLt
    have := k.isLt
    have := s.isLt
    have hv : zx.wf 4 = true := by simp only [Instr.wf, Idx.wf, Bool.and_eq_true] at hw <;> first | exact hw | exact hw.1 | exact hw.1.1
    obtain ⟨h1, h2, h3, h4⟩ := imm4 hv
    cases t <;> (try simp [Instr.wf, AmoTy.code, Idx.wf] at hw) <;> (try simp only [Fields.putIdx, Fields.putImm, AmoTy.code, Nat.reduceMul, Nat.reduceAdd, Nat.reduceDiv, Nat.reduceMod, rowOf, row5, Fields.q6, Fields.rc, Nat.reduceLeDiff, ge_iff_le, Nat.reduceEqDiff, ↓reduceIte, Nat.zero_add, Nat.zero_div, Nat.zero_ne_one, Nat.zero_mod, plus8, show (s.toNat + 8) / 8 = 1 by omega, show s.toNat / 8 = 0 by omega]) <;> refine ⟨by simp [InRange, AmoTy.code, plus8, show (s.toNat + 8) / 8 = 1 by omega, show s.toNat / 8 = 0 by omega, Fields.putImm] <;> (try simp only [decide_eq_true_eq, Bool.and_eq_true]) <;> first | omega | exact ⟨decide_eq_true (by omega), by omega⟩, _, rfl, by simp [Fields.q6, Fields.rc, Legal, FieldKind.baseOk, FieldKind.highOk, AmoTy.code, Fields.putImm] <;> (try simp only [decide_eq_true_eq, Bool.and_eq_true]) <;> first | omega | exact ⟨decide_eq_true (by omega), by omega⟩, by simp [Fields.q6, Fields.rc, ofFields, ofFields5, chain, AmoTy.ofCode, AmoTy.code, Fields.putIdx, Fields.getIdx, Fields.putImm, Fields.getImm, Fields.immN, eta4, plus8, show (s.toNat + 8) / 8 = 1 by omega, show s.toNat / 8 = 0 by omega] <;> (try simp only [decide_eq_true_eq, Bool.and_eq_true]) <;> first | omega | exact ⟨decide_eq_true (by omega), by omega⟩⟩
theorem FieldTrip.cas (t : AmoTy) (d : Gpr) (k : Kr) (x : Idx) : Statement (.cas t d k x) := by
  intro hw f hf; cases hf
  cases x with
  | reg zx =>
    have := d.isLt
    have := k.isLt
    have := zx.isLt
    cases t <;> (try simp [Instr.wf, AmoTy.code, evenGpr, Idx.wf] at hw) <;> (try simp only [Fields.putIdx, Fields.putImm, AmoTy.code, Nat.reduceMul, Nat.reduceAdd, Nat.reduceDiv, Nat.reduceMod, rowOf, row5, Fields.q6, Fields.rc, Nat.reduceLeDiff, ge_iff_le, Nat.reduceEqDiff, ↓reduceIte, Nat.zero_add, Nat.zero_div, Nat.zero_ne_one, Nat.zero_mod]) <;> refine ⟨by simp [InRange, AmoTy.code] <;> (try simp only [decide_eq_true_eq, Bool.and_eq_true]) <;> first | omega | exact ⟨decide_eq_true (by omega), by omega⟩, _, rfl, by simp [Fields.q6, Fields.rc, Legal, FieldKind.baseOk, FieldKind.highOk, AmoTy.code, evenGpr] <;> (try simp only [decide_eq_true_eq, Bool.and_eq_true]) <;> first | omega | exact ⟨decide_eq_true (by omega), by omega⟩, by simp [Fields.q6, Fields.rc, ofFields, ofFields5, chain, AmoTy.ofCode, AmoTy.code, Fields.putIdx, Fields.getIdx, Fields.putImm, Fields.getImm, Fields.immN, eta4] <;> (try simp only [decide_eq_true_eq, Bool.and_eq_true]) <;> first | omega | exact ⟨decide_eq_true (by omega), by omega⟩⟩
  | imm zx =>
    have := d.isLt
    have := k.isLt
    have hv : zx.wf 4 = true := by simp only [Instr.wf, Idx.wf, Bool.and_eq_true] at hw <;> first | exact hw | exact hw.1 | exact hw.1.1
    obtain ⟨h1, h2, h3, h4⟩ := imm4 hv
    cases t <;> (try simp [Instr.wf, AmoTy.code, evenGpr, Idx.wf] at hw) <;> (try simp only [Fields.putIdx, Fields.putImm, AmoTy.code, Nat.reduceMul, Nat.reduceAdd, Nat.reduceDiv, Nat.reduceMod, rowOf, row5, Fields.q6, Fields.rc, Nat.reduceLeDiff, ge_iff_le, Nat.reduceEqDiff, ↓reduceIte, Nat.zero_add, Nat.zero_div, Nat.zero_ne_one, Nat.zero_mod]) <;> refine ⟨by simp [InRange, AmoTy.code, Fields.putImm] <;> (try simp only [decide_eq_true_eq, Bool.and_eq_true]) <;> first | omega | exact ⟨decide_eq_true (by omega), by omega⟩, _, rfl, by simp [Fields.q6, Fields.rc, Legal, FieldKind.baseOk, FieldKind.highOk, AmoTy.code, evenGpr, Fields.putImm] <;> (try simp only [decide_eq_true_eq, Bool.and_eq_true]) <;> first | omega | exact ⟨decide_eq_true (by omega), by omega⟩, by simp [Fields.q6, Fields.rc, ofFields, ofFields5, chain, AmoTy.ofCode, AmoTy.code, Fields.putIdx, Fields.getIdx, Fields.putImm, Fields.getImm, Fields.immN, eta4] <;> (try simp only [decide_eq_true_eq, Bool.and_eq_true]) <;> first | omega | exact ⟨decide_eq_true (by omega), by omega⟩⟩
theorem FieldTrip.ldc (d : Gpr) (k : Kr) (x : Idx) : Statement (.ldc d k x) := by
  intro hw f hf; cases hf
  cases x with
  | reg zx =>
    have := d.isLt
    have := k.isLt
    have := zx.isLt
    (try simp [Instr.wf, Idx.wf] at hw) <;> (try simp only [Fields.putIdx, Fields.putImm, Nat.reduceMul, Nat.reduceAdd, Nat.reduceDiv, Nat.reduceMod, rowOf, row5, Fields.q6, Fields.rc, Nat.reduceLeDiff, ge_iff_le, Nat.reduceEqDiff, ↓reduceIte, Nat.zero_add, Nat.zero_div, Nat.zero_ne_one, Nat.zero_mod]) <;> refine ⟨by simp [InRange] <;> (try simp only [decide_eq_true_eq, Bool.and_eq_true]) <;> first | omega | exact ⟨decide_eq_true (by omega), by omega⟩, _, rfl, by simp [Fields.q6, Fields.rc, Legal, FieldKind.baseOk, FieldKind.highOk] <;> (try simp only [decide_eq_true_eq, Bool.and_eq_true]) <;> first | omega | exact ⟨decide_eq_true (by omega), by omega⟩, by simp [Fields.q6, Fields.rc, ofFields, ofFields5, chain, Fields.putIdx, Fields.getIdx, Fields.putImm, Fields.getImm, Fields.immN, eta4] <;> (try simp only [decide_eq_true_eq, Bool.and_eq_true]) <;> first | omega | exact ⟨decide_eq_true (by omega), by omega⟩⟩
  | imm zx =>
    have := d.isLt
    have := k.isLt
    have hv : zx.wf 4 = true := by simp only [Instr.wf, Idx.wf, Bool.and_eq_true] at hw <;> first | exact hw | exact hw.1 | exact hw.1.1
    obtain ⟨h1, h2, h3, h4⟩ := imm4 hv
    (try simp [Instr.wf, Idx.wf] at hw) <;> (try simp only [Fields.putIdx, Fields.putImm, Nat.reduceMul, Nat.reduceAdd, Nat.reduceDiv, Nat.reduceMod, rowOf, row5, Fields.q6, Fields.rc, Nat.reduceLeDiff, ge_iff_le, Nat.reduceEqDiff, ↓reduceIte, Nat.zero_add, Nat.zero_div, Nat.zero_ne_one, Nat.zero_mod]) <;> refine ⟨by simp [InRange, Fields.putImm] <;> (try simp only [decide_eq_true_eq, Bool.and_eq_true]) <;> first | omega | exact ⟨decide_eq_true (by omega), by omega⟩, _, rfl, by simp [Fields.q6, Fields.rc, Legal, FieldKind.baseOk, FieldKind.highOk, Fields.putImm] <;> (try simp only [decide_eq_true_eq, Bool.and_eq_true]) <;> first | omega | exact ⟨decide_eq_true (by omega), by omega⟩, by simp [Fields.q6, Fields.rc, ofFields, ofFields5, chain, Fields.putIdx, Fields.getIdx, Fields.putImm, Fields.getImm, Fields.immN, eta4] <;> (try simp only [decide_eq_true_eq, Bool.and_eq_true]) <;> first | omega | exact ⟨decide_eq_true (by omega), by omega⟩⟩
theorem FieldTrip.ldf (d : Gpr) (k : Kr) (x : Idx) : Statement (.ldf d k x) := by
  intro hw f hf; cases hf
  cases x with
  | reg zx =>
    have := d.isLt
    have := k.isLt
    have := zx.isLt
    (try simp [Instr.wf, Idx.wf] at hw) <;> (try simp only [Fields.putIdx, Fields.putImm, Nat.reduceMul, Nat.reduceAdd, Nat.reduceDiv, Nat.reduceMod, rowOf, row5, Fields.q6, Fields.rc, Nat.reduceLeDiff, ge_iff_le, Nat.reduceEqDiff, ↓reduceIte, Nat.zero_add, Nat.zero_div, Nat.zero_ne_one, Nat.zero_mod]) <;> refine ⟨by simp [InRange] <;> (try simp only [decide_eq_true_eq, Bool.and_eq_true]) <;> first | omega | exact ⟨decide_eq_true (by omega), by omega⟩, _, rfl, by simp [Fields.q6, Fields.rc, Legal, FieldKind.baseOk, FieldKind.highOk] <;> (try simp only [decide_eq_true_eq, Bool.and_eq_true]) <;> first | omega | exact ⟨decide_eq_true (by omega), by omega⟩, by simp [Fields.q6, Fields.rc, ofFields, ofFields5, chain, Fields.putIdx, Fields.getIdx, Fields.putImm, Fields.getImm, Fields.immN, eta4] <;> (try simp only [decide_eq_true_eq, Bool.and_eq_true]) <;> first | omega | exact ⟨decide_eq_true (by omega), by omega⟩⟩
  | imm zx =>
    have := d.isLt
    have := k.isLt
    have hv : zx.wf 4 = true := by simp only [Instr.wf, Idx.wf, Bool.and_eq_true] at hw <;> first | exact hw | exact hw.1 | exact hw.1.1
    obtain ⟨h1, h2, h3, h4⟩ := imm4 hv
    (try simp [Instr.wf, Idx.wf] at hw) <;> (try simp only [Fields.putIdx, Fields.putImm, Nat.reduceMul, Nat.reduceAdd, Nat.reduceDiv, Nat.reduceMod, rowOf, row5, Fields.q6, Fields.rc, Nat.reduceLeDiff, ge_iff_le, Nat.reduceEqDiff, ↓reduceIte, Nat.zero_add, Nat.zero_div, Nat.zero_ne_one, Nat.zero_mod]) <;> refine ⟨by simp [InRange, Fields.putImm] <;> (try simp only [decide_eq_true_eq, Bool.and_eq_true]) <;> first | omega | exact ⟨decide_eq_true (by omega), by omega⟩, _, rfl, by simp [Fields.q6, Fields.rc, Legal, FieldKind.baseOk, FieldKind.highOk, Fields.putImm] <;> (try simp only [decide_eq_true_eq, Bool.and_eq_true]) <;> first | omega | exact ⟨decide_eq_true (by omega), by omega⟩, by simp [Fields.q6, Fields.rc, ofFields, ofFields5, chain, Fields.putIdx, Fields.getIdx, Fields.putImm, Fields.getImm, Fields.immN, eta4] <;> (try simp only [decide_eq_true_eq, Bool.and_eq_true]) <;> first | omega | exact ⟨decide_eq_true (by omega), by omega⟩⟩
theorem FieldTrip.stp (d : Gpr) (k : Kr) (x : Idx) : Statement (.stp d k x) := by
  intro hw f hf; cases hf
  cases x with
  | reg zx =>
    have := d.isLt
    have := k.isLt
    have := zx.isLt
    (try simp [Instr.wf, Idx.wf] at hw) <;> (try simp only [Fields.putIdx, Fields.putImm, Nat.reduceMul, Nat.reduceAdd, Nat.reduceDiv, Nat.reduceMod, rowOf, row5, Fields.q6, Fields.rc, Nat.reduceLeDiff, ge_iff_le, Nat.reduceEqDiff, ↓reduceIte, Nat.zero_add, Nat.zero_div, Nat.zero_ne_one, Nat.zero_mod]) <;> refine ⟨by simp [InRange] <;> (try simp only [decide_eq_true_eq, Bool.and_eq_true]) <;> first | omega | exact ⟨decide_eq_true (by omega), by omega⟩, _, rfl, by simp [Fields.q6, Fields.rc, Legal, FieldKind.baseOk, FieldKind.highOk] <;> (try simp only [decide_eq_true_eq, Bool.and_eq_true]) <;> first | omega | exact ⟨decide_eq_true (by omega), by omega⟩, by simp [Fields.q6, Fields.rc, ofFields, ofFields5, chain, Fields.putIdx, Fields.getIdx, Fields.putImm, Fields.getImm, Fields.immN, eta4] <;> (try simp only [decide_eq_true_eq, Bool.and_eq_true]) <;> first | omega | exact ⟨decide_eq_true (by omega), by omega⟩⟩
  | imm zx =>
    have := d.isLt
    have := k.isLt
    have hv : zx.wf 4 = true := by simp only [Instr.wf, Idx.wf, Bool.and_eq_true] at hw <;> first | exact hw | exact hw.1 | exact hw.1.1
    obtain ⟨h1, h2, h3, h4⟩ := imm4 hv
    (try simp [Instr.wf, Idx.wf] at hw) <;> (try simp only [Fields.putIdx, Fields.putImm, Nat.reduceMul, Nat.reduceAdd, Nat.reduceDiv, Nat.reduceMod, rowOf, row5, Fields.q6, Fields.rc, Nat.reduceLeDiff, ge_iff_le, Nat.reduceEqDiff, ↓reduceIte, Nat.zero_add, Nat.zero_div, Nat.zero_ne_one, Nat.zero_mod]) <;> refine ⟨by simp [InRange, Fields.putImm] <;> (try simp only [decide_eq_true_eq, Bool.and_eq_true]) <;> first | omega | exact ⟨decide_eq_true (by omega), by omega⟩, _, rfl, by simp [Fields.q6, Fields.rc, Legal, FieldKind.baseOk, FieldKind.highOk, Fields.putImm] <;> (try simp only [decide_eq_true_eq, Bool.and_eq_true]) <;> first | omega | exact ⟨decide_eq_true (by omega), by omega⟩, by simp [Fields.q6, Fields.rc, ofFields, ofFields5, chain, Fields.putIdx, Fields.getIdx, Fields.putImm, Fields.getImm, Fields.immN, eta4] <;> (try simp only [decide_eq_true_eq, Bool.and_eq_true]) <;> first | omega | exact ⟨decide_eq_true (by omega), by omega⟩⟩
theorem FieldTrip.sete (k : Kr) (x : Idx) : Statement (.sete k x) := by
  intro hw f hf; cases hf
  cases x with
  | reg zx =>
    have := k.isLt
    have := zx.isLt
    (try simp [Instr.wf, Idx.wf] at hw) <;> (try simp only [Fields.putIdx, Fields.putImm, Nat.reduceMul, Nat.reduceAdd, Nat.reduceDiv, Nat.reduceMod, rowOf, row5, Fields.q6, Fields.rc, Nat.reduceLeDiff, ge_iff_le, Nat.reduceEqDiff, ↓reduceIte, Nat.zero_add, Nat.zero_div, Nat.zero_ne_one, Nat.zero_mod]) <;> refine ⟨by simp [InRange] <;> (try simp only [decide_eq_true_eq, Bool.and_eq_true]) <;> first | omega | exact ⟨decide_eq_true (by omega), by omega⟩, _, rfl, by simp [Fields.q6, Fields.rc, Legal, FieldKind.baseOk, FieldKind.highOk] <;> (try simp only [decide_eq_true_eq, Bool.and_eq_true]) <;> first | omega | exact ⟨decide_eq_true (by omega), by omega⟩, by simp [Fields.q6, Fields.rc, ofFields, ofFields5, chain, Fields.putIdx, Fields.getIdx, Fields.putImm, Fields.getImm, Fields.immN, eta4] <;> (try simp only [decide_eq_true_eq, Bool.and_eq_true]) <;> first | omega | exact ⟨decide_eq_true (by omega), by omega⟩⟩
  | imm zx =>
    have := k.isLt
    have hv : zx.wf 4 = true := by simp only [Instr.wf, Idx.wf, Bool.and_eq_true] at hw <;> first | exact hw | exact hw.1 | exact hw.1.1
    obtain ⟨h1, h2, h3, h4⟩ := imm4 hv
    (try simp [Instr.wf, Idx.wf] at hw) <;> (try simp only [Fields.putIdx, Fields.putImm, Nat.reduceMul, Nat.reduceAdd, Nat.reduceDiv, Nat.reduceMod, rowOf, row5, Fields.q6, Fields.rc, Nat.reduceLeDiff, ge_iff_le, Nat.reduceEqDiff, ↓reduceIte, Nat.zero_add, Nat.zero_div, Nat.zero_ne_one, Nat.zero_mod]) <;> refine ⟨by simp [InRange, Fields.putImm] <;> (try simp only [decide_eq_true_eq, Bool.and_eq_true]) <;> first | omega | exact ⟨decide_eq_true (by omega), by omega⟩, _, rfl, by simp [Fields.q6, Fields.rc, Legal, FieldKind.baseOk, FieldKind.highOk, Fields.putImm] <;> (try simp only [decide_eq_true_eq, Bool.and_eq_true]) <;> first | omega | exact ⟨decide_eq_true (by omega), by omega⟩, by simp [Fields.q6, Fields.rc, ofFields, ofFields5, chain, Fields.putIdx, Fields.getIdx, Fields.putImm, Fields.getImm, Fields.immN, eta4] <;> (try simp only [decide_eq_true_eq, Bool.and_eq_true]) <;> first | omega | exact ⟨decide_eq_true (by omega), by omega⟩⟩
theorem FieldTrip.setf (d : Gpr) (k : Kr) (x : Idx) : Statement (.setf d k x) := by
  intro hw f hf; cases hf
  cases x with
  | reg zx =>
    have := d.isLt
    have := k.isLt
    have := zx.isLt
    (try simp [Instr.wf, Idx.wf] at hw) <;> (try simp only [Fields.putIdx, Fields.putImm, Nat.reduceMul, Nat.reduceAdd, Nat.reduceDiv, Nat.reduceMod, rowOf, row5, Fields.q6, Fields.rc, Nat.reduceLeDiff, ge_iff_le, Nat.reduceEqDiff, ↓reduceIte, Nat.zero_add, Nat.zero_div, Nat.zero_ne_one, Nat.zero_mod]) <;> refine ⟨by simp [InRange] <;> (try simp only [decide_eq_true_eq, Bool.and_eq_true]) <;> first | omega | exact ⟨decide_eq_true (by omega), by omega⟩, _, rfl, by simp [Fields.q6, Fields.rc, Legal, FieldKind.baseOk, FieldKind.highOk] <;> (try simp only [decide_eq_true_eq, Bool.and_eq_true]) <;> first | omega | exact ⟨decide_eq_true (by omega), by omega⟩, by simp [Fields.q6, Fields.rc, ofFields, ofFields5, chain, Fields.putIdx, Fields.getIdx, Fields.putImm, Fields.getImm, Fields.immN, eta4] <;> (try simp only [decide_eq_true_eq, Bool.and_eq_true]) <;> first | omega | exact ⟨decide_eq_true (by omega), by omega⟩⟩
  | imm zx =>
    have := d.isLt
    have := k.isLt
    have hv : zx.wf 4 = true := by simp only [Instr.wf, Idx.wf, Bool.and_eq_true] at hw <;> first | exact hw | exact hw.1 | exact hw.1.1
    obtain ⟨h1, h2, h3, h4⟩ := imm4 hv
    (try simp [Instr.wf, Idx.wf] at hw) <;> (try simp only [Fields.putIdx, Fields.putImm, Nat.reduceMul, Nat.reduceAdd, Nat.reduceDiv, Nat.reduceMod, rowOf, row5, Fields.q6, Fields.rc, Nat.reduceLeDiff, ge_iff_le, Nat.reduceEqDiff, ↓reduceIte, Nat.zero_add, Nat.zero_div, Nat.zero_ne_one, Nat.zero_mod]) <;> refine ⟨by simp [InRange, Fields.putImm] <;> (try simp only [decide_eq_true_eq, Bool.and_eq_true]) <;> first | omega | exact ⟨decide_eq_true (by omega), by omega⟩, _, rfl, by simp [Fields.q6, Fields.rc, Legal, FieldKind.baseOk, FieldKind.highOk, Fields.putImm] <;> (try simp only [decide_eq_true_eq, Bool.and_eq_true]) <;> first | omega | exact ⟨decide_eq_true (by omega), by omega⟩, by simp [Fields.q6, Fields.rc, ofFields, ofFields5, chain, Fields.putIdx, Fields.getIdx, Fields.putImm, Fields.getImm, Fields.immN, eta4] <;> (try simp only [decide_eq_true_eq, Bool.and_eq_true]) <;> first | omega | exact ⟨decide_eq_true (by omega), by omega⟩⟩
theorem FieldTrip.feq (d : Gpr) (k : Kr) (x : Idx) : Statement (.feq d k x) := by
  intro hw f hf; cases hf
  cases x with
  | reg zx =>
    have := d.isLt
    have := k.isLt
    have := zx.isLt
    (try simp [Instr.wf, Idx.wf] at hw) <;> (try simp only [Fields.putIdx, Fields.putImm, Nat.reduceMul, Nat.reduceAdd, Nat.reduceDiv, Nat.reduceMod, rowOf, row5, Fields.q6, Fields.rc, Nat.reduceLeDiff, ge_iff_le, Nat.reduceEqDiff, ↓reduceIte, Nat.zero_add, Nat.zero_div, Nat.zero_ne_one, Nat.zero_mod]) <;> refine ⟨by simp [InRange] <;> (try simp only [decide_eq_true_eq, Bool.and_eq_true]) <;> first | omega | exact ⟨decide_eq_true (by omega), by omega⟩, _, rfl, by simp [Fields.q6, Fields.rc, Legal, FieldKind.baseOk, FieldKind.highOk] <;> (try simp only [decide_eq_true_eq, Bool.and_eq_true]) <;> first | omega | exact ⟨decide_eq_true (by omega), by omega⟩, by simp [Fields.q6, Fields.rc, ofFields, ofFields5, chain, Fields.putIdx, Fields.getIdx, Fields.putImm, Fields.getImm, Fields.immN, eta4] <;> (try simp only [decide_eq_true_eq, Bool.and_eq_true]) <;> first | omega | exact ⟨decide_eq_true (by omega), by omega⟩⟩
  | imm zx =>
    have := d.isLt
    have := k.isLt
    have hv : zx.wf 4 = true := by simp only [Instr.wf, Idx.wf, Bool.and_eq_true] at hw <;> first | exact hw | exact hw.1 | exact hw.1.1
    obtain ⟨h1, h2, h3, h4⟩ := imm4 hv
    (try simp [Instr.wf, Idx.wf] at hw) <;> (try simp only [Fields.putIdx, Fields.putImm, Nat.reduceMul, Nat.reduceAdd, Nat.reduceDiv, Nat.reduceMod, rowOf, row5, Fields.q6, Fields.rc, Nat.reduceLeDiff, ge_iff_le, Nat.reduceEqDiff, ↓reduceIte, Nat.zero_add, Nat.zero_div, Nat.zero_ne_one, Nat.zero_mod]) <;> refine ⟨by simp [InRange, Fields.putImm] <;> (try simp only [decide_eq_true_eq, Bool.and_eq_true]) <;> first | omega | exact ⟨decide_eq_true (by omega), by omega⟩, _, rfl, by simp [Fields.q6, Fields.rc, Legal, FieldKind.baseOk, FieldKind.highOk, Fields.putImm] <;> (try simp only [decide_eq_true_eq, Bool.and_eq_true]) <;> first | omega | exact ⟨decide_eq_true (by omega), by omega⟩, by simp [Fields.q6, Fields.rc, ofFields, ofFields5, chain, Fields.putIdx, Fields.getIdx, Fields.putImm, Fields.getImm, Fields.immN, eta4] <;> (try simp only [decide_eq_true_eq, Bool.and_eq_true]) <;> first | omega | exact ⟨decide_eq_true (by omega), by omega⟩⟩
theorem FieldTrip.swarm (sc : Scope) (d : Gpr) (k : Kr) (x : Idx) : Statement (.swarm sc d k x) := by
  intro hw f hf; cases hf
  cases x with
  | reg zx =>
    have := d.isLt
    have := k.isLt
    have := zx.isLt
    cases sc <;> (try simp [Instr.wf, Scope.code, Scope.between, Idx.wf] at hw) <;> (try simp only [Fields.putIdx, Fields.putImm, Scope.code, Nat.reduceMul, Nat.reduceAdd, Nat.reduceDiv, Nat.reduceMod]) <;> refine ⟨by simp [InRange, Scope.code] <;> (try simp only [decide_eq_true_eq, Bool.and_eq_true]) <;> first | omega | exact ⟨decide_eq_true (by omega), by omega⟩, _, rfl, by simp [Fields.q6, Fields.rc, Legal, FieldKind.baseOk, FieldKind.highOk, Scope.code] <;> (try simp only [decide_eq_true_eq, Bool.and_eq_true]) <;> first | omega | exact ⟨decide_eq_true (by omega), by omega⟩, by simp [Fields.q6, Fields.rc, ofFields, ofFields5, chain, Scope.ofCode, Scope.code, Fields.putIdx, Fields.getIdx, Fields.putImm, Fields.getImm, Fields.immN, eta4] <;> (try simp only [decide_eq_true_eq, Bool.and_eq_true]) <;> first | omega | exact ⟨decide_eq_true (by omega), by omega⟩⟩
  | imm zx =>
    have := d.isLt
    have := k.isLt
    have hv : zx.wf 4 = true := by simp only [Instr.wf, Idx.wf, Bool.and_eq_true] at hw <;> first | exact hw | exact hw.1 | exact hw.1.1
    obtain ⟨h1, h2, h3, h4⟩ := imm4 hv
    cases sc <;> (try simp [Instr.wf, Scope.code, Scope.between, Idx.wf] at hw) <;> (try simp only [Fields.putIdx, Fields.putImm, Scope.code, Nat.reduceMul, Nat.reduceAdd, Nat.reduceDiv, Nat.reduceMod]) <;> refine ⟨by simp [InRange, Scope.code, Fields.putImm] <;> (try simp only [decide_eq_true_eq, Bool.and_eq_true]) <;> first | omega | exact ⟨decide_eq_true (by omega), by omega⟩, _, rfl, by simp [Fields.q6, Fields.rc, Legal, FieldKind.baseOk, FieldKind.highOk, Scope.code, Fields.putImm] <;> (try simp only [decide_eq_true_eq, Bool.and_eq_true]) <;> first | omega | exact ⟨decide_eq_true (by omega), by omega⟩, by simp [Fields.q6, Fields.rc, ofFields, ofFields5, chain, Scope.ofCode, Scope.code, Fields.putIdx, Fields.getIdx, Fields.putImm, Fields.getImm, Fields.immN, eta4] <;> (try simp only [decide_eq_true_eq, Bool.and_eq_true]) <;> first | omega | exact ⟨decide_eq_true (by omega), by omega⟩⟩
theorem FieldTrip.swwait (d : Gpr) (k : Kr) (x : Idx) : Statement (.swwait d k x) := by
  intro hw f hf; cases hf
  cases x with
  | reg zx =>
    have := d.isLt
    have := k.isLt
    have := zx.isLt
    (try simp [Instr.wf, Idx.wf] at hw) <;> (try simp only [Fields.putIdx, Fields.putImm, Nat.reduceMul, Nat.reduceAdd, Nat.reduceDiv, Nat.reduceMod]) <;> refine ⟨by simp [InRange] <;> (try simp only [decide_eq_true_eq, Bool.and_eq_true]) <;> first | omega | exact ⟨decide_eq_true (by omega), by omega⟩, _, rfl, by simp [Fields.q6, Fields.rc, Legal, FieldKind.baseOk, FieldKind.highOk] <;> (try simp only [decide_eq_true_eq, Bool.and_eq_true]) <;> first | omega | exact ⟨decide_eq_true (by omega), by omega⟩, by simp [Fields.q6, Fields.rc, ofFields, ofFields5, chain, Fields.putIdx, Fields.getIdx, Fields.putImm, Fields.getImm, Fields.immN, eta4] <;> (try simp only [decide_eq_true_eq, Bool.and_eq_true]) <;> first | omega | exact ⟨decide_eq_true (by omega), by omega⟩⟩
  | imm zx =>
    have := d.isLt
    have := k.isLt
    have hv : zx.wf 4 = true := by simp only [Instr.wf, Idx.wf, Bool.and_eq_true] at hw <;> first | exact hw | exact hw.1 | exact hw.1.1
    obtain ⟨h1, h2, h3, h4⟩ := imm4 hv
    (try simp [Instr.wf, Idx.wf] at hw) <;> (try simp only [Fields.putIdx, Fields.putImm, Nat.reduceMul, Nat.reduceAdd, Nat.reduceDiv, Nat.reduceMod]) <;> refine ⟨by simp [InRange, Fields.putImm] <;> (try simp only [decide_eq_true_eq, Bool.and_eq_true]) <;> first | omega | exact ⟨decide_eq_true (by omega), by omega⟩, _, rfl, by simp [Fields.q6, Fields.rc, Legal, FieldKind.baseOk, FieldKind.highOk, Fields.putImm] <;> (try simp only [decide_eq_true_eq, Bool.and_eq_true]) <;> first | omega | exact ⟨decide_eq_true (by omega), by omega⟩, by simp [Fields.q6, Fields.rc, ofFields, ofFields5, chain, Fields.putIdx, Fields.getIdx, Fields.putImm, Fields.getImm, Fields.immN, eta4] <;> (try simp only [decide_eq_true_eq, Bool.and_eq_true]) <;> first | omega | exact ⟨decide_eq_true (by omega), by omega⟩⟩
theorem FieldTrip.swadd (sc : Scope) (d : Gpr) (k : Kr) (x : Idx) : Statement (.swadd sc d k x) := by
  intro hw f hf; cases hf
  cases x with
  | reg zx =>
    have := d.isLt
    have := k.isLt
    have := zx.isLt
    cases sc <;> (try simp [Instr.wf, Scope.code, Scope.between, Idx.wf] at hw) <;> (try simp only [Fields.putIdx, Fields.putImm, Scope.code, Nat.reduceMul, Nat.reduceAdd, Nat.reduceDiv, Nat.reduceMod]) <;> refine ⟨by simp [InRange, Scope.code] <;> (try simp only [decide_eq_true_eq, Bool.and_eq_true]) <;> first | omega | exact ⟨decide_eq_true (by omega), by omega⟩, _, rfl, by simp [Fields.q6, Fields.rc, Legal, FieldKind.baseOk, FieldKind.highOk, Scope.code] <;> (try simp only [decide_eq_true_eq, Bool.and_eq_true]) <;> first | omega | exact ⟨decide_eq_true (by omega), by omega⟩, by simp [Fields.q6, Fields.rc, ofFields, ofFields5, chain, Scope.ofCode, Scope.code, Fields.putIdx, Fields.getIdx, Fields.putImm, Fields.getImm, Fields.immN, eta4] <;> (try simp only [decide_eq_true_eq, Bool.and_eq_true]) <;> first | omega | exact ⟨decide_eq_true (by omega), by omega⟩⟩
  | imm zx =>
    have := d.isLt
    have := k.isLt
    have hv : zx.wf 4 = true := by simp only [Instr.wf, Idx.wf, Bool.and_eq_true] at hw <;> first | exact hw | exact hw.1 | exact hw.1.1
    obtain ⟨h1, h2, h3, h4⟩ := imm4 hv
    cases sc <;> (try simp [Instr.wf, Scope.code, Scope.between, Idx.wf] at hw) <;> (try simp only [Fields.putIdx, Fields.putImm, Scope.code, Nat.reduceMul, Nat.reduceAdd, Nat.reduceDiv, Nat.reduceMod]) <;> refine ⟨by simp [InRange, Scope.code, Fields.putImm] <;> (try simp only [decide_eq_true_eq, Bool.and_eq_true]) <;> first | omega | exact ⟨decide_eq_true (by omega), by omega⟩, _, rfl, by simp [Fields.q6, Fields.rc, Legal, FieldKind.baseOk, FieldKind.highOk, Scope.code, Fields.putImm] <;> (try simp only [decide_eq_true_eq, Bool.and_eq_true]) <;> first | omega | exact ⟨decide_eq_true (by omega), by omega⟩, by simp [Fields.q6, Fields.rc, ofFields, ofFields5, chain, Scope.ofCode, Scope.code, Fields.putIdx, Fields.getIdx, Fields.putImm, Fields.getImm, Fields.immN, eta4] <;> (try simp only [decide_eq_true_eq, Bool.and_eq_true]) <;> first | omega | exact ⟨decide_eq_true (by omega), by omega⟩⟩
theorem FieldTrip.swrd (d : Gpr) (k : Kr) (x : Idx) : Statement (.swrd d k x) := by
  intro hw f hf; cases hf
  cases x with
  | reg zx =>
    have := d.isLt
    have := k.isLt
    have := zx.isLt
    (try simp [Instr.wf, Idx.wf] at hw) <;> (try simp only [Fields.putIdx, Fields.putImm, Nat.reduceMul, Nat.reduceAdd, Nat.reduceDiv, Nat.reduceMod]) <;> refine ⟨by simp [InRange] <;> (try simp only [decide_eq_true_eq, Bool.and_eq_true]) <;> first | omega | exact ⟨decide_eq_true (by omega), by omega⟩, _, rfl, by simp [Fields.q6, Fields.rc, Legal, FieldKind.baseOk, FieldKind.highOk] <;> (try simp only [decide_eq_true_eq, Bool.and_eq_true]) <;> first | omega | exact ⟨decide_eq_true (by omega), by omega⟩, by simp [Fields.q6, Fields.rc, ofFields, ofFields5, chain, Fields.putIdx, Fields.getIdx, Fields.putImm, Fields.getImm, Fields.immN, eta4] <;> (try simp only [decide_eq_true_eq, Bool.and_eq_true]) <;> first | omega | exact ⟨decide_eq_true (by omega), by omega⟩⟩
  | imm zx =>
    have := d.isLt
    have := k.isLt
    have hv : zx.wf 4 = true := by simp only [Instr.wf, Idx.wf, Bool.and_eq_true] at hw <;> first | exact hw | exact hw.1 | exact hw.1.1
    obtain ⟨h1, h2, h3, h4⟩ := imm4 hv
    (try simp [Instr.wf, Idx.wf] at hw) <;> (try simp only [Fields.putIdx, Fields.putImm, Nat.reduceMul, Nat.reduceAdd, Nat.reduceDiv, Nat.reduceMod]) <;> refine ⟨by simp [InRange, Fields.putImm] <;> (try simp only [decide_eq_true_eq, Bool.and_eq_true]) <;> first | omega | exact ⟨decide_eq_true (by omega), by omega⟩, _, rfl, by simp [Fields.q6, Fields.rc, Legal, FieldKind.baseOk, FieldKind.highOk, Fields.putImm] <;> (try simp only [decide_eq_true_eq, Bool.and_eq_true]) <;> first | omega | exact ⟨decide_eq_true (by omega), by omega⟩, by simp [Fields.q6, Fields.rc, ofFields, ofFields5, chain, Fields.putIdx, Fields.getIdx, Fields.putImm, Fields.getImm, Fields.immN, eta4] <;> (try simp only [decide_eq_true_eq, Bool.and_eq_true]) <;> first | omega | exact ⟨decide_eq_true (by omega), by omega⟩⟩
theorem FieldTrip.bar (sc : Scope) : Statement (.bar sc) := by
  intro hw f hf; cases hf
  cases sc <;> (try simp [Instr.wf, Scope.code, Scope.between] at hw) <;> (try simp only [Scope.code, Nat.reduceMul, Nat.reduceAdd, Nat.reduceDiv, Nat.reduceMod]) <;> refine ⟨by simp [InRange, Scope.code] <;> (try simp only [decide_eq_true_eq, Bool.and_eq_true]) <;> first | omega | exact ⟨decide_eq_true (by omega), by omega⟩, _, rfl, by simp [Fields.q6, Fields.rc, Legal, FieldKind.baseOk, FieldKind.highOk, Scope.code] <;> (try simp only [decide_eq_true_eq, Bool.and_eq_true]) <;> first | omega | exact ⟨decide_eq_true (by omega), by omega⟩, by simp [Fields.q6, Fields.rc, ofFields, ofFields5, chain, Scope.ofCode, Scope.code] <;> (try simp only [decide_eq_true_eq, Bool.and_eq_true]) <;> first | omega | exact ⟨decide_eq_true (by omega), by omega⟩⟩
theorem FieldTrip.logq (d : Gpr) (a : Gpr) (s : BitVec 4) : Statement (.logq d a s) := by
  intro hw f hf; cases hf
  have := d.isLt
  have := a.isLt
  have := s.isLt
  (try simp [Instr.wf] at hw) <;> refine ⟨by simp [InRange] <;> (try simp only [decide_eq_true_eq, Bool.and_eq_true]) <;> first | omega | exact ⟨decide_eq_true (by omega), by omega⟩, _, rfl, by simp [Fields.q6, Fields.rc, Legal, FieldKind.baseOk, FieldKind.highOk] <;> (try simp only [decide_eq_true_eq, Bool.and_eq_true]) <;> first | omega | exact ⟨decide_eq_true (by omega), by omega⟩, by simp [Fields.q6, Fields.rc, ofFields, ofFields5, chain] <;> (try simp only [decide_eq_true_eq, Bool.and_eq_true]) <;> first | omega | exact ⟨decide_eq_true (by omega), by omega⟩⟩
theorem FieldTrip.mirfl (d : Gpr) (k : Kr) (b : Gpr) : Statement (.mirfl d k b) := by
  intro hw f hf; cases hf
  have := d.isLt
  have := k.isLt
  have := b.isLt
  refine ⟨by simp [InRange] <;> (try simp only [decide_eq_true_eq, Bool.and_eq_true]) <;> first | omega | exact ⟨decide_eq_true (by omega), by omega⟩, _, rfl, by simp [Fields.q6, Fields.rc, Legal, FieldKind.baseOk, FieldKind.highOk] <;> (try simp only [decide_eq_true_eq, Bool.and_eq_true]) <;> first | omega | exact ⟨decide_eq_true (by omega), by omega⟩, by simp [Fields.q6, Fields.rc, ofFields, ofFields5, chain] <;> (try simp only [decide_eq_true_eq, Bool.and_eq_true]) <;> first | omega | exact ⟨decide_eq_true (by omega), by omega⟩⟩
theorem FieldTrip.cpy (a : Vr) : Statement (.cpy a) := by
  intro hw f hf; cases hf
  have := a.isLt
  refine ⟨by simp [InRange] <;> (try simp only [decide_eq_true_eq, Bool.and_eq_true]) <;> first | omega | exact ⟨decide_eq_true (by omega), by omega⟩, _, rfl, by simp [Fields.q6, Fields.rc, Legal, FieldKind.baseOk, FieldKind.highOk] <;> (try simp only [decide_eq_true_eq, Bool.and_eq_true]) <;> first | omega | exact ⟨decide_eq_true (by omega), by omega⟩, by simp [Fields.q6, Fields.rc, ofFields, ofFields6, chain] <;> (try simp only [decide_eq_true_eq, Bool.and_eq_true]) <;> first | omega | exact ⟨decide_eq_true (by omega), by omega⟩⟩
theorem FieldTrip.cpyMulticast (a : Vr) : Statement (.cpyMulticast a) := by
  intro hw f hf; cases hf
  have := a.isLt
  refine ⟨by simp [InRange] <;> (try simp only [decide_eq_true_eq, Bool.and_eq_true]) <;> first | omega | exact ⟨decide_eq_true (by omega), by omega⟩, _, rfl, by simp [Fields.q6, Fields.rc, Legal, FieldKind.baseOk, FieldKind.highOk] <;> (try simp only [decide_eq_true_eq, Bool.and_eq_true]) <;> first | omega | exact ⟨decide_eq_true (by omega), by omega⟩, by simp [Fields.q6, Fields.rc, ofFields, ofFields6, chain] <;> (try simp only [decide_eq_true_eq, Bool.and_eq_true]) <;> first | omega | exact ⟨decide_eq_true (by omega), by omega⟩⟩
theorem FieldTrip.cpyConvert (a : Vr) : Statement (.cpyConvert a) := by
  intro hw f hf; cases hf
  have := a.isLt
  refine ⟨by simp [InRange] <;> (try simp only [decide_eq_true_eq, Bool.and_eq_true]) <;> first | omega | exact ⟨decide_eq_true (by omega), by omega⟩, _, rfl, by simp [Fields.q6, Fields.rc, Legal, FieldKind.baseOk, FieldKind.highOk] <;> (try simp only [decide_eq_true_eq, Bool.and_eq_true]) <;> first | omega | exact ⟨decide_eq_true (by omega), by omega⟩, by simp [Fields.q6, Fields.rc, ofFields, ofFields6, chain] <;> (try simp only [decide_eq_true_eq, Bool.and_eq_true]) <;> first | omega | exact ⟨decide_eq_true (by omega), by omega⟩⟩
theorem FieldTrip.cpyf (a : Vr) : Statement (.cpyf a) := by
  intro hw f hf; cases hf
  have := a.isLt
  refine ⟨by simp [InRange] <;> (try simp only [decide_eq_true_eq, Bool.and_eq_true]) <;> first | omega | exact ⟨decide_eq_true (by omega), by omega⟩, _, rfl, by simp [Fields.q6, Fields.rc, Legal, FieldKind.baseOk, FieldKind.highOk] <;> (try simp only [decide_eq_true_eq, Bool.and_eq_true]) <;> first | omega | exact ⟨decide_eq_true (by omega), by omega⟩, by simp [Fields.q6, Fields.rc, ofFields, ofFields6, chain] <;> (try simp only [decide_eq_true_eq, Bool.and_eq_true]) <;> first | omega | exact ⟨decide_eq_true (by omega), by omega⟩⟩
theorem FieldTrip.collAllreduce (sc : Scope) (a : Vr) : Statement (.collAllreduce sc a) := by
  intro hw f hf; cases hf
  have := a.isLt
  cases sc <;> (try simp [Instr.wf, Scope.code, Scope.between] at hw) <;> (try simp only [Scope.code, Nat.reduceMul, Nat.reduceAdd, Nat.reduceDiv, Nat.reduceMod]) <;> refine ⟨by simp [InRange, Scope.code] <;> (try simp only [decide_eq_true_eq, Bool.and_eq_true]) <;> first | omega | exact ⟨decide_eq_true (by omega), by omega⟩, _, rfl, by simp [Fields.q6, Fields.rc, Legal, FieldKind.baseOk, FieldKind.highOk, Scope.code] <;> (try simp only [decide_eq_true_eq, Bool.and_eq_true]) <;> first | omega | exact ⟨decide_eq_true (by omega), by omega⟩, by simp [Fields.q6, Fields.rc, ofFields, ofFields6, chain, Scope.ofCode, Scope.code] <;> (try simp only [decide_eq_true_eq, Bool.and_eq_true]) <;> first | omega | exact ⟨decide_eq_true (by omega), by omega⟩⟩
theorem FieldTrip.collReduceScatter (sc : Scope) (a : Vr) : Statement (.collReduceScatter sc a) := by
  intro hw f hf; cases hf
  have := a.isLt
  cases sc <;> (try simp [Instr.wf, Scope.code, Scope.between] at hw) <;> (try simp only [Scope.code, Nat.reduceMul, Nat.reduceAdd, Nat.reduceDiv, Nat.reduceMod]) <;> refine ⟨by simp [InRange, Scope.code] <;> (try simp only [decide_eq_true_eq, Bool.and_eq_true]) <;> first | omega | exact ⟨decide_eq_true (by omega), by omega⟩, _, rfl, by simp [Fields.q6, Fields.rc, Legal, FieldKind.baseOk, FieldKind.highOk, Scope.code] <;> (try simp only [decide_eq_true_eq, Bool.and_eq_true]) <;> first | omega | exact ⟨decide_eq_true (by omega), by omega⟩, by simp [Fields.q6, Fields.rc, ofFields, ofFields6, chain, Scope.ofCode, Scope.code] <;> (try simp only [decide_eq_true_eq, Bool.and_eq_true]) <;> first | omega | exact ⟨decide_eq_true (by omega), by omega⟩⟩
theorem FieldTrip.collAllGather (sc : Scope) (a : Vr) : Statement (.collAllGather sc a) := by
  intro hw f hf; cases hf
  have := a.isLt
  cases sc <;> (try simp [Instr.wf, Scope.code, Scope.between] at hw) <;> (try simp only [Scope.code, Nat.reduceMul, Nat.reduceAdd, Nat.reduceDiv, Nat.reduceMod]) <;> refine ⟨by simp [InRange, Scope.code] <;> (try simp only [decide_eq_true_eq, Bool.and_eq_true]) <;> first | omega | exact ⟨decide_eq_true (by omega), by omega⟩, _, rfl, by simp [Fields.q6, Fields.rc, Legal, FieldKind.baseOk, FieldKind.highOk, Scope.code] <;> (try simp only [decide_eq_true_eq, Bool.and_eq_true]) <;> first | omega | exact ⟨decide_eq_true (by omega), by omega⟩, by simp [Fields.q6, Fields.rc, ofFields, ofFields6, chain, Scope.ofCode, Scope.code] <;> (try simp only [decide_eq_true_eq, Bool.and_eq_true]) <;> first | omega | exact ⟨decide_eq_true (by omega), by omega⟩⟩
theorem FieldTrip.collXorParity (sc : Scope) (a : Vr) : Statement (.collXorParity sc a) := by
  intro hw f hf; cases hf
  have := a.isLt
  cases sc <;> (try simp [Instr.wf, Scope.code, Scope.between] at hw) <;> (try simp only [Scope.code, Nat.reduceMul, Nat.reduceAdd, Nat.reduceDiv, Nat.reduceMod]) <;> refine ⟨by simp [InRange, Scope.code] <;> (try simp only [decide_eq_true_eq, Bool.and_eq_true]) <;> first | omega | exact ⟨decide_eq_true (by omega), by omega⟩, _, rfl, by simp [Fields.q6, Fields.rc, Legal, FieldKind.baseOk, FieldKind.highOk, Scope.code] <;> (try simp only [decide_eq_true_eq, Bool.and_eq_true]) <;> first | omega | exact ⟨decide_eq_true (by omega), by omega⟩, by simp [Fields.q6, Fields.rc, ofFields, ofFields6, chain, Scope.ofCode, Scope.code] <;> (try simp only [decide_eq_true_eq, Bool.and_eq_true]) <;> first | omega | exact ⟨decide_eq_true (by omega), by omega⟩⟩
theorem FieldTrip.send (u : Bool) (d : Pr) (a : Vr) (b : Gpr) : Statement (.send u d a b) := by
  intro hw f hf; cases hf
  have := d.isLt
  have := a.isLt
  have := b.isLt
  cases u <;> (try simp only [boolCode, Nat.reduceMul, Nat.reduceAdd, Nat.reduceDiv, Nat.reduceMod]) <;> refine ⟨by simp [InRange, boolCode] <;> (try simp only [decide_eq_true_eq, Bool.and_eq_true]) <;> first | omega | exact ⟨decide_eq_true (by omega), by omega⟩, _, rfl, by simp [Fields.q6, Fields.rc, Legal, FieldKind.baseOk, FieldKind.highOk, boolCode] <;> (try simp only [decide_eq_true_eq, Bool.and_eq_true]) <;> first | omega | exact ⟨decide_eq_true (by omega), by omega⟩, by simp [Fields.q6, Fields.rc, ofFields, ofFields6, chain, boolCode] <;> (try simp only [decide_eq_true_eq, Bool.and_eq_true]) <;> first | omega | exact ⟨decide_eq_true (by omega), by omega⟩⟩
theorem FieldTrip.recv (d : Gpr) (a : Option Vr) : Statement (.recv d a) := by
  intro hw f hf; cases hf
  cases a with
  | none =>
    have := d.isLt
    (try simp only [Fields.putRecv, Nat.reduceMul, Nat.reduceAdd, Nat.reduceDiv, Nat.reduceMod]) <;> refine ⟨by simp [InRange] <;> (try simp only [decide_eq_true_eq, Bool.and_eq_true]) <;> first | omega | exact ⟨decide_eq_true (by omega), by omega⟩, _, rfl, by simp [Fields.q6, Fields.rc, Legal, FieldKind.baseOk, FieldKind.highOk] <;> (try simp only [decide_eq_true_eq, Bool.and_eq_true]) <;> first | omega | exact ⟨decide_eq_true (by omega), by omega⟩, by simp [Fields.q6, Fields.rc, ofFields, ofFields6, chain, Fields.putRecv, Fields.getRecv] <;> (try simp only [decide_eq_true_eq, Bool.and_eq_true]) <;> first | omega | exact ⟨decide_eq_true (by omega), by omega⟩⟩
  | some x =>
    have := d.isLt
    have := x.isLt
    (try simp only [Fields.putRecv, Nat.reduceMul, Nat.reduceAdd, Nat.reduceDiv, Nat.reduceMod]) <;> refine ⟨by simp [InRange] <;> (try simp only [decide_eq_true_eq, Bool.and_eq_true]) <;> first | omega | exact ⟨decide_eq_true (by omega), by omega⟩, _, rfl, by simp [Fields.q6, Fields.rc, Legal, FieldKind.baseOk, FieldKind.highOk] <;> (try simp only [decide_eq_true_eq, Bool.and_eq_true]) <;> first | omega | exact ⟨decide_eq_true (by omega), by omega⟩, by simp [Fields.q6, Fields.rc, ofFields, ofFields6, chain, Fields.putRecv, Fields.getRecv] <;> (try simp only [decide_eq_true_eq, Bool.and_eq_true]) <;> first | omega | exact ⟨decide_eq_true (by omega), by omega⟩⟩
theorem FieldTrip.rcallRd (n : BitVec 3) (d : Vr) (k : Kr) (x : Idx) : Statement (.rcallRd n d k x) := by
  intro hw f hf; cases hf
  cases x with
  | reg zx =>
    have := n.isLt
    have := d.isLt
    have := k.isLt
    have := zx.isLt
    (try simp [Instr.wf, Idx.wf] at hw) <;> (try simp only [Fields.putIdx, Fields.putImm, Nat.reduceMul, Nat.reduceAdd, Nat.reduceDiv, Nat.reduceMod, rowOf, row6, Fields.q6, Fields.rc, Nat.reduceLeDiff, ge_iff_le, Nat.reduceEqDiff, ↓reduceIte, Nat.zero_add, Nat.zero_div, Nat.zero_ne_one, Nat.zero_mod]) <;> refine ⟨by simp [InRange] <;> (try simp only [decide_eq_true_eq, Bool.and_eq_true]) <;> first | omega | exact ⟨decide_eq_true (by omega), by omega⟩, _, rfl, by simp [Fields.q6, Fields.rc, Legal, FieldKind.baseOk, FieldKind.highOk] <;> (try simp only [decide_eq_true_eq, Bool.and_eq_true]) <;> first | omega | exact ⟨decide_eq_true (by omega), by omega⟩, by simp [Fields.q6, Fields.rc, ofFields, ofFields6, chain, Fields.putIdx, Fields.getIdx, Fields.putImm, Fields.getImm, Fields.immN, eta4] <;> (try simp only [decide_eq_true_eq, Bool.and_eq_true]) <;> first | omega | exact ⟨decide_eq_true (by omega), by omega⟩⟩
  | imm zx =>
    have := n.isLt
    have := d.isLt
    have := k.isLt
    have hv : zx.wf 4 = true := by simp only [Instr.wf, Idx.wf, Bool.and_eq_true] at hw <;> first | exact hw | exact hw.1 | exact hw.1.1
    obtain ⟨h1, h2, h3, h4⟩ := imm4 hv
    (try simp [Instr.wf, Idx.wf] at hw) <;> (try simp only [Fields.putIdx, Fields.putImm, Nat.reduceMul, Nat.reduceAdd, Nat.reduceDiv, Nat.reduceMod, rowOf, row6, Fields.q6, Fields.rc, Nat.reduceLeDiff, ge_iff_le, Nat.reduceEqDiff, ↓reduceIte, Nat.zero_add, Nat.zero_div, Nat.zero_ne_one, Nat.zero_mod]) <;> refine ⟨by simp [InRange, Fields.putImm] <;> (try simp only [decide_eq_true_eq, Bool.and_eq_true]) <;> first | omega | exact ⟨decide_eq_true (by omega), by omega⟩, _, rfl, by simp [Fields.q6, Fields.rc, Legal, FieldKind.baseOk, FieldKind.highOk, Fields.putImm] <;> (try simp only [decide_eq_true_eq, Bool.and_eq_true]) <;> first | omega | exact ⟨decide_eq_true (by omega), by omega⟩, by simp [Fields.q6, Fields.rc, ofFields, ofFields6, chain, Fields.putIdx, Fields.getIdx, Fields.putImm, Fields.getImm, Fields.immN, eta4] <;> (try simp only [decide_eq_true_eq, Bool.and_eq_true]) <;> first | omega | exact ⟨decide_eq_true (by omega), by omega⟩⟩
theorem FieldTrip.rcallWr (n : BitVec 3) (d : Vr) (k : Kr) (x : Idx) : Statement (.rcallWr n d k x) := by
  intro hw f hf; cases hf
  cases x with
  | reg zx =>
    have := n.isLt
    have := d.isLt
    have := k.isLt
    have := zx.isLt
    (try simp [Instr.wf, Idx.wf] at hw) <;> (try simp only [Fields.putIdx, Fields.putImm, Nat.reduceMul, Nat.reduceAdd, Nat.reduceDiv, Nat.reduceMod, rowOf, row6, Fields.q6, Fields.rc, Nat.reduceLeDiff, ge_iff_le, Nat.reduceEqDiff, ↓reduceIte, Nat.zero_add, Nat.zero_div, Nat.zero_ne_one, Nat.zero_mod]) <;> refine ⟨by simp [InRange] <;> (try simp only [decide_eq_true_eq, Bool.and_eq_true]) <;> first | omega | exact ⟨decide_eq_true (by omega), by omega⟩, _, rfl, by simp [Fields.q6, Fields.rc, Legal, FieldKind.baseOk, FieldKind.highOk] <;> (try simp only [decide_eq_true_eq, Bool.and_eq_true]) <;> first | omega | exact ⟨decide_eq_true (by omega), by omega⟩, by simp [Fields.q6, Fields.rc, ofFields, ofFields6, chain, Fields.putIdx, Fields.getIdx, Fields.putImm, Fields.getImm, Fields.immN, eta4] <;> (try simp only [decide_eq_true_eq, Bool.and_eq_true]) <;> first | omega | exact ⟨decide_eq_true (by omega), by omega⟩⟩
  | imm zx =>
    have := n.isLt
    have := d.isLt
    have := k.isLt
    have hv : zx.wf 4 = true := by simp only [Instr.wf, Idx.wf, Bool.and_eq_true] at hw <;> first | exact hw | exact hw.1 | exact hw.1.1
    obtain ⟨h1, h2, h3, h4⟩ := imm4 hv
    (try simp [Instr.wf, Idx.wf] at hw) <;> (try simp only [Fields.putIdx, Fields.putImm, Nat.reduceMul, Nat.reduceAdd, Nat.reduceDiv, Nat.reduceMod, rowOf, row6, Fields.q6, Fields.rc, Nat.reduceLeDiff, ge_iff_le, Nat.reduceEqDiff, ↓reduceIte, Nat.zero_add, Nat.zero_div, Nat.zero_ne_one, Nat.zero_mod]) <;> refine ⟨by simp [InRange, Fields.putImm] <;> (try simp only [decide_eq_true_eq, Bool.and_eq_true]) <;> first | omega | exact ⟨decide_eq_true (by omega), by omega⟩, _, rfl, by simp [Fields.q6, Fields.rc, Legal, FieldKind.baseOk, FieldKind.highOk, Fields.putImm] <;> (try simp only [decide_eq_true_eq, Bool.and_eq_true]) <;> first | omega | exact ⟨decide_eq_true (by omega), by omega⟩, by simp [Fields.q6, Fields.rc, ofFields, ofFields6, chain, Fields.putIdx, Fields.getIdx, Fields.putImm, Fields.getImm, Fields.immN, eta4] <;> (try simp only [decide_eq_true_eq, Bool.and_eq_true]) <;> first | omega | exact ⟨decide_eq_true (by omega), by omega⟩⟩
theorem FieldTrip.rcallAdd (d : Vr) (k : Kr) (x : Idx) : Statement (.rcallAdd d k x) := by
  intro hw f hf; cases hf
  cases x with
  | reg zx =>
    have := d.isLt
    have := k.isLt
    have := zx.isLt
    (try simp [Instr.wf, Idx.wf] at hw) <;> (try simp only [Fields.putIdx, Fields.putImm, Nat.reduceMul, Nat.reduceAdd, Nat.reduceDiv, Nat.reduceMod, rowOf, row6, Fields.q6, Fields.rc, Nat.reduceLeDiff, ge_iff_le, Nat.reduceEqDiff, ↓reduceIte, Nat.zero_add, Nat.zero_div, Nat.zero_ne_one, Nat.zero_mod]) <;> refine ⟨by simp [InRange] <;> (try simp only [decide_eq_true_eq, Bool.and_eq_true]) <;> first | omega | exact ⟨decide_eq_true (by omega), by omega⟩, _, rfl, by simp [Fields.q6, Fields.rc, Legal, FieldKind.baseOk, FieldKind.highOk] <;> (try simp only [decide_eq_true_eq, Bool.and_eq_true]) <;> first | omega | exact ⟨decide_eq_true (by omega), by omega⟩, by simp [Fields.q6, Fields.rc, ofFields, ofFields6, chain, Fields.putIdx, Fields.getIdx, Fields.putImm, Fields.getImm, Fields.immN, eta4] <;> (try simp only [decide_eq_true_eq, Bool.and_eq_true]) <;> first | omega | exact ⟨decide_eq_true (by omega), by omega⟩⟩
  | imm zx =>
    have := d.isLt
    have := k.isLt
    have hv : zx.wf 4 = true := by simp only [Instr.wf, Idx.wf, Bool.and_eq_true] at hw <;> first | exact hw | exact hw.1 | exact hw.1.1
    obtain ⟨h1, h2, h3, h4⟩ := imm4 hv
    (try simp [Instr.wf, Idx.wf] at hw) <;> (try simp only [Fields.putIdx, Fields.putImm, Nat.reduceMul, Nat.reduceAdd, Nat.reduceDiv, Nat.reduceMod, rowOf, row6, Fields.q6, Fields.rc, Nat.reduceLeDiff, ge_iff_le, Nat.reduceEqDiff, ↓reduceIte, Nat.zero_add, Nat.zero_div, Nat.zero_ne_one, Nat.zero_mod]) <;> refine ⟨by simp [InRange, Fields.putImm] <;> (try simp only [decide_eq_true_eq, Bool.and_eq_true]) <;> first | omega | exact ⟨decide_eq_true (by omega), by omega⟩, _, rfl, by simp [Fields.q6, Fields.rc, Legal, FieldKind.baseOk, FieldKind.highOk, Fields.putImm] <;> (try simp only [decide_eq_true_eq, Bool.and_eq_true]) <;> first | omega | exact ⟨decide_eq_true (by omega), by omega⟩, by simp [Fields.q6, Fields.rc, ofFields, ofFields6, chain, Fields.putIdx, Fields.getIdx, Fields.putImm, Fields.getImm, Fields.immN, eta4] <;> (try simp only [decide_eq_true_eq, Bool.and_eq_true]) <;> first | omega | exact ⟨decide_eq_true (by omega), by omega⟩⟩
theorem FieldTrip.rcallSwap (d : Vr) (k : Kr) (x : Idx) : Statement (.rcallSwap d k x) := by
  intro hw f hf; cases hf
  cases x with
  | reg zx =>
    have := d.isLt
    have := k.isLt
    have := zx.isLt
    (try simp [Instr.wf, Idx.wf] at hw) <;> (try simp only [Fields.putIdx, Fields.putImm, Nat.reduceMul, Nat.reduceAdd, Nat.reduceDiv, Nat.reduceMod, rowOf, row6, Fields.q6, Fields.rc, Nat.reduceLeDiff, ge_iff_le, Nat.reduceEqDiff, ↓reduceIte, Nat.zero_add, Nat.zero_div, Nat.zero_ne_one, Nat.zero_mod]) <;> refine ⟨by simp [InRange] <;> (try simp only [decide_eq_true_eq, Bool.and_eq_true]) <;> first | omega | exact ⟨decide_eq_true (by omega), by omega⟩, _, rfl, by simp [Fields.q6, Fields.rc, Legal, FieldKind.baseOk, FieldKind.highOk] <;> (try simp only [decide_eq_true_eq, Bool.and_eq_true]) <;> first | omega | exact ⟨decide_eq_true (by omega), by omega⟩, by simp [Fields.q6, Fields.rc, ofFields, ofFields6, chain, Fields.putIdx, Fields.getIdx, Fields.putImm, Fields.getImm, Fields.immN, eta4] <;> (try simp only [decide_eq_true_eq, Bool.and_eq_true]) <;> first | omega | exact ⟨decide_eq_true (by omega), by omega⟩⟩
  | imm zx =>
    have := d.isLt
    have := k.isLt
    have hv : zx.wf 4 = true := by simp only [Instr.wf, Idx.wf, Bool.and_eq_true] at hw <;> first | exact hw | exact hw.1 | exact hw.1.1
    obtain ⟨h1, h2, h3, h4⟩ := imm4 hv
    (try simp [Instr.wf, Idx.wf] at hw) <;> (try simp only [Fields.putIdx, Fields.putImm, Nat.reduceMul, Nat.reduceAdd, Nat.reduceDiv, Nat.reduceMod, rowOf, row6, Fields.q6, Fields.rc, Nat.reduceLeDiff, ge_iff_le, Nat.reduceEqDiff, ↓reduceIte, Nat.zero_add, Nat.zero_div, Nat.zero_ne_one, Nat.zero_mod]) <;> refine ⟨by simp [InRange, Fields.putImm] <;> (try simp only [decide_eq_true_eq, Bool.and_eq_true]) <;> first | omega | exact ⟨decide_eq_true (by omega), by omega⟩, _, rfl, by simp [Fields.q6, Fields.rc, Legal, FieldKind.baseOk, FieldKind.highOk, Fields.putImm] <;> (try simp only [decide_eq_true_eq, Bool.and_eq_true]) <;> first | omega | exact ⟨decide_eq_true (by omega), by omega⟩, by simp [Fields.q6, Fields.rc, ofFields, ofFields6, chain, Fields.putIdx, Fields.getIdx, Fields.putImm, Fields.getImm, Fields.immN, eta4] <;> (try simp only [decide_eq_true_eq, Bool.and_eq_true]) <;> first | omega | exact ⟨decide_eq_true (by omega), by omega⟩⟩
theorem FieldTrip.rcallCas (d : Vr) (k : Kr) (x : Idx) : Statement (.rcallCas d k x) := by
  intro hw f hf; cases hf
  cases x with
  | reg zx =>
    have := d.isLt
    have := k.isLt
    have := zx.isLt
    (try simp [Instr.wf, Idx.wf] at hw) <;> (try simp only [Fields.putIdx, Fields.putImm, Nat.reduceMul, Nat.reduceAdd, Nat.reduceDiv, Nat.reduceMod, rowOf, row6, Fields.q6, Fields.rc, Nat.reduceLeDiff, ge_iff_le, Nat.reduceEqDiff, ↓reduceIte, Nat.zero_add, Nat.zero_div, Nat.zero_ne_one, Nat.zero_mod]) <;> refine ⟨by simp [InRange] <;> (try simp only [decide_eq_true_eq, Bool.and_eq_true]) <;> first | omega | exact ⟨decide_eq_true (by omega), by omega⟩, _, rfl, by simp [Fields.q6, Fields.rc, Legal, FieldKind.baseOk, FieldKind.highOk] <;> (try simp only [decide_eq_true_eq, Bool.and_eq_true]) <;> first | omega | exact ⟨decide_eq_true (by omega), by omega⟩, by simp [Fields.q6, Fields.rc, ofFields, ofFields6, chain, Fields.putIdx, Fields.getIdx, Fields.putImm, Fields.getImm, Fields.immN, eta4] <;> (try simp only [decide_eq_true_eq, Bool.and_eq_true]) <;> first | omega | exact ⟨decide_eq_true (by omega), by omega⟩⟩
  | imm zx =>
    have := d.isLt
    have := k.isLt
    have hv : zx.wf 4 = true := by simp only [Instr.wf, Idx.wf, Bool.and_eq_true] at hw <;> first | exact hw | exact hw.1 | exact hw.1.1
    obtain ⟨h1, h2, h3, h4⟩ := imm4 hv
    (try simp [Instr.wf, Idx.wf] at hw) <;> (try simp only [Fields.putIdx, Fields.putImm, Nat.reduceMul, Nat.reduceAdd, Nat.reduceDiv, Nat.reduceMod, rowOf, row6, Fields.q6, Fields.rc, Nat.reduceLeDiff, ge_iff_le, Nat.reduceEqDiff, ↓reduceIte, Nat.zero_add, Nat.zero_div, Nat.zero_ne_one, Nat.zero_mod]) <;> refine ⟨by simp [InRange, Fields.putImm] <;> (try simp only [decide_eq_true_eq, Bool.and_eq_true]) <;> first | omega | exact ⟨decide_eq_true (by omega), by omega⟩, _, rfl, by simp [Fields.q6, Fields.rc, Legal, FieldKind.baseOk, FieldKind.highOk, Fields.putImm] <;> (try simp only [decide_eq_true_eq, Bool.and_eq_true]) <;> first | omega | exact ⟨decide_eq_true (by omega), by omega⟩, by simp [Fields.q6, Fields.rc, ofFields, ofFields6, chain, Fields.putIdx, Fields.getIdx, Fields.putImm, Fields.getImm, Fields.immN, eta4] <;> (try simp only [decide_eq_true_eq, Bool.and_eq_true]) <;> first | omega | exact ⟨decide_eq_true (by omega), by omega⟩⟩
theorem FieldTrip.launch (d : Gpr) (a : Vr) (b : Kr) : Statement (.launch d a b) := by
  intro hw f hf; cases hf
  have := d.isLt
  have := a.isLt
  have := b.isLt
  (try simp [Instr.wf] at hw) <;> refine ⟨by simp [InRange] <;> (try simp only [decide_eq_true_eq, Bool.and_eq_true]) <;> first | omega | exact ⟨decide_eq_true (by omega), by omega⟩, _, rfl, by simp [Fields.q6, Fields.rc, Legal, FieldKind.baseOk, FieldKind.highOk] <;> (try simp only [decide_eq_true_eq, Bool.and_eq_true]) <;> first | omega | exact ⟨decide_eq_true (by omega), by omega⟩, by simp [Fields.q6, Fields.rc, ofFields, ofFields6, chain] <;> (try simp only [decide_eq_true_eq, Bool.and_eq_true]) <;> first | omega | exact ⟨decide_eq_true (by omega), by omega⟩⟩
theorem FieldTrip.launchi (d : Gpr) (a : Vr) (b : Kr) : Statement (.launchi d a b) := by
  intro hw f hf; cases hf
  have := d.isLt
  have := a.isLt
  have := b.isLt
  (try simp [Instr.wf] at hw) <;> refine ⟨by simp [InRange] <;> (try simp only [decide_eq_true_eq, Bool.and_eq_true]) <;> first | omega | exact ⟨decide_eq_true (by omega), by omega⟩, _, rfl, by simp [Fields.q6, Fields.rc, Legal, FieldKind.baseOk, FieldKind.highOk] <;> (try simp only [decide_eq_true_eq, Bool.and_eq_true]) <;> first | omega | exact ⟨decide_eq_true (by omega), by omega⟩, by simp [Fields.q6, Fields.rc, ofFields, ofFields6, chain] <;> (try simp only [decide_eq_true_eq, Bool.and_eq_true]) <;> first | omega | exact ⟨decide_eq_true (by omega), by omega⟩⟩
theorem FieldTrip.join (d : Gpr) (a : Gpr) : Statement (.join d a) := by
  intro hw f hf; cases hf
  have := d.isLt
  have := a.isLt
  refine ⟨by simp [InRange] <;> (try simp only [decide_eq_true_eq, Bool.and_eq_true]) <;> first | omega | exact ⟨decide_eq_true (by omega), by omega⟩, _, rfl, by simp [Fields.q6, Fields.rc, Legal, FieldKind.baseOk, FieldKind.highOk] <;> (try simp only [decide_eq_true_eq, Bool.and_eq_true]) <;> first | omega | exact ⟨decide_eq_true (by omega), by omega⟩, by simp [Fields.q6, Fields.rc, ofFields, ofFields6, chain] <;> (try simp only [decide_eq_true_eq, Bool.and_eq_true]) <;> first | omega | exact ⟨decide_eq_true (by omega), by omega⟩⟩
theorem FieldTrip.epoll (d : Gpr) (s : BitVec 2) : Statement (.epoll d s) := by
  intro hw f hf; cases hf
  have := d.isLt
  have := s.isLt
  (try simp [Instr.wf] at hw) <;> refine ⟨by simp [InRange] <;> (try simp only [decide_eq_true_eq, Bool.and_eq_true]) <;> first | omega | exact ⟨decide_eq_true (by omega), by omega⟩, _, rfl, by simp [Fields.q6, Fields.rc, Legal, FieldKind.baseOk, FieldKind.highOk] <;> (try simp only [decide_eq_true_eq, Bool.and_eq_true]) <;> first | omega | exact ⟨decide_eq_true (by omega), by omega⟩, by simp [Fields.q6, Fields.rc, ofFields, ofFields6, chain] <;> (try simp only [decide_eq_true_eq, Bool.and_eq_true]) <;> first | omega | exact ⟨decide_eq_true (by omega), by omega⟩⟩
theorem FieldTrip.sopen (d : Gpr) (a : Vr) : Statement (.sopen d a) := by
  intro hw f hf; cases hf
  have := d.isLt
  have := a.isLt
  refine ⟨by simp [InRange] <;> (try simp only [decide_eq_true_eq, Bool.and_eq_true]) <;> first | omega | exact ⟨decide_eq_true (by omega), by omega⟩, _, rfl, by simp [Fields.q6, Fields.rc, Legal, FieldKind.baseOk, FieldKind.highOk] <;> (try simp only [decide_eq_true_eq, Bool.and_eq_true]) <;> first | omega | exact ⟨decide_eq_true (by omega), by omega⟩, by simp [Fields.q6, Fields.rc, ofFields, ofFields7, chain] <;> (try simp only [decide_eq_true_eq, Bool.and_eq_true]) <;> first | omega | exact ⟨decide_eq_true (by omega), by omega⟩⟩
theorem FieldTrip.sclose (a : Gpr) : Statement (.sclose a) := by
  intro hw f hf; cases hf
  have := a.isLt
  refine ⟨by simp [InRange] <;> (try simp only [decide_eq_true_eq, Bool.and_eq_true]) <;> first | omega | exact ⟨decide_eq_true (by omega), by omega⟩, _, rfl, by simp [Fields.q6, Fields.rc, Legal, FieldKind.baseOk, FieldKind.highOk] <;> (try simp only [decide_eq_true_eq, Bool.and_eq_true]) <;> first | omega | exact ⟨decide_eq_true (by omega), by omega⟩, by simp [Fields.q6, Fields.rc, ofFields, ofFields7, chain] <;> (try simp only [decide_eq_true_eq, Bool.and_eq_true]) <;> first | omega | exact ⟨decide_eq_true (by omega), by omega⟩⟩
theorem FieldTrip.sframe (d : Pr) (a : Vr) (b : Gpr) : Statement (.sframe d a b) := by
  intro hw f hf; cases hf
  have := d.isLt
  have := a.isLt
  have := b.isLt
  refine ⟨by simp [InRange] <;> (try simp only [decide_eq_true_eq, Bool.and_eq_true]) <;> first | omega | exact ⟨decide_eq_true (by omega), by omega⟩, _, rfl, by simp [Fields.q6, Fields.rc, Legal, FieldKind.baseOk, FieldKind.highOk] <;> (try simp only [decide_eq_true_eq, Bool.and_eq_true]) <;> first | omega | exact ⟨decide_eq_true (by omega), by omega⟩, by simp [Fields.q6, Fields.rc, ofFields, ofFields7, chain] <;> (try simp only [decide_eq_true_eq, Bool.and_eq_true]) <;> first | omega | exact ⟨decide_eq_true (by omega), by omega⟩⟩
theorem FieldTrip.sgen (d : Gpr) (a : Gpr) : Statement (.sgen d a) := by
  intro hw f hf; cases hf
  have := d.isLt
  have := a.isLt
  refine ⟨by simp [InRange] <;> (try simp only [decide_eq_true_eq, Bool.and_eq_true]) <;> first | omega | exact ⟨decide_eq_true (by omega), by omega⟩, _, rfl, by simp [Fields.q6, Fields.rc, Legal, FieldKind.baseOk, FieldKind.highOk] <;> (try simp only [decide_eq_true_eq, Bool.and_eq_true]) <;> first | omega | exact ⟨decide_eq_true (by omega), by omega⟩, by simp [Fields.q6, Fields.rc, ofFields, ofFields7, chain] <;> (try simp only [decide_eq_true_eq, Bool.and_eq_true]) <;> first | omega | exact ⟨decide_eq_true (by omega), by omega⟩⟩
theorem FieldTrip.sgenAbandon (d : Gpr) (a : Gpr) : Statement (.sgenAbandon d a) := by
  intro hw f hf; cases hf
  have := d.isLt
  have := a.isLt
  refine ⟨by simp [InRange] <;> (try simp only [decide_eq_true_eq, Bool.and_eq_true]) <;> first | omega | exact ⟨decide_eq_true (by omega), by omega⟩, _, rfl, by simp [Fields.q6, Fields.rc, Legal, FieldKind.baseOk, FieldKind.highOk] <;> (try simp only [decide_eq_true_eq, Bool.and_eq_true]) <;> first | omega | exact ⟨decide_eq_true (by omega), by omega⟩, by simp [Fields.q6, Fields.rc, ofFields, ofFields7, chain] <;> (try simp only [decide_eq_true_eq, Bool.and_eq_true]) <;> first | omega | exact ⟨decide_eq_true (by omega), by omega⟩⟩
theorem FieldTrip.splay (a : Gpr) (b : Gpr) : Statement (.splay a b) := by
  intro hw f hf; cases hf
  have := a.isLt
  have := b.isLt
  refine ⟨by simp [InRange] <;> (try simp only [decide_eq_true_eq, Bool.and_eq_true]) <;> first | omega | exact ⟨decide_eq_true (by omega), by omega⟩, _, rfl, by simp [Fields.q6, Fields.rc, Legal, FieldKind.baseOk, FieldKind.highOk] <;> (try simp only [decide_eq_true_eq, Bool.and_eq_true]) <;> first | omega | exact ⟨decide_eq_true (by omega), by omega⟩, by simp [Fields.q6, Fields.rc, ofFields, ofFields7, chain] <;> (try simp only [decide_eq_true_eq, Bool.and_eq_true]) <;> first | omega | exact ⟨decide_eq_true (by omega), by omega⟩⟩
theorem FieldTrip.strunc (a : Gpr) (b : Gpr) : Statement (.strunc a b) := by
  intro hw f hf; cases hf
  have := a.isLt
  have := b.isLt
  refine ⟨by simp [InRange] <;> (try simp only [decide_eq_true_eq, Bool.and_eq_true]) <;> first | omega | exact ⟨decide_eq_true (by omega), by omega⟩, _, rfl, by simp [Fields.q6, Fields.rc, Legal, FieldKind.baseOk, FieldKind.highOk] <;> (try simp only [decide_eq_true_eq, Bool.and_eq_true]) <;> first | omega | exact ⟨decide_eq_true (by omega), by omega⟩, by simp [Fields.q6, Fields.rc, ofFields, ofFields7, chain] <;> (try simp only [decide_eq_true_eq, Bool.and_eq_true]) <;> first | omega | exact ⟨decide_eq_true (by omega), by omega⟩⟩
theorem FieldTrip.ssnap (d : Gpr) (a : Gpr) (b : Gpr) : Statement (.ssnap d a b) := by
  intro hw f hf; cases hf
  have := d.isLt
  have := a.isLt
  have := b.isLt
  refine ⟨by simp [InRange] <;> (try simp only [decide_eq_true_eq, Bool.and_eq_true]) <;> first | omega | exact ⟨decide_eq_true (by omega), by omega⟩, _, rfl, by simp [Fields.q6, Fields.rc, Legal, FieldKind.baseOk, FieldKind.highOk] <;> (try simp only [decide_eq_true_eq, Bool.and_eq_true]) <;> first | omega | exact ⟨decide_eq_true (by omega), by omega⟩, by simp [Fields.q6, Fields.rc, ofFields, ofFields7, chain] <;> (try simp only [decide_eq_true_eq, Bool.and_eq_true]) <;> first | omega | exact ⟨decide_eq_true (by omega), by omega⟩⟩
theorem FieldTrip.skvaddr (d : Gpr) (a : Gpr) (b : Gpr) : Statement (.skvaddr d a b) := by
  intro hw f hf; cases hf
  have := d.isLt
  have := a.isLt
  have := b.isLt
  refine ⟨by simp [InRange] <;> (try simp only [decide_eq_true_eq, Bool.and_eq_true]) <;> first | omega | exact ⟨decide_eq_true (by omega), by omega⟩, _, rfl, by simp [Fields.q6, Fields.rc, Legal, FieldKind.baseOk, FieldKind.highOk] <;> (try simp only [decide_eq_true_eq, Bool.and_eq_true]) <;> first | omega | exact ⟨decide_eq_true (by omega), by omega⟩, by simp [Fields.q6, Fields.rc, ofFields, ofFields7, chain] <;> (try simp only [decide_eq_true_eq, Bool.and_eq_true]) <;> first | omega | exact ⟨decide_eq_true (by omega), by omega⟩⟩
theorem FieldTrip.sstat (d : Vr) (a : Gpr) : Statement (.sstat d a) := by
  intro hw f hf; cases hf
  have := d.isLt
  have := a.isLt
  refine ⟨by simp [InRange] <;> (try simp only [decide_eq_true_eq, Bool.and_eq_true]) <;> first | omega | exact ⟨decide_eq_true (by omega), by omega⟩, _, rfl, by simp [Fields.q6, Fields.rc, Legal, FieldKind.baseOk, FieldKind.highOk] <;> (try simp only [decide_eq_true_eq, Bool.and_eq_true]) <;> first | omega | exact ⟨decide_eq_true (by omega), by omega⟩, by simp [Fields.q6, Fields.rc, ofFields, ofFields7, chain] <;> (try simp only [decide_eq_true_eq, Bool.and_eq_true]) <;> first | omega | exact ⟨decide_eq_true (by omega), by omega⟩⟩
theorem FieldTrip.scommit (a : Gpr) (b : Gpr) : Statement (.scommit a b) := by
  intro hw f hf; cases hf
  have := a.isLt
  have := b.isLt
  refine ⟨by simp [InRange] <;> (try simp only [decide_eq_true_eq, Bool.and_eq_true]) <;> first | omega | exact ⟨decide_eq_true (by omega), by omega⟩, _, rfl, by simp [Fields.q6, Fields.rc, Legal, FieldKind.baseOk, FieldKind.highOk] <;> (try simp only [decide_eq_true_eq, Bool.and_eq_true]) <;> first | omega | exact ⟨decide_eq_true (by omega), by omega⟩, by simp [Fields.q6, Fields.rc, ofFields, ofFields7, chain] <;> (try simp only [decide_eq_true_eq, Bool.and_eq_true]) <;> first | omega | exact ⟨decide_eq_true (by omega), by omega⟩⟩
theorem FieldTrip.snext (d : Gpr) (a : Gpr) : Statement (.snext d a) := by
  intro hw f hf; cases hf
  have := d.isLt
  have := a.isLt
  refine ⟨by simp [InRange] <;> (try simp only [decide_eq_true_eq, Bool.and_eq_true]) <;> first | omega | exact ⟨decide_eq_true (by omega), by omega⟩, _, rfl, by simp [Fields.q6, Fields.rc, Legal, FieldKind.baseOk, FieldKind.highOk] <;> (try simp only [decide_eq_true_eq, Bool.and_eq_true]) <;> first | omega | exact ⟨decide_eq_true (by omega), by omega⟩, by simp [Fields.q6, Fields.rc, ofFields, ofFields7, chain] <;> (try simp only [decide_eq_true_eq, Bool.and_eq_true]) <;> first | omega | exact ⟨decide_eq_true (by omega), by omega⟩⟩
theorem FieldTrip.trap (i : Imm) : Statement (.trap i) := by
  intro hw f hf; cases hf
  have hv : i.wf 4 = true := by simp only [Instr.wf, Bool.and_eq_true] at hw <;> first | exact hw | exact hw.1 | exact hw.1.1
  obtain ⟨h1, h2, h3, h4⟩ := imm4 hv
  (try simp [Instr.wf] at hw) <;> (try simp only [Fields.putImm, Nat.reduceMul, Nat.reduceAdd, Nat.reduceDiv, Nat.reduceMod]) <;> refine ⟨by simp [InRange, Fields.putImm] <;> (try simp only [decide_eq_true_eq, Bool.and_eq_true]) <;> first | omega | exact ⟨decide_eq_true (by omega), by omega⟩, _, rfl, by simp [Fields.q6, Fields.rc, Legal, FieldKind.baseOk, FieldKind.highOk, Fields.putImm] <;> (try simp only [decide_eq_true_eq, Bool.and_eq_true]) <;> first | omega | exact ⟨decide_eq_true (by omega), by omega⟩, by simp [Fields.q6, Fields.rc, ofFields, ofFields8, chain, Fields.putImm, Fields.getImm, Fields.immN, eta4] <;> (try simp only [decide_eq_true_eq, Bool.and_eq_true]) <;> first | omega | exact ⟨decide_eq_true (by omega), by omega⟩⟩
theorem FieldTrip.csrr (d : Gpr) (i : Imm) : Statement (.csrr d i) := by
  intro hw f hf; cases hf
  have := d.isLt
  have hv : i.wf 4 = true := by simp only [Instr.wf, Bool.and_eq_true] at hw <;> first | exact hw | exact hw.1 | exact hw.1.1
  obtain ⟨h1, h2, h3, h4⟩ := imm4 hv
  (try simp [Instr.wf, csrNumberOk, csrWf, csrOwnRow, isCsrCtxbase, isCsrSeed, isCsrLogsize, isCsrMirsize, isCsrUrglim, isCsrWinbase, isCsrRectdef, isSlotCsr, Fields.immN, eta4] at hw) <;> (try simp only [Fields.putImm, Nat.reduceMul, Nat.reduceAdd, Nat.reduceDiv, Nat.reduceMod]) <;> refine ⟨by simp [InRange, Fields.putImm] <;> (try simp only [decide_eq_true_eq, Bool.and_eq_true]) <;> first | omega | exact ⟨decide_eq_true (by omega), by omega⟩, _, rfl, by simp [Fields.q6, Fields.rc, Legal, FieldKind.baseOk, FieldKind.highOk, csrNumberOk, csrWf, csrOwnRow, isCsrCtxbase, isCsrSeed, isCsrLogsize, isCsrMirsize, isCsrUrglim, isCsrWinbase, isCsrRectdef, isSlotCsr, Fields.immN, eta4, Fields.putImm] <;> (try simp only [decide_eq_true_eq, Bool.and_eq_true]) <;> first | omega | exact ⟨decide_eq_true (by omega), by omega⟩, by simp [Fields.q6, Fields.rc, ofFields, ofFields8, chain, csrNumberOk, csrWf, csrOwnRow, isCsrCtxbase, isCsrSeed, isCsrLogsize, isCsrMirsize, isCsrUrglim, isCsrWinbase, isCsrRectdef, isSlotCsr, Fields.immN, eta4, Fields.putImm, Fields.getImm] <;> (try simp only [decide_eq_true_eq, Bool.and_eq_true]) <;> first | omega | exact ⟨decide_eq_true (by omega), by omega⟩⟩
theorem FieldTrip.csrw (a : Gpr) (i : Imm) : Statement (.csrw a i) := by
  intro hw f hf; cases hf
  have := a.isLt
  have hv : i.wf 4 = true := by simp only [Instr.wf, Bool.and_eq_true] at hw <;> first | exact hw | exact hw.1 | exact hw.1.1
  obtain ⟨h1, h2, h3, h4⟩ := imm4 hv
  (try simp [Instr.wf, csrNumberOk, csrWf, csrOwnRow, isCsrCtxbase, isCsrSeed, isCsrLogsize, isCsrMirsize, isCsrUrglim, isCsrWinbase, isCsrRectdef, isSlotCsr, Fields.immN, eta4] at hw) <;> (try simp only [Fields.putImm, Nat.reduceMul, Nat.reduceAdd, Nat.reduceDiv, Nat.reduceMod]) <;> refine ⟨by simp [InRange, Fields.putImm] <;> (try simp only [decide_eq_true_eq, Bool.and_eq_true]) <;> first | omega | exact ⟨decide_eq_true (by omega), by omega⟩, _, rfl, by simp [Fields.q6, Fields.rc, Legal, FieldKind.baseOk, FieldKind.highOk, csrNumberOk, csrWf, csrOwnRow, isCsrCtxbase, isCsrSeed, isCsrLogsize, isCsrMirsize, isCsrUrglim, isCsrWinbase, isCsrRectdef, isSlotCsr, Fields.immN, eta4, Fields.putImm] <;> (try simp only [decide_eq_true_eq, Bool.and_eq_true]) <;> first | omega | exact ⟨decide_eq_true (by omega), by omega⟩, by simp [Fields.q6, Fields.rc, ofFields, ofFields8, chain, csrNumberOk, csrWf, csrOwnRow, isCsrCtxbase, isCsrSeed, isCsrLogsize, isCsrMirsize, isCsrUrglim, isCsrWinbase, isCsrRectdef, isSlotCsr, Fields.immN, eta4, Fields.putImm, Fields.getImm] <;> (repeat' split) <;> first | rfl | (intros; exfalso; omega)⟩
theorem FieldTrip.csrwCtxbase (a : Gpr) (i : Imm) : Statement (.csrwCtxbase a i) := by
  intro hw f hf; cases hf
  have := a.isLt
  have hv : i.wf 4 = true := by simp only [Instr.wf, Bool.and_eq_true] at hw <;> first | exact hw | exact hw.1 | exact hw.1.1
  obtain ⟨h1, h2, h3, h4⟩ := imm4 hv
  (try simp [Instr.wf, csrNumberOk, csrWf, csrOwnRow, isCsrCtxbase, isCsrSeed, isCsrLogsize, isCsrMirsize, isCsrUrglim, isCsrWinbase, isCsrRectdef, isSlotCsr, Fields.immN, eta4] at hw) <;> (try simp only [Fields.putImm, Nat.reduceMul, Nat.reduceAdd, Nat.reduceDiv, Nat.reduceMod]) <;> refine ⟨by simp [InRange, Fields.putImm] <;> (try simp only [decide_eq_true_eq, Bool.and_eq_true]) <;> first | omega | exact ⟨decide_eq_true (by omega), by omega⟩, _, rfl, by simp [Fields.q6, Fields.rc, Legal, FieldKind.baseOk, FieldKind.highOk, csrNumberOk, csrWf, csrOwnRow, isCsrCtxbase, isCsrSeed, isCsrLogsize, isCsrMirsize, isCsrUrglim, isCsrWinbase, isCsrRectdef, isSlotCsr, Fields.immN, eta4, Fields.putImm] <;> (try simp only [decide_eq_true_eq, Bool.and_eq_true]) <;> first | omega | exact ⟨decide_eq_true (by omega), by omega⟩, by simp [Fields.q6, Fields.rc, ofFields, ofFields8, chain, csrNumberOk, csrWf, csrOwnRow, isCsrCtxbase, isCsrSeed, isCsrLogsize, isCsrMirsize, isCsrUrglim, isCsrWinbase, isCsrRectdef, isSlotCsr, Fields.immN, eta4, Fields.putImm, Fields.getImm] <;> (repeat' split) <;> first | rfl | (intros; exfalso; omega)⟩
theorem FieldTrip.csrwLogsize (a : Gpr) (i : Imm) : Statement (.csrwLogsize a i) := by
  intro hw f hf; cases hf
  have := a.isLt
  have hv : i.wf 4 = true := by simp only [Instr.wf, Bool.and_eq_true] at hw <;> first | exact hw | exact hw.1 | exact hw.1.1
  obtain ⟨h1, h2, h3, h4⟩ := imm4 hv
  (try simp [Instr.wf, csrNumberOk, csrWf, csrOwnRow, isCsrCtxbase, isCsrSeed, isCsrLogsize, isCsrMirsize, isCsrUrglim, isCsrWinbase, isCsrRectdef, isSlotCsr, Fields.immN, eta4] at hw) <;> (try simp only [Fields.putImm, Nat.reduceMul, Nat.reduceAdd, Nat.reduceDiv, Nat.reduceMod]) <;> refine ⟨by simp [InRange, Fields.putImm] <;> (try simp only [decide_eq_true_eq, Bool.and_eq_true]) <;> first | omega | exact ⟨decide_eq_true (by omega), by omega⟩, _, rfl, by simp [Fields.q6, Fields.rc, Legal, FieldKind.baseOk, FieldKind.highOk, csrNumberOk, csrWf, csrOwnRow, isCsrCtxbase, isCsrSeed, isCsrLogsize, isCsrMirsize, isCsrUrglim, isCsrWinbase, isCsrRectdef, isSlotCsr, Fields.immN, eta4, Fields.putImm] <;> (try simp only [decide_eq_true_eq, Bool.and_eq_true]) <;> first | omega | exact ⟨decide_eq_true (by omega), by omega⟩, by simp [Fields.q6, Fields.rc, ofFields, ofFields8, chain, csrNumberOk, csrWf, csrOwnRow, isCsrCtxbase, isCsrSeed, isCsrLogsize, isCsrMirsize, isCsrUrglim, isCsrWinbase, isCsrRectdef, isSlotCsr, Fields.immN, eta4, Fields.putImm, Fields.getImm] <;> (repeat' split) <;> first | rfl | (intros; exfalso; omega)⟩
theorem FieldTrip.csrwMirsize (a : Gpr) (i : Imm) : Statement (.csrwMirsize a i) := by
  intro hw f hf; cases hf
  have := a.isLt
  have hv : i.wf 4 = true := by simp only [Instr.wf, Bool.and_eq_true] at hw <;> first | exact hw | exact hw.1 | exact hw.1.1
  obtain ⟨h1, h2, h3, h4⟩ := imm4 hv
  (try simp [Instr.wf, csrNumberOk, csrWf, csrOwnRow, isCsrCtxbase, isCsrSeed, isCsrLogsize, isCsrMirsize, isCsrUrglim, isCsrWinbase, isCsrRectdef, isSlotCsr, Fields.immN, eta4] at hw) <;> (try simp only [Fields.putImm, Nat.reduceMul, Nat.reduceAdd, Nat.reduceDiv, Nat.reduceMod]) <;> refine ⟨by simp [InRange, Fields.putImm] <;> (try simp only [decide_eq_true_eq, Bool.and_eq_true]) <;> first | omega | exact ⟨decide_eq_true (by omega), by omega⟩, _, rfl, by simp [Fields.q6, Fields.rc, Legal, FieldKind.baseOk, FieldKind.highOk, csrNumberOk, csrWf, csrOwnRow, isCsrCtxbase, isCsrSeed, isCsrLogsize, isCsrMirsize, isCsrUrglim, isCsrWinbase, isCsrRectdef, isSlotCsr, Fields.immN, eta4, Fields.putImm] <;> (try simp only [decide_eq_true_eq, Bool.and_eq_true]) <;> first | omega | exact ⟨decide_eq_true (by omega), by omega⟩, by simp [Fields.q6, Fields.rc, ofFields, ofFields8, chain, csrNumberOk, csrWf, csrOwnRow, isCsrCtxbase, isCsrSeed, isCsrLogsize, isCsrMirsize, isCsrUrglim, isCsrWinbase, isCsrRectdef, isSlotCsr, Fields.immN, eta4, Fields.putImm, Fields.getImm] <;> (repeat' split) <;> first | rfl | (intros; exfalso; omega)⟩
theorem FieldTrip.csrwUrglim (a : Gpr) (i : Imm) : Statement (.csrwUrglim a i) := by
  intro hw f hf; cases hf
  have := a.isLt
  have hv : i.wf 4 = true := by simp only [Instr.wf, Bool.and_eq_true] at hw <;> first | exact hw | exact hw.1 | exact hw.1.1
  obtain ⟨h1, h2, h3, h4⟩ := imm4 hv
  (try simp [Instr.wf, csrNumberOk, csrWf, csrOwnRow, isCsrCtxbase, isCsrSeed, isCsrLogsize, isCsrMirsize, isCsrUrglim, isCsrWinbase, isCsrRectdef, isSlotCsr, Fields.immN, eta4] at hw) <;> (try simp only [Fields.putImm, Nat.reduceMul, Nat.reduceAdd, Nat.reduceDiv, Nat.reduceMod]) <;> refine ⟨by simp [InRange, Fields.putImm] <;> (try simp only [decide_eq_true_eq, Bool.and_eq_true]) <;> first | omega | exact ⟨decide_eq_true (by omega), by omega⟩, _, rfl, by simp [Fields.q6, Fields.rc, Legal, FieldKind.baseOk, FieldKind.highOk, csrNumberOk, csrWf, csrOwnRow, isCsrCtxbase, isCsrSeed, isCsrLogsize, isCsrMirsize, isCsrUrglim, isCsrWinbase, isCsrRectdef, isSlotCsr, Fields.immN, eta4, Fields.putImm] <;> (try simp only [decide_eq_true_eq, Bool.and_eq_true]) <;> first | omega | exact ⟨decide_eq_true (by omega), by omega⟩, by simp [Fields.q6, Fields.rc, ofFields, ofFields8, chain, csrNumberOk, csrWf, csrOwnRow, isCsrCtxbase, isCsrSeed, isCsrLogsize, isCsrMirsize, isCsrUrglim, isCsrWinbase, isCsrRectdef, isSlotCsr, Fields.immN, eta4, Fields.putImm, Fields.getImm] <;> (repeat' split) <;> first | rfl | (intros; exfalso; omega)⟩
theorem FieldTrip.csrwSeed (a : Gpr) (i : Imm) : Statement (.csrwSeed a i) := by
  intro hw f hf; cases hf
  have := a.isLt
  have hv : i.wf 4 = true := by simp only [Instr.wf, Bool.and_eq_true] at hw <;> first | exact hw | exact hw.1 | exact hw.1.1
  obtain ⟨h1, h2, h3, h4⟩ := imm4 hv
  (try simp [Instr.wf, csrNumberOk, csrWf, csrOwnRow, isCsrCtxbase, isCsrSeed, isCsrLogsize, isCsrMirsize, isCsrUrglim, isCsrWinbase, isCsrRectdef, isSlotCsr, Fields.immN, eta4] at hw) <;> (try simp only [Fields.putImm, Nat.reduceMul, Nat.reduceAdd, Nat.reduceDiv, Nat.reduceMod]) <;> refine ⟨by simp [InRange, Fields.putImm] <;> (try simp only [decide_eq_true_eq, Bool.and_eq_true]) <;> first | omega | exact ⟨decide_eq_true (by omega), by omega⟩, _, rfl, by simp [Fields.q6, Fields.rc, Legal, FieldKind.baseOk, FieldKind.highOk, csrNumberOk, csrWf, csrOwnRow, isCsrCtxbase, isCsrSeed, isCsrLogsize, isCsrMirsize, isCsrUrglim, isCsrWinbase, isCsrRectdef, isSlotCsr, Fields.immN, eta4, Fields.putImm] <;> (try simp only [decide_eq_true_eq, Bool.and_eq_true]) <;> first | omega | exact ⟨decide_eq_true (by omega), by omega⟩, by simp [Fields.q6, Fields.rc, ofFields, ofFields8, chain, csrNumberOk, csrWf, csrOwnRow, isCsrCtxbase, isCsrSeed, isCsrLogsize, isCsrMirsize, isCsrUrglim, isCsrWinbase, isCsrRectdef, isSlotCsr, Fields.immN, eta4, Fields.putImm, Fields.getImm] <;> (repeat' split) <;> first | rfl | (intros; exfalso; omega)⟩
theorem FieldTrip.csrwWinbase (a : Gpr) (i : Imm) : Statement (.csrwWinbase a i) := by
  intro hw f hf; cases hf
  have := a.isLt
  have hv : i.wf 4 = true := by simp only [Instr.wf, Bool.and_eq_true] at hw <;> first | exact hw | exact hw.1 | exact hw.1.1
  obtain ⟨h1, h2, h3, h4⟩ := imm4 hv
  (try simp [Instr.wf, csrNumberOk, csrWf, csrOwnRow, isCsrCtxbase, isCsrSeed, isCsrLogsize, isCsrMirsize, isCsrUrglim, isCsrWinbase, isCsrRectdef, isSlotCsr, Fields.immN, eta4] at hw) <;> (try simp only [Fields.putImm, Nat.reduceMul, Nat.reduceAdd, Nat.reduceDiv, Nat.reduceMod]) <;> refine ⟨by simp [InRange, Fields.putImm] <;> (try simp only [decide_eq_true_eq, Bool.and_eq_true]) <;> first | omega | exact ⟨decide_eq_true (by omega), by omega⟩, _, rfl, by simp [Fields.q6, Fields.rc, Legal, FieldKind.baseOk, FieldKind.highOk, csrNumberOk, csrWf, csrOwnRow, isCsrCtxbase, isCsrSeed, isCsrLogsize, isCsrMirsize, isCsrUrglim, isCsrWinbase, isCsrRectdef, isSlotCsr, Fields.immN, eta4, Fields.putImm] <;> (try simp only [decide_eq_true_eq, Bool.and_eq_true]) <;> first | omega | exact ⟨decide_eq_true (by omega), by omega⟩, by simp [Fields.q6, Fields.rc, ofFields, ofFields8, chain, csrNumberOk, csrWf, csrOwnRow, isCsrCtxbase, isCsrSeed, isCsrLogsize, isCsrMirsize, isCsrUrglim, isCsrWinbase, isCsrRectdef, isSlotCsr, Fields.immN, eta4, Fields.putImm, Fields.getImm] <;> (repeat' split) <;> first | rfl | (intros; exfalso; omega)⟩
theorem FieldTrip.csrwRectdef (a : Gpr) (i : Imm) : Statement (.csrwRectdef a i) := by
  intro hw f hf; cases hf
  have := a.isLt
  have hv : i.wf 4 = true := by simp only [Instr.wf, Bool.and_eq_true] at hw <;> first | exact hw | exact hw.1 | exact hw.1.1
  obtain ⟨h1, h2, h3, h4⟩ := imm4 hv
  (try simp [Instr.wf, csrNumberOk, csrWf, csrOwnRow, isCsrCtxbase, isCsrSeed, isCsrLogsize, isCsrMirsize, isCsrUrglim, isCsrWinbase, isCsrRectdef, isSlotCsr, Fields.immN, eta4] at hw) <;> (try simp only [Fields.putImm, Nat.reduceMul, Nat.reduceAdd, Nat.reduceDiv, Nat.reduceMod]) <;> refine ⟨by simp [InRange, Fields.putImm] <;> (try simp only [decide_eq_true_eq, Bool.and_eq_true]) <;> first | omega | exact ⟨decide_eq_true (by omega), by omega⟩, _, rfl, by simp [Fields.q6, Fields.rc, Legal, FieldKind.baseOk, FieldKind.highOk, csrNumberOk, csrWf, csrOwnRow, isCsrCtxbase, isCsrSeed, isCsrLogsize, isCsrMirsize, isCsrUrglim, isCsrWinbase, isCsrRectdef, isSlotCsr, Fields.immN, eta4, Fields.putImm] <;> (try simp only [decide_eq_true_eq, Bool.and_eq_true]) <;> first | omega | exact ⟨decide_eq_true (by omega), by omega⟩, by simp [Fields.q6, Fields.rc, ofFields, ofFields8, chain, csrNumberOk, csrWf, csrOwnRow, isCsrCtxbase, isCsrSeed, isCsrLogsize, isCsrMirsize, isCsrUrglim, isCsrWinbase, isCsrRectdef, isSlotCsr, Fields.immN, eta4, Fields.putImm, Fields.getImm] <;> (repeat' split) <;> first | rfl | (intros; exfalso; omega)⟩
theorem FieldTrip.yield (a : Gpr) : Statement (.yield a) := by
  intro hw f hf; cases hf
  have := a.isLt
  refine ⟨by simp [InRange] <;> (try simp only [decide_eq_true_eq, Bool.and_eq_true]) <;> first | omega | exact ⟨decide_eq_true (by omega), by omega⟩, _, rfl, by simp [Fields.q6, Fields.rc, Legal, FieldKind.baseOk, FieldKind.highOk] <;> (try simp only [decide_eq_true_eq, Bool.and_eq_true]) <;> first | omega | exact ⟨decide_eq_true (by omega), by omega⟩, by simp [Fields.q6, Fields.rc, ofFields, ofFields8, chain] <;> (try simp only [decide_eq_true_eq, Bool.and_eq_true]) <;> first | omega | exact ⟨decide_eq_true (by omega), by omega⟩⟩
theorem FieldTrip.wake (a : Gpr) : Statement (.wake a) := by
  intro hw f hf; cases hf
  have := a.isLt
  refine ⟨by simp [InRange] <;> (try simp only [decide_eq_true_eq, Bool.and_eq_true]) <;> first | omega | exact ⟨decide_eq_true (by omega), by omega⟩, _, rfl, by simp [Fields.q6, Fields.rc, Legal, FieldKind.baseOk, FieldKind.highOk] <;> (try simp only [decide_eq_true_eq, Bool.and_eq_true]) <;> first | omega | exact ⟨decide_eq_true (by omega), by omega⟩, by simp [Fields.q6, Fields.rc, ofFields, ofFields8, chain] <;> (try simp only [decide_eq_true_eq, Bool.and_eq_true]) <;> first | omega | exact ⟨decide_eq_true (by omega), by omega⟩⟩
theorem FieldTrip.urg (e : BitVec 4) (d : Pr) (a : Gpr) (b : Gpr) : Statement (.urg e d a b) := by
  intro hw f hf; cases hf
  have := e.isLt
  have := d.isLt
  have := a.isLt
  have := b.isLt
  refine ⟨by simp [InRange] <;> (try simp only [decide_eq_true_eq, Bool.and_eq_true]) <;> first | omega | exact ⟨decide_eq_true (by omega), by omega⟩, _, rfl, by simp [Fields.q6, Fields.rc, Legal, FieldKind.baseOk, FieldKind.highOk] <;> (try simp only [decide_eq_true_eq, Bool.and_eq_true]) <;> first | omega | exact ⟨decide_eq_true (by omega), by omega⟩, by simp [Fields.q6, Fields.rc, ofFields, ofFields8, chain] <;> (try simp only [decide_eq_true_eq, Bool.and_eq_true]) <;> first | omega | exact ⟨decide_eq_true (by omega), by omega⟩⟩
theorem FieldTrip.regevict (d : Gpr) (a : Gpr) : Statement (.regevict d a) := by
  intro hw f hf; cases hf
  have := d.isLt
  have := a.isLt
  refine ⟨by simp [InRange] <;> (try simp only [decide_eq_true_eq, Bool.and_eq_true]) <;> first | omega | exact ⟨decide_eq_true (by omega), by omega⟩, _, rfl, by simp [Fields.q6, Fields.rc, Legal, FieldKind.baseOk, FieldKind.highOk] <;> (try simp only [decide_eq_true_eq, Bool.and_eq_true]) <;> first | omega | exact ⟨decide_eq_true (by omega), by omega⟩, by simp [Fields.q6, Fields.rc, ofFields, ofFields8, chain] <;> (try simp only [decide_eq_true_eq, Bool.and_eq_true]) <;> first | omega | exact ⟨decide_eq_true (by omega), by omega⟩⟩
theorem FieldTrip.regload (d : Gpr) (a : Gpr) : Statement (.regload d a) := by
  intro hw f hf; cases hf
  have := d.isLt
  have := a.isLt
  refine ⟨by simp [InRange] <;> (try simp only [decide_eq_true_eq, Bool.and_eq_true]) <;> first | omega | exact ⟨decide_eq_true (by omega), by omega⟩, _, rfl, by simp [Fields.q6, Fields.rc, Legal, FieldKind.baseOk, FieldKind.highOk] <;> (try simp only [decide_eq_true_eq, Bool.and_eq_true]) <;> first | omega | exact ⟨decide_eq_true (by omega), by omega⟩, by simp [Fields.q6, Fields.rc, ofFields, ofFields8, chain] <;> (try simp only [decide_eq_true_eq, Bool.and_eq_true]) <;> first | omega | exact ⟨decide_eq_true (by omega), by omega⟩⟩
theorem FieldTrip.cntrd (d : Gpr) (n : BitVec 4) : Statement (.cntrd d n) := by
  intro hw f hf; cases hf
  have := d.isLt
  have := n.isLt
  refine ⟨by simp [InRange] <;> (try simp only [decide_eq_true_eq, Bool.and_eq_true]) <;> first | omega | exact ⟨decide_eq_true (by omega), by omega⟩, _, rfl, by simp [Fields.q6, Fields.rc, Legal, FieldKind.baseOk, FieldKind.highOk] <;> (try simp only [decide_eq_true_eq, Bool.and_eq_true]) <;> first | omega | exact ⟨decide_eq_true (by omega), by omega⟩, by simp [Fields.q6, Fields.rc, ofFields, ofFields8, chain] <;> (try simp only [decide_eq_true_eq, Bool.and_eq_true]) <;> first | omega | exact ⟨decide_eq_true (by omega), by omega⟩⟩
theorem FieldTrip.cntclr (a : Gpr) : Statement (.cntclr a) := by
  intro hw f hf; cases hf
  have := a.isLt
  refine ⟨by simp [InRange] <;> (try simp only [decide_eq_true_eq, Bool.and_eq_true]) <;> first | omega | exact ⟨decide_eq_true (by omega), by omega⟩, _, rfl, by simp [Fields.q6, Fields.rc, Legal, FieldKind.baseOk, FieldKind.highOk] <;> (try simp only [decide_eq_true_eq, Bool.and_eq_true]) <;> first | omega | exact ⟨decide_eq_true (by omega), by omega⟩, by simp [Fields.q6, Fields.rc, ofFields, ofFields8, chain] <;> (try simp only [decide_eq_true_eq, Bool.and_eq_true]) <;> first | omega | exact ⟨decide_eq_true (by omega), by omega⟩⟩
theorem FieldTrip.cntsum (sc : Scope) (d : Gpr) (a : Gpr) : Statement (.cntsum sc d a) := by
  intro hw f hf; cases hf
  have := d.isLt
  have := a.isLt
  cases sc <;> (try simp [Instr.wf, Scope.code, Scope.between] at hw) <;> (try simp only [Scope.code, Nat.reduceMul, Nat.reduceAdd, Nat.reduceDiv, Nat.reduceMod]) <;> refine ⟨by simp [InRange, Scope.code] <;> (try simp only [decide_eq_true_eq, Bool.and_eq_true]) <;> first | omega | exact ⟨decide_eq_true (by omega), by omega⟩, _, rfl, by simp [Fields.q6, Fields.rc, Legal, FieldKind.baseOk, FieldKind.highOk, Scope.code] <;> (try simp only [decide_eq_true_eq, Bool.and_eq_true]) <;> first | omega | exact ⟨decide_eq_true (by omega), by omega⟩, by simp [Fields.q6, Fields.rc, ofFields, ofFields8, chain, Scope.ofCode, Scope.code] <;> (try simp only [decide_eq_true_eq, Bool.and_eq_true]) <;> first | omega | exact ⟨decide_eq_true (by omega), by omega⟩⟩
theorem FieldTrip.brk (i : Imm) : Statement (.brk i) := by
  intro hw f hf; cases hf
  have hv : i.wf 4 = true := by simp only [Instr.wf, Bool.and_eq_true] at hw <;> first | exact hw | exact hw.1 | exact hw.1.1
  obtain ⟨h1, h2, h3, h4⟩ := imm4 hv
  (try simp [Instr.wf] at hw) <;> (try simp only [Fields.putImm, Nat.reduceMul, Nat.reduceAdd, Nat.reduceDiv, Nat.reduceMod]) <;> refine ⟨by simp [InRange, Fields.putImm] <;> (try simp only [decide_eq_true_eq, Bool.and_eq_true]) <;> first | omega | exact ⟨decide_eq_true (by omega), by omega⟩, _, rfl, by simp [Fields.q6, Fields.rc, Legal, FieldKind.baseOk, FieldKind.highOk, Fields.putImm] <;> (try simp only [decide_eq_true_eq, Bool.and_eq_true]) <;> first | omega | exact ⟨decide_eq_true (by omega), by omega⟩, by simp [Fields.q6, Fields.rc, ofFields, ofFields8, chain, Fields.putImm, Fields.getImm, Fields.immN, eta4] <;> (try simp only [decide_eq_true_eq, Bool.and_eq_true]) <;> first | omega | exact ⟨decide_eq_true (by omega), by omega⟩⟩
theorem FieldTrip.mfence : Statement (.mfence) := by
  intro hw f hf; cases hf
  refine ⟨by simp [InRange] <;> (try simp only [decide_eq_true_eq, Bool.and_eq_true]) <;> first | omega | exact ⟨decide_eq_true (by omega), by omega⟩, _, rfl, by simp [Fields.q6, Fields.rc, Legal, FieldKind.baseOk, FieldKind.highOk] <;> (try simp only [decide_eq_true_eq, Bool.and_eq_true]) <;> first | omega | exact ⟨decide_eq_true (by omega), by omega⟩, by simp [Fields.q6, Fields.rc, ofFields, ofFields4, chain] <;> (try simp only [decide_eq_true_eq, Bool.and_eq_true]) <;> first | omega | exact ⟨decide_eq_true (by omega), by omega⟩⟩
theorem FieldTrip.mfenceCore : Statement (.mfenceCore) := by
  intro hw f hf; cases hf
  refine ⟨by simp [InRange] <;> (try simp only [decide_eq_true_eq, Bool.and_eq_true]) <;> first | omega | exact ⟨decide_eq_true (by omega), by omega⟩, _, rfl, by simp [Fields.q6, Fields.rc, Legal, FieldKind.baseOk, FieldKind.highOk] <;> (try simp only [decide_eq_true_eq, Bool.and_eq_true]) <;> first | omega | exact ⟨decide_eq_true (by omega), by omega⟩, by simp [Fields.q6, Fields.rc, ofFields, ofFields4, chain] <;> (try simp only [decide_eq_true_eq, Bool.and_eq_true]) <;> first | omega | exact ⟨decide_eq_true (by omega), by omega⟩⟩
theorem FieldTrip.mirflAll : Statement (.mirflAll) := by
  intro hw f hf; cases hf
  refine ⟨by simp [InRange] <;> (try simp only [decide_eq_true_eq, Bool.and_eq_true]) <;> first | omega | exact ⟨decide_eq_true (by omega), by omega⟩, _, rfl, by simp [Fields.q6, Fields.rc, Legal, FieldKind.baseOk, FieldKind.highOk] <;> (try simp only [decide_eq_true_eq, Bool.and_eq_true]) <;> first | omega | exact ⟨decide_eq_true (by omega), by omega⟩, by simp [Fields.q6, Fields.rc, ofFields, ofFields5, chain] <;> (try simp only [decide_eq_true_eq, Bool.and_eq_true]) <;> first | omega | exact ⟨decide_eq_true (by omega), by omega⟩⟩
theorem FieldTrip.tret : Statement (.tret) := by
  intro hw f hf; cases hf
  refine ⟨by simp [InRange] <;> (try simp only [decide_eq_true_eq, Bool.and_eq_true]) <;> first | omega | exact ⟨decide_eq_true (by omega), by omega⟩, _, rfl, by simp [Fields.q6, Fields.rc, Legal, FieldKind.baseOk, FieldKind.highOk] <;> (try simp only [decide_eq_true_eq, Bool.and_eq_true]) <;> first | omega | exact ⟨decide_eq_true (by omega), by omega⟩, by simp [Fields.q6, Fields.rc, ofFields, ofFields8, chain] <;> (try simp only [decide_eq_true_eq, Bool.and_eq_true]) <;> first | omega | exact ⟨decide_eq_true (by omega), by omega⟩⟩
theorem FieldTrip.tretHalt : Statement (.tretHalt) := by
  intro hw f hf; cases hf
  refine ⟨by simp [InRange] <;> (try simp only [decide_eq_true_eq, Bool.and_eq_true]) <;> first | omega | exact ⟨decide_eq_true (by omega), by omega⟩, _, rfl, by simp [Fields.q6, Fields.rc, Legal, FieldKind.baseOk, FieldKind.highOk] <;> (try simp only [decide_eq_true_eq, Bool.and_eq_true]) <;> first | omega | exact ⟨decide_eq_true (by omega), by omega⟩, by simp [Fields.q6, Fields.rc, ofFields, ofFields8, chain] <;> (try simp only [decide_eq_true_eq, Bool.and_eq_true]) <;> first | omega | exact ⟨decide_eq_true (by omega), by omega⟩⟩
theorem FieldTrip.tretAbort : Statement (.tretAbort) := by
  intro hw f hf; cases hf
  refine ⟨by simp [InRange] <;> (try simp only [decide_eq_true_eq, Bool.and_eq_true]) <;> first | omega | exact ⟨decide_eq_true (by omega), by omega⟩, _, rfl, by simp [Fields.q6, Fields.rc, Legal, FieldKind.baseOk, FieldKind.highOk] <;> (try simp only [decide_eq_true_eq, Bool.and_eq_true]) <;> first | omega | exact ⟨decide_eq_true (by omega), by omega⟩, by simp [Fields.q6, Fields.rc, ofFields, ofFields8, chain] <;> (try simp only [decide_eq_true_eq, Bool.and_eq_true]) <;> first | omega | exact ⟨decide_eq_true (by omega), by omega⟩⟩
theorem FieldTrip.park : Statement (.park) := by
  intro hw f hf; cases hf
  refine ⟨by simp [InRange] <;> (try simp only [decide_eq_true_eq, Bool.and_eq_true]) <;> first | omega | exact ⟨decide_eq_true (by omega), by omega⟩, _, rfl, by simp [Fields.q6, Fields.rc, Legal, FieldKind.baseOk, FieldKind.highOk] <;> (try simp only [decide_eq_true_eq, Bool.and_eq_true]) <;> first | omega | exact ⟨decide_eq_true (by omega), by omega⟩, by simp [Fields.q6, Fields.rc, ofFields, ofFields8, chain] <;> (try simp only [decide_eq_true_eq, Bool.and_eq_true]) <;> first | omega | exact ⟨decide_eq_true (by omega), by omega⟩⟩
theorem FieldTrip.halt : Statement (.halt) := by
  intro hw f hf; cases hf
  refine ⟨by simp [InRange] <;> (try simp only [decide_eq_true_eq, Bool.and_eq_true]) <;> first | omega | exact ⟨decide_eq_true (by omega), by omega⟩, _, rfl, by simp [Fields.q6, Fields.rc, Legal, FieldKind.baseOk, FieldKind.highOk] <;> (try simp only [decide_eq_true_eq, Bool.and_eq_true]) <;> first | omega | exact ⟨decide_eq_true (by omega), by omega⟩, by simp [Fields.q6, Fields.rc, ofFields, ofFields8, chain] <;> (try simp only [decide_eq_true_eq, Bool.and_eq_true]) <;> first | omega | exact ⟨decide_eq_true (by omega), by omega⟩⟩
theorem FieldTrip.step : Statement (.step) := by
  intro hw f hf; cases hf
  refine ⟨by simp [InRange] <;> (try simp only [decide_eq_true_eq, Bool.and_eq_true]) <;> first | omega | exact ⟨decide_eq_true (by omega), by omega⟩, _, rfl, by simp [Fields.q6, Fields.rc, Legal, FieldKind.baseOk, FieldKind.highOk] <;> (try simp only [decide_eq_true_eq, Bool.and_eq_true]) <;> first | omega | exact ⟨decide_eq_true (by omega), by omega⟩, by simp [Fields.q6, Fields.rc, ofFields, ofFields8, chain] <;> (try simp only [decide_eq_true_eq, Bool.and_eq_true]) <;> first | omega | exact ⟨decide_eq_true (by omega), by omega⟩⟩
theorem FieldTrip.stagedStart : Statement .stagedStart := by intro _ _ hf; cases hf
theorem FieldTrip.startEpisode : Statement .startEpisode := by intro _ _ hf; cases hf
theorem FieldTrip.phaekusHeartbeat : Statement .phaekusHeartbeat := by intro _ _ hf; cases hf
theorem FieldTrip.failover : Statement .failover := by intro _ _ hf; cases hf
theorem FieldTrip.clockStepChange : Statement .clockStepChange := by intro _ _ hf; cases hf
theorem FieldTrip.quadReservationUpdate : Statement .quadReservationUpdate := by intro _ _ hf; cases hf
theorem FieldTrip.thermalSample : Statement .thermalSample := by intro _ _ hf; cases hf
theorem FieldTrip.vaultRequestArrival : Statement .vaultRequestArrival := by intro _ _ hf; cases hf
theorem FieldTrip.vaultBeat : Statement .vaultBeat := by intro _ _ hf; cases hf
theorem FieldTrip.rowRepairEnd : Statement .rowRepairEnd := by intro _ _ hf; cases hf
theorem FieldTrip.refreshStart : Statement .refreshStart := by intro _ _ hf; cases hf
theorem FieldTrip.refreshEnd : Statement .refreshEnd := by intro _ _ hf; cases hf
theorem FieldTrip.laneFailure : Statement .laneFailure := by intro _ _ hf; cases hf
theorem FieldTrip.laneRepairEnd : Statement .laneRepairEnd := by intro _ _ hf; cases hf
theorem FieldTrip.vaultBusStallEnd : Statement .vaultBusStallEnd := by intro _ _ hf; cases hf
theorem FieldTrip.writeQueueSend : Statement .writeQueueSend := by intro _ _ hf; cases hf
theorem FieldTrip.registerLineFill : Statement .registerLineFill := by intro _ _ hf; cases hf
theorem FieldTrip.vectorStart : Statement .vectorStart := by intro _ _ hf; cases hf
theorem FieldTrip.yieldEnd : Statement .yieldEnd := by intro _ _ hf; cases hf
theorem FieldTrip.walkStart : Statement .walkStart := by intro _ _ hf; cases hf
theorem FieldTrip.walkComplete : Statement .walkComplete := by intro _ _ hf; cases hf
theorem FieldTrip.walkRetry : Statement .walkRetry := by intro _ _ hf; cases hf
theorem FieldTrip.shootdown : Statement .shootdown := by intro _ _ hf; cases hf
theorem FieldTrip.tableWriteSettled : Statement .tableWriteSettled := by intro _ _ hf; cases hf
theorem FieldTrip.fenceMarker : Statement .fenceMarker := by intro _ _ hf; cases hf
theorem FieldTrip.drainedPacket : Statement .drainedPacket := by intro _ _ hf; cases hf
theorem FieldTrip.logShip : Statement .logShip := by intro _ _ hf; cases hf
theorem FieldTrip.logEntryApply : Statement .logEntryApply := by intro _ _ hf; cases hf
theorem FieldTrip.logAck : Statement .logAck := by intro _ _ hf; cases hf
theorem FieldTrip.homeRead : Statement .homeRead := by intro _ _ hf; cases hf
theorem FieldTrip.homeReadReply : Statement .homeReadReply := by intro _ _ hf; cases hf
theorem FieldTrip.vaultAgentRequest : Statement .vaultAgentRequest := by intro _ _ hf; cases hf
theorem FieldTrip.homeAtomic : Statement .homeAtomic := by intro _ _ hf; cases hf
theorem FieldTrip.homeFullEmpty : Statement .homeFullEmpty := by intro _ _ hf; cases hf
theorem FieldTrip.homeSyncWord : Statement .homeSyncWord := by intro _ _ hf; cases hf
theorem FieldTrip.homeWaitRetry : Statement .homeWaitRetry := by intro _ _ hf; cases hf
theorem FieldTrip.remoteReply : Statement .remoteReply := by intro _ _ hf; cases hf
theorem FieldTrip.postedPerformed : Statement .postedPerformed := by intro _ _ hf; cases hf
theorem FieldTrip.switchMergeForward : Statement .switchMergeForward := by intro _ _ hf; cases hf
theorem FieldTrip.acqQuery : Statement .acqQuery := by intro _ _ hf; cases hf
theorem FieldTrip.acqWriterDone : Statement .acqWriterDone := by intro _ _ hf; cases hf
theorem FieldTrip.logqQuery : Statement .logqQuery := by intro _ _ hf; cases hf
theorem FieldTrip.messageArrival : Statement .messageArrival := by intro _ _ hf; cases hf
theorem FieldTrip.wakeArrival : Statement .wakeArrival := by intro _ _ hf; cases hf
theorem FieldTrip.nakArrival : Statement .nakArrival := by intro _ _ hf; cases hf
theorem FieldTrip.handlerDispatch : Statement .handlerDispatch := by intro _ _ hf; cases hf
theorem FieldTrip.submissionArrival : Statement .submissionArrival := by intro _ _ hf; cases hf
theorem FieldTrip.launchAccept : Statement .launchAccept := by intro _ _ hf; cases hf
theorem FieldTrip.launchCounted : Statement .launchCounted := by intro _ _ hf; cases hf
theorem FieldTrip.launchPacketArrival : Statement .launchPacketArrival := by intro _ _ hf; cases hf
theorem FieldTrip.groupsPending : Statement .groupsPending := by intro _ _ hf; cases hf
theorem FieldTrip.groupStart : Statement .groupStart := by intro _ _ hf; cases hf
theorem FieldTrip.dieReport : Statement .dieReport := by intro _ _ hf; cases hf
theorem FieldTrip.completionRingWrite : Statement .completionRingWrite := by intro _ _ hf; cases hf
theorem FieldTrip.barrierArrival : Statement .barrierArrival := by intro _ _ hf; cases hf
theorem FieldTrip.energyLeaseRequest : Statement .energyLeaseRequest := by intro _ _ hf; cases hf
theorem FieldTrip.energyLeaseGrant : Statement .energyLeaseGrant := by intro _ _ hf; cases hf
theorem FieldTrip.copyCommandStart : Statement .copyCommandStart := by intro _ _ hf; cases hf
theorem FieldTrip.copySegment : Statement .copySegment := by intro _ _ hf; cases hf
theorem FieldTrip.segmentApply : Statement .segmentApply := by intro _ _ hf; cases hf
theorem FieldTrip.copyCompletion : Statement .copyCompletion := by intro _ _ hf; cases hf
theorem FieldTrip.followOnIssue : Statement .followOnIssue := by intro _ _ hf; cases hf
theorem FieldTrip.hostFlushRead : Statement .hostFlushRead := by intro _ _ hf; cases hf
theorem FieldTrip.collDescriptorArrival : Statement .collDescriptorArrival := by intro _ _ hf; cases hf
theorem FieldTrip.collInstanceRun : Statement .collInstanceRun := by intro _ _ hf; cases hf
theorem FieldTrip.matrixGrant : Statement .matrixGrant := by intro _ _ hf; cases hf
theorem FieldTrip.matrixPerform : Statement .matrixPerform := by intro _ _ hf; cases hf
theorem FieldTrip.tstChunkWrite : Statement .tstChunkWrite := by intro _ _ hf; cases hf
theorem FieldTrip.flitTransmit : Statement .flitTransmit := by intro _ _ hf; cases hf
theorem FieldTrip.flitReceive : Statement .flitReceive := by intro _ _ hf; cases hf
theorem FieldTrip.retryRequest : Statement .retryRequest := by intro _ _ hf; cases hf
theorem FieldTrip.trackDeath : Statement .trackDeath := by intro _ _ hf; cases hf
theorem FieldTrip.linkDeath : Statement .linkDeath := by intro _ _ hf; cases hf
theorem FieldTrip.urgentNakResend : Statement .urgentNakResend := by intro _ _ hf; cases hf
theorem FieldTrip.endToEndAck : Statement .endToEndAck := by intro _ _ hf; cases hf
theorem FieldTrip.frameArrival : Statement .frameArrival := by intro _ _ hf; cases hf
theorem FieldTrip.streamOpPerform : Statement .streamOpPerform := by intro _ _ hf; cases hf
theorem FieldTrip.truncationEvent : Statement .truncationEvent := by intro _ _ hf; cases hf
theorem FieldTrip.trapDelivery : Statement .trapDelivery := by intro _ _ hf; cases hf
theorem FieldTrip.urgRequestArrival : Statement .urgRequestArrival := by intro _ _ hf; cases hf
theorem FieldTrip.urgentEpisodeStart : Statement .urgentEpisodeStart := by intro _ _ hf; cases hf
theorem FieldTrip.urgLimit : Statement .urgLimit := by intro _ _ hf; cases hf
theorem FieldTrip.deadlock : Statement .deadlock := by intro _ _ hf; cases hf
theorem FieldTrip.quietPeriod : Statement .quietPeriod := by intro _ _ hf; cases hf
theorem FieldTrip.containment : Statement .containment := by intro _ _ hf; cases hf
theorem FieldTrip.hostBarWrite : Statement .hostBarWrite := by intro _ _ hf; cases hf
theorem FieldTrip.qresWrite : Statement .qresWrite := by intro _ _ hf; cases hf
theorem FieldTrip.contreqWrite : Statement .contreqWrite := by intro _ _ hf; cases hf
theorem FieldTrip.bar2TableWrite : Statement .bar2TableWrite := by intro _ _ hf; cases hf
theorem FieldTrip.launchDoorbellDirect : Statement .launchDoorbellDirect := by intro _ _ hf; cases hf
theorem FieldTrip.launchDoorbellIndirect : Statement .launchDoorbellIndirect := by intro _ _ hf; cases hf
theorem FieldTrip.launchResultRead : Statement .launchResultRead := by intro _ _ hf; cases hf
theorem FieldTrip.frameDoorbell : Statement .frameDoorbell := by intro _ _ hf; cases hf
theorem FieldTrip.frameResultRead : Statement .frameResultRead := by intro _ _ hf; cases hf
theorem FieldTrip.illegalEncoding : Statement .illegalEncoding := by intro _ _ hf; cases hf
theorem FieldTrip.instructionFetchFault : Statement .instructionFetchFault := by intro _ _ hf; cases hf
theorem FieldTrip.pcieError : Statement .pcieError := by intro _ _ hf; cases hf

end Sys2Proof.Laws
end

