-- ==== Sys2Proof/Laws/Scalar.lean ====
section
/-!
SUPPORT. The arithmetic of the scalar page read as bit vectors of the operand width.
-/
namespace Sys2Proof.Machine

theorem Width.bits_pos (w : Width) : 0 < w.bits := by cases w <;> decide
theorem Width.bits_le (w : Width) : w.bits ≤ 64 := by cases w <;> decide

/-- The signed value of a number is that of its bits. -/
theorem sv_toNat {n : Nat} (h : 0 < n) (x : BitVec n) : sv n x.toNat = x.toInt := by
  have e : 2 ^ n = 2 * 2 ^ (n - 1) := by
    rw [← Nat.pow_succ']
    congr 1
    omega
  have c : (2 : Int) ^ n = ((2 ^ n : Nat) : Int) := by push_cast; rfl
  rw [BitVec.toInt_eq_toNat_cond, sv, c, e]
  generalize 2 ^ (n - 1) = k
  split <;> split <;> first | rfl | omega
/-- An integer cut to n bits. -/
theorem toBits_ofInt (n : Nat) (i : Int) : toBits n i = (BitVec.ofInt n i).toNat := by
  rw [BitVec.toNat_ofInt, toBits]
  norm_cast

theorem ofNat_toBits (n : Nat) (i : Int) : BitVec.ofNat n (toBits n i) = BitVec.ofInt n i := by
  rw [toBits_ofInt, BitVec.ofNat_toNat, BitVec.setWidth_eq]

/-- The operand of a scalar instruction as bits (R142). -/
theorem State.src_eq (s : State) (w : Width) (r : Gpr) : s.src w r = ((s.gpr r).setWidth w.bits).toNat := by
  simp [State.src, BitVec.toNat_setWidth]

/-- A result written sign-extended (R142). -/
theorem widen_signed (w : Width) (r : Nat) : widen w false r = (BitVec.ofNat w.bits r).signExtend 64 := by
  apply BitVec.eq_of_toInt_eq
  have h : r % 2 ^ w.bits = (BitVec.ofNat w.bits r).toNat := by simp
  simp only [widen, sextTo, Bool.false_eq_true, if_false]
  rw [h, sv_toNat (Width.bits_pos w), ofNat_toBits, BitVec.toInt_signExtend, BitVec.toInt_ofInt]
  have hb := Width.bits_le w
  rw [Nat.min_eq_right hb]
  cases w <;> first | rfl | (rw [BitVec.toInt_eq_toNat_cond]; simp only [Width.bits, BitVec.toNat_ofNat, Int.bmod]; split <;> omega)
/-- A result written zero-extended (R142). -/
theorem widen_natural (w : Width) (r : Nat) : widen w true r = (BitVec.ofNat w.bits r).setWidth 64 := by
  simp [widen, ← BitVec.toNat_inj, BitVec.toNat_setWidth]

/-- An immediate at a width as bits (R98). -/
theorem immInt_eq (n : Nat) (i : Imm) :
    immInt n i = ((BitVec.ofNat (4 + 12 * i.ext) i.val).signExtend n).toNat := by
  have h : i.val % 2 ^ Imm.width i = (BitVec.ofNat (4 + 12 * i.ext) i.val).toNat := by simp [Imm.width]
  rw [immInt, toBits_ofInt, h, show Imm.width i = 4 + 12 * i.ext from rfl, sv_toNat (by omega)]
  rfl

/-! What each shape of scalar instruction answers, for a function of bit vectors that agrees with its arithmetic. -/

variable (s : State) (w : Width) (d a b : Gpr)

theorem State.putScalar_signed (t : State) {r : Nat} {x : BitVec w.bits} (h : BitVec.ofNat w.bits r = x) :
    t.putScalar w false d r = (t.putGpr d (x.signExtend 64)).retire := by
  simp only [State.putScalar, widen_signed, h]
theorem State.putScalar_natural (t : State) {r : Nat} {x : BitVec w.bits} (h : BitVec.ofNat w.bits r = x) :
    t.putScalar w true d r = (t.putGpr d (x.setWidth 64)).retire := by
  simp only [State.putScalar, widen_natural, h]

theorem State.bin_signed {f : Nat → Nat → Nat} {g : BitVec w.bits → BitVec w.bits → BitVec w.bits}
    (h : ∀ x y : BitVec w.bits, BitVec.ofNat w.bits (f x.toNat y.toNat) = g x y) :
    s.bin w false d a b f =
      s.guarded ((s.putGpr d ((g ((s.gpr a).setWidth w.bits) ((s.gpr b).setWidth w.bits)).signExtend 64)).retire) := by
  rw [State.bin, State.src_eq, State.src_eq, State.putScalar_signed w d s (h _ _)]
theorem State.bin_natural {f : Nat → Nat → Nat} {g : BitVec w.bits → BitVec w.bits → BitVec w.bits}
    (h : ∀ x y : BitVec w.bits, BitVec.ofNat w.bits (f x.toNat y.toNat) = g x y) :
    s.bin w true d a b f =
      s.guarded ((s.putGpr d ((g ((s.gpr a).setWidth w.bits) ((s.gpr b).setWidth w.bits)).setWidth 64)).retire) := by
  rw [State.bin, State.src_eq, State.src_eq, State.putScalar_natural w d s (h _ _)]
theorem State.shift_signed {f : Nat → Nat → Nat → Nat} {g : BitVec w.bits → Nat → BitVec w.bits}
    (h : ∀ (x : BitVec w.bits) k, k < w.bits → BitVec.ofNat w.bits (f w.bits x.toNat k) = g x k) :
    s.shift w d a b f = s.guarded
      ((s.putGpr d ((g ((s.gpr a).setWidth w.bits) ((s.gpr b).toNat % w.bits)).signExtend 64)).retire) := by
  rw [State.shift, State.src_eq, State.putScalar_signed w d s (h _ _ (Nat.mod_lt _ (Width.bits_pos w)))]
theorem State.shiftImm_signed (i : Imm) {f : Nat → Nat → Nat → Nat} {g : BitVec w.bits → Nat → BitVec w.bits}
    (h : ∀ (x : BitVec w.bits) k, k < w.bits → BitVec.ofNat w.bits (f w.bits x.toNat k) = g x k) :
    s.shiftImm w d a i f =
      s.guarded ((s.putGpr d ((g ((s.gpr a).setWidth w.bits) (i.val % w.bits)).signExtend 64)).retire) := by
  rw [State.shiftImm, State.src_eq, State.putScalar_signed w d s (h _ _ (Nat.mod_lt _ (Width.bits_pos w)))]
theorem State.un_signed {f : Nat → Nat} {g : BitVec w.bits → BitVec w.bits}
    (h : ∀ x : BitVec w.bits, BitVec.ofNat w.bits (f x.toNat) = g x) :
    s.un w false d a f = s.guarded ((s.putGpr d ((g ((s.gpr a).setWidth w.bits)).signExtend 64)).retire) := by
  rw [State.un, State.src_eq, State.putScalar_signed w d s (h _)]
theorem State.un_natural {f : Nat → Nat} {g : BitVec w.bits → BitVec w.bits}
    (h : ∀ x : BitVec w.bits, BitVec.ofNat w.bits (f x.toNat) = g x) :
    s.un w true d a f = s.guarded ((s.putGpr d ((g ((s.gpr a).setWidth w.bits)).setWidth 64)).retire) := by
  rw [State.un, State.src_eq, State.putScalar_natural w d s (h _)]
theorem State.division_signed {f : Nat → Nat → Nat} {g : BitVec w.bits → BitVec w.bits → BitVec w.bits}
    (h : ∀ x y : BitVec w.bits, BitVec.ofNat w.bits (f x.toNat y.toNat) = g x y) :
    s.division w false d a b f = s.guarded
      ((s.events { idz := if (s.gpr b).setWidth w.bits = 0#w.bits then 1 else 0 }).putGpr d
        ((g ((s.gpr a).setWidth w.bits) ((s.gpr b).setWidth w.bits)).signExtend 64)).retire := by
  rw [State.division, State.src_eq, State.src_eq, State.putScalar_signed w d _ (h _ _)]
  simp only [← BitVec.toNat_inj (y := 0#w.bits), BitVec.toNat_zero]
theorem State.division_natural {f : Nat → Nat → Nat} {g : BitVec w.bits → BitVec w.bits → BitVec w.bits}
    (h : ∀ x y : BitVec w.bits, BitVec.ofNat w.bits (f x.toNat y.toNat) = g x y) :
    s.division w true d a b f = s.guarded
      ((s.events { idz := if (s.gpr b).setWidth w.bits = 0#w.bits then 1 else 0 }).putGpr d
        ((g ((s.gpr a).setWidth w.bits) ((s.gpr b).setWidth w.bits)).setWidth 64)).retire := by
  rw [State.division, State.src_eq, State.src_eq, State.putScalar_natural w d _ (h _ _)]
  simp only [← BitVec.toNat_inj (y := 0#w.bits), BitVec.toNat_zero]
theorem State.cmp_bits (p : Pr) {f : Nat → Nat → Bool} {g : BitVec w.bits → BitVec w.bits → Bool}
    (h : ∀ x y : BitVec w.bits, f x.toNat y.toNat = g x y) :
    s.cmp w p a b f =
      s.guarded ((s.putPred p (spread (g ((s.gpr a).setWidth w.bits) ((s.gpr b).setWidth w.bits)))).retire) := by
  rw [State.cmp, State.src_eq, State.src_eq, h, State.putTruth]
theorem State.cmpImm_bits (p : Pr) (i : Imm) {f : Nat → Nat → Bool} {g : BitVec w.bits → BitVec w.bits → Bool}
    (h : ∀ x y : BitVec w.bits, f x.toNat y.toNat = g x y) :
    s.cmpImm w p a i f = s.guarded ((s.putPred p (spread (g ((s.gpr a).setWidth w.bits)
      ((BitVec.ofNat (4 + 12 * i.ext) i.val).signExtend w.bits)))).retire) := by
  rw [State.cmpImm, State.src_eq, immInt_eq, h, State.putTruth]

end Sys2Proof.Machine
end

