-- ==== Sys2Proof/Laws/Vector.lean ====
section
/-!
SUPPORT. The elements of a vector register: reading the lists of a vector meaning element by element.
-/
namespace Sys2Proof.Machine

theorem upFrom_length (lo n : Nat) : (upFrom lo n).length = n := by
  induction n generalizing lo with
  | zero => rfl
  | succ n ih => simp [upFrom, ih]
theorem upFrom_getElem? (lo n i : Nat) (h : i < n) : (upFrom lo n)[i]? = some (lo + i) := by
  induction n generalizing lo i with
  | zero => omega
  | succ n ih =>
    cases i with
    | zero => simp [upFrom]
    | succ i =>
      simp only [upFrom, List.getElem?_cons_succ]
      rw [ih (lo + 1) i (by omega)]
      congr 1
      omega
@[simp] theorem below_length (n : Nat) : (below n).length = n := upFrom_length 0 n
theorem below_getElem? {n i : Nat} (h : i < n) : (below n)[i]? = some i := by
  rw [below, upFrom_getElem? _ _ _ h, Nat.zero_add]
theorem mem_upFrom {lo n i : Nat} : i ∈ upFrom lo n ↔ lo ≤ i ∧ i < lo + n := by
  induction n generalizing lo with
  | zero => simp [upFrom]
  | succ n ih =>
    simp only [upFrom, List.mem_cons, ih]
    omega
@[simp] theorem mem_below {n i : Nat} : i ∈ below n ↔ i < n := by simp [below, mem_upFrom]

theorem elemsFrom_length (x w n : Nat) : (elemsFrom x w n).length = n := by
  induction n generalizing x with
  | zero => rfl
  | succ n ih => simp [elemsFrom, ih]
theorem elemsFrom_getElem? (x w : Nat) {n i : Nat} (h : i < n) :
    (elemsFrom x w n)[i]? = some (x / 2 ^ (w * i) % 2 ^ w) := by
  induction n generalizing x i with
  | zero => omega
  | succ n ih =>
    cases i with
    | zero => simp [elemsFrom]
    | succ i =>
      simp only [elemsFrom, List.getElem?_cons_succ]
      rw [ih _ (by omega), Nat.div_div_eq_div_mul, ← Nat.pow_add]
      congr 4
      ring
@[simp] theorem elems_length (w : Nat) (v : Vec) : (elems w v).length = elemCount w := elemsFrom_length _ _ _
theorem elems_getElem? (w : Nat) (v : Vec) {i : Nat} (h : i < elemCount w) :
    (elems w v)[i]? = some (v.extractLsb' (i * w) w).toNat := by
  rw [elems, elemsFrom_getElem? _ _ h, BitVec.extractLsb'_toNat, Nat.shiftRight_eq_div_pow, Nat.mul_comm]

theorem packElems_elem (w : Nat) (l : List Nat) (i : Nat) :
    packElems w l / 2 ^ (w * i) % 2 ^ w = l.getD i 0 % 2 ^ w := by
  induction l generalizing i with
  | nil => simp [packElems]
  | cons x r ih =>
    have hx : x % 2 ^ w < 2 ^ w := Nat.mod_lt _ (by positivity)
    cases i with
    | zero => simp [packElems]
    | succ i =>
      have e : packElems w (x :: r) / 2 ^ w = packElems w r := by
        show (packElems w r * 2 ^ w + x % 2 ^ w) / 2 ^ w = packElems w r
        rw [Nat.add_comm, Nat.add_mul_div_right _ _ (by positivity), Nat.div_eq_of_lt hx, Nat.zero_add]
      rw [show w * (i + 1) = w + w * i by ring, Nat.pow_add, ← Nat.div_div_eq_div_mul, e, ih]
      simp

/-- The element widths. -/
abbrev ElemWidth (w : Nat) : Prop := w = 8 ∨ w = 16 ∨ w = 32 ∨ w = 64
theorem Width.elemWidth (w : Width) : ElemWidth w.bits := by cases w <;> simp [ElemWidth, Width.bits]
theorem ElemWidth.mul {w : Nat} (h : ElemWidth w) : w * elemCount w = 8192 := by
  obtain h | h | h | h := h <;> subst h <;> decide

/-- Element `i` of the register that a list makes. -/
theorem ofElems_elem {w : Nat} (hw : ElemWidth w) (l : List Nat) {i : Nat} (hi : i < elemCount w) :
    (ofElems w l).extractLsb' (i * w) w = BitVec.ofNat w (l.getD i 0) := by
  have hm := hw.mul
  have : w * i + w ≤ 8192 := by
    rw [← hm, ← Nat.mul_succ]
    exact Nat.mul_le_mul_left w hi
  apply BitVec.eq_of_toNat_eq
  rw [BitVec.extractLsb'_toNat, ofElems, BitVec.toNat_ofNat, Nat.shiftRight_eq_div_pow, BitVec.toNat_ofNat,
    ← packElems_elem w l i, Nat.mul_comm i w]
  obtain ⟨k, hk⟩ := Nat.exists_eq_add_of_le this
  rw [hk, show 2 ^ (w * i + w + k) = 2 ^ (w * i) * (2 ^ w * 2 ^ k) by rw [Nat.pow_add, Nat.pow_add]; ring,
    Nat.mod_mul_right_div_self, Nat.mod_mul_right_mod]

theorem flatMap2_getD (l : List Bool) (i : Nat) : (l.flatMap fun b => [b, b]).getD i false = l.getD (i / 2) false := by
  induction l generalizing i with
  | nil => simp
  | cons b r ih =>
    match i with
    | 0 => simp
    | 1 => simp
    | i + 2 =>
      have := ih i
      simp only [List.getD_eq_getElem?_getD] at this
      simp [this, show (i + 2) / 2 = i / 2 + 1 by omega]
theorem flatMap4_getD (l : List Bool) (i : Nat) :
    (l.flatMap fun b => [b, b, b, b]).getD i false = l.getD (i / 4) false := by
  induction l generalizing i with
  | nil => simp
  | cons b r ih =>
    match i with
    | 0 => simp
    | 1 => simp
    | 2 => simp
    | 3 => simp
    | i + 4 =>
      have := ih i
      simp only [List.getD_eq_getElem?_getD] at this
      simp [this, show (i + 4) / 4 = i / 4 + 1 by omega]

/-- Whether element `i` is active under a mask (R163, R164). -/
theorem activeList_getD {w : Nat} (hw : ElemWidth w) (g : Pred) {i : Nat} (hi : i < elemCount w) :
    (activeList w g).getD i false = g.getLsbD (i * w / 32) := by
  have h32 : ∀ j, j < 256 → ((below 256).map fun j => g.getLsbD j).getD j false = g.getLsbD j := by
    intro j hj
    simp [List.getD_eq_getElem?_getD, List.getElem?_map, below_getElem? hj]
  obtain h | h | h | h := hw <;> subst h
  · have hi : i < 1024 := hi
    simp only [activeList]
    rw [flatMap4_getD, h32 _ (by omega)]
    congr 1
    omega
  · have hi : i < 512 := hi
    simp only [activeList]
    rw [flatMap2_getD, h32 _ (by omega)]
    congr 1
    omega
  · have hi : i < 256 := hi
    simp only [activeList]
    rw [h32 _ hi]
    congr 1
    omega
  · have hi : i < 128 := hi
    simp only [activeList, List.getD_eq_getElem?_getD, List.getElem?_map, below_getElem? hi]
    simp only [Option.map_some, Option.getD_some]
    congr 1
    omega
theorem flatMap2_length (l : List Bool) : (l.flatMap fun b => [b, b]).length = 2 * l.length := by
  induction l with
  | nil => rfl
  | cons b r ih => simp only [List.flatMap_cons, List.length_append, ih, List.length_cons, List.length_nil]; omega
theorem flatMap4_length (l : List Bool) : (l.flatMap fun b => [b, b, b, b]).length = 4 * l.length := by
  induction l with
  | nil => rfl
  | cons b r ih => simp only [List.flatMap_cons, List.length_append, ih, List.length_cons, List.length_nil]; omega
theorem activeList_length {w : Nat} (hw : ElemWidth w) (g : Pred) : (activeList w g).length = elemCount w := by
  obtain h | h | h | h := hw <;> subst h <;>
    simp only [activeList, flatMap2_length, flatMap4_length, List.length_map, below_length, elemCount]

theorem mergeElems_getD (act : List Bool) (old new : List Nat) {i : Nat} (h1 : i < act.length) (h2 : i < old.length)
    (h3 : i < new.length) :
    (mergeElems act old new).getD i 0 = if act.getD i false then new.getD i 0 else old.getD i 0 := by
  simp only [mergeElems, List.getD_eq_getElem?_getD, List.getElem?_zipWith, List.zip, List.getElem?_eq_getElem, h1, h2, h3,
    Option.getD_some]

theorem zip3_getElem? {α : Type} (f : Nat → Nat → Nat → α) (xs ys zs : List Nat) (i : Nat) {x y z : Nat}
    (hx : xs[i]? = some x) (hy : ys[i]? = some y) (hz : zs[i]? = some z) : (zip3 f xs ys zs)[i]? = some (f x y z) := by
  induction i generalizing xs ys zs with
  | zero =>
    cases xs <;> cases ys <;> cases zs <;> simp_all [zip3]
  | succ i ih =>
    cases xs <;> cases ys <;> cases zs <;> simp_all [zip3]
theorem zip3_length {α : Type} (f : Nat → Nat → Nat → α) (xs ys zs : List Nat) (n : Nat) (hx : xs.length = n)
    (hy : ys.length = n) (hz : zs.length = n) : (zip3 f xs ys zs).length = n := by
  induction n generalizing xs ys zs with
  | zero => cases xs <;> cases ys <;> cases zs <;> simp_all [zip3]
  | succ n ih => cases xs <;> cases ys <;> cases zs <;> simp_all [zip3]

/-- Element `i` of an element-wise result: the new value where the element is active, the old one elsewhere (R164). -/
theorem merge_elem {w : Nat} (hw : ElemWidth w) (g : Pred) (old : Vec) (new : List Nat) (hn : new.length = elemCount w)
    {i : Nat} (hi : i < elemCount w) :
    (ofElems w (mergeElems (activeList w g) (elems w old) new)).extractLsb' (i * w) w =
      if g.getLsbD (i * w / 32) then BitVec.ofNat w (new.getD i 0) else old.extractLsb' (i * w) w := by
  rw [ofElems_elem hw _ hi, mergeElems_getD _ _ _ (by rw [activeList_length hw]; exact hi) (by simpa using hi) (by omega),
    activeList_getD hw g hi]
  split
  · rfl
  · rw [List.getD_eq_getElem?_getD, elems_getElem? w old hi, Option.getD_some, BitVec.ofNat_toNat, BitVec.setWidth_eq]

/-- What `eltwise` makes of element `i`. -/
theorem State.eltwise_elem (s : State) {w : Nat} (hw : ElemWidth w) (d : Vr) (xs ys : List Nat)
    (hx : xs.length = elemCount w) (hy : ys.length = elemCount w) (f : Nat → Nat → Nat → Nat × Fl) :
    ∃ v, s.eltwise w d xs ys f = s.vecResult d v (activeLanes w s.guardMask)
        (sumFl (activeList w s.guardMask) (zip3 f xs ys (elems w (s.vec d)))) ∧
      ∀ i, i < elemCount w → v.extractLsb' (i * w) w =
        if s.guardMask.getLsbD (i * w / 32) then
          BitVec.ofNat w (f (xs.getD i 0) (ys.getD i 0) ((s.vec d).extractLsb' (i * w) w).toNat).1
        else (s.vec d).extractLsb' (i * w) w := by
  refine ⟨_, rfl, fun i hi => ?_⟩
  rw [merge_elem hw _ _ _ (by rw [List.length_map, zip3_length _ _ _ _ _ hx hy (elems_length _ _)]) hi]
  congr 2
  have e : ∀ l : List Nat, l.length = elemCount w → l[i]? = some (l.getD i 0) := by
    intro l h
    rw [List.getD_eq_getElem?_getD, List.getElem?_eq_getElem (by omega), Option.getD_some]
  rw [List.getD_eq_getElem?_getD, List.getElem?_map,
    zip3_getElem? f xs ys _ i (e xs hx) (e ys hy) (elems_getElem? w (s.vec d) hi)]
  rfl

/-- The lanes that an element-wise result covers. -/
theorem activeLanes_getLsbD {w : Nat} (g : Pred) {j : Nat} (h : j < 256) :
    (activeLanes w g).getLsbD j = g.getLsbD (if w = 64 then 2 * (j / 2) else j) := by
  by_cases hw : w = 64
  · subst hw
    have key : ∀ (n : Nat) (l : Nat), n + l ≤ 128 →
        ((upFrom l n).foldr (fun i (acc : Pred) => acc ||| (if g.getLsbD (2 * i) then 3#256 <<< (2 * i) else 0)) 0).getLsbD j
          = (decide (l ≤ j / 2 ∧ j / 2 < l + n) && g.getLsbD (2 * (j / 2))) := by
      intro n
      induction n with
      | zero =>
        intro l _
        have : ¬(l ≤ j / 2 ∧ j / 2 < l + 0) := by omega
        rw [decide_eq_false this]
        simp [upFrom]
      | succ n ih =>
        intro l hl
        simp only [upFrom, List.foldr_cons]
        rw [BitVec.getLsbD_or, ih (l + 1) (by omega)]
        have h3 : (3#256 <<< (2 * l)).getLsbD j = decide (j / 2 = l) := by
          rw [BitVec.getLsbD_shiftLeft]
          by_cases e : j / 2 = l
          · have : j - 2 * l = 0 ∨ j - 2 * l = 1 := by omega
            have hlt : ¬ j < 2 * l := by omega
            obtain h0 | h0 := this <;> simp [h, hlt, h0, e]
          · by_cases hlt : j < 2 * l
            · simp [hlt, e]
            · obtain ⟨q, hq⟩ : ∃ q, j - 2 * l = q + 2 := ⟨j - 2 * l - 2, by omega⟩
              have : (3#256).getLsbD (q + 2) = false := by
                rw [BitVec.getLsbD, BitVec.toNat_ofNat, Nat.testBit_add]
                simp
              simp [hq, this, e]
        by_cases e : j / 2 = l
        · have : ¬ (l + 1 ≤ j / 2 ∧ j / 2 < l + 1 + n) := by omega
          have h4 : l ≤ j / 2 ∧ j / 2 < l + (n + 1) := by omega
          rw [decide_eq_false this, decide_eq_true h4, ← e]
          rw [← e] at h3
          cases hg : g.getLsbD (2 * (j / 2)) <;> simp [h3]
        · have h5 : (l + 1 ≤ j / 2 ∧ j / 2 < l + 1 + n) ↔ (l ≤ j / 2 ∧ j / 2 < l + (n + 1)) := by omega
          simp only [h5]
          cases hg : g.getLsbD (2 * l) <;> simp [h3, e]
    have := key 128 0 (by omega)
    simp only [activeLanes, if_true]
    rw [below, this]
    have : j / 2 < 128 := by omega
    simp [this]
  · simp [activeLanes, hw]

/-- Lane `j` of a predicate formed from truth values (R171): every element that starts in or covers the lane is true. -/
theorem packBits_getLsbD (l : List Bool) (n j : Nat) (h : j < n) :
    (BitVec.ofNat n (packElems 1 (l.map fun b => if b then 1 else 0))).getLsbD j = l.getD j false := by
  have e := packElems_elem 1 (l.map fun b => if b then 1 else 0) j
  rw [Nat.one_mul, Nat.pow_one] at e
  have hd : (l.map fun b => if b then 1 else 0).getD j 0 = if l.getD j false then 1 else 0 := by
    simp only [List.getD_eq_getElem?_getD, List.getElem?_map]
    cases l[j]? <;> simp
  rw [hd] at e
  rw [BitVec.getLsbD_ofNat]
  simp only [h, decide_true, Bool.true_and, Nat.testBit_eq_decide_div_mod_eq, e]
  cases l.getD j false <;> simp

/-! Events of the active elements. -/

theorem sumFl_none (act : List Bool) (rs : List (Nat × Fl)) (h : ∀ r ∈ rs, r.2 = Fl.none) : sumFl act rs = Fl.none := by
  induction act generalizing rs with
  | nil => cases rs <;> rfl
  | cons b bs ih =>
    cases rs with
    | nil => cases b <;> rfl
    | cons r rs =>
      have := ih rs (fun r' h' => h r' (List.mem_cons_of_mem _ h'))
      cases b
      · simpa [sumFl] using this
      · simp only [sumFl, this, h r List.mem_cons_self]
        rfl
theorem sumFl_map (l : List Nat) (b : Nat → Bool) (r : Nat → Nat × Fl) :
    sumFl (l.map b) (l.map r) = (l.filter b).foldr (fun i a => (r i).2.add a) Fl.none := by
  induction l with
  | nil => rfl
  | cons x l ih => cases h : b x <;> simp [sumFl, h, ih]
theorem activeList_eq {w : Nat} (hw : ElemWidth w) (g : Pred) :
    activeList w g = (List.range (elemCount w)).map fun i => g.getLsbD (i * w / 32) := by
  apply List.ext_getElem
  · simp [activeList_length hw]
  · intro i h1 h2
    have hi : i < elemCount w := by simpa using h2
    have := activeList_getD hw g hi
    rw [List.getD_eq_getElem?_getD, List.getElem?_eq_getElem h1] at this
    simpa using this
theorem zip3_eq {f : Nat → Nat → Nat → Nat × Fl} {n : Nat} (xs ys zs : List Nat) (hx : xs.length = n)
    (hy : ys.length = n) (hz : zs.length = n) :
    zip3 f xs ys zs = (List.range n).map fun i => f (xs.getD i 0) (ys.getD i 0) (zs.getD i 0) := by
  apply List.ext_getElem
  · simp [zip3_length f xs ys zs n hx hy hz]
  · intro i h1 h2
    have hi : i < n := by simpa using h2
    have e : ∀ l : List Nat, l.length = n → l[i]? = some (l.getD i 0) := by
      intro l h
      rw [List.getD_eq_getElem?_getD, List.getElem?_eq_getElem (by omega), Option.getD_some]
    have := zip3_getElem? f xs ys zs i (e xs hx) (e ys hy) (e zs hz)
    rw [List.getElem?_eq_getElem h1] at this
    simpa using this
theorem clampInt_eq {lo hi : Int} (i : Int) (h : lo ≤ hi) :
    clampInt lo hi i = (max lo (min hi i), decide (i < lo ∨ hi < i)) := by
  unfold clampInt
  split
  · rw [Prod.mk.injEq]
    exact ⟨by omega, by simp [*]⟩
  · split
    · rw [Prod.mk.injEq]
      exact ⟨by omega, by simp [*]⟩
    · rw [Prod.mk.injEq]
      exact ⟨by omega, by simp [*]⟩

end Sys2Proof.Machine
end

