-- ==== Sys2Proof/Safety.lean ====
section
/-!
DEFINITION. What a safe run is: the step answers a next state, and memory keeps its canonical form.
-/
namespace Sys2Proof

open Machine

/-- The step from this state goes on. -/
def Steps (s : State) : Prop := ∃ t, step s = .next t
/-- A state that a safe run may be in. -/
def SafeState (s : State) : Prop := Memory.wf s.mem = true ∧ Steps s

end Sys2Proof
end

