-- ==== Sys2Proof/Tests/Slice0.lean ====
section
/-!
SUPPORT. The model's own tests: ill-formed terms that well-formedness refuses, words written out from the spec's encodings,
and for each statement with hypotheses a concrete state that meets them.
-/
set_option maxRecDepth 100000
namespace Sys2Proof.Tests
open Sys2Proof Sys2Proof.Machine

/-- Each chain is decoded whole as the instruction written beside it, under the guard written beside it. -/
def readsAll (l : List (List Nat × Guard × Instr)) : Bool :=
  l.all fun ⟨ws, gd, i⟩ =>
    match decode (ws.map (BitVec.ofNat 16)) with
    | .ok g j len _ _ => g == gd && j == i && len == ws.length
    | .ill _ _ _ => false
    | .more => false

/-- R114: words of page 0. -/
theorem test_decode_integer_1 : readsAll [
    ([0xF270, 0x0342], ⟨false, 0⟩, .add .w64 35 20 50),
    ([0xF809, 0xF270, 0x0342], ⟨false, 0⟩, .min .w32 35 20 50),
    ([0xF812, 0xF270, 0x0342], ⟨false, 0⟩, .max .w16 35 20 50),
    ([0xF81B, 0xF270, 0x0342], ⟨false, 0⟩, .minn .w8 35 20 50),
    ([0xF804, 0xF270, 0x0342], ⟨false, 0⟩, .maxn .w64 35 20 50),
    ([0xF808, 0xF270, 0x2342], ⟨false, 0⟩, .sub .w32 35 20 50),
    ([0xF810, 0xF270, 0x3342], ⟨false, 0⟩, .and .w16 35 20 50),
    ([0xF819, 0xF270, 0x3342], ⟨false, 0⟩, .or .w8 35 20 50),
    ([0xF802, 0xF270, 0x3342], ⟨false, 0⟩, .xor .w64 35 20 50),
    ([0xF80B, 0xF270, 0x3342], ⟨false, 0⟩, .andn .w32 35 20 50),
    ([0xF814, 0xF270, 0x3342], ⟨false, 0⟩, .orn .w16 35 20 50),
    ([0xF81D, 0xF270, 0x3342], ⟨false, 0⟩, .xnor .w8 35 20 50),
    ([0xF270, 0x4342], ⟨false, 0⟩, .shl .w64 35 20 50),
    ([0xF809, 0xF270, 0x4342], ⟨false, 0⟩, .shr .w32 35 20 50),
    ([0xF812, 0xF270, 0x4342], ⟨false, 0⟩, .sra .w16 35 20 50),
    ([0xF81B, 0xF270, 0x4342], ⟨false, 0⟩, .rol .w8 35 20 50)] = true := by decide

/-- R114: words of page 0. -/
theorem test_decode_integer_2 : readsAll [
    ([0xF804, 0xF270, 0x4342], ⟨false, 0⟩, .ror .w64 35 20 50),
    ([0xF808, 0xF270, 0x6342], ⟨false, 0⟩, .mul .w32 35 20 50),
    ([0xF811, 0xF270, 0x6342], ⟨false, 0⟩, .mulh .w16 35 20 50),
    ([0xF81A, 0xF270, 0x6342], ⟨false, 0⟩, .mulhn .w8 35 20 50),
    ([0xF803, 0xF270, 0x6342], ⟨false, 0⟩, .div .w64 35 20 50),
    ([0xF80C, 0xF270, 0x6342], ⟨false, 0⟩, .divn .w32 35 20 50),
    ([0xF815, 0xF270, 0x6342], ⟨false, 0⟩, .rem .w16 35 20 50),
    ([0xF81E, 0xF270, 0x6342], ⟨false, 0⟩, .remn .w8 35 20 50),
    ([0xF808, 0xF070, 0x7542], ⟨false, 0⟩, .cmpeq .w32 5 20 50),
    ([0xF811, 0xF070, 0x7542], ⟨false, 0⟩, .cmpne .w16 5 20 50),
    ([0xF81A, 0xF070, 0x7542], ⟨false, 0⟩, .cmplt .w8 5 20 50),
    ([0xF803, 0xF070, 0x7542], ⟨false, 0⟩, .cmple .w64 5 20 50),
    ([0xF80C, 0xF070, 0x7542], ⟨false, 0⟩, .cmpltn .w32 5 20 50),
    ([0xF815, 0xF070, 0x7542], ⟨false, 0⟩, .cmplen .w16 5 20 50),
    ([0xF810, 0xF040, 0xE03A, 0x874B], ⟨false, 0⟩, .cmpeqi .w16 7 20 ⟨1, 0x3AB⟩),
    ([0xF819, 0xF040, 0xE03A, 0x874B], ⟨false, 0⟩, .cmpnei .w8 7 20 ⟨1, 0x3AB⟩)] = true := by decide

/-- R114: words of page 0. -/
theorem test_decode_integer_3 : readsAll [
    ([0xF802, 0xF040, 0xE03A, 0x874B], ⟨false, 0⟩, .cmplti .w64 7 20 ⟨1, 0x3AB⟩),
    ([0xF80B, 0xF040, 0xE03A, 0x874B], ⟨false, 0⟩, .cmplei .w32 7 20 ⟨1, 0x3AB⟩),
    ([0xF814, 0xF040, 0xE03A, 0x874B], ⟨false, 0⟩, .cmpltni .w16 7 20 ⟨1, 0x3AB⟩),
    ([0xF81D, 0xF040, 0xE03A, 0x874B], ⟨false, 0⟩, .cmpleni .w8 7 20 ⟨1, 0x3AB⟩),
    ([0xF808, 0xF240, 0x134D], ⟨false, 0⟩, .addi .w32 35 20 ⟨0, 0xD⟩),
    ([0xF810, 0xF240, 0x534D], ⟨false, 0⟩, .shli .w16 35 20 ⟨0, 0xD⟩),
    ([0xF819, 0xF240, 0x534D], ⟨false, 0⟩, .shri .w8 35 20 ⟨0, 0xD⟩),
    ([0xF802, 0xF240, 0x534D], ⟨false, 0⟩, .srai .w64 35 20 ⟨0, 0xD⟩),
    ([0xF80B, 0xF240, 0x534D], ⟨false, 0⟩, .roli .w32 35 20 ⟨0, 0xD⟩),
    ([0xF814, 0xF240, 0x534D], ⟨false, 0⟩, .rori .w16 35 20 ⟨0, 0xD⟩),
    ([0xF808, 0xF240, 0x9341], ⟨false, 0⟩, .neg .w32 35 20),
    ([0xF810, 0xF240, 0x9342], ⟨false, 0⟩, .not .w16 35 20),
    ([0xF818, 0xF240, 0x9343], ⟨false, 0⟩, .clz .w8 35 20),
    ([0xF240, 0x9344], ⟨false, 0⟩, .ctz .w64 35 20),
    ([0xF808, 0xF240, 0x9345], ⟨false, 0⟩, .popc .w32 35 20),
    ([0xF810, 0xF240, 0x9346], ⟨false, 0⟩, .sext .w16 35 20)] = true := by decide

/-- R114: words of page 0. -/
theorem test_decode_integer_4 : readsAll [
    ([0xF818, 0xF240, 0x9347], ⟨false, 0⟩, .zext .w8 35 20),
    ([0xF240, 0x9348], ⟨false, 0⟩, .bswap .w64 35 20),
    ([0xF240, 0x9340], ⟨false, 0⟩, .mov 35 20),
    ([0xF840, 0x9D90], ⟨false, 0⟩, .movCap 13 9),
    ([0xF27E, 0xA342], ⟨true, 6⟩, .sel 35 20 50),
    ([0xF200, 0xEABC, 0xE123, 0xB307], ⟨false, 0⟩, .lih 35 ⟨2, 0xABC1237⟩),
    ([0xF005, 0xC7FF], ⟨false, 5⟩, .br 0x7FF),
    ([0xF200, 0xE0AB, 0xEFFF, 0xD3C4], ⟨false, 0⟩, .li 35 ⟨2, 0x0ABFFFC4⟩)] = true := by decide

/-- R114: words of page 1. -/
theorem test_decode_vector_integer_1 : readsAll [
    ([0xF404, 0xF808, 0xF270, 0x0342], ⟨false, 0⟩, .vadd .w32 35 20 50),
    ([0xF404, 0xF811, 0xF270, 0x0342], ⟨false, 0⟩, .vsub .w16 35 20 50),
    ([0xF404, 0xF81A, 0xF270, 0x0342], ⟨false, 0⟩, .vmin .w8 35 20 50),
    ([0xF404, 0xF803, 0xF270, 0x0342], ⟨false, 0⟩, .vmax .w64 35 20 50),
    ([0xF404, 0xF80C, 0xF270, 0x0342], ⟨false, 0⟩, .vminn .w32 35 20 50),
    ([0xF404, 0xF815, 0xF270, 0x0342], ⟨false, 0⟩, .vmaxn .w16 35 20 50),
    ([0xF404, 0xF818, 0xF270, 0x1342], ⟨false, 0⟩, .vmul .w8 35 20 50),
    ([0xF404, 0xF801, 0xF270, 0x1342], ⟨false, 0⟩, .vmulh .w64 35 20 50),
    ([0xF404, 0xF80A, 0xF270, 0x1342], ⟨false, 0⟩, .vmulhn .w32 35 20 50),
    ([0xF404, 0xF813, 0xF270, 0x1342], ⟨false, 0⟩, .vmad .w16 35 20 50),
    ([0xF404, 0xF818, 0xF270, 0x2342], ⟨false, 0⟩, .vand .w8 35 20 50),
    ([0xF404, 0xF801, 0xF270, 0x2342], ⟨false, 0⟩, .vor .w64 35 20 50),
    ([0xF404, 0xF80A, 0xF270, 0x2342], ⟨false, 0⟩, .vxor .w32 35 20 50),
    ([0xF404, 0xF813, 0xF270, 0x2342], ⟨false, 0⟩, .vandn .w16 35 20 50),
    ([0xF404, 0xF818, 0xF270, 0x3342], ⟨false, 0⟩, .vshl .w8 35 20 50),
    ([0xF404, 0xF801, 0xF270, 0x3342], ⟨false, 0⟩, .vshr .w64 35 20 50)] = true := by decide

/-- R114: words of page 1. -/
theorem test_decode_vector_integer_2 : readsAll [
    ([0xF404, 0xF80A, 0xF270, 0x3342], ⟨false, 0⟩, .vsra .w32 35 20 50),
    ([0xF404, 0xF810, 0xF270, 0x7342], ⟨false, 0⟩, .vperm .w16 35 20 50),
    ([0xF404, 0xF819, 0xF270, 0x7342], ⟨false, 0⟩, .vrot .w8 35 20 50),
    ([0xF404, 0xF802, 0xF270, 0x7342], ⟨false, 0⟩, .vzip .w64 35 20 50),
    ([0xF404, 0xF80B, 0xF270, 0x7342], ⟨false, 0⟩, .vunzip .w32 35 20 50),
    ([0xF404, 0xF811, 0xF270, 0xA342], ⟨false, 0⟩, .vins .w16 35 20 50),
    ([0xF404, 0xF84E, 0xF270, 0x0342], ⟨false, 0⟩, .vadds .w32 true 35 20 50),
    ([0xF404, 0xF857, 0xF270, 0x0342], ⟨false, 0⟩, .vsubs .w16 true 35 20 50),
    ([0xF404, 0xF858, 0xF270, 0xA342], ⟨false, 0⟩, .vextr .w8 true 35 20 50),
    ([0xF404, 0xF81C, 0xF270, 0x1342], ⟨false, 0⟩, .vdot4 false 35 20 50),
    ([0xF404, 0xF808, 0xF070, 0x4442], ⟨false, 0⟩, .vcmpeq .w32 4 20 50),
    ([0xF404, 0xF811, 0xF070, 0x4442], ⟨false, 0⟩, .vcmpne .w16 4 20 50),
    ([0xF404, 0xF81A, 0xF070, 0x4442], ⟨false, 0⟩, .vcmplt .w8 4 20 50),
    ([0xF404, 0xF803, 0xF070, 0x4442], ⟨false, 0⟩, .vcmple .w64 4 20 50),
    ([0xF404, 0xF80C, 0xF070, 0x4442], ⟨false, 0⟩, .vcmpltn .w32 4 20 50),
    ([0xF404, 0xF815, 0xF070, 0x4442], ⟨false, 0⟩, .vcmplen .w16 4 20 50)] = true := by decide

/-- R114: words of page 1. -/
theorem test_decode_vector_integer_3 : readsAll [
    ([0xF404, 0xF273, 0x5342], ⟨false, 3⟩, .vsel 35 20 50),
    ([0xF404, 0xF810, 0xF240, 0x6340], ⟨false, 0⟩, .vbcast .w16 35 20),
    ([0xF404, 0xF858, 0xF200, 0xE07F, 0x6304], ⟨false, 0⟩, .vbcastImm .w8 35 ⟨1, 0x7F4⟩),
    ([0xF404, 0xF809, 0xF240, 0x6340], ⟨false, 0⟩, .viota .w32 35 20),
    ([0xF404, 0xF802, 0xF040, 0x6640], ⟨false, 0⟩, .vmovpToPred 6 20),
    ([0xF404, 0xF842, 0xF200, 0x6360], ⟨false, 0⟩, .vmovpToVec 35 6),
    ([0xF404, 0xF808, 0xF240, 0x8340], ⟨false, 0⟩, .vredadd .w32 35 20),
    ([0xF404, 0xF813, 0xF240, 0x8340], ⟨false, 0⟩, .vredand .w16 35 20),
    ([0xF404, 0xF81C, 0xF240, 0x8340], ⟨false, 0⟩, .vredor .w8 35 20),
    ([0xF404, 0xF240, 0x9340], ⟨false, 0⟩, .vscanadd .w64 35 20),
    ([0xF404, 0xF849, 0xF240, 0x8340], ⟨false, 0⟩, .vredmin .w32 true 35 20),
    ([0xF404, 0xF852, 0xF240, 0x8340], ⟨false, 0⟩, .vredmax .w16 true 35 20),
    ([0xF404, 0xF859, 0xF240, 0x9340], ⟨false, 0⟩, .vscanmax .w8 true 35 20),
    ([0xF404, 0xB127], ⟨false, 0⟩, .pand 1 2 7),
    ([0xF404, 0xF801, 0xB127], ⟨false, 0⟩, .por 1 2 7),
    ([0xF404, 0xF802, 0xB127], ⟨false, 0⟩, .pxor 1 2 7)] = true := by decide

/-- R114: words of page 1. -/
theorem test_decode_vector_integer_4 : readsAll [
    ([0xF404, 0xF803, 0xB170], ⟨false, 0⟩, .pnot 1 7),
    ([0xF404, 0xF805, 0xB170], ⟨false, 0⟩, .pfirst 1 7),
    ([0xF404, 0xF804, 0xF200, 0xB370], ⟨false, 0⟩, .pcnt 35 7)] = true := by decide

/-- R114: words of page 2. -/
theorem test_decode_vector_float_1 : readsAll [
    ([0xF408, 0xF270, 0x0342], ⟨false, 0⟩, .vfadd .f32 .rne 35 20 (.vec 50)),
    ([0xF408, 0xF889, 0xF270, 0x0342], ⟨false, 0⟩, .vfsub .f64 .rtz 35 20 (.vec 50)),
    ([0xF408, 0xF912, 0xF270, 0x0342], ⟨false, 0⟩, .vfmul .f16 .rup 35 20 (.vec 50)),
    ([0xF408, 0xF998, 0xF270, 0x1342], ⟨false, 0⟩, .vfma .bf16 .rdn 35 20 (.vec 50)),
    ([0xF408, 0xFA01, 0xF270, 0x1342], ⟨false, 0⟩, .vfms .f32 .rna 35 20 (.vec 50)),
    ([0xF408, 0xFA8A, 0xF270, 0x1342], ⟨false, 0⟩, .vfnma .f64 .rsr 35 20 (.vec 50)),
    ([0xF408, 0xF84B, 0xF240, 0x0349], ⟨false, 0⟩, .vfmin .f64 35 20 (.imm ⟨0, 9⟩)),
    ([0xF408, 0xF854, 0xF240, 0x0349], ⟨false, 0⟩, .vfmax .f16 35 20 (.imm ⟨0, 9⟩)),
    ([0xF408, 0xF988, 0xF270, 0x2342], ⟨false, 0⟩, .vfdiv .f64 .rdn 35 20 50),
    ([0xF408, 0xF911, 0xF240, 0x2340], ⟨false, 0⟩, .vfsqrt .f16 .rup 35 20),
    ([0xF408, 0xF81A, 0xF240, 0x2340], ⟨false, 0⟩, .vfrcp .bf16 35 20),
    ([0xF408, 0xF81B, 0xF240, 0x2340], ⟨false, 0⟩, .vfrsq .bf16 35 20),
    ([0xF408, 0xF818, 0xF240, 0xA340], ⟨false, 0⟩, .vfabs .bf16 35 20),
    ([0xF408, 0xF819, 0xF240, 0xA340], ⟨false, 0⟩, .vfneg .bf16 35 20),
    ([0xF408, 0xF81A, 0xF240, 0xA340], ⟨false, 0⟩, .vfclass .bf16 35 20),
    ([0xF408, 0xF070, 0x3342], ⟨false, 0⟩, .vfcmpeq .f32 3 20 50)] = true := by decide

/-- R114: words of page 2. -/
theorem test_decode_vector_float_2 : readsAll [
    ([0xF408, 0xF809, 0xF070, 0x3342], ⟨false, 0⟩, .vfcmpne .f64 3 20 50),
    ([0xF408, 0xF812, 0xF070, 0x3342], ⟨false, 0⟩, .vfcmplt .f16 3 20 50),
    ([0xF408, 0xF81B, 0xF070, 0x3342], ⟨false, 0⟩, .vfcmple .bf16 3 20 50),
    ([0xF408, 0xF804, 0xF070, 0x3342], ⟨false, 0⟩, .vfcmpun .f32 3 20 50),
    ([0xF408, 0xFA88, 0xF240, 0x9340], ⟨false, 0⟩, .vfredadd .f64 .rsr 35 20),
    ([0xF408, 0xF811, 0xF240, 0x9340], ⟨false, 0⟩, .vfredmax .f16 35 20),
    ([0xF408, 0xF812, 0xF240, 0x9340], ⟨false, 0⟩, .vfredmin .f16 35 20),
    ([0xF408, 0xF85B, 0xF240, 0x5340], ⟨false, 0⟩, .vqmx .bf16 .mx6e2 true 35 20),
    ([0xF408, 0xF815, 0xF240, 0x6340], ⟨false, 0⟩, .vdqmx .f16 .mxi8 35 20),
    ([0xF408, 0xF810, 0xF240, 0x7340], ⟨false, 0⟩, .vfexp2 .f16 35 20),
    ([0xF408, 0xF811, 0xF240, 0x7340], ⟨false, 0⟩, .vflog2 .f16 35 20),
    ([0xF408, 0xF812, 0xF240, 0x7340], ⟨false, 0⟩, .vftanh .f16 35 20),
    ([0xF408, 0xF813, 0xF240, 0x7340], ⟨false, 0⟩, .vfsigm .f16 35 20),
    ([0xF408, 0xF804, 0xF270, 0x8342], ⟨false, 0⟩, .vsmx 4 35 20 50),
    ([0xF408, 0xF8C4, 0xF240, 0x4340], ⟨false, 0⟩, .vcvt (.floatFloat .f32 .e4m3) .rtz true 35 20),
    ([0xF408, 0xF90E, 0xF240, 0x4341], ⟨false, 0⟩, .vcvt (.floatInt .f64 .n16) .rup false 35 20)] = true := by decide

/-- R114: words of page 2. -/
theorem test_decode_vector_float_3 : readsAll [
    ([0xF408, 0xF81B, 0xF240, 0x4342], ⟨false, 0⟩, .vcvt (.intFloat .i8 .bf16) .rne false 35 20)] = true := by decide

/-- R114: words of page 3. -/
theorem test_decode_memory : readsAll [
    ([0xF40C, 0xF830, 0xF230, 0x0392], ⟨false, 0⟩, .ld .n16 35 9 50),
    ([0xF40C, 0xF810, 0xF230, 0x2392], ⟨false, 0⟩, .st .i16 35 9 50),
    ([0xF40C, 0xF838, 0xF200, 0xE080, 0x1395], ⟨false, 0⟩, .ldi .n8 35 9 ⟨1, 0x805⟩),
    ([0xF40C, 0xF828, 0xF200, 0x339F], ⟨false, 0⟩, .sti .n32 35 9 ⟨0, 0xF⟩),
    ([0xF40C, 0xF810, 0xF230, 0x4392], ⟨false, 0⟩, .vld .w16 35 9 (.contiguous 50)),
    ([0xF40C, 0xF80A, 0xF230, 0x5392], ⟨false, 0⟩, .vst .w32 35 9 (.gather 50)),
    ([0xF40C, 0xF819, 0xF230, 0x4392], ⟨false, 0⟩, .vld .w8 35 9 (.strided 50)),
    ([0xF40C, 0xF999, 0xF030, 0x6592], ⟨false, 0⟩, .tld .b8 6 1 5 9 (.reg 50)),
    ([0xF40C, 0xFBCC, 0xE012, 0x6594], ⟨false, 0⟩, .tld .b32 15 0 5 9 (.imm ⟨1, 0x124⟩)),
    ([0xF40C, 0xF840, 0x7097], ⟨false, 0⟩, .rowact 9 (.imm ⟨0, 7⟩)),
    ([0xF40C, 0xF801, 0xF030, 0x7092], ⟨false, 0⟩, .rowpre 9 (.reg 50)),
    ([0xF40C, 0xF030, 0x8D92], ⟨false, 0⟩, .capld 13 9 50),
    ([0xF40C, 0xF801, 0xF030, 0x8D92], ⟨false, 0⟩, .capst 13 9 50),
    ([0xF40C, 0xF802, 0xF030, 0x8D92], ⟨false, 0⟩, .capnarrow 13 9 50),
    ([0xF40C, 0xF803, 0xF200, 0x8396], ⟨false, 0⟩, .capoff 35 9 6)] = true := by decide

/-- R114: words of page 4. -/
theorem test_decode_matrix : readsAll [
    ([0xF410, 0xF840, 0x0367], ⟨false, 0⟩, .mma true false 3 6 7),
    ([0xF410, 0xF801, 0x1367], ⟨false, 0⟩, .mmas false true 3 6 7),
    ([0xF410, 0x2300], ⟨false, 0⟩, .mzero 3),
    ([0xF410, 0xF828, 0x3000], ⟨false, 0⟩, .mfmt (.float .e5m2)),
    ([0xF410, 0xF81A, 0x3000], ⟨false, 0⟩, .mfmt .int8),
    ([0xF410, 0xF811, 0x3000], ⟨false, 0⟩, .mfmt (.mx .mx6)),
    ([0xF410, 0xF840, 0x4397], ⟨false, 0⟩, .tst 3 9 (.imm ⟨0, 7⟩)),
    ([0xF410, 0xF030, 0x6392], ⟨false, 0⟩, .tldacc 3 9 (.reg 50)),
    ([0xF410, 0xFA63, 0xF040, 0x5040], ⟨false, 0⟩, .mepi 3 .e4m3 .rna true 20),
    ([0xF410, 0xF840, 0xF070, 0x7342], ⟨false, 0⟩, .obput (.acc 3) 20 50),
    ([0xF410, 0xF801, 0xF230, 0x7362], ⟨false, 0⟩, .obget 35 (.ob 6) 50),
    ([0xF410, 0xF200, 0x8303], ⟨false, 0⟩, .mstat 35 3),
    ([0xF410, 0x9000], ⟨false, 0⟩, .mfence),
    ([0xF410, 0xF840, 0x9000], ⟨false, 0⟩, .mfenceCore)] = true := by decide

/-- R114: words of page 5. -/
theorem test_decode_synchronisation_1 : readsAll [
    ([0xF414, 0xFA00, 0x0000], ⟨false, 0⟩, .rel .sys),
    ([0xF414, 0xF9C0, 0xF040, 0x1540], ⟨false, 0⟩, .acq .pod 5 20),
    ([0xF414, 0xF840, 0x2000], ⟨false, 0⟩, .fence .slot),
    ([0xF414, 0xF840, 0xF230, 0x3392], ⟨false, 0⟩, .amoadd .i64 35 9 (.reg 50) 1),
    ([0xF414, 0xF889, 0xF230, 0x3392], ⟨false, 0⟩, .amomin .i32 35 9 (.reg 50) 2),
    ([0xF414, 0xF8EA, 0xF230, 0x3392], ⟨false, 0⟩, .amomax .n32 35 9 (.reg 50) 3),
    ([0xF414, 0xF903, 0xF230, 0x3392], ⟨false, 0⟩, .amoand .i64 35 9 (.reg 50) 4),
    ([0xF414, 0xF94C, 0xF230, 0x3392], ⟨false, 0⟩, .amoor .i32 35 9 (.reg 50) 5),
    ([0xF414, 0xF9AD, 0xF230, 0x3392], ⟨false, 0⟩, .amoxor .n32 35 9 (.reg 50) 6),
    ([0xF414, 0xF9C6, 0xF230, 0x3392], ⟨false, 0⟩, .amoswap .i64 35 9 (.reg 50) 7),
    ([0xF414, 0xFA28, 0xF200, 0x4296], ⟨false, 0⟩, .cas .n32 34 9 (.imm ⟨0, 6⟩)),
    ([0xF414, 0xFA00, 0xF200, 0xE05A, 0x5390], ⟨false, 0⟩, .ldc 35 9 (.imm ⟨1, 0x5A0⟩)),
    ([0xF414, 0xFA01, 0xF200, 0xE05A, 0x5391], ⟨false, 0⟩, .ldf 35 9 (.imm ⟨1, 0x5A1⟩)),
    ([0xF414, 0xFA02, 0xF200, 0xE05A, 0x5392], ⟨false, 0⟩, .stp 35 9 (.imm ⟨1, 0x5A2⟩)),
    ([0xF414, 0xFA04, 0xF200, 0xE05A, 0x5393], ⟨false, 0⟩, .setf 35 9 (.imm ⟨1, 0x5A3⟩)),
    ([0xF414, 0xFA05, 0xF200, 0xE05A, 0x5394], ⟨false, 0⟩, .feq 35 9 (.imm ⟨1, 0x5A4⟩))] = true := by decide

/-- R114: words of page 5. -/
theorem test_decode_synchronisation_2 : readsAll [
    ([0xF414, 0xF803, 0xF030, 0x5092], ⟨false, 0⟩, .sete 9 (.reg 50)),
    ([0xF414, 0xF240, 0x8349], ⟨false, 0⟩, .logq 35 20 9),
    ([0xF414, 0xF230, 0x9392], ⟨false, 0⟩, .mirfl 35 9 50),
    ([0xF414, 0xF840, 0x9000], ⟨false, 0⟩, .mirflAll),
    ([0xF414, 0xF980, 0x7000], ⟨false, 0⟩, .bar .pkg),
    ([0xF414, 0xF900, 0xF230, 0x6392], ⟨false, 0⟩, .swarm .quad 35 9 (.reg 50)),
    ([0xF414, 0xF849, 0xF200, 0x6396], ⟨false, 0⟩, .swwait 35 9 (.imm ⟨0, 6⟩)),
    ([0xF414, 0xF84A, 0xF200, 0xE001, 0x6396], ⟨false, 0⟩, .swadd .slot 35 9 (.imm ⟨1, 0x016⟩)),
    ([0xF414, 0xF843, 0xF230, 0x6392], ⟨false, 0⟩, .swrd 35 9 (.reg 50))] = true := by decide

/-- R114: words of page 6. -/
theorem test_decode_engines : readsAll [
    ([0xF418, 0xF040, 0x0040], ⟨false, 0⟩, .cpy 20),
    ([0xF418, 0xF040, 0x1040], ⟨false, 0⟩, .cpyf 20),
    ([0xF418, 0xF801, 0xF070, 0x3542], ⟨false, 0⟩, .send true 5 20 50),
    ([0xF418, 0xF840, 0xF240, 0x4340], ⟨false, 0⟩, .recv 35 (some 20)),
    ([0xF418, 0xF200, 0x4300], ⟨false, 0⟩, .recv 35 none),
    ([0xF418, 0xF240, 0x634B], ⟨false, 0⟩, .launch 35 20 11),
    ([0xF418, 0xF240, 0x734A], ⟨false, 0⟩, .launchi 35 20 10),
    ([0xF418, 0xF240, 0x8340], ⟨false, 0⟩, .join 35 20),
    ([0xF418, 0xF200, 0x9302], ⟨false, 0⟩, .epoll 35 2),
    ([0xF418, 0xF940, 0xF040, 0x2040], ⟨false, 0⟩, .collAllreduce .die 20),
    ([0xF418, 0xF9E0, 0xF200, 0x5396], ⟨false, 0⟩, .rcallRd 7 35 9 (.imm ⟨0, 6⟩)),
    ([0xF418, 0xF941, 0xF230, 0x5392], ⟨false, 0⟩, .rcallWr 5 35 9 (.reg 50)),
    ([0xF418, 0xF802, 0xF230, 0x5392], ⟨false, 0⟩, .rcallAdd 35 9 (.reg 50)),
    ([0xF418, 0xF803, 0xF230, 0x5392], ⟨false, 0⟩, .rcallSwap 35 9 (.reg 50)),
    ([0xF418, 0xF804, 0xF230, 0x5392], ⟨false, 0⟩, .rcallCas 35 9 (.reg 50))] = true := by decide

/-- R114: words of page 7. -/
theorem test_decode_streams : readsAll [
    ([0xF41C, 0xF240, 0x0340], ⟨false, 0⟩, .sopen 35 20),
    ([0xF41C, 0xF040, 0x1040], ⟨false, 0⟩, .sclose 20),
    ([0xF41C, 0xF070, 0x2542], ⟨false, 0⟩, .sframe 5 20 50),
    ([0xF41C, 0xF240, 0x3340], ⟨false, 0⟩, .sgen 35 20),
    ([0xF41C, 0xF801, 0xF240, 0x3340], ⟨false, 0⟩, .sgenAbandon 35 20),
    ([0xF41C, 0xF070, 0x4042], ⟨false, 0⟩, .splay 20 50),
    ([0xF41C, 0xF070, 0x5042], ⟨false, 0⟩, .strunc 20 50),
    ([0xF41C, 0xF070, 0x9042], ⟨false, 0⟩, .scommit 20 50),
    ([0xF41C, 0xF270, 0x6342], ⟨false, 0⟩, .ssnap 35 20 50),
    ([0xF41C, 0xF270, 0x7342], ⟨false, 0⟩, .skvaddr 35 20 50),
    ([0xF41C, 0xF240, 0x8340], ⟨false, 0⟩, .sstat 35 20),
    ([0xF41C, 0xF240, 0xA340], ⟨false, 0⟩, .snext 35 20)] = true := by decide

/-- R114: words of page 8. -/
theorem test_decode_system_1 : readsAll [
    ([0xF420, 0xE00A, 0x100B], ⟨false, 0⟩, .trap ⟨1, 0x0AB⟩),
    ([0xF420, 0xA006], ⟨false, 0⟩, .brk ⟨0, 6⟩),
    ([0xF420, 0xF801, 0xA000], ⟨false, 0⟩, .step),
    ([0xF420, 0x2000], ⟨false, 0⟩, .tret),
    ([0xF420, 0xF801, 0x2000], ⟨false, 0⟩, .tretHalt),
    ([0xF420, 0xF802, 0x2000], ⟨false, 0⟩, .tretAbort),
    ([0xF420, 0xF200, 0xE020, 0x3309], ⟨false, 0⟩, .csrr 35 ⟨1, 0x209⟩),
    ([0xF420, 0xF040, 0x4042], ⟨false, 0⟩, .csrw 20 ⟨0, 2⟩),
    ([0xF420, 0xF040, 0xE01E, 0x404B], ⟨false, 0⟩, .csrwCtxbase 20 ⟨1, 0x1EB⟩),
    ([0xF420, 0xF040, 0xE020, 0x404F], ⟨false, 0⟩, .csrwLogsize 20 ⟨1, 0x20F⟩),
    ([0xF420, 0xF040, 0xE021, 0x4040], ⟨false, 0⟩, .csrwMirsize 20 ⟨1, 0x210⟩),
    ([0xF420, 0xF040, 0xE020, 0x4049], ⟨false, 0⟩, .csrwUrglim 20 ⟨1, 0x209⟩),
    ([0xF420, 0xF040, 0xE030, 0x4046], ⟨false, 0⟩, .csrwWinbase 20 ⟨1, 0x306⟩),
    ([0xF420, 0xF040, 0xE030, 0x4047], ⟨false, 0⟩, .csrwRectdef 20 ⟨1, 0x307⟩),
    ([0xF420, 0xF040, 0x4046], ⟨false, 0⟩, .csrwSeed 20 ⟨0, 6⟩),
    ([0xF420, 0xF040, 0x5040], ⟨false, 0⟩, .yield 20)] = true := by decide

/-- R114: words of page 8. -/
theorem test_decode_system_2 : readsAll [
    ([0xF420, 0xF801, 0x5000], ⟨false, 0⟩, .park),
    ([0xF420, 0xF802, 0xF040, 0x5040], ⟨false, 0⟩, .wake 20),
    ([0xF420, 0x7000], ⟨false, 0⟩, .halt),
    ([0xF420, 0xFB40, 0xF070, 0x6542], ⟨false, 0⟩, .urg 13 5 20 50),
    ([0xF420, 0xF240, 0x8340], ⟨false, 0⟩, .regevict 35 20),
    ([0xF420, 0xF801, 0xF240, 0x8340], ⟨false, 0⟩, .regload 35 20),
    ([0xF420, 0xF200, 0x930C], ⟨false, 0⟩, .cntrd 35 12),
    ([0xF420, 0xF801, 0xF040, 0x9040], ⟨false, 0⟩, .cntclr 20),
    ([0xF420, 0xF902, 0xF240, 0x9340], ⟨false, 0⟩, .cntsum .quad 35 20),
    ([0xF420, 0xE0FE, 0x000E], ⟨false, 0⟩, .jmp (.rel ⟨1, 0xFEE⟩)),
    ([0xF420, 0xF841, 0xF230, 0x0302], ⟨false, 0⟩, .call 35 (.reg 50)),
    ([0xF420, 0xF881, 0xF230, 0x0392], ⟨false, 0⟩, .call 35 (.cap 9 50)),
    ([0xF420, 0xF842, 0xF030, 0x0002], ⟨false, 0⟩, .ret (.reg 50)),
    ([0xF420, 0xF882, 0xF030, 0x0092], ⟨false, 0⟩, .ret (.cap 9 50))] = true := by decide

/-- The worked lines of R143, R166, R167, R205, R225, R270, R292, R339, R356 and R383. -/
theorem test_decode_worked_1 : readsAll [
    ([0x1000], ⟨false, 0⟩, .addi .w64 0 0 ⟨0, 0⟩),
    ([0xF80A, 0x0345], ⟨false, 0⟩, .max .w32 3 4 5),
    ([0xE000, 0x1228], ⟨false, 0⟩, .addi .w64 2 2 ⟨1, 8⟩),
    ([0xF802, 0x7345], ⟨false, 0⟩, .cmplt .w64 3 4 5),
    ([0xF81C, 0x826F], ⟨false, 0⟩, .cmpltni .w8 2 6 ⟨0, 0xF⟩),
    ([0xF80B, 0x6340], ⟨false, 0⟩, .div .w32 3 4 0),
    ([0xF801, 0xE002, 0x5778], ⟨false, 0⟩, .shri .w64 7 7 ⟨1, 40⟩),
    ([0xF404, 0xF856, 0x0123], ⟨false, 0⟩, .vadds .w16 true 1 2 3),
    ([0xF404, 0xF808, 0x8340], ⟨false, 0⟩, .vredadd .w32 3 4),
    ([0xF408, 0xF858, 0x0555], ⟨false, 0⟩, .vfadd .bf16 .rne 5 5 (.imm ⟨0, 5⟩)),
    ([0xF408, 0xF844, 0x4890], ⟨false, 0⟩, .vcvt (.floatFloat .f32 .e4m3) .rne true 8 9),
    ([0xF408, 0xF801, 0x4892], ⟨false, 0⟩, .vcvt (.intFloat .i32 .f32) .rne false 8 9),
    ([0xF408, 0x8A3C], ⟨false, 0⟩, .vsmx 0 10 3 12),
    ([0xF40C, 0xF808, 0x0314], ⟨false, 0⟩, .ld .i32 3 1 4)] = true := by decide

/-- The worked lines of R143, R166, R167, R205, R225, R270, R292, R339, R356 and R383. -/
theorem test_decode_worked_2 : readsAll [
    ([0xF40C, 0xF838, 0x1315], ⟨false, 0⟩, .ldi .n8 3 1 ⟨0, 5⟩),
    ([0xF40C, 0xE004, 0x3210], ⟨false, 0⟩, .sti .i64 2 1 ⟨1, 64⟩),
    ([0xF40C, 0xF809, 0x4436], ⟨false, 0⟩, .vld .w32 4 3 (.strided 6)),
    ([0xF40C, 0xF802, 0x8526], ⟨false, 0⟩, .capnarrow 5 2 6),
    ([0xF414, 0xFA00, 0xE008, 0x3410], ⟨false, 0⟩, .amoadd .i64 4 1 (.imm ⟨1, 128⟩) 0),
    ([0xF414, 0xFA86, 0xE008, 0x3010], ⟨false, 0⟩, .amoswap .i64 0 1 (.imm ⟨1, 128⟩) 2),
    ([0xF414, 0x4628], ⟨false, 0⟩, .cas .i64 6 2 (.reg 8)),
    ([0xF414, 0xFA02, 0xE008, 0x5610], ⟨false, 0⟩, .stp 6 1 (.imm ⟨1, 128⟩)),
    ([0xF414, 0xF940, 0x1290], ⟨false, 0⟩, .acq .die 2 9),
    ([0xF40C, 0xF816, 0xE200, 0x6130], ⟨false, 0⟩, .tld .b16 0 2 1 3 (.imm ⟨1, 0x2000⟩)),
    ([0xF40C, 0xF850, 0x6245], ⟨false, 0⟩, .tld .b16 1 0 2 4 (.reg 5)),
    ([0xF40C, 0x7034], ⟨false, 0⟩, .rowact 3 (.reg 4)),
    ([0xF410, 0xF818, 0x3000], ⟨false, 0⟩, .mfmt (.float .bf16)),
    ([0xF410, 0xF821, 0x3000], ⟨false, 0⟩, .mfmt (.mx .mx4))] = true := by decide

/-- The worked lines of R143, R166, R167, R205, R225, R270, R292, R339, R356 and R383. -/
theorem test_decode_worked_3 : readsAll [
    ([0xF410, 0x0012], ⟨false, 0⟩, .mma false false 0 1 2),
    ([0xF410, 0xF841, 0x1134], ⟨false, 0⟩, .mmas true true 1 3 4),
    ([0xF410, 0xF81B, 0x5070], ⟨false, 0⟩, .mepi 3 .bf16 .rne false 7),
    ([0xF410, 0x4056], ⟨false, 0⟩, .tst 0 5 (.reg 6)),
    ([0xF410, 0xF841, 0x7923], ⟨false, 0⟩, .obget 9 (.acc 2) 3),
    ([0xF410, 0xF840, 0x9000], ⟨false, 0⟩, .mfenceCore),
    ([0xF418, 0x3060], ⟨false, 0⟩, .send false 0 6 0),
    ([0xF418, 0xF801, 0x3264], ⟨false, 0⟩, .send true 2 6 4),
    ([0xF418, 0xF840, 0x4530], ⟨false, 0⟩, .recv 5 (some 3)),
    ([0xF418, 0x6784], ⟨false, 0⟩, .launch 7 8 4),
    ([0xF418, 0x9201], ⟨false, 0⟩, .epoll 2 1),
    ([0xF420, 0xF802, 0x5060], ⟨false, 0⟩, .wake 6),
    ([0xF41C, 0x2263], ⟨false, 0⟩, .sframe 2 6 3),
    ([0xF41C, 0xF801, 0x3040], ⟨false, 0⟩, .sgenAbandon 0 4)] = true := by decide

/-- The worked lines of R143, R166, R167, R205, R225, R270, R292, R339, R356 and R383. -/
theorem test_decode_worked_4 : readsAll [
    ([0xF418, 0xF940, 0x2050], ⟨false, 0⟩, .collAllreduce .die 5),
    ([0xF418, 0xF8C0, 0x5723], ⟨false, 0⟩, .rcallRd 3 7 2 (.reg 3)),
    ([0xF418, 0xF824, 0xE001, 0x5728], ⟨false, 0⟩, .rcallCas 7 2 (.imm ⟨1, 24⟩)),
    ([0xF420, 0x930B], ⟨false, 0⟩, .cntrd 3 11),
    ([0xF420, 0xF942, 0x9560], ⟨false, 0⟩, .cntsum .die 5 6),
    ([0xF420, 0xE010, 0x3307], ⟨false, 0⟩, .csrr 3 ⟨1, 0x107⟩),
    ([0xF420, 0xE020, 0x4059], ⟨false, 0⟩, .csrwUrglim 5 ⟨1, 0x209⟩),
    ([0xF420, 0xF8C0, 0x6245], ⟨false, 0⟩, .urg 3 2 4 5),
    ([0xF420, 0x1005], ⟨false, 0⟩, .trap ⟨0, 5⟩),
    ([0xF420, 0xF801, 0x8340], ⟨false, 0⟩, .regload 3 4)] = true := by decide
/-- R98 and R104: an immediate holds what its base field and at most four `IMX` prefixes supply. -/
theorem test_wf_immediates :
    [Instr.addi .w64 1 2 ⟨0, 16⟩, .addi .w64 1 2 ⟨5, 0⟩, .shli .w64 1 2 ⟨1, 65536⟩, .cmpeqi .w64 1 2 ⟨0, 16⟩, .lih 1 ⟨0, 16⟩,
      .li 1 ⟨0, 256⟩, .li 1 ⟨4, 2 ^ 56⟩, .jmp (.rel ⟨0, 16⟩), .call 1 (.rel ⟨0, 16⟩), .vbcastImm .w64 1 ⟨0, 16⟩,
      .vfadd .f32 .rne 1 2 (.imm ⟨0, 16⟩), .vfmin .f32 1 2 (.imm ⟨0, 16⟩), .ldi .i64 1 2 ⟨0, 16⟩, .sti .i64 1 2 ⟨0, 16⟩,
      .tld .b8 0 0 1 2 (.imm ⟨0, 16⟩), .rowact 1 (.imm ⟨0, 16⟩), .rowpre 1 (.imm ⟨0, 16⟩), .tst 1 2 (.imm ⟨0, 16⟩),
      .tldacc 1 2 (.imm ⟨0, 16⟩), .amoadd .i64 1 2 (.imm ⟨0, 16⟩) 3, .cas .i64 2 2 (.imm ⟨0, 16⟩), .ldc 1 2 (.imm ⟨0, 16⟩),
      .sete 2 (.imm ⟨0, 16⟩), .swarm .die 1 2 (.imm ⟨0, 16⟩), .swwait 1 2 (.imm ⟨0, 16⟩), .rcallRd 0 1 2 (.imm ⟨0, 16⟩),
      .trap ⟨0, 16⟩, .brk ⟨0, 16⟩, .csrr 1 ⟨0, 16⟩, .csrw 1 ⟨0, 16⟩].all (fun i => !i.wf) = true := by decide

/-- R182, R185, R205, R212, R215 and R226: pairs, element widths, conversions, segments and tile sizes. -/
theorem test_wf_fields :
    [Instr.cas .i64 3 2 (.reg 1), .capnarrow 1 2 3, .vld .w64 1 2 (.strided 3), .vst .w64 1 2 (.strided 3),
      .vld .w16 1 2 (.gather 3), .vst .w8 1 2 (.gather 3), .vcvt (.floatFloat .f32 .f16) .rne true 1 2,
      .vcvt (.floatInt .f32 .i8) .rne true 1 2, .vcvt (.intFloat .i8 .e4m3) .rne true 1 2, .vsmx 5 1 2 3, .vsmx 0 1 2 1,
      .tld .b64 2 0 1 2 (.reg 3), .tld .b16 0 1 1 2 (.reg 3), .tld .b8 0 3 1 2 (.reg 3), .tld .b8 12 0 1 2 (.reg 3),
      .tld .b6 15 0 1 2 (.reg 3), .tld .b8 15 1 1 2 (.reg 3), .mepi 5 .f32 .rne false 1, .mepi 7 .f16 .rne false 1,
      .mepi 0 .f32 .rsr false 1, .mepi 0 .f32 .rne true 1, .capoff 1 2 7, .logq 1 2 10, .launch 1 2 12, .launchi 1 2 11,
      .epoll 1 3].all (fun i => !i.wf) = true := by decide

/-- R57, R64, R135, R267, R286, R351 and R356: scopes and control register numbers. -/
theorem test_wf_scopes_and_numbers :
    [Instr.rel .slot, .acq .lane 1 2, .swarm .lane 1 2 (.reg 3), .swadd .lane 1 2 (.reg 3), .bar .sys, .bar .slot,
      .collAllreduce .vault 1, .collReduceScatter .sys 1, .collAllGather .core 1, .collXorParity .lane 1, .cntsum .sys 1 2,
      .csrr 1 ⟨0, 12⟩, .csrr 1 ⟨1, 0x240⟩, .csrr 1 ⟨1, 0x308⟩, .csrw 1 ⟨1, 0x10C⟩, .csrw 1 ⟨0, 6⟩, .csrw 1 ⟨1, 0x209⟩,
      .csrw 1 ⟨1, 0x303⟩, .csrwCtxbase 1 ⟨0, 10⟩, .csrwLogsize 1 ⟨1, 0x210⟩, .csrwMirsize 1 ⟨1, 0x20F⟩, .csrwUrglim 1 ⟨0, 9⟩,
      .csrwSeed 1 ⟨1, 0x10B⟩, .csrwWinbase 1 ⟨1, 0x307⟩, .csrwRectdef 1 ⟨1, 0x306⟩].all (fun i => !i.wf) = true := by decide

/-- R115–R117: the cause and the failing halfword of chains that are no instruction. -/
def refusesAll (l : List (List Nat × IllCause × Nat × Nat)) : Bool :=
  l.all fun ⟨ws, c, h, p⟩ =>
    match decode (ws.map (BitVec.ofNat 16)) with
    | .ok _ _ _ _ _ => false
    | .ill c' h' p' => c == c' && h'.toNat == h && p == p'
    | .more => false

/-- R116 and R117. Each step of the order of checks: a fifth prefix, a second `PG`, `PG` on `LI`, a reserved cell, `IMX` where none
is taken, a register code out of range, a rounding code, nonzero high bits of a field that has none, `IMX` on a form whose
selecting field is undefined. -/
theorem test_decode_refused : refusesAll [
    ([0xE000, 0xE000, 0xE000, 0xE000, 0xE000, 0x1000], .illPrefix, 0xE000, 4), ([0xF404, 0xF404, 0], .illPrefix, 0xF404, 1),
    ([0xF404, 0xD000], .illPrefix, 0xF404, 0), ([0xE001, 0xC000], .illPrefix, 0xE001, 0), ([0xF40C, 0x9000], .illOp, 0x9000, 1),
    ([0xF805, 0x0000], .illOp, 0x0000, 1), ([0x9009], .illOp, 0x9009, 0), ([0xE001, 0x0000], .illPrefix, 0xE001, 0),
    ([0x7845], .illField, 0x7845, 0), ([0xF880, 0x0000], .illField, 0xF880, 0), ([0xF100, 0x7345], .illField, 0xF100, 0),
    ([0xF420, 0xF8C0, 0xE001, 0x0000], .illField, 0xF8C0, 1), ([0xB010], .illField, 0xB010, 0)] = true := by decide

/-- R115. A chain whose base word lies beyond the halfwords at hand is read on. -/
theorem test_decode_more : decode [0xF404, 0xF800] = .more := by decide

/-- The table numbers a row's prefix above its base word (log entry 4): `MIN` with type 1 and registers 3, 4 and 5. -/
theorem test_table_words : decodeTableWord 32 0xF8090345 = some (.min .w32 3 4 5) ∧
    decodeTableWord 16 0x1234 = some (.addi .w64 2 3 ⟨0, 4⟩) ∧ decodeTableWord 32 0xF40C0341 = some (.ld .i64 3 4 1) := by decide

/-- R106. A placed `LI` runs as the next step: g7 becomes -3 and the program counter moves on by one halfword. -/
theorem test_step_runs_placed_word :
    (match step (State.reset.withFetchWord 16 0xD7FD) with
      | .next t => decide (t.gprAt 0 0 7 = BitVec.ofInt 64 (-3) ∧ (t.slot 0 0).pc = 2)
      | .fault _ => false
      | .refused _ => false) = true := by decide

/-! Small states for the witnesses. -/

/-- Slot 0 of core 0 issues a placed instruction; core 0 to core 3 are live. -/
def base : State :=
  { (State.reset.withFetchWord 16 0x1000).withIssue 0 0 ⟨⟨false, 0⟩, .addi .w64 0 0 ⟨0, 0⟩, 1, 0x1000, 0⟩ with logical := [0, 1, 2, 3] }
/-- An object entry of a kind, 16 KiB long. -/
def entOf (kind : Nat) : ObjEnt := { kind := kind, len := 0x4000, loc := 0x10000, ok := true }
/-- Its translation, homed on core 0 at 64 KiB. -/
def tlbOf (kind obj : Nat) : Tlb := ⟨0, obj, 0, entOf kind, true, 0, 0x10000, obj, 0, false⟩
/-- A general register of the issuing slot set. -/
def withG (s : State) (r : Nat) (x : Word) : State := s.onSlot s.ic s.is fun t => { t with g := SMap.set t.g r x }
/-- A predicate register of the issuing slot set. -/
def withP (s : State) (r : Nat) (x : Pred) : State := s.onSlot s.ic s.is fun t => { t with p := SMap.set t.p r x }
/-- A vector register of the issuing slot set. -/
def withV (s : State) (r : Nat) (x : Vec) : State := s.onSlot s.ic s.is fun t => { t with v := SMap.set t.v r x }
/-- A capability with every right for an object of 16 KiB, whose translation the slot holds. -/
def withObj (s : State) (r kind obj : Nat) : State :=
  s.onSlot s.ic s.is fun t => { t with walked := t.walked ++ [tlbOf kind obj], k := SMap.set t.k r (Cap.make 0x4000 0 255 0 obj) }
/-- What a check of such an object answers. -/
def xlOf (kind obj off : Nat) : Xl := ⟨obj, 0, entOf kind, off, [tlbOf kind obj]⟩
/-- k1 a scratchpad object, k2 shared memory, k3 private memory, k4 code. -/
def objs : State :=
  withObj (withObj (withObj (withObj base 1 kScratch 0x1000) 2 kShared 0x3000) 3 kPrivate 0x4000) 4 kCode 0x5000
/-- Only lanes 0 and 1 are active. -/
def twoLanes (s : State) : State := { withP s 1 3 with issue := { s.issue with gd := ⟨false, 1⟩ } }

/-! ## Witnesses: for each statement with hypotheses, concrete states and operands that meet them. -/

/-- Page 2: operands at the boundaries of the clauses about exact values, delivery, softmax segments and transcendentals. -/
theorem test_meets_float_values :
    ((1 : Nat) ≠ 0 ∧ (0 : Nat) = 0 ∧ (Fv.nan false).isSig = false ∧ (Fv.fin true 1 0).isSig = false) ∧
    (∀ t : FTy, t ∈ [FTy.f32, .f64, .f16, .bf16, .e4m3, .e5m2] →
      0 < 2 ^ (ftyFmt t).width ∧ ((ftyFmt t).value 0).isFin = true ∧ ((ftyFmt t).value 1).isFin = true) ∧
    (((4 : BitVec 3).toNat < 5 ∧ (3 : Vr) ≠ 35) ∧ (fmtF32.value 0x7FC00000).isNan = true ∧
      (∃ p ∈ [(true, 0x7FC00000)], p.1 = true ∧ (fmtF32.value p.2).isNan = true)) ∧ 253 < 254 := by decide

/-- The numbers that the clauses on overflow and on the ends of `VFTANH` and `VFSIGM` are about. -/
theorem test_meets_float_magnitudes :
    (2 : Rat) ^ 2000 ≤ ((1 : Nat) : Rat) * 2 ^ (2000 : Int) ∧ 19 / 2 ≤ |Spec.num (.fin true 19 (-1))| ∧
    35 / 2 ≤ Spec.num (.fin false 35 (-1)) := by
  refine ⟨?_, ?_, ?_⟩ <;> norm_num [Spec.num]

/-- R160, R161. A capability transfer to the first and to the last halfword of its object. -/
theorem test_meets_transfers :
    let s := objs
    (s.cap 4).obj ≠ aliasObj ∧ s.lookup s.ic s.is (s.cap 4).obj (0x3FFE / 2 ^ 21) = some (tlbOf kCode 0x5000) ∧
    s.lookup s.ic s.is (s.cap 4).obj ((s.cap 4).base / 2 ^ 21) = some (tlbOf kCode 0x5000) ∧
    s.checkTransfer (s.cap 4) 4 0x3FFE = .ok (xlOf kCode 0x5000 0x3FFE) := by decide

/-- R110, R127, R128, R371. The last private and the first shared register; the last bank frame of the base state; a strand
that single-steps and one that does not. -/
theorem test_meets_registers :
    (31 : Gpr) ≠ 0 ∧ (31 : Gpr).toNat < 32 ∧ 32 ≤ (32 : Gpr).toNat ∧ 0 < 16 ∧ (base.group? 0 0).isSome = true ∧
    base.me.step = false ∧ base.cycle < 2 ^ 70 ∧ base.me.lead = false ∧ base.me.trail = false ∧
    (let s := base.onSlot 0 0 fun t => { t with step := true }
     (s.me.step && s.is != 15 && !s.me.lead) = true) ∧ (base.me.step && base.is != 15 && !base.me.lead) = false := by decide

/-- R42. A leading copy that performs an instruction for both, whose trailing copy has not come to it and has. -/
theorem test_meets_pairs :
    let s := base.onSlot 0 0 fun t => { t with lead := true, doing := some (.addi .w64 0 0 ⟨0, 0⟩) }
    let j := s.onSlot 0 8 fun t => { t with trail := true, joined := some ⟨⟨false, 0⟩, .addi .w64 0 0 ⟨0, 0⟩, 1, 0x1000, 0⟩ }
    s.me.lead = true ∧ s.me.doing = some (.addi .w64 0 0 ⟨0, 0⟩) ∧ s.me.kept = none ∧ (s.slot s.ic (s.is + 8)).joined = none ∧
    j.me.lead = true ∧ (j.slot j.ic (j.is + 8)).joined = some ⟨⟨false, 0⟩, .addi .w64 0 0 ⟨0, 0⟩, 1, 0x1000, 0⟩ ∧ (j.slot j.ic (j.is + 8)).step = false := by decide

/-- The frame of scalar instructions: `ADD` answers a next state. -/
theorem test_meets_scalar_frame :
    Spec.Alone base ∧ Spec.scalarDest (.add .w64 31 2 3) 31 ∧ ∃ t, exec (.add .w64 31 2 3) base = .next t :=
  ⟨fun _ => by decide, .inl ⟨.w64, 2, 3, by simp⟩, _, rfl⟩

/-- The accesses that no entry of an empty scoreboard holds, and one that the entry of an earlier copy holds (R284). -/
theorem test_nothing_held (s : State) (lo n : Nat) (w : Bool) (h : (s.core s.ic).board = []) : ¬ Spec.Held s lo n w := by
  rintro ⟨e, he, -⟩; simp [h] at he
def heldBoard : State := objs.onCore 0 fun k => { k with board := [⟨.scratch 0x13FF8 0x14000, true, 1⟩], order := 1 }
theorem test_held : Spec.Held heldBoard 0x13FF8 8 false ∧ Spec.Held heldBoard 0x13FFF 1 true :=
  ⟨⟨_, List.mem_singleton.mpr rfl, by decide, rfl, 0x13FF8, 0x14000, rfl, by decide, by decide⟩,
   ⟨_, List.mem_singleton.mpr rfl, by decide, rfl, 0x13FF8, 0x14000, rfl, by decide, by decide⟩⟩

/-- R50. An access of the last 8 bytes of a scratchpad object, one page translated. -/
theorem test_meets_checks :
    let s := objs
    (s.cap 1).obj ≠ aliasObj ∧
    ((if (s.cap 1).base + 0x3FF8 + 8 ≤ (s.cap 1).limit then pagesOf ((s.cap 1).base + 0x3FF8) 8 else [(s.cap 1).base / 2 ^ 21]).map
      fun p => s.lookup 0 0 (s.cap 1).obj p) = (tlbOf kScratch 0x1000 :: []).map some ∧
    ((if (s.cap 1).base + 0x3FF9 + 8 ≤ (s.cap 1).limit then pagesOf ((s.cap 1).base + 0x3FF9) 8 else [(s.cap 1).base / 2 ^ 21]).map
      fun p => s.lookup 0 0 (s.cap 1).obj p) = (tlbOf kScratch 0x1000 :: []).map some := by decide

/-- R2, R208. Loads of the last bytes of a scratchpad object, by register and by immediate, of a granule and of two lanes. -/
theorem test_meets_scratchpad_loads :
    let s := withG (withG objs 2 0x3FF8) 3 0x3FF0
    Memory.wf s.mem = true ∧ (xlOf kScratch 0x1000 0x3FF8).ent.kind = kScratch ∧ (s.core s.ic).board = [] ∧
    s.sideUsed s.ic s.is = 0 ∧
    (s.chk 1 (s.gpr 2).toNat 8 rR 8 0 false s.mayLoad = .ok (xlOf kScratch 0x1000 0x3FF8) ∧
      s.poisoned (Spec.padByte s (xlOf kScratch 0x1000 0x3FF8) 0x3FF8) 8 = false) ∧
    s.chk 1 0x3FF8 8 rR 8 0 false s.mayLoad = .ok (xlOf kScratch 0x1000 0x3FF8) ∧
    (s.chk 1 (s.gpr 3).toNat 16 (rR + rK) 16 0 false s.mayLoad = .ok (xlOf kScratch 0x1000 0x3FF0) ∧
      s.poisoned (Spec.padByte s (xlOf kScratch 0x1000 0x3FF0) 0x3FF0) 16 = false) ∧
    (let u := twoLanes s
     u.sideUsed u.ic u.is = 0 ∧ (u.core u.ic).board = [] ∧
     u.chkVec 1 rR 4 false u.mayLoad (u.activeIdx 32 (.contiguous 2)) =
       .ok (xlOf kScratch 0x1000 0) [(0, 0x3FF8), (1, 0x3FFC)] ∧
     ∀ p ∈ [(0, 0x3FF8), (1, 0x3FFC)],
       p.1 < 256 ∧ u.poisoned (Spec.padByte u (xlOf kScratch 0x1000 0) p.2) 4 = false) := by decide

/-- R49, R208. Stores of the same bytes; `CAPST` of an untagged granule. -/
theorem test_meets_scratchpad_stores :
    let s := withG (withG objs 2 0x3FF8) 3 0x3FF0
    let t := xlOf kScratch 0x1000 0x3FF8
    (s.core s.ic).waiters = [] ∧ (s.core s.ic).board = [] ∧ Memory.wf s.mem = true ∧ s.chkStore 1 (s.gpr 2).toNat 8 rW 8 0 s.mayStore = .ok t ∧
    s.chkStore 1 0x3FF8 8 rW 8 0 s.mayStore = .ok t ∧
    (s.chkStore 1 (s.gpr 3).toNat 16 (rW + rK) 16 0 s.mayStore = .ok (xlOf kScratch 0x1000 0x3FF0) ∧
      (s.home (xlOf kScratch 0x1000 0x3FF0) 0x3FF0).1 = s.ic ∧ (s.cap 9).tag = false) ∧
    (let u := twoLanes s
     u.chkVec 1 rW 4 true u.mayStore (u.activeIdx 32 (.contiguous 2)) = .ok (xlOf kScratch 0x1000 0) [(0, 0x3FF8), (1, 0x3FFC)]) := by decide

/-- R54, R56, R208. A shared store with room in the log and one without; a load of private memory. -/
theorem test_meets_shared_and_vault :
    let s := withG objs 2 0x3FF8
    let u := s.onLog 0 fun l => { l with tail := 2 ^ 24 - 23 }
    let e : LogEnt := { pos := 0, kind := 0, size := 0, mask := 255, off := 0x3FF8, gen := 0, obj := 0x3000, data := 0
                        tag := false, home := 0, addr := 0x13FF8, shipped := false, acked := false }
    (s.chkStore 2 (s.gpr 2).toNat 8 rW 8 0 s.mayStore = .ok (xlOf kShared 0x3000 0x3FF8) ∧
      (s.core s.ic).log.room [e] = true ∧ s.home (xlOf kShared 0x3000 0x3FF8) 0x3FF8 = (0, 0x13FF8)) ∧
    (u.chkStore 2 (u.gpr 2).toNat 8 rW 8 0 u.mayStore = .ok (xlOf kShared 0x3000 0x3FF8) ∧
      (u.core u.ic).log.room [e] = false) ∧
    s.chk 3 (s.gpr 2).toNat 8 rR 8 0 false s.mayLoad = .ok (xlOf kPrivate 0x4000 0x3FF8) ∧
    ((s.home (xlOf kPrivate 0x4000 0x3FF8) 0x3FF8).2 + 8 - 1) / 256 = (s.home (xlOf kPrivate 0x4000 0x3FF8) 0x3FF8).2 / 256 ∧
    (s.core s.ic).board = [] ∧ s.sideUsed s.ic s.is = 0 ∧ (s.core s.ic).vault.wq = [] ∧
    s.cachedImage s.ic (s.home (xlOf kPrivate 0x4000 0x3FF8) 0x3FF8).2 = false ∧ s.guardOk = true := by decide

/-- R64, R214, R217, R218. An empty and a full side log; acquires of no other core, of others, and of a malformed mask. -/
theorem test_meets_ordering :
    let s := withG (withG (withG base 2 (2 ^ 61)) 3 (2 ^ 63)) 4 (2 ^ 61 + 1)
    let full := base.writeMem (base.sideLoc 0 0) (8 * 2 ^ 72) 16
    base.sideUsed base.ic base.is = 0 ∧ full.sideUsed full.ic full.is ≠ 0 ∧ s.sideUsed s.ic s.is = 0 ∧ s.guardOk = true ∧
    (s.gpr 2).toNat = 2 ^ 61 ∧ s.logSet 5 (s.gpr 2).toNat = some [0, 1, 2, 3] ∧
    ([0, 1, 2, 3].filter fun t => t != s.ic) ≠ [] ∧
    s.logSet 5 (s.gpr 3).toNat = none ∧ s.logSet 2 (s.gpr 2).toNat = some [0] ∧
    (([0] : List Nat).filter fun t => t != s.ic) = [] := by decide

/-- R223, R224. The issuing core's own name, a name of no core, and a range of the mirror. -/
theorem test_meets_log_queries :
    let s := withG (withG (withG objs 2 (BitVec.allOnes 64)) 3 0x10000) 4 0x40
    s.gpr 2 = BitVec.allOnes 64 ∧ (8 : BitVec 4).toNat < 9 ∧ 2 ^ 16 ≤ (s.gpr 3).toNat ∧ s.gpr 3 ≠ BitVec.allOnes 64 ∧
    s.guardOk = true ∧
    (s.prewalk s.ic s.is (s.cap 2).obj [0, 0]).checkSpan s.ic s.is (s.cap 2) 2 0x3FC0 0x40 rR 1 0 false (fun _ _ => true) [0] =
      .ok (xlOf kShared 0x3000 0x3FC0) ∧
    (s.prewalk s.ic s.is (s.cap 3).obj [0, 0]).checkSpan s.ic s.is (s.cap 3) 3 0x3FC0 0x40 rR 1 0 false (fun _ _ => true) [0] =
      .ok (xlOf kPrivate 0x4000 0x3FC0) := by decide

/-- R223. The name of the package's second core, whatever number the package has. -/
theorem test_meets_log_query_elsewhere :
    let name := (BitVec.ofNat 64 (Config.pkg.toNat * 1024 + 1) : Word).toNat
    name < 2 ^ 16 ∧ base.namedPos (name / 1024) (name % 1024) = some 1 ∧ 1 ≠ base.ic ∧ base.guardOk = true := by
  have h := Config.pkg.isLt
  have hn : (BitVec.ofNat 64 (Config.pkg.toNat * 1024 + 1) : Word).toNat = Config.pkg.toNat * 1024 + 1 := by
    rw [BitVec.toNat_ofNat]; omega
  have hd : (Config.pkg.toNat * 1024 + 1) / 1024 = Config.pkg.toNat := by omega
  have hm : (Config.pkg.toNat * 1024 + 1) % 1024 = 1 := by omega
  simp only [hn, hd, hm]
  exact ⟨by omega, if_pos rfl, by decide, by decide⟩

/-- R60. A ring more than half full whose first entry compaction has passed, and which has room. -/
theorem test_meets_reclaim :
    let e : LogEnt := { pos := 0, kind := 0, size := 0, mask := 255, off := 0x3FF8, gen := 0, obj := 0x3000, data := 0
                        tag := false, home := 0, addr := 0x13FF8, shipped := false, acked := false }
    let l : Log := { tail := 0x900000, comp := 24, ents := [e] }
    l.room [e] = true ∧ l.size * 2 ^ 20 / 2 < l.tail + 24 - l.recl ∧
    ((l.append [e]).ents = ([e] ++ [{ e with pos := l.tail }]).drop 1) := by decide

/-- R219–R222, R352. Word operations on the last word of a scratchpad object: full, empty, equal and unequal; a sync word
whose generation differs from the operand and one whose generation is the operand. -/
theorem test_meets_scratchpad_words :
    let s := withG objs 2 0x3FF8
    let t := xlOf kScratch 0x1000 0x3FF8
    let f := s.setFull (Spec.padByte s t t.off) true
    let g := withG s 3 1
    (s.core s.ic).board = [] ∧ (f.core f.ic).board = [] ∧ Spec.WordHere s t ∧ Spec.WordHere f t ∧ s.guardOk = true ∧ Memory.wf s.mem = true ∧
    s.chk 1 (s.index (.reg 2)) 8 (rR + rW + rA) 8 0 false s.mayAmo = .ok t ∧
    s.chk 1 (s.index (.imm ⟨1, 0x3FF8⟩)) 8 (rR + rW + rA) 8 0 false s.mayAmo = .ok t ∧
    s.poisoned (Spec.padByte s t t.off) 8 = false ∧
    (∀ need ∈ [rR + rW + rS, rR + rS, rW + rS], s.chk 1 (s.index (.reg 2)) 8 need 8 0 false s.mayWord = .ok t ∧
      f.chk 1 (f.index (.reg 2)) 8 need 8 0 false f.mayWord = .ok t) ∧
    s.full.contains (Spec.padByte s t t.off) = false ∧ f.full.contains (Spec.padByte f t t.off) = true ∧
    (BitVec.ofNat 64 (f.readMem (Spec.padByte f t t.off) 8) : Word) = f.gpr 5 ∧
    (BitVec.ofNat 64 (f.readMem (Spec.padByte f t t.off) 8) : Word) ≠ f.gpr 2 ∧
    g.readMem (Spec.padByte g t t.off) 8 / 2 ^ 56 ≠ (g.gpr 3).toNat % 256 ∧
    g.readMem (Spec.padByte g t t.off) 8 / 2 ^ 56 = (g.gpr 5).toNat % 256 := by decide

/-- A matrix operation of slot 0. -/
def matOp (num : Nat) (kind : MatKind) : MatOp :=
  { num, slot := 0, kind, fmt := .float .bf16, epi := {}, start := 0, issue := 0, notify := false, shadow := false
    launch := none }
/-- A core's fields changed. -/
def withCore (s : State) (f : Core → Core) : State := s.onCore s.ic f

/-- No operation of the queue waits for the issuing slot to issue it. -/
def noneAwaited (s : State) : Bool := (s.core s.ic).matQ.all fun o => !(o.slot == s.is && o.awaited)
theorem noneAwaited_spec {s : State} (h : noneAwaited s = true) : Spec.NoneAwaited s := by
  intro o ho
  have := List.all_eq_true.mp h o ho
  simp only [Bool.not_eq_true', Bool.and_eq_false_imp, beq_iff_eq] at this
  exact fun h => absurd (this h.1) (by simp [h.2])

/-- R228, R229. The last place of the matrix queue with two places left on the scoreboard, with and without a notification;
a full queue; an MX format and another; a leading copy with two places left, and an operation that waits for the copy that
issues. -/
theorem test_meets_matrix_queue :
    let q (n m : Nat) := withCore base fun k => { k with matQ := List.replicate n (matOp 0 (.mzero 0)),
                                                         board := List.replicate m ⟨.buf 0 0 0, false, 0⟩ }
    let k := (q 7 30).core (q 7 30).ic
    (k.accepted.length < 8 ∧ k.board.length + 2 ≤ 32 ∧ k.canReserve = true) ∧ isMx k.fmt = false ∧
    8 ≤ ((q 8 0).core (q 8 0).ic).accepted.length ∧ (q 7 30).me.lead = false ∧
    noneAwaited (q 7 30) = true ∧ noneAwaited (q 8 0) = true ∧
    (let m := (q 6 0).onSlot 0 0 fun t => { t with lead := true }
     m.me.lead = true ∧ noneAwaited m = true ∧ (m.core m.ic).accepted.length < 8 ∧ (m.core m.ic).board.length ≤ 32) ∧
    (let o : MatOp := { matOp 9 (.mzero 0) with awaited := true }
     let m := withCore base fun k => { k with matQ := [matOp 8 (.mzero 0)] ++ o :: [] }
     (m.core m.ic).matQ = [matOp 8 (.mzero 0)] ++ o :: [] ∧ o.slot = m.is ∧ o.awaited = true ∧
       (m.core m.ic).accepted.length < 8 ∧ (m.core m.ic).board.length ≤ 32 ∧
       ∀ x ∈ [matOp 8 (.mzero 0)], ¬(x.slot = m.is ∧ x.awaited = true) ∧ x.num ≠ o.num) ∧
    (let m := withCore (q 7 30) fun k => { k with fmt := .mx .mx8 }
     isMx (m.core m.ic).fmt = true ∧ (m.core m.ic).accepted.length < 8) := by decide

/-- R231, R232, R235, R242. Tile loads, accumulator loads and a tile store that end with their object; rows opened and closed. -/
theorem test_meets_tiles :
    let s := withG objs 2 0x3000
    let k := s.core s.ic
    let z := storeSize k.fmt k.epi
    s.guardOk = true ∧ k.board = [] ∧ noneAwaited s = true ∧ k.accepted.length < 8 ∧ s.sideUsed s.ic s.is = 0 ∧
    s.chk 3 (s.index (.imm ⟨1, 0x3FFF⟩)) 1 rR 1 0 false s.tileKind = .ok (xlOf kPrivate 0x4000 0x3FFF) ∧
    (s.chk 3 (s.index (.reg 2)) (Machine.tileBytes .b8 0) rR 256 0 false s.tileKind = .ok (xlOf kPrivate 0x4000 0x3000) ∧
      s.allHere (xlOf kPrivate 0x4000 0x3000) (Machine.tileBytes .b8 0) = true) ∧
    (s.chk 3 (s.index (.reg 0)) 16384 rR 256 0 false s.tileKind = .ok (xlOf kPrivate 0x4000 0) ∧
      s.allHere (xlOf kPrivate 0x4000 0) 16384 = true) ∧
    (s.chk 3 (s.index (.reg 0)) z rW 64 0 false s.tstKind = .ok (xlOf kPrivate 0x4000 0) ∧
      s.allHere (xlOf kPrivate 0x4000 0) z = true) ∧
    (let u := withCore (s.onSlot 0 0 fun t => { t with k := SMap.set t.k 5 (Cap.make 0x4000 0 255 0 (s.scratchObj 0 0)) }) id
     u.chk 1 (u.index (.reg 0)) z rW 64 0 false u.tstKind = .ok (xlOf kScratch 0x1000 0) ∧ u.ownScratch (u.cap 1) = true) := by
  decide

/-- R236. Offsets on each side of every boundary: the last multiple of 1,024 of a buffer and of an accumulator, the first
byte beyond each, and a misaligned offset. -/
theorem test_meets_buffer_moves :
    let at_ (x : Word) := withG base 2 x
    let x (n : Word) : Nat := ((at_ n).gpr 2).toNat
    18432 ≤ x 18432 ∧ 16384 ≤ x 16384 ∧ (x 16383 < 16384 ∧ x 16383 % 1024 ≠ 0) ∧
    (x 17408 < 18432 ∧ x 17408 % 1024 = 0) ∧ (x 15360 < 16384 ∧ x 15360 % 1024 = 0) ∧
    (let s := at_ 17408
     s.me.hold = none ∧ (s.core s.ic).board = [] ∧ Memory.wf s.mem = true ∧ (s.core s.ic).accepted.length < 8 ∧
       s.guardOk = true ∧ s.badGranules = [] ∧ s.me.lead = false ∧ noneAwaited s = true ∧
       s.poisoned (bufLoc s.ic 3 17408) 1024 = false) ∧
    (let s := withCore (at_ 17408) fun k => { k with obs := [⟨base.cycle, 1, 3, 17408, 5⟩] }
     (s.core s.ic).obs = [⟨s.cycle, 1, (3 : Ob).toNat, x 17408, 5⟩] ∧ Memory.wf s.mem = true) := by decide

/-- The queue of core 0 holds one operation, which the array of its quad runs. -/
def queued (o : MatOp) : State := withCore base fun k => { k with matQ := [o] }
def granted (o : MatOp) : State := (queued o).onQuad 0 fun x => { x with running := some (0, o.num) }

/-- R230. One ready operation on an idle array with the credits it needs. -/
theorem test_meets_matrix_grant :
    let z := matOp 5 (.mzero 3)
    let s := { queued z with cycle := 16 }
    ((s.grantOrder 0).filterMap (fun c => (s.matReady c).map fun o => (c, o)) = [(0, z)]) ∧
    (s.quad 0).until_ ≤ s.cycle ∧ 16 * z.busy ≤ s.credits 0 := by decide

/-- R239, R240, R236. Running operations of each kind. -/
theorem test_meets_matrix_perform : ∀ o ∈ [matOp 5 (.mzero 3), matOp 6 (.mma false true 3 7 0), matOp 7 (.obput 3 1 15360)],
    ((granted o).quad 0).running = some (0, o.num) ∧
    ((granted o).core 0).matQ.find? (fun x => x.num == o.num) = some o ∧ ((granted o).core 0).contained = false ∧
    Memory.wf (granted o).mem = true := by decide

/-- A tile store to the scratchpad with one chunk of 4 bytes left. -/
def storedBytes : List Host.Cell := [(0, 1), (1, 2), (2, 3), (3, 4)]
def storing : State :=
  withCore (queued { matOp 8 (.tst 0 1 0x1000 0 0 [⟨0, 0, 0x10000, 4, 0⟩]) with agrees := some true }) fun k => { k with tst := some (0, 0, storedBytes, storedBytes) }
/-- R242. -/
theorem test_meets_tile_store_chunk :
    (storing.core 0).tst = some (0, 0, storedBytes, storedBytes) ∧ (storing.core 0).waiters = [] ∧
    storing.isLate 0 .tile = false ∧ 2048 * 0 < storedBytes.length ∧ Memory.wf storing.mem = true ∧
    (storing.core 0).accepted.head?.map MatOp.kind = some (.tst 0 1 0x1000 0 0 [⟨0, 0, 0x10000, 4, 0⟩]) ∧
    (storing.core 0).accepted.head?.map MatOp.agrees = some (some true) := by
  refine ⟨?_, ?_, ?_, ?_, ?_, ?_, ?_⟩ <;> decide

/-- R96. The ends of the range in which no sum of 256 products saturates. -/
theorem test_meets_integer_sums :
    (-(2 ^ 30 : Int) ≤ (BitVec.ofInt 32 (-(2 ^ 30))).toInt ∧ (BitVec.ofInt 32 (-(2 ^ 30))).toInt ≤ 2 ^ 30) ∧
    -(2 ^ 30 : Int) ≤ (BitVec.ofNat 32 (2 ^ 30)).toInt ∧ (BitVec.ofNat 32 (2 ^ 30)).toInt ≤ 2 ^ 30 := by decide

/-- A command block as the low 512 bits of v1. -/
def withBlock (s : State) (b : Nat) : State := withV s 1 (BitVec.ofNat 8192 b)
/-- From k1 to the last 8 bytes of k3: plain, and converting 8 bytes of `f32` to `f16`; a multicast to the group's scratchpad;
a fill. -/
def copyBlock : Nat := 0x3FF8 * 2 ^ 64 + 8 * 2 ^ 128 + 0x3100 * 2 ^ 192
def castBlock : Nat := 8 * 2 ^ 128 + 0x1101 * 2 ^ 192 + 3 * 2 ^ 256
def convBlock : Nat := 0x3FFC * 2 ^ 64 + 8 * 2 ^ 128 + (0x3102 + 0x100000) * 2 ^ 192
def fillBlock : Nat := 0x3FF8 * 2 ^ 64 + 8 * 2 ^ 128 + 0x3000 * 2 ^ 192
/-- The issuing slot's side log holds one entry. -/
def sideHeld (s : State) : State := s.writeMem (s.sideLoc s.ic s.is) (8 * 2 ^ 72) 16

/-- R272, R273. Each copy block and the fill block is well formed, as is one with a reserved bit set not. -/
theorem test_meets_copy_blocks :
    copyBad 0 ((withBlock objs copyBlock).blockOf 1) = none ∧ copyBad 1 ((withBlock objs castBlock).blockOf 1) = none ∧
    copyBad 2 ((withBlock objs convBlock).blockOf 1) = none ∧ fillBad ((withBlock objs fillBlock).blockOf 1) = none ∧
    copyBad 0 (copyBlock + 2 ^ 160) = some 16 ∧ copyBad 1 copyBlock = some 24 ∧ fillBad (fillBlock + 2 ^ 511) = none ∧
    fillBad (fillBlock + 2 ^ 256) = some 32 ∧ copyBad 2 (convBlock - 2 ^ 128) = some 16 := by decide

/-- R272, R274, R278. The ranges of each block pass. -/
theorem test_meets_copy_ranges :
    Spec.RangesOk (withBlock objs copyBlock) copyBlock false (some (xlOf kScratch 0x1000 0)) (some (xlOf kPrivate 0x4000 0x3FF8)) ∧
    Spec.RangesOk (withBlock objs castBlock) castBlock false (some (xlOf kScratch 0x1000 0)) (some (xlOf kScratch 0x1000 0)) ∧
    Spec.RangesOk (withBlock objs convBlock) convBlock false (some (xlOf kScratch 0x1000 0)) (some (xlOf kPrivate 0x4000 0x3FFC)) ∧
    Spec.RangesOk (withBlock objs fillBlock) fillBlock true none (some (xlOf kPrivate 0x4000 0x3FF8)) := by
  refine ⟨⟨⟨_, rfl, by decide⟩, _, rfl, by decide, by decide, fun h => absurd h (by decide)⟩,
    ⟨⟨_, rfl, by decide⟩, _, rfl, by decide, fun _ => by decide, fun h => absurd h (by decide)⟩,
    ⟨⟨_, rfl, by decide⟩, _, rfl, by decide, by decide, fun h => absurd h (by decide)⟩,
    ⟨rfl, _, rfl, by decide, by decide, fun h => absurd h (by decide)⟩⟩

/-- R214, R254, R272, R276. The last place of the copy queue, with the last places of the scoreboard and the inbox, for one
entry and for two; a full queue; a side log that is not empty and one that is; a block that asks for a noted follow-on. -/
theorem test_meets_copy_queue :
    let m : CopyCmd := { num := 1, slot := 0, fill := false, block := 0, src := none, dst := none }
    let s (n r : Nat) := withCore objs fun k => { k with copies := List.replicate n m, board := List.replicate 26 ⟨.buf 0 0 0, false, 0⟩
                                                         resv := List.replicate r ⟨0, 2, 0⟩ }
    (((s 15 47).core 0).copies.length < 16 ∧ ((s 15 47).core 0).canReserveN 1 = true ∧ ((s 15 46).core 0).canReserveN 2 = true ∧
      ((s 15 47).core 0).board.length + 6 ≤ 32) ∧
    16 ≤ ((s 16 0).core 0).copies.length ∧ (sideHeld objs).sideUsed objs.ic objs.is ≠ 0 ∧ objs.sideUsed objs.ic objs.is = 0 := by
  decide

/-- The collective blocks: 16 bytes of `f32` from k1 to k3 by the die's four live cores. -/
def collBlock (kind : Nat) : Nat := 16 * 2 ^ 128 + (kind + 0x3100) * 2 ^ 192 + 2 ^ 61 * 2 ^ 256

/-- R286. The participants are the live cores of the die; each kind but parity, which a pod's other packages must join, has a
well-formed block here, and a reserved bit makes one malformed. -/
theorem test_meets_collectives :
    let s := objs
    (∀ kind ∈ [0, 1, 2], s.collSet 5 (collBlock kind) = some [0, 1, 2, 3] ∧
      s.collBad kind 5 (collBlock kind) (some [0, 1, 2, 3]) = none) ∧
    (∀ kind ∈ [0, 1, 2, 3], s.collBad kind 5 (collBlock kind + 2 ^ 160) (some [0, 1, 2, 3]) = some 16) ∧
    s.collBad 0 5 (16 * 2 ^ 128 + 0x3100 * 2 ^ 192 + 3 * 2 ^ 60 * 2 ^ 256) none = none ∧
    s.collSet 5 (16 * 2 ^ 128 + 0x3100 * 2 ^ 192 + 3 * 2 ^ 60 * 2 ^ 256) = none ∧ s.sideUsed s.ic s.is = 0 ∧
    s.chk 1 0 16 rR 1 0 false (s.collKind (s.cap 1)) = .ok (xlOf kScratch 0x1000 0) ∧
    (∀ n ∈ [16, 4, 64], s.chk 3 0 n rW 1 1 false (s.collKind (s.cap 3)) = .ok (xlOf kPrivate 0x4000 0)) ∧
    (s.core 0).canReserve = true ∧ (s.core 0).board.length + 2 ≤ 32 ∧ (s.die 0).descs.length < 64 := by decide

/-- R290. A remote call on private memory whose line nothing holds, and one whose line an unshipped log entry holds. -/
theorem test_meets_remote_calls :
    let s := withG objs 2 0x3FF8
    let t := xlOf kPrivate 0x4000 0x3FF8
    let r (n : Nat) : Req := ⟨.rcRead 8, 0, 0, 0x4000, 0, 0x3FF8, 0, 0x13FF8, none, false, n, none⟩
    let e : LogEnt := { pos := 0, kind := 0, size := 0, mask := 255, off := 0x3FF8, gen := 0, obj := 0x4000, data := 0
                        tag := false, home := 0, addr := 0x13FF8, shipped := false, acked := false }
    let u := s.onLog 0 fun l => l.append [e]
    s.sideUsed s.ic s.is = 0 ∧
    s.chk 3 (s.index (.reg 2)) 8 rR 8 0 false (fun o _ => o.kind == kPrivate || o.kind == kKv) = .ok t ∧
    s.chk 3 (s.index (.reg 2)) 8 rW 8 0 false (fun o _ => o.kind == kPrivate || o.kind == kKv) = .ok t ∧
    s.chk 3 (s.index (.reg 2)) 8 (rR + rW + rA) 8 0 false (fun o _ => o.kind == kPrivate || o.kind == kKv) = .ok t ∧
    s.chk 3 (s.index (.reg 0)) 1024 rR 8 0 false (fun o _ => o.kind == kPrivate || o.kind == kKv) = .ok (xlOf kPrivate 0x4000 0) ∧
    s.mayLeave s.ic s.me s.me.held (r 0) = true ∧ u.mayLeave u.ic u.me u.me.held (r 24) = false ∧ u.guardOk = true := by decide

/-- A handle of a logical core of this package. -/
def ownHandle (c : Nat) : Word := BitVec.ofNat 64 (Config.pkg.toNat * 2 ^ 56 + c * 2 ^ 46)
theorem own_handle (p c : Nat) (h : p < 64) (hc : c < 1024) : hPkg (BitVec.ofNat 64 (p * 2 ^ 56 + c * 2 ^ 46)).toNat = p ∧
    hCore (BitVec.ofNat 64 (p * 2 ^ 56 + c * 2 ^ 46)).toNat = c := by
  simp only [hPkg, hCore, bitsOf, BitVec.toNat_ofNat]; omega
theorem own_handle_pos (c : Nat) (hc : c < 1024) : base.handlePos (ownHandle c).toNat = base.posOf c :=
  have e := own_handle Config.pkg.toNat c Config.pkg.isLt hc
  (if_pos e.1).trans (congrArg base.posOf e.2)

/-- Handles of no core, of the first core and of the second, whatever this package's number. -/
theorem test_meets_handles : base.handlePos (ownHandle 1023).toNat = none ∧ base.handlePos (ownHandle 0).toNat = some base.ic ∧
    base.handlePos (ownHandle 1).toNat = some 1 ∧ 1 ≠ base.ic := by
  refine ⟨(own_handle_pos 1023 (by decide)).trans ?_, (own_handle_pos 0 (by decide)).trans ?_,
    (own_handle_pos 1 (by decide)).trans ?_, ?_⟩ <;> decide

/-- An inbox entry that slot 0 of core 0 may take. -/
def ent (kind : Nat) : Entry := { kind := kind, tag := 7, payload := 5 * 2 ^ 64 }
/-- Core 0's inbox holds it. -/
def inboxed (kind : Nat) : State := withCore base fun k => { k with inbox := [ent kind] }

/-- No slot of a small state parks, so looking at the inbox changes nothing. -/
theorem base_still (n : Nat) : (base.slot 0 n).run ≠ .parked := fun h => by
  by_cases hn : n = 0
  · subst hn; revert h; decide
  · have f : base.slot 0 n = Slot.fresh n := if_neg (Ne.symm hn)
    rw [f] at h; revert h; simp [Slot.fresh]
theorem test_meets_inbox_still : Spec.InboxStill (inboxed 2) ∧ Spec.InboxStill (inboxed 3) := by
  have key : ∀ k n, ((inboxed k).slot 0 n).run = .parked → False := fun _ n h => base_still n h
  refine ⟨⟨fun n h => absurd h (key 2 n), ?_⟩, fun n h => absurd h (key 3 n), ?_⟩ <;> decide

/-- R259–R261, R263. An entry to take and none; a completion with its launch known and not; a completion that is due. -/
theorem test_meets_messages :
    let s := inboxed 2
    let j := withG (inboxed 3) 2 7
    let due := withG (withCore base fun k => { k with resv := [⟨0, forLaunch, 7⟩] }) 2 7
    (s.sideUsed s.ic s.is = 0 ∧ s.firstTake s.ic s.is = some (ent 2) ∧ (ent 2).kind ≠ 3 ∧ (ent 2).kind ≠ 8 ∧
      (ent 2).wrote = none) ∧
    (base.firstTake base.ic base.is = none ∧ base.guardOk = true) ∧
    (j.joinEntry j.ic j.is (j.gpr 2).toNat = some (ent 3) ∧ j.launches.find? (fun p => p.1 == (ent 3).tag.toNat) = none) ∧
    (base.joinEntry base.ic base.is (base.gpr 2).toNat = none ∧
      ((base.core 0).resv.any fun r => r.what == forLaunch && r.num == (base.gpr 2).toNat && r.taker == base.is) = false) ∧
    (due.joinEntry due.ic due.is (due.gpr 2).toNat = none ∧
      ((due.core 0).resv.any fun r => r.what == forLaunch && r.num == (due.gpr 2).toNat && r.taker == due.is) = true) ∧
    (2 : BitVec 2).toNat < 3 := by decide

/-- R261. A completion of a launch whose core set holds another live core. -/
theorem test_meets_join_acquires :
    let r : LRec := { launch := { id := 7, dmask := 1, qmask := 1 }, core := 0, slot := 0, host := none }
    let j := { withG (inboxed 3) 2 7 with launches := [(7, r)] }
    j.joinEntry j.ic j.is (j.gpr 2).toNat = some (ent 3) ∧
    (j.launches.find? (fun p => p.1 == (ent 3).tag.toNat)).map (·.1) = some 7 ∧
    (j.coreSet r.launch).any (fun w => w != j.ic) = true ∧ j.guardOk = true := by decide

/-- R71. Fifteen operations outstanding. -/
theorem test_meets_outstanding :
    (base.onSlot 0 0 fun t => { t with posted := List.replicate 15 ⟨0, 0, 0, 0, none, false, 0⟩ }).me.outstanding < 16 := by decide

/-- R264, R267, R356. The last capability codes of `LAUNCH` and `LAUNCHI` and the first ones refused; an inbox with one entry
left for a device message and one with none; the ends of the scopes of a barrier; a strand and a handler. -/
theorem test_meets_launches_and_barriers :
    let s (n : Nat) := withCore base fun k => { k with resv := List.replicate n ⟨0, 2, 0⟩ }
    let h := { base with issue := { base.issue with slot := 13 } }
    (((s 47).core 0).canReserve = true ∧ ((s 48).core 0).canReserve = false) ∧ base.sideUsed base.ic base.is = 0 ∧
    ((11 : Kr).toNat ≤ 11 ∧ (10 : Kr).toNat ≤ 10 ∧ 11 < (12 : Kr).toNat ∧ 10 < (11 : Kr).toNat) ∧
    (2 ≤ Scope.core.code ∧ Scope.pod.code ≤ 7 ∧ Scope.slot.code < 2 ∧ 7 < Scope.sys.code) ∧
    (base.is < 13 ∨ base.me.trail = true) ∧ 13 ≤ h.is ∧ h.me.trail = false := by decide

/-- R268. No rotations and 255 of them; a wake, an entry and neither. -/
theorem test_meets_yield_and_park :
    let s := withG (withG base 2 256) 3 255
    (s.gpr 2).toNat % 256 = 0 ∧ 0 < (s.gpr 3).toNat % 256 ∧ (base.onSlot 0 0 fun t => { t with wake := true }).me.wake = true ∧
    ((inboxed 2).me.wake = false ∧ ((inboxed 2).firstTake 0 0).isSome = true) ∧ base.me.wake = false ∧
    base.firstTake base.ic base.is = none ∧ base.guardOk = true := by decide

/-- R269. A strand with an operation outstanding and one without, of a group with another strand; a handler; the supervisor. -/
theorem test_meets_halt :
    let w := base.onSlot 0 0 fun t => { t with posted := [⟨0, 0, 0, 0, none, false, 0⟩] }
    let two := (base.onGroup 0 0 fun g => { g with slots := [0, 1] }).setSlot 0 1 { base.slot 0 0 with strand := 1 }
    let h := { base with issue := { base.issue with slot := 13 } }
    let sup := { base with issue := { base.issue with slot := 15 } }
    (w.is ≠ 15 ∧ w.sideUsed w.ic w.is = 0 ∧ w.haltReady w.ic w.is w.me = false ∧ w.guardOk = true) ∧
    (two.is < 13 ∧ two.me.lead = false ∧ two.me.trail = false ∧ two.sideUsed two.ic two.is = 0 ∧
      two.haltReady two.ic two.is two.me = true ∧ two.me.run = .running ∧ two.barriers = [] ∧
      ∃ p ∈ two.strandsOf two.ic two.me.bank, p.1 ≠ two.is ∧ p.2.run ≠ .halted) ∧
    (h.is = 13 ∧ h.me.trail = false ∧ h.sideUsed h.ic h.is = 0 ∧ h.haltReady h.ic h.is h.me = true) ∧
    sup.is = 15 ∧ sup.sideUsed sup.ic sup.is = 0 ∧ (sup.core sup.ic).trap.urging = false ∧
    ((withCore sup fun k => { k with trap := { k.trap with urging := true } }).core sup.ic).trap.urging = true := by decide

/-- An open stream of die 0 at its step boundary, and one in a step that slot 0 of core 0 holds. -/
def atRest : Stream := { opened := true, g := 5, p := 4, c := 2, w := 3, cap := 16, z := 64, glog := 21 }
def inStep : Stream := { atRest with resv := some (6, 1, false, 0, 0) }
/-- A state with that stream as entry 0, and an operation on it that its table performs at clock 0. -/
def streaming (e : Stream) (r : StreamReq) : State :=
  base.onDie 0 fun d => { d with streams := [(0, e)], streamRun := [(0, r)] }
/-- The handle of entry 0 of die 0, generation 0, home core 0, of this package. -/
def streamName : Word := BitVec.ofNat 64 (Config.pkg.toNat * 2 ^ 30)

theorem own_stream (p x : Nat) (h : p < 64) (e : x = p * 2 ^ 30) :
    bitsOf x 41 23 = 0 ∧ shPkg x = p ∧ shDie x = 0 ∧ shGen x = 0 ∧ shCore x = 0 ∧ shIdx x = 0 := by
  simp only [shPkg, shDie, shGen, shCore, shIdx, bitsOf]; omega

theorem name_value (p : Nat) (h : p < 64) : (BitVec.ofNat 64 (p * 2 ^ 30)).toNat = p * 2 ^ 30 := by
  simp only [BitVec.toNat_ofNat]; omega
theorem stream_name : streamName.toNat = Config.pkg.toNat * 2 ^ 30 := name_value _ Config.pkg.isLt

/-- R326. The handle names the stream, whatever the package's number. -/
theorem test_meets_stream_named : ∀ r : StreamReq, ∀ e ∈ [atRest, inStep, { atRest with sec := true }],
    (streaming e r).namesStream 0 streamName.toNat = true := by
  intro r e he
  obtain ⟨h1, h2, h3, h4, h5, h6⟩ := own_stream Config.pkg.toNat streamName.toNat Config.pkg.isLt stream_name
  have hs : (streaming e r).stream 0 0 = e := rfl
  have hp : (streaming e r).posOf 0 = some 0 := rfl
  simp only [State.namesStream, h2, h3, h4, h5, h6, hs, hp, State.pkg]
  simp only [List.mem_cons, List.not_mem_nil, or_false] at he
  obtain rfl | rfl | rfl := he <;> simp only [beq_self_eq_true] <;> decide

/-- R326. A handle of another die names none here. -/
theorem test_meets_stream_unnamed (s : State) : s.namesStream 0 (BitVec.allOnes 64 : Word).toNat = false := by
  have h : (shDie (BitVec.allOnes 64 : Word).toNat == 0) = false := by decide
  simp only [State.namesStream, h, Bool.and_false, Bool.false_and]

/-- R338, R340, R344–R346. An operation started for the present clock; a handle of no stream; positions at and beyond each
bound; a holder's step that ends; the first ready entry and none. -/
theorem test_meets_stream_tables :
    let r (op : StreamOp) (h : Word) : StreamReq := ⟨op, 0, 0, h, false⟩
    let s := streaming atRest (r (.splay 5) 0)
    let t := streaming inStep (r (.sgen false) 0)
    ((s.die 0).streamRun.find? fun p => p.1 == 0) = some (0, r (.splay 5) 0) ∧
    (r (.splay 5) 0).world = false ∧
    (5 ≤ (s.stream 0 0).g ∧ (s.stream 0 0).g < 6) ∧
    ((s.stream 0 0).c ≤ 4 ∧ 4 ≤ (s.stream 0 0).p ∧ 1 < (s.stream 0 0).c ∧ (s.stream 0 0).p < 5) ∧
    (¬((s.stream 0 0).c ≤ 1 ∧ 1 ≤ (s.stream 0 0).g) ∧ (s.stream 0 0).resv = none) ∧
    ((t.stream 0 0).resv = some (6, 1, false, (r (.sgen false) 0).slot % 16, (r (.sgen false) 0).core) ∧
      (t.stream 0 0).queue = [] ∧ (t.stream 0 0).stalled = []) ∧
    s.nextReady 0 false = some (0, s.stream 0 0) ∧ t.nextReady 0 false = none := by decide

/-- R334, R335. A frame packet at its home; what its clauses ask of the frame and of the entry. -/
theorem test_meets_frames :
    let f (bad : Bool) (n : Nat) (sec : Bool) : Frame := ⟨0, 4, 0, n, bad, 0, sec, 0, 0, false⟩
    let p (x : Frame) : Packet := { id := 9, src := 0, dst := 0, cls := urgentClass, flits := 1, body := .frame x }
    let s (x : Frame) (e : Stream) : State := { streaming e ⟨.sclose, 0, 0, 0, false⟩ with packets := [(9, p x)] }
    let q : Queued := ⟨0, 0, 0, none, 0⟩
    (s (f false 64 false) atRest).packet? 9 = some (p (f false 64 false)) ∧ (p (f false 64 false)).dst < 864 ∧
    (f true 0 false).bad = true ∧ 64 < (f false 65 false).count ∧ (f false 64 false).count ≤ 64 ∧
    (f false 64 false).seq = ((s (f false 64 false) atRest).stream 0 0).fseq ∧
    ((s (f false 64 false) { atRest with queue := List.replicate 16 q }).stream 0 0).queue.length = 16 ∧
    (atRest.queue = [] ∧ atRest.stalled = [] ∧ atRest.resv = none ∧ atRest.c ≤ (f false 64 false).pf ∧ inStep.resv ≠ none) := by
  decide

/-- R337. A stream event at its owner: with its entry reserved, with an untaken event of the stream, and with neither. -/
theorem test_meets_stream_events :
    let x : Entry := { kind := 8, tag := 0 }
    let p : Packet := { id := 9, src := 0, dst := 0, cls := urgentClass, flits := 1, body := .streamEvent 0 0 0 x false }
    let s (k : Core → Core) : State := { withCore base k with packets := [(9, p)] }
    let held := s fun k => { k with resv := [⟨0, forStream, 0⟩] }
    let had := s fun k => { k with inbox := [x] }
    (held.packet? 9 = some p ∧ ((held.core 0).resv.any fun r => r.what == forStream && r.num == 0) = true) ∧
    (((had.core 0).resv.any fun r => r.what == forStream && r.num == 0) = false ∧
      ((had.core 0).inbox.any fun y => y.kind == 8 && y.tag == x.tag) = true) ∧
    (((s id).core 0).resv = [] ∧ ((s id).core 0).inbox = []) ∧
    ∀ n, (held.slot p.dst n).run = .parked → (held.slot p.dst n).why ≠ .inbox :=
  ⟨by decide, by decide, by decide, fun n h => absurd h (base_still n)⟩

/-- The die field of a handle at its last value and beyond it. -/
theorem test_meets_stream_handles :
    bitsOf (23 * 2 ^ 36) 36 5 < 24 ∧ 24 ≤ bitsOf (24 * 2 ^ 36) 36 5 ∧
    ((BitVec.ofNat 8192 (23 * 2 ^ 36)).extractLsb' 36 5).toNat < 24 ∧
    24 ≤ ((BitVec.ofNat 8192 (24 * 2 ^ 36)).extractLsb' 36 5).toNat ∧ base.guardOk = true := by decide

/-- The supervisor's slot issues at a nesting level. -/
def supAt (level : Nat) (s : State := base) : State :=
  { s with issue := { s.issue with slot := 15 } }.onTrap 0 fun k => { k with level := level }

/-- R361, R364, R371. A strand that does not single-step; the supervisor at level 1. -/
theorem test_meets_traps :
    base.is ≠ 15 ∧ base.pairBehind base.ic base.is = false ∧ base.me.lead = false ∧ base.me.step = false ∧ base.guardOk = true ∧ (supAt 1).is = 15 ∧ ((supAt 1).core 0).trap.level < 2 := by decide

/-- A trap that slot 0 raised at clock 5. -/
def raise5 : Raise := ⟨causeBounds, 0x40, 3, 2, false, 5, 0⟩
/-- Slot 0 stands trapped; what is pending is given. -/
def pending (pend : List (Nat × Nat)) (events : List (Nat × Nat × Nat)) : State :=
  ((base.onSlot 0 0 fun t => t.stopFor raise5).onTrap 0 fun k => { k with pend := pend, events := events })

/-- R362, R364. Delivery of a slot's trap, of an event of the core, of a nested trap, and none while a handler runs. -/
theorem test_meets_delivery :
    let s := pending [(5, 0)] []
    let e := pending [(5, 15)] [(causeVaultEvent, 1, 2)]
    let n := (base.setSlot 0 15 ((base.slot 0 15).stopFor raise5)).onTrap 0 fun k => { k with level := 1 }
    ((s.core 0).contained = false ∧ s.badGranules = [] ∧ Memory.wf s.mem = true) ∧
    ((s.core 0).trap.level = 0 ∧ (s.slot 0 15).run = .empty ∧ (s.core 0).trap.urgent = [] ∧ (s.core 0).trap.pend = [(5, 0)] ∧
      (0 : Nat) ≠ 15 ∧ (s.slot 0 0).raised = some raise5 ∧ (s.slot 0 0).held = []) ∧
    ((e.core 0).trap.pend = [(5, 15)] ∧ (e.core 0).trap.events = [(causeVaultEvent, 1, 2)] ∧ (e.slot 0 15).run = .empty ∧
      (e.core 0).trap.level = 0 ∧ (e.core 0).trap.urgent = []) ∧
    ((n.slot 0 15).run = .trapped ∧ (n.slot 0 15).raised = some raise5 ∧ (n.slot 0 15).held.length ≤ 8) ∧
    0 < ((supAt 1).core 0).trap.level ∧ ((supAt 1).slot 0 15).run ≠ .trapped := by decide

/-- The handler of slot 0's trap runs, with a control word in slot 0's frame, which another strand of its group stands beside. -/
def handling (ctl : Nat) : State :=
  let s := (base.onGroup 0 0 fun g => { g with slots := [0, 1] }).setSlot 0 1 { base.slot 0 0 with strand := 1 }
  let s := (s.onSlot 0 0 fun t => t.stopFor raise5).writeMem (vaultLoc 0 ((base.slot 0 0).ctxbase + 0x8400 + 0x28)) ctl 8
  (supAt 1 s).onTrap 0 fun k => { k with handled := some 0 }
/-- The reserved bits of a frame, as R369 checks them. -/
def reservedBits (s : State) (f : Nat) : Bool :=
  let word (off : Nat) : Nat := s.readMem (vaultLoc 0 (f + off)) 8
  word 8 / 2 ^ 16 != 0 || (word 8).testBit 11 || (word 8).testBit 7 || (word 8).testBit 3 || word 0x28 / 64 != 0

/-- R369. Outside a handler: another slot, level 0, and the level of an urgent episode. -/
theorem test_meets_return_outside :
    base.is ≠ 15 ∧ ((supAt 0).core 0).trap.level = 0 ∧
    (let u := (supAt 1).onTrap 0 fun k => { k with urging := true }
     (u.core 0).trap.level = 1 ∧ (u.core 0).trap.urging = true) := by decide

/-- R364, R367, R369. Level 2 with a sound and with a reserved frame; the handler of an event of the core. -/
theorem test_meets_return_nested :
    let s := supAt 2
    let f := s.me.ctxbase + 0x8400
    let t := s.writeMem (vaultLoc 0 (f + 0x28)) 64 8
    s.is = 15 ∧ (s.core 0).trap.level = 2 ∧ reservedBits s f = false ∧ reservedBits t f = true ∧
    ((supAt 1).is = 15 ∧ ((supAt 1).core 0).trap.level = 1 ∧ ((supAt 1).core 0).trap.urging = false ∧
      ((supAt 1).core 0).trap.handled = none) := by decide

/-- R367–R369. The handler of a slot's trap, whose frame is sound, reserved, or of a trap that is not to be resumed. -/
theorem test_meets_return_resumes :
    let s := handling 0
    let f := (s.slot 0 0).ctxbase + 0x8400
    (s.is = 15 ∧ (s.core 0).trap.level = 1 ∧ (s.core 0).trap.urging = false ∧ (s.core 0).trap.handled = some 0 ∧
      (s.slot 0 0).run = .trapped ∧ (s.slot 0 0).lead = false ∧ (s.slot 0 0).trail = false) ∧
    reservedBits s f = false ∧ reservedBits (handling 64) f = true ∧
    (reservedBits (handling 16) f = false ∧ ((handling 16).readMem (vaultLoc 0 (f + 0x28)) 8).testBit 4 = true) ∧
    ((s.readMem (vaultLoc 0 (f + 0x28)) 8).testBit 4 = false ∧ s.readMem (vaultLoc 0 (f + 0x28)) 8 % 16 = 0 ∧
      s.sideUsed 0 0 = 0 ∧ (s.slot 0 0).held = [] ∧ (s.core 0).vault.late = []) ∧
    s.barriers = [] ∧ ∃ p ∈ s.strandsOf 0 (s.slot 0 0).bank, p.1 ≠ 0 ∧ p.1 ≠ 15 ∧ p.2.run ≠ .halted := by decide

/-- R135, R136, R138. Numbers at the ends of each range of control registers, read by a strand and by the supervisor, and
numbers of no register beside them. -/
theorem test_meets_csr_reads :
    let s := supAt 0
    (11, base.me.ctxbase) ∈ Spec.slotWords base base.ic base.is ∧ (⟨0, 11⟩ : Imm).val = 11 ∧
    ((15 : Nat) < 16 ∧ s.is = 15 ∧ (11, (s.slot 0 15).ctxbase) ∈ Spec.slotWords s s.ic 15 ∧
      (⟨1, 0x1FB⟩ : Imm).val = 0x100 + 16 * 15 + 11 ∧ ¬Spec.NoCsr 0x1FB ∧ Spec.SlotCsr 0x1FB) ∧
    (base.is ≠ 15 ∧ Spec.SlotCsr 0x100 ∧ Spec.SlotCsr (⟨1, 0x1FB⟩ : Imm).val) ∧
    (∀ n ∈ [0xC, 0xFF, 0x10C, 0x1FF, 0x240, 0x2FF, 0x308], Spec.NoCsr n) ∧
    (∀ n ∈ [0, 0xB, 0x200, 0x22F, 0x230, 0x23F, 0x300, 0x307], ¬Spec.NoCsr n ∧ ¬Spec.SlotCsr n) ∧
    (⟨1, 0x22F⟩ : Imm).val = 0x220 + 15 := by decide

/-- R135. Registers of the supervisor's at the ends of their ranges and registers that are not. -/
theorem test_meets_csr_writes :
    (∀ n ∈ [5, 11, 0x100, 0x1FB, 0x209, 0x210, 0x220, 0x22F, 0x303, 0x307], Spec.SupCsr n ∧ ¬Spec.NoCsr n) ∧
    (∀ n ∈ [0, 4, 6, 9, 0x200, 0x208, 0x230, 0x300, 0x302], ¬Spec.SupCsr n ∧ ¬Spec.NoCsr n) ∧
    (base.is ≠ 15 ∧ (supAt 0).is = 15) ∧ Instr.csrw 2 ⟨0, 5⟩ ∈ Spec.csrWriters 2 ⟨0, 5⟩ := by
  refine ⟨?_, ?_, ?_, List.mem_cons_self ..⟩ <;> decide

/-- R127, R136, R138, R141. A write whose clock has come before one whose clock has not, with values at the ends of what each
register takes. -/
theorem test_meets_csr_commits :
    let at_ (n : Nat) (x : Word) : CsrWrite := ⟨0, 0, n, x⟩
    let s (n : Nat) (x : Word) := withCore (supAt 0) fun k => { k with csrs := [at_ n x, ⟨1, 0, 5, 0⟩] }
    let v (x : Word) : Nat := x.toNat
    ((s 11 0).core 0).csrs = at_ 11 0 :: [⟨1, 0, 5, 0⟩] ∧ (at_ 11 0).clock ≤ (s 11 0).cycle ∧
    (∀ x ∈ [(⟨1, 0, 5, 0⟩ : CsrWrite)], (s 11 0).cycle < x.clock) ∧
    (((s 0x11B 0).slot 0 1).run = .empty ∧ v 0x7FFF6000 / 2 ^ 12 % 2 ^ 19 * 2 ^ 12 + 0xA000 ≤ 2 ^ 31 ∧
      v 0x7FFF6000 / 2 ^ 12 % 2 ^ 19 * 2 ^ 12 ≠ ((s 0x11B 0).slot 0 1).ctxbase ∧
      (((s 0x11B 0).onSlot 0 1 fun t => { t with away := true }).slot 0 1).away = true) ∧
    (2 ^ 31 < v 0x7FFF7000 / 2 ^ 12 % 2 ^ 19 * 2 ^ 12 + 0xA000 ∧ ((s 11 0).slot 0 0).run = .running) ∧
    (((s 11 0).core 0).log.tail = ((s 11 0).core 0).log.recl ∧ v 256 % 512 ≤ 256 ∧ 1 ≤ v 1 % 512 ∧ v 512 % 512 = 0 ∧
      256 < v 257 % 512) ∧
    (let w := (s 11 0).onLog 0 fun l => { l with tail := 24 }
     (w.core 0).log.tail ≠ (w.core 0).log.recl) ∧
    (12 ≤ v 0x301 / 2 ^ 6 % 2 ^ 6 ∧ v 0xA01 / 2 ^ 6 % 2 ^ 6 ≤ 40 ∧
      v 0xA01 / 2 ^ 12 % 2 ^ 28 * 2 ^ 12 % 2 ^ (v 0xA01 / 2 ^ 6 % 2 ^ 6) = 0) ∧
    ¬(v 0xA41 % 2 = 1 → 12 ≤ v 0xA41 / 2 ^ 6 % 2 ^ 6 ∧ v 0xA41 / 2 ^ 6 % 2 ^ 6 ≤ 40) ∧
    (v 27 % 8 ≤ 3 ∧ v 27 / 8 % 8 ≤ 3) ∧ ¬(v 28 % 8 ≤ 3 ∧ v 28 / 8 % 8 ≤ 3) := by decide

/-- R374. Names of a core: all ones is the issuing core, and beyond the fabric there is none. -/
theorem test_meets_urgent_names :
    let s := withG (withG base 2 (BitVec.allOnes 64)) 3 (2 ^ 63)
    (s.gpr 2).toNat = 2 ^ 64 - 1 ∧ s.nameTarget (s.gpr 2).toNat = some 0 ∧ s.nameTarget (s.gpr 3).toNat = none := by decide

/-- R376. Slots that cannot be evicted: a number beyond 12, a copy of a pair, an empty slot, one with a trap pending; and one
that can. -/
theorem test_meets_evictions :
    let s := withG (withG (supAt 1) 2 12) 3 13
    let p := (supAt 1).onSlot 0 12 fun t => { t with trail := true }
    let q := (supAt 1).onTrap 0 fun k => { k with pend := [(5, 0)] }
    (s.is = 15 ∧ 12 < (s.gpr 3).toNat ∧ (s.gpr 2).toNat ≤ 12) ∧ (p.slot 0 12).trail = true ∧
    ((s.slot 0 12).lead = false ∧ (s.slot 0 12).trail = false ∧ (s.slot 0 12).run = .empty) ∧ (∃ c, (c, 0) ∈ (q.core 0).trap.pend) ∧
    ((s.slot 0 0).run ∈ [Run.running, .parked, .paused, .trapped] ∧ (s.core 0).trap.pend = [] ∧ Memory.wf s.mem = true ∧
      (s.core 0).csrs = [] ∧ (s.core 0).latch = []) ∧
    ((withCore s fun k => { k with latch := [(0, 0, [])] }).core 0).latch.find? (fun x => x.2.1 == 0) = some (0, 0, []) :=
  by refine ⟨?_, ?_, ?_, ⟨5, ?_⟩, ?_, ?_⟩ <;> decide

/-- An empty slot 1 with its image's control line in the register cache; the image names a slot and a state. -/
def imaged (n st : Nat) : State :=
  let s := (supAt 1).onSlot 0 1 fun t => { t with ctxbase := 0x1000 }
  ((s.onCore 0 fun k => { k with rc := [{ addr := 0x9300, used := 0, mark := none, slot := 1 }] }).writeMem (vaultLoc 0 0x9308) n 8).writeMem
    (vaultLoc 0 0x9330) (st * 2 ^ 8) 8

/-- R377. An occupied slot, a wrong image, a sound one, and a line that is not present. -/
theorem test_meets_reloads :
    let s := imaged 1 0
    ((s.core 0).rc.any (fun x => x.addr == (s.slot 0 1).ctxbase + 0x8300) = true ∧ (s.slot 0 1).run = .empty) ∧
    ((s.slot 0 0).run ≠ .empty ∧ (s.slot 0 0).run ≠ .swapped) ∧
    (imaged 2 0).readMem (vaultLoc 0 0x1000 + 0x8308) 8 ≠ 1 ∧
    3 < (imaged 1 4).readMem (vaultLoc 0 0x1000 + 0x8330) 8 / 2 ^ 8 % 2 ^ 3 ∧
    (s.readMem (vaultLoc 0 0x1000 + 0x8308) 8 = 1 ∧ s.readMem (vaultLoc 0 0x1000 + 0x8330) 8 / 2 ^ 8 % 2 ^ 3 = 0 ∧
      (s.core 0).swapped = []) ∧
    ((imaged 1 1).readMem (vaultLoc 0 0x1000 + 0x8308) 8 = 1 ∧ (imaged 1 1).readMem (vaultLoc 0 0x1000 + 0x8330) 8 / 2 ^ 8 % 2 ^ 3 = 1) ∧
    (∀ p ∈ (s.core s.ic).groups, p.2.parking = []) ∧
    (s.core 0).rc.any (fun x => x.addr == (s.slot 0 2).ctxbase + 0x8300) = false ∧ s.guardOk = true := by decide

/-- R377. Nobody of that core waits for its inbox. -/
theorem test_meets_reload_still : Spec.InboxStill (imaged 1 0) ∧ Spec.InboxStill (imaged 1 1) := by
  suffices key : ∀ n, ((imaged 1 0).slot 0 n).run = .parked → False from
    ⟨⟨fun n h => absurd h (key n), by decide⟩, fun n h => absurd h (key n), by decide⟩
  intro n h
  by_cases h0 : n = 0
  · subst h0; revert h; decide
  by_cases h1 : n = 1
  · subst h1; revert h; decide
  · have f : (imaged 1 0).slot 0 n = Slot.fresh n :=
      (if_neg (Ne.symm h0)).trans (if_neg (Ne.symm h1))
    revert h; rw [f]; simp [Slot.fresh]


/-- R355, R356. Events that are due, a clear that is due with its highest counter, and events that are not due. -/
theorem test_meets_counter_commits :
    let s (l : List EvcWrite) := withCore (supAt 0) fun k => { k with evcs := l }
    (((s [⟨0, 15, [], 0xFFFF⟩]).core 0).evcs = [⟨0, 15, [], 0xFFFF⟩] ∧ (s []).cycle ≥ 0 ∧ 0xFFFF < 2 ^ 16 ∧ (s []).ic = 0) ∧
    ((s [⟨0, 3, [(15, 1)], 0⟩]).core 0).evcs = [⟨0, 3, [(15, 1)], 0⟩] ∧
    ∀ w ∈ ((s [⟨2 ^ 70, 3, [(0, 1)], 0⟩]).core 0).evcs, (s []).cycle < w.clock := by decide
/-- A request for one beat at core 0's vault controller, and the controller that holds it. -/
def req1 : VReq := { id := 9, addr := 0x1000, beats := 2, cont := .slot 0 }
def vaulted (f : Vault → Vault) : State := base.onVault 0 f

/-- R189, R190, R193, R194, R209. A request that has arrived and one on its way; a beat that is due, of one more and the last of
a write, at full and half width; a bank still busy, a bank free, and a bank free while the bus stalls; the last stage of
repair, an earlier one, a fall to half width that ends, and a spare lane; a line to send; a latched instruction. -/
theorem test_meets_vault_events :
    (req1.beats ≠ 0 ∧ req1.cont ≠ .open ∧ req1.cont ≠ .close ∧ ∀ n, req1.cont ≠ .tile n) ∧
    (let s := vaulted fun v => { v with reqs := [{ req1 with arrived := true }] }
     (s.core 0).vault.reqs = [{ req1 with arrived := true }] ∧ req1.ready = 0 ∧
      (s.core 0).vault.bankBusy (req1.addr / 2 ^ 13 % 32) s.cycle = false) ∧
    (let r := { req1 with arrived := true, ready := 1 }
     let s := { vaulted fun v => { v with reqs := [r] } with cycle := 1 }
     s.nextBeat 0 = some r ∧ s.badGranules = [] ∧ (s.core 0).vault.half = false ∧ r.done + 1 < r.beats) ∧
    (let r := { req1 with beats := 1, arrived := true, ready := 1, cont := .write 3, done := 1 }
     let s := { vaulted fun v => { v with reqs := [r], half := true, wq := [⟨3, 255, true, none⟩] } with cycle := 1 }
     s.nextBeat 0 = some r ∧ r.done + 1 = 2 * r.beats ∧ (s.core 0).vault.late = [] ∧ (s.core 0).homeWaiters = []) ∧
    base.nextBeat 0 = none ∧
    (let s := vaulted fun v => { v with falling := true }
     (s.core 0).vault.falling = true ∧ (s.core 0).vault.busStall ≤ s.cycle ∧ (s.core 0).vault.reqs = [] ∧
      (base.core 0).vault.falling = false) ∧
    ((vaulted fun v => { v with reopen := [(31, 7)] }).core 0).vault.reopen.find? (fun p => p.1 == 31) = some (31, 7) ∧
    (let s := base.onDie 0 fun d => { d with refcfg := 32 + 2 ^ 16 * 5 }
     s.refcfgOf 0 % 2 ^ 16 ≠ 0 ∧ s.cycle % (s.refcfgOf 0 % 2 ^ 16) = 0 * (s.refcfgOf 0 % 2 ^ 16) / 32 ∧
      s.cycle % (s.refcfgOf 0 % 2 ^ 16) ≠ 31 * (s.refcfgOf 0 % 2 ^ 16) / 32) ∧
    (((vaulted fun v => { v with busy := [(0, 1)] }).core 0).vault.reqs = [] ∧
      base.cycle < SMap.get ((vaulted fun v => { v with busy := [(0, 1)] }).core 0).vault.busy 0 0) ∧
    (SMap.get (base.core 0).vault.busy 0 0 ≤ base.cycle ∧ (base.core 0).vault.busStall ≤ base.cycle) ∧
    base.cycle < ((vaulted fun v => { v with busStall := 1 }).core 0).vault.busStall ∧
    (((vaulted fun v => { v with half := true, spareLanes := 0 }).core 0).vault.half = true ∧
      ((vaulted fun v => { v with half := true, spareLanes := 0 }).core 0).vault.spareLanes = 0) ∧
    (((vaulted fun v => { v with spareLanes := 0 }).core 0).vault.half = false ∧ (base.core 0).vault.spareLanes ≠ 0) ∧
    ((vaulted fun v => { v with wq := [⟨3, 255, false, none⟩] }).core 0).vault.wq.find? (fun x => !x.sent) = some ⟨3, 255, false, none⟩ ∧
    (((withCore base fun k => { k with latch := [(0, 2, [])] }).core 0).latch = (0, 2, []) :: [] ∧
      (base.core 0).vfree ≤ base.cycle) := by
  refine ⟨⟨by decide, by decide, by decide, fun n h => nomatch h⟩, ?_⟩
  refine ⟨?_, ?_, ?_, ?_, ?_, ?_, ?_, ?_, ?_, ?_, ?_, ?_, ?_, ?_⟩ <;> decide

/-- A slot of core 0 that parks for a reason. -/
def parkedFor (n : Nat) (why : Why) (w : Wait) : State :=
  base.onSlot 0 n fun t => { t with run := .parked, why := why, wait := some w }
/-- One arrival is outstanding, and the instruction issues again. -/
def againWait : Wait := { fin := .again, left := 1 }

/-- R134. A set of eleven lines that the waiting instruction needs, and a twelfth line of the set. -/
theorem test_meets_full_set :
    let ls := (List.range 11).map fun i => i * 2 ^ 15
    let s := withCore (parkedFor 15 .line { againWait with needs := ls }) fun k => { k with rc := ls.map fun a => ⟨a, 0, none, 15, false⟩ }
    11 ≤ ((s.core 0).rc.filter fun x => x.addr / 2 ^ 8 % 2 ^ 7 == 11 * 2 ^ 15 / 2 ^ 8 % 2 ^ 7).length ∧
    (∀ x ∈ (s.core 0).rc, x.addr ≠ 11 * 2 ^ 15) ∧ s.rcVictim 0 (11 * 2 ^ 15) ls = none := by decide

/-- R315. A walk of the last slot, whose die holds none of the lines that it reads. -/
def walk15 : Walk := ⟨walkCmd, 0, 15, 64, 0, true⟩
def walking : State :=
  (parkedFor 15 .walk againWait).onDie 0 fun d => { d with walks := [walk15], walkers := 1 }
theorem test_meets_walks :
    (walking.die (posDie 0)).walks.find? (fun x => x.id == walk15.id) = some walk15 ∧ walk15.core = 0 ∧
    walking.walkMiss walk15 = some walk15.obj ∧ (walking.die (posDie 0)).walkQ = [] ∧
    (walking.slot 0 (walk15.slot % 16)).run = .parked ∧ (walking.slot 0 (walk15.slot % 16)).why = .walk ∧
    (walking.slot 0 (walk15.slot % 16)).wait = some againWait ∧ againWait.ticket = walk15.slot / 16 ∧
    (walking.core 0).trap.urging = false ∧
    (walking.onDie 0 fun d => { d with cache := [(64, 0)] }).walkMiss walk15 = none := by decide

/-- R314. The least recently used of 64 translations of a core leaves for another. -/
theorem test_meets_tlb_full :
    let k : Core := { tlb := (List.range 64).map fun i => { tlbOf kCode i with used := i + 1 } }
    let x : Tlb := { tlbOf kCode 0 with used := 1 }
    let t := { tlbOf kCode 99 with used := 99 }
    (k.tlb.length ≤ 64 ∧ x ∈ k.tlb ∧ ¬(x.slot = t.slot ∧ x.obj = t.obj ∧ x.page = t.page)) ∧ x ∉ (k.tlbInstall t).tlb := by decide

/-- R132, R315. The last slot waits for a register line, and for a walk. -/
theorem test_meets_fills_and_walks :
    (let s := parkedFor 15 .line againWait
     (15 < 16 ∧ (s.slot 0 15).run = .parked ∧ (s.slot 0 15).why = .line ∧ (s.slot 0 15).wait = some againWait ∧
      againWait.fin = .again ∧ againWait.left = 1 ∧ againWait.err = none ∧ againWait.reads = [] ∧ againWait.ticket = 0 ∧
      (s.core 0).trap.urging = false)) ∧
    (let s := parkedFor 15 .walk againWait
     (s.slot 0 15).run = .parked ∧ (s.slot 0 15).why = .walk ∧ (s.slot 0 15).wait = some againWait ∧ (s.die 0).walkQ = []) ∧
    (let s (w q : Nat) := base.onDie 0 fun d => { d with walkers := w, walkQ := List.replicate q (0, 0, 0, 0) }
     (((s 95 0).die (posDie 0)).walkers < 96) ∧
     (96 ≤ ((s 96 255).die (posDie 0)).walkers ∧ ((s 96 255).die (posDie 0)).walkQ.length < 256) ∧
     (96 ≤ ((s 96 256).die (posDie 0)).walkers ∧ 256 ≤ ((s 96 256).die (posDie 0)).walkQ.length)) := by
  refine ⟨?_, ?_, ?_⟩ <;> decide

/-- A packet from core 1 to core 0, on its way. -/
def pkt (b : Body) : Packet := { id := 5, src := 1, dst := 0, cls := control, flits := 1, body := b }
def carrying (b : Body) (s : State := base) : State := { s with packets := SMap.set s.packets 5 (pkt b) }

/-- R312, R317. A shootdown and its last but one and last acknowledgement; a marker, the last one, and the drained packet. -/
theorem test_meets_table_events :
    (let s := carrying (.shootdown 3 4 23)
     s.packet? (pkt (.shootdown 3 4 23)).id = some (pkt (.shootdown 3 4 23)) ∧ (pkt (.shootdown 3 4 23)).src < 864) ∧
    (∀ n ∈ [1, 2], let w : TWrite := ⟨3, 4, n, some (1, 0, 0), none, none, []⟩
      let s := { carrying (.shootAck 3 23) with writes := [w] }
      s.packet? 5 = some (pkt (.shootAck 3 23)) ∧ s.writes.find? (fun x => x.id == 3) = some w ∧ w.posted = none ∧
        w.group = none ∧ w.migs = []) ∧
    (∀ b ∈ [Body.marker 8 1, .drained 8], ∀ o ∈ [false, true],
      let m : Mig := { id := 8, entry := 16, old := 0, oldBase := 0, new := 1, newBase := 0, markers := 1, held := [],
                       settled := true, sent := 2048, open_ := o }
      let s := { carrying b with migs := [m] }
      s.packet? 5 = some (pkt b) ∧ s.migs.find? (fun x => x.id == 8) = some m ∧ m.markers = 1 ∧ m.settled = true ∧
        m.sent = 2048 ∧ m.back = [] ∧ m.open_ = o ∧ ∀ x ∈ s.migs, x.id ≠ 8 → x.entry ≠ m.entry) := by
  refine ⟨?_, ?_, ?_⟩ <;> decide

/-- A log entry for object 64, and core 1's request to perform it at core 0, whose object table has the object. -/
def logged : LogEnt :=
  { pos := 0, kind := 0, size := 3, mask := 255, off := 0x40, gen := 0, obj := 64, data := 7, tag := false, home := 0
    addr := 0x10040, shipped := false, acked := false }
def entryReq : Req := ⟨.entry logged, 1, 0, 64, 0, 0x40, 0, 0x10040, none, false, 0, none⟩
def tabled (b : Body) : State := (carrying b).writeMem (base.tableLoc (64 * 64)) (3 * 2 ^ 8) 8

/-- R55, R58. An entry to ship; one that its home performs, or finds corrupted; and the acknowledgement of the only entry of a log. -/
theorem test_meets_shipping :
    (let s := withCore base fun k => { k with log := { k.log with tail := 1, pubVault := 1, ents := [logged], drain := 256 } }
     (s.core 0).nextShip = some logged ∧ (base.core 0).nextShip = none) ∧
    (let s := withCore base fun k => { k with log := { k.log with tail := 1, ents := [{ logged with asked := true }] } }
     (s.core 0).log.ents = [{ logged with asked := true }] ∧ logged.shipped = false ∧
       ∀ r ∈ (s.core 0).vault.reqs, r.cont ≠ .ship logged.pos) ∧
    (let s := (tabled (.req entryReq)).onVault 0 fun v => { v with late := [⟨.agent 0, [], none, none, []⟩] }
     (s.core 0).vault.late ≠ []) ∧
    (let s := tabled (.req entryReq)
     (s.packet? 5 = some (pkt (.req entryReq)) ∧ entryReq.op = .entry logged) ∧ (s.core 0).contained = false ∧
      (s.objEntry 64).gen = 0 ∧ s.migs = [] ∧ (∀ g ∈ (s.core 0).gaps, g.1 = entryReq.core → logged.pos ≤ g.2) ∧
      entryReq.obj ≠ 1 ∧ (s.core 0).homeWaiters = [] ∧ logged.bad = false ∧ ({ logged with bad := true }).bad = true ∧
      (s.core 0).vault.late = [] ∧ (s.core 0).vault.wq.length < 64 ∧ (logged.kind = 1 → logged.size = 1) ∧
      (∀ i, i < 64 → s.imageOf 0 (entryReq.addr + i) = none ∧ s.bankOf 0 (entryReq.addr + i) = none ∧
        s.memoryBits 0 (entryReq.addr + i) = 0xFF) ∧ s.badEntries = [] ∧ Memory.wf s.mem = true ∧
      ({ s with badEntries := [(1, 0, 1)] }).badEntries = [(entryReq.core, logged.pos, 1)] ∧
      (let t := s.onCore 0 fun k => { k with gaps := [(1, 0)] }
       (1, 0) ∈ (t.core 0).gaps ∧ ({ logged with pos := 1 }).pos > 0)) ∧
    (let e := { logged with shipped := true }
     let s (again : Bool) := withCore (carrying (.logAck 0 0 1 again)) fun k => { k with log := { k.log with tail := 1, ents := [e] } }
     (s true).packet? 5 = some (pkt (.logAck 0 0 1 true)) ∧ (s false).packet? 5 = some (pkt (.logAck 0 0 1 false)) ∧ ((s false).core 0).log.ents = [e] ∧ e.pos = 0 ∧ e.shipped = true) := by
  refine ⟨?_, ?_, ?_, ?_, ?_⟩ <;> decide

/-- What waits for an acquire's last writer, its outcome to p1. -/
def acqWait : Wait := { fin := .pred 1, left := 1 }

/-- R64, R217, R223. A query below and above the compacted position; the last writer's answer; a query of a position. -/
theorem test_meets_acquires :
    (∀ n ∈ [0, 1], let s := withCore (carrying (.acqQuery 1 0 8 0)) fun k => { k with log := { k.log with pubSys := n } }
      s.packet? 5 = some (pkt (.acqQuery 1 0 8 0)) ∧ (s.core 0).acqPos = [] ∧
        (n = 0 → (s.core 0).log.pub 8 ≤ (s.core 0).log.comp) ∧ (n = 1 → (s.core 0).log.comp < (s.core 0).log.pub 8)) ∧
    (let s := withCore { parkedFor 0 .acquire acqWait with packets := [(5, pkt (.acqAnswer 0 0 864 7 true))] } fun k =>
        { k with acqs := [⟨0, 8, [864], false, none⟩] }
     s.packet? 5 = some (pkt (.acqAnswer 0 0 864 7 true)) ∧ Memory.wf s.mem = true ∧ 7 < 2 ^ 64 ∧
      ((s.core 0).vault.late = [] ∧ (s.core 0).vault.wq.length < 64) ∧
      (∀ i, i < 8 → s.imageOf 0 (s.cursorAddr 864 + i) = none ∧ s.bankOf 0 (s.cursorAddr 864 + i) = none ∧
        s.memoryBits 0 (s.cursorAddr 864 + i) = 0xFF) ∧ (s.core 0).acqs = [⟨0, 8, [864], false, none⟩] ∧ (s.slot 0 (0 % 16)).run = .parked ∧
      (s.slot 0 (0 % 16)).wait = some acqWait ∧ acqWait.ticket = 0 / 16 ∧ acqWait.left = 1 ∧ acqWait.fin = .pred 1 ∧
      acqWait.err = none ∧ acqWait.reads = [] ∧ (s.slot 0 (0 % 16)).kept = none) ∧
    (carrying (.logQuery 1 0 0 3)).packet? 5 = some (pkt (.logQuery 1 0 0 3)) := by
  refine ⟨?_, ?_, ?_⟩ <;> decide

/-- Every core of a state that lists core 0 alone. -/
theorem lone_core (k : Core) (c : Nat) (h : k.homeWaiters = []) : (SMap.get [(0, k)] c {}).homeWaiters = [] := by
  by_cases e : 0 = c
  · subst e; exact h
  · exact congrArg Core.homeWaiters (if_neg e : SMap.get [(0, k)] c {} = {})

/-- A request for the word of object 64. -/
def wordReq (op : HomeOp) : Req := ⟨op, 1, 0, 64, 0, 0x40, 0, 0x10040, none, false, 0, none⟩

/-- R68, R69, R73, R290. The queue's head at an idle agent; an add of a remote call; a word operation that is performed and
one that waits; a read; a stale generation. -/
theorem test_meets_home_requests :
    (let s := withCore (tabled (.req (wordReq .readLine))) fun k => { k with agentQ := [5] }
     s.packet? 5 = some (pkt (.req (wordReq .readLine))) ∧ (pkt (.req (wordReq .readLine))).sep = 0 ∧
      (s.core 0).agentQ = 5 :: [] ∧ (s.core 0).agentBusy = false ∧ (s.core 0).contained = false ∧ s.migs = [] ∧
      (s.core 0).agentWait = [] ∧ 0 < (wordReq .readLine).op.reads ∧ (s.objEntry 64).gen = 0) ∧
    (∀ op ∈ [HomeOp.rcAdd 1, .word (.amo .add .i64 1), .word (.fe .ldc 0)],
      let s := tabled (.req (wordReq op))
      s.packet? 5 = some (pkt (.req (wordReq op))) ∧ (s.core 0).contained = false ∧ (s.objEntry 64).gen = 0 ∧
        s.migs = [] ∧ (wordReq op).posted = none ∧ (wordReq op).obj ≠ 1 ∧ s.poisoned (vaultLoc 0 0x10040) 8 = false ∧ s.opRoom 0 (wordReq op) = true ∧ (s.core 0).homeWaiters = []) ∧
    (((tabled (.req (wordReq (.word (.amo .add .i64 1))))).onVault 0 fun v => { v with wq := List.replicate 64 ⟨0, 0, false, none⟩ }).opRoom 0
      (wordReq (.word (.amo .add .i64 1))) = false) ∧
    (∀ c, ((tabled (.req (wordReq (.rcAdd 1)))).core c).homeWaiters = []) ∧
    (let s := tabled (.req (wordReq .readLine))
     (s.wordStep (.vault 0 (wordReq .readLine).addr) (.amo .add .i64 1) none).isSome = true ∧
      s.wordStep (.vault 0 0x10040) (.fe .ldc 0) none = none) ∧
    (let r := { wordReq .readLine with gen := 1 }
     let s := tabled (.req r)
     s.packet? 5 = some (pkt (.req r)) ∧ (s.objEntry 64).gen ≠ r.gen ∧ s.opRoom 0 r = true ∧ r.posted = none ∧ s.migs = [] ∧ (∀ e, r.op ≠ .entry e) ∧
       ∀ n v b g, r.op ≠ .entryPut n v b g) ∧
    ((tabled (.req (wordReq (.word (.amo .add .i64 1))))).markPoison [vaultLoc 0 0x10040 / 16]).poisoned (vaultLoc 0 0x10040) 8 = true := by
  refine ⟨by decide, fun op h => ?_, by decide, fun c => lone_core _ c rfl, by decide, ⟨by decide, by decide, by decide, by decide, by decide,
    (fun e h => nomatch h), (fun n v b g h => nomatch h)⟩, by decide⟩
  simp only [List.mem_cons, List.not_mem_nil, or_false] at h
  rcases h with rfl | rfl | rfl <;> decide

/-- What waits for the eight bytes at offset 40H of a line, into g4; and for a word, into g4. -/
def loadWait : Wait := { fin := .load 4 8 true, left := 1, reads := [⟨0, 0x40, 0, 8, 0⟩] }
def oneWait : Wait := { fin := .word 4, left := 1 }

/-- R63, R69, R71, R72. A retry; a line's reply; a word's reply; the performance of a posted operation; a merge's window. -/
theorem test_meets_replies :
    ((carrying (.retry (wordReq .readLine))).packet? 5 = some (pkt (.retry (wordReq .readLine))) ∧
      (wordReq .readLine).window = false) ∧
    (let r := { wordReq .readLine with core := 0 }
     let b := Body.lineReply r 7 0 0
     let s := { parkedFor 0 .remote loadWait with packets := [(5, pkt b)] }
     s.packet? 5 = some (pkt b) ∧ (s.slot 0 0).run = .parked ∧ (s.slot 0 0).wait = some loadWait ∧
      loadWait.ticket = r.slot / 16 ∧ loadWait.left = 1 ∧ loadWait.fin = .load 4 8 true ∧ loadWait.bytes = [] ∧
      loadWait.err = none ∧ loadWait.reads = [⟨0, 0x40, 0, 8, 0⟩] ∧ 0x40 / 64 = r.off / 64 ∧ 0x40 % 64 + 8 ≤ 64 ∧
      8 ∈ [1, 2, 4, 8] ∧ (4 : Gpr) ≠ 0 ∧ (4 : Gpr).toNat < 32 ∧ (s.slot 0 0).kept = none) ∧
    (let s := { parkedFor 0 .remote oneWait with packets := [(5, pkt (.reply 0 0 9 0 none))] }
     s.packet? 5 = some (pkt (.reply 0 0 9 0 none)) ∧ (s.slot 0 (0 % 16)).run = .parked ∧
      (s.slot 0 (0 % 16)).wait = some oneWait ∧ oneWait.fin = .word 4) ∧
    ((carrying (.performed 0 0 3 true)).packet? 5 = some (pkt (.performed 0 0 3 true)) ∧ (base.slot 0 0).held = []) ∧
    (let m : Merge := ⟨6, wordReq .readLine, [(0, 0, 3)], 0, true⟩
     let s := { carrying (.performed 0 0 3 false) with merges := [m] }
     s.packet? 5 = some (pkt (.performed 0 0 3 false)) ∧ s.merges = [m] ∧ m.gone = true ∧ m.parts = (0, 0, 3) :: []) ∧
    (let m : Merge := ⟨6, wordReq .readLine, [], 0, false⟩
     ({ base with merges := [m] }).merges.find? (fun m => m.id == 6 && !m.gone) = some m) := by
  refine ⟨?_, ?_, ?_, ?_, ?_, ?_⟩ <;> decide

/-- R72. No slot of any core holds an operation. -/
theorem test_meets_none_held : ∀ k j, (base.slot k j).held = [] := by
  intro k j
  by_cases hk : 0 = k
  · subst hk
    by_cases hj : 0 = j
    · subst hj; decide
    · exact congrArg Slot.held (if_neg hj : base.slot 0 j = Slot.fresh j)
  · have e : base.core k = {} := if_neg hk
    exact congrArg (fun x : Core => (x.slot j).held) e

/-- A state of core 0 alone whose slots are those of `base` and whose groups hold no parked entries is still. -/
theorem still_of (s : State) (h : ∀ n, s.slot 0 n = base.slot 0 n) (g : ∀ p ∈ (s.core 0).groups, p.2.parking = []) :
    Spec.StillAt s 0 := by
  refine ⟨fun n r => ?_, g⟩
  rw [h n] at r
  by_cases hn : n = 0
  · subst hn; exact absurd r (by decide)
  · have f : base.slot 0 n = Slot.fresh n := if_neg (Ne.symm hn)
    rw [f] at r; exact absurd r (by simp [Slot.fresh])

/-- Launch 0 of queue 0, of groups of one strand, whose group 0 is resident on core 0. -/
def run0 : Launch := { id := 0, groups := 1, strands := 1, dmask := 1, qmask := 1, code := Cap.make 10 0 0x84 0 0x2000 }
def rec0 : LRec := { launch := run0, core := 1, slot := 3, host := none, stage := .dealt }
def known (s : State) : State := { s with launches := [(0, rec0)] }
/-- A message to strand `n` of that group, and a wake. -/
def mail (kind n : Nat) : Mail :=
  { handle := BitVec.ofNat 64 (kind * 2 ^ 62 + n * 2 ^ 32), tag := 0x40, payload := 7, urgent := false, sec := true, core := 1
    slot := 3, start := 0, posted := none }

/-- R252, R259. A contained core and an impossible kind of handle; a message refused, one that finds the last free entry, one
that finds none; a launch's completion; a wake. -/
theorem test_meets_mail :
    (let s := known (carrying (.mail (mail 0 0)))
     let r := known (carrying (.mail (mail 0 1)))
     let f := withCore s fun k => { k with inbox := List.replicate 63 (ent 2) }
     let x := withCore s fun k => { k with inbox := List.replicate 64 (ent 2) }
     ((withCore s fun k => { k with contained := true }).core 0).contained = true ∧ (s.core 0).contained = false ∧
      (mail 3 0).handle.toNat / 2 ^ 62 % 4 = 3 ∧
      (r.packet? 5 = some (pkt (.mail (mail 0 1))) ∧ r.resolve 0 (mail 0 1) false = .code 4) ∧
      (f.packet? 5 = some (pkt (.mail (mail 0 0))) ∧ f.resolve 0 (mail 0 0) false = .here 0 ∧
        (f.core 0).inbox.length + (f.core 0).resv.length < 64) ∧
      (x.resolve 0 (mail 0 0) false = .here 0 ∧ 64 ≤ (x.core 0).inbox.length + (x.core 0).resv.length)) ∧
    (let s := withCore (carrying (.done 7 0 9 0 0)) fun k => { k with resv := [⟨0, forLaunch, 7⟩] }
     s.packet? 5 = some (pkt (.done 7 0 9 0 0)) ∧ (s.core 0).resv.any (fun r => r.what == forLaunch && r.num == 7) = true) ∧
    (let s := known (carrying (.wake (mail 2 0)))
     s.packet? 5 = some (pkt (.wake (mail 2 0))) ∧ s.resolve 0 (mail 2 0) true = .here 0 ∧
      (∃ g, s.group? 0 0 = some g ∧ 0 ∈ g.slots) ∧ (0, s.slot 0 0) ∈ (s.core 0).slots ∧
      ((s.core 0).slots.filter fun q => q.1 == 0).length = 1 ∧ (s.slot 0 0).bank = 0 ∧
      (s.slot 0 0).strand = (mail 2 0).handle.toNat / 2 ^ 32 % 2 ^ 4 ∧ (s.slot 0 0).run = .running) := by
  refine ⟨?_, ?_, ?_, ?_, ⟨_, rfl, ?_⟩, .head _, ?_⟩ <;> decide

/-- R259. The inboxes of those states are still. -/
theorem test_meets_mail_still :
    (∀ w, Spec.StillAt (known (carrying (.mail w))) 0) ∧
    (∀ w n, Spec.StillAt (withCore (known (carrying (.mail w))) fun k => { k with inbox := List.replicate n (ent 2) }) 0) ∧
    Spec.StillAt (withCore (carrying (.done 7 0 9 0 0)) fun k => { k with resv := [⟨0, forLaunch, 7⟩] }) 0 := by
  have g : ∀ p ∈ (base.core 0).groups, p.2.parking = [] := by decide
  exact ⟨fun w => still_of _ (fun _ => rfl) g, fun w n => still_of _ (fun _ => rfl) g, still_of _ (fun _ => rfl) g⟩

/-- R33, R71, R256. Outcomes for a strand that waits and for a posted message; a message for dispatch and a free handler slot. -/
theorem test_meets_outcomes_and_dispatch :
    (let m := { mail 0 0 with core := 0, slot := 0 }
     let w : Wait := { fin := .outcome 1 4, left := 1 }
     let s := { parkedFor 0 .remote w with packets := [(5, pkt (.outcome m 3 false))] }
     s.packet? 5 = some (pkt (.outcome m 3 false)) ∧ m.posted = none ∧ (s.slot m.core (m.slot % 16)).run = .parked ∧
      (s.slot m.core (m.slot % 16)).wait = some w ∧ w.ticket = m.slot / 16 ∧ w.left = 1 ∧ w.fin = .outcome 1 4 ∧
      w.err = none ∧ w.reads = [] ∧ (s.slot m.core (m.slot % 16)).kept = none ∧ 3 < 2 ^ 64 ∧ (1 : Pr) ≠ 0 ∧ (4 : Gpr) ≠ 0 ∧ (4 : Gpr).toNat < 32) ∧
    (let m := { mail 0 0 with core := 0, slot := 0, posted := some 2 }
     let x := { base.slot 0 0 with posted := [⟨2, 0, 0, 0, none, false, 0⟩] }
     let s := { base with packets := [(5, pkt (.outcome m 1 false))], cores := [(0, { base.core 0 with slots := [(0, x)] })] }
     s.packet? 5 = some (pkt (.outcome m 1 false)) ∧ m.posted = some 2 ∧ 0 < 16 ∧ (s.core m.core).slots = [(0, x)] ∧
      x.posted.any (fun y => y.num == 2) = true ∧ x.held = []) ∧
    (let s := inboxed 1
     s.dispatchable 0 = some (ent 1, 13) ∧ (ent 1).fault = none ∧ (s.group? 0 (ent 1).taker).isSome = true ∧
      ∀ x ∈ (s.core 0).groups, x.2.parking = []) := by
  refine ⟨?_, ⟨?_, ?_, ?_, rfl, ?_⟩, ?_⟩ <;> decide

/-- A submission of the launch, sound or with too many strands. -/
def submission (n : Nat) : Body := .submit { run0 with strands := n } 1 4 none true false

/-- R307. The table's entry for the launch's code, homed on this package's first core, whatever the package's number. -/
def codedWords : State := (base.writeMem (base.tableLoc 0x80000) (kCode * 2 ^ 8) 8).writeMem (base.tableLoc 0x80008) 0x4000 8
def coded : State := codedWords.writeMem (base.tableLoc 0x80010) (Config.pkg.toNat * 2 ^ 28) 8
def sent (n : Nat) : State := carrying (submission n) coded
theorem codedWords_wf : Memory.wf codedWords.mem = true := by decide
theorem placed_homes (s : State) (h : 0 < s.logical.length) : s.homeOk Config.pkg.toNat 0 0 = true :=
  decide_eq_true (lt_of_lt_of_eq h (if_pos rfl).symm)
theorem entry_fields (p : Nat) (h : p < 64) : bitsOf (p * 2 ^ 28) 34 1 = 0 ∧ bitsOf (p * 2 ^ 28) 28 6 = p ∧
    bitsOf (p * 2 ^ 28) 18 10 = 0 ∧ bitsOf (p * 2 ^ 28) 8 10 = 0 ∧ bitsOf (p * 2 ^ 28) 2 6 = 0 ∧ p * 2 ^ 28 % 4 = 0 ∧
    p * 2 ^ 28 / 2 ^ 35 = 0 := by
  simp only [bitsOf]; omega
theorem write_mem (s : State) (a x n : Nat) : (s.writeMem a x n).mem = Memory.writeNat s.mem a x n := rfl
theorem write_keeps (s : State) (a x n : Nat) : (s.writeMem a x n).logical = s.logical := rfl
theorem coded_keeps : coded.logical = base.logical := by
  unfold coded codedWords; rw [write_keeps, write_keeps, write_keeps]
theorem sent_keeps (n : Nat) (s : State) : (carrying (submission n) s).logical = s.logical ∧
    (carrying (submission n) s).mem = s.mem := ⟨rfl, rfl⟩
theorem table_word {s t : State} {m : List Host.Cell} (l : t.logical = s.logical) (e : t.mem = m) (x : Nat) :
    t.tableWord x 8 = Memory.readNat m (s.tableLoc x) 8 := by
  unfold State.tableWord State.readMem State.tableLoc; rw [l, e]
theorem entry_small (p : Nat) (h : p < 64) : p * 2 ^ 28 < 256 ^ 8 := by norm_num; omega
/-- The entry as a walk reads it. -/
def placedEnt : ObjEnt := { kind := kCode, len := 0x4000, hpkg := Config.pkg.toNat, loc := 0, ok := true }
theorem placed_word (x : Nat) : (sent 12).tableWord x 8 = Memory.readNat (Memory.writeNat codedWords.mem
    (base.tableLoc 0x80010) (Config.pkg.toNat * 2 ^ 28) 8) (base.tableLoc x) 8 :=
  table_word ((sent_keeps 12 coded).1.trans coded_keeps) ((sent_keeps 12 coded).2.trans (write_mem _ _ _ _)) x
theorem placed_words : (sent 12).tableWord 0x80000 8 = kCode * 2 ^ 8 ∧ (sent 12).tableWord 0x80008 8 = 0x4000 ∧
    (sent 12).tableWord 0x80010 8 = Config.pkg.toNat * 2 ^ 28 ∧ (sent 12).tableWord 0x80018 8 = 0 := by
  simp only [placed_word]
  refine ⟨(Memory.readNat_writeNat_of_disjoint codedWords_wf _ (.inl (by decide))).trans (show _ = _ by decide),
    (Memory.readNat_writeNat_of_disjoint codedWords_wf _ (.inl (by decide))).trans (show _ = _ by decide), ?_,
    (Memory.readNat_writeNat_of_disjoint codedWords_wf _ (.inr (by decide))).trans (show _ = _ by decide)⟩
  rw [Memory.readNat_writeNat codedWords_wf]
  exact Nat.mod_eq_of_lt (entry_small _ Config.pkg.isLt)
theorem placed_entry_of (s : State) (p : Nat) (h : p < 64) (ok : s.homeOk p 0 0 = true)
    (e : s.tableWord 0x80000 8 = kCode * 2 ^ 8 ∧ s.tableWord 0x80008 8 = 0x4000 ∧ s.tableWord 0x80010 8 = p * 2 ^ 28 ∧
      s.tableWord 0x80018 8 = 0) :
    s.objEntry 0x2000 = { kind := kCode, len := 0x4000, hpkg := p, loc := 0, ok := true } := by
  obtain ⟨f1, f2, f3, f4, f5, f6, f7⟩ := entry_fields p h
  unfold State.objEntry
  simp only [show (0x2000 : Nat) * 64 = 0x80000 from rfl, show (0x80000 : Nat) + 8 = 0x80008 from rfl,
    show (0x80000 : Nat) + 16 = 0x80010 from rfl, show (0x80000 : Nat) + 24 = 0x80018 from rfl, e.1, e.2.1, e.2.2.1, e.2.2.2,
    f1, f2, f3, f4, f5, f6]
  unfold State.entryOk
  rw [f7]
  dsimp only
  rw [ok]
  rfl
theorem placed_entry : (sent 12).objEntry 0x2000 = placedEnt :=
  placed_entry_of _ _ Config.pkg.isLt (placed_homes _ (by decide)) placed_words
theorem placed_code : (sent 12).codeOk run0.code 0 = true := by
  unfold State.codeOk State.fresh
  rw [show run0.code.obj = 0x2000 from rfl, placed_entry]
  decide
theorem placed_submission : (sent 12).submitCode { run0 with strands := 12 } true false = none := by
  unfold State.submitCode
  dsimp only
  rw [show (sent 12).codeOk run0.code run0.entry = true from placed_code]
  decide

/-- R30, R265, R266. A submission refused and one that waits; one that its queue has room for; a launch to be counted; the
third and the fourth of a die's packets; groups that become Pending; a group that may start. -/
theorem test_meets_launches_dealt :
    ((sent 13).packet? 5 = some (pkt (submission 13)) ∧
      (sent 13).submitCode { run0 with strands := 13 } true false = some 1 ∧
      (sent 12).submitCode { run0 with strands := 12 } true false = none) ∧
    (let s := { carrying (submission 1) with mgmt := { base.mgmt with stg := 2, starting := [] }
                                             submissions := [(0, pkt (submission 1))] }
     (pkt (submission 1)).body = .submit run0 1 4 none true false ∧ s.queueRoom 0 = true ∧
      s.submissions.find? (fun x => x.1 == 0) = some (0, pkt (submission 1))) ∧
    (let r := { rec0 with stage := .queued }
     let s := { base with launches := [(0, r)] }
     s.headOf 0 = some r ∧ r.stage = .queued ∧ s.mayCount r = true ∧ r.launch.indirect = false ∧ r.launch.groups ≠ 0 ∧
      s.launch? r.launch.id = some r ∧ 0 < 24 ∧ r.launch.dmask.testBit 0 = true) ∧
    (∀ n ∈ [2, 3], let s := (carrying (.launchPkt run0 0)).onDie 0 fun d => { d with packets := [(0, n)] }
      s.packet? 5 = some (pkt (.launchPkt run0 0)) ∧
        (((s.die 0).packets.find? fun x => x.1 == run0.id).map (·.2)).getD 0 = n) ∧
    ((known base).launch? 0 = some rec0 ∧ (known base).hasDealt 0 0 = false ∧ (known base).barriers = [] ∧
      ∃ x ∈ (known base).dealOn run0 0, ((known base).core x.1).contained = false) ∧
    (let d : Deal := ⟨run0, 4, 1, 1, 0⟩
     (withCore base fun k => { k with deals := [d] }).startable 0 = some (d, 1, [1], 0)) := by
  refine ⟨⟨?_, ?_, placed_submission⟩, ?_, ?_, ?_, ?_, ?_⟩ <;> decide

/-- R43, R267, R358, R389. The last die's report; a host launch whose link has room; an arrival at a barrier that another
strand still misses, and the last one; a lease asked for and granted. -/
theorem test_meets_launches_end :
    (let s := known (carrying (.dieReport 0 0 5 0))
     s.packet? 5 = some (pkt (.dieReport 0 0 5 0)) ∧ s.launch? 0 = some rec0 ∧ rec0.stage = .dealt ∧ rec0.host = none ∧
      (∀ x, x < 24 → rec0.launch.dmask.testBit x = true → x = 0 ∨ x ∈ rec0.reported) ∧ s.barriers = []) ∧
    (let r := { rec0 with host := some 1, ringWait := true }
     let s := { base with launches := [(0, r)] }
     s.launches.find? (fun x => x.2.ringWait && x.2.host == some 1 && x.2.stage != .ended) = some (0, r) ∧
      s.launch? 0 = some r ∧ (s.link 1).ringRoom = true ∧ s.barriers = []) ∧
    (let w : Wait := { fin := .none, left := 1 }
     let b (l : Nat) : Barrier := { launch := l, level := 5, unit := barrierUnit 5 0, sum := false, arrived := [(0, 0)], total := 0 }
     let s := { parkedFor 0 .barrier w with packets := [(5, pkt (.barrier 0 5 0 0 false 0))] }
     s.packet? 5 = some (pkt (.barrier 0 5 0 0 false 0)) ∧ 0 < 864 ∧ 5 < 7 ∧ s.barriers = [] ∧ s.barrierFull (b 0) = true ∧
      base.barrierFull (b 0) = false) ∧
    (let s := known (carrying (.leaseAsk 0 0))
     s.packet? 5 = some (pkt (.leaseAsk 0 0)) ∧ s.launch? 0 = some rec0) ∧
    (let e : Lease := { launch := 0 }
     let s := withCore (carrying (.lease 0 0 9)) fun k => { k with leases := [e] }
     s.packet? 5 = some (pkt (.lease 0 0 9)) ∧ (s.core 0).leases = [e] ∧ e.launch = 0) := by
  refine ⟨?_, ?_, ?_, ?_, ?_⟩ <;> decide

/-- A fill of 16 bytes of a buffer, and a fill with a multiply that follows it, of a strand alone and of a pair. -/
def fillCmd : CopyCmd := { num := 1, slot := 0, fill := true, block := 16 * 2 ^ 128, src := none, dst := none }
def followCmd : CopyCmd := { fillCmd with block := 18 * 2 ^ 400 + 16 * 2 ^ 128, sent := true }
def copying (m : CopyCmd) (s : State := base) : State :=
  withCore s fun k => { k with copies := [m], resv := [⟨0, forCommand, m.num⟩] }

/-- R75, R245, R272–R277, R280. A command that may start; its segment; a segment that arrives; an acknowledgement; a command
that has sent everything, whose multiply joins the queue or finds it full. -/
theorem test_meets_commands :
    (let s := copying fillCmd
     (s.core 0).copies = [fillCmd] ∧ (s.core 0).copyToStart = some fillCmd ∧ fillCmd.fill = true) ∧
    (let m := { fillCmd with started := true }
     let s := copying m
     let b := m.block
     (s.core 0).copyToSend s.cycle = some m ∧ m.fill = true ∧ m.dst = none ∧ m.src = none ∧ cSyncEn b = false ∧ cDstK b < 8 ∧
      cDstOff b + cDstLen b ≤ 18432 ∧ (s.core 0).contained = false ∧ m.segs = [] ∧ Memory.wf s.mem = true ∧ cKind b = 0 ∧
      m.at_ ≤ cDstLen b ∧ m.failed = false ∧ (s.core 0).vault.late = []) ∧
    (let b : Body := .segment 1 3 0 1 [(8, 5)] [] 0 0
     let s := carrying b
     s.packet? 5 = some (pkt b) ∧ (s.core 0).contained = false ∧ (s.core 0).waiters = [] ∧ (s.core 0).vault.late = [] ∧
      s.copy? 1 3 = none ∧ (([(8, 5)] : List Host.Cell).map (·.1)).Nodup ∧ Memory.wf s.mem = true) ∧
    (let s := copying fillCmd (carrying (.segAck 0 1 0 8 0))
     s.packet? 5 = some (pkt (.segAck 0 1 0 8 0)) ∧ (s.core 0).copies = [fillCmd] ∧ fillCmd.num < tstCmd) ∧
    (∀ m ∈ [followCmd, { followCmd with paired := true }], let s := copying m
     (s.core 0).copies = [m] ∧ m.sent = true ∧ m.flying = 0 ∧ m.reading = 0 ∧ m.segs = [] ∧
      followOn m.block = some (.mma false false 0 1 2) ∧ m.failed = false ∧
      (s.core 0).accepted.length + (if m.paired then 2 else 1) ≤ 8 ∧
      8 < ((withCore s fun k => { k with matQ := List.replicate 8 (matOp 0 (.mzero 0)) }).core 0).accepted.length +
        (if m.paired then 2 else 1) ∧ m.toShared = false ∧
      (s.core 0).resv.any (fun r => r.what == forCommand && r.num == m.num) = true) ∧
    (let m := { fillCmd with started := true, sent := true, dst := some (xlOf kHost 0x4000 0) }
     let s := copying m
     (s.core 0).copies = [m] ∧ m.sent = true ∧ m.flying = 0 ∧ m.reading = 0 ∧ m.segs = [] ∧ m.dst = some (xlOf kHost 0x4000 0)) ∧
    (let b : Body := .fetch ⟨1, 3, 0, 5, 0x4000, 0, false, [⟨0, 0, 0, 1, 0⟩]⟩
     let s := carrying b
     s.packet? 5 = some (pkt b) ∧ (s.link 0).down = false ∧ ((s.onLink 0 fun l => { l with down := true }).link 0).down = true) := by
  refine ⟨?_, ?_, ?_, ?_, ?_, ?_, ?_⟩ <;> decide

/-- R287–R289. A collective of core 0 alone: its descriptor at its die, sound and of a contained participant; the instance with
its source, one whose results are applied, and its end. -/
def alone : Coll := ⟨0, 0, 1, 16 * 2 ^ 128 + 2 * 2 ^ 192, 5, xlOf kPrivate 0x4000 0, xlOf kPrivate 0x4000 64, none, 0, 0, [0], 0, none⟩
def gathered (x : Coll) (is : List Inst) : State :=
  (withCore base fun k => { k with resv := [⟨0, forCommand, 1⟩] }).onDie 0 fun d =>
    { d with descs := [x], gather := [x], insts := is }
/-- The bytes that the instance has read. -/
def readBytes : List Host.Cell := (List.range 16).map fun j => (j, BitVec.ofNat 8 j)
theorem test_meets_gathered :
    (carrying (.descriptor alone)).packet? 5 = some (pkt (.descriptor alone)) ∧
    (let s := gathered alone []
     (s.die 0).gather = [alone] ∧ alone.set = [alone.core] ∧ s.partContained alone.core = false ∧ s.collReady 0 alone = true ∧
      (s.die 0).insts = [] ∧ (withCore s fun k => { k with contained := true }).partContained alone.core = true) := by
  refine ⟨rfl, ?_, ?_, ?_, ?_, ?_, ?_⟩ <;> decide
theorem test_meets_instance :
    let i : Inst := { id := 4, ms := [alone], reading := 0, got := [(0, readBytes, [])] }
    let j : Inst := { i with sent := true, got := [], wrote := [16] }
    let b : Body := .collDone alone.core alone.num 3 16
    ((gathered alone [i]).die 0).insts = [i] ∧ i.sent = false ∧ i.reading = 0 ∧ i.status = 0 ∧ cKind alone.block = 2 ∧
    0 < cLen alone.block ∧ alone.dst.off % 64 + cLen alone.block ≤ 64 ∧ alone.dst.ent.kind = kPrivate ∧
    (gathered alone [i]).home alone.dst alone.dst.off = (0, 0x10040) ∧
    (((gathered alone [j]).die 0).insts = [j] ∧ j.sent = true ∧ j.flying = 0) ∧
    ((carrying b (gathered alone [])).packet? 5 = some (pkt b) ∧ (((gathered alone []).die (posDie alone.core)).descs = [alone])) ∧
    (let x := { alone with fin := some (3, 16) }
     ((gathered x []).die (posDie x.core)).descs = [x] ∧ x.fin = some (3, 16) ∧
      ((gathered x []).core x.core).resv.any (fun r => r.what == forCommand && r.num == x.num) = true) := by
  refine ⟨?_, ?_, ?_, ?_, ?_, ?_, ?_, ?_, ?_, ?_, ?_, ?_⟩ <;> decide
theorem test_meets_instance_still :
    (∀ x is, Spec.StillAt (gathered x is) 0) ∧ ∀ m, Spec.StillAt (copying m) 0 := by
  have g : ∀ p ∈ (base.core 0).groups, p.2.parking = [] := by decide
  exact ⟨fun _ _ => still_of _ (fun _ => rfl) g, fun _ => still_of _ (fun _ => rfl) g⟩

/-- A packet of core 0 for core 1 at the first track east, of a class. -/
def tx (cls : Nat) : TxPkt := ⟨6, 2, 0, cls, 2, none, false⟩
def tracked (k : Track) : State := { base with tracks := [(0, k)] }
/-- A flit that is due, and the packet it ends. -/
def flit1 : Flit := ⟨6, true, true, control, 0, 0⟩
def east : Packet := { id := 6, src := 0, dst := 1, cls := control, flits := 1, body := .lease 0 1 0 }

def onTrack (n : Nat) (k : Track) : State := { base with tracks := [(n, k)] }

/-- R24, R271, R297, R300. A bulk packet after 31 flits and a control packet; the last place of the retry buffer and none; a
port's lane that is closed; a packet that cuts in; a flit to send again. -/
theorem test_meets_transmission :
    (let k : Track := { queue := [tx bulk], nonBulk := 31 }
     k.candidate bulk = some (tx bulk) ∧ 31 ≤ k.nonBulk) ∧
    (let k : Track := { queue := [tx control] }
     k.candidate control = some (tx control) ∧ k.candidate bulk = none ∧ k.lastCtl = false ∧ k.next = some (tx control)) ∧
    (let s (n : Nat) := tracked { queue := [tx control], retry := List.replicate n flit1 }
     ((s 63).track 0).dead = false ∧ laneOpen 0 (s 63).cycle = true ∧ ((s 63).track 0).resend = 0 ∧
      ((s 63).track 0).retry.length < 64 ∧ ((s 63).track 0).next = some (tx control) ∧ (tx control).via = none ∧
      64 ≤ ((s 64).track 0).retry.length) ∧
    (laneOpen 144 0 = true ∧ laneOpen 144 1 = false) ∧
    (let k : Track := { queue := [{ tx bulk with sent := 1 }, tx control] }
     k.next = some (tx control) ∧ (k.queue.any fun y => y.sent != 0 && decide (y.cls < control)) = true) ∧
    (let k : Track := { retry := [flit1], resend := 1 }
     k.dead = false ∧ k.resend = 0 + 1 ∧ k.retry[k.retry.length - (0 + 1)]? = some flit1) := by
  refine ⟨?_, ?_, ?_, ?_, ?_, ?_⟩ <;> decide

/-- R299–R302. A flit that fails its check, one out of turn, the last of a packet that is here, one that leaves by a port and one
that goes on; the sixteenth retry and the one after it; the last track of a link, and whole links, with nothing on them; an
urgent packet to send again. -/
theorem test_meets_reception :
    (let s (n : Nat) := { onTrack n { air := [flit1] } with packets := [(6, east)] }
     ((s 0).track 0).air = flit1 :: [] ∧ flit1.clock ≤ (s 0).cycle ∧
      ({ s 0 with badFlits := [(0, 0)] }).badFlits.contains (0, (s 0).cycle) = true ∧ (s 0).badFlits.contains (0, (s 0).cycle) = false ∧
      ({ flit1 with lseq := 1 } : Flit).lseq ≠ ((s 0).track 0).expect ∧ flit1.lseq = ((s 0).track 0).expect ∧
      (s 0).packet? flit1.pkt = some east ∧ east.targets = [] ∧ flit1.first = true ∧ flit1.last = true ∧
      (trackDir 120 = 5 ∧ ((s 120).track 120).air = flit1 :: [] ∧ east.body.due = some .energyLeaseGrant) ∧
      (trackDir 144 = 6 ∧ ((s 144).track 144).air = flit1 :: []) ∧
      (trackDir 0 < 5 ∧ ((s 0).liveTrack (hopTo (trackPos 0) (trackDir 0)) east.src east.dst).any (fun w => w != 0) = true)) ∧
    (∀ r, east.body = .req r → r.window = false) ∧
    (((tracked { failures := 15 }).track 0).failures < 16 ∧ 16 ≤ ((tracked { failures := 16 }).track 0).failures ∧
      Spec.Idle ((tracked { failures := 16 }).track 0) ∧ ((tracked { dead := true }).track 0).dead = true) ∧
    (let s := { base with tracks := (List.range 24).map fun l => (l, { dead := l != 0 }) }
     (s.track 0).dead = false ∧ Spec.Idle (s.track 0) ∧
      ∀ l, l < lanesOf (trackDir 0) → trackId (trackPos 0) (trackDir 0) l ≠ 0 →
        (s.track (trackId (trackPos 0) (trackDir 0) l)).dead = true) ∧
    (∀ d, d < 7 → ∀ l, l < lanesOf d →
      Spec.Idle (base.track (trackId 0 d l)) ∧ Spec.Idle (base.track (trackId (hopTo 0 d) (backDir d) l))) ∧
    (let s := { carrying (.nak 6) with packets := [(5, pkt (.nak 6)), (6, east)] }
     s.packet? 5 = some (pkt (.nak 6)) ∧ (s.dropPacket 5).packets = [(6, east)] ∧ east.src < 864 ∧ s.linkDead east.src 4 = false) := by
  refine ⟨?_, (fun r h => nomatch h), ?_, ?_, ?_, ?_⟩ <;> decide

/-- A state whose management registers are given. -/
def managed (f : Mgmt → Mgmt) : State := base.onMgmt f

/-- R393, R395–R397, R401, R403. The stages; a start episode; a takeover; a new step and the same, in a takeover, in one that
has failed, off a rotation's boundary and too soon, asked for with a measurement and without; the reservation lowered and raised; a core whose thermal states may change, and a trip in and out of a takeover. Which of the two images of R394 the package
holds is open (log entry 3), so what rests on it has no witness by evaluation. -/
theorem test_meets_management :
    ((managed fun m => { m with stg := 0 }).mgmt.stg = 0 ∧ (managed fun m => { m with stg := 1 }).mgmt.stg = 1) ∧
    (let s := managed fun m => { m with starting := [0] }
     s.mgmt.starting.contains 0 = true ∧ s.supFree 0 = true) ∧
    ((managed fun m => { m with failover := true }).mgmt.failover = true ∧
      (managed fun m => { m with failover := true }).mgmt.stg ≠ 3 ∧
      (managed fun m => { m with failover := true, stg := 3 }).mgmt.failover = true ∧
      (managed fun m => { m with failover := true, stg := 3 }).mgmt.stg = 3 ∧ base.mgmt.failover = false ∧
      ({ base with cycle := 15 }).cycle % 16 ≠ 0 ∧ (base.mgmt.powerStep = 0 ∧ 0 < 4) ∧
      ({ base with cycle := 15 }).past base.mgmt.lastStep msClocks = true) ∧
    (max (min 3 0) base.mgmt.clkcap = base.mgmt.step ∧ max (min 3 4) base.mgmt.clkcap ≠ base.mgmt.step ∧
      base.past base.mgmt.lastStep msClocks = true ∧
      base.past (managed fun m => { m with lastStep := some 0 }).mgmt.lastStep msClocks = false ∧ base.cycle % 16 = 0 ∧ 0 ∈ base.logical) ∧
    (base.past base.mgmt.lastPower (msClocks / 10) = true ∧ max 1 (base.mgmt.powerCap - 1) ≠ base.mgmt.powerCap ∧
      (let m := (managed fun m => { m with powerCap := 8 }).mgmt
       min 16 (m.powerCap + 1) ≠ m.powerCap)) ∧
    (let v := (base.core 0).vault
     (managed fun m => { m with failover := true }).mgmt.failover = true ∧ v.dramHot = false ∧ base.since v.dramSince oneMs = true ∧ v.throt = false ∧ base.since v.logicSince oneMs = true ∧
      125 ≤ 125 ∧ base.mgmt.failover = false) := by
  refine ⟨?_, ?_, ?_, ?_, ?_, ?_⟩ <;> decide

/-- A state whose first host link is given. -/
def linked (f : Link → Link) : State := base.onLink 0 f

/-- A host's request for 8 bytes of the first entry of the table, at an offset in it. -/
def hostPut (n v : Nat) : Req := ⟨.entryPut 8 v true none, 864, 0, 1, 0, 0x400000 + n, 0, 0x6B700000 + n, none, false, 0, none⟩
/-- Whether the host's write is discarded (R388). -/
def shutTo (s : State) (a n v : Nat) : Bool :=
  let old := s.tableWord (a / 64 * 64) 8
  let word := if a % 64 < 8 then putBits old (a % 64) v (min n (8 - a % 64)) % 2 ^ 64 else old
  old.testBit 11 || word.testBit 11 || word / 256 % 8 == kContext

/-- R385–R391. The last queue, register and byte; the last quad and position; a write of an entry before and after full
function, the home's line of one that stores its bytes and of ones that are discarded; doorbells that are busy, early and due; frames for the last die, for none, and while one is out; a
command on a link that fails. -/
theorem test_meets_host :
    (15 < 16 ∧ 6 < 7 ∧ 2 ^ 64 - 1 < 2 ^ 64 ∧ 215 < 216 ∧ 863 < 864 ∧ base.mgmt.failover = false) ∧
    (0x3FFFF8 < 0x400000 ∧ (managed fun m => { m with stg := 1 }).mgmt.stg ≠ 2 ∧ (managed fun m => { m with stg := 2 }).mgmt.stg = 2 ∧
      (managed fun m => { m with failover := true }).mgmt.failover = true) ∧
    (∀ n ∈ [0, 56], let r := hostPut n 7
     let s := carrying (.req r)
     let a := 0x400000 + n
     s.packet? 5 = some (pkt (.req r)) ∧ s.migFrom 0 r.addr = none ∧ s.lineRoom 0 (r.addr / 64) = true ∧
      (s.objEntry r.obj).gen = r.gen ∧ r.off = a ∧ a < 0x800000 ∧ a % 64 + 8 ≤ 64 ∧ vaultLoc 0 r.addr = s.tableLoc a ∧
      (∀ i, i < 8 → Spec.PlainByte s 0 (r.addr + i)) ∧ shutTo s a 8 7 = false ∧ shutTo s a 8 (2 ^ 11) = (n == 0) ∧
      shutTo s a 8 (256 * kContext) = (n == 0) ∧ (n = 0 → 7 / 256 % 8 = 0) ∧ Memory.wf s.mem = true ∧
      shutTo (s.writeMem (s.tableLoc 0x400000) (2 ^ 11) 8) a 8 7 = true) ∧
    (((linked fun l => { l with busy := [15] }).link 0).busy.contains 15 = true ∧ (base.link 0).busy.contains 15 = false ∧
      (managed fun m => { m with stg := 0 }).mgmt.stg ≠ 2 ∧ (managed fun m => { m with stg := 2 }).mgmt.stg = 2) ∧
    (let die (n : Nat) := ((linked fun l => { l with frame := BitVec.ofNat 2688 (n * 2 ^ 36) }).link 0).frame.toNat % 2 ^ 64 / 2 ^ 36 % 32
     24 ≤ die 24 ∧ die 23 < 24 ∧ (base.link 0).frameBusy = false ∧
      ((linked fun l => { l with frameBusy := true }).link 0).frameBusy = true) ∧
    (let x : Xl := ⟨0x40, 0, { entOf kHost with hlink := 1 }, 0, []⟩
     let m := { fillCmd with fill := false, started := true, src := some x }
     ((copying m).core 0).copies = [m] ∧ m.started = true ∧ m.src = some x ∧ x.ent.kind = kHost ∧ x.ent.hlink = 1) := by
  refine ⟨?_, ?_, ?_, ?_, ?_, ?_⟩ <;> decide

/-- Core 0 alone is live and its only strand waits for its inbox; nothing else goes on. -/
def quiet (f : Mgmt → Mgmt) : State :=
  { (parkedFor 0 .inbox { fin := .park, left := 1 }).onMgmt (fun m => f { m with stg := 2 }) with logical := [0] }

/-- R39, R40, R46, R78, R323, R374, R375, R392. The fifth request and the fourth; an episode that may start; one past its limit;
a deadlock, one that is masked, and a quiet period; a core that is no rectangle's, and a rectangle of one core. -/
theorem test_meets_supervision :
    (∀ n ∈ [3, 4], let s := (carrying (.urg 1 0 2 9 0)).onTrap 0 fun k => { k with urgent := List.replicate n (0, 0, 0) }
      s.packet? 5 = some (pkt (.urg 1 0 2 9 0)) ∧ (pkt (.urg 1 0 2 9 0)).dst = 0 ∧ (s.core 0).trap.urgent.length = n) ∧
    (let s := base.onTrap 0 fun k => { k with urgent := [(2, 7, 9)] }
     (s.core 0).trap.urgent = (2, 7, 9) :: [] ∧ (s.core 0).contained = false ∧ (s.core 0).trap.level = 0 ∧
      (s.slot 0 15).run = .empty) ∧
    (let s := base.onTrap 0 fun k => { k with urging := true }
     (s.core 0).trap.urging = true ∧ (s.core 0).trap.urgStart = none) ∧
    (let s := { base.onTrap 0 (fun k => { k with urging := true, level := 1, urgStart := some 0 }) with cycle := 0x10001 }
     (s.core 0).overLimit s.cycle = true ∧ (s.slot 0 15).lead = false ∧ (s.core 0).contained = false ∧ (s.core 0).trap.level < 2 ∧ (s.slot 0 15).hold = none ∧
      ∀ n, n < 15 → (s.slot 0 n).run = .paused → (s.slot 0 n).back = .running) ∧
    (let s := quiet id
     s.logical.Nodup ∧ s.mgmt.armed = true ∧ s.mgmt.hwake = false ∧ s.allQuiet = true ∧
      (∃ q ∈ s.logical, (s.core q).contained = false ∧ (s.core q).trap.pend.any (fun p => p.2 == 15) = false) ∧
      (let t := s.onTrap 0 fun k => { k with pend := [(0, 15)] }
       t.allQuiet = s.allQuiet ∧ (t.core 0).trap.pend.any (fun p => p.2 == 15) = true)) ∧
    ((quiet fun m => { m with armed := false }).mgmt.armed = false ∧ base.allQuiet = false) ∧
    (let s := quiet fun m => { m with hwake := true }
     s.mgmt.hwake = true ∧ s.mgmt.quietNow = false ∧ s.allQuiet = true) ∧
    (let s := { withCore base (fun k => { k with groups := [] }) with logical := [0] }
     s.rectangle 36 = [] ∧ s.rectangle 0 = [0] ∧ (s.core 0).groups = [] ∧ (s.core 0).deals = [] ∧
      (∀ d ∈ s.dies, d.2.streams = []) ∧ s.barriers = []) := by
  refine ⟨?_, ?_, ?_, ?_, ?_, ?_, ?_, ?_⟩ <;> decide

/-- R40. The limit finds the core's inbox still. -/
theorem test_meets_limit_still :
    Spec.StillAt { base.onTrap 0 (fun k => { k with urging := true, level := 1, urgStart := some 0 }) with cycle := 0x10001 } 0 :=
  still_of _ (fun _ => rfl) (by decide)

/-- R98–R116. The widest chain: a guard, a selecting prefix, a wide immediate. -/
theorem test_meets_encode :
    (∃ gd i, Instr.wf i = true ∧ Instr.fits gd i = true ∧ i.fields ≠ none ∧
      ∀ sc a, i ∉ [Instr.cpyMulticast a, .cpyConvert a, .collReduceScatter sc a, .collAllGather sc a, .collXorParity sc a]) :=
  ⟨⟨true, 1⟩, .add .w64 35 4 33, by decide, by decide, by decide, fun sc a h => by simp at h⟩

/-- A halfword or two at the program counter of slot 0, whose turn it is. -/
def placedAt (nbits w : Nat) : State := State.reset.withFetchWord nbits w

/-- R17, R38, R115. An event; the end of a clock; a turn of an empty slot; of a slot that runs an instruction, one whose
register line is missing, a fetch that fails, and a chain that is none. -/
theorem test_meets_step :
    (State.reset.agenda = ⟨.stagedStart, []⟩ :: [] ∧ ({ State.reset with agenda := [] }).turns = [] ∧
      ({ State.reset with agenda := [] }).tail = [] ∧
      ({ State.reset with tail := [⟨.copySegment, [0]⟩] }).tail = ⟨.copySegment, [0]⟩ :: []) ∧
    (let s := placedAt 16 0x1000
     let u := { s with turns := [] }
     let t := u.slot 0 0
     s.agenda = [] ∧ s.turns = 0 :: [] ∧ s.cycle % 16 = 0 ∧
      (({ u with cycle := 1 }).slot 0 (({ u with cycle := 1 }).cycle % 16)).run ≠ .running ∧
      (t.run = .running ∧ (u.core 0).contained = false ∧ t.idle ≤ s.cycle ∧ t.vready ≤ s.cycle ∧ t.later = [] ∧ t.lead = false ∧
        t.trail = false) ∧
      (u.group? 0 t.bank).all (fun g => g.settled) = true ∧
      (∃ x, u.checkFetch 0 0 t.pc = .ok x ∧ u.codeLost x t.pc = none ∧ u.codeHalf x t.pc = 0x1000) ∧ u.fetch 0 0 = .dec (.ok ⟨false, 0⟩ (.addi .w64 0 0 ⟨0, 0⟩) 1 0x1000 0) ∧
      u.missingLines 0 0 ⟨false, 0⟩ (.addi .w64 0 0 ⟨0, 0⟩) = []) ∧
    (let u := { (placedAt 32 0x0341F220).onCore 0 (fun k => { k with rc := [] }) with turns := [] }
     u.fetch 0 0 = .dec (.ok ⟨false, 0⟩ (.add .w64 35 4 33) 2 0x0341 1) ∧
      u.missingLines 0 0 ⟨false, 0⟩ (.add .w64 35 4 33) ≠ []) ∧
    (let u := { (placedAt 16 0x1000).onSlot 0 0 (fun t => { t with code := ⟨0, false⟩ }) with turns := [] }
     (match u.fetch 0 0 with
      | .fault _ _ _ => true
      | .dec _ => false
      | .walk _ => false) = true) ∧
    (let u := { (placedAt 16 0x1000).onSlot 0 0 (fun t => { t with walked := [] }) with turns := [] }
     let v := u.onCore 0 fun k => { k with tlb := [] }
     (match v.fetch 0 0 with
      | .fault _ _ _ => false
      | .dec _ => false
      | .walk _ => true) = true) ∧
    (let u := { placedAt 16 0xFC00 with turns := [] }
     u.fetch 0 0 = .dec (.ill .illPrefix 0xFC00 0)) := by
  refine ⟨?_, ⟨?_, ?_, ?_, ?_, ?_, ?_, ⟨_, rfl, ?_, ?_⟩, ?_, ?_⟩, ?_, ?_, ?_, ?_⟩ <;> decide

/-- R186. A step from a state whose memory is in its canonical form. -/
theorem test_meets_memory_invariant :
    Memory.wf (placedAt 16 0x1000).mem = true ∧ ∃ t, step (placedAt 16 0x1000) = .next t := ⟨by decide, _, rfl⟩

/-! ## Results: what one instruction or event does, by the worked examples of the spec. -/

/-- A general register of the issuing slot after an instruction, if it answers a next state. -/
def gotG (i : Instr) (s : State) (r : Gpr) : Option Word :=
  match exec i s with
  | .next t => some (t.gprAt s.ic s.is r)
  | .fault _ => none
  | .refused _ => none
/-- A predicate register after an instruction. -/
def gotP (i : Instr) (s : State) (r : Pr) : Option Pred :=
  match exec i s with
  | .next t => some (t.predAt s.ic s.is r)
  | .fault _ => none
  | .refused _ => none
/-- Two operands in g4 and g5. -/
def two (x y : Word) : State := withG (withG base 4 x) 5 y

/-- R142, the example of `ADD`: a 32-bit sum is sign-extended. -/
theorem test_add_wraps : gotG (.add .w32 3 4 5) (two 0x7FFFFFFF 1) 3 = some 0xFFFFFFFF80000000 := by decide
/-- R148, the examples of shifts: a count of 64 leaves the operand; a count of 0 sign-extends the 32-bit operand. -/
theorem test_shifts : gotG (.shl .w64 3 4 5) (two 0x123456789ABCDEF0 64) 3 = some 0x123456789ABCDEF0 ∧
    gotG (.shr .w32 3 4 5) (two 0x80000000 0) 3 = some 0xFFFFFFFF80000000 := by decide
/-- R80, the examples of division by zero and of the overflow. -/
theorem test_divides : gotG (.div .w32 3 4 0) (two 7 0) 3 = some 0xFFFFFFFFFFFFFFFF ∧
    gotG (.divn .w32 3 4 0) (two 7 0) 3 = some 0xFFFFFFFF ∧ gotG (.rem .w32 3 4 0) (two 7 0) 3 = some 7 ∧
    gotG (.div .w8 3 4 5) (two 0x80 0xFF) 3 = some 0xFFFFFFFFFFFFFF80 := by decide
/-- R150, the example of an immediate compare: -1 stands for 255 among 8-bit naturals. -/
theorem test_compares_natural : gotP (.cmpltni .w8 2 4 ⟨0, 0xF⟩) (two 0x1FE 0) 2 = some (BitVec.allOnes 256) := by decide
/-- R178, the example of `PFIRST`: bits 8 and up take part, and bit 9 is the first set in p5. -/
theorem test_first_active :
    let s := withP (withP (withP base 3 (BitVec.allOnes 256 <<< 8)) 4 0xFF) 5 0x204
    gotP (.pfirst 4 5) { s with issue := { s.issue with gd := ⟨false, 3⟩ } } 4 = some 0x2FF := by decide
/-- R176, the example of a tree of sums: 2^24, 1, 1 and 1 give 16,777,218. -/
theorem test_tree_sum : gotG (.vfredadd .f32 .rne 4 7) (withV base 7 0x3F8000003F8000003F8000004B800000) 4 = some 0x4B800001 := by
  decide
/-- R90, the example of the draw. -/
theorem test_draw : nextSeed 1 = 0x40822041 := by decide
/-- R160, the example of a branch: −24 halfwords from the start 40H of its chain. -/
theorem test_branches :
    (match exec (.br 0xFE8) { base with issue := { base.issue with start := 0x40, next := 0x44 } } with
      | .next t => (t.slot 0 0).pc
      | .fault _ => 0
      | .refused _ => 0) = 0x10 := by decide
/-- R78, the example of a contained writer: the log ends at 3800H. -/
theorem test_contained_log :
    (({ tail := 0x4000, pubVault := 0x3000, comp := 0x3800 } : Log).contain.tail) = 0x3800 := by decide
/-- R323, the example of a rectangle: position 21 shares its own with 14, 15 and 20. -/
theorem test_rectangle : ({ base with logical := [13, 14, 15, 19, 20, 21, 22, 57] }).rectangle 21 = [14, 15, 20, 21] := by decide
/-- R50. Eight bytes from the last of an object but seven pass, and from one byte on raise a trap. -/
theorem test_bounds : (objs.chk 3 (objs.index (.imm ⟨1, 0x3FF8⟩)) 8 rR 1 0 false (fun _ _ => true)) = .ok (xlOf kPrivate 0x4000 0x3FF8) ∧
    (match objs.chk 3 (objs.index (.imm ⟨1, 0x3FF9⟩)) 8 rR 1 0 false (fun _ _ => true) with
      | .bad cause _ _ => cause == causeBounds
      | .ok _ => false
      | .walk _ => false) = true := by decide

/-- FIPS 180-4: the first and the last round constant and the first start word of SHA-512, which R394's Ed25519 rests on. -/
theorem test_sha_constants : rootWord 3 2 = 0x428A2F98D728AE22 ∧ rootWord 3 409 = 0x6C44198C4A475817 ∧
    rootWord 2 2 = 0x6A09E667F3BCC908 := by decide
/-- FIPS 202: the first, the third and the last round constant of Keccak, which ML-DSA-65 rests on. -/
theorem test_keccak_constants : keccakRc.length = 24 ∧ keccakRc[0]? = some 1 ∧ keccakRc[2]? = some 0x800000000000808A ∧
    keccakRc[23]? = some 0x8000000080008008 := by decide
end Sys2Proof.Tests
end

section
/-!
SUPPORT. Reading what a write of memory left: its number, its bytes and its tags (R2, R49).
-/
namespace Sys2Proof.Machine

/-- A byte of a written range lies in one of the granules that the write touches. -/
theorem granule_mem_granules {a n b : Nat} (lo : a ≤ b) (hi : b < a + n) : b / 16 ∈ granules a n := by
  have first : a / 16 ≤ b / 16 := Nat.div_le_div_right lo
  have last : b / 16 ≤ (a + n - 1) / 16 := Nat.div_le_div_right (Nat.le_sub_one_of_lt hi)
  rw [granules, if_neg (by omega), mem_upFrom]
  omega

theorem State.readMem_writeMem {s : State} (w : Memory.wf s.mem = true) (a x n : Nat) :
    (s.writeMem a x n).readMem a n = x % 256 ^ n := Memory.readNat_writeNat w a x n

theorem State.readByte_writeMem_of_ne {s : State} (w : Memory.wf s.mem = true) {a n b : Nat} (x : Nat)
    (h : b < a ∨ a + n ≤ b) : (s.writeMem a x n).readByte b = s.readByte b := Memory.read_writeNat_of_ne w x h

theorem State.tagAt_writeMem (s : State) {a n b : Nat} (x : Nat) (lo : a ≤ b) (hi : b < a + n) :
    (s.writeMem a x n).tagAt b = false := by
  simp [State.tagAt, State.writeMem, State.touch, State.clean, granule_mem_granules lo hi]

/-- A write of memory changes nothing but the cells, the tags, the poison and the faults of its granules. -/
theorem State.writeMem_frame (s : State) (a x n : Nat) :
    { s.writeMem a x n with mem := [], tags := [], poison := [], badGranules := [] } =
      { s with mem := [], tags := [], poison := [], badGranules := [] } := rfl

/-- Settles O23: the number and the other bytes by the laws of the canonical list, the tags because every written byte
lies in a touched granule. -/
theorem readAfterWrite : Obligations.ReadAfterWrite := by
  intro s a x n w
  have number := State.readMem_writeMem w a x n
  have others := fun b => State.readByte_writeMem_of_ne w (a := a) (n := n) (b := b) x
  have tags := fun b => s.tagAt_writeMem (a := a) (n := n) (b := b) x
  exact ⟨number, others, tags, State.writeMem_wf w a x n, s.writeMem_frame a x n⟩

end Sys2Proof.Machine
end

section
/-!
SUPPORT. What a step comes to: a chain is decoded halfword by halfword, a fetch that goes well gives the chain, and the turn of
a slot that nothing holds back is what its fetch comes to (R17, R38, R100, R102, R116, R157).
-/
namespace Sys2Proof

/-! Decoding a chain halfword by halfword (R102, R116). -/

/-- A decoded chain has the prefixes read so far, its base word and nothing more. -/
theorem finishChain_len {c : Chain} {h : Half} {gd : Guard} {i : Instr} {len : Nat} {base : Half} {pos : Nat}
    (e : finishChain c h = .ok gd i len base pos) : len = c.n + 1 := by
  have op : ∀ f, finishChain.finishOp c h f = .ok gd i len base pos → len = c.n + 1 := by
    intro f e
    unfold finishChain.finishOp at e
    grind
  unfold finishChain at e
  dsimp only at e
  split at e
  · split at e
    · cases e
    · exact op _ e
  · exact op _ e

/-- What a halfword does to a chain: it ends the chain, spoils it, or leaves it open, whatever follows. -/
theorem decodeFrom_cons (c : Chain) (h : Half) :
    (∀ rest, decodeFrom c (h :: rest) = finishChain c h) ∨
    (∃ cause pos, ∀ rest, decodeFrom c (h :: rest) = .ill cause h pos) ∨
    (c.n < 4 ∧ ∃ c' : Chain, c'.n = c.n + 1 ∧ ∀ rest, decodeFrom c (h :: rest) = decodeFrom c' rest) := by
  simp only [decodeFrom]
  by_cases base : hbits h 12 4 ≤ 0xD
  · exact .inl fun _ => if_pos base
  right
  simp only [if_neg base]
  by_cases reserved : hbits h 12 4 = 0xF ∧ hbits h 10 2 = 3
  · exact .inl ⟨_, _, fun _ => if_pos reserved⟩
  simp only [if_neg reserved]
  by_cases long : c.n ≥ 4
  · exact .inl ⟨_, _, fun _ => if_pos long⟩
  simp only [if_neg long]
  by_cases imx : hbits h 12 4 = 0xE
  · exact .inr ⟨by omega, _, rfl, fun _ => if_pos imx⟩
  simp only [if_neg imx]
  split <;> split
  all_goals first
    | exact .inl ⟨_, _, fun _ => rfl⟩
    | exact .inr ⟨by omega, _, rfl, fun _ => rfl⟩

/-- A list that is one whole chain holds at most five halfwords (R103), and no shorter part of it from the start is a chain. -/
theorem decodeFrom_take_of_ok {c : Chain} {hs : List Half} {gd : Guard} {i : Instr} {base : Half} {pos : Nat} (few : c.n ≤ 4)
    (e : decodeFrom c hs = .ok gd i (c.n + hs.length) base pos) :
    c.n + hs.length ≤ 5 ∧ ∀ k, k < hs.length → decodeFrom c (hs.take k) = .more := by
  induction hs generalizing c with
  | nil => cases e
  | cons h rest ih =>
    rw [List.length_cons] at e ⊢
    rcases decodeFrom_cons c h with last | ⟨_, _, bad⟩ | ⟨room, c', hn, goesOn⟩
    · have := finishChain_len ((last rest).symm.trans e)
      refine ⟨by omega, fun k hk => ?_⟩
      obtain rfl : k = 0 := by omega
      rfl
    · cases (bad rest).symm.trans e
    · have e' : decodeFrom c' rest = .ok gd i (c'.n + rest.length) base pos := by
        rw [hn, ← goesOn, e, Nat.add_assoc, Nat.add_comm 1]
      obtain ⟨short, more⟩ := ih (by omega) e'
      refine ⟨by omega, fun k hk => ?_⟩
      cases k with
      | zero => rfl
      | succ k => rw [List.take_succ_cons, goesOn, more k (by omega)]

end Sys2Proof

namespace Sys2Proof.Machine

/-! Fetching (R100, R157). -/

/-- The halfwords that a slot fetches from an offset: each passes its check, can be had and is the next of the list. -/
def State.Fetches (s : State) (c n e : Nat) (hs : List Half) : Prop :=
  ∀ j h, hs[j]? = some h → ∃ x, s.checkFetch c n (e + 2 * j) = .ok x ∧ s.codeLost x (e + 2 * j) = none ∧
    s.codeHalf x (e + 2 * j) = h

/-- The halfword that ends the chain, or spoils it, ends the fetch. -/
theorem State.fetchFrom_last {s : State} {c n e : Nat} {h : Half} {l : List Half} (ok : s.Fetches c n e (h :: l))
    {pre : List Half} (whole : decode (pre ++ [h]) ≠ .more) (k : Nat) :
    s.fetchFrom c n pre e (k + 1) = .dec (decode (pre ++ [h])) := by
  obtain ⟨x, check, kept, half⟩ := ok 0 h rfl
  simp only [Nat.mul_zero, Nat.add_zero] at check kept half
  simp only [State.fetchFrom, check, kept, half]

/-- A halfword that leaves the chain open is followed by the next one. -/
theorem State.fetchFrom_more {s : State} {c n e : Nat} {h : Half} {l : List Half} (ok : s.Fetches c n e (h :: l))
    {pre : List Half} (more : decode (pre ++ [h]) = .more) (k : Nat) :
    s.fetchFrom c n pre e (k + 1) = s.fetchFrom c n (pre ++ [h]) (e + 2) k := by
  obtain ⟨x, check, kept, half⟩ := ok 0 h rfl
  simp only [Nat.mul_zero, Nat.add_zero] at check kept half
  simp only [State.fetchFrom, check, kept, half, more]

/-- What is left of a chain is fetched halfword by halfword until the chain ends. -/
theorem State.fetchFrom_eq {s : State} {c n : Nat} {post : List Half} : ∀ {e : Nat} {pre : List Half} {k : Nat},
    post ≠ [] → s.Fetches c n e post → post.length ≤ k → decode (pre ++ post) ≠ .more →
    (∀ j, j < post.length → decode (pre ++ post.take j) = .more) →
    s.fetchFrom c n pre e k = .dec (decode (pre ++ post)) := by
  induction post with
  | nil => exact fun h => absurd rfl h
  | cons h rest ih =>
    intro e pre k _ ok room whole parts
    obtain ⟨k, rfl⟩ : ∃ k', k = k' + 1 := ⟨k - 1, by simp at room; omega⟩
    by_cases last : rest = []
    · subst last
      exact State.fetchFrom_last ok whole k
    · have more : decode (pre ++ [h]) = .more := parts 1 (by simpa using List.length_pos_iff.2 last)
      have regroup : pre ++ h :: rest = pre ++ [h] ++ rest := by simp
      rw [State.fetchFrom_more ok more, regroup]
      refine ih last (fun j x hj => ?_) (by simpa using room) (regroup ▸ whole) fun j hj => ?_
      · simpa [Nat.mul_add, Nat.add_assoc, Nat.add_comm] using ok (j + 1) x (by simpa using hj)
      · simpa using parts (j + 1) (by simpa using hj)

/-- A slot whose halfwords are one chain fetches that chain. -/
theorem State.fetch_eq {s : State} {c n : Nat} {hs : List Half} {gd : Guard} {i : Instr} {base : Half} {pos : Nat}
    (d : decode hs = .ok gd i hs.length base pos) (ok : s.Fetches c n (s.slot c n).pc hs) :
    s.fetch c n = .dec (.ok gd i hs.length base pos) := by
  obtain ⟨short, parts⟩ := decodeFrom_take_of_ok (c := {}) (Nat.zero_le 4) (by simpa [decode] using d)
  have some_ : hs ≠ [] := by
    rintro rfl
    cases d
  rw [State.fetch, State.fetchFrom_eq some_ ok (by simpa using short) (by simp [d]) (by simpa [decode] using parts),
    List.nil_append, d]

/-! What a step does when no event is due (R17, R38). -/

/-- What a step answers for what a slot does on its turn. -/
def Turn.outcome : Turn → Host.Outcome State Fault Refusal
  | .idle t => .next t
  | .issue i t => exec i t

/-- When nothing is on the agenda, a step is the next slot's turn. -/
theorem step_turn {s : State} {c : Nat} {rest : List Nat} (quiet : s.agenda = []) (next : s.turns = c :: rest) :
    step s = (({ s with turns := rest }).turn c (s.cycle % 16)).outcome := by
  unfold step
  split
  · next due => simp [quiet] at due
  · split
    · next turns =>
      obtain ⟨rfl, rfl⟩ := List.cons.inj (next.symm.trans turns)
      split <;> next h => rw [h]; rfl
    · next none_ => simp [next] at none_

/-- The trap code of an encoding that names no instruction (R116). -/
def illCode : IllCause → Nat
  | .illOp => causeIllOp
  | .illPrefix => causeIllPrefix
  | .illField => causeIllField

/-- Nothing holds back the turn of a slot that is in no pair: it runs, its core and its registers are there, no trap is due,
and neither a `YIELD` nor the vector latch takes the turn. -/
structure State.Free (s : State) (c n : Nat) : Prop where
  runs : (s.slot c n).run = .running
  notLead : (s.slot c n).lead = false
  notTrail : (s.slot c n).trail = false
  kept : (s.core c).contained = false
  ready : n = 15 → (s.core c).trap.readyAt ≤ s.cycle ∧ (s.core c).trap.fills = []
  idle : (s.slot c n).idle ≤ s.cycle
  settled : ∀ g, s.group? c (s.slot c n).bank = some g → g.settled = true
  vready : (s.slot c n).vready ≤ s.cycle
  noTrap : (s.slot c n).later = []

theorem State.turn_of_not_running {s : State} {c n : Nat} (h : (s.slot c n).run ≠ .running) : s.turn c n = .idle s := by
  simp [State.turn, h]

theorem State.turn_of_free {s : State} {c n : Nat} (f : s.Free c n) : s.turn c n = s.turnFetch c n := by
  have mate : s.mateAway c n = false := by simp [State.mateAway, pairMate, f.notLead, f.notTrail]
  have trap : ¬ (n = 15 ∧ (s.cycle < (s.core c).trap.readyAt ∨ (s.core c).trap.fills ≠ [])) := by
    rintro ⟨hn, h⟩
    obtain ⟨ready, fills⟩ := f.ready hn
    exact h.elim (by omega) (· fills)
  have group : (s.group? c (s.slot c n).bank).any (fun g => !g.settled) = false := by
    cases h : s.group? c (s.slot c n).bank with
    | none => rfl
    | some g => simp [f.settled g h]
  have idle := f.idle
  have vready := f.vready
  simp [State.turn, f.runs, f.kept, mate, trap, group, f.noTrap, Nat.not_lt.2 idle, Nat.not_lt.2 vready]

theorem State.pairBehind_of_free {s : State} {c n : Nat} (f : s.Free c n) : s.pairBehind c n = false := by
  simp [State.pairBehind, f.notLead]

/-! The turn by what has been fetched. -/

/-- Events put on the agenda one after another leave the cores and memory alone. -/
theorem State.foldl_now_frame {α : Type} (e : Instr) (g : α → List Nat) (ps : List α) (s : State) :
    (ps.foldl (fun s p => s.now e (g p)) s).cores = s.cores ∧ (ps.foldl (fun s p => s.now e (g p)) s).mem = s.mem := by
  induction ps generalizing s with
  | nil => exact ⟨rfl, rfl⟩
  | cons p r ih => exact ih (s.now e (g p))

theorem State.slot_foldl_now {α : Type} (e : Instr) (g : α → List Nat) (ps : List α) (s : State) (c n : Nat) :
    (ps.foldl (fun s p => s.now e (g p)) s).slot c n = s.slot c n := by
  simp only [State.slot, State.core, (State.foldl_now_frame e g ps s).1]

/-- The slot parks for its walks, each of which starts at once. -/
theorem State.turnFetch_walk {s : State} {c n : Nat} {ps : List (Nat × Nat)} (h : s.fetch c n = .walk ps) :
    ∃ v : State, s.turnFetch c n = .idle v ∧ (v.slot c n).run = .parked ∧ (v.slot c n).why = .walk ∧
      (v.slot c n).pc = (s.slot c n).pc ∧ v.mem = s.mem := by
  have slot := State.slot_foldl_now .walkStart (fun p : Nat × Nat => [c, n, p.1, p.2]) ps
  have mem := fun s => (State.foldl_now_frame .walkStart (fun p : Nat × Nat => [c, n, p.1, p.2]) ps s).2
  simp [State.turnFetch, h, slot, mem]

section turnFetch
variable {s : State} {c n : Nat} (f : s.Free c n)
include f

theorem State.turnFetch_ok {gd : Guard} {i : Instr} {len : Nat} {base : Half} {pos : Nat}
    (h : s.fetch c n = .dec (.ok gd i len base pos)) :
    s.turnFetch c n = s.issueOne c n ⟨gd, i, len, base, pos⟩ none := by
  simp [State.turnFetch, h, f.notLead, f.notTrail]

theorem State.turnFetch_fault {cause a v : Nat} (h : s.fetch c n = .fault cause a v) :
    s.turnFetch c n = .issue .instructionFetchFault
      { (s.withIssue c n ⟨⟨false, 0⟩, .illegalEncoding, 1, 0, 0⟩).noteUrgent c n with evt := [cause, a, v] } := by
  simp [State.turnFetch, h, State.pairBehind_of_free f]

theorem State.turnFetch_ill {cause : IllCause} {hw : Half} {p : Nat} (h : s.fetch c n = .dec (.ill cause hw p)) :
    s.turnFetch c n = .issue .illegalEncoding
      { ((s.withIssue c n ⟨⟨false, 0⟩, .illegalEncoding, 1, hw, p⟩).noteUrgent c n).countIssue c n .illegalEncoding with
        evt := [illCode cause, hw.toNat, p] } := by
  cases cause <;> simp [State.turnFetch, h, State.pairBehind_of_free f, illCode]

end turnFetch

theorem State.issueOne_present {s : State} {c n : Nat} {x : Chain} (h : s.missingLines c n x.gd x.ins = [])
    (doing : Option Instr) : s.issueOne c n x doing = .issue (s.rowFor c n x.ins)
      ((((((s.touchRegs c n x).onSlot c n fun t => { t with doing }).withIssue c n x).noteUrgent c n).countIssue c n
        (s.rowFor c n x.ins))) := by
  simp only [State.issueOne, h]

theorem State.issueOne_missing {s : State} {c n : Nat} {x : Chain} (h : s.missingLines c n x.gd x.ins ≠ [])
    (doing : Option Instr) : s.issueOne c n x doing =
      .idle (s.fillLines c n (s.linesFor c n x.gd x.ins) (s.missingLines c n x.gd x.ins)) := by
  unfold State.issueOne
  split
  · next none_ => exact absurd none_ h
  · rfl

/-- Settles O58: a slot that nothing holds back fetches, and its turn is what the fetch comes to. -/
theorem stepRunsDecoded : Obligations.StepRunsDecoded := by
  intro s
  refine ⟨fun e rest due => ?_, fun e rest quiet done tail => ?_, fun quiet done none_ => ?_, fun c rest quiet next => ?_⟩
  · simp only [step, due]
  · simp only [step, quiet, done, tail]
  · simp only [step, quiet, done, none_]
  dsimp only
  generalize hu : ({ s with turns := rest } : State) = u
  have turn : step s = (u.turn c (s.cycle % 16)).outcome := hu ▸ step_turn quiet next
  refine ⟨fun stopped => ?_, fun runs notLead notTrail kept ready idle settled vready noTrap => ⟨?_, ?_, ?_, ?_, ?_⟩⟩
  · rw [turn, State.turn_of_not_running stopped]
    rfl
  · rintro hs gd i _ base pos rfl d ok
    exact State.fetch_eq d ok
  all_goals
    have cycle : u.cycle = s.cycle := by rw [← hu]
    have free : u.Free c (s.cycle % 16) :=
      ⟨runs, notLead, notTrail, kept, cycle ▸ ready, cycle ▸ idle, settled, cycle ▸ vready, noTrap⟩
    rw [turn, State.turn_of_free free]
  · intro gd i len base pos fetched
    rw [State.turnFetch_ok free fetched]
    exact ⟨fun present => by rw [State.issueOne_present present]; rfl,
      fun missing => by rw [State.issueOne_missing missing]; rfl⟩
  · intro cause a v fetched
    rw [State.turnFetch_fault free fetched]
    rfl
  · intro ps fetched
    obtain ⟨v, parks, facts⟩ := State.turnFetch_walk fetched
    exact ⟨v, by rw [parks]; rfl, by simpa [← hu] using facts⟩
  · intro cause hw p fetched
    exact ⟨illCode cause, by cases cause <;> rfl, by rw [State.turnFetch_ill free fetched]; rfl⟩

end Sys2Proof.Machine
end

section
/-!
SUPPORT. Tracks and links: what one update of a track leaves alone, which flit is sent and received, and what the death of an
idle track changes (R24, R295–R302).
-/
namespace Sys2Proof.Machine

/-! Reading after writing: tracks, packets, events and sets. -/

@[simp] theorem State.track_onTrack (s : State) (t : Nat) (f : Track → Track) : (s.onTrack t f).track t = f (s.track t) := by
  simp [State.onTrack, State.track]
theorem State.track_onTrack_ne (s : State) {t t' : Nat} (h : t' ≠ t) (f : Track → Track) :
    (s.onTrack t f).track t' = s.track t' := by
  simp [State.onTrack, State.track, SMap.get_set_ne _ h]

/-- What an update of a track keeps of every track it keeps of each. -/
theorem State.track_onTrack_keep {α : Type} (s : State) (t : Nat) {f : Track → Track} {g : Track → α}
    (keep : ∀ k, g (f k) = g k) (t' : Nat) : g ((s.onTrack t f).track t') = g (s.track t') := by
  by_cases h : t' = t
  · subst h
    rw [State.track_onTrack, keep]
  · rw [State.track_onTrack_ne s h]

theorem SMap.find?_set {α : Type} (m : SMap α) (k : Nat) (v : α) :
    (SMap.set m k v).find? (fun p => p.1 == k) = some (k, v) := by
  induction m with
  | nil => simp [SMap.set]
  | cons p r ih =>
    obtain ⟨j, x⟩ := p
    by_cases h : j = k
    · simp [SMap.set, h]
    · by_cases h' : k < j
      · simp [SMap.set, h, h']
      · simp [SMap.set, h, h', ih]

theorem State.packet?_set (s : State) (p : Packet) :
    State.packet? { s with packets := SMap.set s.packets p.id p } p.id = some p := by
  simp [State.packet?, SMap.find?_set]

theorem State.packet?_congr {s u : State} (h : u.packets = s.packets) (id : Nat) : u.packet? id = s.packet? id := by
  rw [State.packet?, h, State.packet?]

theorem Due.mem_insert (d : Due) (l : List Due) : d ∈ d.insert l := by
  induction l with
  | nil => simp [Due.insert]
  | cons x r ih =>
    unfold Due.insert
    split
    · exact List.mem_cons_self
    · exact List.mem_cons_of_mem x ih

/-- An event asked for falls due on its clock. -/
theorem State.mem_pending_after (s : State) (n : Nat) (e : Instr) (l : List Nat) :
    ⟨s.cycle + n, e, l⟩ ∈ (s.after n e l).pending := Due.mem_insert ..

theorem mem_setIns {l : List Nat} {k x : Nat} : x ∈ setIns l k ↔ x = k ∨ x ∈ l := by
  induction l with
  | nil => simp [setIns]
  | cons j r ih =>
    unfold setIns
    by_cases h : j = k
    · simp [h]
    · by_cases h' : k < j
      · simp [h, h']
      · simp only [h, h', if_false, List.mem_cons, ih]
        exact or_left_comm

/-! Track numbers. -/

theorem trackPos_trackId {d l : Nat} (a : Nat) (hd : d < 7) (hl : l < 24) : trackPos (trackId a d l) = a := by
  unfold trackPos trackId
  omega
theorem trackDir_trackId {d l : Nat} (a : Nat) (hd : d < 7) (hl : l < 24) : trackDir (trackId a d l) = d := by
  unfold trackDir trackId
  omega
theorem lanesOf_pos (d : Nat) : 0 < lanesOf d := by
  unfold lanesOf
  split <;> omega
theorem lanesOf_le (d : Nat) : lanesOf d ≤ 24 := by
  unfold lanesOf
  split <;> omega
theorem backDir_lt (d : Nat) : backDir d < 7 := by
  unfold backDir
  split <;> omega
/-- A link has as many tracks one way as the other. -/
theorem lanesOf_backDir {d : Nat} (h : d < 7) : lanesOf (backDir d) = lanesOf d := by
  interval_cases d <;> rfl

theorem State.laneFor_lt (s : State) (a d src dst : Nat) : s.laneFor a d src dst < lanesOf d := by
  have lane : ∀ x, x % lanesOf d < lanesOf d := fun x => Nat.mod_lt x (lanesOf_pos d)
  unfold State.laneFor
  dsimp only
  cases found : List.find? _ _ with
  | none => exact lane _
  | some l =>
    obtain ⟨i, -, rfl⟩ := List.mem_map.1 (List.mem_of_find?_eq_some found)
    exact lane _

/-- The tracks of a route depend on which tracks and links are dead, and on nothing else. -/
theorem State.trackFor_congr {s u : State} (h : ∀ t, (u.track t).dead = (s.track t).dead) (a d src dst : Nat) :
    u.trackFor a d src dst = s.trackFor a d src dst := by
  simp only [State.trackFor, State.laneFor, h]
theorem State.liveDir_congr {s u : State} (h : u.deadLinks = s.deadLinks) (a src dst : Nat) :
    u.liveDir a src dst = s.liveDir a src dst := by
  have links : u.linkDead = s.linkDead := by
    funext a d
    rw [State.linkDead, h, State.linkDead]
  rw [State.liveDir, links, State.liveDir]
theorem State.liveTrack_congr {s u : State} (links : u.deadLinks = s.deadLinks)
    (dead : ∀ t, (u.track t).dead = (s.track t).dead) (a src dst : Nat) : u.liveTrack a src dst = s.liveTrack a src dst := by
  simp only [State.liveTrack, State.liveDir_congr links, State.trackFor_congr dead]

/-! Which packet's flit goes next (R297). -/

theorem Track.next_of_bulk {k : Track} {b : TxPkt} (h : k.candidate bulk = some b) (late : 31 ≤ k.nonBulk) :
    k.next = some b := by
  simp [Track.next, h, late]

theorem Track.next_of_control {k : Track} {x : TxPkt} (h : k.candidate control = some x)
    (early : k.candidate bulk = none ∨ k.nonBulk < 31) (last : k.lastCtl = false) : k.next = some x := by
  have noBulk : ¬ ((k.candidate bulk).isSome ∧ 31 ≤ k.nonBulk) := by
    rintro ⟨open_, late⟩
    rcases early with none_ | few
    · simp [none_] at open_
    · omega
  simp only [Track.next, if_neg noBulk, h, last]
  simp

/-! What charging and marking leave alone. -/

theorem State.charge_frame (s : State) (a : Option Nat) (pj : Nat) :
    { s.charge a pj with cores := [], launches := [] } = { s with cores := [], launches := [] } := by
  unfold State.charge
  cases a with
  | none => rfl
  | some a =>
    dsimp only
    split <;> rfl

theorem State.chargeFlit_frame (s : State) (t : Nat) (x : TxPkt) :
    { s.chargeFlit t x with cores := [], launches := [] } = { s with cores := [], launches := [] } := by
  unfold State.chargeFlit
  split
  · split
    · exact State.charge_frame ..
    · rfl
  · rfl

theorem State.markCut_frame (s : State) (t : Nat) (x : TxPkt) :
    { s.markCut t x with packets := [] } = { s with packets := [] } := by
  unfold State.markCut
  repeat' split
  all_goals rfl

@[simp] theorem State.chargeFlit_mem (s : State) (t : Nat) (x : TxPkt) : (s.chargeFlit t x).mem = s.mem :=
  (congrArg State.mem (s.chargeFlit_frame t x) :)
@[simp] theorem State.chargeFlit_packets (s : State) (t : Nat) (x : TxPkt) : (s.chargeFlit t x).packets = s.packets :=
  (congrArg State.packets (s.chargeFlit_frame t x) :)
@[simp] theorem State.chargeFlit_track (s : State) (t : Nat) (x : TxPkt) (t' : Nat) :
    (s.chargeFlit t x).track t' = s.track t' :=
  (congrArg (State.track · t') (s.chargeFlit_frame t x) :)
@[simp] theorem State.markCut_mem (s : State) (t : Nat) (x : TxPkt) : (s.markCut t x).mem = s.mem :=
  (congrArg State.mem (s.markCut_frame t x) :)
@[simp] theorem State.markCut_track (s : State) (t : Nat) (x : TxPkt) (t' : Nat) : (s.markCut t x).track t' = s.track t' :=
  (congrArg (State.track · t') (s.markCut_frame t x) :)

/-- A flit of a packet goes out: it is kept for retry, and the packet moves on in the queue. -/
def Track.sending (k : Track) (x : TxPkt) (f : Flit) : Track :=
  let mine (y : TxPkt) : Bool := y.pkt == x.pkt
  { k with queue := if f.last then delFirst mine k.queue else updFirst mine (fun y => { y with sent := y.sent + 1 }) k.queue
           retry := k.retry ++ [f], air := k.air ++ [f], lseq := (k.lseq + 1) % 128
           credit := SMap.set k.credit x.cls (SMap.get k.credit x.cls 0 + 1)
           nonBulk := if x.cls = bulk then 0 else k.nonBulk + 1, lastCtl := x.cls == control }

/-- The flit that a transmitter sends next of a packet. -/
def State.nextFlit (s : State) (t : Nat) (x : TxPkt) : Flit :=
  ⟨x.pkt, x.sent == 0, x.sent + 1 == x.flits, x.cls, (s.track t).lseq, s.cycle + hopClocks t⟩

section transmit
variable {s : State} {t : Nat} (live : (s.track t).dead = false)
include live

theorem State.transmit_closed (closed : laneOpen t s.cycle = false) : s.transmit t = s := by
  simp [State.transmit, live, closed]

theorem State.transmit_resend {n : Nat} {f : Flit} (lane : laneOpen t s.cycle = true) (more : (s.track t).resend = n + 1)
    (kept : (s.track t).retry[(s.track t).retry.length - (n + 1)]? = some f) :
    s.transmit t = s.onTrack t fun k =>
      { k with air := k.air ++ [{ f with clock := s.cycle + hopClocks t }], resend := n } := by
  simp [State.transmit, live, lane, more, kept, State.onTrack]

theorem State.transmit_full (lane : laneOpen t s.cycle = true) (fresh : (s.track t).resend = 0)
    (none_ : 64 ≤ (s.track t).retry.length ∨ (s.track t).next = none) : s.transmit t = s := by
  by_cases full : 64 ≤ (s.track t).retry.length
  · simp [State.transmit, live, lane, fresh, full]
  · simp [State.transmit, live, lane, fresh, full, none_.resolve_left full]

theorem State.transmit_new {x : TxPkt} (lane : laneOpen t s.cycle = true) (fresh : (s.track t).resend = 0)
    (room : (s.track t).retry.length < 64) (next : (s.track t).next = some x) (source : x.via = none) :
    s.transmit t = ((s.markCut t x).chargeFlit t x).onTrack t fun _ => (s.track t).sending x (s.nextFlit t x) := by
  have credit : x.creditTo = none := by simp [TxPkt.creditTo, source]
  simp [State.transmit, live, lane, fresh, Nat.not_le.2 room, next, State.giveCredit, credit, State.onTrack, Track.sending,
    State.nextFlit]

end transmit

/-- A packet that cuts in is marked (R295), and no other packet changes. -/
theorem State.markCut_packets (s : State) (t : Nat) {x : TxPkt} (source : x.via = none) :
    ((x.sent == 0 && (s.track t).openBelow x.cls) = false → (s.markCut t x).packets = s.packets) ∧
    ∀ q, (x.sent == 0 && (s.track t).openBelow x.cls) = true → s.packet? x.pkt = some q → q.id = x.pkt →
      (s.markCut t x).packet? x.pkt = some { q with cut := true } := by
  constructor
  · intro apart
    simp [State.markCut, source, apart]
  · intro q cuts found name
    have marked : s.markCut t x = { s with packets := SMap.set s.packets q.id { q with cut := true } } := by
      simp [State.markCut, source, cuts, found]
    rw [marked, ← name]
    exact s.packet?_set { q with cut := true }

/-! Reception (R298–R300). -/

/-- A track but for what its two ends move on: its queue, its partial packets, its credits and its copies. -/
def Track.line (k : Track) : Track := { k with queue := [], partials := [], credit := [], copies := [] }

/-- Nothing has changed but what the ends of tracks move on. -/
structure State.MovesOn (s u : State) : Prop where
  frame : { u with tracks := [] } = { s with tracks := [] }
  line : ∀ t, (u.track t).line = (s.track t).line

theorem State.MovesOn.refl (s : State) : s.MovesOn s := ⟨rfl, fun _ => rfl⟩
theorem State.MovesOn.trans {s u v : State} (a : s.MovesOn u) (b : u.MovesOn v) : s.MovesOn v :=
  ⟨b.frame.trans a.frame, fun t => (b.line t).trans (a.line t)⟩
theorem State.MovesOn.of_onTrack (s : State) (t : Nat) {f : Track → Track} (keep : ∀ k, (f k).line = k.line) :
    s.MovesOn (s.onTrack t f) := ⟨rfl, s.track_onTrack_keep t keep⟩
theorem State.MovesOn.of_giveCredit (s : State) (via : Option Nat) (cls n : Nat) : s.MovesOn (s.giveCredit via cls n) := by
  cases via with
  | none => exact .refl s
  | some t => exact .of_onTrack s t (f := fun k => { k with credit := SMap.set k.credit cls _ }) fun _ => rfl
theorem State.MovesOn.packet? {s u : State} (h : s.MovesOn u) (id : Nat) : u.packet? id = s.packet? id :=
  State.packet?_congr (congrArg State.packets h.frame :) id

theorem State.MovesOn.of_foldl {α : Type} {g : State → α → State} (each : ∀ (s : State) x, s.MovesOn (g s x))
    (l : List α) (s : State) : s.MovesOn (l.foldl g s) := by
  induction l generalizing s with
  | nil => exact .refl s
  | cons x r ih => exact (each s x).trans (ih _)

theorem State.MovesOn.of_feedCopies (s : State) (t : Nat) (f : Flit) : s.MovesOn (s.feedCopies t f) := by
  unfold State.feedCopies
  dsimp only
  have fed := State.MovesOn.of_foldl (g := fun s (x : Nat × Nat × Nat) => s.onTrack x.2.2 fun k =>
      { k with queue := updFirst (fun y => y.pkt == x.2.1) (fun y => { y with avail := y.avail + 1 }) k.queue })
    (fun s x => .of_onTrack s x.2.2 (by exact fun _ => rfl)) ((s.track t).copies.filter fun x => x.1 == f.pkt) s
  split
  · exact fed.trans (.of_onTrack _ t fun _ => rfl)
  · exact fed

/-- The transmitter hears of a good flit, and the receiver expects the next one (R300). -/
def State.acked (s : State) (t : Nat) (f : Flit) : State := s.onTrack t fun k =>
  { k with expect := (k.expect + 1) % 128, retry := k.retry.filter (fun x => x.lseq != f.lseq), failures := 0 }

theorem State.acked_dead (s : State) (t : Nat) (f : Flit) (t' : Nat) :
    ((s.acked t f).track t').dead = (s.track t').dead :=
  s.track_onTrack_keep t (g := Track.dead) (by exact fun _ => rfl) t'

/-- A good flit at the end of its packet's way is acknowledged and has come. -/
theorem State.receive_end {s : State} {t : Nat} {f : Flit} {p : Packet} (known : s.packet? f.pkt = some p)
    (here : 5 ≤ trackDir t) : ∃ u, (s.acked t f).MovesOn u ∧ s.receive t f = u.arriveFlit t f p := by
  obtain ⟨u, moved, fed⟩ : ∃ u, (s.acked t f).MovesOn u ∧
      (if f.first then s.acked t f else (s.acked t f).feedCopies t f) = u := by
    cases f.first with
    | true => exact ⟨_, .refl _, rfl⟩
    | false => exact ⟨_, .of_feedCopies _ t f, rfl⟩
  refine ⟨u, moved, ?_⟩
  have found : u.packet? f.pkt = some p := (moved.packet? f.pkt).trans known
  unfold State.receive
  dsimp only
  rw [show State.onTrack s t _ = s.acked t f from rfl, fed, found]
  simp [here]

/-- The agent's packets bring about no event of their own. -/
theorem Body.forAgent_of_due {b : Body} {e : Instr} (due : b.due = some e) : b.forAgent = false := by
  cases b <;> simp_all [Body.due, Body.forAgent]

/-- A packet that brings about an event does so on the clock after it has come. -/
theorem State.deliverVia_due (s : State) {p : Packet} {e : Instr} (via : Option Nat) (due : p.body.due = some e) :
    s.deliverVia p via = (s.giveCredit via p.cls 1).after 1 e [p.id] := by
  unfold State.deliverVia
  rw [if_neg (by simp [Body.forAgent_of_due due])]
  cases body : p.body <;> simp_all [Body.due]

/-- A last flit at a core completes its packet, whose event is due on the next clock. -/
theorem State.arriveFlit_core (s : State) {t : Nat} {f : Flit} {p : Packet} {e : Instr} (core : trackDir t = 5)
    (last : f.last = true) (one : p.targets = []) (due : p.body.due = some e) :
    ∃ u, s.MovesOn u ∧ s.arriveFlit t f p = u.after 1 e [p.id] := by
  let v := s.onTrack t fun k => { k with partials := SMap.del k.partials f.cls }
  have moved : s.MovesOn v := .of_onTrack s t fun _ => rfl
  refine ⟨v.giveCredit (some t) p.cls 1, moved.trans (.of_giveCredit v ..), ?_⟩
  have arrives : s.arriveFlit t f p = v.deliverVia p (some t) := by simp [State.arriveFlit, core, last, one, v]
  exact arrives.trans (State.deliverVia_due v (some t) due)

/-- A last flit that has left by a fabric port completes its packet, which is kept apart (R24). -/
theorem State.arriveFlit_port (s : State) {t : Nat} {f : Flit} {p : Packet} (port : trackDir t = 6)
    (last : f.last = true) (plain : ∀ r, p.body = .req r → r.window = false) :
    ∃ u, s.MovesOn u ∧ s.arriveFlit t f p = { u.dropPacket p.id with outbox := u.outbox ++ [p] } := by
  let v := s.onTrack t fun k => { k with partials := SMap.del k.partials f.cls }
  have moved : s.MovesOn v := .of_onTrack s t fun _ => rfl
  refine ⟨v.giveCredit (some t) f.cls 1, moved.trans (.of_giveCredit v ..), ?_⟩
  have arrives : s.arriveFlit t f p = (v.giveCredit (some t) f.cls 1).leave p := by simp [State.arriveFlit, port, last, v]
  rw [arrives]
  unfold State.leave
  cases body : p.body with
  | req r => simp [plain r body, State.dropPacket]
  | _ => rfl

/-- A packet's first flit goes on by another track, at whose end the packet waits. -/
theorem State.passOn_other (s : State) {t w : Nat} (f : Flit) {p : Packet} {dir : Nat} (copy : Bool)
    (way : s.trackFor (hopTo (trackPos t) (trackDir t)) dir p.src p.dst = w) (other : w ≠ t) :
    ((s.passOn t f p dir copy).track w).queue =
      (s.track w).queue ++ [⟨p.id, 1, 0, p.cls, p.flits, some t, copy⟩] ∧ (s.passOn t f p dir copy).mem = s.mem := by
  unfold State.passOn
  dsimp only
  rw [way]
  split
  · simp
  · simp [State.track_onTrack_ne _ other]

/-- A good first flit goes on by the live track of its packet's route. -/
theorem State.receive_router {s : State} {t w : Nat} {f : Flit} {p : Packet} (known : s.packet? f.pkt = some p)
    (mesh : trackDir t < 5) (first : f.first = true) (one : p.targets = [])
    (route : s.liveTrack (hopTo (trackPos t) (trackDir t)) p.src p.dst = some w) (other : w ≠ t) :
    ((s.receive t f).track w).queue = (s.track w).queue ++ [⟨p.id, 1, 0, p.cls, p.flits, some t, false⟩] ∧
      (s.receive t f).mem = s.mem := by
  obtain ⟨d, live, way⟩ := Option.map_eq_some_iff.1 route
  have found : (s.acked t f).packet? f.pkt = some p := known
  have live' : (s.acked t f).liveDir (hopTo (trackPos t) (trackDir t)) p.src p.dst = some d :=
    (State.liveDir_congr rfl ..).trans live
  have passes : s.receive t f = (s.acked t f).passOn t f p d false := by
    unfold State.receive
    dsimp only
    rw [show State.onTrack s t _ = s.acked t f from rfl, if_pos first, found]
    simp [Nat.not_le.2 mesh, first, one, live']
  have way' : (s.acked t f).trackFor (hopTo (trackPos t) (trackDir t)) d p.src p.dst = w :=
    (State.trackFor_congr (s.acked_dead t f) ..).trans way
  obtain ⟨queue, mem⟩ := State.passOn_other (s.acked t f) f false way' other
  rw [passes, queue, mem, State.acked, State.track_onTrack_ne s other]
  exact ⟨rfl, rfl⟩

/-! Death (R301, R302). -/

/-- A track that holds nothing dies. -/
def State.bury (s : State) (t : Nat) : State := s.onTrack t fun k => { dead := true, copies := k.copies }

/-- Every track of a track's link is dead. -/
def State.lanesDead (s : State) (t : Nat) : Bool :=
  (below (lanesOf (trackDir t))).all fun l => (s.track (trackId (trackPos t) (trackDir t) l)).dead

theorem State.toResend_nil (s : State) : s.toResend [] = [] := by
  have keep : ∀ (l : List (Nat × Packet)) (acc : List Nat), l.foldl (fun acc _ => acc) acc = acc := by
    intro l
    induction l with
    | nil => exact fun _ => rfl
    | cons _ r ih => exact ih
  exact keep _ []

/-- No packet waits at a track that has died so. -/
theorem State.moveOn_bury {s u : State} {t : Nat} (h : u.tracks = (s.bury t).tracks) : u.moveOn t = u := by
  have track : u.track t = { dead := true, copies := (s.track t).copies } := by
    rw [State.track, h]
    exact s.track_onTrack t _
  have tracks : SMap.set u.tracks t (u.track t) = u.tracks := by
    rw [track, h]
    exact SMap.set_set ..
  unfold State.moveOn State.onTrack
  rw [track] at tracks ⊢
  rw [List.foldl_nil, tracks]

/-- An idle track takes nothing with it but, as the last of its link, the link. -/
theorem State.trackDies_idle {s : State} {t : Nat} (live : (s.track t).dead = false) (idle : Spec.Idle (s.track t)) :
    s.trackDies t = if (s.bury t).lanesDead t then
        { s.bury t with deadLinks := setIns s.deadLinks (trackPos t * 7 + trackDir t)
                        agenda := ⟨.linkDeath, [trackPos t * 7 + trackDir t]⟩ :: s.agenda }
      else s.bury t := by
  obtain ⟨queue, retry, air, partials⟩ := idle
  have buried : (s.onTrack t fun k => { dead := true, queue := [], copies := k.copies }) = s.bury t := rfl
  unfold State.trackDies
  simp only [live, queue, retry, air, partials, List.filter_nil, List.map_nil, List.append_nil, List.foldl_nil,
    State.toResend_nil, buried, Bool.false_eq_true, if_false]
  rw [← State.lanesDead]
  split
  · exact State.moveOn_bury rfl
  · exact State.moveOn_bury rfl

/-- What the deaths of idle tracks keep. -/
structure State.Outlives (s u : State) : Prop where
  mem : u.mem = s.mem
  mgmt : u.mgmt = s.mgmt
  links : ∀ l, l ∈ s.deadLinks → l ∈ u.deadLinks
  dead : ∀ t, (s.track t).dead = true → (u.track t).dead = true
  idle : ∀ t, Spec.Idle (s.track t) → Spec.Idle (u.track t)

theorem State.Outlives.refl (s : State) : s.Outlives s := ⟨rfl, rfl, fun _ => id, fun _ => id, fun _ => id⟩
theorem State.Outlives.trans {s u v : State} (a : s.Outlives u) (b : u.Outlives v) : s.Outlives v :=
  ⟨b.mem.trans a.mem, b.mgmt.trans a.mgmt, fun l h => b.links l (a.links l h), fun t h => b.dead t (a.dead t h),
    fun t h => b.idle t (a.idle t h)⟩

theorem State.Outlives.of_bury (s : State) (t : Nat) : s.Outlives (s.bury t) := by
  refine ⟨rfl, rfl, fun _ => id, fun t' dead => ?_, fun t' idle => ?_⟩
  all_goals
    by_cases h : t' = t
    · subst h
      simp [State.bury, Spec.Idle]
    · rwa [State.bury, State.track_onTrack_ne s h]

theorem State.trackDies_outlives {s : State} {t : Nat} (idle : Spec.Idle (s.track t)) :
    s.Outlives (s.trackDies t) ∧ ((s.trackDies t).track t).dead = true := by
  cases live : (s.track t).dead with
  | true =>
    have same : s.trackDies t = s := by simp [State.trackDies, live]
    exact same.symm ▸ ⟨.refl s, live⟩
  | false =>
    have buried : ((s.bury t).track t).dead = true := by simp [State.bury]
    have kept := State.Outlives.of_bury s t
    rw [State.trackDies_idle live idle]
    split
    · exact ⟨⟨kept.mem, kept.mgmt, fun l h => mem_setIns.2 (.inr h), kept.dead, kept.idle⟩, buried⟩
    · exact ⟨kept, buried⟩

/-- Tracks that hold nothing die one after another. -/
theorem State.foldl_trackDies {ts : List Nat} : ∀ {s : State}, (∀ t ∈ ts, Spec.Idle (s.track t)) →
    s.Outlives (ts.foldl State.trackDies s) ∧ ∀ t ∈ ts, ((ts.foldl State.trackDies s).track t).dead = true := by
  induction ts with
  | nil => exact fun _ => ⟨.refl _, by simp⟩
  | cons t r ih =>
    intro s idle
    obtain ⟨one, dead⟩ := State.trackDies_outlives (idle t List.mem_cons_self)
    obtain ⟨rest, all⟩ := ih fun t' h => one.idle t' (idle t' (List.mem_cons_of_mem t h))
    exact ⟨one.trans rest, List.forall_mem_cons.2 ⟨rest.dead t dead, all⟩⟩

/-- The last track of a link takes the link with it. -/
theorem State.trackDies_last {s : State} {t : Nat} (live : (s.track t).dead = false) (idle : Spec.Idle (s.track t))
    (last : ∀ l, l < lanesOf (trackDir t) → trackId (trackPos t) (trackDir t) l ≠ t →
      (s.track (trackId (trackPos t) (trackDir t) l)).dead = true) :
    (s.trackDies t).agenda = ⟨.linkDeath, [trackPos t * 7 + trackDir t]⟩ :: s.agenda ∧
      trackPos t * 7 + trackDir t ∈ (s.trackDies t).deadLinks := by
  have all : (s.bury t).lanesDead t = true := by
    refine List.all_eq_true.2 fun l h => ?_
    by_cases same : trackId (trackPos t) (trackDir t) l = t
    · rw [same]
      simp [State.bury]
    · rw [State.bury, State.track_onTrack_ne s same]
      exact last l (mem_below.1 h) same
  rw [State.trackDies_idle live idle, if_pos all]
  exact ⟨rfl, mem_setIns.2 (.inl rfl)⟩

/-- The tracks of a link. -/
def linkTracks (a d : Nat) : List Nat := (below (lanesOf d)).map (trackId a d)

theorem forall_mem_linkTracks {a d : Nat} {p : Nat → Prop} :
    (∀ t ∈ linkTracks a d, p t) ↔ ∀ l, l < lanesOf d → p (trackId a d l) := by
  simp [linkTracks]

/-- `LINK_DEATH`: the tracks of both directions die, and Phaekus is told. -/
theorem execLinkDeath_eq (s : State) {a d : Nat} (hd : d < 7) :
    let b := hopTo a d
    execLinkDeath { s with evt := [a * 7 + d] } = .next (((linkTracks b (backDir d)).foldl State.trackDies
      ((linkTracks a d).foldl State.trackDies { s with
        evt := [a * 7 + d], deadLinks := setIns (setIns s.deadLinks (a * 7 + d)) (b * 7 + backDir d) })).onMgmt
        fun m => { m with told := setIns m.told (2 ^ 16 + (a * 7 + d)) }) := by
  have position : ∀ x y, y < 7 → (x * 7 + y) / 7 = x ∧ (x * 7 + y) % 7 = y := by omega
  obtain ⟨pos, dir⟩ := position a d hd
  obtain ⟨pos', dir'⟩ := position (hopTo a d) (backDir d) (backDir_lt d)
  simp only [execLinkDeath, State.arg, List.getD_cons_zero, pos, dir, pos', dir', linkTracks, List.foldl_map]

/-! A packet that goes out again (R301). -/

/-- A packet goes out whole from its source into a live link. -/
theorem State.goOut_eq {s : State} {p : Packet} (known : s.packet? p.id = some p) (source : p.src < 864)
    (live : s.linkDead p.src 4 = false) : s.goOut p = s.onTrack (s.trackFor p.src 4 p.src p.dst) fun k =>
      { k with queue := k.queue ++ [⟨p.id, p.flits, 0, p.cls, p.flits, none, false⟩] } := by
  have lane : s.laneFor p.src 4 p.src p.dst < 24 := s.laneFor_lt p.src 4 p.src p.dst
  have first : s.firstTrack p.src p.dst = s.trackFor p.src 4 p.src p.dst := if_pos source
  have way : s.liveFrom (s.trackFor p.src 4 p.src p.dst) p.src p.dst = some (s.trackFor p.src 4 p.src p.dst) := by
    have dir : trackDir (s.trackFor p.src 4 p.src p.dst) = 4 := trackDir_trackId p.src (by omega) lane
    have pos : trackPos (s.trackFor p.src 4 p.src p.dst) = p.src := trackPos_trackId p.src (by omega) lane
    simp [State.liveFrom, dir, pos, live]
  simp [State.goOut, State.requeue, known, first, way, State.repoint]

/-- `URGENT_NAK_RESEND`, when nothing else is on its way: the packet in the NAK goes out again. -/
theorem execUrgentNakResend_eq {s : State} {p q : Packet} (known : s.packet? p.id = some p) (nak : p.body = .nak q.id)
    (alone : (s.dropPacket p.id).packets = [(q.id, q)]) :
    execUrgentNakResend { s with evt := [p.id] } = .next (({ s with evt := [p.id] }.dropPacket p.id).goOut q) := by
  have known' : State.packet? { s with evt := [p.id] } p.id = some p := known
  have alone' : ({ s with evt := [p.id] }.dropPacket p.id).packets = [(q.id, q)] := alone
  have found : ({ s with evt := [p.id] }.dropPacket p.id).packet? q.id = some q := by simp [State.packet?, alone']
  simp [execUrgentNakResend, State.arg, known', nak, found, alone', Packet.sameWay]

/-! The events of a track, for the track that the event names. -/

/-- The oldest flit in flight is taken. -/
def State.takeAir (s : State) (t : Nat) (rest : List Flit) : State := s.onTrack t fun k => { k with air := rest }

theorem State.takeAir_track (s : State) (t : Nat) (rest : List Flit) :
    (s.takeAir t rest).track t = { s.track t with air := rest } := s.track_onTrack t _

section flitReceive
variable {s : State} {t : Nat} {f : Flit} {rest : List Flit} (names : s.arg 0 = t) (oldest : (s.track t).air = f :: rest)
  (come : f.clock ≤ s.cycle)
include names oldest come

/-- A flit whose clock has come is discarded with a retry asked for, discarded, or received (R300). -/
theorem execFlitReceive_eq : execFlitReceive s = .next (
    if s.badFlits.contains (t, s.cycle) then (s.takeAir t rest).after (hopClocks t) .retryRequest [t]
    else if f.lseq ≠ (s.track t).expect then s.takeAir t rest
    else (s.takeAir t rest).receive t f) := by
  have expect : (s.track t).expect = ((s.takeAir t rest).track t).expect := by simp [State.takeAir]
  rw [expect]
  simp only [execFlitReceive, names, oldest, Nat.not_lt.2 come, if_false]
  rfl

theorem exec_flitReceive_bad (bad : s.badFlits.contains (t, s.cycle) = true) :
    exec .flitReceive s = .next ((s.takeAir t rest).after (hopClocks t) .retryRequest [t]) := by
  rw [exec_flitReceive, execFlitReceive_eq names oldest come, if_pos bad]

theorem exec_flitReceive_unexpected (good : s.badFlits.contains (t, s.cycle) = false) (h : f.lseq ≠ (s.track t).expect) :
    exec .flitReceive s = .next (s.takeAir t rest) := by
  rw [exec_flitReceive, execFlitReceive_eq names oldest come, good, if_neg Bool.false_ne_true, if_pos h]

theorem exec_flitReceive_good (good : s.badFlits.contains (t, s.cycle) = false) (h : f.lseq = (s.track t).expect) :
    exec .flitReceive s = .next ((s.takeAir t rest).receive t f) := by
  rw [exec_flitReceive, execFlitReceive_eq names oldest come, good, if_neg Bool.false_ne_true, if_neg (not_not.2 h)]

end flitReceive

/-- What a transmitter's new flit changes. -/
theorem State.transmit_new_spec {s : State} {t : Nat} {x : TxPkt} (live : (s.track t).dead = false)
    (lane : laneOpen t s.cycle = true) (fresh : (s.track t).resend = 0) (room : (s.track t).retry.length < 64)
    (next : (s.track t).next = some x) (source : x.via = none) :
    (s.transmit t).mem = s.mem ∧ (s.transmit t).track t = (s.track t).sending x (s.nextFlit t x) ∧
      (s.transmit t).packets = (s.markCut t x).packets := by
  rw [State.transmit_new live lane fresh room next source]
  simp

/-- A good last flit at a core: its packet's event is due, and the track goes on to the next flit. -/
theorem State.receive_core {s : State} {t : Nat} {f : Flit} {p : Packet} {e : Instr} (known : s.packet? f.pkt = some p)
    (core : trackDir t = 5) (last : f.last = true) (one : p.targets = []) (due : p.body.due = some e) :
    ⟨s.cycle + 1, e, [p.id]⟩ ∈ (s.receive t f).pending ∧ (s.receive t f).mem = s.mem ∧
      ((s.receive t f).track t).line = Track.line { s.track t with
        expect := ((s.track t).expect + 1) % 128, retry := (s.track t).retry.filter fun x => x.lseq != f.lseq
        failures := 0 } := by
  obtain ⟨u, moved, ends⟩ := State.receive_end known core.ge
  obtain ⟨v, moved', arrives⟩ := State.arriveFlit_core u core last one due
  have all := moved.trans moved'
  have cycle : v.cycle = s.cycle := (congrArg State.cycle all.frame :)
  have pending := v.mem_pending_after 1 e [p.id]
  rw [ends, arrives]
  exact ⟨cycle ▸ pending, (congrArg State.mem all.frame :), (all.line t).trans (congrArg Track.line (s.track_onTrack t _))⟩

/-- A good last flit beyond a fabric port: its packet has left the package. -/
theorem State.receive_port {s : State} {t : Nat} {f : Flit} {p : Packet} (known : s.packet? f.pkt = some p)
    (port : trackDir t = 6) (last : f.last = true) (plain : ∀ r, p.body = .req r → r.window = false) :
    (s.receive t f).outbox = s.outbox ++ [p] ∧ (s.receive t f).mem = s.mem := by
  obtain ⟨u, moved, ends⟩ := State.receive_end known (by omega : 5 ≤ trackDir t)
  obtain ⟨v, moved', leaves⟩ := State.arriveFlit_port u port last plain
  have all := moved.trans moved'
  rw [ends, leaves]
  exact ⟨(congrArg (State.outbox · ++ [p]) all.frame :), (congrArg State.mem all.frame :)⟩

/-- A dead track asks for nothing and dies no more. -/
theorem exec_of_dead {s : State} {e : Instr} (event : e ∈ [Instr.retryRequest, .trackDeath])
    (dead : (s.track (s.arg 0)).dead = true) : exec e s = .next s := by
  rcases List.mem_pair.1 event with rfl | rfl
  · simp [exec_retryRequest, execRetryRequest, dead]
  · simp [exec_trackDeath, execTrackDeath, State.trackDies, dead]

theorem exec_retryRequest_again {s : State} {t : Nat} (names : s.arg 0 = t) (live : (s.track t).dead = false)
    (few : (s.track t).failures < 16) : exec .retryRequest s = .next (s.onTrack t fun k =>
      { k with failures := (s.track t).failures + 1, air := [], resend := k.retry.length }) := by
  simp [exec_retryRequest, execRetryRequest, names, live, Nat.not_le.2 (Nat.add_lt_add_right few 1)]

theorem exec_retryRequest_last {s : State} {t : Nat} (names : s.arg 0 = t) (live : (s.track t).dead = false)
    (many : 16 ≤ (s.track t).failures) : exec .retryRequest s = .next (s.trackDies t) := by
  simp [exec_retryRequest, execRetryRequest, names, live, Nat.add_le_add_right many 1]

/-- Settles O52, event by event: what each does to its own tracks, packets and links; memory stays as it is. -/
theorem linkEvents : Obligations.LinkEvents := by
  intro s t
  have names : State.arg { s with evt := [t] } 0 = t := rfl
  refine ⟨fun b h late => Track.next_of_bulk h late, fun x h early last => Track.next_of_control h early last, ?closed,
    ?new, ?resend, ?receive, ?dead, ?retry, ?link, ?nak⟩
  case closed =>
    intro live closed
    exact congrArg Host.Outcome.next (State.transmit_closed (s := { s with evt := [t] }) live closed)
  case new =>
    intro live lane fresh
    refine ⟨fun none_ => congrArg Host.Outcome.next (State.transmit_full (s := { s with evt := [t] }) live lane fresh none_),
      fun x room next source => ⟨_, rfl, ?_⟩⟩
    obtain ⟨mem, track, packets⟩ := State.transmit_new_spec (s := { s with evt := [t] }) live lane fresh room next source
    obtain ⟨apart, cut⟩ := State.markCut_packets { s with evt := [t] } t source
    refine ⟨mem, ?_, ?_, ?_, ?_, ?_, fun h => packets.trans (apart h), fun q cuts known name => ?_⟩
    on_goal 6 => exact (State.packet?_congr packets x.pkt).trans (cut q cuts known name)
    all_goals exact (congrArg _ track).trans rfl
  case resend =>
    intro n f live lane more kept
    have sends := State.transmit_resend (s := { s with evt := [t] }) live lane more kept
    exact ⟨_, congrArg Host.Outcome.next sends, rfl, State.track_onTrack ..⟩
  case receive =>
    intro f rest oldest come
    refine ⟨fun bad => ?_, fun good unexpected => ?_, fun p good expected known => ?_⟩
    · exact ⟨_, exec_flitReceive_bad names oldest come bad, State.takeAir_track { s with evt := [t] } t rest,
        State.mem_pending_after .., rfl⟩
    · exact ⟨_, exec_flitReceive_unexpected names oldest come good unexpected, State.takeAir_track .., rfl, rfl⟩
    · let v := State.takeAir { s with evt := [t] } t rest
      have taken : v.track t = { s.track t with air := rest } := State.takeAir_track { s with evt := [t] } t rest
      refine ⟨v.receive t f, exec_flitReceive_good names oldest come good expected, fun core last one e due => ?_,
        State.receive_port (s := v) known, fun mesh first one w route other => ?_⟩
      · obtain ⟨pending, mem, line⟩ := State.receive_core (s := v) known core last one due
        rw [taken] at line
        exact ⟨pending, mem, (congrArg Track.air line :), (congrArg Track.expect line :), (congrArg Track.failures line :),
          (congrArg Track.retry line :)⟩
      · have dead : ∀ t', (v.track t').dead = (s.track t').dead :=
          State.track_onTrack_keep { s with evt := [t] } t (g := Track.dead) (by exact fun _ => rfl)
        have route' : v.liveTrack (hopTo (trackPos t) (trackDir t)) p.src p.dst = some w :=
          (State.liveTrack_congr (s := s) (u := v) rfl dead ..).trans route
        obtain ⟨queue, mem⟩ := State.receive_router (s := v) known mesh first one route' other
        have waits : v.track w = s.track w := State.track_onTrack_ne { s with evt := [t] } other _
        exact ⟨waits ▸ queue, mem⟩
  case dead => exact fun e event dead => exec_of_dead event dead
  case retry =>
    intro live
    refine ⟨fun few => ⟨_, exec_retryRequest_again names live few, rfl, State.track_onTrack ..⟩, fun many idle => ?_,
      fun idle => ?_⟩
    · obtain ⟨kept, dead⟩ := State.trackDies_outlives (s := { s with evt := [t] }) idle
      exact ⟨_, exec_retryRequest_last names live many, dead, kept.mem⟩
    · obtain ⟨kept, dead⟩ := State.trackDies_outlives (s := { s with evt := [t] }) idle
      exact ⟨_, rfl, dead, kept.mem, fun last => State.trackDies_last (s := { s with evt := [t] }) live idle last⟩
  case link =>
    intro a d hd b idle
    let v : State := { s with evt := [a * 7 + d], deadLinks := setIns (setIns s.deadLinks (a * 7 + d)) (b * 7 + backDir d) }
    have there : ∀ t ∈ linkTracks a d, Spec.Idle (v.track t) := forall_mem_linkTracks.2 fun l h => (idle l h).1
    have back : ∀ t ∈ linkTracks b (backDir d), Spec.Idle (v.track t) :=
      forall_mem_linkTracks.2 fun l h => (idle l (lanesOf_backDir hd ▸ h)).2
    obtain ⟨kept, dead⟩ := State.foldl_trackDies there
    obtain ⟨kept', dead'⟩ := State.foldl_trackDies fun t h => kept.idle t (back t h)
    have all := kept.trans kept'
    refine ⟨_, execLinkDeath_eq s hd, all.mem, ?_, ?_, mem_setIns.2 (.inl rfl), fun l h => ⟨?_, ?_⟩⟩
    · exact all.links _ (mem_setIns.2 (.inr (mem_setIns.2 (.inl rfl))))
    · exact all.links _ (mem_setIns.2 (.inl rfl))
    · exact kept'.dead _ (forall_mem_linkTracks.1 dead l h)
    · exact forall_mem_linkTracks.1 dead' l (lanesOf_backDir hd ▸ h)
  case nak =>
    intro p q known nak alone source live
    have known' : State.packet? (State.dropPacket { s with evt := [p.id] } p.id) q.id = some q := by
      have alone' : (State.dropPacket { s with evt := [p.id] } p.id).packets = [(q.id, q)] := alone
      simp [State.packet?, alone']
    have sends := (execUrgentNakResend_eq known nak alone).trans
      (congrArg Host.Outcome.next (State.goOut_eq known' source live))
    exact ⟨_, sends, rfl, congrArg Track.queue (State.track_onTrack ..)⟩

end Sys2Proof.Machine
end

section
/-!
SUPPORT. The bytes of numbers in memory: a part of a number, a byte of a written number, and what zeroing leaves (R2).
-/
namespace Sys2Proof.Machine

/-- Part of the bytes of a number. -/
theorem Memory.readNat_part (m : List Host.Cell) (a : Nat) {n k l : Nat} (h : k + l ≤ n) :
    Memory.readNat m (a + k) l = Memory.readNat m a n / 256 ^ k % 256 ^ l := by
  have byte (b : Nat) : (Memory.read m b).toNat < 256 := (Memory.read m b).isLt
  induction k generalizing a n with
  | zero =>
    rw [Nat.add_zero, Nat.pow_zero, Nat.div_one]
    induction l generalizing a n with
    | zero => simp [Memory.readNat, Nat.mod_one]
    | succ l ih =>
      obtain ⟨n, rfl⟩ : ∃ n', n = n' + 1 := ⟨n - 1, by omega⟩
      rw [Memory.readNat, Memory.readNat, ih (a + 1) (by omega : 0 + l ≤ n), Nat.pow_succ', Nat.mod_mul,
        Nat.add_mul_mod_self_left, Nat.mod_eq_of_lt (byte a), Nat.add_mul_div_left _ _ (by decide : 0 < 256),
        Nat.div_eq_of_lt (byte a), Nat.zero_add]
  | succ k ih =>
    obtain ⟨n, rfl⟩ : ∃ n', n = n' + 1 := ⟨n - 1, by omega⟩
    rw [show a + (k + 1) = a + 1 + k by omega, ih (a + 1) (by omega : k + l ≤ n), Memory.readNat, Nat.pow_succ',
      ← Nat.div_div_eq_div_mul, Nat.add_mul_div_left _ _ (by decide : 0 < 256), Nat.div_eq_of_lt (byte a), Nat.zero_add]

/-- Part of the bytes of a number that has been written. -/
theorem Memory.readNat_writeNat_part {m : List Host.Cell} (w : Memory.wf m = true) (a x : Nat) {n k l : Nat}
    (h : k + l ≤ n) : Memory.readNat (Memory.writeNat m a x n) (a + k) l = x / 256 ^ k % 256 ^ l := by
  obtain ⟨r, rfl⟩ := Nat.exists_eq_add_of_le h
  rw [Memory.readNat_part _ a h, Memory.readNat_writeNat w, Nat.add_assoc, Nat.pow_add, Nat.mod_mul_right_div_self,
    Nat.pow_add, Nat.mod_mul_right_mod]

/-- A byte of a number that has been written. -/
theorem Memory.read_writeNat {m : List Host.Cell} (w : Memory.wf m = true) (a x : Nat) {n i : Nat} (h : i < n) :
    Memory.read (Memory.writeNat m a x n) (a + i) = BitVec.ofNat 8 (x / 256 ^ i) := by
  have part := Memory.readNat_writeNat_part w a x (show i + 1 ≤ n from h)
  apply BitVec.eq_of_toNat_eq
  simpa [Memory.readNat] using part

/-- Dropping the cells of some addresses leaves the others as they are. -/
theorem Memory.read_filter {m : List Host.Cell} (w : Memory.wf m = true) (p : Nat → Bool) (b : Nat) :
    Memory.read (m.filter fun c => p c.1) b = if p b then Memory.read m b else unlisted := by
  unfold Memory.wf at w
  generalize 0 = lo at w
  induction m generalizing lo with
  | nil => simp [Memory.read]
  | cons q r ih =>
    obtain ⟨a, y⟩ := q
    simp only [Memory.wfFrom, Bool.and_eq_true, decide_eq_true_eq] at w
    obtain ⟨-, above⟩ := w
    rcases Nat.lt_trichotomy a b with lt | rfl | gt
    · have skip : Memory.read ((a, y) :: r) b = Memory.read r b := by
        simp [Memory.read, Nat.ne_of_lt lt, Nat.lt_asymm lt]
      rw [skip, ← ih _ above]
      cases ha : p a with
      | true => simp [List.filter, ha, Memory.read, Nat.ne_of_lt lt, Nat.lt_asymm lt]
      | false => simp [List.filter, ha]
    · cases ha : p a with
      | true => simp [List.filter, ha, Memory.read]
      | false => simp [List.filter, ha, Memory.read_below (Memory.filter_wfFrom _ above) (Nat.lt_succ_self a)]
    · have none_ : Memory.read ((a, y) :: r) b = unlisted := by
        simp [Memory.read, Nat.ne_of_gt gt, gt]
      have below_ : Memory.read (((a, y) :: r).filter fun c => p c.1) b = unlisted := by
        have after := Memory.read_below (Memory.filter_wfFrom (fun c => p c.1) above) (Nat.lt_succ_of_lt gt)
        cases ha : p a with
        | true => simp [List.filter, ha, Memory.read, Nat.ne_of_gt gt, gt]
        | false => simpa [List.filter, ha] using after
      rw [none_, below_, ite_self]

/-- Zeroed bytes read as zero, and no other byte changes. -/
theorem State.readByte_zeroMem {s : State} (w : Memory.wf s.mem = true) (a n b : Nat) :
    (s.zeroMem a n).readByte b = if a ≤ b ∧ b < a + n then 0 else s.readByte b := by
  have kept := Memory.read_filter w (fun x => decide (x < a) || decide (a + n ≤ x)) b
  refine kept.trans ?_
  by_cases inside : a ≤ b ∧ b < a + n
  · rw [if_pos inside, if_neg (by simp; omega)]
    rfl
  · rw [if_neg inside, if_pos (by simp; omega)]
    rfl

end Sys2Proof.Machine
end

section
/-!
SUPPORT. The integer sums of the quad array (R96): cutting a row into groups, and sums that no group clamps.
-/
namespace Sys2Proof.Machine

/-- The groups of a list are the list. -/
theorem flatten_groupsOf {α : Type} (n : Nat) (l : List α) (k : Nat) : (groupsOf n l k).flatten = l.take (n * k) := by
  induction k generalizing l with
  | zero => simp [groupsOf]
  | succ k ih =>
    cases l with
    | nil => simp [groupsOf]
    | cons x r => rw [groupsOf, if_neg (by simp), List.flatten_cons, ih, ← List.take_add, Nat.mul_succ, Nat.add_comm]

theorem length_groupsOf_le {α : Type} (n : Nat) (l : List α) (k : Nat) : (groupsOf n l k).length ≤ k := by
  induction k generalizing l with
  | zero => simp [groupsOf]
  | succ k ih =>
    unfold groupsOf
    split
    · simp
    · simpa using ih (l.drop n)

theorem length_le_of_mem_groupsOf {α : Type} {n : Nat} {l g : List α} {k : Nat} (h : g ∈ groupsOf n l k) :
    g.length ≤ n := by
  induction k generalizing l with
  | zero => simp [groupsOf] at h
  | succ k ih =>
    unfold groupsOf at h
    split at h
    · simp at h
    · rcases List.mem_cons.1 h with rfl | h
      · exact List.length_take_le n l
      · exact ih h

theorem mem_of_mem_groupsOf {α : Type} {n : Nat} {l g : List α} {k : Nat} (h : g ∈ groupsOf n l k) {x : α} (hx : x ∈ g) :
    x ∈ l := by
  have whole := List.mem_flatten_of_mem h hx
  rw [flatten_groupsOf] at whole
  exact List.mem_of_mem_take whole

/-- A sum of bounded numbers is bounded. -/
theorem sum_bounds {l : List Int} {b : Int} (h : ∀ x ∈ l, -b ≤ x ∧ x ≤ b) :
    -(l.length * b) ≤ l.sum ∧ l.sum ≤ l.length * b := by
  induction l with
  | nil => simp
  | cons x r ih =>
    obtain ⟨lo, hi⟩ := h x List.mem_cons_self
    obtain ⟨lo', hi'⟩ := ih fun y hy => h y (List.mem_cons_of_mem x hy)
    simp only [List.sum_cons, List.length_cons, Nat.cast_succ, Int.add_mul, Int.one_mul]
    omega

/-- Far from the ends of the range no group clamps. -/
theorem accumulateInt_eq_sum {gs : List Int} {b acc : Int} (sat : Nat) (h : ∀ g ∈ gs, -b ≤ g ∧ g ≤ b) (hb : 0 ≤ b)
    (lo : -(2 ^ 31) ≤ acc - gs.length * b) (hi : acc + gs.length * b ≤ 2 ^ 31 - 1) :
    accumulateInt acc sat gs = (acc + gs.sum, sat) := by
  induction gs generalizing acc with
  | nil => simp [accumulateInt]
  | cons g r ih =>
    obtain ⟨low, high⟩ := h g List.mem_cons_self
    simp only [List.length_cons, Nat.cast_succ, Int.add_mul, Int.one_mul] at lo hi
    have room : 0 ≤ (r.length : Int) * b := Int.mul_nonneg (Int.natCast_nonneg _) hb
    have inside : clampInt (-(2 ^ 31 : Int)) (2 ^ 31 - 1) (acc + g) = (acc + g, false) := by
      rw [clampInt, if_neg (by omega), if_neg (by omega)]
    rw [accumulateInt, inside, List.sum_cons, ← Int.add_assoc]
    exact ih (fun x hx => h x (List.mem_cons_of_mem g hx)) (by omega) (by omega)

/-- The number that an INT8 element is. -/
theorem intOf_opValue_int8 (x : BitVec 8) : intOf (opValue .int8 x.toNat) = x.toInt := by
  have value : opValue .int8 x.toNat = intValue x.toInt := congrArg intValue (sv_toNat (by decide) x)
  rw [value, intValue, intOf]
  simp only [decide_eq_true_eq]
  split <;> omega

/-- A product of two INT8 elements. -/
theorem int8_product_bounds (x y : BitVec 8) : -16384 ≤ x.toInt * y.toInt ∧ x.toInt * y.toInt ≤ 16384 := by
  have hx := x.toInt_lt
  have hx' := x.le_toInt
  have hy := y.toInt_lt
  have hy' := y.le_toInt
  norm_num at hx hx' hy hy'
  constructor <;> nlinarith

/-- The product that a pair of INT8 elements adds to its group. -/
def int8Product (p : (Fv × Nat) × (Fv × Nat)) : Int := intOf p.1.1 * intOf p.2.1

/-- An INT8 element by its group sums. -/
theorem mmaElem_int8 (a b : List (Fv × Nat)) (acc : BitVec 32) :
    mmaElem .int8 a b acc.toNat =
      let r := accumulateInt acc.toInt 0 ((groupsOf 32 (List.zip a b) 9).map fun g => (g.map int8Product).sum)
      ((BitVec.ofInt 32 r.1).toNat, { sat := r.2 }) := by
  have sums : ((groupsOf 32 (List.zip a b) 9).map fun g => (g.map fun p => intOf p.1.1 * intOf p.2.1).foldl (· + ·) 0) =
      (groupsOf 32 (List.zip a b) 9).map fun g => (g.map int8Product).sum :=
    List.map_congr_left fun g _ => List.sum_eq_foldl.symm
  simp only [mmaElem, ← toBits_ofInt, ← sv_toNat (by decide : 0 < 32) acc, ← sums]
  rfl

/-- 256 pairs of INT8 elements as a multiply takes them. -/
def int8Row (f : Nat → BitVec 8) : List (Fv × Nat) := (List.range 256).map fun i => (opValue .int8 (f i).toNat, 127)

theorem map_int8Product_zip (x y : Nat → BitVec 8) :
    (List.zip (int8Row x) (int8Row y)).map int8Product = (List.range 256).map fun i => (x i).toInt * (y i).toInt := by
  simp only [int8Row, List.zip_map', List.map_map]
  exact List.map_congr_left fun i _ => congrArg₂ (· * ·) (intOf_opValue_int8 (x i)) (intOf_opValue_int8 (y i))

/-- Each group of 32 products, and the sum of the groups. -/
theorem int8_groups (x y : Nat → BitVec 8) :
    let gs := (groupsOf 32 (List.zip (int8Row x) (int8Row y)) 9).map fun g => (g.map int8Product).sum
    gs.length ≤ 9 ∧ (∀ g ∈ gs, -(2 ^ 19 : Int) ≤ g ∧ g ≤ 2 ^ 19) ∧
      gs.sum = ((List.range 256).map fun i => (x i).toInt * (y i).toInt).sum := by
  have product : ∀ p ∈ List.zip (int8Row x) (int8Row y), -16384 ≤ int8Product p ∧ int8Product p ≤ 16384 := by
    intro p hp
    have listed := List.mem_map_of_mem (f := int8Product) hp
    rw [map_int8Product_zip] at listed
    obtain ⟨i, -, eq⟩ := List.mem_map.1 listed
    exact eq ▸ int8_product_bounds (x i) (y i)
  refine ⟨?_, fun s hs => ?_, ?_⟩
  · rw [List.length_map]
    exact length_groupsOf_le ..
  · obtain ⟨g, hg, rfl⟩ := List.mem_map.1 hs
    have few := length_le_of_mem_groupsOf hg
    obtain ⟨lo, hi⟩ := sum_bounds (l := g.map int8Product) (b := 16384) fun z hz => by
      obtain ⟨p, hp, rfl⟩ := List.mem_map.1 hz
      exact product p (mem_of_mem_groupsOf hg hp)
    rw [List.length_map] at lo hi
    omega
  · have all : (groupsOf 32 (List.zip (int8Row x) (int8Row y)) 9).flatten = List.zip (int8Row x) (int8Row y) := by
      rw [flatten_groupsOf, List.take_of_length_le (by simp [int8Row])]
    have total := congrArg (fun l => (l.map int8Product).sum) all
    rw [List.map_flatten, List.sum_flatten, List.map_map, map_int8Product_zip] at total
    exact total

/-- The sum of R96 when no group clamps. -/
theorem matrixIntegerSums : Spec.MatrixIntegerSums := by
  intro x y acc lo hi
  obtain ⟨few, bounds, total⟩ := int8_groups x y
  have sums := accumulateInt_eq_sum (acc := acc.toInt) 0 bounds (by decide) (by omega) (by omega)
  refine (mmaElem_int8 (int8Row x) (int8Row y) acc).trans ?_
  simp only [sums, total, BitVec.ofInt_add, BitVec.ofInt_toInt]
  rfl

end Sys2Proof.Machine
end

section
/-!
SUPPORT. What the end of a matrix operation leaves alone: the slots and the inbox go on, memory stays as it is, and no queue of
matrix operations grows (R228, R239).
-/
namespace Sys2Proof.Machine

/-- Memory is as it was, and a core's matrix queue holds no operation that it did not hold. -/
structure State.Keeps (c : Nat) (s u : State) : Prop where
  mem : u.mem = s.mem
  queue : (u.core c).matQ ⊆ (s.core c).matQ

namespace State.Keeps
variable {c : Nat}

theorem refl (s : State) : s.Keeps c s := ⟨rfl, fun _ => id⟩
theorem trans {s u v : State} (a : s.Keeps c u) (b : u.Keeps c v) : s.Keeps c v :=
  ⟨b.mem.trans a.mem, fun _ h => a.queue (b.queue h)⟩

theorem foldl {α : Type} {g : State → α → State} (each : ∀ (s : State) x, s.Keeps c (g s x)) (l : List α) (s : State) :
    s.Keeps c (l.foldl g s) := by
  induction l generalizing s with
  | nil => exact refl s
  | cons x r ih => exact (each s x).trans (ih _)

theorem ite {p : Prop} [Decidable p] {s u v : State} (a : s.Keeps c u) (b : s.Keeps c v) :
    s.Keeps c (if p then u else v) := by
  split
  · exact a
  · exact b

/-! Updates of the state. -/

/-- An update that leaves memory and the cores alone. -/
theorem of_eq {s u : State} (mem : u.mem = s.mem) (cores : u.cores = s.cores) : s.Keeps c u := by
  refine ⟨mem, fun o h => ?_⟩
  rwa [State.core, cores] at h

theorem onCore (s : State) (d : Nat) {f : Core → Core} (h : ∀ k, (f k).matQ ⊆ k.matQ) : s.Keeps c (s.onCore d f) := by
  refine ⟨rfl, ?_⟩
  by_cases same : c = d
  · subst same
    rw [State.core_onCore]
    exact h _
  · rw [State.core_onCore_ne s same]
    exact fun _ => id

/-- A change of a core that leaves its matrix queue alone. -/
theorem onCore_eq (s : State) (d : Nat) {f : Core → Core} (h : ∀ k, (f k).matQ = k.matQ := by exact fun _ => rfl) :
    s.Keeps c (s.onCore d f) :=
  onCore s d fun k => (h k) ▸ fun _ => id

theorem setSlot (s : State) (d n : Nat) (x : Slot) : s.Keeps c (s.setSlot d n x) := onCore_eq s d
theorem onSlot (s : State) (d n : Nat) (f : Slot → Slot) : s.Keeps c (s.onSlot d n f) := setSlot s d n _
theorem onTrap (s : State) (d : Nat) (f : TrapState → TrapState) : s.Keeps c (s.onTrap d f) := onCore_eq s d
theorem now (s : State) (e : Instr) (l : List Nat) : s.Keeps c (s.now e l) := of_eq rfl rfl
theorem onGroup (s : State) (d b : Nat) (f : Group → Group) : s.Keeps c (s.onGroup d b f) := by
  unfold State.onGroup
  split
  · exact onCore_eq s d
  · exact refl s

/-! Slots that stop, go on or complete. -/

theorem freeHolder (s : State) (d h : Nat) : s.Keeps c (s.freeHolder d h) := onCore_eq s d
theorem rejoin (s : State) (d n : Nat) : s.Keeps c (s.rejoin d n) := by
  unfold State.rejoin
  exact onSlot ..
theorem foldl_rejoin (p : State → Nat → Bool) (d : Nat) (l : List Nat) (s : State) :
    s.Keeps c (l.foldl (fun s n => if p s n then s.rejoin d n else s) s) :=
  foldl (fun u n => ite (rejoin u d n) (refl u)) l s

theorem pokeAgain (s : State) (d : Nat) (why : Why) : s.Keeps c (s.pokeAgain d why) := by
  unfold State.pokeAgain
  exact ite ((foldl_rejoin _ d _ s).trans (onCore_eq _ d)) (foldl_rejoin _ d _ s)

theorem endHolder (s : State) (d h : Nat) : s.Keeps c (s.endHolder d h) := (freeHolder s d h).trans (pokeAgain ..)

theorem dropAwaited (s : State) (d n : Nat) : s.Keeps c (s.dropAwaited d n) := by
  unfold State.dropAwaited
  exact (foldl (fun u (o : MatOp) => freeHolder u d o.num) _ s).trans (onCore _ d fun _ => List.filter_subset_self _)

/-- A slot stops for a trap, and with it the other copy of its pair. -/
theorem stopPair (s : State) (d n k : Nat) (x : Slot) (f : Slot → Slot) (mate : Option Nat) :
    s.Keeps c (match mate with
      | some m => ((s.setSlot d n x).onSlot d m f).dropAwaited d k
      | none => s.setSlot d n x) := by
  cases mate with
  | none => exact setSlot ..
  | some m => exact ((setSlot ..).trans (onSlot ..)).trans (dropAwaited ..)

theorem raiseAt (s : State) (d n cause addr value resume : Nat) (noResume : Bool) :
    s.Keeps c (s.raiseAt d n cause addr value resume noResume) := by
  unfold State.raiseAt
  dsimp only
  refine ite ((rejoin s d n).trans (onSlot ..)) ?_
  cases (s.slot d n).hold with
  | none => exact ite (ite (now ..) ((setSlot ..).trans (now ..))) ((stopPair ..).trans (onTrap ..))
  | some h =>
    exact (freeHolder s d h).trans (ite (ite (now ..) ((setSlot ..).trans (now ..))) ((stopPair ..).trans (onTrap ..)))

theorem stepped (s : State) (d n start next : Nat) : s.Keeps c (s.stepped d n start next) :=
  ite (raiseAt ..) (refl s)

/-! Registers. -/

theorem share (s : State) (d : Nat) (w : ShWrite) : s.Keeps c (s.share d w) := onCore_eq s d
theorem putGprAt (s : State) (d n : Nat) (r : Gpr) (x : Word) (clock : Nat) : s.Keeps c (s.putGprAt d n r x clock) :=
  ite (refl s) (ite (onSlot ..) (share ..))
theorem putVecAt (s : State) (d n : Nat) (r : Vr) (x : Vec) (clock : Nat) (lanes : Pred) :
    s.Keeps c (s.putVecAt d n r x clock lanes) := ite (onSlot ..) (share ..)
theorem putPredAt (s : State) (d n : Nat) (r : Pr) (x : Pred) : s.Keeps c (s.putPredAt d n r x) := ite (refl s) (onSlot ..)

theorem putFieldVal (s : State) (d n : Nat) (x : Nat × Nat × Nat) : s.Keeps c (s.putFieldVal d n x) := by
  unfold State.putFieldVal
  split
  · exact putGprAt ..
  · exact onSlot ..
  · exact putPredAt ..
  · exact onSlot ..

/-! Completing an instruction. -/

theorem takeValue (s : State) (d n : Nat) (e : PairVal) (x : Chain) (done : Nat) :
    s.Keeps c (s.takeValue d n e x done) :=
  ((foldl (fun u y => putFieldVal u d n y) _ s).trans (onSlot ..)).trans (stepped ..)

/-- A leading copy's results go to its trailing copy, or into the queue. -/
theorem handOver (s : State) (d n k done : Nat) (x : Slot) (f : Slot → Slot) (e : PairVal) (joined : Option Chain) :
    s.Keeps c (match joined with
      | some y => (s.setSlot d n x).takeValue d k e y done
      | none => (s.setSlot d n x).onSlot d n f) := by
  cases joined with
  | none => exact (setSlot ..).trans (onSlot ..)
  | some y => exact (setSlot ..).trans (takeValue ..)

theorem leadDone (s : State) (d n : Nat) : s.Keeps c (s.leadDone d n) := by
  unfold State.leadDone
  dsimp only
  cases (s.slot d n).doing with
  | none => exact refl s
  | some i => exact handOver ..

theorem retireAt (s : State) (d n start next : Nat) : s.Keeps c (s.retireAt d n start next) :=
  (onSlot ..).trans (ite (leadDone ..) (stepped ..))

/-! The inbox (R253–R261). -/

theorem reserve (s : State) (d taker what num : Nat) : s.Keeps c (s.reserve d taker what num) := onCore_eq s d
theorem release (s : State) (d what num : Nat) : s.Keeps c (s.release d what num) := onCore_eq s d

theorem unpark (s : State) (d : Nat) : s.Keeps c (s.unpark d) := by
  unfold State.unpark
  refine foldl (fun u _ => ?_) _ s
  exact ite (refl u) ((onGroup ..).trans (onCore_eq _ d))

theorem takeEntry (s : State) (d : Nat) (e : Entry) : s.Keeps c (s.takeEntry d e) := by
  unfold State.takeEntry
  dsimp only
  refine trans ?_ (unpark ..)
  exact ite ((onCore_eq s d).trans (reserve ..)) (onCore_eq s d)

theorem send (s : State) (src dst cls flits : Nat) (launch : Option Nat) (body : Body) :
    s.Keeps c (s.send src dst cls flits launch body) := by
  unfold State.send State.sendPkt State.inject
  exact ite (of_eq rfl rfl) (of_eq rfl rfl)

theorem queryWriter (s : State) (d ref w : Nat) (acct : Option Nat) : s.Keeps c (s.queryWriter d ref w acct) := send ..

theorem beginAcquire (s : State) (d ref scope : Nat) (writers : List Nat) :
    s.Keeps c (s.beginAcquire d ref scope writers) := by
  unfold State.beginAcquire
  refine trans (onCore_eq s d) (foldl (fun u _ => ?_) _ _)
  exact queryWriter ..

theorem afterTake (s : State) (d n : Nat) (e : Entry) (start next : Nat) : s.Keeps c (s.afterTake d n e start next) := by
  unfold State.afterTake
  dsimp only
  split
  · refine trans (u := { s with pktNum := s.pktNum + 1 }) (of_eq rfl rfl) ?_
    split
    · exact retireAt ..
    · exact (onSlot ..).trans (beginAcquire ..)
  · refine trans ?_ (retireAt ..)
    split
    · exact onCore_eq s d
    · exact refl s

theorem recvTake (s : State) (d n : Nat) (r : Gpr) (a : Option Vr) (e : Entry) (start next clock : Nat) :
    s.Keeps c (s.recvTake d n r a e start next clock) := by
  unfold State.recvTake
  dsimp only
  refine trans ?_ (afterTake ..)
  cases a with
  | none => exact (takeEntry s d e).trans (putGprAt ..)
  | some v => exact ((takeEntry s d e).trans (putGprAt ..)).trans (putVecAt ..)

theorem joinTake (s : State) (d n : Nat) (r : Gpr) (e : Entry) (start next clock : Nat) :
    s.Keeps c (s.joinTake d n r e start next clock) :=
  ((takeEntry s d e).trans (putGprAt ..)).trans (afterTake ..)

/-- What a slot parked for the inbox does when its reason is satisfied. -/
theorem inboxStep {s : State} {d n : Nat} {f : State → State} (h : s.inboxStep d n = some f) (u : State) :
    u.Keeps c (f u) := by
  unfold State.inboxStep at h
  dsimp only at h
  split at h
  · cases h
  · split at h
    · obtain ⟨e, -, rfl⟩ := Option.map_eq_some_iff.1 h
      exact recvTake ..
    · obtain ⟨e, -, rfl⟩ := Option.map_eq_some_iff.1 h
      exact joinTake ..
    · split at h
      · cases h
        exact (onSlot ..).trans (retireAt ..)
      · cases h
    · cases h

theorem serveInbox (s : State) (d fuel : Nat) : s.Keeps c (s.serveInbox d fuel) := by
  induction fuel generalizing s with
  | zero => exact refl s
  | succ fuel ih =>
    unfold State.serveInbox
    dsimp only
    split
    · exact refl s
    · next n _ =>
      refine ite ((onSlot ..).trans (ih _)) ?_
      split
      · next f step =>
        refine trans (trans (trans ?_ (onSlot _ d n _)) (inboxStep step _)) (ih _)
        split
        · exact onSlot ..
        · exact refl s
      · exact refl s

theorem fillInbox (s : State) (d : Nat) (e : Entry) : s.Keeps c (s.fillInbox d e) := by
  unfold State.fillInbox
  exact trans (onCore_eq s d) (serveInbox ..)

theorem fillReserved (s : State) (d what num : Nat) (e : Entry) : s.Keeps c (s.fillReserved d what num e) := by
  unfold State.fillReserved
  exact ite ((release ..).trans (fillInbox ..)) (refl s)

end State.Keeps

/-- An operation that has been performed has left its queue, and memory is as it was. -/
theorem State.matDone_spec (s : State) (c : Nat) (o : MatOp) :
    (s.matDone c o).mem = s.mem ∧ ∀ x ∈ ((s.matDone c o).core c).matQ, x.num ≠ o.num := by
  let v := s.onCore c fun k => { k with matQ := k.matQ.filter fun x => x.num != o.num, headBusy := false }
  have kept : v.Keeps c (s.matDone c o) :=
    (State.Keeps.endHolder v c o.num).trans (.ite (.fillReserved ..) (.refl _))
  refine ⟨kept.mem, fun x hx => ?_⟩
  have left := kept.queue hx
  rw [State.core_onCore] at left
  simpa using (List.mem_filter.1 left).2

end Sys2Proof.Machine
end

section
/-!
SUPPORT. The quad arrays at work: what a grant, a performed operation and a chunk of a tile store do (R21, R230, R239–R242).
-/
namespace Sys2Proof.Machine

/-! Reading after writing, and what accounts leave alone. -/

@[simp] theorem State.quad_onQuad (s : State) (q : Nat) (f : Quad → Quad) : (s.onQuad q f).quad q = f (s.quad q) := by
  simp [State.onQuad, State.quad]

/-- What an update of a core keeps of every core it keeps of each. -/
theorem State.core_onCore_keep {α : Type} (s : State) (c : Nat) {f : Core → Core} {g : Core → α}
    (keep : ∀ k, g (f k) = g k) (c' : Nat) : g ((s.onCore c f).core c') = g (s.core c') := by
  by_cases h : c' = c
  · subst h
    rw [State.core_onCore, keep]
  · rw [State.core_onCore_ne s h]

@[simp] theorem State.charge_mem (s : State) (a : Option Nat) (pj : Nat) : (s.charge a pj).mem = s.mem :=
  (congrArg State.mem (s.charge_frame a pj) :)
@[simp] theorem State.charge_cycle (s : State) (a : Option Nat) (pj : Nat) : (s.charge a pj).cycle = s.cycle :=
  (congrArg State.cycle (s.charge_frame a pj) :)
@[simp] theorem State.charge_quad (s : State) (a : Option Nat) (pj q : Nat) : (s.charge a pj).quad q = s.quad q :=
  (congrArg (State.quad · q) (s.charge_frame a pj) :)
@[simp] theorem State.count_waiters (s : State) (c' i n c : Nat) : ((s.count c' i n).core c).waiters = (s.core c).waiters :=
  State.core_onCore_keep s c' (g := Core.waiters) (by exact fun _ => rfl) c
@[simp] theorem State.charge_waiters (s : State) (a : Option Nat) (pj c : Nat) :
    ((s.charge a pj).core c).waiters = (s.core c).waiters := by
  unfold State.charge
  cases a with
  | none => rfl
  | some a =>
    dsimp only
    split
    · rw [State.core_onCore_keep _ _ (g := Core.waiters) (by exact fun _ => rfl), State.count_waiters]
    · exact s.count_waiters ..

/-! Grants (R21, R230). -/

/-- An idle array takes the one member that is ready. -/
theorem execMatrixGrant_one {s : State} {q c : Nat} {o : MatOp} (names : s.arg 0 = q)
    (ready : ((s.grantOrder q).filterMap fun c => (s.matReady c).map fun o => (c, o)) = [(c, o)])
    (idle : (s.quad q).until_ ≤ s.cycle) (paid : 16 * o.busy ≤ s.credits q) :
    execMatrixGrant s = .next (((s.onQuad q fun x =>
      { x with last := memberOf (posCore c), short := none, until_ := s.cycle + o.busy, running := some (c, o.num)
               credits := s.credits q - 16 * o.busy, creditClock := s.cycle }).charge o.launch (7800 * o.busy)).after o.busy
        .matrixPerform [q]) := by
  simp only [execMatrixGrant, names, ready, Nat.not_lt.2 idle, Nat.not_lt.2 paid, if_false, List.foldl_nil]

/-! Multiplies (R239). -/

/-- An operand row of a multiply: of a buffer's data and scale areas. -/
def State.mmaRow (s : State) (c : Nat) (f : MFmt) (mx : Bool) (n r : Nat) : List (Fv × Nat) :=
  operandRow f mx (s.readMem (bufLoc c n 0) 16384) (s.readMem (bufLoc c n 16384) 2048) r (mshape f).k

/-- The elements of a multiply, row by row, over the number that the accumulator holds. -/
def State.mmaOut (s : State) (c : Nat) (o : MatOp) (mx ovr : Bool) (d a b : Nat) : List (Nat × Fl) :=
  let sz := accBytes o.fmt
  let accs := s.readMem (accAt c d o.shadow) ((mshape o.fmt).m * (mshape o.fmt).n * sz)
  (below (mshape o.fmt).m).flatMap fun i =>
    (List.zip (below (mshape o.fmt).n) ((below (mshape o.fmt).n).map fun j => s.mmaRow c o.fmt mx b j)).map fun p =>
      mmaElem o.fmt (s.mmaRow c o.fmt mx a i) p.2
        (if ovr then 0 else accs / 256 ^ ((i * (mshape o.fmt).n + p.1) * sz) % 256 ^ sz)

theorem State.mmaOut_congr {s u : State} (h : u.mem = s.mem) (c : Nat) (o : MatOp) (mx ovr : Bool) (d a b : Nat) :
    u.mmaOut c o mx ovr d a b = s.mmaOut c o mx ovr d a b := by
  simp only [State.mmaOut, State.mmaRow, State.readMem, h]

theorem State.meetFaults_mem (s : State) (c loc n : Nat) : (s.meetFaults c loc n).mem = s.mem := by
  unfold State.meetFaults
  dsimp only
  split <;> rfl

/-- A multiply writes its elements over the accumulator, and no other memory. -/
theorem State.performMma_mem (s : State) (c : Nat) (o : MatOp) (mx ovr : Bool) (d a b : Nat) :
    (s.performMma c o mx ovr d a b).mem = Memory.writeNat s.mem (accAt c d o.shadow)
      (packElems (8 * accBytes o.fmt) ((s.mmaOut c o mx ovr d a b).map (·.1)))
      ((mshape o.fmt).m * (mshape o.fmt).n * accBytes o.fmt) := by
  let v := ((s.meetFaults c (bufLoc c a 0) bufBytes).meetFaults c (bufLoc c b 0) bufBytes).meetFaults c
    (accAt c d o.shadow) 16384
  have mem : v.mem = s.mem :=
    ((State.meetFaults_mem ..).trans (State.meetFaults_mem ..)).trans (State.meetFaults_mem ..)
  have written : (s.performMma c o mx ovr d a b).mem = Memory.writeNat v.mem (accAt c d o.shadow)
      (packElems (8 * accBytes o.fmt) ((v.mmaOut c o mx ovr d a b).map (·.1)))
      ((mshape o.fmt).m * (mshape o.fmt).n * accBytes o.fmt) := rfl
  rw [written, State.mmaOut_congr mem, mem]

/-- Lists of one length, one after another: the elements of each. -/
theorem getElem?_flatMap_upFrom {α : Type} {f : Nat → List α} {m n i j : Nat} (len : ∀ i, (f i).length = n) (lo : Nat)
    (hi : i < m) (hj : j < n) : ((upFrom lo m).flatMap f)[i * n + j]? = (f (lo + i))[j]? := by
  induction m generalizing lo i with
  | zero => omega
  | succ m ih =>
    rw [upFrom, List.flatMap_cons]
    cases i with
    | zero => rw [Nat.zero_mul, Nat.zero_add, List.getElem?_append_left (len lo ▸ hj), Nat.add_zero]
    | succ i =>
      have skip : (i + 1) * n + j = (f lo).length + (i * n + j) := by rw [len, Nat.succ_mul]; omega
      rw [skip, List.getElem?_append_right (Nat.le_add_right ..), Nat.add_sub_cancel_left, ih (lo + 1) (by omega)]
      congr 2
      omega

theorem getElem?_flatMap_below {α : Type} {f : Nat → List α} {m n i j : Nat} (len : ∀ i, (f i).length = n) (hi : i < m)
    (hj : j < n) : ((below m).flatMap f)[i * n + j]? = (f i)[j]? := by
  rw [below, getElem?_flatMap_upFrom len 0 hi hj, Nat.zero_add]

/-- An element lies within the accumulator's rows. -/
theorem accInside {i j m n z : Nat} (hi : i < m) (hj : j < n) : (i * n + j) * z + z ≤ m * n * z := by
  rw [← Nat.succ_mul]
  refine Nat.mul_le_mul_right _ ?_
  calc i * n + j + 1 ≤ i * n + n := Nat.add_le_add_left hj _
    _ = (i + 1) * n := (Nat.succ_mul ..).symm
    _ ≤ m * n := Nat.mul_le_mul_right _ hi

/-- Element (i, j) of a multiply. -/
theorem State.mmaOut_getElem? (s : State) (c : Nat) (o : MatOp) (mx ovr : Bool) (d a b : Nat) {i j : Nat}
    (hi : i < (mshape o.fmt).m) (hj : j < (mshape o.fmt).n) :
    let at_ := (i * (mshape o.fmt).n + j) * accBytes o.fmt
    (s.mmaOut c o mx ovr d a b)[i * (mshape o.fmt).n + j]? =
      some (mmaElem o.fmt (s.mmaRow c o.fmt mx a i) (s.mmaRow c o.fmt mx b j)
        (if ovr then 0 else s.readMem (accAt c d o.shadow + at_) (accBytes o.fmt))) := by
  intro at_
  have old : s.readMem (accAt c d o.shadow + at_) (accBytes o.fmt) =
      s.readMem (accAt c d o.shadow) ((mshape o.fmt).m * (mshape o.fmt).n * accBytes o.fmt) / 256 ^ at_ %
        256 ^ accBytes o.fmt := Memory.readNat_part s.mem _ (accInside hi hj)
  rw [State.mmaOut, getElem?_flatMap_below (fun i => by simp) hi hj, old]
  simp [List.getElem?_zip_eq_some, below_getElem? hj, at_]

/-- The number that a multiply leaves at an element of the accumulator. -/
theorem State.readMem_performMma {s : State} (w : Memory.wf s.mem = true) (c : Nat) (o : MatOp) (mx ovr : Bool) (d a b : Nat)
    {i j : Nat} (hi : i < (mshape o.fmt).m) (hj : j < (mshape o.fmt).n) :
    let at_ := accAt c d o.shadow + (i * (mshape o.fmt).n + j) * accBytes o.fmt
    (s.performMma c o mx ovr d a b).readMem at_ (accBytes o.fmt) =
      (mmaElem o.fmt (s.mmaRow c o.fmt mx a i) (s.mmaRow c o.fmt mx b j)
        (if ovr then 0 else s.readMem at_ (accBytes o.fmt))).1 % 256 ^ accBytes o.fmt := by
  intro at_
  have width : ∀ k, (256 : Nat) ^ k = 2 ^ (8 * k) := fun k => (Nat.pow_mul 2 8 k).symm
  have place : ∀ k z, (256 : Nat) ^ (k * z) = 2 ^ (8 * z * k) := fun k z => by rw [width]; congr 1; ring
  rw [State.readMem, State.performMma_mem, Memory.readNat_writeNat_part w _ _ (accInside hi hj), place, width, packElems_elem]
  simp [s.mmaOut_getElem? c o mx ovr d a b hi hj, at_]

/-- The running operation of a core that is not contained is performed. -/
theorem execMatrixPerform_running {s : State} {q c : Nat} {o : MatOp} (names : s.arg 0 = q)
    (running : (s.quad q).running = some (c, o.num)) (queued : (s.core c).matQ.find? (fun x => x.num == o.num) = some o)
    (free : (s.core c).contained = false) :
    execMatrixPerform s = .next ((s.onQuad q fun x => { x with running := none }).matPerform c o) := by
  have queued' : ((s.onQuad q fun x => { x with running := none }).core c).matQ.find? (fun x => x.num == o.num) = some o :=
    queued
  have free' : ((s.onQuad q fun x => { x with running := none }).core c).contained = false := free
  simp only [execMatrixPerform, names, running, queued', free', Bool.false_eq_true, if_false]

/-! Chunks of a tile store (R242). -/

theorem pieceCells_getElem? (out : List Host.Cell) (p : Piece) {i : Nat} (h : i < p.n) :
    (pieceCells out p)[i]? = some (p.addr + i, ((out[p.key + i]?).map (·.2)).getD 0) := by
  simp [pieceCells, below_getElem? h]

/-- A byte of the number that cells hold. -/
theorem cellsNat_byte (cs : List Host.Cell) (i : Nat) :
    BitVec.ofNat 8 (cellsNat cs / 256 ^ i) = ((cs[i]?).map (·.2)).getD 0 := by
  induction cs generalizing i with
  | nil => simp [cellsNat]
  | cons x r ih =>
    have low : x.2.toNat < 256 := x.2.isLt
    cases i with
    | zero =>
      apply BitVec.eq_of_toNat_eq
      simp [cellsNat, Nat.add_mul_mod_self_left, low]
    | succ i =>
      rw [cellsNat, Nat.pow_succ', ← Nat.div_div_eq_div_mul, Nat.add_mul_div_left _ _ (by decide : 0 < 256),
        Nat.div_eq_of_lt low, Nat.zero_add, ih]
      rfl

/-- The scratchpad's bytes after some pieces of a tile store have been written. -/
def piecesWritten (c : Nat) (out : List Host.Cell) (m : List Host.Cell) (ps : List Piece) : List Host.Cell :=
  ps.foldl (fun m p => Memory.writeNat m (scratchLoc c p.addr) (cellsNat (pieceCells out p)) p.n) m

/-- Bytes of no piece stay as they are. -/
theorem read_piecesWritten_of_outside {c : Nat} {out : List Host.Cell} {ps : List Piece} : ∀ {m : List Host.Cell},
    Memory.wf m = true → ∀ {a : Nat}, (∀ p ∈ ps, ¬(scratchLoc c p.addr ≤ a ∧ a < scratchLoc c p.addr + p.n)) →
      Memory.read (piecesWritten c out m ps) a = Memory.read m a := by
  induction ps with
  | nil => exact fun _ _ _ => rfl
  | cons p r ih =>
    intro m w a outside
    obtain ⟨first, rest⟩ := List.forall_mem_cons.1 outside
    exact (ih (Memory.writeNat_wf w _ _ _) rest).trans (Memory.read_writeNat_of_ne w _ (by omega))

/-- A byte of a piece that the others do not meet is the piece's, once it has been written. -/
theorem read_piecesWritten {c : Nat} {out : List Host.Cell} {p : Piece} {i : Nat} (hi : i < p.n) {ps : List Piece} :
    ∀ {m : List Host.Cell}, Memory.wf m = true →
      (∀ r ∈ ps, r = p ∨ r.addr + r.n ≤ p.addr ∨ p.addr + p.n ≤ r.addr) →
      (p ∈ ps ∨ Memory.read m (scratchLoc c (p.addr + i)) = ((out[p.key + i]?).map (·.2)).getD 0) →
      Memory.read (piecesWritten c out m ps) (scratchLoc c (p.addr + i)) = ((out[p.key + i]?).map (·.2)).getD 0 := by
  have place : scratchLoc c (p.addr + i) = scratchLoc c p.addr + i := by simp only [scratchLoc, Nat.add_assoc]
  induction ps with
  | nil => exact fun _ _ done => done.resolve_left List.not_mem_nil
  | cons r rest ih =>
    intro m w apart done
    obtain ⟨first, others⟩ := List.forall_mem_cons.1 apart
    refine ih (Memory.writeNat_wf w _ _ _) others ?_
    by_cases same : r = p
    · subst same
      right
      rw [place, Memory.read_writeNat w _ _ hi, cellsNat_byte, pieceCells_getElem? out r hi]
      rfl
    · refine done.imp (fun listed => (List.mem_cons.1 listed).resolve_left (Ne.symm same)) fun before => ?_
      have clear := first.resolve_left same
      rw [Memory.read_writeNat_of_ne w _ (by simp only [scratchLoc]; omega), before]

/-- A write of a scratchpad where nothing waits wakes nothing. -/
theorem State.wakeRange_scratch {s : State} {c : Nat} (none_ : (s.core c).waiters = []) (a n : Nat) :
    s.wakeRange (.scratch c a) n = s := by
  have waiters : s.waitersAt (.scratch c a) = [] := none_
  simp [State.wakeRange, waiters]

/-- A piece goes into the scratchpad at its charge. -/
def State.putPiece (s : State) (c : Nat) (o : MatOp) (out : List Host.Cell) (p : Piece) : State :=
  (s.writeMem (scratchLoc c p.addr) (cellsNat (pieceCells out p)) p.n).charge o.launch (3 * ((p.n + 15) / 16))

/-- A chunk for a scratchpad where nothing waits writes its pieces in order. -/
theorem State.writeChunk_scratch {c : Nat} (o : MatOp) (obj gen : Nat) (out : List Host.Cell) {ps : List Piece} :
    ∀ {s : State}, (s.core c).waiters = [] →
      s.writeChunk c o 1 obj gen ps out false = (ps.foldl (fun s p => s.putPiece c o out p) s, 0) := by
  induction ps with
  | nil => exact fun _ => rfl
  | cons p r ih =>
    intro s none_
    have kept : ((s.putPiece c o out p).core c).waiters = [] := by
      rw [State.putPiece, State.charge_waiters]
      exact none_
    have one : s.writeChunk c o 1 obj gen (p :: r) out false =
        ((s.putPiece c o out p).wakeRange (.scratch c p.addr) p.n).writeChunk c o 1 obj gen r out false := rfl
    rw [one, State.wakeRange_scratch kept, ih kept]
    rfl

theorem State.foldl_putPiece (c : Nat) (o : MatOp) (out : List Host.Cell) (ps : List Piece) (s : State) :
    (ps.foldl (fun s p => s.putPiece c o out p) s).mem = piecesWritten c out s.mem ps ∧
      (ps.foldl (fun s p => s.putPiece c o out p) s).cycle = s.cycle := by
  induction ps generalizing s with
  | nil => exact ⟨rfl, rfl⟩
  | cons p r ih =>
    obtain ⟨mem, cycle⟩ := ih (s.putPiece c o out p)
    have first : (s.putPiece c o out p).mem =
        Memory.writeNat s.mem (scratchLoc c p.addr) (cellsNat (pieceCells out p)) p.n := by
      rw [State.putPiece, State.charge_mem]
      rfl
    refine ⟨mem.trans (by rw [first]; rfl), cycle.trans ?_⟩
    rw [State.putPiece, State.charge_cycle]
    rfl

/-- The next chunk of a tile store to the scratchpad, of copies that agree. -/
theorem execTstChunkWrite_scratch {s : State} {c k acks d obj gen off : Nat} {out : List Host.Cell} {o : MatOp}
    {ps : List Piece} (names : s.arg 0 = c) (tst : (s.core c).tst = some (k, acks, out, out))
    (early : s.isLate c .tile = false) (head : (s.core c).accepted.head? = some o) (kind : o.kind = .tst d 1 obj gen off ps)
    (agrees : o.agrees = some true) (none_ : (s.core c).waiters = []) (more : 2048 * k < out.length) :
    execTstChunkWrite s = .next ((((ps.filter fun p => p.key / 2048 == k).foldl (fun s p => s.putPiece c o out p) s).onCore c
      fun x => { x with tst := some (k + 1, acks, out, out) }).after 8 .tstChunkWrite [c]) := by
  obtain ⟨l, accepted⟩ := List.head?_eq_some_iff.1 head
  simp [execTstChunkWrite, names, tst, accepted, kind, early, agrees, Nat.not_le.2 more, State.writeChunk_scratch, none_]

/-- R21, R230, R239, R240, R242. -/
theorem matrixGrants : Spec.MatrixGrants := by
  intro s q c o g sh sz
  refine ⟨fun ready idle paid => ?grant, ?perform, ?chunk⟩
  case grant =>
    let v : State := (g.onQuad q fun x => { x with
      last := memberOf (posCore c), short := none, until_ := s.cycle + o.busy, running := some (c, o.num)
      credits := s.credits q - 16 * o.busy, creditClock := s.cycle }).charge o.launch (7800 * o.busy)
    have quad : (v.after o.busy .matrixPerform [q]).quad q = _ := (State.charge_quad ..).trans (State.quad_onQuad ..)
    have due := v.mem_pending_after o.busy .matrixPerform [q]
    rw [State.charge_cycle] at due
    exact ⟨_, execMatrixGrant_one (s := g) rfl ready idle paid, congrArg Quad.until_ quad, congrArg Quad.running quad,
      congrArg Quad.credits quad, State.charge_mem .., due⟩
  case perform =>
    intro running queued free idle
    refine ⟨?multiply, ?zero, ?put⟩
    case multiply =>
      intro mx ov d a b kind w acc row
      obtain ⟨mem, left⟩ := State.matDone_spec (idle.performMma c o mx ov d a b) c o
      have performs : idle.matPerform c o = (idle.performMma c o mx ov d a b).matDone c o := by simp only [State.matPerform, kind]
      refine ⟨_, (execMatrixPerform_running (s := g) rfl running queued free).trans (congrArg Host.Outcome.next performs), left,
        fun i j hi hj => ?_, fun x outside => ?_⟩
      · have elem := State.readMem_performMma (s := idle) w c o mx ov d a b hi hj
        rw [State.readMem, mem]
        exact elem
      · rw [State.readByte, mem, State.performMma_mem]
        exact Memory.read_writeNat_of_ne w _ outside
    case zero =>
      intro d kind w
      have performs : idle.matPerform c o = (idle.zeroMem (accAt c d o.shadow) 16384).matDone c o := by
        simp only [State.matPerform, kind]
      refine ⟨idle.zeroMem (accAt c d o.shadow) 16384,
        (execMatrixPerform_running (s := g) rfl running queued free).trans (congrArg Host.Outcome.next performs),
        fun x => ?_, rfl⟩
      rw [State.readByte, (State.matDone_spec ..).1]
      exact State.readByte_zeroMem (s := idle) w ..
    case put =>
      intro d v off kind
      have performs : idle.matPerform c o = (idle.writeMem (accAt c d o.shadow + off) v.toNat 1024).matAnswer c o id := by
        simp only [State.matPerform, kind]
      exact (execMatrixPerform_running (s := g) rfl running queued free).trans (congrArg Host.Outcome.next performs)
  case chunk =>
    intro ps k acks out d obj gen off tst early head kind agrees none_ more w mine
    let v : State := mine.foldl (fun s p => s.putPiece c o out p) { s with evt := [c] }
    obtain ⟨mem, cycle⟩ := State.foldl_putPiece c o out mine { s with evt := [c] }
    refine ⟨_, execTstChunkWrite_scratch (s := { s with evt := [c] }) (c := c) rfl tst early head kind agrees none_ more,
      ?_, ?_, fun a outside => ?_, fun p listed i hi _ apart => ?_⟩
    · exact congrArg Core.tst (v.core_onCore c fun x => { x with tst := some (k + 1, acks, out, out) })
    · have due := State.mem_pending_after (v.onCore c fun x => { x with tst := some (k + 1, acks, out, out) }) 8
        .tstChunkWrite [c]
      rw [State.onCore_cycle, cycle] at due
      exact due
    · refine (congrArg (Memory.read · a) mem).trans ?_
      exact read_piecesWritten_of_outside w outside
    · refine (congrArg (Memory.read · _) mem).trans ?_
      exact read_piecesWritten hi w apart (.inl listed)

/-- Settles O34: the queue's events from what each does to its array, core and memory, and an INT8 element as the sum of its
products, since a partial sum that stays in the range of the accumulator saturates nowhere. -/
theorem matrixEvents : Obligations.MatrixEvents := ⟨matrixGrants, matrixIntegerSums⟩

end Sys2Proof.Machine
end

section
/-!
SUPPORT. What completing an instruction changes: the slot that completes, the slots of its pair, and a single step's trap
(R42, R157, R361, R371).
-/
namespace Sys2Proof.Machine

/-! Updates that reach the cores alone. -/

/-- Nothing but the cores differs. -/
def State.CoresOnly (s u : State) : Prop := { u with cores := [] } = { s with cores := [] }

namespace State.CoresOnly

theorem refl (s : State) : s.CoresOnly s := rfl
theorem trans {s u v : State} (a : s.CoresOnly u) (b : u.CoresOnly v) : s.CoresOnly v := Eq.trans b a

theorem foldl {α : Type} {g : State → α → State} (each : ∀ (s : State) x, s.CoresOnly (g s x)) (l : List α) (s : State) :
    s.CoresOnly (l.foldl g s) := by
  induction l generalizing s with
  | nil => exact refl s
  | cons x r ih => exact (each s x).trans (ih _)

theorem ite {p : Prop} [Decidable p] {s u v : State} (a : s.CoresOnly u) (b : s.CoresOnly v) :
    s.CoresOnly (if p then u else v) := by
  split
  · exact a
  · exact b

theorem mem {s u : State} (h : s.CoresOnly u) : u.mem = s.mem := (congrArg State.mem h :)
theorem mgmt {s u : State} (h : s.CoresOnly u) : u.mgmt = s.mgmt := (congrArg State.mgmt h :)

/-- The issuing slot is the same one. -/
theorem me {s u : State} (h : s.CoresOnly u) : u.me = u.slot s.ic s.is := by
  have issue : u.issue = s.issue := (congrArg State.issue h :)
  rw [State.me, State.ic, State.is, issue, State.ic, State.is]

theorem onCore (s : State) (c : Nat) (f : Core → Core) : s.CoresOnly (s.onCore c f) := rfl
theorem onSlot (s : State) (c n : Nat) (f : Slot → Slot) : s.CoresOnly (s.onSlot c n f) := rfl

theorem rejoin (s : State) (c n : Nat) : s.CoresOnly (s.rejoin c n) := by
  unfold State.rejoin
  exact onSlot ..

theorem dropAwaited (s : State) (c n : Nat) : s.CoresOnly (s.dropAwaited c n) := by
  unfold State.dropAwaited
  exact (foldl (fun u (o : MatOp) => onCore u c _) _ s).trans (onCore ..)

/-- A trap of any slot but the supervisor's. -/
theorem raiseAt (s : State) (c : Nat) {n : Nat} (strand : n ≠ 15) (cause addr value resume : Nat) (noResume : Bool) :
    s.CoresOnly (s.raiseAt c n cause addr value resume noResume) := by
  have stopped : ∀ (u : State) (x : Slot) (r : Raise), u.CoresOnly (match pairMate (s.slot c n) n with
      | some m => ((u.setSlot c n x).onSlot c m fun y => y.stopFor r).dropAwaited c (strandSlot (s.slot c n) n + 8)
      | none => u.setSlot c n x) := by
    intro u x r
    cases pairMate (s.slot c n) n with
    | none => exact onCore ..
    | some m => exact (onCore ..).trans ((onSlot ..).trans (dropAwaited ..))
  unfold State.raiseAt
  dsimp only
  refine ite ((rejoin s c n).trans (onSlot ..)) ?_
  rw [if_neg strand]
  cases (s.slot c n).hold with
  | none => exact (stopped ..).trans (onCore ..)
  | some h => exact (onCore s c _).trans ((stopped ..).trans (onCore ..))

theorem stepped (s : State) (c n start next : Nat) : s.CoresOnly (s.stepped c n start next) := by
  unfold State.stepped
  split
  · next steps => exact raiseAt s c (by rintro rfl; simp at steps) ..
  · exact refl s

end State.CoresOnly

/-! What a trap leaves of the slots. -/

@[simp] theorem State.slot_freeHolder (s : State) (c h c' n : Nat) : (s.freeHolder c h).slot c' n = s.slot c' n :=
  s.slot_onCore c _ rfl c' n

@[simp] theorem State.slot_dropAwaited (s : State) (c m c' n : Nat) : (s.dropAwaited c m).slot c' n = s.slot c' n := by
  have freed : ∀ (l : List MatOp) (u : State), (l.foldl (fun s o => s.freeHolder c o.num) u).slot c' n = u.slot c' n := by
    intro l
    induction l with
    | nil => exact fun _ => rfl
    | cons o r ih => exact fun u => (ih _).trans (u.slot_freeHolder ..)
  unfold State.dropAwaited
  exact (State.slot_onCore _ c _ rfl c' n).trans (freed ..)

theorem State.statusAt_congr {s u : State} (h : ∀ c n, u.slot c n = s.slot c n) (c n : Nat) :
    u.statusAt c n = s.statusAt c n := by
  simp only [State.statusAt, State.runAt, State.whyAt, State.standsFor, h]

/-- A copy that is in no pair, or trails in one, is not ahead. -/
theorem State.pairBehind_of_not_lead {s : State} {c n : Nat} (alone : (s.slot c n).lead = false) :
    s.pairBehind c n = false := by
  simp [State.pairBehind, alone]

/-- The trap that a slot which stops now keeps. -/
def State.raised (s : State) (c n cause addr value resume : Nat) (noResume : Bool) : Raise :=
  ⟨cause, addr, value, resume, noResume, s.cycle, s.statusAt c (strandSlot (s.slot c n) n)⟩

/-- A strand that traps stops with its trap. -/
theorem State.slot_raiseAt {s : State} {c n : Nat} (strand : n ≠ 15) (ahead : s.pairBehind c n = false)
    (cause addr value resume : Nat) (noResume : Bool) :
    (s.raiseAt c n cause addr value resume noResume).slot c n =
      (s.slot c n).stopFor (s.raised c n cause addr value resume noResume) := by
  have stopped : ∀ (u : State) (r : Raise), State.slot (match pairMate (s.slot c n) n with
      | some m => ((u.setSlot c n ((s.slot c n).stopFor r)).onSlot c m fun x => x.stopFor r).dropAwaited c
          (strandSlot (s.slot c n) n + 8)
      | none => u.setSlot c n ((s.slot c n).stopFor r)) c n = (s.slot c n).stopFor r := by
    intro u r
    cases pairMate (s.slot c n) n with
    | none => exact State.slot_setSlot ..
    | some m =>
      dsimp only
      rw [State.slot_dropAwaited]
      by_cases same : n = m
      · subst same
        rw [State.slot_onSlot, State.slot_setSlot]
        rfl
      · rw [State.slot_onSlot_ne _ same, State.slot_setSlot]
  unfold State.raiseAt
  simp only [ahead, strand, Bool.false_and, Bool.false_eq_true, if_false, State.slot_onTrap]
  cases (s.slot c n).hold with
  | none => exact stopped s _
  | some h =>
    have status := State.statusAt_congr (s.slot_freeHolder c h)
    simp only [status]
    exact stopped (s.freeHolder c h) _

/-! Completing (R157, R371). -/

/-- The slot once an instruction has completed. -/
def Slot.completed (t : Slot) (next : Nat) : Slot :=
  { t with pc := next, done := t.done + 1, walked := [], redo := false }

section retireAt
variable {s : State} {c n : Nat} (start next : Nat)

/-- A strand that takes no single step, and holds no results for a trailing copy, goes on. -/
theorem State.retireAt_goesOn (alone : (s.slot c n).lead = true → (s.slot c n).doing = none)
    (goesOn : ((s.slot c n).step && n != 15 && !(s.slot c n).lead) = false) :
    s.retireAt c n start next = s.onSlot c n (·.completed next) := by
  cases lead : (s.slot c n).lead with
  | true => simp [State.retireAt, State.leadDone, lead, alone lead, Slot.completed]
  | false =>
    have goesOn : ((s.slot c n).step && n != 15) = false := by simpa [lead] using goesOn
    simp only [State.retireAt, State.stepped, State.slot_onSlot, lead, goesOn, Bool.false_eq_true, if_false]
    rfl

/-- A strand that single-steps traps once it has completed. -/
theorem State.retireAt_steps (step : (s.slot c n).step = true) (strand : n ≠ 15) (lead : (s.slot c n).lead = false) :
    s.retireAt c n start next = (s.onSlot c n (·.completed next)).raiseAt c n causeStep start 0 next false := by
  simp only [State.retireAt, State.stepped, State.slot_onSlot, lead, step, bne_iff_ne.2 strand, Bool.and_self,
    Bool.false_eq_true, if_true, if_false]
  rfl

theorem State.slot_retireAt_steps (step : (s.slot c n).step = true) (strand : n ≠ 15) (lead : (s.slot c n).lead = false) :
    ∃ st, (s.retireAt c n start next).slot c n =
      ((s.slot c n).completed next).stopFor ⟨causeStep, start, 0, next, false, s.cycle, st⟩ := by
  have ahead : (s.onSlot c n (·.completed next)).pairBehind c n = false :=
    State.pairBehind_of_not_lead (by rw [State.slot_onSlot]; exact lead)
  rw [State.retireAt_steps start next step strand lead, State.slot_raiseAt strand ahead, State.slot_onSlot]
  exact ⟨_, rfl⟩

end retireAt

/-! The two copies of a pair (R42). -/

/-- The slot once its registers are its own again and nothing of it is under way. -/
def Slot.handedOver (t : Slot) : Slot :=
  { (match t.kept with | some r => t.withRegs r | none => t) with kept := none, doing := none }

section leadDone
variable {s : State} {c n : Nat} {i : Instr} (doing : (s.slot c n).doing = some i)
include doing

/-- The results wait in the queue for a trailing copy that has not come. -/
theorem State.leadDone_queues (away : (s.slot c (n + 8)).joined = none) :
    ∃ e : PairVal, e.landed = (s.slot c n).landed ∧ s.leadDone c n = (s.setSlot c n (s.slot c n).handedOver).onSlot c n fun t =>
      { t with lvq := t.lvq ++ [e] } := by
  refine ⟨if drawsSeed i then ⟨[], ((s.slot c n).before.map (·.2.1.seed)).getD (s.slot c n).seed, (s.slot c n).landed⟩
    else ⟨s.pairResults c n i, (s.slot c n).seed, (s.slot c n).landed⟩, by split <;> rfl, ?_⟩
  simp only [State.leadDone, doing, State.slot_setSlot_ne s (by omega : n + 8 ≠ n), away]
  rfl

/-- The trailing copy that waits for the results takes them. -/
theorem State.leadDone_hands {x : Chain} (waits : (s.slot c (n + 8)).joined = some x) :
    ∃ e : PairVal, e.landed = (s.slot c n).landed ∧ s.leadDone c n =
      (s.setSlot c n (s.slot c n).handedOver).takeValue c (n + 8) e x (s.slot c n).done := by
  refine ⟨if drawsSeed i then ⟨[], ((s.slot c n).before.map (·.2.1.seed)).getD (s.slot c n).seed, (s.slot c n).landed⟩
    else ⟨s.pairResults c n i, (s.slot c n).seed, (s.slot c n).landed⟩, by split <;> rfl, ?_⟩
  simp only [State.leadDone, doing, State.slot_setSlot_ne s (by omega : n + 8 ≠ n), waits]
  rfl

end leadDone

theorem State.CoresOnly.putFieldVal (s : State) (c n : Nat) (x : Nat × Nat × Nat) : s.CoresOnly (s.putFieldVal c n x) := by
  unfold State.putFieldVal
  split
  · exact .ite (.refl s) (.ite (.onSlot ..) (.onCore ..))
  · exact .onSlot ..
  · exact .ite (.refl s) (.onSlot ..)
  · exact .onSlot ..

theorem State.CoresOnly.takeValue (s : State) (c n : Nat) (e : PairVal) (x : Chain) (done : Nat) :
    s.CoresOnly (s.takeValue c n e x done) :=
  ((foldl (fun u y => putFieldVal u c n y) _ s).trans (onSlot ..)).trans (stepped ..)

theorem State.CoresOnly.leadDone (s : State) (c n : Nat) : s.CoresOnly (s.leadDone c n) := by
  cases doing : (s.slot c n).doing with
  | none => simpa only [State.leadDone, doing] using refl s
  | some i =>
    cases joined : (s.slot c (n + 8)).joined with
    | none =>
      obtain ⟨e, -, done⟩ := State.leadDone_queues doing joined
      exact done ▸ (onCore s c _).trans (onSlot ..)
    | some x =>
      obtain ⟨e, -, done⟩ := State.leadDone_hands doing joined
      exact done ▸ (onCore s c _).trans (takeValue ..)

theorem State.CoresOnly.retireAt (s : State) (c n start next : Nat) : s.CoresOnly (s.retireAt c n start next) :=
  (onSlot ..).trans (ite (leadDone ..) (stepped ..))

/-- A register that a slot is given leaves its single-step bit as it is. -/
theorem State.step_putFieldVal (s : State) (c n : Nat) (x : Nat × Nat × Nat) :
    ((s.putFieldVal c n x).slot c n).step = (s.slot c n).step := by
  unfold State.putFieldVal
  split
  · unfold State.putGprAt
    split
    · rfl
    · split
      · rw [State.slot_onSlot]
      · rw [State.share, s.slot_onCore c _ rfl]
  · rw [State.slot_onSlot]
  · unfold State.putPredAt
    split
    · rfl
    · rw [State.slot_onSlot]
  · rw [State.putCapAt, State.slot_onSlot]

/-- A trailing copy that takes a value and does not single-step has completed its own instruction. -/
theorem State.slot_takeValue {s : State} {c n : Nat} (goesOn : (s.slot c n).step = false) (e : PairVal) (x : Chain)
    (done : Nat) :
    let t := (s.takeValue c n e x done).slot c n
    t.pc = (s.slot c n).pc + 2 * x.len ∧ t.done = done ∧ t.joined = none ∧ t.landed = e.landed := by
  have step : ∀ (l : List (Nat × Nat × Nat)) (u : State),
      ((l.foldl (fun s x => s.putFieldVal c n x) u).slot c n).step = (u.slot c n).step := by
    intro l
    induction l with
    | nil => exact fun _ => rfl
    | cons y r ih => exact fun u => (ih _).trans (u.step_putFieldVal ..)
  simp only [State.takeValue, State.stepped, State.slot_onSlot, step, goesOn, Bool.false_and, Bool.false_eq_true, if_false,
    and_self, PairVal.into]

section pair
variable {s : State} {c n : Nat} {i : Instr} (lead : (s.slot c n).lead = true) (doing : (s.slot c n).doing = some i)
include lead doing

theorem State.retireAt_queues (start next : Nat) (kept : (s.slot c n).kept = none)
    (away : (s.slot c (n + 8)).joined = none) :
    ∃ e : PairVal, e.landed = (s.slot c n).landed ∧ (s.retireAt c n start next).slot c n =
      { (s.slot c n).completed next with doing := none, lvq := (s.slot c n).lvq ++ [e] } := by
  have slot := s.slot_onSlot c n (·.completed next)
  have mate := s.slot_onSlot_ne (by omega : n + 8 ≠ n) (c := c) (·.completed next)
  obtain ⟨e, landed, done⟩ := State.leadDone_queues (s := s.onSlot c n (·.completed next)) (c := c) (n := n) (i := i)
    (by rw [slot]; exact doing) (by rw [mate]; exact away)
  have retires : s.retireAt c n start next = (s.onSlot c n (·.completed next)).leadDone c n :=
    if_pos (by rw [State.slot_onSlot]; exact lead)
  rw [slot] at landed
  refine ⟨e, landed, ?_⟩
  rw [retires, done, State.slot_onSlot, State.slot_setSlot, slot]
  simp [Slot.handedOver, Slot.completed, kept]

theorem State.retireAt_hands (start next : Nat) {x : Chain} (waits : (s.slot c (n + 8)).joined = some x)
    (goesOn : (s.slot c (n + 8)).step = false) :
    let m := (s.retireAt c n start next).slot c (n + 8)
    m.pc = (s.slot c (n + 8)).pc + 2 * x.len ∧ m.done = (s.slot c n).done + 1 ∧ m.joined = none ∧
      m.landed = (s.slot c n).landed := by
  have slot := s.slot_onSlot c n (·.completed next)
  have mate := s.slot_onSlot_ne (by omega : n + 8 ≠ n) (c := c) (·.completed next)
  obtain ⟨e, landed, done⟩ := State.leadDone_hands (s := s.onSlot c n (·.completed next)) (c := c) (n := n) (i := i)
    (by rw [slot]; exact doing) (by rw [mate]; exact waits)
  have retires : s.retireAt c n start next = (s.onSlot c n (·.completed next)).leadDone c n :=
    if_pos (by rw [State.slot_onSlot]; exact lead)
  have own := State.slot_setSlot_ne (s.onSlot c n (·.completed next)) (c := c) (by omega : n + 8 ≠ n)
    ((s.onSlot c n (·.completed next)).slot c n).handedOver
  have takes := State.slot_takeValue (by rw [own, mate]; exact goesOn) e x ((s.onSlot c n (·.completed next)).slot c n).done
  rw [own, mate, landed, ← done, ← retires, slot] at takes
  exact takes

end pair

/-- Settles O17: a strand that is alone goes on or takes its single step; a leading copy's results go to the trailing copy that
waits for them, or into the queue. -/
theorem retirement : Obligations.Retirement := by
  intro s
  have me : s.retire.me = s.retire.slot s.ic s.is := (State.CoresOnly.retireAt ..).me
  have goesOn : Spec.Alone s → (s.me.step && s.is != 15 && !s.me.lead) = false →
      s.retire = s.onSlot s.ic s.is (·.completed s.issue.next) :=
    fun alone h => State.retireAt_goesOn s.issue.start s.issue.next alone h
  have steps : (s.me.step && s.is != 15 && !s.me.lead) = true → ∃ st, s.retire.me =
      (s.me.completed s.issue.next).stopFor ⟨causeStep, s.issue.start, 0, s.issue.next, false, s.cycle, st⟩ := by
    intro h
    simp only [Bool.and_eq_true, bne_iff_ne, Bool.not_eq_true'] at h
    obtain ⟨⟨step, strand⟩, lead⟩ := h
    rw [me]
    exact State.slot_retireAt_steps s.issue.start s.issue.next step strand lead
  refine ⟨fun alone => ?_, fun alone h => ⟨?_, fun c n other => ?_, fun c => ?_, ?_⟩, fun h => ?_, ?_, ?_⟩
  · cases h : s.me.step && s.is != 15 && !s.me.lead with
    | true =>
      obtain ⟨st, trapped⟩ := steps h
      rw [trapped]
      rfl
    | false =>
      rw [me, goesOn alone h, State.slot_onSlot]
      rfl
  · rw [me, goesOn alone h, State.slot_onSlot]
    rfl
  · rw [goesOn alone h]
    by_cases core : c = s.ic
    · subst core
      exact s.slot_onSlot_ne (fun same => other ⟨rfl, same⟩) _
    · exact s.slot_onSlot_core core ..
  · rw [goesOn alone h]
    exact State.core_onCore_keep s s.ic (f := fun k => k.setSlot s.is (s.me.completed s.issue.next))
      (g := fun k => { k with slots := [] }) (fun _ => rfl) c
  · exact State.CoresOnly.retireAt ..
  · obtain ⟨st, trapped⟩ := steps h
    rw [trapped]
    exact ⟨rfl, st, rfl⟩
  · intro i lead doing kept away
    obtain ⟨e, landed, done⟩ := State.retireAt_queues lead doing s.issue.start s.issue.next kept away
    exact ⟨e, landed, me.trans done⟩
  · intro i x lead doing waits goesOn
    exact State.retireAt_hands lead doing s.issue.start s.issue.next waits goesOn

end Sys2Proof.Machine
end

section
/-!
SUPPORT. Sparse maps under a change of every entry, messages that leave, and what neither a message nor a cleared byte changes
(R295).
-/
namespace Sys2Proof.Machine

/-! Sparse maps. -/

/-- A change of every entry reaches a listed key, and the default of another. -/
theorem SMap.get_map {α : Type} {f : Nat × α → Nat × α} (key : ∀ p, (f p).1 = p.1) (m : SMap α) (k : Nat) (d : α) :
    SMap.get (m.map f) k d = if SMap.has m k then (f (k, SMap.get m k d)).2 else d := by
  induction m with
  | nil => rfl
  | cons p r ih =>
    obtain ⟨j, x⟩ := p
    by_cases here : j = k
    · subst here
      simp [SMap.get, SMap.has, key]
    · simp only [List.map_cons, SMap.get, SMap.has, List.any_cons, key, here, beq_false_of_ne here, if_false, Bool.false_or]
      exact ih

theorem SMap.get_of_not_has {α : Type} {m : SMap α} {k : Nat} (absent : SMap.has m k = false) (d : α) :
    SMap.get m k d = d := by
  induction m with
  | nil => rfl
  | cons p r ih =>
    simp only [SMap.has, List.any_cons, Bool.or_eq_false_iff, beq_eq_false_iff_ne] at absent
    obtain ⟨other, absent⟩ := absent
    rw [SMap.get, if_neg other]
    exact ih absent

/-- A change of every entry that leaves the default as it is reaches every key. -/
theorem SMap.get_map_of_default {α : Type} {f : Nat × α → Nat × α} (key : ∀ p, (f p).1 = p.1) (m : SMap α) {k : Nat} {d : α}
    (default : (f (k, d)).2 = d) : SMap.get (m.map f) k d = (f (k, SMap.get m k d)).2 := by
  rw [SMap.get_map key]
  cases listed : SMap.has m k with
  | true => rfl
  | false => rw [SMap.get_of_not_has listed, default, if_neg Bool.false_ne_true]

/-- A map made of a list of keys. -/
theorem SMap.get_of_keys {α : Type} (f : Nat → α) {l : List Nat} {k : Nat} (listed : k ∈ l) (d : α) :
    SMap.get (l.map fun n => (n, f n)) k d = f k := by
  induction l with
  | nil => cases listed
  | cons n r ih =>
    rw [List.map_cons, SMap.get]
    split
    · next here => rw [here]
    · next other => exact ih ((List.mem_cons.1 listed).resolve_left (Ne.symm other))

/-- What holds of every value listed and of the default holds of the value read. -/
theorem SMap.get_of_forall {α : Type} {P : α → Prop} {m : SMap α} (all : ∀ p ∈ m, P p.2) {d : α} (default : P d) (k : Nat) :
    P (SMap.get m k d) := by
  induction m with
  | nil => exact default
  | cons p r ih =>
    unfold SMap.get
    split
    · exact all _ List.mem_cons_self
    · exact ih fun x h => all x (List.mem_cons_of_mem _ h)

theorem SMap.forall_set {α : Type} {P : α → Prop} {m : SMap α} (all : ∀ p ∈ m, P p.2) (k : Nat) {v : α} (new : P v) :
    ∀ p ∈ SMap.set m k v, P p.2 := by
  induction m with
  | nil => simpa [SMap.set] using new
  | cons x r ih =>
    obtain ⟨here, later⟩ := List.forall_mem_cons.1 all
    unfold SMap.set
    split
    · exact List.forall_mem_cons.2 ⟨new, later⟩
    · split
      · exact List.forall_mem_cons.2 ⟨new, all⟩
      · exact List.forall_mem_cons.2 ⟨here, ih later⟩

/-- Steps that change nothing. -/
theorem foldl_of_forall_mem {α β : Type} {f : β → α → β} {b : β} {l : List α} (same : ∀ x ∈ l, f b x = b) :
    l.foldl f b = b := by
  induction l with
  | nil => rfl
  | cons x r ih =>
    obtain ⟨here, later⟩ := List.forall_mem_cons.1 same
    rw [List.foldl_cons, here, ih later]

/-! Messages. -/

theorem State.inject_packets (s : State) (p : Packet) : (s.inject p).packets = s.packets := by
  unfold State.inject
  split <;> rfl

/-- A message sent is on its way. -/
theorem State.send_leaves (s : State) (src dst cls flits : Nat) (launch : Option Nat) (body : Body) :
    Spec.Leaves (s.send src dst cls flits launch body) src dst cls flits body := by
  have packets : (s.send src dst cls flits launch body).packets = _ := State.inject_packets ..
  rw [Spec.Leaves, packets]
  exact ⟨_, List.mem_map_of_mem (List.mem_of_find?_eq_some (SMap.find?_set ..)), rfl, rfl, rfl, rfl, rfl⟩

theorem State.send_mem (s : State) (src dst cls flits : Nat) (launch : Option Nat) (body : Body) :
    (s.send src dst cls flits launch body).mem = s.mem :=
  (State.Keeps.send (c := 0) s src dst cls flits launch body).mem

/-- The cores, dies, links, barriers and management registers are as they were. -/
structure State.SameUnits (s u : State) : Prop where
  cores : u.cores = s.cores
  dies : u.dies = s.dies
  links : u.links = s.links
  barriers : u.barriers = s.barriers
  mgmt : u.mgmt = s.mgmt

namespace State.SameUnits

theorem refl (s : State) : s.SameUnits s := ⟨rfl, rfl, rfl, rfl, rfl⟩
theorem trans {s u v : State} (a : s.SameUnits u) (b : u.SameUnits v) : s.SameUnits v :=
  ⟨b.cores.trans a.cores, b.dies.trans a.dies, b.links.trans a.links, b.barriers.trans a.barriers, b.mgmt.trans a.mgmt⟩
theorem foldl {α : Type} {g : State → α → State} (each : ∀ (s : State) x, s.SameUnits (g s x)) (l : List α) (s : State) :
    s.SameUnits (l.foldl g s) := by
  induction l generalizing s with
  | nil => exact refl s
  | cons x r ih => exact (each s x).trans (ih _)

theorem core {s u : State} (h : s.SameUnits u) (c : Nat) : u.core c = s.core c := by
  rw [State.core, h.cores, State.core]

theorem send (s : State) (src dst cls flits : Nat) (launch : Option Nat) (body : Body) :
    s.SameUnits (s.send src dst cls flits launch body) := by
  unfold State.send State.sendPkt State.inject
  dsimp only
  split <;> exact ⟨rfl, rfl, rfl, rfl, rfl⟩
theorem clearSide (s : State) (c base : Nat) : s.SameUnits (s.clearSide c base) := ⟨rfl, rfl, rfl, rfl, rfl⟩
theorem clearReplay (s : State) (c base : Nat) : s.SameUnits (s.clearReplay c base) := ⟨rfl, rfl, rfl, rfl, rfl⟩

theorem clearImages (s : State) (c : Nat) (l : List Slot) :
    s.SameUnits (l.foldl (fun s t => (s.clearSide c t.ctxbase).clearReplay c t.ctxbase) s) := by
  refine foldl (fun u t => ?_) l s
  have side := clearSide u c t.ctxbase
  have replay := clearReplay (u.clearSide c t.ctxbase) c t.ctxbase
  exact side.trans replay

end State.SameUnits

end Sys2Proof.Machine
end

section
/-!
SUPPORT. Urgent work: its request, its start, its first instruction and its limit (R32, R39, R40, R374, R375).
-/
namespace Sys2Proof.Machine

/-! A request (R374). -/

/-- A core with room takes the request into its queue, and answers. -/
theorem execUrgRequestArrival_spec {s : State} {p : Packet} {core ref entry requester : Nat} {arg : Word}
    (names : s.arg 0 = p.id) (known : s.packet? p.id = some p) (body : p.body = .urg core ref entry arg requester) :
    let k := s.core p.dst
    let ok := !k.contained && decide (k.trap.urgent.length < 4)
    ∃ u : State, execUrgRequestArrival s = .next u ∧ u.mem = s.mem ∧
      (u.core p.dst).trap.urgent = (if ok then k.trap.urgent ++ [(entry, requester, arg)] else k.trap.urgent) ∧
      Spec.Leaves u p.dst core urgentClass 1 (.reply core ref (if ok then 1 else 0) 0 none) := by
  intro k ok
  let v : State := if ok then
      (s.dropPacket p.id).onTrap p.dst fun k => { k with urgent := k.urgent ++ [(entry, requester, arg)] }
    else s.dropPacket p.id
  have queue : (v.core p.dst).trap.urgent = if ok then k.trap.urgent ++ [(entry, requester, arg)] else k.trap.urgent := by
    cases accepted : ok with
    | true =>
      simp only [v, accepted, if_true, State.onTrap, State.core_onCore]
      rfl
    | false =>
      simp only [v, accepted, Bool.false_eq_true, if_false]
      rfl
  have mem : v.mem = s.mem := (State.CoresOnly.ite (State.CoresOnly.onCore (s.dropPacket p.id) ..) (.refl _)).mem
  refine ⟨v.send p.dst core urgentClass 1 none (.reply core ref (if ok then 1 else 0) 0 none), ?_, ?_, ?_,
    State.send_leaves ..⟩
  · simp only [execUrgRequestArrival, names, known, body]
    rfl
  · rw [State.send_mem, mem]
  · rw [(State.SameUnits.send v ..).core, queue]

/-! An episode (R39, R375). -/

theorem State.supFree_iff {s : State} {c : Nat} : s.supFree c = true ↔
    (s.core c).trap.level = 0 ∧ (s.slot c 15).run = .empty ∧ (s.core c).contained = false := by
  simp [State.supFree, and_assoc]

/-- The slot of the supervisor as it starts. -/
theorem State.slot_startSup (s : State) (c off : Nat) (g1 g2 : Word) (readyAt : Nat) :
    let t := (s.startSup c off g1 g2 readyAt).slot c 15
    t.run = .running ∧ t.code = ⟨Config.supervisorCode c, true⟩ ∧ t.pc = t.code.base + off ∧
      t.g = SMap.set (SMap.set (s.slot c 15).g 1 g1) 2 g2 := by
  simp only [State.startSup, State.slot_onTrap, State.slot_onSlot, and_self]

theorem State.slot_startSup_ne (s : State) (c off : Nat) (g1 g2 : Word) (readyAt : Nat) {n : Nat} (other : n ≠ 15) :
    (s.startSup c off g1 g2 readyAt).slot c n = s.slot c n := by
  simp only [State.startSup, State.slot_onTrap, State.slot_onSlot_ne s other]

theorem State.trap_startSup (s : State) (c off : Nat) (g1 g2 : Word) (readyAt : Nat) :
    ((s.startSup c off g1 g2 readyAt).core c).trap = { (s.core c).trap with readyAt } := by
  simp only [State.startSup, State.onTrap, State.core_onCore, State.core_onSlot, Core.setSlot]

/-- The oldest request of a supervisor that is idle starts. -/
theorem execUrgentEpisodeStart_spec {s : State} {c entry requester : Nat} {arg : Word} {rest : List (Nat × Nat × Word)}
    (names : s.arg 0 = c) (queue : (s.core c).trap.urgent = (entry, requester, arg) :: rest)
    (kept : (s.core c).contained = false) (level : (s.core c).trap.level = 0) (idle : (s.slot c 15).run = .empty) :
    ∃ u : State, execUrgentEpisodeStart s = .next u ∧ u.mem = s.mem ∧
      (let h := u.slot c 15;
        h.run = .running ∧ h.code = ⟨Config.supervisorCode c, true⟩ ∧ h.pc = h.code.base + 0x40 + 16 * entry ∧
        u.gprAt c 15 1 = BitVec.ofNat 64 requester ∧ u.gprAt c 15 2 = arg) ∧
      (u.core c).trap.urgent = rest ∧ (u.core c).trap.level = 1 ∧ (u.core c).trap.urging = true ∧
      (u.core c).trap.urgStart = none ∧ ∀ n, n < 15 → u.slot c n = s.slot c n := by
  let taken : State := s.onTrap c fun k => { k with urgent := rest }
  let begun : State := taken.onTrap c fun k =>
    { k with level := 1, urging := true, limited := false, urgStart := none, handled := none }
  have trap : (begun.core c).trap = { (s.core c).trap with urgent := rest, level := 1, urging := true, limited := false
                                                           urgStart := none, handled := none } := by
    simp only [begun, taken, State.onTrap, State.core_onCore]
  have slot : ∀ n, begun.slot c n = s.slot c n := fun n => by simp only [begun, taken, State.slot_onTrap]
  let u := begun.startSup c (0x40 + 16 * entry) (BitVec.ofNat 64 requester) arg (s.cycle + 16)
  obtain ⟨run, code, pc, g⟩ := begun.slot_startSup c (0x40 + 16 * entry) (BitVec.ofNat 64 requester) arg (s.cycle + 16)
  have uTrap : (u.core c).trap = { (begun.core c).trap with readyAt := s.cycle + 16 } := State.trap_startSup ..
  rw [trap] at uTrap
  refine ⟨u, ?_, rfl, ⟨run, code, pc.trans (Nat.add_assoc ..).symm, ?_, ?_⟩, ?_, ?_, ?_, ?_, fun n hn => ?_⟩
  · have free : s.supFree c = true := State.supFree_iff.2 ⟨level, idle, kept⟩
    simp only [execUrgentEpisodeStart, names, queue, free, Bool.not_true, Bool.false_eq_true, if_false]
    rfl
  · have first : u.gprAt c 15 1 = SMap.get (u.slot c 15).g 1 0 := rfl
    rw [first, g, SMap.get_set_ne _ (by decide), SMap.get_set]
  · have second : u.gprAt c 15 2 = SMap.get (u.slot c 15).g 2 0 := rfl
    rw [second, g, SMap.get_set]
  · rw [uTrap]
  · rw [uTrap]
  · rw [uTrap]
  · rw [uTrap]
  · exact (begun.slot_startSup_ne _ _ _ _ _ (by omega)).trans (slot n)

/-! Its first instruction (R32). -/

/-- What the first instruction of an episode does to an entry of the core's slots. -/
def State.pausedBy (s : State) (c : Nat) (p : Nat × Slot) : Nat × Slot :=
  if p.1 != 15 && s.runAt c p.1 == .running then (p.1, { p.2 with run := .paused, back := .running, idle := 0 }) else p

theorem State.pausedBy_key (s : State) (c : Nat) (p : Nat × Slot) : (s.pausedBy c p).1 = p.1 := by
  unfold State.pausedBy
  split <;> rfl

theorem State.noteUrgent_first {s : State} {c : Nat} (urging : (s.core c).trap.urging = true)
    (first : (s.core c).trap.urgStart = none) :
    s.noteUrgent c 15 = (s.onCore c fun k => { k with slots := k.slots.map (s.pausedBy c) }).onTrap c fun k =>
      { k with urgStart := some s.cycle } :=
  if_pos ⟨rfl, urging, first⟩

theorem State.slot_noteUrgent_first {s : State} {c : Nat} (urging : (s.core c).trap.urging = true)
    (first : (s.core c).trap.urgStart = none) (n : Nat) :
    (s.noteUrgent c 15).slot c n =
      if SMap.has (s.core c).slots n then (s.pausedBy c (n, s.slot c n)).2 else s.slot c n := by
  rw [State.noteUrgent_first urging first, State.slot_onTrap, State.slot, State.core_onCore, Core.slot,
    SMap.get_map (s.pausedBy_key c)]
  cases listed : SMap.has (s.core c).slots n with
  | true => rfl
  | false => exact (SMap.get_of_not_has listed _).symm

/-- A slot that runs is listed: one that no strand has touched is empty. -/
theorem State.has_of_runAt {s : State} {c n : Nat} (runs : s.runAt c n = .running) : SMap.has (s.core c).slots n = true := by
  cases listed : SMap.has (s.core c).slots n with
  | true => rfl
  | false =>
    have fresh : s.slot c n = Slot.fresh n := SMap.get_of_not_has listed _
    simp [State.runAt, State.standsFor, fresh, Slot.fresh] at runs

theorem State.noteUrgent_spec {s : State} {c : Nat} (urging : (s.core c).trap.urging = true)
    (first : (s.core c).trap.urgStart = none) :
    let u := s.noteUrgent c 15
    (u.core c).trap = { (s.core c).trap with urgStart := some s.cycle } ∧ u.slot c 15 = s.slot c 15 ∧
      ∀ n, n < 15 → (u.slot c n).run = (if s.runAt c n = .running then .paused else (s.slot c n).run) ∧
        (u.slot c n).pc = (s.slot c n).pc := by
  intro u
  have slot : ∀ n, u.slot c n = _ := State.slot_noteUrgent_first urging first
  refine ⟨?_, ?_, fun n hn => ?_⟩
  · simp only [u, State.noteUrgent_first urging first, State.onTrap, State.core_onCore]
  · rw [slot]
    exact ite_self _
  · have strand : (n != 15) = true := bne_iff_ne.2 (by omega)
    rw [slot]
    by_cases runs : s.runAt c n = .running
    · simp [State.has_of_runAt runs, State.pausedBy, strand, runs]
    · simp [State.pausedBy, runs]

/-! Its limit (R40). -/

/-- A trap of the supervisor slot below nesting level 2 stops it for delivery. -/
theorem State.raiseAt_supervisor {s : State} {c : Nat} (level : (s.core c).trap.level < 2) (hold : (s.slot c 15).hold = none)
    (lead : (s.slot c 15).lead = false) (cause addr value resume : Nat) (noResume : Bool) :
    s.raiseAt c 15 cause addr value resume noResume =
      (s.setSlot c 15 ((s.slot c 15).stopFor (s.raised c 15 cause addr value resume noResume))).now .trapDelivery [c] := by
  simp only [State.raiseAt, State.pairBehind_of_not_lead lead, Bool.false_and, Bool.false_eq_true, if_false, hold, if_true,
    ge_iff_le, Nat.not_le.2 level]
  rfl

/-- An inbox for which no slot waits serves none. -/
theorem State.serveInbox_of_still {s : State} {c : Nat}
    (still : ∀ n, n < 16 → (s.slot c n).run = .parked → (s.slot c n).why ≠ .inbox) (fuel : Nat) : s.serveInbox c fuel = s := by
  cases fuel with
  | zero => rfl
  | succ fuel =>
    have none_ : (below 16).find? (fun n => (s.slot c n).run == .parked && (s.slot c n).why == .inbox &&
        (s.inboxStep c n).isSome) = none := by
      refine List.find?_eq_none.2 fun n hn => ?_
      simp only [Bool.and_eq_true, beq_iff_eq]
      rintro ⟨⟨parked, inbox⟩, -⟩
      exact still n (mem_below.1 hn) parked inbox
    simp only [State.serveInbox, none_]

/-- A slot as urgent work that has ended leaves it. -/
def Slot.unpaused (t : Slot) : Slot := if t.run = .paused then { t with run := t.back, back := .running } else t

/-- Every slot but the supervisor's as urgent work that has ended leaves it. -/
def State.slotsBack (s : State) (c : Nat) : State :=
  s.onCore c fun k => { k with slots := k.slots.map fun p => (p.1, if p.1 = 15 then p.2 else p.2.unpaused) }

theorem State.slot_slotsBack (s : State) (c n : Nat) :
    (s.slotsBack c).slot c n = if n = 15 then s.slot c n else (s.slot c n).unpaused := by
  rw [State.slotsBack, State.slot, State.core_onCore, Core.slot,
    SMap.get_map_of_default (f := fun p : Nat × Slot => (p.1, if p.1 = 15 then p.2 else p.2.unpaused)) (fun _ => rfl)]
  · rfl
  · exact ite_self _

theorem State.unpause_of_still {s : State} {c : Nat}
    (still : ∀ n, n < 16 → ((s.slotsBack c).slot c n).run = .parked → ((s.slotsBack c).slot c n).why ≠ .inbox) :
    s.unpause c = s.slotsBack c := State.serveInbox_of_still still 32

/-- An episode past its limit traps, and the Paused slots go on. -/
theorem execUrgLimit_spec {s : State} {c : Nat} (names : s.arg 0 = c) (past : (s.core c).overLimit s.cycle = true)
    (kept : (s.core c).contained = false) (level : (s.core c).trap.level < 2) (hold : (s.slot c 15).hold = none)
    (lead : (s.slot c 15).lead = false) (still : Spec.StillAt s c)
    (backs : ∀ n, n < 15 → (s.slot c n).run = .paused → (s.slot c n).back = .running) :
    ∃ u : State, execUrgLimit s = .next u ∧ u.mem = s.mem ∧ ⟨.trapDelivery, [c]⟩ ∈ u.agenda ∧
      (u.core c).trap.limited = true ∧ (u.slot c 15).run = .trapped ∧ (u.slot c 15).raised = some ⟨causeUrgLimit,
        (s.slot c 15).pc, (s.core c).urglim, (s.slot c 15).pc, false, s.cycle, s.statusAt c (strandSlot (s.slot c 15) 15)⟩ ∧
      ∀ n, n < 15 → (u.slot c n).run = if (s.slot c n).run = .paused then .running else (s.slot c n).run := by
  let r : Raise := s.raised c 15 causeUrgLimit (s.slot c 15).pc (s.core c).urglim (s.slot c 15).pc false
  let limited : State := s.onTrap c fun k => { k with limited := true }
  let v : State := (limited.setSlot c 15 ((s.slot c 15).stopFor r)).now .trapDelivery [c]
  have slot : ∀ n, limited.slot c n = s.slot c n := s.slot_onTrap c _ c
  have raises : limited.raiseAt c 15 causeUrgLimit (s.slot c 15).pc (s.core c).urglim (s.slot c 15).pc false = v := by
    have status : ∀ n, limited.statusAt c n = s.statusAt c n := State.statusAt_congr (s.slot_onTrap c _) c
    have trap : (limited.core c).trap.level < 2 := by simpa [limited, State.onTrap] using level
    rw [State.raiseAt_supervisor trap (by rw [slot]; exact hold) (by rw [slot]; exact lead), State.raised, status, slot]
    rfl
  have sup : v.slot c 15 = (s.slot c 15).stopFor r := State.slot_setSlot ..
  have others : ∀ n, n < 15 → v.slot c n = s.slot c n := fun n hn =>
    (limited.slot_setSlot_ne (by omega : n ≠ 15) _).trans (slot n)
  have back : ∀ n, n < 15 → (v.slotsBack c).slot c n = (s.slot c n).unpaused := fun n hn => by
    rw [State.slot_slotsBack, if_neg (by omega), others n hn]
  have supBack : (v.slotsBack c).slot c 15 = (s.slot c 15).stopFor r := by rw [State.slot_slotsBack, if_pos rfl, sup]
  have run : ∀ n, n < 15 → ((v.slotsBack c).slot c n).run =
      if (s.slot c n).run = .paused then .running else (s.slot c n).run := fun n hn => by
    rw [back n hn, Slot.unpaused]
    split
    · next paused => exact backs n hn paused
    · rfl
  have ends : v.unpause c = v.slotsBack c := by
    refine State.unpause_of_still fun n hn parked => ?_
    by_cases strand : n < 15
    · have was : (s.slot c n).run ≠ .paused := fun paused => by simp [run n strand, paused] at parked
      rw [back n strand, Slot.unpaused, if_neg was] at parked ⊢
      exact still.1 n parked
    · obtain rfl : n = 15 := by omega
      rw [supBack] at parked
      cases parked
  refine ⟨v.slotsBack c, ?_, rfl, List.mem_cons_self, ?_, ?_, ?_, run⟩
  · rw [← ends, ← raises]
    simp only [execUrgLimit, names, past, kept, Bool.not_true, Bool.or_self, Bool.false_eq_true, if_false]
    rfl
  · have core : v.core c = (limited.core c).setSlot 15 ((s.slot c 15).stopFor r) :=
      limited.core_onCore c fun k => k.setSlot 15 ((s.slot c 15).stopFor r)
    simp [State.slotsBack, core, Core.setSlot, limited, State.onTrap]
  · rw [supBack]
    rfl
  · rw [supBack]
    rfl

end Sys2Proof.Machine
end

section
/-!
SUPPORT. Deadlock, quiet periods and containment (R46, R78, R323, R381, R392).
-/
namespace Sys2Proof.Machine

/-! Events of the supervisor, and vectors (R362, R384). -/

theorem mem_insTrap (x : Nat × Nat) (l : List (Nat × Nat)) : x ∈ insTrap x l := by
  induction l with
  | nil => exact List.mem_cons_self
  | cons y r ih =>
    unfold insTrap
    split
    · exact List.mem_cons_self
    · exact List.mem_cons_of_mem y ih

theorem State.CoresOnly.supEvent (s : State) (c cause addr value : Nat) : s.CoresOnly (s.supEvent c cause addr value) :=
  onCore ..

theorem State.core_supEvent_ne (s : State) {c q : Nat} (other : q ≠ c) (cause addr value : Nat) :
    (s.supEvent c cause addr value).core q = s.core q := s.core_onCore_ne other _

/-- An event waits for delivery, unless another one does. -/
theorem State.trap_supEvent (s : State) (c cause addr value : Nat) :
    let t := ((s.supEvent c cause addr value).core c).trap
    if (s.core c).trap.pend.any (fun p => p.2 == 15) then t = (s.core c).trap
    else t.events = [(cause, addr, value)] ∧ (s.cycle, 15) ∈ t.pend := by
  simp only [State.supEvent, State.onTrap, State.core_onCore]
  split
  · rfl
  · exact ⟨rfl, mem_insTrap ..⟩

/-- The supervisors of a list of cores take the event, each once. -/
theorem State.trap_foldl_supEvent (cause addr value : Nat) {l : List Nat} (once : l.Nodup) {q : Nat} (listed : q ∈ l)
    (s : State) :
    let t := ((l.foldl (fun s c => s.supEvent c cause addr value) s).core q).trap
    if (s.core q).trap.pend.any (fun p => p.2 == 15) then t = (s.core q).trap
    else t.events = [(cause, addr, value)] ∧ (s.cycle, 15) ∈ t.pend := by
  have unlisted : ∀ (l : List Nat) (u : State), q ∉ l →
      (l.foldl (fun s c => s.supEvent c cause addr value) u).core q = u.core q := by
    intro l
    induction l with
    | nil => exact fun _ _ => rfl
    | cons c r ih =>
      intro u h
      obtain ⟨other, later⟩ := not_or.1 (mt List.mem_cons.2 h)
      exact (ih _ later).trans (u.core_supEvent_ne other ..)
  induction l generalizing s with
  | nil => cases listed
  | cons c r ih =>
    obtain ⟨fresh, once⟩ := List.nodup_cons.1 once
    by_cases here : q = c
    · subst here
      rw [List.foldl_cons, unlisted r _ fresh]
      exact s.trap_supEvent ..
    · have later := ih once ((List.mem_cons.1 listed).resolve_left here) (s.supEvent c cause addr value)
      rwa [s.core_supEvent_ne here] at later

@[simp] theorem State.link_onLink (s : State) (l : Nat) (f : Link → Link) : (s.onLink l f).link l = f (s.link l) := by
  simp [State.onLink, State.link]
theorem State.link_onLink_ne (s : State) {l l' : Nat} (h : l' ≠ l) (f : Link → Link) : (s.onLink l f).link l' = s.link l' := by
  simp [State.onLink, State.link, SMap.get_set_ne _ h]

/-- A vector fires on both links. -/
theorem State.msix_fire (s : State) (v : Nat) :
    ((s.fire v).link 0).msix = v :: (s.link 0).msix ∧ ((s.fire v).link 1).msix = v :: (s.link 1).msix := by
  simp only [State.fire, List.foldl_cons, List.foldl_nil]
  rw [State.link_onLink, State.link_onLink_ne _ (by decide : 0 ≠ 1), State.link_onLink,
    State.link_onLink_ne _ (by decide : 1 ≠ 0)]
  exact ⟨rfl, rfl⟩

/-! Containment (R78, R381). -/

/-- What a contained core keeps of its log was published or compacted. -/
theorem Log.mem_contain {l : Log} {e : LogEnt} (kept : e ∈ l.contain.ents) : e ∈ l.ents ∧ e.pos < max l.pubVault l.comp := by
  simpa [Log.contain, Log.compact] using kept

theorem State.containGroups_none {s : State} {c : Nat} (groups : (s.core c).groups = []) (deals : (s.core c).deals = []) :
    s.containGroups c = s.onCore c fun k => { k with groups := [], deals := [], swapped := [] } := by
  simp [State.containGroups, groups, deals]

theorem State.containStreams_none {s : State} (none_ : ∀ d ∈ s.dies, d.2.streams = []) (c : Nat) : s.containStreams c = s :=
  foldl_of_forall_mem fun d hd => by rw [none_ d hd, List.foldl_nil]

/-- A change of a die that opens no stream. -/
theorem State.onDie_streams {s : State} (none_ : ∀ d ∈ s.dies, d.2.streams = []) (d : Nat) {f : Die → Die}
    (keep : ∀ x, (f x).streams = x.streams) : ∀ x ∈ (s.onDie d f).dies, x.2.streams = [] :=
  SMap.forall_set (P := fun x : Die => x.streams = []) none_ d
    ((keep (s.die d)).trans (SMap.get_of_forall (P := fun x : Die => x.streams = []) none_ rfl d))

/-- The core without the waiters and queries that other cores have at it. -/
def Core.own (k : Core) : Core := { k with homeWaiters := [], acqPos := [] }

/-- Answering the queries that wait at a core changes nothing else of it. -/
theorem State.answerQueries_spec (s : State) (c : Nat) :
    let u := s.answerQueries c
    (u.core c).own = (s.core c).own ∧ u.links = s.links ∧ u.barriers = s.barriers := by
  let v := s.onCore c fun k => { k with acqPos := k.acqPos.filter fun q => k.log.comp < q.target }
  have same : v.SameUnits (s.answerQueries c) := .foldl (fun u _ => .send u ..) _ v
  refine ⟨?_, same.links, same.barriers⟩
  rw [same.core, State.core_onCore]
  rfl

/-- The core has stopped: its slots issue nothing, its inbox is empty, and its log is cut. -/
structure Core.Stopped (k : Core) (log : Log) : Prop where
  contained : k.contained = true
  slots : ∀ n, n < 16 → (k.slot n).run = .contained
  inbox : k.inbox = []
  resv : k.resv = []
  log : k.log = log.contain

theorem Core.Stopped.congr {k k' : Core} {log : Log} (same : k'.own = k.own) (h : k.Stopped log) : k'.Stopped log where
  contained := (congrArg Core.contained same :).trans h.contained
  slots n hn := by
    have slots : k'.slots = k.slots := (congrArg Core.slots same :)
    rw [Core.slot, slots]
    exact h.slots n hn
  inbox := (congrArg Core.inbox same :).trans h.inbox
  resv := (congrArg Core.resv same :).trans h.resv
  log := (congrArg Core.log same :).trans h.log

/-- A change of the waiters at every core. -/
theorem State.own_map {s : State} {f : Nat × Core → Nat × Core} (key : ∀ p, (f p).1 = p.1)
    (own : ∀ p, (f p).2.own = p.2.own) (default : ∀ c, (f (c, {})).2 = {}) (c : Nat) :
    (State.core { s with cores := s.cores.map f } c).own = (s.core c).own := by
  rw [State.core, SMap.get_map_of_default key s.cores (default c)]
  exact own _

/-- A core has been contained: it has stopped, and Phaekus has been told. -/
structure State.Contained (c : Nat) (s u : State) : Prop where
  stopped : (u.core c).Stopped (s.core c).log
  told : c ∈ u.mgmt.told
  links : u.links = s.links
  barriers : u.barriers = s.barriers

/-- A core without groups, in a machine without streams, stops; what follows tells others of it. -/
theorem State.containCore_contains {s : State} {c : Nat} (groups : (s.core c).groups = []) (deals : (s.core c).deals = [])
    (streams : ∀ d ∈ s.dies, d.2.streams = []) : s.Contained c (s.containCore c) := by
  unfold State.containCore
  extract_lets away images cleared cut ungrouped stop stopped drop unwaited answered undescribed podTold ended
  have same : s.SameUnits cleared := .clearImages s c images
  have core : cut.core c = { s.core c with contained := true, log := (s.core c).log.contain } := by
    rw [State.core_onCore, same.core]
  have ungroups : ungrouped = cut.onCore c fun k => { k with groups := [], deals := [], swapped := [] } :=
    State.containGroups_none (by rw [core, groups]) (by rw [core, deals])
  have kept : ungrouped.core c = { cut.core c with groups := [], deals := [], swapped := [] } := by
    rw [ungroups, State.core_onCore]
  have stops : (stopped.core c).Stopped (s.core c).log := by
    refine ⟨?_, fun n hn => ?_, ?_, ?_, ?_⟩
    · rw [State.core_onCore, kept, core]
    · rw [State.core_onCore, Core.slot]
      exact congrArg Slot.run (SMap.get_of_keys (fun n => (stop n).2) (mem_below.2 hn) _)
    · rw [State.core_onCore]
    · rw [State.core_onCore]
    · rw [State.core_onCore, kept, core]
  have dies : stopped.dies = s.dies := (congrArg State.dies ungroups).trans same.dies
  have links : stopped.links = s.links := (congrArg State.links ungroups).trans same.links
  have barriers : stopped.barriers = s.barriers := (congrArg State.barriers ungroups).trans same.barriers
  clear_value stopped
  have drops : (unwaited.core c).own = (stopped.core c).own :=
    State.own_map (s := stopped) (f := drop) (fun _ => rfl) (fun _ => rfl) (fun _ => rfl) c
  have tells : unwaited.SameUnits answered := .foldl (fun u _ => .send u ..) away unwaited
  have answers : undescribed.core c = unwaited.core c := tells.core c
  have noStreams : ∀ d ∈ undescribed.dies, d.2.streams = [] :=
    State.onDie_streams ((tells.dies.trans dies) ▸ streams) _ fun _ => rfl
  have links : undescribed.links = s.links := tells.links.trans links
  have barriers : undescribed.barriers = s.barriers := tells.barriers.trans barriers
  clear_value answered undescribed
  have podTells : undescribed.SameUnits podTold := .foldl (fun u _ => .send u ..) _ undescribed
  obtain ⟨asked, askedLinks, askedBarriers⟩ := podTold.answerQueries_spec c
  have ends : ended = podTold.answerQueries c :=
    congrArg (State.answerQueries · c) (State.containStreams_none (podTells.dies ▸ noStreams) c)
  rw [← ends] at asked askedLinks askedBarriers
  have own : (ended.core c).own = (stopped.core c).own := by rw [asked, podTells.core, answers, drops]
  clear_value podTold ended
  exact ⟨.congr own stops, mem_setIns.2 (.inl rfl), askedLinks.trans (podTells.links.trans links),
    askedBarriers.trans (podTells.barriers.trans barriers)⟩

/-- The containment of one core, in a machine without barriers that wait. -/
theorem execContainment_one {s : State} {q : Nat} (alone : s.rectangle (s.arg 0) = [q])
    (none_ : (s.containCore q).barriers = []) : execContainment s = .next ((s.containCore q).fire 3) := by
  simp only [execContainment, alone, List.isEmpty_cons, Bool.false_eq_true, if_false, List.foldl_cons, List.foldl_nil]
  generalize s.containCore q = v at none_
  have barriers : (v.fire 3).barriers = [] := none_
  rw [barriers, List.foldl_nil]

/-- Settles O55: each event from what it does to its core and, where one is sent, its message. -/
theorem supervisorEvents : Obligations.SupervisorEvents := by
  intro s c p
  refine ⟨?request, ?episode, ?first, ?limit, ?deadlock, ?noDeadlock, ?quiet, ?nothing, ?containment⟩
  case request =>
    rintro core ref entry arg requester known body rfl
    exact execUrgRequestArrival_spec (s := { s with evt := [p.id] }) rfl known body
  case episode =>
    intro entry requester arg rest queue kept level idle
    exact execUrgentEpisodeStart_spec (s := { s with evt := [c] }) rfl queue kept level idle
  case first => exact State.noteUrgent_spec
  case limit =>
    intro past kept level hold lead still backs
    exact execUrgLimit_spec (s := { s with evt := [c] }) rfl past kept level hold lead still backs
  case deadlock =>
    intro once armed asleep quiet
    let v : State := s.working.foldl (fun s c => s.supEvent c causeDeadlock 0 0) { s with evt := [] }
    have cores : State.CoresOnly { s with evt := [] } v := .foldl (fun u c => .supEvent u c ..) s.working _
    refine ⟨v.onMgmt fun m => { m with armed := false }, ?_, cores.mem, ?_, fun q live kept => ?_⟩
    · have due : (s.mgmt.armed && !s.mgmt.hwake && s.allQuiet) = true := by simp [armed, asleep, quiet]
      exact congrArg Host.Outcome.next (if_pos due)
    · exact congrArg (fun m : Mgmt => { m with armed := false }) cores.mgmt
    · have works : q ∈ s.working := List.mem_filter.2 ⟨live, by simp [kept]⟩
      exact State.trap_foldl_supEvent causeDeadlock 0 0 (once.filter _) works { s with evt := [] }
  case noDeadlock =>
    intro none_
    have off : ¬ (s.mgmt.armed && !s.mgmt.hwake && s.allQuiet) = true := by
      rcases none_ with h | h | h <;> simp [h]
    exact congrArg Host.Outcome.next (if_neg off)
  case quiet =>
    intro wake fresh quiet
    have due : (s.mgmt.hwake && !s.mgmt.quietNow && s.allQuiet) = true := by simp [wake, fresh, quiet]
    exact ⟨_, congrArg Host.Outcome.next (if_pos due), rfl, rfl, rfl, s.msix_fire 1⟩
  case nothing =>
    intro none_
    have empty : (s.rectangle c).isEmpty = true := by rw [none_, List.isEmpty_nil]
    exact congrArg Host.Outcome.next (if_pos empty)
  case containment =>
    intro q alone groups deals streams barriers
    have done := State.containCore_contains (s := { s with evt := [c] }) groups deals streams
    have runs := execContainment_one (s := { s with evt := [c] }) alone (done.barriers.trans barriers)
    generalize State.containCore { s with evt := [c] } q = v at done runs
    obtain ⟨stopped, told, links, -⟩ := done
    have msix : ∀ k, v.link k = s.link k := fun k => by rw [State.link, links, State.link]
    refine ⟨v.fire 3, runs, stopped.contained, stopped.slots, stopped.inbox, stopped.resv, told, fun e kept => ?_, ?_⟩
    · have listed : e ∈ (v.core q).log.ents := kept
      rw [stopped.log] at listed
      exact Log.mem_contain listed
    · rw [← msix 0, ← msix 1]
      exact v.msix_fire 3

end Sys2Proof.Machine
end

section
/-!
SUPPORT. Which check of an access fails first (R50).
-/
namespace Sys2Proof.Machine

theorem upFrom_eq_range' (lo n : Nat) : upFrom lo n = List.range' lo n := by
  induction n generalizing lo with
  | zero => rfl
  | succ n ih => rw [upFrom, ih, List.range'_succ]
theorem below_eq_range (n : Nat) : below n = List.range n := by
  rw [below, upFrom_eq_range', List.range_eq_range']

/-- Lookups that all succeed leave nothing to walk for. -/
theorem filter_isNone_of_map_eq {α β : Type} {f : α → Option β} {ps : List α} {ts : List β} (found : ps.map f = ts.map some) :
    (ps.map fun p => (p, f p)).filter (fun p => p.2.isNone) = [] := by
  rw [List.filter_eq_nil_iff]
  rintro _ mem
  obtain ⟨p, hp, rfl⟩ := List.mem_map.1 mem
  have hit : f p ∈ ts.map some := found ▸ List.mem_map_of_mem hp
  obtain ⟨t, -, ht⟩ := List.mem_map.1 hit
  simp [← ht]

/-- Lookups that all succeed give their translations in order. -/
theorem filterMap_snd_of_map_eq {α β : Type} {f : α → Option β} {ps : List α} {ts : List β} (found : ps.map f = ts.map some) :
    (ps.map fun p => (p, f p)).filterMap (·.2) = ts := by
  have plain : (ps.map fun p => (p, f p)).filterMap (·.2) = (ps.map f).filterMap id := by
    simp only [List.filterMap_map]
    rfl
  rw [plain, found, List.filterMap_map]
  exact List.filterMap_some

/-- The homes of step 3 of R50 as a list over the natural numbers. -/
theorem State.testHomes_eq (s : State) (c : Nat) (tl : List Tlb) (t : Tlb) (e hi : Nat) :
    s.testHomes c tl t e hi =
      if t.ent.hmode = 1 ∧ t.ent.kind ≠ kScratch then
        (List.range (min (hi / 2 ^ t.ent.glog - e / 2 ^ t.ent.glog + 1) (t.ent.hcnt + 1))).map fun i =>
          s.testHome c t (e + i * 2 ^ t.ent.glog)
      else tl.map fun p => s.testHome c p e := by
  simp only [State.testHomes, below_eq_range]

/-- The checks of R50 of an access that has all its translations. -/
theorem State.check_of_found {s : State} {c n : Nat} {k : Cap} {x len : Nat} {t : Tlb} {rest : List Tlb} (num need align elem : Nat)
    (side : Bool) (kind : ObjEnt → Nat → Bool) (plain : k.obj ≠ aliasObj)
    (found : ((if k.base + x + len ≤ k.limit then pagesOf (k.base + x) len else [k.base / 2 ^ 21]).map fun p =>
      s.lookup c n k.obj p) = (t :: rest).map some) :
    s.check c n k num x len need align elem side kind =
      if !k.tag then .bad causeCapTag k.base (memValue num elem)
      else if !t.ent.ok || t.ent.kind == 0 || k.gen != t.ent.gen then .bad causeCapTag k.base (memValue num elem)
      else if !k.holds need || (s.testHomes c (t :: rest) t (k.base + x)
          (min (k.base + x + len) (max (k.base + x + 1) t.ent.len) - 1)).any (fun h => !kind t.ent h) then
        .bad causeRights k.base (memValue num elem)
      else if k.limit < k.base + x + len || t.ent.len < k.base + x + len then .bad causeBounds (k.base + x) (memValue num elem)
      else if (k.base + x) % align != 0 then .bad causeAlign (k.base + x) (memValue num elem)
      else if t.ent.sec && !(s.slot c n).world then .bad causeWorld k.base (memValue num elem)
      else if !side && (t :: rest).any (fun p => !p.mapped) then .bad causePage (k.base + x) (memValue num elem)
      else .ok ⟨k.obj, t.ent.gen, t.ent, k.base + x, t :: rest⟩ := by
  unfold State.check State.checkSpan
  simp only [plain, false_and, if_false, filter_isNone_of_map_eq found, filterMap_snd_of_map_eq found, List.isEmpty_nil,
    Bool.not_true, Bool.false_eq_true, List.map_id']

/-- A list of conditions with what each means is searched from the front. -/
theorem find?_fst_cons {α : Type} (b : Bool) (x : α) (l : List (Bool × α)) :
    ((b, x) :: l).find? (·.1) = if b then some (b, x) else l.find? (·.1) := by
  cases b <;> rfl

/-- Settles O20: with every page translated the checks are a chain of conditions, and the first that holds decides. -/
theorem capabilityChecks : Obligations.CapabilityChecks := by
  intro s c n k num x len need align elem side kind t rest plain
  dsimp only
  intro found
  have rights : k.holds need = decide (k.rights &&& need = need) := rfl
  have aligned : ((k.base + x) % align != 0) = decide ((k.base + x) % align ≠ 0) := by grind
  rw [State.check_of_found num need align elem side kind plain found, State.testHomes_eq, rights, aligned]
  generalize (if t.ent.hmode = 1 ∧ t.ent.kind ≠ kScratch then _ else _ : List Nat) = homes
  simp only [find?_fst_cons, List.find?_nil]
  split_ifs <;> rfl

end Sys2Proof.Machine
end

section
/-!
SUPPORT. Releases and fences: what publishing changes, and what a side log that is not empty does to the instructions of
ordering (R57, R214, R216, R218).
-/
namespace Sys2Proof.Machine

/-- Publishing at a scope moves the position of every level up to it to the tail, and no other (R57). -/
theorem Log.pub_publish (l : Log) (x : Nat) {lvl : Nat} (level : lvl ∈ [2, 4, 5, 6, 7, 8]) :
    (l.publish x).pub lvl = if lvl ≤ x then l.tail else l.pub lvl := by
  simp only [List.mem_cons, List.not_mem_nil, or_false] at level
  rcases level with rfl | rfl | rfl | rfl | rfl | rfl <;> rfl

theorem State.sideClear_of_empty {s : State} (empty : s.sideUsed s.ic s.is = 0) (f : State) : s.sideClear f = f :=
  if_pos empty
theorem State.sideClear_of_used {s : State} (used : s.sideUsed s.ic s.is ≠ 0) (f : State) :
    s.sideClear f = s.trap causePage (s.sideOff s.ic s.is 0) 0x8000 := if_neg used

/-- A fence whose set is empty goes on; any other parks for it (R218). -/
theorem execFence_of_empty {s : State} (empty : s.sideUsed s.ic s.is = 0) (sc : Scope) :
    execFence sc s =
      let wait := if sc.code < 2 then [] else s.fenceSet s.me sc.code
      Spec.guardedNext s (if wait = [] then s.retire else s.park .remote { fin := .fence wait, left := 1 }) := by
  simp only [execFence, State.sideClear_of_empty empty, State.guarded, List.isEmpty_iff]

/-- Settles O27: publishing is a change of the log alone, and the side log is looked at first. -/
theorem releaseFence : Obligations.ReleaseFence := by
  intro s sc d a
  refine ⟨fun lvl level => ?published, fun c => ?core, rfl, fun empty => ⟨?release, ?fence⟩, fun used => ⟨?_, ?_, ?_⟩⟩
  case published =>
    rw [State.onLog, State.core_onCore]
    exact Log.pub_publish _ _ level
  case core =>
    by_cases own : c = s.ic
    · rw [own, State.onLog, State.core_onCore]
    · rw [State.onLog, State.core_onCore_ne s own]
  case release => rw [exec_rel, execRel, State.sideClear_of_empty empty]; rfl
  case fence => rw [exec_fence, execFence_of_empty empty]
  · rw [exec_rel, execRel, State.sideClear_of_used used]; rfl
  · rw [exec_fence, execFence, State.sideClear_of_used used]; rfl
  · rw [exec_acq, execAcq, State.sideClear_of_used used]; rfl

end Sys2Proof.Machine
end

section
/-!
SUPPORT. Sending: what a packet that leaves changes, and that the packets already on their way stay there (R295).
-/
namespace Sys2Proof.Machine

theorem SMap.mem_of_mem_set {α : Type} {m : SMap α} {k : Nat} {v : α} {q : Nat × α} (h : q ∈ SMap.set m k v) :
    q = (k, v) ∨ q ∈ m := by
  induction m with
  | nil => exact .inl (List.mem_singleton.1 h)
  | cons p r ih =>
    unfold SMap.set at h
    split at h
    · exact (List.mem_cons.1 h).imp_right (List.mem_cons_of_mem p)
    · split at h
      · exact List.mem_cons.1 h
      · exact (List.mem_cons.1 h).elim (fun here => .inr (here ▸ List.mem_cons_self)) fun later =>
          (ih later).imp_right (List.mem_cons_of_mem p)

/-- A value at another key stays. -/
theorem SMap.mem_set_of_ne {α : Type} {m : SMap α} {k : Nat} {q : Nat × α} (h : q ∈ m) (other : q.1 ≠ k) (v : α) :
    q ∈ SMap.set m k v := by
  induction m with
  | nil => cases h
  | cons p r ih =>
    unfold SMap.set
    rcases List.mem_cons.1 h with rfl | later
    · rw [if_neg other]
      split
      · exact List.mem_cons_of_mem _ List.mem_cons_self
      · exact List.mem_cons_self
    · split
      · exact List.mem_cons_of_mem _ later
      · split
        · exact List.mem_cons_of_mem _ h
        · exact List.mem_cons_of_mem _ (ih later)

/-- Nothing differs but the packets on their way: their table, their numbers and the tracks that carry them. -/
def State.PacketsOnly (s u : State) : Prop :=
  { u with packets := [], pktNum := 0, endSeq := [], tracks := [] } =
    { s with packets := [], pktNum := 0, endSeq := [], tracks := [] }

namespace State.PacketsOnly

theorem refl (s : State) : s.PacketsOnly s := rfl
theorem trans {s u v : State} (a : s.PacketsOnly u) (b : u.PacketsOnly v) : s.PacketsOnly v := Eq.trans b a
theorem foldl {α : Type} {g : State → α → State} (each : ∀ (s : State) x, s.PacketsOnly (g s x)) (l : List α) (s : State) :
    s.PacketsOnly (l.foldl g s) := by
  induction l generalizing s with
  | nil => exact refl s
  | cons x r ih => exact (each s x).trans (ih _)

variable {s u : State} (h : s.PacketsOnly u)
include h

theorem mem : u.mem = s.mem := (congrArg State.mem h :)
theorem cores : u.cores = s.cores := (congrArg State.cores h :)
theorem dies : u.dies = s.dies := (congrArg State.dies h :)
theorem issue : u.issue = s.issue := (congrArg State.issue h :)
theorem pending : u.pending = s.pending := (congrArg State.pending h :)
theorem poison : u.poison = s.poison := (congrArg State.poison h :)
theorem badEntries : u.badEntries = s.badEntries := (congrArg State.badEntries h :)
theorem full : u.full = s.full := (congrArg State.full h :)
theorem core (c : Nat) : u.core c = s.core c := by rw [State.core, h.cores, State.core]
theorem die (d : Nat) : u.die d = s.die d := by rw [State.die, h.dies, State.die]
theorem slot (c n : Nat) : u.slot c n = s.slot c n := by rw [State.slot, h.core, State.slot]
theorem readByte (a : Nat) : u.readByte a = s.readByte a := by rw [State.readByte, h.mem, State.readByte]
theorem gprAt (c n : Nat) (r : Gpr) : u.gprAt c n r = s.gprAt c n r := by
  simp only [State.gprAt, State.bankC, State.group?, h.slot, h.core]
theorem gpr (r : Gpr) : u.gpr r = s.gpr r := by
  rw [State.gpr, State.ic, State.is, h.issue, h.gprAt, State.gpr, State.ic, State.is]
theorem me : u.me = s.me := by rw [State.me, State.ic, State.is, h.issue, h.slot, State.me, State.ic, State.is]

end State.PacketsOnly

/-- The packet as it is sent: with its number, and its place in the sequence of its endpoints. -/
def State.numbered (s : State) (p : Packet) : Packet :=
  { p with id := s.pktNum, seq := SMap.get s.endSeq ((p.src * 16 + p.ends.1) * 2 ^ 24 + p.dst * 16 + p.ends.2) 0 }
/-- The packet is on record, and not yet on a track. -/
def State.filed (s : State) (p : Packet) : State :=
  let key := (p.src * 16 + p.ends.1) * 2 ^ 24 + p.dst * 16 + p.ends.2
  { s with pktNum := s.pktNum + 1, endSeq := SMap.set s.endSeq key ((SMap.get s.endSeq key 0 + 1) % 65536)
           packets := SMap.set s.packets s.pktNum (s.numbered p) }

theorem State.PacketsOnly.inject (s : State) (p : Packet) : s.PacketsOnly (s.inject p) := by
  unfold State.inject
  split <;> rfl
theorem State.PacketsOnly.sendPkt (s : State) (p : Packet) : s.PacketsOnly (s.sendPkt p) :=
  trans (u := s.filed p) rfl (inject (s.filed p) (s.numbered p))
theorem State.PacketsOnly.send (s : State) (src dst cls flits : Nat) (launch : Option Nat) (body : Body) :
    s.PacketsOnly (s.send src dst cls flits launch body) := sendPkt s _
theorem State.PacketsOnly.dropPacket (s : State) (id : Nat) : s.PacketsOnly (s.dropPacket id) := rfl

theorem State.sendPkt_packets (s : State) (p : Packet) :
    (s.sendPkt p).packets = SMap.set s.packets s.pktNum (s.numbered p) := State.inject_packets ..
theorem State.inject_pktNum (s : State) (p : Packet) : (s.inject p).pktNum = s.pktNum := by
  unfold State.inject
  split <;> rfl
theorem State.sendPkt_pktNum (s : State) (p : Packet) : (s.sendPkt p).pktNum = s.pktNum + 1 := State.inject_pktNum ..

/-- A packet is on its way under its own number, which no later one gets. -/
def State.OnWay (s : State) (p : Packet) : Prop := (p.id, p) ∈ s.packets ∧ p.id < s.pktNum

theorem State.sendPkt_onWay (s : State) (p : Packet) : (s.sendPkt p).OnWay (s.numbered p) := by
  rw [State.OnWay, State.sendPkt_packets, State.sendPkt_pktNum]
  exact ⟨List.mem_of_find?_eq_some (SMap.find?_set ..), Nat.lt_succ_self _⟩
/-- What is on its way stays so when another packet is sent. -/
theorem State.OnWay.sendPkt {s : State} {q : Packet} (h : s.OnWay q) (p : Packet) : (s.sendPkt p).OnWay q := by
  obtain ⟨listed, old⟩ := h
  rw [State.OnWay, State.sendPkt_packets, State.sendPkt_pktNum]
  exact ⟨SMap.mem_set_of_ne listed (Nat.ne_of_lt old) _, Nat.lt_succ_of_lt old⟩
theorem State.mem_packets_of_sendPkt {s : State} {p : Packet} {q : Nat × Packet} (h : q ∈ (s.sendPkt p).packets) :
    q = (s.pktNum, s.numbered p) ∨ q ∈ s.packets := by
  rw [State.sendPkt_packets] at h
  exact SMap.mem_of_mem_set h

section sendAll
variable {α : Type} (f : α → Packet)

/-- Packets sent one after another are on their way together. -/
theorem State.OnWay.sendAll {s : State} {q : Packet} (h : s.OnWay q) (l : List α) :
    (l.foldl (fun s x => s.sendPkt (f x)) s).OnWay q := by
  induction l generalizing s with
  | nil => exact h
  | cons x r ih => exact ih (h.sendPkt (f x))
theorem State.sendAll_onWay {l : List α} {x : α} (listed : x ∈ l) (s : State) :
    ∃ (id seq : Nat), (l.foldl (fun s x => s.sendPkt (f x)) s).OnWay { f x with id, seq } := by
  induction l generalizing s with
  | nil => cases listed
  | cons y r ih =>
    rcases List.mem_cons.1 listed with rfl | later
    · exact ⟨_, _, (s.sendPkt_onWay (f x)).sendAll f r⟩
    · exact ih later _
/-- Nothing else is: a packet on its way was there before or is one of those sent. -/
theorem State.mem_packets_of_sendAll {l : List α} {s : State} {q : Nat × Packet}
    (h : q ∈ (l.foldl (fun s x => s.sendPkt (f x)) s).packets) :
    q ∈ s.packets ∨ ∃ x ∈ l, ∃ (id seq : Nat), q.2 = { f x with id, seq } := by
  induction l generalizing s with
  | nil => exact .inl h
  | cons y r ih =>
    rcases ih h with old | ⟨x, hx, sent⟩
    · rcases State.mem_packets_of_sendPkt old with rfl | old
      · exact .inr ⟨y, List.mem_cons_self, _, _, rfl⟩
      · exact .inl old
    · exact .inr ⟨x, List.mem_cons_of_mem y hx, sent⟩

end sendAll

/-- A packet on its way leaves for where it goes. -/
theorem State.OnWay.leaves {s : State} {p : Packet} (h : s.OnWay p) : Spec.Leaves s p.src p.dst p.cls p.flits p.body :=
  ⟨p, List.mem_map_of_mem (f := Prod.snd) h.1, rfl, rfl, rfl, rfl, rfl⟩

end Sys2Proof.Machine
end

section
/-!
SUPPORT. Acquires: the whole-scope mask, and the queries that an acquire sends (R64, R217).
-/
namespace Sys2Proof.Machine

/-! The log-set mask (R217). -/

/-- The cores of other packages lie within the scopes that cross packages. -/
theorem inScope_of_foreign {x c t : Nat} (wide : 7 ≤ x) (away : 864 ≤ t) : inScope x c t = true := by
  have level : levelOf c t = 7 := if_pos (.inr away)
  have notNarrow : ¬ x < 4 := by omega
  simp [inScope, notNarrow, level, wide]

theorem State.foreign_of_mem_podCores {s : State} {t : Nat} (h : t ∈ s.podCores) : 864 ≤ t := by
  obtain ⟨p, -, hp⟩ := List.mem_flatMap.1 h
  obtain ⟨i, -, rfl⟩ := List.mem_map.1 hp
  unfold foreignPos
  omega

/-- The mask of the whole scope names every core in it. -/
theorem State.logSet_whole (s : State) (x : Nat) :
    s.logSet x (2 ^ 61) =
      some ((s.logical.filter fun t => inScope x s.ic t) ++ if 7 ≤ x then s.podCores else []) := by
  have kind : bitsOf (2 ^ 61) 60 4 = 2 := by decide
  have rest : bitsOf (2 ^ 61) 0 60 = 0 := by decide
  have all : ((s.logical.filter fun t => inScope x s.ic t) ++ if 7 ≤ x then s.podCores else []).all
      (fun t => inScope x s.ic t) = true := by
    rw [List.all_append, Bool.and_eq_true]
    refine ⟨List.all_eq_true.2 fun t h => (List.mem_filter.1 h).2, List.all_eq_true.2 fun t h => ?_⟩
    by_cases wide : 7 ≤ x
    · rw [if_pos wide] at h
      exact inScope_of_foreign wide (State.foreign_of_mem_podCores h)
    · rw [if_neg wide] at h
      cases h
  unfold State.logSet
  simp only [kind, rest, ne_eq, not_true_eq_false, if_false, Option.bind_some, all, if_true]

/-- A general register depends on its slot's registers and bank, and on its core's banks. -/
theorem State.gprAt_congr {s u : State} {c n : Nat} (g : (u.slot c n).g = (s.slot c n).g)
    (bank : (u.slot c n).bank = (s.slot c n).bank) (groups : (u.core c).groups = (s.core c).groups)
    (sup : (u.core c).supC = (s.core c).supC) (r : Gpr) : u.gprAt c n r = s.gprAt c n r := by
  simp only [State.gprAt, State.bankC, State.group?, g, bank, groups, sup]

/-! Parking (R37). -/

/-- A number has been given out. -/
def State.numberUsed (s : State) : State := { s with pktNum := s.pktNum + 1 }
/-- The slot has parked for a reason. -/
def Slot.parks (t : Slot) (why : Why) (w : Wait) : Slot := { t with run := .parked, why, wait := some w }

/-! What an acquire does. -/

theorem strandRef_slot (n ticket : Nat) : strandRef n ticket % 16 = n % 16 := Nat.add_mul_mod_self_left ..

/-- The acquire of a slot that parks for it. -/
def State.acquireOf (s : State) (sc : Scope) (writers : List Nat) : Acq :=
  ⟨s.myRef, sc.code, writers, false, s.acctOf s.ic s.is⟩

/-- What the slot of an acquire waits for. -/
def State.acquireWait (s : State) (d : Pr) : Wait :=
  { fin := .pred d, left := 1, ticket := s.myRef / 16, next := s.issue.next, start := s.issue.start }

/-- The slot has parked for an acquire, and no query is on its way yet. -/
def State.parkedFor (s : State) (sc : Scope) (d : Pr) (writers : List Nat) : State :=
  (s.numberUsed.onSlot s.ic s.is fun t => t.parks .acquire (s.acquireWait d)).onCore s.ic fun k =>
    { k with acqs := k.acqs ++ [s.acquireOf sc writers] }

/-- A query to a writer. -/
def State.query (s : State) (w : Nat) : Packet :=
  { id := 0, src := s.ic, dst := w, cls := urgentClass, flits := 1, launch := s.acctOf s.ic s.is
    body := .acqQuery s.ic s.myRef (levelOf s.ic w) w }

theorem State.queryWriter_eq (s u : State) (w : Nat) :
    u.queryWriter s.ic s.myRef w (s.acctOf s.ic s.is) = u.sendPkt (s.query w) := by
  rw [State.queryWriter, State.send, State.query]

theorem State.foldl_queryWriter {s : State} (ws : List Nat) : ∀ {u : State}, u.issue = s.issue →
    ws.foldl (fun v w => v.queryWriter v.ic s.myRef w (s.acctOf s.ic s.is)) u =
      ws.foldl (fun v w => v.sendPkt (s.query w)) u := by
  induction ws with
  | nil =>
    intro u _
    rw [List.foldl_nil, List.foldl_nil]
  | cons w r ih =>
    intro u issue
    have core : u.ic = s.ic := congrArg Issue.core issue
    rw [List.foldl_cons, List.foldl_cons, core, State.queryWriter_eq]
    exact ih ((State.PacketsOnly.sendPkt u (s.query w)).issue.trans issue)

/-- An acquire of some other core parks its slot and asks the writers that no earlier acquire of the core waits for (R64). -/
theorem execAcq_asks {s : State} {sc : Scope} {a : Gpr} {l : List Nat} (d : Pr) (empty : s.sideUsed s.ic s.is = 0)
    (guard : s.guardOk = true) (set : s.logSet sc.code (s.gpr a).toNat = some l)
    (some_ : (l.filter fun t => t != s.ic) ≠ []) :
    execAcq sc d a s = .next (((l.filter fun t => t != s.ic).filter fun w =>
      !(s.core s.ic).acqs.any fun q => q.writers.contains w).foldl (fun u w => u.sendPkt (s.query w))
        (s.parkedFor sc d (l.filter fun t => t != s.ic))) := by
  have notEmpty : (l.filter fun t => t != s.ic).isEmpty = false := by simpa using some_
  have sends := fun ws => State.foldl_queryWriter (s := s) ws (u := s.parkedFor sc d (l.filter fun t => t != s.ic)) rfl
  unfold execAcq State.guarded
  simp only [State.sideClear_of_empty empty, guard, if_true, set, notEmpty, Bool.false_eq_true, if_false]
  exact congrArg Host.Outcome.next (sends _)

theorem State.core_parkedFor (s : State) (sc : Scope) (d : Pr) (writers : List Nat) :
    (s.parkedFor sc d writers).core s.ic = { (s.core s.ic).setSlot s.is (s.me.parks .acquire (s.acquireWait d)) with
      acqs := (s.core s.ic).acqs ++ [s.acquireOf sc writers] } := by
  rw [State.parkedFor, State.core_onCore, State.core_onSlot]
  rfl

theorem State.me_parkedFor (s : State) (sc : Scope) (d : Pr) (writers : List Nat) :
    (s.parkedFor sc d writers).me = s.me.parks .acquire (s.acquireWait d) :=
  (congrArg (Core.slot · s.is) (s.core_parkedFor sc d writers)).trans (Core.slot_setSlot ..)

theorem State.gpr_parkedFor (s : State) (sc : Scope) (d : Pr) (writers : List Nat) (r : Gpr) :
    (s.parkedFor sc d writers).gpr r = s.gpr r := by
  have me := s.me_parkedFor sc d writers
  have core := s.core_parkedFor sc d writers
  exact State.gprAt_congr (s := s) (u := s.parkedFor sc d writers) (congrArg Slot.g me :) (congrArg Slot.bank me :)
    (congrArg Core.groups core :) (congrArg Core.supC core :) r

/-- Settles O28: the mask names its writers, and the queries are the packets of one fold over those that are free. -/
theorem acquires : Obligations.Acquires := by
  intro s sc d a l empty guard m writers
  refine ⟨fun whole => whole ▸ s.logSet_whole sc.code, fun bad => ?_, fun set none_ => ?_, fun set some_ => ?_⟩
  · simp only [exec_acq, execAcq, State.sideClear_of_empty empty, State.guarded, guard, if_true, bad, m]
  · have isEmpty : (l.filter fun t => t != s.ic).isEmpty = true := List.isEmpty_iff.2 none_
    simp only [exec_acq, execAcq, State.sideClear_of_empty empty, State.guarded, guard, if_true, set, m, isEmpty]
  · let v := s.parkedFor sc d writers
    let free := writers.filter fun w => !(s.core s.ic).acqs.any fun q => q.writers.contains w
    have sends : v.PacketsOnly (free.foldl (fun u w => u.sendPkt (s.query w)) v) :=
      .foldl (fun u w => .sendPkt u (s.query w)) free v
    have me := sends.me.trans (s.me_parkedFor sc d writers)
    refine ⟨_, execAcq_asks d empty guard set some_, (congrArg Slot.run me :), (congrArg Slot.why me :), (congrArg Slot.pc me :),
      fun r => (sends.gpr r).trans (s.gpr_parkedFor sc d writers r), sends.mem, s.acquireOf sc writers, ?_, rfl, rfl,
      strandRef_slot .., fun w listed notBusy => ?_, fun p sent new => ?_⟩
    · rw [sends.core, s.core_parkedFor sc d writers]
    · have asked : w ∈ free := by
        refine List.mem_filter.2 ⟨listed, ?_⟩
        simpa using fun q hq names => notBusy ⟨q, hq, names⟩
      obtain ⟨id, seq, onWay⟩ := State.sendAll_onWay s.query asked v
      exact ⟨_, onWay.1, rfl, rfl, rfl⟩
    · rcases State.mem_packets_of_sendAll s.query sent with old | ⟨w, asked, id, seq, query⟩
      · exact absurd old new
      · obtain ⟨listed, notBusy⟩ := List.mem_filter.1 asked
        refine ⟨w, listed, ?_, ?_⟩
        · rintro ⟨q, hq, names⟩
          simp only [Bool.not_eq_true', List.any_eq_false, List.contains_iff_mem] at notBusy
          exact notBusy q hq names
        · dsimp only
          rw [query]
          exact ⟨rfl, rfl, rfl⟩

end Sys2Proof.Machine
end

section
/-!
SUPPORT. What a write of a core's vault leaves alone: it reaches memory, the registers that an image in the vault shows, and the
write queue (R131, R209), and nothing else.
-/
namespace Sys2Proof.Machine

/-- What no write of a vault reaches in a slot: all but the registers and the control state that an image shows (R378). -/
def Slot.still (t : Slot) : Slot :=
  { t with pc := 0, code := ⟨0, false⟩, g := [], v := [], p := [], k := [], seed := 0, wake := false }
theorem Slot.still_regs (t : Slot) (pc : Nat) (code : Cap) (g : SMap Word) (v : SMap Vec) (p : SMap Pred) (k : SMap Cap)
    (seed : Word) (wake : Bool) : Slot.still { t with pc, code, g, v, p, k, seed, wake } = t.still := rfl
/-- What no write of a vault reaches in a core outside its slots: all but the banks and the write queue. -/
def Core.still (k : Core) : Core :=
  { k with slots := [], groups := [], shared := [], supC := [], supW := [], vault := { k.vault with wq := [], late := [] } }

/-- Only memory, the registers that images show, and the write queues differ. -/
structure State.VaultOnly (s u : State) : Prop where
  rest : { u with cores := [], mem := [], tags := [], poison := [], badGranules := [] } =
    { s with cores := [], mem := [], tags := [], poison := [], badGranules := [] }
  core : ∀ c, (u.core c).still = (s.core c).still
  slot : ∀ c n, (u.slot c n).still = (s.slot c n).still

namespace State.VaultOnly

theorem refl (s : State) : s.VaultOnly s := ⟨rfl, fun _ => rfl, fun _ _ => rfl⟩
theorem trans {s u v : State} (a : s.VaultOnly u) (b : u.VaultOnly v) : s.VaultOnly v :=
  ⟨b.rest.trans a.rest, fun c => (b.core c).trans (a.core c), fun c n => (b.slot c n).trans (a.slot c n)⟩
theorem foldl {α : Type} {g : State → α → State} (each : ∀ (s : State) x, s.VaultOnly (g s x)) (l : List α) (s : State) :
    s.VaultOnly (l.foldl g s) := by
  induction l generalizing s with
  | nil => exact refl s
  | cons x r ih => exact (each s x).trans (ih _)
theorem ite {p : Prop} [Decidable p] {s u v : State} (a : s.VaultOnly u) (b : s.VaultOnly v) :
    s.VaultOnly (if p then u else v) := by
  split
  · exact a
  · exact b

/-- A change outside the cores, of memory and its marks alone. -/
theorem of_cores {s u : State} (cores : u.cores = s.cores)
    (rest : { u with cores := [], mem := [], tags := [], poison := [], badGranules := [] } =
      { s with cores := [], mem := [], tags := [], poison := [], badGranules := [] }) : s.VaultOnly u := by
  have core : ∀ c, u.core c = s.core c := fun c => by rw [State.core, cores, State.core]
  exact ⟨rest, fun c => by rw [core], fun c n => by rw [State.slot, core, State.slot]⟩

theorem onCore (s : State) (c : Nat) {f : Core → Core} (still : ∀ k, (f k).still = k.still := by exact fun _ => rfl)
    (slots : ∀ k, (f k).slots = k.slots := by exact fun _ => rfl) : s.VaultOnly (s.onCore c f) := by
  refine ⟨rfl, fun c' => ?_, fun c' n => by rw [s.slot_onCore c f (slots _)]⟩
  by_cases same : c' = c
  · rw [same, State.core_onCore, still]
  · rw [State.core_onCore_ne s same]

theorem setSlot (s : State) (c n : Nat) {x : Slot} (still : x.still = (s.slot c n).still) : s.VaultOnly (s.setSlot c n x) := by
  refine ⟨rfl, fun c' => ?_, fun c' n' => ?_⟩
  · by_cases same : c' = c
    · rw [same, State.setSlot, State.core_onCore]
      rfl
    · rw [State.setSlot, State.core_onCore_ne s same]
  · by_cases same : c' = c
    · subst same
      by_cases slot : n' = n
      · rw [slot, State.slot_setSlot, still]
      · rw [State.slot_setSlot_ne s slot]
    · rw [State.slot_setSlot_core s same]
theorem onSlot (s : State) (c n : Nat) {f : Slot → Slot} (still : ∀ t, (f t).still = t.still := by exact fun _ => rfl) :
    s.VaultOnly (s.onSlot c n f) := setSlot s c n (still _)

theorem onVault (s : State) (c : Nat) {f : Vault → Vault}
    (still : ∀ v, { f v with wq := [], late := [] } = { v with wq := [], late := [] } := by exact fun _ => rfl) :
    s.VaultOnly (s.onVault c f) :=
  onCore s c fun k => congrArg (fun v : Vault =>
    { k with slots := [], groups := [], shared := [], supC := [], supW := [], vault := v }) (still k.vault)

theorem onGroup (s : State) (c b : Nat) (f : Group → Group) : s.VaultOnly (s.onGroup c b f) := by
  unfold State.onGroup
  split
  · exact onCore s c
  · exact refl s
theorem setBankC (s : State) (c b i : Nat) (x : Word) : s.VaultOnly (s.setBankC c b i x) := ite (onCore s c) (onGroup ..)
theorem setBankW (s : State) (c b i : Nat) (x : Vec) : s.VaultOnly (s.setBankW c b i x) := ite (onCore s c) (onGroup ..)
theorem putGprAt (s : State) (c n : Nat) (r : Gpr) (x : Word) (clock : Nat) : s.VaultOnly (s.putGprAt c n r x clock) :=
  ite (refl s) (ite (onSlot s c n) (onCore s c))
theorem putPredAt (s : State) (c n : Nat) (r : Pr) (x : Pred) : s.VaultOnly (s.putPredAt c n r x) := ite (refl s) (onSlot s c n)
theorem writeMem (s : State) (a x n : Nat) : s.VaultOnly (s.writeMem a x n) := of_cores rfl rfl
theorem clean (s : State) (gs : List Nat) : s.VaultOnly (s.clean gs) := of_cores rfl rfl
theorem markPoison (s : State) (gs : List Nat) : s.VaultOnly (s.markPoison gs) := of_cores rfl rfl

theorem putVaultByte (s : State) (c a : Nat) (x : Byte) : s.VaultOnly (s.putVaultByte c a x) := by
  unfold State.putVaultByte
  split
  · dsimp only
    repeat' split
    all_goals first
      | exact putGprAt ..
      | exact putPredAt ..
      | exact setSlot s _ _ (Slot.still_regs ..)
      | exact refl s
  · split
    · exact ite (setBankW ..) (ite (setBankC ..) (refl s))
    · exact writeMem ..
theorem putVaultCells (s : State) (c : Nat) (cs : List Host.Cell) : s.VaultOnly (s.putVaultCells c cs) :=
  (foldl (fun s (p : Host.Cell) => putVaultByte s c p.1 p.2) cs s).trans (clean ..)
theorem enterLine (s : State) (c : Nat) (cs : List Host.Cell) (launch : Option Nat) : s.VaultOnly (s.enterLine c cs launch) :=
  (putVaultCells s c cs).trans (onVault _ c)
theorem putVaultTag (s : State) (c a : Nat) (k : Cap) : s.VaultOnly (s.putVaultTag c a k) := by
  unfold State.putVaultTag
  split
  · exact ite (onSlot s _ _) (ite (onSlot s _ _) (refl s))
  · exact ite (refl s) (of_cores rfl rfl)
theorem putTag? (s : State) (c : Nat) (cap : Option (Nat × Cap)) : s.VaultOnly (s.putTag? c cap) := by
  cases cap with
  | none => exact refl s
  | some p => exact putVaultTag ..
theorem enterPart (s : State) (c : Nat) (l : Late) : s.VaultOnly (s.enterPart c l) :=
  ((enterLine ..).trans (putTag? ..)).trans (markPoison ..)
theorem vaultParts (s : State) (c : Nat) (cs : List Host.Cell) (launch : Option Nat) (who : Writer) (cap : Option (Nat × Cap))
    (bad : List Nat) : s.VaultOnly (s.vaultParts c cs launch who cap bad) :=
  foldl (fun s _ => ite (enterPart ..) (onVault s c)) _ s
theorem vaultWrite (s : State) (c : Nat) (cs : List Host.Cell) (launch : Option Nat) (who : Writer) :
    s.VaultOnly (s.vaultWrite c cs launch who) := vaultParts ..

variable {s u : State} (h : s.VaultOnly u)
include h
theorem issue : u.issue = s.issue := (congrArg State.issue h.rest :)
theorem log (c : Nat) : (u.core c).log = (s.core c).log := (congrArg Core.log (h.core c) :)

end State.VaultOnly

end Sys2Proof.Machine
end

section
/-!
SUPPORT. The one log entry of an aligned scalar store (R201, R202).
-/
namespace Sys2Proof.Machine

/-! Numbers gathered byte by byte. -/

/-- The number whose bytes a function gives, from a place on. -/
def gather (f : Nat → Nat) (lo n : Nat) : Nat := (upFrom lo n).foldr (fun i acc => acc * 256 + f i) 0

theorem gather_succ (f : Nat → Nat) (lo n : Nat) : gather f lo (n + 1) = gather f (lo + 1) n * 256 + f lo := rfl

theorem gather_zero {f : Nat → Nat} {lo n : Nat} (zero : ∀ i, lo ≤ i → i < lo + n → f i = 0) : gather f lo n = 0 := by
  induction n generalizing lo with
  | zero => rfl
  | succ n ih => rw [gather_succ, ih fun i h h' => zero i (by omega) (by omega), zero lo le_rfl (by omega)]

/-- The bytes of a number, with nothing behind them, are its low bytes. -/
theorem gather_bytes {f : Nat → Nat} {n k : Nat} (room : n ≤ k) : ∀ {x lo : Nat},
    (∀ i, i < n → f (lo + i) = x / 256 ^ i % 256) → (∀ i, n ≤ i → i < k → f (lo + i) = 0) → gather f lo k = x % 256 ^ n := by
  induction n generalizing k with
  | zero =>
    intro x lo _ zero
    rw [gather_zero fun i h h' => ?_, pow_zero, Nat.mod_one]
    obtain ⟨j, rfl⟩ := Nat.exists_eq_add_of_le h
    exact zero j (Nat.zero_le j) (by omega)
  | succ n ih =>
    intro x lo bytes zero
    obtain ⟨k, rfl⟩ : ∃ k', k = k' + 1 := ⟨k - 1, by omega⟩
    have first : f lo = x % 256 := by simpa using bytes 0 (by omega)
    have later : gather f (lo + 1) k = x / 256 % 256 ^ n := by
      refine ih (by omega) (fun i h => ?_) fun i h h' => ?_
      · rw [Nat.add_right_comm, Nat.add_assoc, bytes (i + 1) (by omega), pow_succ', Nat.div_div_eq_div_mul]
      · rw [Nat.add_right_comm, Nat.add_assoc, zero (i + 1) (by omega) (by omega)]
    rw [gather_succ, first, later, pow_succ', Nat.mod_mul]
    omega

/-- Nothing in the first places moves the number up. -/
theorem gather_shift {f : Nat → Nat} {o : Nat} : ∀ {lo k : Nat}, (∀ i, i < o → f (lo + i) = 0) →
    gather f lo (o + k) = gather f (lo + o) k * 256 ^ o := by
  induction o with
  | zero => intro lo k _; simp
  | succ o ih =>
    intro lo k zero
    have first : f lo = 0 := zero 0 (by omega)
    have later : gather f (lo + 1) (o + k) = gather f (lo + 1 + o) k * 256 ^ o := by
      refine ih fun i h => ?_
      rw [Nat.add_right_comm, Nat.add_assoc, zero (i + 1) (by omega)]
    rw [Nat.add_right_comm, gather_succ, first, later, pow_succ, Nat.add_right_comm, Nat.add_assoc lo]
    ring

/-! One run of bytes in one line. -/

/-- The bytes of a run, by their place. -/
def runBytes (q n : Nat) (f : Nat → Byte) : List (Nat × Byte) := (List.range n).map fun i => (q + i, f i)

theorem any_runBytes (q n : Nat) (f : Nat → Byte) (o : Nat) :
    (runBytes q n f).any (fun p => p.1 == o) = decide (q ≤ o ∧ o < q + n) := by
  rw [Bool.eq_iff_iff, List.any_eq_true, decide_eq_true_iff]
  simp only [runBytes, List.mem_map, List.mem_range, beq_iff_eq]
  constructor
  · rintro ⟨_, ⟨i, hi, rfl⟩, rfl⟩
    omega
  · rintro ⟨lo, hi⟩
    exact ⟨_, ⟨o - q, by omega, rfl⟩, by simp; omega⟩

theorem find?_runBytes (q : Nat) {n i : Nat} (f : Nat → Byte) (h : i < n) :
    (runBytes q n f).find? (fun p => p.1 == q + i) = some (q + i, f i) := by
  have found : ((runBytes q n f).find? fun p => p.1 == q + i).isSome = true := by
    rw [List.find?_isSome]
    exact ⟨_, List.mem_map_of_mem (List.mem_range.2 h), by simp⟩
  obtain ⟨p, hp⟩ := Option.isSome_iff_exists.1 found
  obtain ⟨j, -, rfl⟩ := List.mem_map.1 (List.mem_of_find?_eq_some hp)
  have same : q + j = q + i := by simpa using List.find?_some hp
  obtain rfl : j = i := by omega
  exact hp

theorem find?_runBytes_outside {q n o : Nat} (f : Nat → Byte) (h : ¬(q ≤ o ∧ o < q + n)) :
    (runBytes q n f).find? (fun p => p.1 == o) = none := by
  rw [List.find?_eq_none]
  intro p hp hit
  have any : (runBytes q n f).any (fun p => p.1 == o) = true := List.any_eq_true.2 ⟨p, hp, hit⟩
  rw [any_runBytes, decide_eq_true_iff] at any
  exact h any

/-- The byte of a run at a place, and 0 where it has none. -/
def runByte (q n : Nat) (f : Nat → Byte) (o : Nat) : Nat :=
  (((runBytes q n f).find? fun p => p.1 == o).map fun p => p.2.toNat).getD 0

/-- Which bytes of a word are written, bit by bit. -/
theorem wordMask {p : Nat → Bool} {o n : Nat} (h : o + n ≤ 8) (bits : ∀ i, i < 8 → p i = decide (o ≤ i ∧ i < o + n)) :
    (below 8).foldr (fun i m => m * 2 + (if p i then 1 else 0)) 0 = (2 ^ n - 1) * 2 ^ o := by
  have all : ∀ o < 9, ∀ n < 9, o + n ≤ 8 →
      (below 8).foldr (fun i m => m * 2 + (if decide (o ≤ i ∧ i < o + n) then 1 else 0)) 0 = (2 ^ n - 1) * 2 ^ o := by decide
  rw [← all o (by omega) n (by omega) h]
  refine List.foldr_ext _ _ _ fun i hi m => ?_
  rw [below, mem_upFrom] at hi
  rw [bits i (by omega)]

theorem upFrom_split {lo n j : Nat} (h : lo ≤ j) (h' : j < lo + n) :
    upFrom lo n = upFrom lo (j - lo) ++ j :: upFrom (j + 1) (lo + n - (j + 1)) := by
  have one : j :: List.range' (j + 1) (lo + n - (j + 1)) = List.range' j (lo + n - j) := by
    rw [← List.range'_succ]
    congr 1
    omega
  have join := List.range'_append_1 (s := lo) (m := j - lo) (n := lo + n - j)
  rw [upFrom_eq_range', upFrom_eq_range', upFrom_eq_range', one]
  rw [Nat.add_sub_cancel' h] at join
  rw [join]
  congr 1
  omega

/-- A fold in which one element alone does something. -/
theorem foldl_upFrom_of_one {β : Type} {f : β → Nat → β} {b : β} {lo n j : Nat} (h : lo ≤ j) (h' : j < lo + n)
    (other : ∀ i, lo ≤ i → i < lo + n → i ≠ j → ∀ x, f x i = x) : (upFrom lo n).foldl f b = f b j := by
  rw [upFrom_split h h', List.foldl_append, List.foldl_cons]
  have before : (upFrom lo (j - lo)).foldl f b = b := by
    refine foldl_of_forall_mem fun i hi => ?_
    rw [mem_upFrom] at hi
    exact other i (by omega) (by omega) (by omega) b
  rw [before]
  refine foldl_of_forall_mem fun i hi => ?_
  rw [mem_upFrom] at hi
  exact other i (by omega) (by omega) (by omega) _

/-- A run of bytes within one word of a line makes one 8-byte entry with a mask (R201). -/
theorem splitLine_runBytes {q n : Nat} (f : Nat → Byte) (some_ : 0 < n) (line : q < 64) (word : q % 8 + n ≤ 8) :
    splitLine (runBytes q n f) =
      [(8 * (q / 8), 0, (2 ^ n - 1) * 2 ^ (q % 8), gather (fun i => runByte q n f (8 * (q / 8) + i)) 0 8)] := by
  have notFull : ∀ o m, 16 ≤ m → ((below m).all fun i => decide (q ≤ o + i ∧ o + i < q + n)) = false := by
    intro o m big
    rw [List.all_eq_false]
    by_cases first : q ≤ o
    · exact ⟨m - 1, by rw [below, mem_upFrom]; omega, by simp; omega⟩
    · exact ⟨0, by rw [below, mem_upFrom]; omega, by simp; omega⟩
  unfold splitLine
  simp only [any_runBytes, List.foldl_cons, List.foldl_nil, notFull, Nat.reduceLeDiff, Bool.false_and, Bool.false_eq_true, if_false,
    List.contains_nil, Bool.not_false, Bool.and_true]
  rw [show below 8 = upFrom 0 8 from rfl, foldl_upFrom_of_one (j := q / 8) (Nat.zero_le _) (by omega)]
  · have mask := wordMask (p := fun i => decide (q ≤ 8 * (q / 8) + i ∧ 8 * (q / 8) + i < q + n)) word
      fun i _ => decide_eq_decide.2 (by omega)
    have written : (2 ^ n - 1) * 2 ^ (q % 8) ≠ 0 :=
      Nat.mul_ne_zero (Nat.sub_ne_zero_of_lt (Nat.one_lt_two_pow some_.ne')) (by simp)
    rw [← show below 8 = upFrom 0 8 from rfl, mask, if_neg written]
    rfl
  · intro j _ _ other acc
    have mask := wordMask (p := fun i => decide (q ≤ 8 * j + i ∧ 8 * j + i < q + n)) (o := 0) (n := 0) (by omega)
      fun i _ => decide_eq_decide.2 (by omega)
    exact if_pos mask

theorem bytesAt_eq_runBytes (off x n : Nat) : bytesAt off x n = runBytes off n fun i => BitVec.ofNat 8 (x / 256 ^ i) := by
  induction n generalizing off x with
  | zero => rfl
  | succ n ih =>
    have first : x / 256 ^ 0 = x := by simp
    rw [bytesAt, ih, runBytes, runBytes, List.range_succ_eq_map, List.map_cons, List.map_map, first]
    refine congrArg (_ :: ·) (List.map_congr_left fun i _ => ?_)
    simp only [Function.comp_apply, Nat.succ_eq_add_one, pow_succ', Nat.div_div_eq_div_mul]
    rw [Nat.add_assoc, Nat.add_comm 1]

/-- Bytes that all lie in one line are one group. -/
theorem byLine_of_one {w : List (Nat × Byte)} {l : Nat} (some_ : w ≠ []) (one : ∀ p ∈ w, p.1 / 64 = l) :
    byLine w = [(l, w.map fun p => (p.1 % 64, p.2))] := by
  have lines : ∀ v : List (Nat × Byte), (∀ p ∈ v, p.1 / 64 = l) → v.foldl (fun (acc : List Nat) p =>
      if acc.contains (p.1 / 64) then acc else acc ++ [p.1 / 64]) [l] = [l] := fun v all =>
    foldl_of_forall_mem fun p hp => by simp [all p hp]
  obtain ⟨p, v, rfl⟩ := List.exists_cons_of_ne_nil some_
  obtain ⟨first, later⟩ := List.forall_mem_cons.1 one
  have mine : (p :: v).filter (fun p => p.1 / 64 == l) = p :: v := List.filter_eq_self.2 fun x hx => by simpa using one x hx
  unfold byLine
  simp only [List.foldl_cons, List.contains_nil, Bool.false_eq_true, if_false, List.nil_append, first, lines v later,
    List.map_cons, List.map_nil, mine]

theorem byLine_runBytes {off n : Nat} (f : Nat → Byte) (some_ : 0 < n) (line : off % 64 + n ≤ 64) :
    byLine (runBytes off n f) = [(off / 64, runBytes (off % 64) n f)] := by
  have split : ∀ i, i < n → (off + i) / 64 = off / 64 ∧ (off + i) % 64 = off % 64 + i := fun i h => by omega
  rw [byLine_of_one (l := off / 64)]
  · refine congrArg (fun x => [(off / 64, x)]) ?_
    rw [runBytes, runBytes, List.map_map]
    refine List.map_congr_left fun i hi => ?_
    rw [Function.comp_apply, (split i (List.mem_range.1 hi)).2]
  · simpa [runBytes, List.range_eq_nil] using some_.ne'
  · intro p hp
    obtain ⟨i, hi, rfl⟩ := List.mem_map.1 hp
    exact (split i (List.mem_range.1 hi)).1

/-- The data of a run's word: the low bytes of the number, moved to their place. -/
theorem gather_runByte {q n : Nat} (x : Nat) (word : q % 8 + n ≤ 8) :
    gather (fun i => runByte q n (fun i => BitVec.ofNat 8 (x / 256 ^ i)) (8 * (q / 8) + i)) 0 8 =
      x % 256 ^ n * 256 ^ (q % 8) := by
  have outside : ∀ i, ¬(q ≤ i ∧ i < q + n) → runByte q n (fun i => BitVec.ofNat 8 (x / 256 ^ i)) i = 0 := fun i h => by
    rw [runByte, find?_runBytes_outside _ h]
    rfl
  have inside : ∀ i, i < n → runByte q n (fun i => BitVec.ofNat 8 (x / 256 ^ i)) (q + i) = x / 256 ^ i % 256 := fun i h => by
    rw [runByte, find?_runBytes _ _ h]
    exact BitVec.toNat_ofNat ..
  have places : 8 = q % 8 + (8 - q % 8) := by omega
  refine (congrArg (gather _ 0) places).trans ((gather_shift ?_).trans ?_)
  · exact fun i h => outside _ (by omega)
  congr 1
  refine gather_bytes (by omega) (fun i h => ?_) fun i h h' => outside _ (by omega)
  have at_ : 8 * (q / 8) + (0 + q % 8 + i) = q + i := by omega
  rw [at_, inside i h]

/-- The entry of an aligned scalar store, not yet at its place in the log (R201, R202). -/
def scalarEntry (t : Xl) (home : Nat → Nat × Nat) (x n : Nat) : LogEnt :=
  let o := t.off % 8
  let h := home (t.off - o)
  { pos := 0, kind := 0, size := 0, mask := (2 ^ n - 1) * 2 ^ o, off := t.off - o, gen := t.gen, obj := t.obj
    data := BitVec.ofNat 512 (x % 256 ^ n * 256 ^ o), tag := false, home := h.1, addr := h.2, shipped := false, acked := false }

theorem logEntries_bytesAt (t : Xl) (home : Nat → Nat × Nat) (x : Nat) {n : Nat} (some_ : 0 < n) (word : t.off % 8 + n ≤ 8) :
    logEntries t home (byLine (bytesAt t.off x n)) = [scalarEntry t home x n] := by
  have within : t.off % 64 % 8 = t.off % 8 := by omega
  have start : t.off / 64 * 64 + 8 * (t.off % 64 / 8) = t.off - t.off % 8 := by omega
  rw [bytesAt_eq_runBytes, byLine_runBytes _ some_ (by omega), logEntries, List.foldl_cons, List.foldl_nil, List.nil_append,
    splitLine_runBytes _ some_ (by omega) (by omega), gather_runByte x (by omega), within, List.map_cons, List.map_nil, start]
  rfl

end Sys2Proof.Machine
end

section
/-!
SUPPORT. Scalar stores to shared objects: one entry at the tail of the log, and what the log drops at its front (R54, R56, R60).
-/
namespace Sys2Proof.Machine

/-! The log's front (R60). -/

theorem LogEnt.entryLen_word {e : LogEnt} (word : e.size = 0) : entryLen e = 24 := by rw [entryLen, word]; rfl

/-- An entry that compaction has passed while occupancy is more than one half. -/
def Log.droppable (l : Log) (e : LogEnt) : Bool := e.pos < l.comp && decide (l.size * 2 ^ 20 / 2 < l.tail - e.pos)

/-- Reclamation drops entries from the front that compaction has passed, and none while occupancy is at most one half. -/
theorem Log.ents_reclaim (l : Log) : ∃ m, l.reclaim.ents = l.ents.drop m ∧ (∀ x ∈ l.ents.take m, x.pos < l.comp) ∧
    (l.tail - l.recl ≤ l.size * 2 ^ 20 / 2 → m = 0) := by
  by_cases few : l.tail - l.recl ≤ l.size * 2 ^ 20 / 2
  · have same : l.reclaim = l := if_pos few
    exact ⟨0, by rw [same, List.drop_zero], by simp, fun _ => rfl⟩
  · have kept : l.reclaim.ents = l.ents.dropWhile l.droppable := by
      unfold Log.reclaim
      rw [if_neg few]
      rfl
    have split : l.ents.takeWhile l.droppable ++ l.ents.dropWhile l.droppable = l.ents := List.takeWhile_append_dropWhile
    refine ⟨(l.ents.takeWhile l.droppable).length, ?_, fun x hx => ?_, fun h => absurd h few⟩
    · rw [kept]
      exact (List.drop_left' rfl).symm.trans (congrArg (List.drop _) split)
    · have front : l.ents.take (l.ents.takeWhile l.droppable).length = l.ents.takeWhile l.droppable :=
        (congrArg (List.take _) split).symm.trans (List.take_left' rfl)
      rw [front] at hx
      have passed := List.mem_takeWhile_imp hx
      rw [Log.droppable, Bool.and_eq_true] at passed
      exact of_decide_eq_true passed.1

theorem Log.tail_reclaim (l : Log) : l.reclaim.tail = l.tail := by
  unfold Log.reclaim
  dsimp only
  split <;> rfl
theorem Log.watch_eq (l : Log) : ∃ spill early, l.watch = { l with spill, early } := ⟨_, _, rfl⟩
theorem Log.tail_watch (l : Log) : l.watch.tail = l.tail := by
  obtain ⟨spill, early, eq⟩ := l.watch_eq
  rw [eq]
theorem Log.ents_watch (l : Log) : l.watch.ents = l.ents := by
  obtain ⟨spill, early, eq⟩ := l.watch_eq
  rw [eq]

/-- The log with one more entry at its tail. -/
def Log.appendOne (l : Log) (e : LogEnt) : Log :=
  { l with ents := l.ents ++ [{ e with pos := l.tail }], tail := l.tail + entryLen e
           filter := l.filter ||| (1#1024 <<< (e.obj % 1024)) }
theorem Log.append_one (l : Log) (e : LogEnt) : l.append [e] = (l.appendOne e).reclaim.watch := rfl
theorem Log.ents_appendOne (l : Log) (e : LogEnt) : (l.appendOne e).ents = l.ents ++ [{ e with pos := l.tail }] := rfl
theorem Log.tail_appendOne (l : Log) (e : LogEnt) : (l.appendOne e).tail = l.tail + entryLen e := rfl
theorem Log.size_appendOne (l : Log) (e : LogEnt) : (l.appendOne e).size = l.size := rfl
theorem Log.comp_appendOne (l : Log) (e : LogEnt) : (l.appendOne e).comp = l.comp := rfl
theorem Log.recl_appendOne (l : Log) (e : LogEnt) : (l.appendOne e).recl = l.recl := rfl

/-- One 8-byte entry is appended at the tail. -/
theorem Log.append_word (l : Log) {e : LogEnt} (word : e.size = 0) : (l.append [e]).tail = l.tail + 24 ∧
    ∃ m, (l.append [e]).ents = (l.ents ++ [{ e with pos := l.tail }]).drop m ∧
      (∀ x ∈ (l.ents ++ [{ e with pos := l.tail }]).take m, x.pos < l.comp) ∧
      (l.tail + 24 - l.recl ≤ l.size * 2 ^ 20 / 2 → m = 0) := by
  have front := (l.appendOne e).ents_reclaim
  rw [Log.ents_appendOne, Log.tail_appendOne, Log.size_appendOne, Log.comp_appendOne, Log.recl_appendOne,
    LogEnt.entryLen_word word] at front
  rw [Log.append_one, Log.tail_watch, Log.tail_reclaim, Log.ents_watch, Log.tail_appendOne, LogEnt.entryLen_word word]
  exact ⟨rfl, front⟩

/-! The store. -/

/-- An aligned scalar lies in one word. -/
theorem MemTy.within_word (ty : MemTy) {off : Nat} (aligned : off % ty.bytes = 0) : 0 < ty.bytes ∧ off % 8 + ty.bytes ≤ 8 := by
  cases ty <;> simp only [MemTy.bytes] at * <;> omega

/-- A scalar store to a shared object goes to the log. -/
theorem State.store_shared {s : State} {ty : MemTy} {k : Kr} {x : Nat} {t : Xl} (d : Gpr)
    (ok : s.chkStore k x ty.bytes rW ty.bytes 0 s.mayStore = .ok t) (shared : t.ent.kind = kShared)
    (aligned : t.off % ty.bytes = 0) :
    s.store ty d k x = Spec.After s t.obj (s.storeLog [scalarEntry t (s.home t) (s.gpr d).toNat ty.bytes]) := by
  obtain ⟨some_, word⟩ := MemTy.within_word ty aligned
  have notScratch : ¬ kShared = kScratch := by decide
  have free : ∀ f, s.unlessHeld [] true f = f := fun f => if_neg (by simp)
  unfold State.store
  simp only [ok, State.withChk, State.storeBytes, shared, if_true, if_neg notScratch, free, List.flatMap_cons, List.flatMap_nil,
    List.append_nil, logEntries_bytesAt t (s.home t) (s.gpr d).toNat some_ word]

theorem State.log_onLog (s : State) (c : Nat) (f : Log → Log) : ((s.onLog c f).core c).log = f (s.core c).log := by
  rw [State.onLog, State.core_onCore]

/-- The entries of a store are in the log, and their ring bytes on their way into the vault. -/
def State.logged (s : State) (es : List LogEnt) : State :=
  s.numberUsed.appendLog s.ic es (s.acctOf s.ic s.is) (.slot s.myRef)

theorem State.VaultOnly.appendLog (s : State) (c : Nat) (es : List LogEnt) (acct : Option Nat) (who : Writer) :
    (s.onLog c fun l => l.append es).VaultOnly (s.appendLog c es acct who) := vaultWrite ..

theorem State.issue_logged (s : State) (es : List LogEnt) : (s.logged es).issue = s.issue :=
  (State.VaultOnly.appendLog s.numberUsed s.ic es _ _).issue

theorem State.log_logged (s : State) (es : List LogEnt) : ((s.logged es).core s.ic).log = (s.core s.ic).log.append es := by
  have log := (State.VaultOnly.appendLog s.numberUsed s.ic es (s.acctOf s.ic s.is) (.slot s.myRef)).log s.ic
  rw [State.log_onLog] at log
  exact log

/-- With room in the log the slot goes on, or waits for a line of the ring that finds no entry of the write queue. -/
theorem State.storeLog_of_room {s : State} {es : List LogEnt} (room : (s.core s.ic).log.room es = true) :
    s.storeLog es = if (s.logged es).isLate s.ic (.slot s.myRef) then
      (s.logged es).parkRef .remote s.myRef { fin := .queued, left := 1 } else (s.logged es).retire := by
  have core : (s.logged es).ic = s.ic := congrArg Issue.core (s.issue_logged es)
  rw [State.storeLog, if_pos room]
  exact congrArg (fun c => if (s.logged es).isLate c (.slot s.myRef) then _ else _) core

/-- R54, R56, R60, R201 and R209 for scalar stores to shared objects. -/
theorem sharedStores : Spec.SharedStores := by
  intro s ty d b k t ok shared aligned n o h e l ref u
  have stores : exec (.st ty d k b) s = Spec.guardedNext s (Spec.After s t.obj (s.storeLog [e])) :=
    congrArg (Spec.guardedNext s) (State.store_shared d ok shared aligned)
  refine ⟨fun room => ⟨?_, ?_⟩, fun full => ?_⟩
  · rw [stores, State.storeLog_of_room room]
    rfl
  · have log : (u.core s.ic).log = l.append [e] := s.log_logged [e]
    rw [log]
    exact l.append_word rfl
  · have notRoom : ¬ (s.core s.ic).log.room [e] = true := Bool.not_eq_true _ ▸ full
    rw [stores, State.storeLog, if_neg notRoom]

end Sys2Proof.Machine
end

section
/-!
SUPPORT. Scalar loads of unshared objects: the slot parks and asks the vault for the one block its bytes lie in (R208, R209).
-/
namespace Sys2Proof.Machine

/-! Translations that are installed (R314). -/

theorem Core.foldl_tlbInstall (ts : List Tlb) : ∀ k : Core, ∃ l, ts.foldl (fun k t => k.tlbInstall t) k = { k with tlb := l } := by
  induction ts with
  | nil => exact fun k => ⟨k.tlb, rfl⟩
  | cons t r ih =>
    intro k
    obtain ⟨l, hl⟩ := ih (k.tlbInstall t)
    exact ⟨l, hl⟩

/-- Installed translations change the TLB of the core alone. -/
theorem State.installWalked_eq (s : State) (c : Nat) (ts : List Tlb) :
    s.installWalked c ts = s ∨ ∃ l, s.installWalked c ts = s.onCore c fun k => { k with tlb := l } := by
  unfold State.installWalked
  split
  · exact .inl rfl
  · obtain ⟨l, hl⟩ := Core.foldl_tlbInstall ts (s.core c)
    exact .inr ⟨l, congrArg (s.setCore c) hl⟩

/-! One block (R208). -/

/-- Bytes of one block that no queue entry holds are one read. -/
theorem Vault.blocksOf_of_one {v : Vault} {a n : Nat} (empty : v.wq = []) (some_ : 0 < n) (one : (a + n - 1) / 256 = a / 256) :
    v.blocksOf [(a, n)] = [a / 256] := by
  obtain ⟨n, rfl⟩ : ∃ m, n = m + 1 := ⟨n - 1, by omega⟩
  have all : (upFrom a (n + 1)).filter (fun a => !v.queued a) = upFrom a (n + 1) :=
    List.filter_eq_self.2 fun x _ => by simp [Vault.queued, empty]
  have later : (upFrom (a + 1) n).foldl (fun acc a => if acc.contains (a / 256) then acc else acc ++ [a / 256]) [a / 256] =
      [a / 256] := by
    refine foldl_of_forall_mem fun x hx => ?_
    rw [mem_upFrom] at hx
    have same : x / 256 = a / 256 := by omega
    simp [same]
  rw [Vault.blocksOf, List.foldl_cons, List.foldl_nil, all, upFrom, List.foldl_cons]
  exact later

/-! The load. -/

/-- What a load of one block waits for. -/
def State.loadWait (s : State) (fin : Fin) (knum : Nat) (t : Xl) (n : Nat) : Wait :=
  { fin, left := 1, knum, reads := [⟨0, t.off, (s.home t t.off).2, n, 0⟩], ticket := s.myRef / 16
    next := s.issue.next, start := s.issue.start }
/-- The slot has parked for its block. -/
def State.loadParked (s : State) (w : Wait) : State := s.numberUsed.onSlot s.ic s.is fun x => x.parks .remote w
/-- The slot has parked for its block, and the request is on its way to the controller. -/
def State.asksBlock (s : State) (w : Wait) (a : Nat) : State :=
  (s.loadParked w).vreq s.ic (a / 256 * 256) 1 (.slot s.myRef) ((s.loadParked w).acctOf s.ic s.is)

/-- A load of an unshared object's bytes in one block, with nothing in its way, asks the vault (R208). -/
theorem State.loadPieces_private {s : State} {t : Xl} {n : Nat} (fin : Fin) (knum : Nat) (priv : t.ent.kind = kPrivate)
    (board : (s.core s.ic).board = []) (queue : (s.core s.ic).vault.wq = [])
    (notImage : s.cachedImage s.ic (s.home t t.off).2 = false) (some_ : 0 < n)
    (one : ((s.home t t.off).2 + n - 1) / 256 = (s.home t t.off).2 / 256) :
    s.loadPieces t [(0, t.off, n)] { fin, knum } = s.asksBlock (s.loadWait fin knum t n) (s.home t t.off).2 := by
  have free : ∀ rs f, s.unlessHeld rs false f = f := fun rs f => if_neg (by simp [board])
  have notScratch : ¬ kPrivate = kScratch := by decide
  have notShared : ¬ (kPrivate = kShared ∨ kPrivate = kCode) := by decide
  have blocks := Vault.blocksOf_of_one queue some_ one
  unfold State.loadPieces
  simp only [free, priv, if_neg notScratch, if_neg notShared, List.map_cons, List.map_nil, List.all_cons, notImage, Bool.false_and,
    Bool.false_eq_true, if_false, blocks, List.isEmpty_cons, List.foldl_cons, List.foldl_nil, List.length_cons, List.length_nil]
  rfl

/-- The request for a block. -/
def State.blockReq (s : State) (w : Wait) (a : Nat) : VReq :=
  { id := s.pktNum + 1, addr := a / 256 * 256, beats := 1, cont := .slot s.myRef, launch := (s.loadParked w).acctOf s.ic s.is }

theorem State.core_loadParked (s : State) (w : Wait) :
    (s.loadParked w).core s.ic = (s.core s.ic).setSlot s.is (s.me.parks .remote w) := State.core_onSlot ..

/-- The core of the slot with its request, and with any translations installed. -/
def State.coreAsking (s : State) (w : Wait) (a : Nat) (tlb : List Tlb) : Core :=
  let k := (s.core s.ic).setSlot s.is (s.me.parks .remote w)
  { k with vault := { k.vault with reqs := k.vault.reqs ++ [s.blockReq w a] }, tlb }

theorem State.core_asksBlock (s : State) (w : Wait) (a : Nat) :
    (s.asksBlock w a).core s.ic = s.coreAsking w a (s.core s.ic).tlb := by
  have core := State.core_onCore { s.loadParked w with pktNum := s.pktNum + 2 } s.ic
    (fun k => { k with vault := { k.vault with reqs := k.vault.reqs ++ [s.blockReq w a] } })
  have parked : ({ s.loadParked w with pktNum := s.pktNum + 2 } : State).core s.ic =
    (s.core s.ic).setSlot s.is (s.me.parks .remote w) := s.core_loadParked w
  rw [parked] at core
  exact core

/-- What a load's slot, its core and the events due are when it has asked for its block, whatever translations it installs. -/
theorem State.after_asksBlock (s : State) (w : Wait) (a obj : Nat) :
    let u := Spec.After s obj (s.asksBlock w a)
    (∃ tlb, u.core s.ic = s.coreAsking w a tlb) ∧ u.issue = s.issue ∧ u.mem = s.mem ∧
      ⟨s.cycle + 2, .vaultRequestArrival, [s.ic, (s.blockReq w a).id]⟩ ∈ u.pending := by
  have due : ⟨s.cycle + 2, .vaultRequestArrival, [s.ic, (s.blockReq w a).id]⟩ ∈ (s.asksBlock w a).pending :=
    Due.mem_insert ..
  dsimp only [Spec.After]
  rcases State.installWalked_eq (s.asksBlock w a) s.ic (s.walkedFor obj) with same | ⟨l, one⟩
  · rw [same]
    exact ⟨⟨_, s.core_asksBlock w a⟩, rfl, rfl, due⟩
  · rw [one, State.core_onCore, s.core_asksBlock]
    exact ⟨⟨l, rfl⟩, rfl, rfl, due⟩

/-- R208 and R209 for scalar loads of unshared objects. -/
theorem vaultLoads : Spec.VaultLoads := by
  intro s ty d b k t ok priv board side queue notImage guard one
  have some_ : 0 < ty.bytes := by cases ty <;> decide
  have notSide : s.sideCovers (s.cap k) ((s.cap k).base + (s.gpr b).toNat) ty.bytes = false := by
    rw [State.sideCovers, side]
    rfl
  let w := s.loadWait (.load d ty.bytes ty.isNat) k.toNat t ty.bytes
  have served := State.loadPieces_private (.load d ty.bytes ty.isNat) k.toNat priv board queue notImage some_ one
  have loads : exec (.ld ty d k b) s = .next (Spec.After s t.obj (s.asksBlock w (s.home t t.off).2)) := by
    simp only [exec_ld, execLd, State.guarded, guard, if_true, State.load, notSide, Bool.false_eq_true, if_false, ok, State.withChk,
      served, w]
  obtain ⟨⟨tlb, core⟩, issue, mem, due⟩ := s.after_asksBlock w (s.home t t.off).2 t.obj
  generalize Spec.After s t.obj (s.asksBlock w (s.home t t.off).2) = u at loads core issue mem due
  have own : u.ic = s.ic ∧ u.is = s.is := ⟨congrArg Issue.core issue, congrArg Issue.slot issue⟩
  have me : u.me = s.me.parks .remote w := by
    rw [State.me, own.1, own.2, State.slot, core]
    exact Core.slot_setSlot ..
  refine ⟨u, loads, ?_⟩
  rw [me, core]
  refine ⟨rfl, rfl, rfl, ⟨w, rfl, rfl, rfl, rfl, rfl⟩, ⟨_, rfl, rfl, rfl, due⟩, fun r => ?_, mem⟩
  have me' : u.slot s.ic s.is = s.me.parks .remote w := by rw [← own.1, ← own.2]; exact me
  rw [State.gpr, own.1, own.2]
  refine State.gprAt_congr ?_ ?_ ?_ ?_ r
  · rw [me']; rfl
  · rw [me']; rfl
  · rw [core]; rfl
  · rw [core]; rfl

/-- Settles O26, the stores and the loads apart. -/
theorem vaultAndSharedAccesses : Obligations.VaultAndSharedAccesses := ⟨sharedStores, vaultLoads⟩

end Sys2Proof.Machine
end

section
/-!
SUPPORT. O48 and O49 leave free which bytes the overlay or the mirror gives to the wait that an answer ends (`near`). Where
such a byte is poisoned in the vault, the wait ends in `POISON` (R211) and no register is written.
-/
namespace Sys2Proof.Machine

/-- A wait for one more arrival that takes a byte at vault address 0 from the overlay or the mirror. -/
def nearWait (fin : Fin) : Wait := { fin, left := 1, near := [⟨0, 0, 0, 1, 0⟩], next := 2 }

/-- Slot 0 parked at PC 0 in that wait, and an acquire of the slot that waits for core 864 alone. -/
def nearCore (fin : Fin) : Core :=
  { slots := [(0, { run := .parked, wait := some (nearWait fin) })], acqs := [⟨0, 0, [864], false, none⟩] }

/-- Core 0 so, the granule of its wait's byte poisoned, and one packet on its way from core 1. -/
def nearPoisoned (fin : Fin) (body : Body) : State :=
  { State.reset with
    poison := [0]
    cores := [(0, nearCore fin)]
    packets := [(0, { id := 0, src := 1, dst := 0, cls := 0, flits := 1, body })]
    evt := [0] }

/-- The answer that ends an acquire. -/
def lastAnswer : State := nearPoisoned (.pred 1) (.acqAnswer 0 0 864 0 false)

theorem lastAnswer_plain : ∀ i, i < 8 → Spec.PlainByte lastAnswer 0 (lastAnswer.cursorAddr 864 + i) := by
  decide

/-- The last answer arrives, and the slot traps at its acquire. -/
theorem lastAnswer_traps : ∃ v, exec .acqWriterDone lastAnswer = .next v ∧ (v.slot 0 0).run = .trapped ∧ (v.slot 0 0).pc = 0 :=
  ⟨_, rfl, by decide, by decide⟩

/-- Refutes O48: an acquire's wait may carry bytes of the overlay or the mirror, of which its clause says nothing. In
`lastAnswer` one of them is poisoned, so the last answer ends the acquire in a trap and the program counter stays at 0, while the
clause sends it to `x.next`, which is 2. -/
theorem not_logEvents : ¬ Obligations.LogEvents := by
  unfold Obligations.LogEvents
  intro h
  obtain ⟨-, -, -, -, -, -, -, -, -, -, answer, -⟩ := h lastAnswer 0
    { id := 0, src := 1, dst := 0, cls := 0, flits := 1, body := .acqAnswer 0 0 864 0 false }
  obtain ⟨u, run, -, -, -, pc⟩ := answer 0 864 0 false 0 none 1 (nearWait (.pred 1)) ⟨rfl, rfl⟩ rfl (by decide) ⟨rfl, by decide⟩
    lastAnswer_plain rfl rfl rfl rfl rfl rfl rfl rfl rfl
  obtain ⟨v, ends, -, stays⟩ := lastAnswer_traps
  have same : u = v := Host.Outcome.next.inj (run.symm.trans ends)
  rw [same] at pc
  exact absurd (stays.symm.trans pc) (by decide)

end Sys2Proof.Machine
end

section
/-!
SUPPORT. The same wait, ended by the reply of a home.
-/
namespace Sys2Proof.Machine

/-- The reply that brings a word of value 7 to register 1. -/
def lastReply : State := nearPoisoned (.word 1) (.reply 0 0 7 0 none)

/-- The reply arrives, and the slot traps at its instruction with register 1 as it was. -/
theorem lastReply_traps : ∃ v, exec .remoteReply lastReply = .next v ∧ (v.slot 0 0).run = .trapped ∧ v.gprAt 0 0 1 = 0 :=
  ⟨_, rfl, by decide, by decide⟩

/-- Refutes O49: a wait for a word may carry bytes of the overlay or the mirror, of which its clause says nothing. In `lastReply`
one of them is poisoned, so the reply ends the instruction in a trap and register 1 keeps 0, while the clause gives it the
reply's word, 7. -/
theorem not_homeEvents : ¬ Obligations.HomeEvents := by
  unfold Obligations.HomeEvents
  intro h
  obtain ⟨-, -, -, -, -, -, -, -, -, reply, -, -, -⟩ := h lastReply
    { id := 0, src := 1, dst := 0, cls := 0, flits := 1, body := .reply 0 0 7 0 none }
    ⟨.readLine, 0, 0, 0, 0, 0, 0, 0, none, false, 0, none⟩
  obtain ⟨u, run, written, -, -⟩ := reply 0 0 7 1 (nearWait (.word 1)) rfl rfl rfl rfl rfl rfl rfl rfl rfl
    (by decide) (by decide) rfl (by decide)
  obtain ⟨v, ends, -, stays⟩ := lastReply_traps
  have same : u = v := Host.Outcome.next.inj (run.symm.trans ends)
  rw [same] at written
  exact absurd (stays.symm.trans written) (by decide)

end Sys2Proof.Machine
end

section
/-!
SUPPORT. What the engines' own operations change: a copy's entry of the board, the slots that go on, a reserved inbox entry that
is filled, and the cells of a segment (R275, R281, R284).
-/
namespace Sys2Proof.Machine

/-! Slots that go on. -/

/-- What slots that go on leave alone in a core. -/
def Core.outside (k : Core) : Core := { k with slots := [], swapped := [] }

/-- Slots of a core may have come back into the rotation, and a Swapped one may be due; one that is parked still was so before. -/
structure State.Awakens (s u : State) : Prop where
  rest : { u with cores := [] } = { s with cores := [] }
  outside : ∀ d, (u.core d).outside = (s.core d).outside
  parked : ∀ d n, (u.slot d n).run = .parked → u.slot d n = s.slot d n

namespace State.Awakens

theorem refl (s : State) : s.Awakens s := ⟨rfl, fun _ => rfl, fun _ _ _ => rfl⟩
theorem trans {s u v : State} (a : s.Awakens u) (b : u.Awakens v) : s.Awakens v := by
  refine ⟨b.rest.trans a.rest, fun d => (b.outside d).trans (a.outside d), fun d n h => ?_⟩
  have same := b.parked d n h
  exact same.trans (a.parked d n (same ▸ h))
theorem foldl {α : Type} {g : State → α → State} (each : ∀ (s : State) x, s.Awakens (g s x)) (l : List α) (s : State) :
    s.Awakens (l.foldl g s) := by
  induction l generalizing s with
  | nil => exact refl s
  | cons x r ih => exact (each s x).trans (ih _)
theorem ite {p : Prop} [Decidable p] {s u v : State} (a : s.Awakens u) (b : s.Awakens v) : s.Awakens (if p then u else v) := by
  split
  · exact a
  · exact b

theorem rejoin (s : State) (c n : Nat) : s.Awakens (s.rejoin c n) := by
  unfold State.rejoin
  refine ⟨rfl, fun d => ?_, fun d m h => ?_⟩
  · by_cases same : d = c
    · rw [same, State.onSlot, State.setSlot, State.core_onCore]
      rfl
    · rw [State.onSlot, State.setSlot, State.core_onCore_ne s same]
  · by_cases same : d = c
    · subst same
      by_cases slot : m = n
      · rw [slot, State.slot_onSlot] at h
        dsimp only at h
        split at h <;> cases h
      · exact State.slot_onSlot_ne s slot _
    · exact State.slot_onSlot_core s same ..

theorem onSwapped (s : State) (c : Nat) (f : Nat × Slot → Nat × Slot) :
    s.Awakens (s.onCore c fun k => { k with swapped := k.swapped.map f }) := by
  refine ⟨rfl, fun d => ?_, fun d n _ => s.slot_onCore c _ (by rfl) d n⟩
  by_cases same : d = c
  · rw [same, State.core_onCore]
    rfl
  · rw [State.core_onCore_ne s same]

theorem pokeAgain (s : State) (c : Nat) (why : Why) : s.Awakens (s.pokeAgain c why) := by
  unfold State.pokeAgain
  dsimp only
  have slots := foldl (g := fun u n => if (u.slot c n).run == .parked && ((u.slot c n).why == why &&
    ((u.slot c n).wait.map (·.fin)) == some .again) then u.rejoin c n else u) (fun u n => ite (rejoin u c n) (refl u)) (below 16) s
  exact ite (slots.trans (onSwapped ..)) slots

variable {s u : State} (h : s.Awakens u)
include h

theorem mem : u.mem = s.mem := (congrArg State.mem h.rest :)
theorem dies : u.dies = s.dies := (congrArg State.dies h.rest :)
theorem copies (d : Nat) : (u.core d).copies = (s.core d).copies := (congrArg Core.copies (h.outside d) :)
theorem board (d : Nat) : (u.core d).board = (s.core d).board := (congrArg Core.board (h.outside d) :)
theorem inbox (d : Nat) : (u.core d).inbox = (s.core d).inbox := (congrArg Core.inbox (h.outside d) :)
theorem resv (d : Nat) : (u.core d).resv = (s.core d).resv := (congrArg Core.resv (h.outside d) :)
theorem groups (d : Nat) : (u.core d).groups = (s.core d).groups := (congrArg Core.groups (h.outside d) :)
theorem still {c : Nat} (at_ : Spec.StillAt s c) : Spec.StillAt u c := by
  obtain ⟨slots, parking⟩ := at_
  refine ⟨fun n run => ?_, fun p hp => parking p (h.groups c ▸ hp)⟩
  have same := h.parked c n run
  rw [same] at run ⊢
  exact slots n run

end State.Awakens

/-! Cells. -/

theorem State.readByte_writeCell {s : State} (w : Memory.wf s.mem = true) (a : Nat) (x : Byte) (b : Nat) :
    (s.writeMem a x.toNat 1).readByte b = if b = a then x else s.readByte b := by
  have cell : (s.writeMem a x.toNat 1).mem = Memory.write s.mem a (BitVec.ofNat 8 x.toNat) := rfl
  rw [State.readByte, cell, Memory.read_write w, BitVec.ofNat_toNat, BitVec.setWidth_eq, State.readByte]

theorem State.readByte_putCells_of_ne {cs : List Host.Cell} {a : Nat} :
    ∀ {s : State}, Memory.wf s.mem = true → (∀ x ∈ cs, a ≠ x.1) → (s.putCells cs).readByte a = s.readByte a := by
  induction cs with
  | nil => exact fun _ _ => rfl
  | cons y r ih =>
    intro s w apart
    obtain ⟨here, later⟩ := List.forall_mem_cons.1 apart
    rw [State.putCells, ih (State.writeMem_wf w ..) later, State.readByte_writeCell w, if_neg here]

/-- Cells of different places are all there afterwards. -/
theorem State.readByte_putCells {cs : List Host.Cell} {x : Host.Cell} (listed : x ∈ cs) :
    ∀ {s : State}, Memory.wf s.mem = true → (cs.map (·.1)).Nodup → (s.putCells cs).readByte x.1 = x.2 := by
  induction cs with
  | nil => cases listed
  | cons y r ih =>
    intro s w nodup
    obtain ⟨apart, later⟩ := List.nodup_cons.1 nodup
    have wf := State.writeMem_wf w y.1 y.2.toNat 1
    rcases List.mem_cons.1 listed with rfl | listed
    · have ne : ∀ z ∈ r, x.1 ≠ z.1 := fun z hz same => apart (List.mem_map.2 ⟨z, hz, same.symm⟩)
      rw [State.putCells, State.readByte_putCells_of_ne wf ne, State.readByte_writeCell w, if_pos rfl]
    · exact ih listed wf later

theorem State.putCells_cores (cs : List Host.Cell) (s : State) : (s.putCells cs).cores = s.cores := by
  induction cs generalizing s with
  | nil => rfl
  | cons x r ih => exact ih _
theorem State.core_writeCells (s : State) (cs : List Host.Cell) (c : Nat) : (s.writeCells cs).core c = s.core c := by
  have cores : (s.writeCells cs).cores = s.cores := State.putCells_cores cs s
  rw [State.core, cores, State.core]

/-! The copies of a core. -/

theorem State.copies_onCopy {s : State} {c : Nat} {m : CopyCmd} (one : (s.core c).copies = [m]) (f : CopyCmd → CopyCmd) :
    ((s.onCopy c m.num f).core c).copies = [f m] := by
  simp [State.onCopy, one, updFirst]
theorem State.copy?_one {s : State} {c : Nat} {m : CopyCmd} (one : (s.core c).copies = [m]) : s.copy? c m.num = some m := by
  simp [State.copy?, one]
/-- A copy's own change leaves the rest of its core alone. -/
theorem State.onCopy_keep {α : Type} {g : Core → α} (s : State) (c num : Nat) (f : CopyCmd → CopyCmd)
    (keep : ∀ k l, g { k with copies := l } = g k := by exact fun _ _ => rfl) (d : Nat) :
    g ((s.onCopy c num f).core d) = g (s.core d) :=
  State.core_onCore_keep s c (fun k => keep k _) d

/-- A core with only those entries of its board that satisfy a test, and the slots that wait for a change of it look again. -/
def State.keepEntries (s : State) (c : Nat) (p : SbEnt → Bool) : State :=
  (s.onCore c fun k => { k with board := k.board.filter p }).pokeAgain c .remote

theorem State.keepEntries_awakens (s : State) (c : Nat) (p : SbEnt → Bool) :
    (s.onCore c fun k => { k with board := k.board.filter p }).Awakens (s.keepEntries c p) := .pokeAgain ..
theorem State.keepEntries_mem (s : State) (c : Nat) (p : SbEnt → Bool) : (s.keepEntries c p).mem = s.mem :=
  (s.keepEntries_awakens c p).mem
theorem State.keepEntries_copies (s : State) (c : Nat) (p : SbEnt → Bool) (d : Nat) :
    ((s.keepEntries c p).core d).copies = (s.core d).copies :=
  ((s.keepEntries_awakens c p).copies d).trans
    (State.core_onCore_keep s c (f := fun k => { k with board := k.board.filter p }) (g := Core.copies) (fun _ => rfl) d)

/-- A copy whose last piece is in place frees its destination, and that is all. -/
theorem State.copySettle_cases (s : State) (c num : Nat) :
    s.copySettle c num = s ∨ ∃ p, s.copySettle c num = s.keepEntries c p := by
  unfold State.copySettle
  split
  · split
    · exact .inr ⟨_, rfl⟩
    · exact .inl rfl
  · exact .inl rfl
theorem State.copySettle_mem (s : State) (c num : Nat) : (s.copySettle c num).mem = s.mem := by
  rcases s.copySettle_cases c num with eq | ⟨p, eq⟩
  · rw [eq]
  · rw [eq, State.keepEntries_mem]
theorem State.copySettle_copies (s : State) (c num d : Nat) : ((s.copySettle c num).core d).copies = (s.core d).copies := by
  rcases s.copySettle_cases c num with eq | ⟨p, eq⟩
  · rw [eq]
  · rw [eq, State.keepEntries_copies]
theorem State.writeSettle_mem (s : State) (h c num key : Nat) : (s.writeSettle h c num key).mem = s.mem := by
  unfold State.writeSettle
  dsimp only
  split
  · split
    · exact State.keepEntries_mem ..
    · rfl
  · rfl

/-- Without a sync word, the last piece of a segment ends it. -/
theorem State.pieceDone_last {s : State} {c num key at_ left n : Nat} {m : CopyCmd} (found : s.copy? c num = some m)
    (seg : m.segs.find? (fun x => x.1 == key) = some (key, left, n)) (last : left ≤ 1) (plain : cSyncEn m.block = false) :
    s.pieceDone c num key at_ =
      (s.onCopy c num fun m => { m with segs := m.segs.filter fun x => x.1 != key }).copySettle c num := by
  simp [State.pieceDone, found, seg, last, plain, State.copyArrive]
/-- A piece of a segment that arrives at no sync word writes nothing. -/
theorem State.pieceDone_mem {s : State} {c num : Nat} (plain : ∀ m, s.copy? c num = some m → cSyncEn m.block = false)
    (key at_ : Nat) : (s.pieceDone c num key at_).mem = s.mem := by
  unfold State.pieceDone
  split
  · rfl
  · next m found =>
    split
    · rfl
    · simp only [plain m found, Bool.false_and, Bool.false_eq_true, if_false, State.copyArrive, Bool.not_false, if_true]
      split
      · exact State.copySettle_mem ..
      · rfl

/-! A reserved inbox entry. -/

/-- The entry as its core's inbox takes it. -/
def State.stamped (s : State) (c : Nat) (e : Entry) : Entry :=
  { e with spkg := s.pkg, score := s.logicalOf c, sslot := e.taker }

/-- Where no slot waits for the inbox, a reservation that is filled adds its entry and does nothing else. -/
theorem State.fillReserved_of_still {s : State} {c : Nat} (still : Spec.StillAt s c) {what num : Nat}
    (held : (s.core c).resv.any (fun r => r.what == what && r.num == num) = true) (e : Entry) :
    s.fillReserved c what num e =
      (s.release c what num).onCore c fun k => { k with inbox := k.inbox ++ [s.stamped c e] } := by
  rw [State.fillReserved, if_pos held]
  refine State.serveInbox_of_still (fun n _ => ?_) 32
  rw [State.slot_onCore _ c _ rfl, State.release, State.slot_onCore _ c _ rfl]
  exact still.1 n

end Sys2Proof.Machine
end

section
/-!
SUPPORT. The copy engine's events, one after another (R75, R275, R276, R281, R391).
-/
namespace Sys2Proof.Machine
open Spec

section
variable {s : State} {c : Nat} {m : CopyCmd} {p : Packet}

/-- A command that is not a multicast starts with what its destination overlaps as it stands. -/
theorem execCopyCommandStart_spec (names : s.arg 0 = c) (one : (s.core c).copies = [m])
    (starts : (s.core c).copyToStart = some m) (single : m.fill = true ∨ cKind m.block ≠ 1) :
    ∃ u : State, execCopyCommandStart s = .next u ∧ u.mem = s.mem ∧ (u.core c).copies =
      [{ m with started := true, nextAt := s.cycle + 1, targets := [], refused := 0, old := s.oldBytes c m }] := by
  have alone : (if cKind m.block = 1 && !m.fill then s.multicast c m else ([], 0)) = ([], 0) := by
    rcases single with fill | kind
    · simp [fill]
    · simp [kind]
  simp only [execCopyCommandStart, names, starts, alone]
  exact ⟨_, rfl, rfl, State.copies_onCopy one _⟩

/-- A destination's acknowledgement counts in its command. -/
theorem execEndToEndAck_copy {key n status : Nat} (found : s.packet? (s.arg 0) = some p)
    (body : p.body = .segAck c m.num key n status) (one : (s.core c).copies = [m]) (small : m.num < tstCmd) :
    ∃ u : State, execEndToEndAck s = .next u ∧ u.mem = s.mem ∧ (u.core c).copies = [{ m with
      flying := m.flying - 1, wrote := m.wrote + n, status := max m.status status
      segs := if 2 < status then m.segs.filter (fun x => x.1 != key) else m.segs
      failed := m.failed || (decide (2 < status) && (cKind m.block != 1 || m.fill)) }] := by
  have notColl : ¬ collCmd ≤ m.num := by unfold collCmd tstCmd at *; omega
  simp only [execEndToEndAck, found, body, if_neg notColl, if_neg (Nat.not_le.2 small)]
  refine ⟨_, rfl, rfl, (State.copies_onCopy (s := s.dropPacket p.id) one _).trans ?_⟩
  rw [Bool.not_and, Bool.not_not]
  rfl

/-- A command ends when its last segment has been applied everywhere. -/
theorem Core.copyToEnd_one {k : Core} (one : k.copies = [m]) (sent : m.sent = true) (landed : m.flying = 0) (read : m.reading = 0)
    (none_ : m.segs = []) : k.copyToEnd = some m := by
  simp [Core.copyToEnd, one, sent, landed, read, none_]

/-- A command that has written the host's memory reads its last byte. -/
theorem execHostFlushRead_command (names : s.arg 0 = c) (command : s.arg 1 ≠ 1) (one : (s.core c).copies = [m])
    (ends : (s.core c).copyToEnd = some m) (read : m.reading = 0) {t : Xl} (dst : m.dst = some t) :
    ∃ u : State, execHostFlushRead s = .next u ∧ u.mem = s.mem ∧
      (u.core c).copies = [{ m with flushed := true, reading := 1 }] ∧
      Leaves u c (linkPos t.ent.hlink) (if cUrg m.block then urgentClass else bulk) 1
        (.fetch ⟨c, m.num, 0, 5, t.obj, t.gen, cUrg m.block, [hostPiece t (cDstLen m.block - 1) 1]⟩) := by
  simp only [execHostFlushRead, names, if_neg command, ends, dst]
  refine ⟨_, rfl, State.send_mem .., ?_, State.send_leaves ..⟩
  rw [(State.PacketsOnly.send ..).core, State.copies_onCopy one, read, dst]

/-- A host link answers a read. -/
theorem execHostFlushRead_link {f : Fetch} (link : s.arg 1 = 1) (found : s.packet? (s.arg 0) = some p) (body : p.body = .fetch f) :
    let l := if p.dst = linkPos 0 then 0 else 1
    let cls := if f.urgent then urgentClass else bulk
    ∃ u : State, execHostFlushRead s = .next u ∧ u.mem = s.mem ∧
      ((s.link l).down = true → Leaves u p.dst f.core cls 1 (.fetched f [] [] 4)) ∧
      ((s.link l).down = false → Leaves u p.dst f.core cls (flitsFor (s.hostBytes l f).length) (.fetched f (s.hostBytes l f) [] 0)) := by
  intro l cls
  simp only [execHostFlushRead, if_pos link, found, body]
  refine ⟨_, rfl, State.send_mem .., fun down => ?_, fun up => ?_⟩
  · have off : s.linkDown l = true := down
    simp only [l] at off
    simp only [off, if_true]
    exact State.send_leaves ..
  · have on : s.linkDown l = false := up
    simp only [l] at on
    simp only [on, Bool.false_eq_true, if_false]
    exact State.send_leaves ..

/-- Writes of a scratchpad's lines where nothing waits wake nothing. -/
theorem State.foldl_wakeRange_scratch (none_ : (s.core c).waiters = []) (ls : List Nat) :
    ls.foldl (fun s l => s.wakeRange (.scratch c (l * 64)) 64) s = s := by
  induction ls with
  | nil => rfl
  | cons l r ih => rw [List.foldl_cons, State.wakeRange_scratch none_, ih]

theorem State.putSegment_scratch (none_ : (s.core c).waiters = []) (bytes : List Host.Cell) (launch : Option Nat) (who : Writer) :
    s.putSegment c 1 bytes [] launch who = s.writeCells (bytes.map fun x => (scratchLoc c x.1, x.2)) :=
  State.foldl_wakeRange_scratch (s := (s.writeCells (bytes.map fun x : Host.Cell => (scratchLoc c x.1, x.2))).markPoison [])
    ((congrArg Core.waiters (State.core_writeCells ..)).trans none_) _

/-- What a piece of a segment that has been applied at `h` ends. -/
def State.segmentDone (s : State) (h c num key : Nat) : State :=
  if num < tstCmd then s.pieceDone c num key h else if collCmd ≤ num then s.writeSettle h c num key else s

theorem State.segmentDone_mem {num : Nat} (plain : ∀ m, s.copy? c num = some m → cSyncEn m.block = false) (h key : Nat) :
    (s.segmentDone h c num key).mem = s.mem := by
  unfold State.segmentDone
  split
  · exact State.pieceDone_mem plain ..
  · split
    · exact State.writeSettle_mem ..
    · rfl

/-- A piece for a scratchpad where nothing waits lands whole and is acknowledged. -/
theorem execSegmentApply_scratch {num key gen : Nat} {bytes : List Host.Cell} (first : s.evt.length = 1)
    (found : s.packet? (s.arg 0) = some p) (body : p.body = .segment c num key 1 bytes [] 0 gen)
    (kept : (s.core p.dst).contained = false) (waiters : (s.core p.dst).waiters = []) (late : (s.core p.dst).vault.late = [])
    (plain : ∀ m, s.copy? c num = some m → cSyncEn m.block = false) (nodup : (bytes.map (·.1)).Nodup)
    (wf : Memory.wf s.mem = true) :
    ∃ u : State, execSegmentApply s = .next u ∧ (∀ x ∈ bytes, u.readByte (scratchLoc p.dst x.1) = x.2) ∧
      (∀ a, (∀ x ∈ bytes, a ≠ scratchLoc p.dst x.1) → u.readByte a = s.readByte a) ∧
      Leaves u p.dst c control 1 (.segAck c num key bytes.length 0) := by
  let cells := bytes.map fun x => (scratchLoc p.dst x.1, x.2)
  let v := s.writeCells cells
  let w := ((v.segmentDone p.dst c num key).dropPacket p.id).agentFree p.dst
  have onTime : v.isLate p.dst (.agent p.id) = false := by simp [v, State.isLate, State.core_writeCells, late]
  have runs : execSegmentApply s = .next (w.send p.dst c control 1 p.launch (.segAck c num key bytes.length 0)) := by
    simp only [execSegmentApply, found, body, first, State.agentSegment, kept, State.leftBehind, Body.vaultAddr,
      State.putSegment_scratch waiters]
    simp [onTime, v, cells]
    rfl
  have plain' : ∀ m, v.copy? c num = some m → cSyncEn m.block = false := fun m found =>
    plain m (by rwa [State.copy?, State.core_writeCells] at found)
  have read : ∀ a, (w.send p.dst c control 1 p.launch (.segAck c num key bytes.length 0)).readByte a =
      (s.putCells cells).readByte a := fun a => by
    have mem : w.mem = v.mem := State.segmentDone_mem plain' ..
    rw [State.readByte, State.send_mem, mem]
    rfl
  refine ⟨_, runs, fun x hx => ?_, fun a apart => ?_, State.send_leaves ..⟩
  · rw [read]
    have places : (cells.map (·.1)).Nodup := by
      have shifted : cells.map (·.1) = (bytes.map (·.1)).map (scratchLoc p.dst) := by simp [cells]
      rw [shifted]
      exact nodup.map fun i j same => Nat.add_left_cancel same
    exact State.readByte_putCells (List.mem_map_of_mem hx) wf places
  · rw [read]
    exact State.readByte_putCells_of_ne wf fun y hy => by
      obtain ⟨x, hx, rfl⟩ := List.mem_map.1 hy
      exact apart x hx

end
end Sys2Proof.Machine
end

section
/-!
SUPPORT. A segment of a fill of the engine's own operand buffer (R275).
-/
namespace Sys2Proof.Machine
open Spec

section
variable {s : State} {c : Nat} {m : CopyCmd}

/-- A piece for the engine's own operand buffer is written in place, and is the whole of its segment. -/
theorem State.sendPiece_buffer {x : CopyCmd} {key n : Nat} (kept : (s.core c).contained = false) (late : (s.core c).vault.late = [])
    (one : (s.core c).copies = [x]) (same : x.num = m.num) (seg : x.segs = [(key, 1, n)]) (plain : cSyncEn x.block = false)
    (lo obj gen : Nat) (bytes : List Host.Cell) :
    (s.sendPiece c c lo m key 2 bytes [] obj gen).mem =
        (s.writeCells (bytes.map fun a => (bufLoc c (a.1 / 32768) (a.1 % 32768), a.2))).mem ∧
      ((s.sendPiece c c lo m key 2 bytes [] obj gen).core c).copies =
        [{ x with wrote := x.wrote + bytes.length, segs := [] }] := by
  let more (y : CopyCmd) : CopyCmd := { y with wrote := y.wrote + bytes.length }
  let v := (s.writeCells (bytes.map fun a => (bufLoc c (a.1 / 32768) (a.1 % 32768), a.2))).onCopy c x.num more
  have writes : s.sendPiece c c lo m key 2 bytes [] obj gen = v.ownPiece c x.num key c := by
    simp [State.sendPiece, kept, State.inPlace, same, v, more]
    rfl
  have copies : (v.core c).copies = [more x] := State.copies_onCopy (by rw [State.core_writeCells, one]) _
  have onTime : v.isLate c (.copy x.num key) = false := by
    have late' : (v.core c).vault = (s.core c).vault :=
      (State.onCopy_keep (g := Core.vault) ..).trans (congrArg Core.vault (State.core_writeCells ..))
    simp [State.isLate, late', late]
  have done := State.pieceDone_last (at_ := c) (State.copy?_one copies) (key := key) (left := 1) (n := n)
    (by simp [more, seg]) (Nat.le_refl 1) plain
  rw [writes, State.ownPiece, onTime, if_neg Bool.false_ne_true, done]
  exact ⟨State.copySettle_mem .., (State.copySettle_copies ..).trans ((State.copies_onCopy copies _).trans (by simp [more, seg]))⟩

/-- What the last segment of a command frees. -/
def State.lastSent (s : State) (c num : Nat) : State :=
  (s.keepEntries c fun e => !(e.holder == num && !e.write)).copySettle c num

theorem State.lastSent_mem (s : State) (c num : Nat) : (s.lastSent c num).mem = s.mem :=
  (State.copySettle_mem ..).trans (State.keepEntries_mem ..)
theorem State.lastSent_copies (s : State) (c num : Nat) : ((s.lastSent c num).core c).copies = (s.core c).copies :=
  (State.copySettle_copies ..).trans (State.keepEntries_copies ..)

/-- The bytes of a fill repeat the source word by their places. -/
theorem State.dstBytes_fill (fill : m.fill = true) (dst : m.dst = none) (lo n : Nat) :
    s.dstBytes c m lo n =
      ((upFrom (cDstOff m.block + lo) n).map fun x => (byteOf (cSrcOff m.block) (x % 8), false), .none) := by
  simp [State.dstBytes, fill, dst]

/-- The cells of `n` bytes of a fill from offset `e` of its buffer. -/
def CopyCmd.fillCells (m : CopyCmd) (c e n : Nat) : List Host.Cell :=
  (List.range n).map fun i => (bufLoc c (cDstK m.block) (e + i), byteOf (cSrcOff m.block) ((e + i) % 8))

/-- The pieces of a fill's segment: one, for the own buffer. -/
theorem State.piecesOf_fill (dst : m.dst = none) (lo n : Nat) :
    s.piecesOf c m lo ((upFrom (cDstOff m.block + lo) n).map fun x => (byteOf (cSrcOff m.block) (x % 8), false)) =
      [(c, 2, (List.range n).map (fun i => (cDstK m.block * 32768 + cDstOff m.block + (lo + i),
        byteOf (cSrcOff m.block) ((cDstOff m.block + lo + i) % 8))), [])] := by
  simp [State.piecesOf, dst, upFrom_eq_range', List.range'_eq_map_range, List.zip_map', Function.comp_def,
    List.filter_map]

/-- Counting no event leaves the rest of its core alone. -/
theorem State.countFl_keep {α : Type} {g : Core → α} (s : State) (c : Nat) (f : Fl)
    (keep : ∀ k l, g { k with evc := l } = g k := by exact fun _ _ => rfl) (d : Nat) :
    g ((s.countFl c f).core d) = g (s.core d) := by
  have each : ∀ (s : State) i n, g ((s.count c i n).core d) = g (s.core d) := fun s i n =>
    State.core_onCore_keep s c (fun k => keep k _) d
  simp only [State.countFl, each]
theorem State.countFl_mem (s : State) (c : Nat) (f : Fl) : (s.countFl c f).mem = s.mem := by simp [State.countFl]

/-- A fill's segment as it is counted before its bytes go. -/
def CopyCmd.formed (m : CopyCmd) (at_ nextAt : Nat) (sent : Bool) : CopyCmd :=
  { m with at_, nextAt, sent, asked := false, got := [], gotBad := [] }

theorem State.core_free (s : State) (x d : Nat) : State.core { s with free := x } d = s.core d := rfl
theorem State.mem_free (s : State) (x : Nat) : { s with free := x }.mem = s.mem := rfl

/-- No event is counted, and the free values of a segment are taken. -/
def State.counted (s : State) (c : Nat) (m : CopyCmd) : State := { s.countFl c .none with free := s.free + cLen m.block }

theorem State.counted_mem (s : State) (c : Nat) (m : CopyCmd) : (s.counted c m).mem = s.mem :=
  (State.mem_free (s.countFl c .none) _).trans (State.countFl_mem s c .none)
theorem State.counted_keep {α : Type} {g : Core → α} (s : State) (c : Nat) (m : CopyCmd)
    (keep : ∀ k l, g { k with evc := l } = g k) (d : Nat) : g ((s.counted c m).core d) = g (s.core d) :=
  (congrArg g (State.core_free (s.countFl c .none) _ d)).trans (State.countFl_keep s c .none keep d)

/-- A fill's segment counted, before its bytes go. -/
def State.formed (s : State) (c : Nat) (m : CopyCmd) (lo n : Nat) : State :=
  (s.counted c m).onCopy c m.num fun x =>
    x.formed (lo + n) ((s.countFl c .none).cycle + if m.asked then 1 else max 1 ((n + 255) / 256))
      (decide (cDstLen m.block ≤ lo + n))

theorem State.formed_mem (s : State) (c : Nat) (m : CopyCmd) (lo n : Nat) : (s.formed c m lo n).mem = s.mem := by
  rw [State.formed, State.onCopy, State.onCore_mem]
  exact State.counted_mem s c m
theorem State.formed_copies (one : (s.core c).copies = [m]) (lo n : Nat) : ∃ nextAt, ((s.formed c m lo n).core c).copies =
    [m.formed (lo + n) nextAt (decide (cDstLen m.block ≤ lo + n))] := by
  have before : ((s.counted c m).core c).copies = [m] :=
    (State.counted_keep (g := Core.copies) s c m (fun _ _ => rfl) c).trans one
  exact ⟨_, State.copies_onCopy before _⟩
theorem State.formed_keep {α : Type} {g : Core → α} (s : State) (c : Nat) (m : CopyCmd) (lo n : Nat)
    (copies : ∀ k l, g { k with copies := l } = g k) (evc : ∀ k l, g { k with evc := l } = g k) (d : Nat) :
    g ((s.formed c m lo n).core d) = g (s.core d) :=
  (State.onCopy_keep _ c _ _ copies d).trans (State.counted_keep s c m evc d)

theorem State.putCells_mem_congr (cs : List Host.Cell) : ∀ {s u : State}, u.mem = s.mem → (u.putCells cs).mem = (s.putCells cs).mem := by
  induction cs with
  | nil => exact fun h => h
  | cons x r ih => exact fun h => ih (congrArg (Memory.writeNat · x.1 x.2.toNat 1) h)

/-- The piece of a fill's segment, by the offsets of its operand buffer. -/
def CopyCmd.fillPiece (m : CopyCmd) (lo n : Nat) : List Host.Cell :=
  (List.range n).map fun i => (cDstK m.block * 32768 + cDstOff m.block + (lo + i), byteOf (cSrcOff m.block) ((cDstOff m.block + lo + i) % 8))

/-- The state in which a fill's piece goes: the segment is on record. -/
def State.recorded (s : State) (c : Nat) (m : CopyCmd) (lo n : Nat) : State :=
  (s.formed c m lo n).onCopy c m.num fun x => { x with segs := x.segs ++ [(lo * 1024, 1, n)] }

/-- A fill's segment and its bytes. -/
def State.fillSent (s : State) (c : Nat) (m : CopyCmd) (lo n : Nat) : State :=
  if n = 0 then s.formed c m lo n
  else (s.recorded c m lo n).sendPiece c c lo m (lo * 1024) 2 (m.fillPiece lo n) [] 0 0

theorem State.formSegment_of_fill (fill : m.fill = true) (src : m.src = none) (dst : m.dst = none) (lo n : Nat) :
    s.formSegment c m lo n =
      if cDstLen m.block ≤ lo + n then (s.fillSent c m lo n).lastSent c m.num else s.fillSent c m lo n := by
  have sound : ((upFrom (cDstOff m.block + lo) n).map fun x => (byteOf (cSrcOff m.block) (x % 8), false)).any (·.2) = false := by
    simp
  simp only [State.formSegment, State.meetSource, src, fill, if_true, State.dstBytes_fill fill dst, sound, State.piecesOf_fill dst, dst,
    Bool.not_true, Bool.false_eq_true, and_false, if_false, Option.map_none, Option.getD_none, List.foldl_cons, List.foldl_nil,
    List.length_singleton, State.fillSent, State.recorded, State.formed, State.counted, CopyCmd.formed, State.lastSent, State.keepEntries,
    CopyCmd.fillPiece]

/-- The piece goes to its place in the buffer. -/
theorem CopyCmd.fillPiece_places {lo n : Nat} (place : cDstOff m.block + lo + n ≤ 32768) :
    (m.fillPiece lo n).map (fun a => (bufLoc c (a.1 / 32768) (a.1 % 32768), a.2)) = m.fillCells c (cDstOff m.block + lo) n := by
  rw [CopyCmd.fillPiece, List.map_map, CopyCmd.fillCells]
  refine List.map_congr_left fun i hi => ?_
  have small := List.mem_range.1 hi
  have buffer : (cDstK m.block * 32768 + cDstOff m.block + (lo + i)) / 32768 = cDstK m.block := by omega
  have offset : (cDstK m.block * 32768 + cDstOff m.block + (lo + i)) % 32768 = cDstOff m.block + lo + i := by omega
  simp only [Function.comp_apply, buffer, offset]

theorem CopyCmd.fillCells_zero (e : Nat) : m.fillCells c e 0 = [] := rfl

theorem State.recorded_mem (s : State) (c : Nat) (m : CopyCmd) (lo n : Nat) : (s.recorded c m lo n).mem = s.mem := by
  rw [State.recorded, State.onCopy, State.onCore_mem, State.formed_mem]
theorem State.recorded_keep {α : Type} {g : Core → α} (s : State) (c : Nat) (m : CopyCmd) (lo n : Nat)
    (copies : ∀ k l, g { k with copies := l } = g k) (evc : ∀ k l, g { k with evc := l } = g k) (d : Nat) :
    g ((s.recorded c m lo n).core d) = g (s.core d) :=
  (State.onCopy_keep _ c _ _ copies d).trans (State.formed_keep s c m lo n copies evc d)
/-- The command with its segment formed and on record. -/
def CopyCmd.recorded (m : CopyCmd) (lo n nextAt : Nat) : CopyCmd :=
  { m.formed (lo + n) nextAt (decide (cDstLen m.block ≤ lo + n)) with segs := m.segs ++ [(lo * 1024, 1, n)] }
theorem State.recorded_copies (one : (s.core c).copies = [m]) (lo n : Nat) : ∃ nextAt,
    ((s.recorded c m lo n).core c).copies = [m.recorded lo n nextAt] := by
  obtain ⟨nextAt, formed⟩ := State.formed_copies one lo n
  exact ⟨nextAt, State.copies_onCopy formed _⟩

/-- A fill's command once its segment is in place. -/
def CopyCmd.filled (m : CopyCmd) (lo n nextAt : Nat) : CopyCmd :=
  { m.formed (lo + n) nextAt (decide (cDstLen m.block ≤ lo + n)) with wrote := m.wrote + n, segs := [] }

/-- The bytes of a fill's segment are in the buffer, and nothing of it is outstanding. -/
theorem State.fillSent_spec (plain : cSyncEn m.block = false) (kept : (s.core c).contained = false)
    (late : (s.core c).vault.late = []) (one : (s.core c).copies = [m]) (segs : m.segs = []) {lo n : Nat}
    (place : cDstOff m.block + lo + n ≤ 32768) :
    ∃ nextAt, (s.fillSent c m lo n).mem = (s.writeCells (m.fillCells c (cDstOff m.block + lo) n)).mem ∧
      ((s.fillSent c m lo n).core c).copies = [m.filled lo n nextAt] := by
  unfold State.fillSent
  split
  · next none_ =>
    subst none_
    obtain ⟨nextAt, formed⟩ := State.formed_copies one lo 0
    refine ⟨nextAt, ?_, ?_⟩
    · rw [State.formed_mem, CopyCmd.fillCells_zero]
      rfl
    · rw [formed, CopyCmd.filled, CopyCmd.formed, segs]
      rfl
  · obtain ⟨nextAt, recorded⟩ := State.recorded_copies one lo n
    have kept' : ((s.recorded c m lo n).core c).contained = false :=
      (State.recorded_keep (g := Core.contained) s c m lo n (fun _ _ => rfl) (fun _ _ => rfl) c).trans kept
    have late' : ((s.recorded c m lo n).core c).vault.late = [] :=
      (State.recorded_keep (g := fun k => k.vault.late) s c m lo n (fun _ _ => rfl) (fun _ _ => rfl) c).trans late
    have seg : (m.recorded lo n nextAt).segs = [(lo * 1024, 1, n)] := by
      rw [CopyCmd.recorded, segs]
      rfl
    obtain ⟨written, copies⟩ := State.sendPiece_buffer (m := m) kept' late' recorded rfl seg plain lo 0 0 (m.fillPiece lo n)
    refine ⟨nextAt, ?_, ?_⟩
    · rw [written, CopyCmd.fillPiece_places place]
      exact State.putCells_mem_congr _ (State.recorded_mem ..)
    · rw [copies, CopyCmd.fillPiece, List.length_map, List.length_range]
      rfl

/-- The segment of a fill of the own buffer: its cells go to the buffer, and it has ended. -/
theorem State.formSegment_fill (fill : m.fill = true) (src : m.src = none) (dst : m.dst = none) (plain : cSyncEn m.block = false)
    (kept : (s.core c).contained = false) (late : (s.core c).vault.late = []) (one : (s.core c).copies = [m]) (segs : m.segs = [])
    {lo n : Nat} (place : cDstOff m.block + lo + n ≤ 32768) :
    ∃ nextAt, (s.formSegment c m lo n).mem = (s.writeCells (m.fillCells c (cDstOff m.block + lo) n)).mem ∧
      ((s.formSegment c m lo n).core c).copies = [m.filled lo n nextAt] := by
  obtain ⟨nextAt, sent⟩ := State.fillSent_spec plain kept late one segs place
  refine ⟨nextAt, ?_⟩
  rw [State.formSegment_of_fill fill src dst]
  split
  · rw [State.lastSent_mem, State.lastSent_copies]
    exact sent
  · exact sent

/-- A due segment of a fill of the own buffer writes its bytes and nothing else. -/
theorem execCopySegment_fill (names : s.arg 0 = c) (due : (s.core c).copyToSend s.cycle = some m) (whole : m.failed = false)
    (fill : m.fill = true) (src : m.src = none) (dst : m.dst = none) (plain : cSyncEn m.block = false)
    (kept : (s.core c).contained = false) (late : (s.core c).vault.late = []) (one : (s.core c).copies = [m]) (segs : m.segs = [])
    (wf : Memory.wf s.mem = true) (few : m.at_ ≤ cDstLen m.block) (fits : cDstOff m.block + cDstLen m.block ≤ 18432) :
    let lo := m.at_
    let e := cDstOff m.block + lo
    let n := min (cDstLen m.block - lo)
      (if cUrg m.block then min (256 - e % 256) (8192 - e % 8192) else 8192 - e % 8192)
    ∃ (u : State) (nextAt : Nat), execCopySegment s = .next u ∧ (u.core c).copies = [m.filled lo n nextAt] ∧
      (∀ i, i < n → u.readByte (bufLoc c (cDstK m.block) (e + i)) = BitVec.ofNat 8 (cSrcOff m.block / 256 ^ ((e + i) % 8))) ∧
      ∀ x, x < bufLoc c (cDstK m.block) e ∨ bufLoc c (cDstK m.block) (e + n) ≤ x → u.readByte x = s.readByte x := by
  intro lo e n
  have runs : execCopySegment s = .next (s.formSegment c m lo n) := by
    simp [execCopySegment, names, due, whole, dst, State.copyReads, src, lo, n, e]
  have short : n ≤ cDstLen m.block - lo := Nat.min_le_left ..
  obtain ⟨nextAt, mem, copies⟩ := State.formSegment_fill fill src dst plain kept late one segs (lo := lo) (n := n)
    (by simp only [lo] at *; omega)
  have read : ∀ a, (s.formSegment c m lo n).readByte a = (s.putCells (m.fillCells c e n)).readByte a := fun a => by
    rw [State.readByte, mem]
    rfl
  refine ⟨_, nextAt, runs, copies, fun i hi => ?_, fun x out => ?_⟩
  · have listed : (bufLoc c (cDstK m.block) (e + i), byteOf (cSrcOff m.block) ((e + i) % 8)) ∈ m.fillCells c e n :=
      List.mem_map_of_mem (List.mem_range.2 hi)
    have places : ((m.fillCells c e n).map (·.1)).Nodup := by
      rw [CopyCmd.fillCells, List.map_map]
      refine List.nodup_range.map fun i j same => ?_
      simp only [Function.comp_apply, bufLoc] at same
      omega
    rw [read]
    exact State.readByte_putCells listed wf places
  · rw [read]
    refine State.readByte_putCells_of_ne wf fun y hy => ?_
    obtain ⟨i, hi, rfl⟩ := List.mem_map.1 hy
    have small := List.mem_range.1 hi
    simp only [bufLoc] at out ⊢
    omega

end
end Sys2Proof.Machine
end

section
/-!
SUPPORT. The end of a copy: its follow-on multiply and its completion entry (R76, R280, R281, R284).
-/
namespace Sys2Proof.Machine
open Spec

section
variable {s : State} {c : Nat} {m : CopyCmd}

/-- The multiply that a command's follow-on puts into the matrix queue. -/
def State.followOp (s : State) (c : Nat) (m : CopyCmd) (ov : Bool) (d : Acc) (x y : Ob) : MatOp :=
  { num := m.num + 1, slot := m.slot, kind := .mma false ov d.toNat x.toNat y.toNat, fmt := (s.core c).fmt, epi := (s.core c).epi
    issue := s.cycle, start := m.start, notify := false, shadow := false, launch := m.launch }
/-- What goes with it for a pair: the same on the shadow accumulators. -/
def CopyCmd.followPair (m : CopyCmd) (o : MatOp) : List MatOp :=
  if m.paired then [{ o with num := m.num + 2, slot := m.slot + 8, shadow := true }] else []

/-- The follow-on waits until the matrix queue has room for it. -/
theorem execFollowOnIssue_full (names : s.arg 0 = c) (ends : (s.core c).copyToEnd = some m) {ov : Bool} {d : Acc} {x y : Ob}
    (follows : followOn m.block = some (.mma ov false d x y)) (whole : m.failed = false)
    (full : 8 < (s.core c).accepted.length + if m.paired then 2 else 1) : execFollowOnIssue s = .next s := by
  simp [execFollowOnIssue, names, ends, follows, whole, full]

/-- With room the follow-on joins the matrix queue. -/
theorem execFollowOnIssue_room (names : s.arg 0 = c) (ends : (s.core c).copyToEnd = some m) (one : (s.core c).copies = [m])
    {ov : Bool} {d : Acc} {x y : Ob} (follows : followOn m.block = some (.mma ov false d x y)) (whole : m.failed = false)
    (room : (s.core c).accepted.length + (if m.paired then 2 else 1) ≤ 8) :
    ∃ u : State, execFollowOnIssue s = .next u ∧ u.mem = s.mem ∧
      (u.core c).matQ = (s.core c).matQ ++ s.followOp c m ov d x y :: m.followPair (s.followOp c m ov d x y) ∧
      (u.core c).copies = [{ m with followed := true }] := by
  let v := s.onCore c fun k => { k with matQ := k.matQ ++ s.followOp c m ov d x y :: m.followPair (s.followOp c m ov d x y) }
  let done (m : CopyCmd) : CopyCmd := { m with followed := true }
  have runs : execFollowOnIssue s = .next (v.onCopy c m.num done) := by
    simp [execFollowOnIssue, names, ends, follows, whole, Nat.not_lt.2 room]
    rfl
  refine ⟨_, runs, rfl, ?_, ?_⟩
  · exact (State.onCopy_keep (g := Core.matQ) v c m.num done (fun _ _ => rfl) c).trans
      (congrArg Core.matQ (State.core_onCore ..))
  · have queued : (v.core c).copies = [m] := (congrArg Core.copies (State.core_onCore ..)).trans one
    exact State.copies_onCopy queued _

/-- A change of a core outside its slots and groups disturbs none that waits. -/
theorem State.still_onCore (still : StillAt s c) {f : Core → Core} (slots : (f (s.core c)).slots = (s.core c).slots)
    (groups : (f (s.core c)).groups = (s.core c).groups) : StillAt (s.onCore c f) c := by
  refine ⟨fun n => ?_, fun p hp => still.2 p ?_⟩
  · rw [State.slot_onCore s c f slots]
    exact still.1 n
  · rwa [State.core_onCore, groups] at hp

/-- A command's entries are freed and its completion entry is posted; nothing else of its core is seen to change. -/
theorem State.post_completion (still : StillAt s c) {num : Nat}
    (held : (s.core c).resv.any (fun r => r.what == forCommand && r.num == num) = true) (e : Entry) :
    let u := (s.endHolder c num).fillReserved c forCommand num e
    u.mem = s.mem ∧ u.dies = s.dies ∧ (u.core c).copies = (s.core c).copies ∧
      (∃ stamp, (u.core c).inbox = (s.core c).inbox ++ [State.stamped stamp c e]) ∧ ∀ x ∈ (u.core c).board, x.holder ≠ num := by
  intro u
  let v := s.freeHolder c num
  let w := s.endHolder c num
  have awakens : v.Awakens w := .pokeAgain ..
  have freed : v.core c = { s.core c with board := (s.core c).board.filter fun e => e.holder != num } := State.core_onCore ..
  have still' : StillAt v c := State.still_onCore still rfl rfl
  have held' : (w.core c).resv.any (fun r => r.what == forCommand && r.num == num) = true := by
    rw [awakens.resv, freed]
    exact held
  have posted : u = (w.release c forCommand num).onCore c fun k => { k with inbox := k.inbox ++ [w.stamped c e] } :=
    State.fillReserved_of_still (awakens.still still') held' e
  clear_value u w
  subst posted
  have released : (w.release c forCommand num).core c =
      { w.core c with resv := delFirst (fun r => r.what == forCommand && r.num == num) (w.core c).resv } := State.core_onCore ..
  rw [State.core_onCore, released]
  refine ⟨awakens.mem, awakens.dies, ?_, ⟨w, ?_⟩, fun x hx => ?_⟩
  · exact (awakens.copies c).trans (congrArg Core.copies freed :)
  · exact congrArg (· ++ _) ((awakens.inbox c).trans (congrArg Core.inbox freed :))
  · have listed : x ∈ (w.core c).board := hx
    rw [awakens.board, freed] at listed
    simpa using (List.mem_filter.1 listed).2

/-- A completion entry as its command gives it. -/
def CopyCmd.completion (m : CopyCmd) : Entry :=
  { kind := 2, tag := cTag m.block, stat := m.status, taker := m.slot, payload := BitVec.ofNat 384 (m.refused * 2 ^ 64 + m.wrote) }

/-- A command with no shared destination ends with its completion entry alone. -/
theorem execCopyCompletion_copy (names : s.arg 0 = c) (command : s.arg 1 ≠ 1) (ends : (s.core c).copyToEnd = some m)
    (one : (s.core c).copies = [m]) (local_ : m.toShared = false) (still : StillAt s c)
    (held : (s.core c).resv.any (fun r => r.what == forCommand && r.num == m.num) = true) :
    ∃ (u : State) (e : Entry), execCopyCompletion s = .next u ∧ u.mem = s.mem ∧ (u.core c).copies = [] ∧
      (u.core c).inbox = (s.core c).inbox ++ [e] ∧ e.kind = 2 ∧ e.tag = BitVec.ofNat 64 (bitsOf m.block 448 64) ∧
      e.stat = m.status ∧ e.taker = m.slot ∧ e.payload = BitVec.ofNat 384 (m.refused * 2 ^ 64 + m.wrote) ∧
      ∀ x ∈ (u.core c).board, x.holder ≠ m.num := by
  let v := s.onCore c fun k => { k with copies := k.copies.filter fun x => x.num != m.num }
  have runs : execCopyCompletion s = .next ((v.endHolder c m.num).fillReserved c forCommand m.num m.completion) := by
    simp [execCopyCompletion, names, command, ends, local_]
    rfl
  have core : v.core c = { s.core c with copies := (s.core c).copies.filter fun x => x.num != m.num } := State.core_onCore ..
  have still' : StillAt v c := State.still_onCore still rfl rfl
  obtain ⟨mem, -, copies, ⟨stamp, inbox⟩, board⟩ := State.post_completion still' (by rw [core]; exact held) m.completion
  refine ⟨_, State.stamped stamp c m.completion, runs, mem, copies.trans ?_, inbox.trans ?_, rfl, rfl, rfl, rfl, rfl, board⟩
  · rw [core]
    simp [one]
  · rw [core]

end
end Sys2Proof.Machine
end

section
/-!
SUPPORT. The copy engine's events together.
-/
namespace Sys2Proof.Machine

theorem copyEvents : Spec.CopyEvents := by
  unfold Spec.CopyEvents
  intro s c m p
  refine ⟨fun one starts single => ?_, ?_, ?_, ?_, fun one sent landed read segs => ⟨fun t dst => ?_, ?_, ?_⟩, ?_⟩
  · exact execCopyCommandStart_spec (s := { s with evt := [c] }) rfl one starts single
  · intro one due fill dst src plain buffer fits kept segs wf kind few whole late
    obtain ⟨u, nextAt, runs, copies, written, same⟩ := execCopySegment_fill (s := { s with evt := [c] }) rfl due whole fill src dst plain
      kept late one segs wf few fits
    exact ⟨u, _, runs, copies, rfl, rfl, rfl, rfl, written, same⟩
  · rintro num key bytes gen ⟨found, body⟩ kept waiters late plain nodup wf
    exact execSegmentApply_scratch (s := { s with evt := [p.id] }) rfl found body kept waiters late plain nodup wf
  · rintro key n status ⟨found, body⟩ one small
    exact execEndToEndAck_copy (s := { s with evt := [p.id] }) found body one small
  · exact execHostFlushRead_command (s := { s with evt := [c] }) rfl Nat.zero_ne_one one (Core.copyToEnd_one one sent landed read segs) read dst
  · intro ov d x y follows whole
    have ends := Core.copyToEnd_one one sent landed read segs
    refine ⟨fun full => execFollowOnIssue_full (s := { s with evt := [c] }) rfl ends follows whole full, fun room => ?_⟩
    obtain ⟨u, runs, mem, queue, copies⟩ :=
      execFollowOnIssue_room (s := { s with evt := [c] }) rfl ends one follows whole room
    exact ⟨u, _, runs, mem, queue, rfl, rfl, rfl, rfl, rfl, rfl, copies⟩
  · exact fun local_ still held => execCopyCompletion_copy (s := { s with evt := [c] }) rfl Nat.zero_ne_one
      (Core.copyToEnd_one one sent landed read segs) one local_ still held
  · rintro f ⟨found, body⟩
    exact execHostFlushRead_link (s := { s with evt := [p.id, 1] }) rfl found body

end Sys2Proof.Machine
end

section
/-!
SUPPORT. The collective engine's events, one after another (R281, R287–R289).
-/
namespace Sys2Proof.Machine
open Spec

section
variable {s : State} {die : Nat} {x : Coll} {i : Inst} {p : Packet}

theorem State.die_onDie (s : State) (d : Nat) (f : Die → Die) : (s.onDie d f).die d = f (s.die d) := by
  simp [State.onDie, State.die]

/-- A descriptor joins those that its die gathers. -/
theorem execCollDescriptorArrival_spec (found : s.packet? (s.arg 0) = some p) (body : p.body = .descriptor x) :
    ∃ u : State, execCollDescriptorArrival s = .next u ∧ u.mem = s.mem ∧
      (u.die (posDie p.dst)).gather = (s.die (posDie p.dst)).gather ++ [x] := by
  simp only [execCollDescriptorArrival, found, body]
  exact ⟨_, rfl, rfl, congrArg Die.gather (State.die_onDie (s.dropPacket p.id) _ _)⟩

/-- A participant hears how its collective has ended. -/
theorem execEndToEndAck_coll {st w : Nat} (found : s.packet? (s.arg 0) = some p) (body : p.body = .collDone x.core x.num st w)
    (one : (s.die (posDie x.core)).descs = [x]) :
    ∃ u : State, execEndToEndAck s = .next u ∧ u.mem = s.mem ∧ (u.die (posDie x.core)).descs = [{ x with fin := some (st, w) }] := by
  have before : ((s.dropPacket p.id).die (posDie x.core)).descs = [x] := one
  simp only [execEndToEndAck, found, body]
  refine ⟨_, rfl, rfl, ?_⟩
  rw [State.die_onDie]
  simp [before]

/-! Telling the participants. -/

/-- What tells a participant how its collective has ended. -/
def Coll.told (die status : Nat) (m : Coll × Nat) : Packet :=
  { id := 0, src := 36 * die, dst := m.1.core, cls := control, flits := 1, launch := m.1.launch
    body := .collDone m.1.core m.1.num status m.2 }
theorem State.collTell_eq (s : State) (die status : Nat) (ms : List (Coll × Nat)) :
    s.collTell die status ms = ms.foldl (fun s m => s.sendPkt (Coll.told die status m)) s := rfl

theorem State.PacketsOnly.collTell (s : State) (die status : Nat) (ms : List (Coll × Nat)) :
    s.PacketsOnly (s.collTell die status ms) := by
  rw [State.collTell_eq]
  exact foldl (fun s m => sendPkt s (Coll.told die status m)) ms s
/-- Everyone who is told is told. -/
theorem State.collTell_leaves {status : Nat} {ms : List (Coll × Nat)} {y : Coll × Nat} (listed : y ∈ ms) (s : State) (die : Nat) :
    Leaves (s.collTell die status ms) (36 * die) y.1.core control 1 (.collDone y.1.core y.1.num status y.2) := by
  obtain ⟨id, seq, onWay⟩ := State.sendAll_onWay (Coll.told die status) listed s
  rw [State.collTell_eq]
  exact onWay.leaves

/-! Beginning. -/

theorem Coll.joins_self (x : Coll) : x.joins x = true := by simp [Coll.joins]
theorem collSame_self (b : Nat) : collSame b b = true := by simp [collSame]

/-- A participant alone is its collective's only member. -/
theorem collMembers_alone (alone : x.set = [x.core]) : collMembers [x] x = [x] := by
  simp [collMembers, alone, Coll.joins_self]

/-- The die no longer gathers the descriptors of a collective that begins. -/
def State.gathered (s : State) (die : Nat) (ms : List Coll) : State :=
  s.onDie die fun d => { d with gather := d.gather.filter fun y => !ms.contains y }

theorem State.gathered_gather (one : (s.die die).gather = [x]) : ((s.gathered die [x]).die die).gather = [] := by
  rw [State.gathered, State.die_onDie]
  simp [one]

theorem State.gathered_partContained (s : State) (die : Nat) (ms : List Coll) (c : Nat) :
    (s.gathered die ms).partContained c = s.partContained c := rfl

/-- The run of a collective of one participant as it begins. -/
def State.newInst (s : State) (x : Coll) : Inst := { id := collCmd + s.pktNum, ms := [x], reading := 0, got := [] }
/-- A die with one run more. -/
def State.withInst (s : State) (die : Nat) (j : Inst) : State :=
  s.numberUsed.onDie die fun d => { d with insts := d.insts ++ [j] }

/-- How a collective of one participant begins. -/
theorem State.collBegin_alone (one : (s.die die).gather = [x]) (alone : x.set = [x.core]) :
    s.collBegin die x =
      if s.partContained x.core then (s.gathered die [x]).collTell die 3 [(x, 0)]
      else ((s.gathered die [x]).withInst die (s.newInst x)).collAsk die (s.newInst x).id [x] := by
  rw [← State.gathered_partContained s die [x]]
  simp only [State.collBegin, one, collMembers_alone alone, alone, List.any_cons, List.any_nil, Bool.or_false, collSame_self,
    Bool.not_true, Bool.false_eq_true, if_false, List.map_cons, List.map_nil, State.gathered, State.withInst, State.numberUsed, State.newInst]
  rfl

/-- A contained participant ends its collective with status 3. -/
theorem execCollInstanceRun_contained (names : s.arg 0 = die) (id : s.arg 1 = x.id) (begins : s.arg 2 ≠ 1)
    (one : (s.die die).gather = [x]) (alone : x.set = [x.core]) (gone : s.partContained x.core = true) :
    ∃ u : State, execCollInstanceRun s = .next u ∧ u.mem = s.mem ∧ (u.die die).gather = [] ∧
      Leaves u (36 * die) x.core control 1 (.collDone x.core x.num 3 0) := by
  have runs : execCollInstanceRun s = .next ((s.gathered die [x]).collTell die 3 [(x, 0)]) := by
    simp [execCollInstanceRun, names, id, begins, one, State.collReady, State.collBegin_alone one alone, alone, gone]
  have sent := State.PacketsOnly.collTell (s.gathered die [x]) die 3 [(x, 0)]
  refine ⟨_, runs, sent.mem, ?_, State.collTell_leaves (y := (x, 0)) List.mem_cons_self ..⟩
  rw [sent.die, State.gathered_gather one]

/-! The end. -/

/-- A die without a run that has ended. -/
def State.withoutInst (s : State) (die : Nat) (i : Inst) : State :=
  s.onDie die fun d => { d with insts := d.insts.filter fun y => y.id != i.id }

/-- How a collective has ended: a participant that is contained by now counts (R289). -/
def State.instStatus (s : State) (i : Inst) : Nat :=
  if i.ms.any (fun m => s.partContained m.core) then max i.status 3 else i.status

theorem State.collStage_sent (sent : i.sent = true) :
    s.collStage die i = (s.withoutInst die i).collTell die (s.instStatus i) (List.zip i.ms i.wrote) := by
  simp only [State.collStage, sent, Bool.not_true, Bool.false_eq_true, if_false, State.withoutInst, State.instStatus]

/-- A collective whose results have all been applied tells each participant how it has ended. -/
theorem execCollInstanceRun_end (names : s.arg 0 = die) (id : s.arg 1 = i.id) (goes : s.arg 2 = 1)
    (one : (s.die die).insts = [i]) (sent : i.sent = true) (landed : i.flying = 0) :
    ∃ u : State, execCollInstanceRun s = .next u ∧ u.mem = s.mem ∧ (u.die die).insts = [] ∧ ∀ y ∈ List.zip i.ms i.wrote,
      Leaves u (36 * die) y.1.core control 1 (.collDone y.1.core y.1.num (s.instStatus i) y.2) := by
  have runs : execCollInstanceRun s =
      .next ((s.withoutInst die i).collTell die (s.instStatus i) (List.zip i.ms i.wrote)) := by
    simp [execCollInstanceRun, names, id, goes, one, Inst.ready, sent, landed, State.collStage_sent sent]
  have told := State.PacketsOnly.collTell (s.withoutInst die i) die (s.instStatus i) (List.zip i.ms i.wrote)
  refine ⟨_, runs, told.mem, ?_, fun y hy => State.collTell_leaves hy ..⟩
  rw [told.die, State.withoutInst, State.die_onDie]
  simp [one]

/-! The completion. -/

/-- The completion entry of a collective. -/
def Coll.completion (x : Coll) (st w : Nat) : Entry :=
  { kind := 2, tag := cTag x.block, stat := st, taker := x.slot, payload := BitVec.ofNat 384 w }
/-- The die of a participant without its descriptor. -/
def State.withoutDesc (s : State) (x : Coll) : State :=
  s.onDie (posDie x.core) fun d => { d with descs := d.descs.filter fun y => !(y.core == x.core && y.num == x.num) }

theorem Coll.not_shared (kind : x.dst.ent.kind = kPrivate) (w : Nat) : (x.dst.ent.kind == kShared && decide (0 < w)) = false := by
  rw [kind]
  rfl
theorem State.collEnd_local (kind : x.dst.ent.kind = kPrivate) (st w : Nat) :
    s.collEnd x st w = ((s.withoutDesc x).endHolder x.core x.num).fillReserved x.core forCommand x.num (x.completion st w) := by
  simp only [State.collEnd, Coll.not_shared kind, Bool.false_eq_true, if_false, State.withoutDesc, Coll.completion]
theorem State.collToEnd_local {st w : Nat} (one : (s.die (posDie x.core)).descs = [x]) (ended : x.fin = some (st, w))
    (kind : x.dst.ent.kind = kPrivate) : s.collToEnd x.core = some (x, st, w) := by
  simp [State.collToEnd, one, ended, kind, kPrivate, kShared]

/-- A participant with its own destination posts its completion entry. -/
theorem execCopyCompletion_coll {st w : Nat} (names : s.arg 0 = x.core) (colls : s.arg 1 = 1)
    (one : (s.die (posDie x.core)).descs = [x]) (ended : x.fin = some (st, w)) (kind : x.dst.ent.kind = kPrivate)
    (still : StillAt s x.core)
    (held : (s.core x.core).resv.any (fun r => r.what == forCommand && r.num == x.num) = true) :
    ∃ (u : State) (e : Entry), execCopyCompletion s = .next u ∧ u.mem = s.mem ∧ (u.die (posDie x.core)).descs = [] ∧
      (u.core x.core).inbox = (s.core x.core).inbox ++ [e] ∧ e.kind = 2 ∧ e.stat = st ∧ e.taker = x.slot ∧
      e.payload = BitVec.ofNat 384 w := by
  have runs : execCopyCompletion s =
      .next (((s.withoutDesc x).endHolder x.core x.num).fillReserved x.core forCommand x.num (x.completion st w)) := by
    simp only [execCopyCompletion, names, if_pos colls, State.collToEnd_local one ended kind, State.collEnd_local kind]
  obtain ⟨mem, dies, -, ⟨stamp, inbox⟩, -⟩ := State.post_completion (s := s.withoutDesc x) still held (x.completion st w)
  refine ⟨_, State.stamped stamp x.core (x.completion st w), runs, mem, ?_, inbox, rfl, rfl, rfl, rfl⟩
  rw [State.die, dies, ← State.die, State.withoutDesc, State.die_onDie]
  simp [one]

end
end Sys2Proof.Machine
end

section
/-!
SUPPORT. A collective of one participant begins: its run asks the homes of its source (R287, R291).
-/
namespace Sys2Proof.Machine
open Spec

section
variable {s : State} {die : Nat} {x : Coll} {i : Inst}

/-- What asks a home for its bytes of the source. -/
def Coll.asking (x : Coll) (die id : Nat) (h : Nat × List Piece) : Packet :=
  { id := 0, src := 36 * die, dst := h.1, cls := control, flits := 1, launch := x.launch
    body := .fetch ⟨36 * die, id, 0, if x.src.ent.kind = kScratch then 1 else 0, x.src.obj, x.src.gen, false, h.2⟩ }

/-- The run waits for as many answers as it asks homes. -/
def State.awaiting (s : State) (die id n : Nat) : State := s.onInst die id fun y => { y with reading := n }

theorem State.collAsk_alone (id : Nat) :
    s.collAsk die id [x] = (byHome (s.linesOf x.src 0 (cLen x.block))).foldl (fun s h => s.sendPkt (x.asking die id h))
      (s.awaiting die id (byHome (s.linesOf x.src 0 (cLen x.block))).length) := by
  have ranks : List.zip (below [x].length) [x] = [(0, x)] := rfl
  simp only [State.collAsk, ranks, List.flatMap_singleton, List.foldl_map, List.length_map]
  rfl

theorem State.insts_onInst (one : (s.die die).insts = [i]) (f : Inst → Inst) : ((s.onInst die i.id f).die die).insts = [f i] := by
  rw [State.onInst, State.die_onDie]
  simp [one, updFirst]

theorem State.onDie_keep {α : Type} {g : Die → α} (s : State) (d : Nat) {f : Die → Die} (keep : ∀ x, g (f x) = g x) :
    g ((s.onDie d f).die d) = g (s.die d) := by
  rw [State.die_onDie, keep]
theorem State.die_numberUsed (s : State) (d : Nat) : s.numberUsed.die d = s.die d := rfl
theorem State.linesOf_numberUsed (s : State) (t : Xl) (k n : Nat) : s.numberUsed.linesOf t k n = s.linesOf t k n := rfl
theorem State.linesOf_onDie (s : State) (d : Nat) (f : Die → Die) (t : Xl) (k n : Nat) :
    (s.onDie d f).linesOf t k n = s.linesOf t k n := rfl
theorem State.withInst_insts (none_ : (s.die die).insts = []) (j : Inst) : ((s.withInst die j).die die).insts = [j] := by
  rw [State.withInst, State.die_onDie, State.die_numberUsed, none_, List.nil_append]

theorem State.withInst_gather (j : Inst) : ((s.withInst die j).die die).gather = (s.die die).gather := by
  rw [State.withInst, State.onDie_keep (g := Die.gather) _ die (f := fun d => { d with insts := d.insts ++ [j] }) fun _ => rfl, State.die_numberUsed]
theorem State.awaiting_gather (id n : Nat) : ((s.awaiting die id n).die die).gather = (s.die die).gather :=
  State.onDie_keep s die fun _ => rfl

theorem State.linesOf_begun (s : State) (die : Nat) (ms : List Coll) (j : Inst) (t : Xl) (k n : Nat) :
    ((s.gathered die ms).withInst die j).linesOf t k n = s.linesOf t k n := by
  rw [State.withInst, State.linesOf_onDie, State.linesOf_numberUsed, State.gathered, State.linesOf_onDie]
theorem State.gathered_insts (none_ : (s.die die).insts = []) (ms : List Coll) : ((s.gathered die ms).die die).insts = [] := by
  rw [State.gathered, State.die_onDie, none_]

/-- The state in which a participant alone asks the homes of its source for its bytes, as run `j`. -/
def State.begun (s : State) (die : Nat) (x : Coll) (j : Inst) : State :=
  ((s.gathered die [x]).withInst die j).awaiting die j.id (byHome (s.linesOf x.src 0 (cLen x.block))).length

theorem State.begun_spec (one : (s.die die).gather = [x]) (none_ : (s.die die).insts = []) (j : Inst) :
    (s.begun die x j).mem = s.mem ∧ ((s.begun die x j).die die).gather = [] ∧
      ((s.begun die x j).die die).insts = [{ j with reading := (byHome (s.linesOf x.src 0 (cLen x.block))).length }] := by
  refine ⟨rfl, ?_, State.insts_onInst (State.withInst_insts (State.gathered_insts none_ _) j) _⟩
  rw [State.begun, State.awaiting_gather, State.withInst_gather, State.gathered_gather one]

/-- A participant that is alone and ready begins: its run asks the homes of the source. -/
theorem execCollInstanceRun_begin (names : s.arg 0 = die) (id : s.arg 1 = x.id) (begins : s.arg 2 ≠ 1)
    (one : (s.die die).gather = [x]) (alone : x.set = [x.core]) (here : s.partContained x.core = false)
    (ready : s.collReady die x = true) (none_ : (s.die die).insts = []) :
    ∃ (u : State) (j : Inst), execCollInstanceRun s = .next u ∧ u.mem = s.mem ∧ (u.die die).gather = [] ∧
      (u.die die).insts = [j] ∧ j.ms = [x] ∧ j.sent = false ∧ j.got = [] ∧
      ∀ h ∈ byHome (s.linesOf x.src 0 (cLen x.block)), ∃ f : Fetch, f.num = j.id ∧ f.ps = h.2 ∧
        Leaves u (36 * die) h.1 control 1 (.fetch f) := by
  obtain ⟨j, new, members, unsent, empty⟩ : ∃ j, s.newInst x = j ∧ j.ms = [x] ∧ j.sent = false ∧ j.got = [] :=
    ⟨_, rfl, rfl, rfl, rfl⟩
  let homes := byHome (s.linesOf x.src 0 (cLen x.block))
  have runs : execCollInstanceRun s = .next (homes.foldl (fun s h => s.sendPkt (x.asking die j.id h)) (s.begun die x j)) := by
    have begun := State.collBegin_alone one alone
    rw [here, if_neg Bool.false_ne_true, new, State.collAsk_alone, State.linesOf_begun] at begun
    have starts : execCollInstanceRun s = .next (s.collBegin die x) := by
      simp [execCollInstanceRun, names, id, begins, one, ready]
    rw [starts, begun, State.begun]
  obtain ⟨mem, gather, insts⟩ := State.begun_spec one none_ j
  have asked : (s.begun die x j).PacketsOnly (homes.foldl (fun s h => s.sendPkt (x.asking die j.id h)) (s.begun die x j)) :=
    .foldl (fun s h => .sendPkt s (x.asking die j.id h)) homes _
  refine ⟨_, { j with reading := homes.length }, runs, asked.mem.trans mem, ?_, ?_, members, unsent, empty, fun h hh => ?_⟩
  · rw [asked.die, gather]
  · rw [asked.die, insts]
  · obtain ⟨id, seq, onWay⟩ := State.sendAll_onWay (x.asking die j.id) hh (s.begun die x j)
    exact ⟨_, rfl, rfl, onWay.leaves⟩

end
end Sys2Proof.Machine
end

section
/-!
SUPPORT. The result of a gathering collective of a participant alone, within a line (R275, R288).
-/
namespace Sys2Proof.Machine
open Spec

section
variable {s : State} {die : Nat} {x : Coll} {i : Inst}

/-! The source. -/

theorem SMap.get_foldl_set (f : Nat → Byte) {n j : Nat} (hj : j < n) (m : SMap Byte) :
    SMap.get (((List.range n).map fun j => (j, f j)).foldl (fun acc p => SMap.set acc p.1 p.2) m) j 0 = f j := by
  induction n with
  | zero => cases hj
  | succ n ih =>
    rw [List.range_succ, List.map_append, List.foldl_append]
    rcases Nat.lt_succ_iff_lt_or_eq.1 hj with before | rfl
    · exact (SMap.get_set_ne _ (Nat.ne_of_lt before) _ _).trans (ih before)
    · exact SMap.get_set ..

/-- A source that came whole and sound in one piece. -/
theorem Inst.source_whole {f : Nat → Byte} (got : i.got = [(0, (List.range (cLen x.block)).map fun j => (j, f j), [])]) :
    i.source 0 x = (List.range (cLen x.block)).map fun j => (f j, false) := by
  have mine : i.got.filter (fun g => g.1 == 0) = [(0, (List.range (cLen x.block)).map fun j => (j, f j), [])] := by
    rw [got]
    rfl
  simp only [Inst.source, mine, below_eq_range, List.foldl_cons, List.foldl_nil, List.flatMap_cons, List.flatMap_nil, List.append_nil,
    List.contains_nil]
  exact List.map_congr_left fun j hj => by rw [SMap.get_foldl_set f (List.mem_range.1 hj)]

/-! One line of a destination. -/

/-- The piece of a range that lies within a line. -/
def linePiece (off n h a : Nat) : Piece := { key := 0, off, addr := a, n, home := h }

theorem State.linesOf_line {t : Xl} {n h a : Nat} (some_ : 0 < n) (line : t.off % 64 + n ≤ 64) (site : s.home t t.off = (h, a)) :
    s.linesOf t 0 n = [linePiece t.off n h a] := by
  have one : (t.off % 64 + n + 63) / 64 = 1 := by omega
  have first : max t.off (t.off / 64 * 64 + 64 * 0) = t.off := by omega
  have last : min (t.off + n) (t.off / 64 * 64 + 64 * (0 + 1)) = t.off + n := by omega
  have only : below 1 = [0] := rfl
  have here : t.off < t.off + n := by omega
  simp only [State.linesOf, Nat.add_zero, one, only, List.filterMap_cons, List.filterMap_nil, first, last, site, if_pos here,
    Nat.sub_self, Nat.add_sub_cancel_left, linePiece]
theorem byHome_one (p : Piece) : byHome [p] = [(p.home, [p])] := by simp [byHome]

/-- The bytes of a result by where they go. -/
def placedBytes (a : Nat) (bs : List (Byte × Bool)) : List (Nat × Byte × Bool) :=
  (List.range bs.length).map fun j => (a + j, bs[j]?.getD (0, false))

/-- The packet that brings a participant its result. -/
def Coll.resultPacket (x : Coll) (die id h a : Nat) (bs : List (Byte × Bool)) : Packet :=
  { id := 0, src := 36 * die, dst := h, cls := bulk, flits := flitsFor bs.length, launch := x.launch
    toff := max x.dst.off (8192 * (x.dst.off / 8192))
    body := .segment (36 * die) id 1 (placeCode x.dst) ((placedBytes a bs).map fun b => (b.1, b.2.1))
      (((placedBytes a bs).filter fun b => b.2.2).map (·.1)) (if x.dst.obj = aliasObj then 0 else x.dst.obj) x.dst.gen }

/-- A result within a line of one home goes there in one packet. -/
theorem State.collSend_line {bs : List (Byte × Bool)} {h a : Nat} (id : Nat) (some_ : 0 < bs.length)
    (line : x.dst.off % 64 + bs.length ≤ 64) (site : s.home x.dst x.dst.off = (h, a)) :
    s.collSend die id 0 x bs =
      (s.onInst die id fun y => { y with flying := y.flying + 1 }).sendPkt (x.resultPacket die id h a bs) := by
  simp only [State.collSend, State.linesOf_line some_ line site, byHome_one]
  simp [linePiece, below_eq_range, Coll.resultPacket, placedBytes]

/-- Sound bytes, in order. -/
def soundBytes (f : Nat → Byte) (n : Nat) : List (Byte × Bool) := (List.range n).map fun j => (f j, false)

theorem placed_sound (f : Nat → Byte) (a n : Nat) : placedBytes a (soundBytes f n) = (List.range n).map fun j => (a + j, f j, false) := by
  rw [placedBytes, soundBytes, List.length_map, List.length_range]
  exact List.map_congr_left fun j hj => by simp [List.mem_range.1 hj]
theorem Coll.resultPacket_body (kind : x.dst.ent.kind = kPrivate) (die id h a : Nat) (f : Nat → Byte) (n : Nat) :
    (x.resultPacket die id h a (soundBytes f n)).body =
      .segment (36 * die) id 1 0 ((List.range n).map fun j => (a + j, f j)) [] (if x.dst.obj = aliasObj then 0 else x.dst.obj)
        x.dst.gen := by
  have place : placeCode x.dst = 0 := by simp [placeCode, kind, kPrivate, kScratch, kShared]
  simp [Coll.resultPacket, placed_sound, place, Function.comp_def, List.filter_map]

/-! The run. -/

/-- The run with its results on their way. -/
def Inst.moved (i : Inst) (n : Nat) : Inst := { i with sent := true, got := [], wrote := [n], status := max i.status 0 }

/-- The events of a result without any are counted where a core of this package is rank 0. -/
def State.uneventful (s : State) (x : Coll) : State := if x.core < 864 then s.countFl x.core .none else s

theorem State.collMove_alone {f : Nat → Byte} (members : i.ms = [x]) (gathers : cKind x.block = 2)
    (got : i.got = [(0, (List.range (cLen x.block)).map fun j => (j, f j), [])]) :
    s.collMove die i =
      ((s.uneventful x).onInst die i.id fun y => y.moved (cLen x.block)).collSend die i.id 0 x (soundBytes f (cLen x.block)) := by
  have ranks : List.zip (below [x].length) [x] = [(0, x)] := rfl
  have whole : i.source 0 x = soundBytes f (cLen x.block) := Inst.source_whole got
  have fine : (soundBytes f (cLen x.block)).any (·.2) = false := by simp [soundBytes]
  have len : (soundBytes f (cLen x.block)).length = cLen x.block := by simp [soundBytes]
  simp only [State.collMove, members, ranks, List.map_cons, List.map_nil, whole, List.any_cons, List.any_nil, fine, Bool.or_false,
    List.head?_cons, Option.map_some, Option.getD_some, collResult, gathers, Nat.lt_irrefl, if_false, List.flatMap_cons,
    List.flatMap_nil, List.append_nil, id, len, List.foldl_cons, List.foldl_nil, Bool.false_eq_true]
  rfl

theorem State.home_onDie (s : State) (d : Nat) (f : Die → Die) (t : Xl) (k : Nat) : (s.onDie d f).home t k = s.home t k := rfl
theorem State.home_count (s : State) (c e n : Nat) (t : Xl) (k : Nat) : (s.count c e n).home t k = s.home t k := rfl
theorem State.home_uneventful (s : State) (x : Coll) (t : Xl) (k : Nat) : (s.uneventful x).home t k = s.home t k := by
  unfold State.uneventful
  split
  · simp only [State.countFl, State.home_count]
  · rfl
theorem State.uneventful_mem (s : State) (x : Coll) : (s.uneventful x).mem = s.mem := by
  unfold State.uneventful
  split
  · exact State.countFl_mem ..
  · rfl
theorem State.uneventful_die (s : State) (x : Coll) (d : Nat) : (s.uneventful x).die d = s.die d := by
  unfold State.uneventful
  split
  · simp [State.die, State.countFl]
  · rfl

/-- A collective whose source has come sends its result. -/
theorem execCollInstanceRun_move {f : Nat → Byte} {h a : Nat} (names : s.arg 0 = die) (id : s.arg 1 = i.id) (goes : s.arg 2 = 1)
    (one : (s.die die).insts = [i]) (members : i.ms = [x]) (unsent : i.sent = false) (read : i.reading = 0)
    (fine : i.status = 0) (gathers : cKind x.block = 2) (some_ : 0 < cLen x.block) (line : x.dst.off % 64 + cLen x.block ≤ 64)
    (kind : x.dst.ent.kind = kPrivate) (site : s.home x.dst x.dst.off = (h, a))
    (got : i.got = [(0, (List.range (cLen x.block)).map fun j => (j, f j), [])]) :
    ∃ (u : State) (flits : Nat), execCollInstanceRun s = .next u ∧ u.mem = s.mem ∧
      (u.die die).insts = [{ i with sent := true, got := [], wrote := [cLen x.block], flying := i.flying + 1 }] ∧
      Leaves u (36 * die) h bulk flits (.segment (36 * die) i.id 1 0 ((List.range (cLen x.block)).map fun j => (a + j, f j)) []
        (if x.dst.obj = aliasObj then 0 else x.dst.obj) x.dst.gen) := by
  let v := (s.uneventful x).onInst die i.id fun y => y.moved (cLen x.block)
  let w := v.onInst die i.id fun y => { y with flying := y.flying + 1 }
  let r := x.resultPacket die i.id h a (soundBytes f (cLen x.block))
  have len : (soundBytes f (cLen x.block)).length = cLen x.block := by simp [soundBytes]
  have siteThen : v.home x.dst x.dst.off = (h, a) :=
    (State.home_onDie ..).trans ((State.home_uneventful ..).trans site)
  have stage : execCollInstanceRun s = .next (s.collMove die i) := by
    simp [execCollInstanceRun, names, id, goes, one, Inst.ready, unsent, read, State.collStage, fine]
  have runs : execCollInstanceRun s = .next (w.sendPkt r) := by
    rw [stage, State.collMove_alone members gathers got,
      State.collSend_line i.id (by rw [len]; exact some_) (by rw [len]; exact line) siteThen]
  have sent := State.PacketsOnly.sendPkt w r
  have before : ((s.uneventful x).die die).insts = [i] := by rw [State.uneventful_die, one]
  have moved : (v.die die).insts = [i.moved (cLen x.block)] := State.insts_onInst before _
  refine ⟨_, r.flits, runs, sent.mem.trans (State.uneventful_mem s x), ?_, ?_⟩
  · have flying := State.insts_onInst (i := i.moved (cLen x.block)) moved fun y => { y with flying := y.flying + 1 }
    rw [sent.die]
    exact flying.trans (by rw [Inst.moved, fine]; rfl)
  · have leaves := (w.sendPkt_onWay r).leaves
    have body : (w.numbered r).body = _ := Coll.resultPacket_body kind die i.id h a f (cLen x.block)
    rw [body] at leaves
    exact leaves

end
end Sys2Proof.Machine
end

section
/-!
SUPPORT. The engines' events together.
-/
namespace Sys2Proof.Machine

theorem collectiveEvents : Spec.CollectiveEvents := by
  unfold Spec.CollectiveEvents
  intro s die x i p
  refine ⟨?_, fun one alone gone => ?_, fun one alone here ready none_ => ?_,
    fun h a f one members unsent read fine gathers some_ line kind site got => ?_, fun one sent landed => ?_, ?_, fun st w one ended kind still held => ?_⟩
  · rintro ⟨found, body⟩
    exact execCollDescriptorArrival_spec (s := { s with evt := [p.id] }) found body
  · exact execCollInstanceRun_contained (s := { s with evt := [die, x.id] }) rfl rfl Nat.zero_ne_one one alone gone
  · exact execCollInstanceRun_begin (s := { s with evt := [die, x.id] }) rfl rfl Nat.zero_ne_one one alone here ready none_
  · exact execCollInstanceRun_move (s := { s with evt := [die, i.id, 1] }) rfl rfl rfl one members unsent read fine gathers some_
      line kind site got
  · exact execCollInstanceRun_end (s := { s with evt := [die, i.id, 1] }) rfl rfl rfl one sent landed
  · rintro st w ⟨found, body⟩ one
    exact execEndToEndAck_coll (s := { s with evt := [p.id] }) found body one
  · exact execCopyCompletion_coll (s := { s with evt := [x.core, 1] }) rfl rfl one ended kind still held

/-- Settles O50: each event of the copy and collective engines, by what its one operation changes. -/
theorem engineEvents : Obligations.EngineEvents := ⟨copyEvents, collectiveEvents⟩

end Sys2Proof.Machine
end

section
/-!
SUPPORT. Reading back the words of a field set: the decoder gathers from them the chain they were written from, and the
chain holds the fields again (R100-R112, R116).
-/
namespace Sys2Proof

/-! Bits of a halfword. -/

theorem hbits_ofNat {x : Nat} (small : x < 65536) (lo len : Nat) :
    hbits (BitVec.ofNat 16 x) lo len = x / 2 ^ lo % 2 ^ len := by
  rw [hbits, BitVec.toNat_ofNat, Nat.mod_eq_of_lt small]

/-- A field held by prefixes of kind `k`, of which no bit counts where they are absent (R103, R107, R111, R112). -/
theorem hbits_prefWord (k : Fin 64) {x : Nat} (small : x < 1024) (n lo len : Nat) (low : lo + len ≤ 10) :
    hbits (prefWord (if x = 0 then none else some (n, BitVec.ofNat 16 (k.val * 1024 + x)))) lo len =
      x / 2 ^ lo % 2 ^ len := by
  by_cases absent : x = 0
  · simp [absent, prefWord, hbits]
  obtain ⟨j, hj⟩ := Nat.exists_eq_add_of_le low
  have shape : k.val * 1024 = 2 ^ lo * (2 ^ len * (2 ^ j * k.val)) := by
    rw [show 1024 = 2 ^ 10 from rfl, hj, Nat.pow_add, Nat.pow_add]
    ring
  rw [if_neg absent]
  refine (hbits_ofNat (by omega) lo len).trans ?_
  rw [shape, Nat.mul_add_div (Nat.two_pow_pos lo), Nat.mul_add_mod]

/-! The words of a field set. -/

/-- The fields that `QX` carries (R111). -/
def Fields.qxBits (f : Fields) : Nat := f.qtop * 64 + f.ty * 8 + f.md
/-- The fields that `RX` carries (R107). -/
def Fields.rxBits (f : Fields) : Nat :=
  f.d / 16 * 256 + f.a / 16 * 64 + f.b / 16 * 16 + boolCode f.gd.neg * 8 + f.gd.p.toNat
def Fields.pgWord (f : Fields) : Half := BitVec.ofNat 16 (0xF400 + f.page * 4)
def Fields.qxWord (f : Fields) : Half := BitVec.ofNat 16 (0xF800 + f.qxBits)
def Fields.rxWord (f : Fields) : Half := BitVec.ofNat 16 (0xF000 + f.rxBits)
def Fields.baseWord (f : Fields) : Half :=
  BitVec.ofNat 16 (f.m * 4096 + f.d % 16 * 256 + f.a % 16 * 16 + f.b % 16)

theorem Fields.words_eq (f : Fields) : f.words =
    (if f.page = 0 then [] else [f.pgWord]) ++ ((if f.qxBits = 0 then [] else [f.qxWord]) ++
      ((if f.rxBits = 0 then [] else [f.rxWord]) ++ (imxWords f.hi f.ext ++ [f.baseWord]))) := by
  simp only [Fields.words, List.append_assoc]
  rfl

/-- Each field fits the bits that the halfwords have for it. -/
structure Fields.Fit (f : Fields) : Prop where
  page : f.page < 256
  m : f.m ≤ 13
  d : f.d < 64
  a : f.a < 64
  b : f.b < 64
  qtop : f.qtop < 16
  ty : f.ty < 8
  md : f.md < 8
  hi : f.hi < 4096 ^ f.ext

theorem Fields.Fit.qxBits_lt {f : Fields} (fit : f.Fit) : f.qxBits < 1024 := by
  have := fit.qtop
  have := fit.ty
  have := fit.md
  rw [Fields.qxBits]
  omega

theorem boolCode_lt (b : Bool) : boolCode b < 2 := by cases b <;> decide

theorem Fields.Fit.rxBits_lt {f : Fields} (fit : f.Fit) : f.rxBits < 1024 := by
  have := fit.d
  have := fit.a
  have := fit.b
  have := boolCode_lt f.gd.neg
  have := f.gd.p.isLt
  rw [Fields.rxBits]
  omega

theorem Fields.Fit.base_lt {f : Fields} (fit : f.Fit) :
    f.m * 4096 + f.d % 16 * 256 + f.a % 16 * 16 + f.b % 16 < 65536 := by
  have := fit.m
  omega

/-! The chain that the words make, one of them at a time. -/

def Chain.takePg (c : Chain) (f : Fields) : Chain :=
  { c with n := c.n + (if f.page = 0 then 0 else 1), pg := if f.page = 0 then c.pg else some (c.n, f.pgWord) }
def Chain.takeQx (c : Chain) (f : Fields) : Chain :=
  { c with n := c.n + (if f.qxBits = 0 then 0 else 1), qx := if f.qxBits = 0 then c.qx else some (c.n, f.qxWord) }
def Chain.takeRx (c : Chain) (f : Fields) : Chain :=
  { c with n := c.n + (if f.rxBits = 0 then 0 else 1), rx := if f.rxBits = 0 then c.rx else some (c.n, f.rxWord) }
/-- The `IMX` prefixes give 12 bits each, the most significant first (R104). -/
def Chain.takeImx (c : Chain) (hi n : Nat) : Chain :=
  { c with n := c.n + n, ext := c.ext + n, hi := c.hi * 4096 ^ n + hi % 4096 ^ n
           firstImx := if n = 0 then c.firstImx
             else c.firstImx.orElse fun _ => some (c.n, BitVec.ofNat 16 (0xE000 + hi / 4096 ^ (n - 1) % 4096)) }
/-- The chain of a field set. -/
def Fields.chain (f : Fields) : Chain := (((({} : Chain).takePg f).takeQx f).takeRx f).takeImx f.hi f.ext

theorem Chain.takeImx_zero (c : Chain) (hi : Nat) : c.takeImx hi 0 = c := by simp [Chain.takeImx, Nat.mod_one]

theorem Chain.takeImx_succ (c : Chain) (hi n : Nat) : c.takeImx hi (n + 1) =
    Chain.takeImx { c with n := c.n + 1, ext := c.ext + 1, hi := c.hi * 4096 + hi / 4096 ^ n % 4096
                           firstImx := c.firstImx.orElse fun _ => some (c.n, BitVec.ofNat 16 (0xE000 + hi / 4096 ^ n % 4096)) }
      hi n := by
  have bits : c.hi * 4096 ^ (n + 1) + hi % 4096 ^ (n + 1) =
      (c.hi * 4096 + hi / 4096 ^ n % 4096) * 4096 ^ n + hi % 4096 ^ n := by
    rw [Nat.pow_succ, Nat.mod_mul]
    ring
  simp only [Chain.takeImx, bits, Nat.add_assoc, Nat.add_comm 1 n, Nat.add_sub_cancel, Nat.succ_ne_zero, if_false,
    Chain.mk.injEq, true_and, and_true]
  cases c.firstImx <;> simp

/-! The decoder gathers that chain. -/

section
variable {c : Chain} {f : Fields} {rest : List Half}

theorem decodeFrom_pg (fit : f.Fit) (room : (c.takePg f).n ≤ 4) (free : c.pg = none) :
    decodeFrom c ((if f.page = 0 then [] else [f.pgWord]) ++ rest) = decodeFrom (c.takePg f) rest := by
  have := fit.page
  by_cases absent : f.page = 0
  · simp [Chain.takePg, absent]
  · have top : hbits f.pgWord 12 4 = 15 := by rw [Fields.pgWord, hbits_ofNat (by omega)]; omega
    have kind : hbits f.pgWord 10 2 = 1 := by rw [Fields.pgWord, hbits_ofNat (by omega)]; omega
    have short : c.n < 4 := by simpa [Chain.takePg, absent] using room
    simp [decodeFrom, Chain.takePg, absent, top, kind, free, short]

theorem decodeFrom_qx (fit : f.Fit) (room : (c.takeQx f).n ≤ 4) (free : c.qx = none) :
    decodeFrom c ((if f.qxBits = 0 then [] else [f.qxWord]) ++ rest) = decodeFrom (c.takeQx f) rest := by
  have := fit.qxBits_lt
  by_cases absent : f.qxBits = 0
  · simp [Chain.takeQx, absent]
  · have top : hbits f.qxWord 12 4 = 15 := by rw [Fields.qxWord, hbits_ofNat (by omega)]; omega
    have kind : hbits f.qxWord 10 2 = 2 := by rw [Fields.qxWord, hbits_ofNat (by omega)]; omega
    have short : c.n < 4 := by simpa [Chain.takeQx, absent] using room
    simp [decodeFrom, Chain.takeQx, absent, top, kind, free, short]

theorem decodeFrom_rx (fit : f.Fit) (room : (c.takeRx f).n ≤ 4) (free : c.rx = none) :
    decodeFrom c ((if f.rxBits = 0 then [] else [f.rxWord]) ++ rest) = decodeFrom (c.takeRx f) rest := by
  have := fit.rxBits_lt
  by_cases absent : f.rxBits = 0
  · simp [Chain.takeRx, absent]
  · have top : hbits f.rxWord 12 4 = 15 := by rw [Fields.rxWord, hbits_ofNat (by omega)]; omega
    have kind : hbits f.rxWord 10 2 = 0 := by rw [Fields.rxWord, hbits_ofNat (by omega)]; omega
    have short : c.n < 4 := by simpa [Chain.takeRx, absent] using room
    simp [decodeFrom, Chain.takeRx, absent, top, kind, free, short]

theorem decodeFrom_imx {hi n : Nat} (room : c.n + n ≤ 4) :
    decodeFrom c (imxWords hi n ++ rest) = decodeFrom (c.takeImx hi n) rest := by
  induction n generalizing c with
  | zero => rw [Chain.takeImx_zero]; rfl
  | succ n ih =>
    have digit : hi / 4096 ^ n % 4096 < 4096 := Nat.mod_lt _ (by decide)
    have top : hbits (BitVec.ofNat 16 (0xE000 + hi / 4096 ^ n % 4096)) 12 4 = 14 := by
      rw [hbits_ofNat (by omega)]; omega
    have low : hbits (BitVec.ofNat 16 (0xE000 + hi / 4096 ^ n % 4096)) 0 12 = hi / 4096 ^ n % 4096 := by
      rw [hbits_ofNat (by omega)]; omega
    have short : ¬ c.n ≥ 4 := by omega
    simp only [imxWords, List.cons_append, decodeFrom, top, low, short, if_true, if_false, Nat.reduceLeDiff,
      Nat.reduceEqDiff, false_and]
    rw [Chain.takeImx_succ]
    exact ih (by dsimp only; omega)

end

theorem imxWords_length (hi n : Nat) : (imxWords hi n).length = n := by
  induction n with
  | zero => rfl
  | succ n ih => rw [imxWords, List.length_cons, ih]

section
variable {f : Fields}

theorem Fields.chain_n (f : Fields) : f.chain.n + 1 = f.words.length := by
  simp only [Fields.words_eq, Fields.chain, Chain.takePg, Chain.takeQx, Chain.takeRx, Chain.takeImx, List.length_append,
    imxWords_length, apply_ite List.length, List.length_nil, List.length_cons]
  ring

/-- Decoding the words of fitting fields comes to finishing their chain. -/
theorem Fields.Fit.decode_words (fit : f.Fit) (few : f.words.length ≤ 5) :
    decode f.words = finishChain f.chain f.baseWord := by
  have room := f.chain_n
  have top : hbits f.baseWord 12 4 ≤ 0xD := by
    have := fit.m
    rw [Fields.baseWord, hbits_ofNat fit.base_lt]
    omega
  simp only [Fields.chain, Chain.takeImx] at room
  rw [decode, Fields.words_eq, decodeFrom_pg fit _ rfl, decodeFrom_qx fit _ rfl, decodeFrom_rx fit _ rfl, decodeFrom_imx,
    decodeFrom, if_pos top]
  · rfl
  all_goals
    simp only [Chain.takePg, Chain.takeQx, Chain.takeRx] at room ⊢
    omega

/-! What the chain holds. -/

theorem Fields.Fit.hbits_pg (fit : f.Fit) {lo len : Nat} (low : lo + len ≤ 10) :
    hbits (prefWord f.chain.pg) lo len = f.page * 4 / 2 ^ lo % 2 ^ len := by
  have small : f.page * 4 < 1024 := by have := fit.page; omega
  have h := hbits_prefWord 61 small 0 lo len low
  simp only [Nat.mul_eq_zero, Nat.reduceEqDiff, or_false] at h
  exact h
theorem Fields.Fit.hbits_qx (fit : f.Fit) {lo len : Nat} (low : lo + len ≤ 10) :
    hbits (prefWord f.chain.qx) lo len = f.qxBits / 2 ^ lo % 2 ^ len := hbits_prefWord 62 fit.qxBits_lt _ lo len low
theorem Fields.Fit.hbits_rx (fit : f.Fit) {lo len : Nat} (low : lo + len ≤ 10) :
    hbits (prefWord f.chain.rx) lo len = f.rxBits / 2 ^ lo % 2 ^ len := hbits_prefWord 60 fit.rxBits_lt _ lo len low

theorem Fields.Fit.page_chain (fit : f.Fit) : hbits (prefWord f.chain.pg) 2 8 = f.page := by
  have := fit.page
  rw [fit.hbits_pg (by decide)]
  omega
/-- What `QX` gives (R111). -/
theorem Fields.Fit.qx_chain (fit : f.Fit) : hbits (prefWord f.chain.qx) 6 4 = f.qtop ∧
    hbits (prefWord f.chain.qx) 3 3 = f.ty ∧ hbits (prefWord f.chain.qx) 0 3 = f.md := by
  have := fit.qtop
  have := fit.ty
  have := fit.md
  rw [fit.hbits_qx (by decide), fit.hbits_qx (by decide), fit.hbits_qx (by decide), Fields.qxBits]
  omega
/-- What `RX` gives: the high bits of the registers, and the guard (R107). -/
theorem Fields.Fit.rx_chain (fit : f.Fit) : hbits (prefWord f.chain.rx) 8 2 = f.d / 16 ∧
    hbits (prefWord f.chain.rx) 6 2 = f.a / 16 ∧ hbits (prefWord f.chain.rx) 4 2 = f.b / 16 ∧
    hbits (prefWord f.chain.rx) 3 1 = boolCode f.gd.neg ∧ hbits (prefWord f.chain.rx) 0 3 = f.gd.p.toNat := by
  have hd : f.d / 16 < 4 := by have := fit.d; omega
  have ha : f.a / 16 < 4 := by have := fit.a; omega
  have hb : f.b / 16 < 4 := by have := fit.b; omega
  have := boolCode_lt f.gd.neg
  have := f.gd.p.isLt
  rw [fit.hbits_rx (by decide), fit.hbits_rx (by decide), fit.hbits_rx (by decide), fit.hbits_rx (by decide),
    fit.hbits_rx (by decide), Fields.rxBits]
  omega
/-- What the base word gives (R101). -/
theorem Fields.Fit.base_chain (fit : f.Fit) : hbits f.baseWord 12 4 = f.m ∧ hbits f.baseWord 8 4 = f.d % 16 ∧
    hbits f.baseWord 4 4 = f.a % 16 ∧ hbits f.baseWord 0 4 = f.b % 16 := by
  have := fit.m
  simp only [Fields.baseWord, hbits_ofNat fit.base_lt]
  omega

theorem Guard.ofCodes (g : Guard) : (⟨boolCode g.neg == 1, BitVec.ofNat 3 g.p.toNat⟩ : Guard) = g := by
  obtain ⟨neg, p⟩ := g
  rw [BitVec.ofNat_toNat, BitVec.setWidth_eq]
  cases neg <;> rfl

/-- The chain of fitting fields ends in these very fields. -/
theorem Fields.Fit.fields_chain (fit : f.Fit) : f.chain.fields f.baseWord = f := by
  have ext : f.chain.ext = f.ext := Nat.zero_add _
  have hi : f.chain.hi = f.hi := by
    rw [show f.chain.hi = 0 * 4096 ^ f.ext + f.hi % 4096 ^ f.ext from rfl, Nat.mod_eq_of_lt fit.hi, Nat.zero_mul,
      Nat.zero_add]
  obtain ⟨qtop, ty, md⟩ := fit.qx_chain
  obtain ⟨d, a, b, neg, p⟩ := fit.rx_chain
  obtain ⟨m, d', a', b'⟩ := fit.base_chain
  simp only [Chain.fields, fit.page_chain, qtop, ty, md, d, a, b, neg, p, m, d', a', b', ext, hi, Guard.ofCodes,
    Nat.div_add_mod']

/-! Finishing the chain. -/

/-- A register field may hold a code, its high bits and its base-word bits (R109, R110). -/
def FieldKind.Takes (k : FieldKind) (x : Nat) : Prop := k.highOk x = true ∧ k.baseOk x = true

/-- What a row of the opcode map asks of fields (R109, R110, R116). -/
def Row.Admits (r : Row) (f : Fields) : Prop :=
  r.q = true ∧ (r.imm = true ∨ f.ext = 0) ∧ r.d.Takes f.d ∧ r.a.Takes f.a ∧ r.b.Takes f.b ∧ r.base = true

/-- A 16-bit form has neither page nor `QX` fields, and `BR` no immediate prefixes either (R105, R106, R116). -/
def Fields.Compact (f : Fields) : Prop :=
  (12 ≤ f.m → f.page = 0 ∧ f.qxBits = 0) ∧ (f.m = 12 → f.ext = 0)

/-- Fields that fit, are of a row that admits them, and name an instruction. -/
structure Fields.Spell (f : Fields) (i : Instr) : Prop where
  fit : f.Fit
  compact : f.Compact
  row : ∃ r, rowOf f = some r ∧ r.Admits f
  named : ofFields f = some i

theorem Fields.Spell.finishChain {i : Instr} (s : f.Spell i) :
    finishChain f.chain f.baseWord = .ok f.gd i (f.chain.n + 1) f.baseWord f.chain.n := by
  obtain ⟨fit, ⟨bare, short⟩, ⟨r, row, q, imm, d, a, b, base⟩, named⟩ := s
  have noImx (h : f.ext = 0) : f.chain.firstImx = none := if_pos h
  have noPg (h : f.page = 0) : f.chain.pg = none := if_pos h
  have noQx (h : f.qxBits = 0) : f.chain.qx = none := if_pos h
  have compact : (if f.m = 0xC then earlier (earlier f.chain.pg f.chain.qx) f.chain.firstImx
      else if f.m = 0xD then earlier f.chain.pg f.chain.qx else none) = none := by
    split
    next h =>
      obtain ⟨page, qx⟩ := bare (by omega)
      rw [noPg page, noQx qx, noImx (short h)]
      rfl
    next =>
      split
      next h =>
        obtain ⟨page, qx⟩ := bare (by omega)
        rw [noPg page, noQx qx]
        rfl
      next => rfl
  have noImm : (if r.imm || r.immSkip then none else f.chain.firstImx) = none := by
    obtain h | h := imm
    · rw [h]; rfl
    · rw [noImx h, ite_self]
  have noFault : fieldFault f.chain f.baseWord f r = none := by
    simp only [fieldFault, q, d.1, d.2, a.1, a.2, b.1, b.2, base, Bool.and_self, if_true, earlier]
  have op : finishChain.finishOp f.chain f.baseWord f = .ok f.gd i (f.chain.n + 1) f.baseWord f.chain.n := by
    simp only [finishChain.finishOp, compact, row, noImm, noFault, named]
  have low : hbits (prefWord f.chain.pg) 0 2 = 0 := by
    rw [fit.hbits_pg (by decide)]
    omega
  rw [Sys2Proof.finishChain, fit.fields_chain]
  split
  next pg => rw [pg] at low; exact (if_neg (not_not.mpr low)).trans op
  next => exact op

/-- Fields that spell an instruction are read back from their words as that instruction. -/
theorem Fields.Spell.decode_words {i : Instr} (s : f.Spell i) (few : f.words.length ≤ 5) :
    decode f.words = .ok f.gd i f.words.length f.baseWord f.chain.n := by
  rw [s.fit.decode_words few, s.finishChain, f.chain_n]

end
end Sys2Proof
end

section
/-!
SUPPORT. The fields of each instruction: they fit their bits, are of a row of the opcode map that takes them, and name that
instruction alone (R98, R109-R114, R116).
-/
namespace Sys2Proof

/-! The codes of the operand types. -/

@[simp] theorem Width.ofCode_code (w : Width) : Width.ofCode w.code = w := by cases w <;> rfl
@[simp] theorem MemTy.ofCode_code (t : MemTy) : MemTy.ofCode t.code = t := by cases t <;> rfl
@[simp] theorem AmoTy.ofCode_code (t : AmoTy) : AmoTy.ofCode t.code = t := by cases t <;> rfl
@[simp] theorem FTy.ofCode_code (t : FTy) : FTy.ofCode t.code = t := by cases t <;> rfl
@[simp] theorem VTy.ofCode_code (t : VTy) : VTy.ofCode t.code = t := by cases t <;> rfl
@[simp] theorem STy.ofCode_code (t : STy) : STy.ofCode t.code = t := by cases t <;> rfl
@[simp] theorem MTy.ofCode_code (t : MTy) : MTy.ofCode t.code = t := by cases t <;> rfl
@[simp] theorem ITy.ofCode_code (t : ITy) : ITy.ofCode t.code = t := by cases t <;> rfl
@[simp] theorem Rnd.ofCode_code (r : Rnd) : Rnd.ofCode r.code = r := by cases r <;> rfl
@[simp] theorem Scope.ofCode_code (s : Scope) : Scope.ofCode s.code = s := by cases s <;> rfl
@[simp] theorem TElem.ofCode_code (e : TElem) : TElem.ofCode e.code = e := by cases e <;> rfl

@[simp] theorem Width.code_lt (w : Width) : w.code < 8 := by cases w <;> decide
@[simp] theorem MemTy.code_lt (t : MemTy) : t.code < 8 := by cases t <;> decide
@[simp] theorem AmoTy.code_lt (t : AmoTy) : t.code < 8 := by cases t <;> decide
@[simp] theorem FTy.code_lt (t : FTy) : t.code < 8 := by cases t <;> decide
@[simp] theorem VTy.code_lt (t : VTy) : t.code < 8 := by cases t <;> decide
@[simp] theorem STy.code_lt (t : STy) : t.code < 8 := by cases t <;> decide
@[simp] theorem MTy.code_lt (t : MTy) : t.code < 8 := by cases t <;> decide
@[simp] theorem ITy.code_lt (t : ITy) : t.code < 8 := by cases t <;> decide
@[simp] theorem TElem.code_lt (e : TElem) : e.code < 8 := by cases e <;> decide
@[simp] theorem Scope.code_lt (s : Scope) : s.code < 16 := by cases s <;> decide

@[simp] theorem Width.code_le (w : Width) : w.code ≤ 3 := by cases w <;> decide
@[simp] theorem MemTy.code_ne (t : MemTy) : t.code ≠ 4 := by cases t <;> decide
@[simp] theorem FTy.code_le (t : FTy) : t.code ≤ 5 := by cases t <;> decide
@[simp] theorem VTy.code_le (t : VTy) : t.code ≤ 3 := by cases t <;> decide
@[simp] theorem MTy.code_le (t : MTy) : t.code ≤ 5 := by cases t <;> decide
@[simp] theorem Rnd.code_le (r : Rnd) : r.code ≤ 5 := by cases r <;> decide
@[simp] theorem Scope.code_le (s : Scope) : s.code ≤ 8 := by cases s <;> decide
@[simp] theorem TElem.code_le (e : TElem) : e.code ≤ 5 := by cases e <;> decide
theorem AmoTy.code_mem (t : AmoTy) : (t.code = 0 ∨ t.code = 1) ∨ t.code = 5 := by cases t <;> decide
theorem STy.code_mem (t : STy) : (t.code = 0 ∨ t.code = 2) ∨ t.code = 3 := by cases t <;> decide

@[simp] theorem boolCode_beq_one (b : Bool) : (boolCode b == 1) = b := by cases b <;> rfl
@[simp] theorem boolCode_eq_zero (b : Bool) : boolCode b = 0 ↔ b = false := by cases b <;> decide
@[simp] theorem boolCode_mod_two (b : Bool) : boolCode b % 2 = boolCode b := by cases b <;> rfl
@[simp] theorem boolCode_div_two (b : Bool) : boolCode b / 2 = 0 := by cases b <;> rfl
@[simp] theorem boolCode_le_one (b : Bool) : boolCode b ≤ 1 := by cases b <;> decide
@[simp] theorem boolCode_lt_eight (b : Bool) : boolCode b < 8 := by cases b <;> decide
@[simp] theorem boolCode_lt_sixteen (b : Bool) : boolCode b < 16 := by cases b <;> decide

/-! A rounding code stands above the flag of `QX`[6] (R111). -/

@[simp] theorem Rnd.code_flag_lt (r : Rnd) (b : Bool) : 2 * r.code + boolCode b < 16 := by cases r <;> cases b <;> decide
@[simp] theorem Rnd.code_flag_div (r : Rnd) (b : Bool) : (2 * r.code + boolCode b) / 2 = r.code := by
  have := boolCode_lt b
  omega
@[simp] theorem Rnd.two_mul_code_lt (r : Rnd) : 2 * r.code < 16 := by cases r <;> decide
@[simp] theorem Rnd.code_mul_two_lt (r : Rnd) : r.code * 2 < 16 := by cases r <;> decide
@[simp] theorem Rnd.code_imm_lt (r : Rnd) : r.code * 2 + 1 < 16 := by cases r <;> decide
@[simp] theorem Rnd.code_imm_div (r : Rnd) : (r.code * 2 + 1) / 2 = r.code := by omega

/-! A selector or a transpose code stands below the bit that chooses the immediate (R205, R225). -/

theorem selector_le (s : BitVec 3) : s.toNat ≤ 7 := Nat.le_of_lt_succ s.isLt
theorem selector_div (s : BitVec 3) : s.toNat / 8 = 0 := Nat.div_eq_of_lt s.isLt
theorem transpose_lt (t : BitVec 2) : t.toNat < 4 := t.isLt
theorem transpose_div (t : BitVec 2) : t.toNat / 4 = 0 := Nat.div_eq_of_lt t.isLt
theorem transpose_mod (t : BitVec 2) : t.toNat % 4 = t.toNat := Nat.mod_eq_of_lt t.isLt
theorem ofNat_selector_add (s : BitVec 3) : BitVec.ofNat 3 (s.toNat + 8) = s := by
  rw [BitVec.ofNat_add, BitVec.ofNat_toNat, BitVec.setWidth_eq]
  exact BitVec.add_zero s
theorem ofNat_transpose_add (t : BitVec 2) : BitVec.ofNat 2 (t.toNat + 4) = t := by
  rw [BitVec.ofNat_add, BitVec.ofNat_toNat, BitVec.setWidth_eq]
  exact BitVec.add_zero t

/-! Immediates and branch offsets are cut into fields and put together again (R98, R105, R106). -/

theorem Fields.getImm_putImm (f : Fields) (i : Imm) : (f.putImm i).getImm = i := by
  simp [Fields.putImm, Fields.getImm, Fields.immN, Nat.div_add_mod']
theorem Fields.immN_putImm (f : Fields) (i : Imm) : (f.putImm i).immN = i.val := congrArg Imm.val (f.getImm_putImm i)
theorem Fields.getImm8_putImm8 (f : Fields) (i : Imm) : (f.putImm8 i).getImm8 = i := by
  have parts : i.val / 256 * 256 + i.val / 16 % 16 * 16 + i.val % 16 = i.val := by omega
  simp [Fields.putImm8, Fields.getImm8, parts]
theorem Fields.getOff_putOff (f : Fields) (o : BitVec 12) : (f.putOff o).getOff = o := by
  apply BitVec.eq_of_toNat_eq
  rw [Fields.getOff, BitVec.toNat_ofNat]
  simp only [Fields.putOff]
  omega

/-- The bits above a base field of 4 bits fill no more than the `IMX` prefixes. -/
theorem Imm.hi_lt {i : Imm} (wf : i.wf 4 = true) : i.val / 16 < 4096 ^ i.ext := by
  simp only [Imm.wf, Bool.and_eq_true, decide_eq_true_eq, Nat.pow_add, Nat.pow_mul] at wf
  exact Nat.div_lt_of_lt_mul wf.2
theorem Imm.hi_lt_of_eight {i : Imm} (wf : i.wf 8 = true) : i.val / 256 < 4096 ^ i.ext := by
  simp only [Imm.wf, Bool.and_eq_true, decide_eq_true_eq, Nat.pow_add, Nat.pow_mul] at wf
  exact Nat.div_lt_of_lt_mul wf.2

/-! Control register numbers (R135). -/

/-- The row of a `CSRW` by its number. -/
def csrwOf (a : Gpr) (i : Imm) : Instr :=
  if isCsrCtxbase i.val then .csrwCtxbase a i else if isCsrLogsize i.val then .csrwLogsize a i
  else if isCsrMirsize i.val then .csrwMirsize a i else if isCsrUrglim i.val then .csrwUrglim a i
  else if isCsrSeed i.val then .csrwSeed a i else if isCsrWinbase i.val then .csrwWinbase a i
  else if isCsrRectdef i.val then .csrwRectdef a i else .csrw a i

theorem ofFields_csrw {f : Fields} (page : f.page = 8) (m : f.m = 4) (md : f.md = 0) :
    ofFields f = some (csrwOf (BitVec.ofNat 6 f.a) f.getImm) := by
  simp only [ofFields, ofFields8, page, m, md, csrwOf, apply_ite some]
  rfl

/-- The rows of `CSRW`. -/
abbrev csrwRows (a : Gpr) (i : Imm) : List Instr :=
  [.csrw a i, .csrwCtxbase a i, .csrwLogsize a i, .csrwMirsize a i, .csrwUrglim a i, .csrwSeed a i, .csrwWinbase a i,
    .csrwRectdef a i]

/-- A well-formed `CSRW` is of the row that its number names, and of no other. -/
theorem csrwOf_of_wf {a : Gpr} {i : Imm} {x : Instr} (wf : x.wf = true) (mem : x ∈ csrwRows a i) : csrwOf a i = x := by
  simp only [csrwOf, isCsrCtxbase, isCsrLogsize, isCsrMirsize, isCsrUrglim, isCsrSeed, isCsrWinbase, isCsrRectdef,
    isSlotCsr, Bool.or_eq_true, Bool.and_eq_true, decide_eq_true_eq, beq_iff_eq]
  fin_cases mem
  all_goals
    simp only [Instr.wf, csrOwnRow, Bool.and_eq_true, decide_eq_true_eq, Bool.or_eq_true, beq_iff_eq, Bool.not_eq_true',
      Bool.or_eq_false_iff, Bool.and_eq_false_iff, decide_eq_false_iff_not, beq_eq_false_iff_ne] at wf
    repeat' split
  all_goals first
    | rfl
    | omega

theorem csrNumberOk_of_csrWf {n : Nat} (wf : csrWf n = true) : csrNumberOk n = true := by
  simp only [csrWf, csrNumberOk, Bool.or_eq_true, Bool.and_eq_true, decide_eq_true_eq, beq_iff_eq] at wf ⊢
  omega

/-- The number of a well-formed `CSRW` is one of the table's. -/
theorem csrNumberOk_of_wf {a : Gpr} {i : Imm} {x : Instr} (wf : x.wf = true) (mem : x ∈ csrwRows a i) :
    csrNumberOk i.val = true := by
  simp only [csrNumberOk, Bool.or_eq_true, Bool.and_eq_true, decide_eq_true_eq, beq_iff_eq]
  fin_cases mem
  all_goals
    simp only [Instr.wf, csrWf, Bool.and_eq_true, decide_eq_true_eq, Bool.or_eq_true, beq_iff_eq] at wf
    omega

/-! The codes that each kind of register field takes (R109, R110). -/

@[simp] theorem FieldKind.unused_takes : FieldKind.unused.Takes 0 := ⟨rfl, rfl⟩
@[simp] theorem FieldKind.gpr_takes (x : Nat) : FieldKind.gpr.Takes x := ⟨rfl, rfl⟩
@[simp] theorem FieldKind.vec_takes (x : Nat) : FieldKind.vec.Takes x := ⟨rfl, rfl⟩
@[simp] theorem FieldKind.evenGpr_takes (b : Gpr) : FieldKind.evenGpr.Takes b.toNat ↔ Sys2Proof.evenGpr b = true :=
  ⟨fun h => h.2, fun h => ⟨rfl, h⟩⟩
@[simp] theorem FieldKind.pred_takes (p : Pr) : FieldKind.pred.Takes p.toNat := by
  simp only [FieldKind.Takes, FieldKind.highOk, FieldKind.baseOk, beq_iff_eq, decide_eq_true_eq]
  omega
@[simp] theorem FieldKind.cap_takes (n : Nat) (k : Kr) : (FieldKind.cap n).Takes k.toNat ↔ k.toNat ≤ n := by
  simp only [FieldKind.Takes, FieldKind.highOk, FieldKind.baseOk, beq_iff_eq, decide_eq_true_eq]
  omega
@[simp] theorem FieldKind.ob_takes (o : Ob) : FieldKind.ob.Takes o.toNat := by
  simp only [FieldKind.Takes, FieldKind.highOk, FieldKind.baseOk, beq_iff_eq, decide_eq_true_eq]
  omega
@[simp] theorem FieldKind.acc_takes (c : Acc) : FieldKind.acc.Takes c.toNat := by
  simp only [FieldKind.Takes, FieldKind.highOk, FieldKind.baseOk, beq_iff_eq, decide_eq_true_eq]
  omega
@[simp] theorem FieldKind.sel_takes (n : Nat) {w : Nat} (s : BitVec w) (narrow : w ≤ 4) :
    (FieldKind.sel n).Takes s.toNat ↔ s.toNat < n := by
  have : s.toNat < 2 ^ 4 := Nat.lt_of_lt_of_le s.isLt (Nat.pow_le_pow_right (by decide) narrow)
  simp only [FieldKind.Takes, FieldKind.highOk, FieldKind.baseOk, beq_iff_eq, decide_eq_true_eq]
  omega
@[simp] theorem FieldKind.imm_takes (x : Nat) : FieldKind.imm.Takes x ↔ x < 16 := by
  simp [FieldKind.Takes, FieldKind.highOk, FieldKind.baseOk]
@[simp] theorem FieldKind.member_takes (x : Nat) : FieldKind.member.Takes x ↔ x < 16 := by
  simp [FieldKind.Takes, FieldKind.highOk, FieldKind.baseOk]

theorem Kr.toNat_le (k : Kr) : k.toNat ≤ 15 := Nat.le_of_lt_succ k.isLt
theorem mod_sixteen_lt (x : Nat) : x % 16 < 16 := Nat.mod_lt x (by decide)

/-! Combinations of operands that one type alone does not name (R182, R212, R226, R242). -/

/-- The tiles that the terms admit are those that the decoder accepts. -/
theorem tileOk_of_tileFits {e : TElem} {s : BitVec 4} {t : BitVec 2} (fits : tileFits e s.toNat t.toNat = true) :
    tileOk e s.toNat t.toNat = true := by
  revert s t
  cases e <;> decide

theorem Cvt.satOk_floatFloat {a b : FTy} {n : Bool} (ok : (Cvt.floatFloat a b).satOk n = true) :
    n = false ∨ b.code = 4 ∨ b.code = 5 := by
  cases b <;> simp_all [Cvt.satOk, FTy.code]
theorem Cvt.satOk_floatInt {a : FTy} {b : ITy} {n : Bool} (ok : (Cvt.floatInt a b).satOk n = true) : n = false := by
  simpa [Cvt.satOk] using ok
theorem Cvt.satOk_intFloat {a : ITy} {b : FTy} {n : Bool} (ok : (Cvt.intFloat a b).satOk n = true) : n = false := by
  simpa [Cvt.satOk] using ok

theorem Width.eq_of_gather {w : Width} {b : Vr} (wf : (VIdx.gather b).wf w = true) : w = .w64 ∨ w = .w32 := by
  simpa [VIdx.wf] using wf

/-- The forms of `MEPI` that the terms admit are those that the decoder accepts (R242). -/
theorem mepi_row_of_wf {m : BitVec 3} {t : FTy} {r : Rnd} {n : Bool} {a : Vr} (wf : (Instr.mepi m t r n a).wf = true) :
    if m.toNat = 7 then (r.code = 0 ∧ n = false) ∧ t.code = 0
    else (m.toNat ≤ 4 ∧ r.code ≤ 4) ∧ (n = false ∨ 4 ≤ t.code) := by
  have seven : m = 7 ↔ m.toNat = 7 := by rw [← BitVec.toNat_inj]; rfl
  simp only [Instr.wf, seven] at wf
  split at wf
  · cases t <;> cases r <;> simp_all [Rnd.code, FTy.code]
  · cases t <;> cases r <;> simp_all [Rnd.code, FTy.code]

/-! The fields of an instruction; an operand of several forms is split into its forms. -/

/-- The fields of an instruction fit their bits, the immediate's prefixes apart. -/
theorem Instr.fields_lt {i : Instr} {f : Fields} (h : i.fields = some f) :
    f.page < 256 ∧ f.m ≤ 13 ∧ f.d < 64 ∧ f.a < 64 ∧ f.b < 64 ∧ f.qtop < 16 ∧ f.ty < 8 ∧ f.md < 8 := by
  cases i
  all_goals try first
    | cases ‹Idx› | cases ‹VIdx› | cases ‹FSrc› | cases ‹Target› | cases ‹RetTarget› | cases ‹Cvt› | cases ‹MFmt›
    | cases ‹ObAcc› | cases ‹Option Vr›
  all_goals cases h
  all_goals simp [ObAcc.code, ObAcc.flag, Fields.putImm, Fields.putImm8, Fields.putOff, Fields.putTarget,
    Fields.putRTarget, Fields.putFSrc, Fields.putCvt, Fields.putVIdx, Fields.putIdx, Fields.putMFmt, Fields.putRecv]
  all_goals omega

/-- The prefixes of a well-formed immediate hold all its bits. -/
theorem Instr.fields_hi_lt {i : Instr} {f : Fields} (h : i.fields = some f) (wf : i.wf = true) : f.hi < 4096 ^ f.ext := by
  cases i
  all_goals try first
    | cases ‹Idx› | cases ‹VIdx› | cases ‹FSrc› | cases ‹Target› | cases ‹RetTarget› | cases ‹Cvt› | cases ‹MFmt›
    | cases ‹ObAcc› | cases ‹Option Vr›
  all_goals cases h
  case li => exact Imm.hi_lt_of_eight wf
  all_goals simp only [Instr.wf, Idx.wf, FSrc.wf, Target.wf, Bool.and_eq_true] at wf
  all_goals simp [Imm.hi_lt, wf, Fields.putImm, Fields.putOff, Fields.putTarget, Fields.putRTarget, Fields.putFSrc,
    Fields.putCvt, Fields.putVIdx, Fields.putIdx, Fields.putMFmt, Fields.putRecv]

theorem Instr.fields_fit {i : Instr} {f : Fields} (h : i.fields = some f) (wf : i.wf = true) : f.Fit := by
  obtain ⟨page, m, d, a, b, qtop, ty, md⟩ := Instr.fields_lt h
  exact ⟨page, m, d, a, b, qtop, ty, md, Instr.fields_hi_lt h wf⟩

theorem Instr.fields_compact {i : Instr} {f : Fields} (h : i.fields = some f) : f.Compact := by
  cases i
  all_goals try first
    | cases ‹Idx› | cases ‹VIdx› | cases ‹FSrc› | cases ‹Target› | cases ‹RetTarget› | cases ‹Cvt› | cases ‹MFmt›
    | cases ‹ObAcc› | cases ‹Option Vr›
  all_goals cases h
  all_goals simp [Fields.Compact, Fields.qxBits, Fields.putImm, Fields.putImm8, Fields.putOff, Fields.putTarget,
    Fields.putRTarget, Fields.putFSrc, Fields.putCvt, Fields.putVIdx, Fields.putIdx, Fields.putMFmt, Fields.putRecv]

/-- The fields of a well-formed instruction of page 0 or 1 are of a row that admits them. -/
theorem Instr.fields_row_of_page_le {i : Instr} {f : Fields} (h : i.fields = some f) (wf : i.wf = true)
    (page : f.page ≤ 1) : ∃ r, rowOf f = some r ∧ r.Admits f := by
  cases i
  all_goals try first
    | cases ‹Idx› | cases ‹VIdx› | cases ‹FSrc› | cases ‹Target› | cases ‹RetTarget› | cases ‹Cvt› | cases ‹MFmt›
    | cases ‹ObAcc› | cases ‹Option Vr›
  all_goals cases h
  all_goals simp [Fields.putImm, Fields.putImm8, Fields.putOff, Fields.putTarget, Fields.putRTarget, Fields.putFSrc,
    Fields.putCvt, Fields.putVIdx, Fields.putIdx, Fields.putMFmt, Fields.putRecv] at page
  case br o =>
    have : o.toNat / 256 < 16 := by omega
    simp [rowOf, row0, Row.Admits, Fields.putOff, mod_sixteen_lt, this]
  all_goals simp [rowOf, row0, row1, Row.Admits, Kr.toNat_le, mod_sixteen_lt, Fields.q6, Fields.rc, Fields.putImm,
    Fields.putImm8]

/-- The same for pages 2 to 4. -/
theorem Instr.fields_row_of_page_mid {i : Instr} {f : Fields} (h : i.fields = some f) (wf : i.wf = true)
    (page : 1 < f.page ∧ f.page < 5) : ∃ r, rowOf f = some r ∧ r.Admits f := by
  cases i
  all_goals try first
    | cases ‹Idx› | cases ‹VIdx› | cases ‹FSrc› | cases ‹Target› | cases ‹RetTarget› | cases ‹Cvt› | cases ‹MFmt›
    | cases ‹ObAcc› | cases ‹Option Vr›
  all_goals cases h
  all_goals simp [Fields.putImm, Fields.putImm8, Fields.putOff, Fields.putTarget, Fields.putRTarget, Fields.putFSrc,
    Fields.putCvt, Fields.putVIdx, Fields.putIdx, Fields.putMFmt, Fields.putRecv] at page
  case vcvt.floatFloat r n d a t u =>
    have sat := Cvt.satOk_floatFloat (a := t) wf
    have kind : (FieldKind.sel 3).Takes 0 := ⟨rfl, rfl⟩
    simp [rowOf, row2, Row.Admits, Fields.putCvt, Fields.q6, Fields.rc, sat, kind]
  case vcvt.floatInt r n d a t u =>
    have sat := Cvt.satOk_floatInt (a := t) (b := u) wf
    have kind : (FieldKind.sel 3).Takes 1 := ⟨rfl, rfl⟩
    simp [rowOf, row2, Row.Admits, Fields.putCvt, Fields.q6, Fields.rc, sat, kind]
  case vcvt.intFloat r n d a t u =>
    have sat := Cvt.satOk_intFloat (a := t) (b := u) wf
    have kind : (FieldKind.sel 3).Takes 2 := ⟨rfl, rfl⟩
    simp [rowOf, row2, Row.Admits, Fields.putCvt, Fields.q6, Fields.rc, sat, kind]
  case vsmx c d a b =>
    simp only [Instr.wf, Bool.and_eq_true, decide_eq_true_eq, bne_iff_ne, ne_eq, ← BitVec.toNat_inj] at wf
    simp [rowOf, row2, Row.Admits, Fields.q6, Fields.rc, wf]
  case vld.gather w d k b | vst.gather w d k b =>
    obtain rfl | rfl := Width.eq_of_gather (b := b) wf
    all_goals simp [rowOf, row3, Row.Admits, Fields.putVIdx, Kr.toNat_le, Width.code]
  case mepi m t r n a => simpa [rowOf, row4, Row.Admits, Fields.q6, Fields.rc] using mepi_row_of_wf wf
  case capoff d k s =>
    have seven : s.toNat < 7 := Nat.lt_succ_of_le (of_decide_eq_true wf)
    simp [rowOf, row3, Row.Admits, Kr.toNat_le, seven]
  all_goals simp only [Instr.wf, Idx.wf, FSrc.wf, VIdx.wf, Bool.and_eq_true] at wf
  all_goals simp [rowOf, row2, row3, row4, Row.Admits, Kr.toNat_le, STy.code_mem, mod_sixteen_lt, transpose_lt,
    transpose_div, transpose_mod, tileOk_of_tileFits, Fields.q6, Fields.rc, ObAcc.code, ObAcc.flag, wf, Fields.putImm,
    Fields.putFSrc, Fields.putVIdx, Fields.putIdx, Fields.putMFmt]

/-- The same for pages 5 to 8. -/
theorem Instr.fields_row_of_le_page {i : Instr} {f : Fields} (h : i.fields = some f) (wf : i.wf = true)
    (page : 5 ≤ f.page) : ∃ r, rowOf f = some r ∧ r.Admits f := by
  cases i
  all_goals try first
    | cases ‹Idx› | cases ‹VIdx› | cases ‹FSrc› | cases ‹Target› | cases ‹RetTarget› | cases ‹Cvt› | cases ‹MFmt›
    | cases ‹ObAcc› | cases ‹Option Vr›
  all_goals cases h
  all_goals simp [Fields.putImm, Fields.putImm8, Fields.putOff, Fields.putTarget, Fields.putRTarget, Fields.putFSrc,
    Fields.putCvt, Fields.putVIdx, Fields.putIdx, Fields.putMFmt, Fields.putRecv] at page
  case csrr d i =>
    simp only [Instr.wf, Bool.and_eq_true] at wf
    simp [rowOf, row8, Row.Admits, Fields.immN, Nat.div_add_mod', csrNumberOk_of_csrWf wf.2, Fields.putImm,
      mod_sixteen_lt]
  case csrw a i | csrwCtxbase a i | csrwLogsize a i | csrwMirsize a i | csrwUrglim a i | csrwSeed a i | csrwWinbase a i |
      csrwRectdef a i =>
    have number : csrNumberOk i.val = true := csrNumberOk_of_wf (a := a) wf (by simp)
    simp [rowOf, row8, Row.Admits, Fields.immN, Nat.div_add_mod', number, Fields.putImm, mod_sixteen_lt]
  case logq d a s =>
    have ten : s.toNat < 10 := Nat.lt_succ_of_le (of_decide_eq_true wf)
    simp [rowOf, row5, Row.Admits, ten]
  case epoll d s =>
    have three : s.toNat < 3 := Nat.lt_succ_of_le (of_decide_eq_true wf)
    simp [rowOf, row6, Row.Admits, three]
  case cntrd d n => simp [rowOf, row8, Row.Admits, n.isLt]
  all_goals simp only [Instr.wf, Idx.wf, Target.wf, Scope.between, Bool.and_eq_true, decide_eq_true_eq] at wf
  all_goals simp [rowOf, row5, row6, row7, row8, Row.Admits, Kr.toNat_le, AmoTy.code_mem, mod_sixteen_lt, selector_le,
    selector_div, Fields.q6, Fields.rc, wf, Fields.putImm, Fields.putTarget, Fields.putRTarget, Fields.putIdx, Fields.putRecv]

theorem Instr.fields_row {i : Instr} {f : Fields} (h : i.fields = some f) (wf : i.wf = true) :
    ∃ r, rowOf f = some r ∧ r.Admits f := by
  rcases Nat.lt_or_ge 1 f.page with above | low
  · rcases Nat.lt_or_ge f.page 5 with mid | high
    · exact Instr.fields_row_of_page_mid h wf ⟨above, mid⟩
    · exact Instr.fields_row_of_le_page h wf high
  · exact Instr.fields_row_of_page_le h wf low

/-- The rows that a command's block tells apart from another row with the same words (R272, R286). -/
abbrev Instr.BlockRow (i : Instr) : Prop := ∃ sc a,
  i ∈ [Instr.cpyMulticast a, .cpyConvert a, .collReduceScatter sc a, .collAllGather sc a, .collXorParity sc a]

/-- The fields of an instruction name it. -/
theorem Instr.fields_named {i : Instr} {f : Fields} (h : i.fields = some f) (wf : i.wf = true) (alone : ¬ i.BlockRow) :
    ofFields f = some i := by
  cases i
  all_goals try first
    | cases ‹Idx› | cases ‹VIdx› | cases ‹FSrc› | cases ‹Target› | cases ‹RetTarget› | cases ‹Cvt› | cases ‹MFmt›
    | cases ‹ObAcc› | cases ‹Option Vr›
  all_goals cases h
  case cpyMulticast a | cpyConvert a => exact absurd ⟨.lane, a, by simp⟩ alone
  case collReduceScatter sc a | collAllGather sc a | collXorParity sc a => exact absurd ⟨sc, a, by simp⟩ alone
  case csrw a i | csrwCtxbase a i | csrwLogsize a i | csrwMirsize a i | csrwUrglim a i | csrwSeed a i | csrwWinbase a i |
      csrwRectdef a i =>
    rw [ofFields_csrw rfl rfl rfl, Fields.getImm_putImm]
    simp [Fields.putImm, csrwOf_of_wf wf]
  case br o => exact congrArg (fun o => some (Instr.br o)) (Fields.getOff_putOff _ o)
  case li d i =>
    have reg : BitVec.ofNat 6 d.toNat = d := by simp
    exact congrArg₂ (fun d i => some (Instr.li d i)) reg (Fields.getImm8_putImm8 _ i)
  all_goals simp [ofFields, ofFields0, ofFields1, ofFields2, ofFields3, ofFields4, ofFields5, ofFields6, ofFields7,
    ofFields8, Fields.getImm, Fields.immN, Fields.getTarget, Fields.getRTarget, Fields.getFSrc, Fields.getCvt,
    Fields.getVIdx, Fields.getIdx, Fields.getMFmt, ObAcc.code, ObAcc.flag, ObAcc.ofCode, Fields.getRecv, Fields.q6,
    Fields.rc, selector_div, transpose_div, ofNat_selector_add, ofNat_transpose_add, Nat.div_add_mod', Fields.putImm,
    Fields.putTarget, Fields.putRTarget, Fields.putFSrc, Fields.putCvt, Fields.putVIdx, Fields.putIdx, Fields.putMFmt,
    Fields.putRecv]

/-- The fields of a well-formed instruction spell it, under every guard. -/
theorem Instr.fields_spell {i : Instr} {f : Fields} (h : i.fields = some f) (wf : i.wf = true) (alone : ¬ i.BlockRow)
    (gd : Guard) : { f with gd := gd }.Spell i := by
  obtain ⟨page, m, d, a, b, qtop, ty, md, hi⟩ := Instr.fields_fit h wf
  obtain ⟨r, row, admits⟩ := Instr.fields_row h wf
  have compact := Instr.fields_compact h
  have named := Instr.fields_named h wf alone
  exact ⟨⟨page, m, d, a, b, qtop, ty, md, hi⟩, compact, ⟨r, row, admits⟩, named⟩

/-- Settles O57: the decoder gathers the prefixes of an encoding into a chain whose fields are the instruction's own; they
pass the checks of their row and name the instruction. -/
theorem encodeDecode : Obligations.EncodeDecode := by
  refine ⟨fun gd i wf fits some_ alone => ?_, fun gd sc a => ⟨rfl, rfl, fun i mem => ?_⟩⟩
  · obtain ⟨f, h⟩ := Option.ne_none_iff_exists'.mp some_
    have words : encode gd i = { f with gd := gd }.words := by rw [encode, h]; rfl
    have spell := Instr.fields_spell h wf (fun ⟨sc, a, mem⟩ => alone sc a mem) gd
    have few : { f with gd := gd }.words.length ≤ 5 := words ▸ of_decide_eq_true fits
    refine ⟨_, _, words ▸ spell.decode_words few, ?_, ?_⟩
    · rw [words, Fields.words_eq]
      simp only [List.getLast?_append, List.getLast?_singleton, Option.some_or]
    · rw [words, Fields.chain_n]
  · fin_cases mem <;> rfl

end Sys2Proof
end

section
/-!
SUPPORT. Products, quotients and remainders of numbers of a width, read as bit vectors (R80, R149).
-/
namespace Sys2Proof.Machine

theorem ofNat_two_pow_sub_one (n : Nat) : BitVec.ofNat n (2 ^ n - 1) = BitVec.allOnes n := by
  apply BitVec.eq_of_toNat_eq
  rw [BitVec.toNat_ofNat, BitVec.toNat_allOnes, Nat.mod_eq_of_lt (Nat.sub_lt (Nat.two_pow_pos n) Nat.one_pos)]

theorem toNat_eq_zero_iff {n : Nat} (y : BitVec n) : y.toNat = 0 ↔ y = 0 := by rw [← BitVec.toNat_inj]; rfl

section
variable {n : Nat} (x y : BitVec n)

theorem ofNat_mul_toNat : BitVec.ofNat n (x.toNat * y.toNat) = x * y := by
  rw [BitVec.ofNat_mul, BitVec.ofNat_toNat, BitVec.ofNat_toNat, BitVec.setWidth_eq, BitVec.setWidth_eq]

theorem ofNat_divS (pos : 0 < n) :
    BitVec.ofNat n (divS n x.toNat y.toNat) = if y = 0 then BitVec.allOnes n else x.sdiv y := by
  simp only [divS, toNat_eq_zero_iff, apply_ite (BitVec.ofNat n), ofNat_toBits, sv_toNat pos, ofNat_two_pow_sub_one]
  congr 1
  apply BitVec.eq_of_toInt_eq
  rw [BitVec.toInt_ofInt, BitVec.toInt_sdiv]

theorem ofNat_remS (pos : 0 < n) : BitVec.ofNat n (remS n x.toNat y.toNat) = if y = 0 then x else x.srem y := by
  simp only [remS, toNat_eq_zero_iff, apply_ite (BitVec.ofNat n), ofNat_toBits, sv_toNat pos, BitVec.ofNat_toNat, BitVec.setWidth_eq]
  congr 1
  rw [← BitVec.toInt_srem, BitVec.ofInt_toInt]

theorem ofNat_divU : BitVec.ofNat n (divU n x.toNat y.toNat) = if y = 0 then BitVec.allOnes n else x / y := by
  simp only [divU, toNat_eq_zero_iff, apply_ite (BitVec.ofNat n), ofNat_two_pow_sub_one, BitVec.udiv_def]

theorem ofNat_remU : BitVec.ofNat n (remU n x.toNat y.toNat) = if y = 0 then x else x % y := by
  simp only [remU, toNat_eq_zero_iff, apply_ite (BitVec.ofNat n), BitVec.ofNat_toNat, BitVec.setWidth_eq, BitVec.umod_def]

theorem ofNat_mulh (pos : 0 < n) : BitVec.ofNat n (toBits n (sv n x.toNat * sv n y.toNat / 2 ^ n)) =
    BitVec.ofInt n (x.toInt * y.toInt / 2 ^ n) := by
  rw [ofNat_toBits, sv_toNat pos, sv_toNat pos]

end

/-- Settles O3: each meaning is its shape of instruction with the operation on bit vectors that agrees with its arithmetic. -/
theorem scalarMultiplyDivide : Obligations.ScalarMultiplyDivide := by
  intro s w d a b
  have pos := Machine.Width.bits_pos w
  have mulh := s.bin_signed w d a b (f := fun x y => toBits w.bits (sv w.bits x * sv w.bits y / 2 ^ w.bits))
    (g := fun x y => BitVec.ofInt w.bits (x.toInt * y.toInt / 2 ^ w.bits)) fun x y => ofNat_mulh x y pos
  have mulhn := s.bin_natural w d a b (f := fun x y => x * y / 2 ^ w.bits)
    (g := fun x y => BitVec.ofNat w.bits (x.toNat * y.toNat / 2 ^ w.bits)) fun _ _ => rfl
  have div := s.division_signed w d a b (f := divS w.bits)
    (g := fun x y => if y = 0 then BitVec.allOnes w.bits else x.sdiv y) fun x y => ofNat_divS x y pos
  have divn := s.division_natural w d a b (f := divU w.bits)
    (g := fun x y => if y = 0 then BitVec.allOnes w.bits else x / y) ofNat_divU
  have rem := s.division_signed w d a b (f := remS w.bits)
    (g := fun x y => if y = 0 then x else x.srem y) fun x y => ofNat_remS x y pos
  have remn := s.division_natural w d a b (f := remU w.bits)
    (g := fun x y => if y = 0 then x else x % y) ofNat_remU
  exact ⟨(exec_mul s w d a b).trans (s.bin_signed w d a b (g := fun x y => x * y) ofNat_mul_toNat),
    (exec_mulh s w d a b).trans mulh, (exec_mulhn s w d a b).trans mulhn, (exec_div s w d a b).trans div,
    (exec_divn s w d a b).trans divn, (exec_rem s w d a b).trans rem, (exec_remn s w d a b).trans remn⟩

end Sys2Proof.Machine
end

section
/-!
SUPPORT. The tree of an integer reduction and the prefixes of a scan, read as bit vectors (R97, R176, R177).
-/
namespace Sys2Proof.Machine
open Sys2Proof.Spec

/-! The tree of adjacent pairs. -/

/-- The lowest level of the tree may be formed first. -/
theorem pairTree_succ {α : Type} (op : α → α → α) (x : Nat → α) (n i : Nat) :
    pairTree op x (n + 1) i = pairTree op (fun j => op (x (2 * j)) (x (2 * j + 1))) n i := by
  induction n generalizing i with
  | zero => rfl
  | succ n ih => rw [pairTree, ih, ih]; rfl

theorem pairTree_hom {α β : Type} (φ : α → β) {op : α → α → α} {op' : β → β → β}
    (h : ∀ u v, op' (φ u) (φ v) = φ (op u v)) (x : Nat → α) (n i : Nat) :
    pairTree op' (fun j => φ (x j)) n i = φ (pairTree op x n i) := by
  induction n generalizing i with
  | zero => rfl
  | succ n ih => rw [pairTree, ih, ih, h]; rfl

/-- Two more leaves come before the leaves of a list that starts later. -/
theorem map_range_two_mul_succ {α : Type} (x : Nat → α) (m : Nat) :
    (List.range (2 * (m + 1))).map x = x 0 :: x 1 :: (List.range (2 * m)).map fun i => x (i + 2) := by
  simp [Nat.mul_succ, List.range_succ_eq_map, Function.comp_def]

theorem treeLevel_map_range (f : Nat → Nat → Nat) (x : Nat → Nat) (m : Nat) :
    treeLevel f ((List.range (2 * m)).map x) = (List.range m).map fun i => f (x (2 * i)) (x (2 * i + 1)) := by
  induction m generalizing x with
  | zero => rfl
  | succ m ih =>
    rw [map_range_two_mul_succ, treeLevel, ih, List.range_succ_eq_map]
    simp [Function.comp_def, Nat.mul_succ]

theorem tree_singleton (f : Nat → Nat → Nat) (x n : Nat) : tree f [x] n = x := by
  induction n with
  | zero => rfl
  | succ n ih => exact ih

theorem tree_map_range (f : Nat → Nat → Nat) (x : Nat → Nat) (n k : Nat) :
    tree f ((List.range (2 ^ n)).map x) (n + k) = pairTree f x n 0 := by
  induction n generalizing x with
  | zero => simpa [pairTree] using tree_singleton f (x 0) k
  | succ n ih => rw [Nat.succ_add, tree, Nat.pow_succ', treeLevel_map_range, ih, pairTree_succ]

/-! The elements of a register as a list over their places. -/

theorem elems_eq (w : Nat) (v : Vec) : elems w v = (List.range (elemCount w)).map fun i => (elt w v i).toNat := by
  apply List.ext_getElem?
  intro i
  by_cases h : i < elemCount w
  · rw [elems_getElem? w v h, List.getElem?_map, List.getElem?_range h, Option.map_some]
  · rw [List.getElem?_eq_none (by simpa using h), List.getElem?_eq_none (by simpa using h)]

theorem elemCount_eq_two_pow (w : Width) : elemCount w.bits = 2 ^ Nat.log2 (8192 / w.bits) := by cases w <;> rfl
theorem log2_elemCount_le (w : Width) : Nat.log2 (8192 / w.bits) ≤ 10 := by cases w <;> decide

theorem withIdentity_eq {w : Nat} (hw : ElemWidth w) (g : Pred) (v : Vec) (ident : Nat) :
    withIdentity (activeList w g) (elems w v) ident = (List.range (elemCount w)).map fun i =>
      if g.getLsbD (i * w / 32) then (elt w v i).toNat else ident := by
  rw [withIdentity, activeList_eq hw, elems_eq, List.zipWith_map, List.zipWith_self]

/-- An integer reduction by an operation on bit vectors is the tree of R97. -/
theorem State.vred_eq (s : State) (w : Width) (n : Bool) (d : Gpr) (a : Vr) (ident : BitVec w.bits)
    {f : Nat → Nat → Nat} {op : BitVec w.bits → BitVec w.bits → BitVec w.bits}
    (h : ∀ u v : BitVec w.bits, f u.toNat v.toNat = (op u v).toNat) :
    s.vred w n d a ident.toNat f = vecWord s d (widen w n (pairTree op
      (fun i => if active s w.bits i then elt w.bits (s.vec a) i else ident) (Nat.log2 (8192 / w.bits)) 0).toNat)
      .none := by
  obtain ⟨k, hk⟩ := Nat.exists_eq_add_of_le (log2_elemCount_le w)
  rw [State.vred, withIdentity_eq (Machine.Width.elemWidth w), elemCount_eq_two_pow, hk, tree_map_range,
    ← pairTree_hom BitVec.toNat h]
  simp only [apply_ite BitVec.toNat]

theorem State.vred_signed (s : State) (w : Width) (d : Gpr) (a : Vr) {i : Nat} {ident : BitVec w.bits}
    (hi : ident.toNat = i) {f : Nat → Nat → Nat} {op : BitVec w.bits → BitVec w.bits → BitVec w.bits}
    (h : ∀ u v : BitVec w.bits, f u.toNat v.toNat = (op u v).toNat) :
    s.vred w false d a i f = vecWord s d ((pairTree op
      (fun i => if active s w.bits i then elt w.bits (s.vec a) i else ident) (Nat.log2 (8192 / w.bits))
        0).signExtend 64) .none := by
  rw [← hi, s.vred_eq w false d a ident h, widen_signed, BitVec.ofNat_toNat, BitVec.setWidth_eq]
theorem State.vred_natural (s : State) (w : Width) (d : Gpr) (a : Vr) {i : Nat} {ident : BitVec w.bits}
    (hi : ident.toNat = i) {f : Nat → Nat → Nat} {op : BitVec w.bits → BitVec w.bits → BitVec w.bits}
    (h : ∀ u v : BitVec w.bits, f u.toNat v.toNat = (op u v).toNat) :
    s.vred w true d a i f = vecWord s d ((pairTree op
      (fun i => if active s w.bits i then elt w.bits (s.vec a) i else ident) (Nat.log2 (8192 / w.bits)) 0).setWidth 64)
      .none := by
  rw [← hi, s.vred_eq w true d a ident h, widen_natural, BitVec.ofNat_toNat, BitVec.setWidth_eq]

/-! The order of values. -/

theorem leN_toNat {k : Nat} (hk : 0 < k) (n : Bool) (u v : BitVec k) :
    leN k n u.toNat v.toNat = if n then u.ule v else u.sle v := by
  cases n
  · rw [if_neg Bool.false_ne_true, BitVec.sle_eq_decide, ← sv_toNat hk, ← sv_toNat hk]; rfl
  · rfl
theorem minN_toNat {k : Nat} (hk : 0 < k) (n : Bool) (u v : BitVec k) :
    minN k n u.toNat v.toNat = (if (if n then u.ule v else u.sle v) then u else v).toNat := by
  rw [minN, leN_toNat hk, apply_ite BitVec.toNat]
theorem maxN_toNat {k : Nat} (hk : 0 < k) (n : Bool) (u v : BitVec k) :
    maxN k n u.toNat v.toNat = (if (if n then v.ule u else v.sle u) then u else v).toNat := by
  rw [maxN, leN_toNat hk, apply_ite BitVec.toNat]

theorem leN_trans {k : Nat} {n : Bool} {x y z : Nat} (h : leN k n x y = true) (h' : leN k n y z = true) :
    leN k n x z = true := by
  cases n <;> simp only [leN, decide_eq_true_eq, if_true, if_false, Bool.false_eq_true] at * <;> omega
theorem leN_total (k : Nat) (n : Bool) (x y : Nat) : leN k n x y = true ∨ leN k n y x = true := by
  cases n <;> simp only [leN, decide_eq_true_eq, if_true, if_false, Bool.false_eq_true] <;> omega

theorem maxN_of_le {k : Nat} {n : Bool} {x y : Nat} (h : leN k n y x = true) : maxN k n x y = x := if_pos h
theorem maxN_of_not_le {k : Nat} {n : Bool} {x y : Nat} (h : ¬leN k n y x = true) : maxN k n x y = y := if_neg h

/-- The greater of three values does not depend on the order in which they are compared. -/
theorem maxN_assoc (k : Nat) (n : Bool) (x y z : Nat) : maxN k n (maxN k n x y) z = maxN k n x (maxN k n y z) := by
  by_cases hxy : leN k n y x = true <;> by_cases hyz : leN k n z y = true
  · rw [maxN_of_le hxy, maxN_of_le hyz, maxN_of_le hxy, maxN_of_le (leN_trans hyz hxy)]
  · rw [maxN_of_le hxy, maxN_of_not_le hyz]
  · rw [maxN_of_not_le hxy, maxN_of_le hyz, maxN_of_not_le hxy]
  · have hxz : ¬leN k n z x = true := fun h => hxy (leN_trans ((leN_total k n y z).resolve_right hyz) h)
    rw [maxN_of_not_le hxy, maxN_of_not_le hyz, maxN_of_not_le hxz]

theorem intMin_toNat (w : Width) : (BitVec.intMin w.bits).toNat = 2 ^ (w.bits - 1) := by cases w <;> rfl
theorem intMax_toNat (w : Width) : (BitVec.intMax w.bits).toNat = 2 ^ (w.bits - 1) - 1 := by cases w <;> rfl

/-! Scans. -/

/-- At an active place a scan by an associative operation combines the active elements so far. -/
theorem scanFrom_getElem? {f : Nat → Nat → Nat} (assoc : ∀ x y z, f (f x y) z = f x (f y z)) (b : Nat → Bool)
    (x : Nat → Nat) (acc : Option Nat) (l : List Nat) {i j : Nat} (hj : l[i]? = some j) (hb : b j = true) :
    (scanFrom f acc (l.map b) (l.map x))[i]? = some ((acc.toList ++ ((l.take i).filter b).map x).foldr f (x j)) := by
  induction i generalizing acc l with
  | zero =>
    obtain ⟨k, l, rfl⟩ := List.exists_cons_of_ne_nil (l := l) (by rintro rfl; cases hj)
    obtain rfl : k = j := by simpa using hj
    cases acc <;> simp [scanFrom, hb]
  | succ i ih =>
    obtain ⟨k, l, rfl⟩ := List.exists_cons_of_ne_nil (l := l) (by rintro rfl; cases hj)
    simp only [List.map_cons, scanFrom, List.getElem?_cons_succ]
    rw [ih _ l (by simpa using hj)]
    cases hk : b k <;> cases acc <;> simp [hk, assoc]

theorem scanFrom_length (f : Nat → Nat → Nat) (acc : Option Nat) (bs : List Bool) (xs : List Nat) (n : Nat)
    (hb : bs.length = n) (hx : xs.length = n) : (scanFrom f acc bs xs).length = n := by
  induction n generalizing acc bs xs with
  | zero => cases bs <;> cases xs <;> simp_all [scanFrom]
  | succ n ih => cases bs <;> cases xs <;> simp_all [scanFrom]

/-- A scan of the elements of a register, by an operation on bit vectors. -/
theorem scanFrom_elem (s : State) (w : Width) (v : Vec) {f : Nat → Nat → Nat}
    {op : BitVec w.bits → BitVec w.bits → BitVec w.bits} (assoc : ∀ x y z, f (f x y) z = f x (f y z))
    (h : ∀ x y : BitVec w.bits, f x.toNat y.toNat = (op x y).toNat) {i : Nat} (hi : i < elemCount w.bits)
    (act : active s w.bits i = true) :
    (scanFrom f none (activeList w.bits s.guardMask) (elems w.bits v)).getD i 0 =
      ((((List.range i).filter fun j => active s w.bits j).map (elt w.bits v)).foldr op (elt w.bits v i)).toNat := by
  rw [activeList_eq (Machine.Width.elemWidth w), elems_eq, List.getD_eq_getElem?_getD,
    scanFrom_getElem? assoc _ _ none _ (List.getElem?_range hi) act, Option.getD_some,
    List.take_range, Nat.min_eq_left hi.le]
  simp only [Option.toList_none, List.nil_append, List.foldr_map]
  exact List.foldr_hom BitVec.toNat fun x y => h _ _

/-- A list of source elements written where active. -/
theorem State.vimage_elements (s : State) (w : Width) (d : Vr) (src : List Nat) (hn : src.length = elemCount w.bits) :
    ∃ x lanes, s.vimage w d src = .next (s.vecResult d x lanes .none) ∧ CoversActive s w.bits lanes ∧
      ∀ i, i < elemCount w.bits → elt w.bits x i =
        if active s w.bits i then BitVec.ofNat w.bits (src.getD i 0) else elt w.bits (s.vec d) i := by
  obtain ⟨x, hx, he⟩ := s.eltwise_elem (Machine.Width.elemWidth w) d src src hn hn fun x _ _ => (x, .none)
  refine ⟨x, _, ?_, fun j hj => activeLanes_getLsbD s.guardMask hj, he⟩
  rw [State.vimage, hx, zip3_eq src src _ hn hn (elems_length _ _), sumFl_none]
  simp

theorem State.vscan_elements (s : State) (w : Width) (d a : Vr) {f : Nat → Nat → Nat}
    {op : BitVec w.bits → BitVec w.bits → BitVec w.bits} (assoc : ∀ x y z, f (f x y) z = f x (f y z))
    (h : ∀ x y : BitVec w.bits, f x.toNat y.toNat = (op x y).toNat) :
    ∃ x lanes, s.vscan w d a f = .next (s.vecResult d x lanes .none) ∧ CoversActive s w.bits lanes ∧
      ∀ i, i < elemCount w.bits → elt w.bits x i = if active s w.bits i then
        (((List.range i).filter fun j => active s w.bits j).map (elt w.bits (s.vec a))).foldr op
          (elt w.bits (s.vec a) i)
      else elt w.bits (s.vec d) i := by
  have hn := scanFrom_length f none (activeList w.bits s.guardMask) (elems w.bits (s.vec a)) _
    (activeList_length (Machine.Width.elemWidth w) _) (elems_length _ _)
  obtain ⟨x, lanes, hx, hl, he⟩ := s.vimage_elements w d _ hn
  refine ⟨x, lanes, hx, hl, fun i hi => (he i hi).trans (if_ctx_congr Iff.rfl (fun act => ?_) fun _ => rfl)⟩
  rw [scanFrom_elem s w _ assoc h hi act, BitVec.ofNat_toNat, BitVec.setWidth_eq]

/-- Settles O7: the lists of the model run over the places of a register, where the tree is that of R97 and, the
operations of the scans being associative, a running value is the combination of the active elements. -/
theorem vectorReductionsScans : Obligations.VectorReductionsScans := by
  intro s w n g d a
  have pos := Machine.Width.bits_pos w
  have add (u v : BitVec w.bits) : (u.toNat + v.toNat) % 2 ^ w.bits = (u + v).toNat := (BitVec.toNat_add u v).symm
  have scanMax := s.vscan_elements w d a (maxN_assoc w.bits n) (maxN_toNat pos n)
  refine ⟨s.vred_signed w g a (ident := 0) rfl add, ?_, ?_, ?_,
    s.vred_signed w g a (ident := 0) rfl fun u v => (BitVec.toNat_or u v).symm,
    s.vscan_elements w d a (fun x y z => by simp [Nat.add_assoc]) add, scanMax⟩
  · cases n
    · exact s.vred_signed w g a (intMax_toNat w) (minN_toNat pos false)
    · exact s.vred_natural w g a BitVec.toNat_allOnes (minN_toNat pos true)
  · cases n
    · exact s.vred_signed w g a (intMin_toNat w) (maxN_toNat pos false)
    · exact s.vred_natural w g a (ident := 0) rfl (maxN_toNat pos true)
  · exact s.vred_signed w g a BitVec.toNat_allOnes fun u v => (BitVec.toNat_and u v).symm

end Sys2Proof.Machine
end

section
/-!
SUPPORT. The tree of a float reduction with its draws, and the lanes of the softmax step (R90, R97, R176, R185).
-/
namespace Sys2Proof.Machine
open Sys2Proof.Spec

/-! The draws of an instruction. -/

theorem seedAfter_nextSeed (x : Word) (n : Nat) : seedAfter (nextSeed x) n = seedAfter x (n + 1) := by
  induction n with
  | zero => rfl
  | succ n ih => rw [seedAfter, ih]; rfl

theorem draws_seed (x : Word) (n : Nat) : (draws x n).2 = seedAfter x n := by
  induction n generalizing x with
  | zero => rfl
  | succ n ih => rw [draws, ih, seedAfter_nextSeed]

theorem drawOf_eq (x : Word) : drawOf x = x.toNat / 2 ^ 32 := by
  rw [drawOf, BitVec.toNat_ushiftRight, Nat.shiftRight_eq_div_pow]

theorem draws_getD (x : Word) {n i : Nat} (h : i < n) :
    (draws x n).1.getD i 0 = (seedAfter x (i + 1)).toNat / 2 ^ 32 := by
  induction n generalizing x i with
  | zero => omega
  | succ n ih =>
    cases i with
    | zero => exact drawOf_eq _
    | succ i => rw [draws, List.getD_cons_succ, ih _ (by omega), seedAfter_nextSeed]

theorem State.drawFor_mode (s : State) (r : Rnd) {n i : Nat} (h : i < n) :
    (⟨r, (s.drawFor r n).1.getD i 0⟩ : RMode) = modeOf s r i := by
  unfold State.drawFor modeOf
  split
  · rw [draws_getD _ h]
  · rw [List.getD_replicate _ h]

theorem State.drawFor_drawn (s : State) (r : Rnd) (n : Nat) : s.setSeed (s.drawFor r n).2 = drawn s r n := by
  unfold State.drawFor drawn
  split
  · rw [draws_seed]
  · rfl

/-! The tree with its levels and places. -/

theorem levelTree_succ {α : Type} (op : Nat → Nat → α → α → α) (x : Nat → α) (n i : Nat) :
    levelTree op x (n + 1) i =
      levelTree (fun l => op (l + 1)) (fun j => op 0 j (x (2 * j)) (x (2 * j + 1))) n i := by
  induction n generalizing i with
  | zero => rfl
  | succ n ih => rw [levelTree, ih, ih]; rfl

/-- A tree depends on the steps at the places below its root only. -/
theorem levelTree_congr {α : Type} {op op' : Nat → Nat → α → α → α} (x : Nat → α) (n j : Nat)
    (h : ∀ l i, l < n → (i + 1) * 2 ^ (l + 1) ≤ (j + 1) * 2 ^ n → op l i = op' l i) :
    levelTree op x n j = levelTree op' x n j := by
  induction n generalizing j with
  | zero => rfl
  | succ n ih =>
    have below (j' : Nat) (hj : j' + 1 ≤ 2 * (j + 1)) : levelTree op x n j' = levelTree op' x n j' := by
      refine ih j' fun l i hl hi => h l i (by omega) (hi.trans ?_)
      rw [Nat.pow_succ', ← Nat.mul_assoc, Nat.mul_comm (j + 1)]
      exact Nat.mul_le_mul_right _ hj
    rw [levelTree, levelTree, below _ (by omega), below _ (by omega), h n j n.lt_succ_self le_rfl]

theorem ftreeLevel_map_range (op : Nat → Nat → Nat → Nat × Fl) (x : Nat → Nat) (ds : List Nat) (m : Nat) :
    (ftreeLevel op ((List.range (2 * m)).map x) ds).1 =
        (List.range m).map (fun i => (op (ds.getD i 0) (x (2 * i)) (x (2 * i + 1))).1) ∧
      (ftreeLevel op ((List.range (2 * m)).map x) ds).2.1 = ds.drop m := by
  induction m generalizing x ds with
  | zero => exact ⟨rfl, rfl⟩
  | succ m ih =>
    obtain ⟨h1, h2⟩ := ih (fun i => x (i + 2)) (ds.drop 1)
    rw [map_range_two_mul_succ, ftreeLevel, h1, h2, List.range_succ_eq_map]
    cases ds <;> simp [Function.comp_def, Nat.mul_succ]

theorem ftree_singleton (op : Nat → Nat → Nat → Nat × Fl) (x : Nat) (ds : List Nat) (fl : Fl) (n : Nat) :
    (ftree op [x] ds fl n).1 = x := by
  induction n generalizing fl with
  | zero => rfl
  | succ n ih => exact ih _

/-- Step i of level l takes the draw after those of the levels below it (R97). -/
theorem ftree_map_range (op : Nat → Nat → Nat → Nat × Fl) (x : Nat → Nat) (ds : List Nat) (fl : Fl) (n k : Nat) :
    (ftree op ((List.range (2 ^ n)).map x) ds fl (n + k)).1 =
      levelTree (fun l i u v => (op (ds.getD (2 ^ n - 2 ^ n / 2 ^ l + i) 0) u v).1) x n 0 := by
  induction n generalizing x ds fl with
  | zero => simpa [levelTree] using ftree_singleton op (x 0) ds fl k
  | succ n ih =>
    obtain ⟨h1, h2⟩ := ftreeLevel_map_range op x ds (2 ^ n)
    have place (l i : Nat) : 2 ^ n + (2 ^ n - 2 ^ n / 2 ^ l + i) = 2 ^ (n + 1) - 2 ^ (n + 1) / 2 ^ (l + 1) + i := by
      have := Nat.div_le_self (2 ^ n) (2 ^ l)
      rw [Nat.pow_succ, Nat.pow_succ, Nat.mul_div_mul_right _ _ Nat.two_pos]
      omega
    rw [Nat.succ_add, ftree, Nat.pow_succ', h1, h2, ih, levelTree_succ, ← Nat.pow_succ']
    simp [place]

/-- The tree of an instruction of 2ⁿ - 1 results takes the mode of R90 at every step. -/
theorem ftree_modeOf (s : State) (r : Rnd) (step : RMode → Nat → Nat → Nat × Fl) (x : Nat → Nat) (fl : Fl) (n k : Nat) :
    (ftree (fun m => step ⟨r, m⟩) ((List.range (2 ^ n)).map x) (s.drawFor r (2 ^ n - 1)).1 fl (n + k)).1 =
      levelTree (fun l i u v => (step (modeOf s r (2 ^ n - 2 ^ n / 2 ^ l + i)) u v).1) x n 0 := by
  rw [ftree_map_range]
  refine levelTree_congr x n 0 fun l i _ hi => ?_
  have below : (i + 1) * 2 ≤ 2 ^ n / 2 ^ l := by
    rw [Nat.le_div_iff_mul_le (Nat.two_pow_pos l), Nat.mul_assoc, ← Nat.pow_succ']
    simpa using hi
  have := Nat.div_le_self (2 ^ n) (2 ^ l)
  rw [s.drawFor_mode r (by omega)]

/-! Float reductions. -/

theorem elemWidth_vty (t : VTy) : ElemWidth (vtyFmt t).width := by
  cases t <;> simp [ElemWidth, vtyFmt, fmtF32, fmtF64, fmtF16, fmtBf16]
theorem elemCount_vty (t : VTy) : 8192 / (vtyFmt t).width = 2 ^ Nat.log2 (8192 / (vtyFmt t).width) := by
  cases t <;> rfl
theorem log2_elemCount_vty_le (t : VTy) : Nat.log2 (8192 / (vtyFmt t).width) ≤ 10 := by cases t <;> decide

theorem State.fred_eq (s : State) (t : VTy) (r : Rnd) (d : Gpr) (a : Vr) (ident : Nat)
    (op : RMode → Fv → Fv → Fv × Fl) :
    let f := vtyFmt t
    let e := 8192 / f.width
    ∃ fl, s.fred t r d a ident op = .next ((drawn s r (e - 1)).vecToGpr d (BitVec.ofNat 64
      (levelTree (fun n i x y => (f.finish (modeOf s r (e - e / 2 ^ n + i))
          (op (modeOf s r (e - e / 2 ^ n + i)) (f.value x) (f.value y))).1)
        (fun i => if active s f.width i then (elt f.width (s.vec a) i).toNat else ident) (Nat.log2 e) 0)) fl) := by
  intro f e
  obtain ⟨k, hk⟩ := Nat.exists_eq_add_of_le (log2_elemCount_vty_le t)
  have he : e = 2 ^ Nat.log2 e := elemCount_vty t
  have tree := ftree_modeOf s r (fun md x y => f.finish md (op md (f.value x) (f.value y)))
    (fun i => if active s f.width i then (elt f.width (s.vec a) i).toNat else ident) .none (Nat.log2 e) k
  rw [← he, ← hk] at tree
  rw [State.fred, State.drawFor_drawn, withIdentity_eq (elemWidth_vty t), ← tree]
  exact ⟨_, rfl⟩

/-! Elements of a register held as a number. -/

theorem elemAt_toNat (v : Vec) (i : Nat) : elemAt 32 v.toNat i = (elt 32 v i).toNat := by
  rw [BitVec.extractLsb'_toNat, Nat.shiftRight_eq_div_pow, Nat.mul_comm i]; rfl

theorem elt_ofNat (x : Nat) {i : Nat} (h : i < 256) :
    elt 32 (BitVec.ofNat 8192 x) i = BitVec.ofNat 32 (elemAt 32 x i) := by
  apply BitVec.eq_of_toNat_eq
  rw [BitVec.extractLsb'_toNat, BitVec.toNat_ofNat, BitVec.toNat_ofNat, Nat.shiftRight_eq_div_pow, elemAt, Nat.mod_mod,
    Nat.mul_comm i]
  obtain ⟨k, hk⟩ := Nat.exists_eq_add_of_le (show 32 * i + 32 ≤ 8192 by omega)
  rw [hk, Nat.pow_add, Nat.pow_add, Nat.mul_assoc, Nat.mod_mul_right_div_self, Nat.mod_mul_right_mod]

theorem elemAt_setElem_same (w x i e : Nat) : elemAt w (setElem w x i e) i = e % 2 ^ w := by
  have pos := Nat.two_pow_pos (w * i)
  have split : setElem w x i e =
      x % 2 ^ (w * i) + 2 ^ (w * i) * (e % 2 ^ w + 2 ^ w * (x / 2 ^ (w * (i + 1)))) := by
    rw [setElem, Nat.mul_succ, Nat.pow_add]; ring
  rw [elemAt, split, Nat.add_mul_div_left _ _ pos, Nat.div_eq_of_lt (Nat.mod_lt _ pos), Nat.zero_add,
    Nat.add_mul_mod_self_left, Nat.mod_mod]

theorem elemAt_setElem_below (w x e : Nat) {i j : Nat} (h : j < i) : elemAt w (setElem w x i e) j = elemAt w x j := by
  have pos := Nat.two_pow_pos (w * j)
  obtain ⟨k, rfl⟩ := Nat.exists_eq_add_of_lt h
  have split : setElem w x (j + k + 1) e = x % 2 ^ (w * (j + k + 1)) + 2 ^ (w * j) *
      (2 ^ w * (2 ^ (w * k) * (e % 2 ^ w + 2 ^ w * (x / 2 ^ (w * (j + k + 1 + 1)))))) := by
    rw [setElem, Nat.mul_succ w (j + k + 1), Nat.pow_add, show w * (j + k + 1) = w * j + (w + w * k) by ring,
      Nat.pow_add, Nat.pow_add]
    ring
  rw [elemAt, split, Nat.add_mul_div_left _ _ pos, Nat.add_mul_mod_self_left,
    show w * (j + k + 1) = w * j + (w + w * k) by ring, Nat.pow_add, Nat.mod_mul_right_div_self, Nat.pow_add,
    Nat.mod_mul_right_mod, elemAt]

theorem elemAt_setElem_above (w x e : Nat) {i j : Nat} (h : i < j) : elemAt w (setElem w x i e) j = elemAt w x j := by
  obtain ⟨k, rfl⟩ := Nat.exists_eq_add_of_lt h
  have lower : e % 2 ^ w * 2 ^ (w * i) + x % 2 ^ (w * i) < 2 ^ (w * (i + 1)) := by
    have he := Nat.mul_le_mul_right (2 ^ (w * i)) (Nat.mod_lt e (Nat.two_pow_pos w))
    have hx := Nat.mod_lt x (Nat.two_pow_pos (w * i))
    rw [Nat.mul_succ, Nat.pow_add]
    linarith
  rw [elemAt, elemAt, setElem, Nat.add_assoc, show w * (i + k + 1) = w * (i + 1) + w * k by ring, Nat.pow_add,
    ← Nat.div_div_eq_div_mul, ← Nat.div_div_eq_div_mul, Nat.add_comm, Nat.add_mul_div_right _ _ (Nat.two_pow_pos _),
    Nat.div_eq_of_lt lower, Nat.zero_add]

theorem elemAt_setElem (w x i e j : Nat) :
    elemAt w (setElem w x i e) j = if j = i then e % 2 ^ w else elemAt w x j := by
  obtain h | h | h := Nat.lt_trichotomy j i
  · rw [if_neg h.ne, elemAt_setElem_below w x e h]
  · rw [if_pos h, h, elemAt_setElem_same]
  · rw [if_neg h.ne', elemAt_setElem_above w x e h]

/-! The softmax step. -/

/-- What the state of the segments leaves in lane j. -/
def stateLane (seg : Nat → SmxSeg) (j : Nat) : Nat :=
  if j < 64 then (seg j).m else if j < 128 then (seg (j - 64)).l else (seg (j - 128)).alpha

def putState (seg : Nat → SmxSeg) (x k : Nat) : Nat :=
  setElem 32 (setElem 32 (setElem 32 x k (seg k).m) (64 + k) (seg k).l) (128 + k) (seg k).alpha

def markState (lanes : Pred) (k : Nat) : Pred :=
  lanes ||| (1#256 <<< k) ||| (1#256 <<< (64 + k)) ||| (1#256 <<< (128 + k))

theorem elemAt_putState (seg : Nat → SmxSeg) (x : Nat) {k : Nat} (hk : k < 64) (j : Nat) :
    elemAt 32 (putState seg x k) j = if j < 192 ∧ j % 64 = k then stateLane seg j % 2 ^ 32 else elemAt 32 x j := by
  simp only [putState, elemAt_setElem, stateLane]
  obtain rfl | rfl | rfl | h : j = k ∨ j = 64 + k ∨ j = 128 + k ∨ ¬(j < 192 ∧ j % 64 = k) := by omega
  · rw [if_neg (by omega), if_neg (by omega), if_pos rfl, if_pos (by omega), if_pos hk]
  · rw [if_neg (by omega), if_pos rfl, if_pos (by omega), if_neg (by omega), if_pos (by omega),
      Nat.add_sub_cancel_left]
  · rw [if_pos rfl, if_pos (by omega), if_neg (by omega), if_neg (by omega),
      Nat.add_sub_cancel_left]
  · rw [if_neg (by omega), if_neg (by omega), if_neg (by omega), if_neg h]

theorem getLsbD_markState (lanes : Pred) {k : Nat} (hk : k < 64) {j : Nat} (hj : j < 256) :
    (markState lanes k).getLsbD j = (lanes.getLsbD j || decide (j < 192 ∧ j % 64 = k)) := by
  have one (i : Nat) : (1#256 <<< i).getLsbD j = decide (j = i) := by
    rw [← BitVec.twoPow_eq, BitVec.getLsbD_twoPow, ← Bool.decide_and, decide_eq_decide]
    omega
  have lane : (j < 192 ∧ j % 64 = k) ↔ (j = k ∨ j = 64 + k) ∨ j = 128 + k := by omega
  simp only [markState, BitVec.getLsbD_or, one, lane, Bool.decide_or, Bool.or_assoc]

theorem elemAt_foldl_putState (seg : Nat → SmxSeg) (ks : List Nat) (hks : ∀ k ∈ ks, k < 64) (x j : Nat) :
    elemAt 32 (ks.foldl (putState seg) x) j =
      if j < 192 ∧ j % 64 ∈ ks then stateLane seg j % 2 ^ 32 else elemAt 32 x j := by
  induction ks generalizing x with
  | nil => simp
  | cons k ks ih =>
    rw [List.foldl_cons, ih (fun k' h => hks k' (List.mem_cons_of_mem _ h)),
      elemAt_putState seg x (hks k List.mem_cons_self), ← ite_or]
    exact if_congr (by rw [List.mem_cons, ← and_or_left, or_comm]) rfl rfl

theorem getLsbD_foldl_markState (ks : List Nat) (hks : ∀ k ∈ ks, k < 64) (lanes : Pred) {j : Nat} (hj : j < 256) :
    (ks.foldl markState lanes).getLsbD j = (lanes.getLsbD j || decide (j < 192 ∧ j % 64 ∈ ks)) := by
  induction ks generalizing lanes with
  | nil => simp
  | cons k ks ih =>
    rw [List.foldl_cons, ih (fun k' h => hks k' (List.mem_cons_of_mem _ h)),
      getLsbD_markState lanes (hks k List.mem_cons_self) hj, Bool.or_assoc, ← Bool.decide_or]
    simp only [List.mem_cons, and_or_left]

theorem smxSegment_terms_length (m l : Nat) (xs : List (Bool × Nat)) (n : Nat) :
    (smxSegment m l xs n).terms.length = xs.length := by
  unfold smxSegment
  simp only
  split <;> simp

/-- A list of pieces of one length, read by piece and place. -/
theorem getD_flatMap {α : Type} (f : α → List Nat) {m : Nat} (l : List α) (h : ∀ a ∈ l, (f a).length = m) (i : Nat)
    (hi : i < l.length * m) :
    ∃ a, l[i / m]? = some a ∧ (l.flatMap f).getD i 0 = (f a).getD (i % m) 0 := by
  induction l generalizing i with
  | nil => simp at hi
  | cons a l ih =>
    have ha : (f a).length = m := h a List.mem_cons_self
    rw [List.length_cons, Nat.succ_mul] at hi
    by_cases him : i < m
    · refine ⟨a, by rw [Nat.div_eq_of_lt him]; rfl, ?_⟩
      rw [List.flatMap_cons, List.getD_append _ _ _ _ (by omega), Nat.mod_eq_of_lt him]
    · obtain ⟨j, rfl⟩ := Nat.exists_eq_add_of_le (Nat.le_of_not_lt him)
      obtain ⟨a', ha', hf⟩ := ih (fun a' h' => h a' (List.mem_cons_of_mem _ h')) j (by omega)
      refine ⟨a', ?_, ?_⟩
      · rw [Nat.add_div_left j (Nat.pos_of_ne_zero (by rintro rfl; simp at hi)), List.getElem?_cons_succ, ha']
      · rw [List.flatMap_cons, List.getD_append_right _ _ _ _ (by omega), ha, Nat.add_sub_cancel_left, hf,
          Nat.add_mod_left]

/-- The scores of a segment of the register, with whether each lane is active. -/
def segmentScores (g : Pred) (v : Vec) (len k : Nat) : List (Bool × Nat) :=
  (List.range len).map fun j => (g.getLsbD (k * len + j), (elt 32 v (k * len + j)).toNat)

theorem scores_segment (g : Pred) (v : Vec) {k len : Nat} (h : k * len + len ≤ 256) :
    ((List.zip (activeList 32 g) (elems 32 v)).drop (k * len)).take len = segmentScores g v len k := by
  have slice : ((List.range 256).drop (k * len)).take len = (List.range len).map (k * len + ·) := by
    apply List.ext_getElem?
    intro i
    rw [List.getElem?_take, List.getElem?_drop, List.getElem?_map]
    by_cases hi : i < len
    · rw [if_pos hi, List.getElem?_range (by omega), List.getElem?_range hi, Option.map_some]
    · rw [if_neg hi, List.getElem?_eq_none (by simpa using hi), Option.map_none]
  have lane (i : Nat) : i * 32 / 32 = i := Nat.mul_div_cancel i (by decide)
  simp only [activeList_eq (.inr (.inr (.inl rfl))), elems_eq, List.zip_map', ← List.map_drop, ← List.map_take,
    show elemCount 32 = 256 from rfl, slice, List.map_map, segmentScores, Function.comp_def, lane]

/-- Segment k of the softmax step: its state lanes of v[b] and its scores of v[a]. -/
def segmentOf (s : State) (c : BitVec 3) (a b : Vr) (k : Nat) : SmxSeg :=
  smxSegment (elt 32 (s.vec b) k).toNat (elt 32 (s.vec b) (64 + k)).toNat
    (segmentScores s.guardMask (s.vec a) (16 * 2 ^ c.toNat) k) (4 + c.toNat)

/-- The segments that the model forms. -/
theorem segments_eq (s : State) (c : BitVec 3) (a b : Vr) :
    let len := 16 * 2 ^ c.toNat
    ((below (256 / len)).map fun k => (k, smxSegment (elemAt 32 (s.vec b).toNat k) (elemAt 32 (s.vec b).toNat (64 + k))
        ((((activeList 32 s.guardMask).zip (elems 32 (s.vec a))).drop (k * len)).take len) (4 + c.toNat))) =
      (List.range (256 / len)).map fun k => (k, segmentOf s c a b k) := by
  intro len
  rw [below_eq_range]
  refine List.map_congr_left fun k hk => ?_
  have lanes : k * len + len ≤ 256 := by
    rw [← Nat.succ_mul]
    exact (Nat.mul_le_mul_right len (List.mem_range.1 hk)).trans (Nat.div_mul_le_self 256 len)
  rw [elemAt_toNat, elemAt_toNat, scores_segment _ _ lanes]
  rfl

/-- The softmax step is performed on the segments, each with its place. -/
theorem execVsmx_eq (s : State) (c : BitVec 3) (d a b : Vr) :
    let seg := segmentOf s c a b
    let ks := List.range (256 / (16 * 2 ^ c.toNat))
    ∃ fl, execVsmx c d a b s = .next (
      let t := (s.latchEvents fl).vecWrite b
        (BitVec.ofNat 8192 (ks.foldl (fun x k => putState seg x k) (s.vec b).toNat))
        (ks.foldl (fun x k => markState x k) 0)
      let u := t.1.vecWrite d (ofElems 32 (mergeElems (activeList 32 s.guardMask) (elems 32 (s.vec d))
        (ks.flatMap fun k => (seg k).terms))) s.guardMask
      (u.1.startVector (t.2 ++ u.2)).retire) := by
  intro seg ks
  refine ⟨ks.foldl (fun acc k => acc.add (seg k).fl) .none, ?_⟩
  rw [execVsmx]
  simp only [segments_eq s c a b, List.foldl_map, List.flatMap_map, putState, markState]
  rfl

/-- The segments are at most 16 and cover the register. -/
theorem segments_cover {n : Nat} (h : n < 5) : 256 / (16 * 2 ^ n) * (16 * 2 ^ n) = 256 ∧ 256 / (16 * 2 ^ n) < 64 := by
  interval_cases n <;> decide

theorem segmentOf_terms_length (s : State) (c : BitVec 3) (a b : Vr) (k : Nat) :
    (segmentOf s c a b k).terms.length = 16 * 2 ^ c.toNat := by
  rw [segmentOf, smxSegment_terms_length, segmentScores, List.length_map, List.length_range]

section
variable (s : State) (c : BitVec 3) (a b : Vr)

/-- The state register after the step, lane by lane. -/
theorem elt_state (hc : c.toNat < 5) {j : Nat} (hj : j < 256) :
    elt 32 (BitVec.ofNat 8192 ((List.range (256 / (16 * 2 ^ c.toNat))).foldl
        (fun x k => putState (segmentOf s c a b) x k) (s.vec b).toNat)) j =
      if j < 192 ∧ j % 64 < 256 / (16 * 2 ^ c.toNat) then BitVec.ofNat 32 (stateLane (segmentOf s c a b) j)
      else elt 32 (s.vec b) j := by
  have few := (segments_cover hc).2
  rw [elt_ofNat _ hj, elemAt_foldl_putState _ _ fun k hk => (List.mem_range.1 hk).trans few, elemAt_toNat]
  simp only [List.mem_range]
  split
  · apply BitVec.eq_of_toNat_eq
    rw [BitVec.toNat_ofNat, BitVec.toNat_ofNat, Nat.mod_mod]
  · rw [BitVec.ofNat_toNat, BitVec.setWidth_eq]

/-- The terms of the segments, lane by lane. -/
theorem terms_getD (hc : c.toNat < 5) {j : Nat} (hj : j < 256) :
    ((List.range (256 / (16 * 2 ^ c.toNat))).flatMap fun k => (segmentOf s c a b k).terms).getD j 0 =
      (segmentOf s c a b (j / (16 * 2 ^ c.toNat))).terms.getD (j % (16 * 2 ^ c.toNat)) 0 := by
  have cover := (segments_cover hc).1
  obtain ⟨k, hk, terms⟩ := getD_flatMap (fun k => (segmentOf s c a b k).terms)
    (List.range (256 / (16 * 2 ^ c.toNat))) (fun k _ => segmentOf_terms_length s c a b k) j
    (by rw [List.length_range, cover]; exact hj)
  obtain ⟨-, rfl⟩ := by simpa [List.getElem?_eq_some_iff] using hk
  exact terms

theorem terms_length (hc : c.toNat < 5) :
    ((List.range (256 / (16 * 2 ^ c.toNat))).flatMap fun k => (segmentOf s c a b k).terms).length = 256 := by
  simp [List.length_flatMap, segmentOf_terms_length, (segments_cover hc).1]

end

theorem smxSegment_of_nan (m l n : Nat) (xs : List (Bool × Nat))
    (h : (fmtF32.value m).isNan = true ∨ (fmtF32.value l).isNan = true ∨
      ∃ p ∈ xs, p.1 = true ∧ (fmtF32.value p.2).isNan = true) :
    smxSegment m l xs n = ⟨nan32, nan32, nan32, xs.map fun _ => nan32, .none⟩ := by
  refine if_pos ?_
  simpa [f32v, or_assoc] using h

/-- Settles O15: a level of the model's tree is a level of the tree of R97 with the next draws; the segments of the
softmax step are laid side by side, and a NaN decides its segment at once. -/
theorem floatReductionsSoftmax : Obligations.FloatReductionsSoftmax := by
  refine ⟨fun s t r d a => ?_, ?_, ?_⟩
  · obtain ⟨fa, add⟩ := s.fred_eq t r d a ((vtyFmt t).sign true) fun md x y => fvAdd md x y
    obtain ⟨fm, max⟩ := s.fred_eq t .rne d a ((vtyFmt t).infBits true) fun _ x y => fvPick true x y
    obtain ⟨fn, min⟩ := s.fred_eq t .rne d a ((vtyFmt t).infBits false) fun _ x y => fvPick false x y
    exact ⟨⟨fa, (exec_vfredadd s t r d a).trans add⟩, ⟨fm, (exec_vfredmax s t d a).trans max⟩, fn,
      (exec_vfredmin s t d a).trans min⟩
  · intro s c d a b hc _ len seg
    obtain ⟨fl, smx⟩ := execVsmx_eq s c d a b
    have few := (segments_cover hc).2
    have state (j : Nat) (hj : j < 256) := elt_state s c a b hc hj
    refine ⟨_, _, _, fl, (exec_vsmx s c d a b).trans smx, fun k (hk : k < 256 / (16 * 2 ^ c.toNat)) => ⟨?_, ?_, ?_⟩,
      fun j hj => ?_, fun j hj h => ?_, fun j hj => ?_⟩
    · rw [state _ (by omega), if_pos (by omega), stateLane, if_pos (by omega)]
      rfl
    · rw [state _ (by omega), if_pos (by omega), stateLane, if_neg (by omega), if_pos (by omega),
      Nat.add_sub_cancel_left]
      rfl
    · rw [state _ (by omega), if_pos (by omega), stateLane, if_neg (by omega), if_neg (by omega),
      Nat.add_sub_cancel_left]
      rfl
    · rw [getLsbD_foldl_markState _ (fun k hk => (List.mem_range.1 hk).trans few) _ hj]
      simp [len]
    · rw [state j hj, if_neg h]
    · have merged := merge_elem (.inr (.inr (.inl rfl))) s.guardMask (s.vec d) _ (terms_length s c a b hc) hj
      rw [terms_getD s c a b hc hj, Nat.mul_div_cancel j (by decide)] at merged
      exact merged
  · intro m l n xs h
    simp only [smxSegment_of_nan m l n xs h, true_and]
    intro i hi
    simp [List.getD_eq_getElem?_getD, hi]

end Sys2Proof.Machine
end

section
/-!
SUPPORT. Exact results of float operations as rational numbers, and their delivery in a format (R85–R91).
-/
namespace Sys2Proof.Machine
open Sys2Proof.Spec

/-! Finite values as rational numbers. -/

theorem two_zpow_pos (e : Int) : (0 : Rat) < 2 ^ e := zpow_pos two_pos e

/-- A finite value is its integer at a lower exponent. -/
theorem num_fin_eq_atExp (a : Bool) (m : Nat) {e e0 : Int} (h : e0 ≤ e) :
    num (.fin a m e) = (atExp a m e e0 : Rat) * 2 ^ e0 := by
  obtain ⟨k, rfl⟩ := Int.le.dest h
  have shift : e0 + k - e0 = k := by omega
  rw [num, atExp, shift, Int.toNat_natCast, zpow_add₀ two_ne_zero, zpow_natCast]
  cases a
  · rw [if_neg Bool.false_ne_true, if_neg Bool.false_ne_true]; push_cast; ring
  · rw [if_pos rfl, if_pos rfl]; push_cast; ring

theorem num_fin_natAbs (i : Int) (e : Int) : num (.fin (i < 0) i.natAbs e) = (i : Rat) * 2 ^ e := by
  rw [num]
  congr 1
  obtain h | h := lt_or_ge i 0
  · rw [if_pos (decide_eq_true h), Nat.cast_natAbs, abs_of_neg h]; push_cast; ring
  · rw [if_neg (by simpa using h), Nat.cast_natAbs, abs_of_nonneg h, one_mul]

theorem num_fin_zero (a : Bool) (e : Int) : num (.fin a 0 e) = 0 := by simp [num]

theorem compare_int (i j : Int) : compare i j = if i < j then .lt else if i = j then .eq else .gt := rfl

section
variable (md : RMode) (a b : Bool) (m n : Nat) (e k : Int)

theorem fvAdd_fin : (fvAdd md (.fin a m e) (.fin b n k)).1.isFin = true ∧
    num (fvAdd md (.fin a m e) (.fin b n k)).1 = num (.fin a m e) + num (.fin b n k) ∧
    (fvAdd md (.fin a m e) (.fin b n k)).2 = .none := by
  rw [num_fin_eq_atExp a m (min_le_left e k), num_fin_eq_atExp b n (min_le_right e k), ← add_mul, ← Int.cast_add, fvAdd]
  split
  next zero => exact ⟨rfl, by rw [num_fin_zero, zero, Int.cast_zero, zero_mul], rfl⟩
  next => exact ⟨rfl, num_fin_natAbs _ _, rfl⟩

theorem fvMul_fin : (fvMul (.fin a m e) (.fin b n k)).1.isFin = true ∧
    num (fvMul (.fin a m e) (.fin b n k)).1 = num (.fin a m e) * num (.fin b n k) ∧
    (fvMul (.fin a m e) (.fin b n k)).1.neg? = (a != b) ∧ (fvMul (.fin a m e) (.fin b n k)).2 = .none := by
  refine ⟨rfl, ?_, rfl, rfl⟩
  have sign : (if (a != b) = true then -1 else 1 : Rat) = (if a then -1 else 1) * (if b then -1 else 1) := by
    cases a <;> cases b <;> simp
  rw [fvMul, num, num, num, zpow_add₀ two_ne_zero, sign, Nat.cast_mul]
  ring

theorem fvCmp_fin : fvCmp (.fin a m e) (.fin b n k) =
    some (if num (.fin a m e) < num (.fin b n k) then .lt
      else if num (.fin a m e) = num (.fin b n k) then .eq else .gt) := by
  have pos := two_zpow_pos (min e k)
  rw [num_fin_eq_atExp a m (min_le_left e k), num_fin_eq_atExp b n (min_le_right e k), fvCmp, compare_int]
  simp only [mul_lt_mul_iff_left₀ pos, mul_left_inj' pos.ne', Int.cast_lt, Int.cast_inj]

end

/-! Delivery of a number that the format represents. -/

theorem roundNat_zero (md : RMode) (neg : Bool) (m : Nat) : roundNat md neg m 0 = (m, false) := by
  simp [roundNat]

/-- The exponent of the last place of the largest finite number. -/
def Fmt.topQuantum (f : Fmt) : Int := (f.topField : Int) - f.bias - f.fbits

/-- A number whose last place is that of the format at its size is not rounded. -/
theorem Fmt.round_exact (f : Fmt) (md : RMode) (sat neg : Bool) {m : Nat} {e : Int}
    (hq : max (e + Nat.log2 m) f.emin - f.fbits = e) (hm : m < 2 ^ (f.fbits + 1))
    (fits : ¬(f.topQuantum < e ∨ e = f.topQuantum ∧ f.topSig < m)) :
    f.round md sat neg m e = (if m < 2 ^ f.fbits then f.sign neg + m
      else f.sign neg + (e + f.bias + f.fbits).toNat * 2 ^ f.fbits + (m - 2 ^ f.fbits), .none) := by
  have small : ¬m ≥ 2 ^ (f.fbits + 1) := Nat.not_le.2 hm
  rw [Fmt.round]
  simp only [hq, sub_self, roundNat_zero, small, if_false]
  exact (if_neg fits).trans (by split <;> rfl)

/-! A NaN operand decides. -/

section
variable (md : RMode) (q : Bool) {x : Fv} (quiet : x.isSig = false)
include quiet

theorem nanOf_nan : nanOf (.nan q) x = (.nan false, flInv q) := by
  rw [nanOf, quiet, Bool.or_false]; rfl
theorem fvAdd_nan : fvAdd md (.nan q) x = (.nan false, flInv q) := by rw [fvAdd, nanOf_nan q quiet]
theorem fvMul_nan : fvMul (.nan q) x = (.nan false, flInv q) := by rw [fvMul, nanOf_nan q quiet]
theorem fvDiv_nan : fvDiv (.nan q) x = (.nan false, flInv q) := by rw [fvDiv, nanOf_nan q quiet]
theorem fvPick_nan (hi : Bool) : fvPick hi (.nan q) x = (.nan false, flInv q) := by
  rw [fvPick, fvCmp, nanOf_nan q quiet]

end

theorem rcpValue_zero (f : Fmt) (n : Bool) (e : Int) : rcpValue f (.fin n 0 e) = (f.infBits n, { dz := 1 }) := by
  rw [rcpValue, fvDiv]
  simp [estimate]

theorem floatExactValues : FloatExactValues := by
  refine ⟨fun md a b m n e k => ⟨fvAdd_fin md a b m n e k, fvMul_fin a b m n e k, fvCmp_fin a b m n e k,
    fun hm hn => ?_, fun hm hn => ?_, fun hm ha => ?_, fun hm => ?_⟩, fun md a m e => ?_, fun md q x quiet => ?_,
    fun t n q m e => ?_⟩
  · rw [fvDiv, if_pos hn, if_neg hm]
  · rw [fvDiv, if_pos hn, if_pos hm]; rfl
  · rw [fvSqrt, if_neg hm, if_pos ha]; rfl
  · rw [fvSqrt, if_pos hm]
    exact ⟨num_fin_zero a 0, rfl⟩
  · cases a <;> exact ⟨rfl, rfl, rfl, rfl, rfl⟩
  · exact ⟨fvAdd_nan md q quiet, fvMul_nan q quiet, fvDiv_nan q quiet, rfl, fvPick_nan q quiet true, rfl⟩
  · refine ⟨rcpValue_zero _ n e, ?_, rfl, rfl, rfl, rfl, fun hm => ?_⟩
    · cases n <;> rfl
    · rw [rsqValue, if_neg hm, if_pos rfl]
      rfl

/-! Encodings by field. -/

/-- The exponent field of an encoding. -/
def Fmt.expField (f : Fmt) (x : Nat) : Nat := bitsOf x f.fbits f.ebits
/-- The fraction of an encoding. -/
def Fmt.fraction (f : Fmt) (x : Nat) : Nat := x % 2 ^ f.fbits
/-- What an encoding means when it is a number. -/
def Fmt.finValue (f : Fmt) (x : Nat) : Fv :=
  if f.expField x = 0 then .fin (bitOf x (f.width - 1)) (f.fraction x) (f.emin - f.fbits)
  else .fin (bitOf x (f.width - 1)) (2 ^ f.fbits + f.fraction x) ((f.expField x : Int) - f.bias - f.fbits)

section
variable (f : Fmt) (x : Nat)

theorem Fmt.expField_lt : f.expField x < 2 ^ f.ebits := Nat.mod_lt _ (Nat.two_pow_pos _)
theorem Fmt.fraction_lt : f.fraction x < 2 ^ f.fbits := Nat.mod_lt _ (Nat.two_pow_pos _)

/-- A finite encoding is not beyond the largest finite number. -/
theorem Fmt.value_eq_finValue (h : (f.value x).isFin = true) : f.value x = f.finValue x ∧
    ¬(f.topField < f.expField x ∨ f.expField x = f.topField ∧ f.topSig < 2 ^ f.fbits + f.fraction x) := by
  have he := f.expField_lt x
  have hf := f.fraction_lt x
  have hp : 2 ^ (f.fbits + 1) = 2 * 2 ^ f.fbits := Nat.pow_succ'
  have value : f.value x = if f.expField x = 2 ^ f.ebits - 1 then
      match f.tops with
      | .ieee => if f.fraction x = 0 then .inf (bitOf x (f.width - 1))
          else .nan (!bitOf (f.fraction x) (f.fbits - 1))
      | .oneNan => if f.fraction x = 2 ^ f.fbits - 1 then .nan false else f.finValue x
      | .finite => f.finValue x
    else f.finValue x := rfl
  rw [Fmt.topField, Fmt.topSig]
  rw [value] at h ⊢
  by_cases top : f.expField x = 2 ^ f.ebits - 1
  · rw [if_pos top] at h ⊢
    cases tops : f.tops <;> simp only [tops] at h ⊢
    case ieee =>
      exfalso
      split at h <;> cases h
    case oneNan =>
      split at h
      next => cases h
      next frac => exact ⟨if_neg frac, by omega⟩
    case finite => exact ⟨trivial, by omega⟩
  · rw [if_neg top]
    refine ⟨rfl, ?_⟩
    cases f.tops <;> simp only <;> omega

/-- An encoding is its sign, exponent field and fraction. -/
theorem Fmt.fields_add (hw : f.width = 1 + f.ebits + f.fbits) (hx : x < 2 ^ f.width) :
    f.sign (bitOf x (f.width - 1)) + f.expField x * 2 ^ f.fbits + f.fraction x = x := by
  have top : f.width - 1 = f.fbits + f.ebits := by omega
  have high : x / 2 ^ (f.width - 1) < 2 := by
    rwa [Nat.div_lt_iff_lt_mul (Nat.two_pow_pos _), ← Nat.pow_succ', Nat.succ_eq_add_one,
      show f.width - 1 + 1 = f.width by omega]
  have sign : f.sign (bitOf x (f.width - 1)) = x / 2 ^ f.fbits / 2 ^ f.ebits * 2 ^ (f.width - 1) := by
    rw [Nat.div_div_eq_div_mul, ← Nat.pow_add, ← top, Fmt.sign, bitOf, Nat.mod_eq_of_lt high]
    obtain h | h := Nat.le_one_iff_eq_zero_or_eq_one.1 (Nat.le_of_lt_succ high) <;> simp [h]
  rw [sign, top, Nat.pow_add, Nat.mul_comm (2 ^ f.fbits), ← Nat.mul_assoc, ← Nat.add_mul, Fmt.expField, bitsOf,
    Nat.div_add_mod', Fmt.fraction, Nat.div_add_mod']

end

theorem Fmt.deliver_of_ne_zero (f : Fmt) (md : RMode) (sat n : Bool) {m : Nat} (hm : m ≠ 0) (e : Int) :
    f.deliver md sat (.fin n m e) = f.round md sat n m e := if_neg hm

/-- A number that the format represents is delivered as it is (R89). -/
theorem Fmt.deliver_value (f : Fmt) (md : RMode) (sat : Bool) {x : Nat} (hw : f.width = 1 + f.ebits + f.fbits)
    (hx : x < 2 ^ f.width) (hn : 1 ≤ f.topField) (hs : 2 ^ f.fbits - 1 ≤ f.topSig)
    (h : (f.value x).isFin = true) : f.deliver md sat (f.value x) = (x, .none) := by
  have fields := f.fields_add x hw hx
  have hf := f.fraction_lt x
  have hp : 2 ^ (f.fbits + 1) = 2 * 2 ^ f.fbits := Nat.pow_succ'
  obtain ⟨value, fits⟩ := f.value_eq_finValue x h
  rw [value, Fmt.finValue]
  split
  next sub =>
    rw [sub, Nat.zero_mul, Nat.add_zero] at fields
    by_cases zero : f.fraction x = 0
    · rw [zero] at fields ⊢
      exact Prod.ext fields rfl
    · have size := (Nat.log2_lt zero).2 hf
      rw [f.deliver_of_ne_zero md sat _ zero,
        f.round_exact md sat _ (by omega) (by omega) (by rw [topQuantum, emin]; omega), if_pos hf, fields]
  next normal =>
    have size : Nat.log2 (2 ^ f.fbits + f.fraction x) = f.fbits := by
      rw [Nat.log2_eq_iff (by omega)]
      omega
    have field : (f.expField x - f.bias - f.fbits + f.bias + f.fbits : Int).toNat = f.expField x := by omega
    rw [f.deliver_of_ne_zero md sat _ (by omega),
      f.round_exact md sat _ (by rw [size, emin]; omega) (by omega) (by rw [topQuantum]; omega),
      if_neg (by omega), field, Nat.add_sub_cancel_left, fields]

/-! Overflow. -/

/-- A number of 2²⁰⁰⁰ or more is beyond every format (R91). -/
theorem Fmt.round_overflow (f : Fmt) (md : RMode) (sat n : Bool) {m : Nat} {e : Int}
    (far : (2 : Rat) ^ 2000 ≤ (m : Rat) * 2 ^ e) (hf : (f.topField : Int) - f.bias < 2000) :
    f.round md sat n m e = (f.overflow md n sat, { ovf := 1, inx := 1 }) := by
  have top : 2000 ≤ e + Nat.log2 m := by
    have bound : (m : Rat) < 2 ^ ((Nat.log2 m : Int) + 1) := by
      exact_mod_cast Nat.lt_log2_self
    have : (2 : Rat) ^ (2000 : Int) < 2 ^ ((Nat.log2 m : Int) + 1 + e) := by
      rw [zpow_add₀ two_ne_zero]
      exact lt_of_le_of_lt (by exact_mod_cast far) (mul_lt_mul_of_pos_right bound (two_zpow_pos e))
    have := (zpow_lt_zpow_iff_right₀ one_lt_two).1 this
    omega
  rw [Fmt.round]
  refine if_pos (Or.inl ?_)
  split <;> omega

theorem floatDelivery : FloatDelivery := by
  refine ⟨by decide, fun _ _ _ => rfl, fun t md x hx h => ?_, fun t md n m e hm far => ?_⟩
  · cases t <;> exact Fmt.deliver_value _ md false rfl hx (by decide) (by decide) h
  · rw [Fmt.deliver_of_ne_zero _ md false n hm, Fmt.round_overflow _ md false n far (by cases t <;> decide)]
    obtain ⟨r, draw⟩ := md
    cases r <;> cases n <;> rfl

/-- Settles O16: sums and products are taken at the lower exponent, where a value is an integer; a number in a format
has the last place that rounding looks for. -/
theorem floatResults : Obligations.FloatResults := ⟨floatExactValues, floatDelivery⟩

end Sys2Proof.Machine
end

section
/-!
SUPPORT. The worked chains of the encoding chapter (R101–R112).
-/
namespace Sys2Proof.Machine

/-- Settles O56: the decoder computes each chain. -/
theorem decodedWords : Obligations.DecodedWords := ⟨rfl, rfl, rfl, rfl, rfl, rfl, rfl, rfl, rfl, rfl, rfl⟩

end Sys2Proof.Machine
end

section
/-!
SUPPORT. Control transfers: the targets of the relative forms, the checks through a capability, and what each transfer does
(R105, R158–R161).
-/
namespace Sys2Proof.Machine

/-! Targets. -/

/-- A target relative to the start as a sum of 64-bit words (R105, R159). -/
theorem State.relTarget_toInt (s : State) (x : BitVec 64) :
    s.relTarget x.toInt = (BitVec.ofNat 64 s.issue.start + (x <<< 1)).toNat := by
  have twice : x <<< 1 = BitVec.ofInt 64 (2 * x.toInt) := by
    rw [BitVec.ofInt_mul, BitVec.ofInt_toInt, BitVec.shiftLeft_eq_mul_twoPow, BitVec.mul_comm]
    rfl
  rw [State.relTarget, toBits_ofInt, BitVec.ofInt_add, ← twice]
  rfl

/-- The offset of a branch is its sign extension (R105). -/
theorem State.relTarget_branch (s : State) (o : BitVec 12) :
    s.relTarget o.toInt = (BitVec.ofNat 64 s.issue.start + (o.signExtend 64 <<< 1)).toNat := by
  rw [← s.relTarget_toInt, BitVec.toInt_signExtend_of_le (by decide)]

/-- The offset of a far transfer is its immediate's sign extension (R98, R159). -/
theorem State.relTarget_imm (s : State) (i : Imm) :
    s.relTarget (sv 64 (immInt 64 i)) =
      (BitVec.ofNat 64 s.issue.start + ((BitVec.ofNat (4 + 12 * i.ext) i.val).signExtend 64 <<< 1)).toNat := by
  rw [← s.relTarget_toInt, immInt_eq, sv_toNat (by decide)]

/-! The checks (R160, R161). -/

/-- The right to execute is bit 2 of the rights (R48). -/
theorem Cap.holds_rX (k : Cap) : k.holds rX = k.rights.testBit 2 := by
  rw [Cap.holds, show rX = 2 ^ 2 from rfl, Nat.and_two_pow]
  cases k.rights.testBit 2 <;> rfl

/-- The checks of a transfer through a capability whose object the table describes. -/
theorem State.checkTransfer_of_object (s : State) {k : Cap} (plain : k.obj ≠ aliasObj) (n x : Nat) :
    s.checkTransfer k n x =
      let inside := decide (k.base ≤ x) && decide (x + 2 ≤ k.limit)
      let page := if inside then x / 2 ^ 21 else k.base / 2 ^ 21
      let t := (s.lookup s.ic s.is k.obj page).getD (s.walkResult s.is k.obj page)
      let e := t.ent
      if !k.tag then .bad causeCapTag k.base n
      else if !e.ok || e.kind == 0 || k.gen != e.gen then .bad causeCapTag k.base n
      else if !k.holds rX || e.kind != kCode then .bad causeRights k.base n
      else if e.sec && !s.me.world then .bad causeWorld k.base n
      else if !inside || e.len < x + 2 then .bad causeBounds x n
      else if x % 2 != 0 then .bad causeAlign x n
      else .ok ⟨k.obj, e.gen, e, x, [t]⟩ := by
  unfold State.checkTransfer
  simp only [plain, if_false]
  cases s.lookup s.ic s.is k.obj _ <;> rfl

theorem transferChecks : Spec.TransferChecks := by
  intro s k n x plain
  have inside : (decide (k.base ≤ x) && decide (x + 2 ≤ k.limit)) = decide (k.base ≤ x ∧ x + 2 ≤ k.limit) :=
    (Bool.decide_and ..).symm
  have odd : (x % 2 != 0) = (x % 2 == 1) := by grind
  rw [s.checkTransfer_of_object plain, inside, odd, Cap.holds_rX]
  simp only [decide_eq_true_eq, find?_fst_cons, List.find?_nil]
  split_ifs <;> rfl

/-- The checks of a transfer never wait for a walk (R144). -/
theorem State.checkTransfer_ne_walk (s : State) (k : Cap) (n x : Nat) (ps : List (Nat × Nat)) :
    s.checkTransfer k n x ≠ .walk ps := by
  unfold State.checkTransfer
  dsimp only
  cases Option.orElse _ _ with
  | none => split <;> nofun
  | some t =>
    dsimp only
    split_ifs <;> nofun

/-! Transfers. -/

/-- A slot that has waited for no walk installs none when a check fails. -/
theorem State.badChk_of_not_walked {s : State} (unwalked : s.me.walked = []) (cause addr v : Nat) :
    s.badChk cause addr v = s.trap cause addr v := by
  simp [State.badChk, State.walkedFor, State.installWalked, unwalked]

theorem transfers : Spec.Transfers := by
  intro s o i d b k at_ far link sum through
  have reach : ∀ (x : Nat) (e : Instr) (t : State),
      exec e s = s.guarded (s.withChk (s.checkTransfer (s.cap k) k.toNat x) fun _ => (t.setCode (s.cap k)).retireTo x) →
      through x e t := by
    intro x e t run
    dsimp only [through]
    split
    next y checked => rw [run, checked]; rfl
    next cause addr v checked => rw [run, checked]; rfl
    next ps checked => exact s.checkTransfer_ne_walk _ _ _ ps checked
  exact ⟨State.badChk_of_not_walked,
    congrArg (fun x => s.guarded (s.retireTo x)) (s.relTarget_branch o),
    congrArg (fun x => s.guarded (s.retireTo x)) (s.relTarget_imm i), rfl,
    congrArg (fun x => s.guarded ((s.putGpr d link).retireTo x)) (s.relTarget_imm i), rfl, rfl,
    reach _ _ _ rfl, reach _ _ _ rfl, reach _ _ _ rfl⟩

/-- Settles O21: what each form of transfer does, and the checks of the capability forms. -/
theorem controlTransfers : Obligations.ControlTransfers := ⟨transfers, transferChecks⟩

end Sys2Proof.Machine
end

section
/-!
SUPPORT. What the registers of the issuing slot depend on (R110, R125).
-/
namespace Sys2Proof.Machine

/-- The banks that the strands of a core share. -/
def Core.banks (k : Core) : SMap Group × SMap Word × SMap Vec := (k.groups, k.supC, k.supW)

section banks
variable (s : State) (c n : Nat)

@[simp] theorem State.banks_setSlot (x : Slot) (c' : Nat) : ((s.setSlot c n x).core c').banks = (s.core c').banks :=
  State.core_onCore_keep s c (g := Core.banks) (by exact fun _ => rfl) c'
@[simp] theorem State.banks_onSlot (f : Slot → Slot) (c' : Nat) : ((s.onSlot c n f).core c').banks = (s.core c').banks :=
  s.banks_setSlot ..
@[simp] theorem State.banks_share (w : ShWrite) (c' : Nat) : ((s.share c w).core c').banks = (s.core c').banks :=
  State.core_onCore_keep s c (g := Core.banks) (by exact fun _ => rfl) c'
@[simp] theorem State.banks_onTrap (f : TrapState → TrapState) (c' : Nat) :
    ((s.onTrap c f).core c').banks = (s.core c').banks :=
  State.core_onCore_keep s c (g := Core.banks) (by exact fun _ => rfl) c'
@[simp] theorem State.banks_freeHolder (h c' : Nat) : ((s.freeHolder c h).core c').banks = (s.core c').banks :=
  State.core_onCore_keep s c (g := Core.banks) (by exact fun _ => rfl) c'
@[simp] theorem State.banks_dropAwaited (c' : Nat) : ((s.dropAwaited c n).core c').banks = (s.core c').banks := by
  have freed : ∀ (l : List MatOp) (u : State),
      ((l.foldl (fun s o => s.freeHolder c o.num) u).core c').banks = (u.core c').banks := by
    intro l
    induction l with
    | nil => exact fun _ => rfl
    | cons o r ih => exact fun u => (ih _).trans (u.banks_freeHolder ..)
  unfold State.dropAwaited
  exact (State.core_onCore_keep _ c (g := Core.banks) (by exact fun _ => rfl) c').trans (freed ..)

end banks

theorem State.bankC_congr {s u : State} {c : Nat} (banks : (u.core c).banks = (s.core c).banks) (b i : Nat) :
    u.bankC c b i = s.bankC c b i := by
  obtain ⟨groups, rest⟩ := Prod.mk.inj banks
  obtain ⟨supC, -⟩ := Prod.mk.inj rest
  rw [State.bankC, State.bankC, State.group?, State.group?, groups, supC]

theorem State.bankW_congr {s u : State} {c : Nat} (banks : (u.core c).banks = (s.core c).banks) (b i : Nat) :
    u.bankW c b i = s.bankW c b i := by
  obtain ⟨groups, rest⟩ := Prod.mk.inj banks
  obtain ⟨-, supW⟩ := Prod.mk.inj rest
  rw [State.bankW, State.bankW, State.group?, State.group?, groups, supW]

section congr
variable {s u : State} (issue : u.issue = s.issue) (banks : (u.core s.ic).banks = (s.core s.ic).banks)
  (bank : (u.slot s.ic s.is).bank = s.me.bank)

include issue in
theorem State.pred_congr (p : (u.slot s.ic s.is).p = s.me.p) (r : Pr) : u.pred r = s.pred r := by
  have here : u.pred r = u.predAt s.ic s.is r := by rw [State.pred, State.ic, State.is, issue]; rfl
  rw [here, State.predAt, p]
  rfl

include issue in
theorem State.cap_congr (k : (u.slot s.ic s.is).k = s.me.k) (r : Kr) : u.cap r = s.cap r := by
  have here : u.cap r = u.capAt s.ic s.is r := by rw [State.cap, State.ic, State.is, issue]; rfl
  rw [here, State.capAt, k]
  rfl

include issue banks bank

theorem State.gpr_congr {r : Gpr}
    (g : r.toNat < 32 → SMap.get (u.slot s.ic s.is).g r.toNat 0 = SMap.get s.me.g r.toNat 0) : u.gpr r = s.gpr r := by
  have here : u.gpr r = u.gprAt s.ic s.is r := by rw [State.gpr, State.ic, State.is, issue]; rfl
  rw [here, State.gpr, State.gprAt, State.gprAt]
  by_cases own : r.toNat < 32
  · rw [if_pos own, if_pos own, g own]
    rfl
  · rw [if_neg own, if_neg own, bank, State.bankC_congr banks]
    rfl

theorem State.vec_congr (v : (u.slot s.ic s.is).v = s.me.v) (r : Vr) : u.vec r = s.vec r := by
  have here : u.vec r = u.vecAt s.ic s.is r := by rw [State.vec, State.ic, State.is, issue]; rfl
  rw [here, State.vecAt, v, bank, State.bankW_congr banks]
  rfl

end congr

end Sys2Proof.Machine
end

section
/-!
SUPPORT. A write of a general register, and the commit of shared writes (R110, R127, R128).
-/
namespace Sys2Proof.Machine

/-! Writes of a general register. -/

section putGpr
variable (s : State) (d : Gpr) (x : Word)

theorem State.putGpr_zero : s.putGpr 0 x = s := rfl

/-- A write to g1 to g31 is a change of the slot (R110). -/
theorem State.putGpr_own {d : Gpr} (nonzero : d ≠ 0) (own : d.toNat < 32) :
    s.putGpr d x = s.onSlot s.ic s.is fun t => { t with g := SMap.set t.g d.toNat x } := by
  rw [State.putGpr, State.putGprAt, if_neg nonzero, if_pos own]

/-- A write to a shared register is queued for its commit clock (R127). -/
theorem State.putGpr_shared {d : Gpr} (high : 32 ≤ d.toNat) :
    s.putGpr d x = s.share s.ic ⟨s.cycle + 15, s.is, s.me.bank, false, d.toNat - 32, x, 0, 0⟩ := by
  have nonzero : d ≠ 0 := by
    rintro rfl
    exact absurd high (by decide)
  rw [State.putGpr, State.putGprAt, if_neg nonzero, if_neg (by omega)]
  rfl

theorem State.CoresOnly.putGpr : s.CoresOnly (s.putGpr d x) := .ite (.refl s) (.ite (.onSlot ..) (.onCore ..))

@[simp] theorem State.putGpr_issue : (s.putGpr d x).issue = s.issue := (congrArg State.issue (State.CoresOnly.putGpr s d x) :)

@[simp] theorem State.banks_putGpr (c : Nat) : ((s.putGpr d x).core c).banks = (s.core c).banks := by
  unfold State.putGpr State.putGprAt
  split_ifs
  · rfl
  · exact s.banks_onSlot ..
  · exact s.banks_share ..

/-- Of the issuing slot only g1 to g31 differ. -/
theorem State.slot_putGpr : ∃ g, (s.putGpr d x).slot s.ic s.is = { s.me with g := g } := by
  unfold State.putGpr State.putGprAt
  split_ifs
  · exact ⟨_, rfl⟩
  · exact ⟨_, s.slot_onSlot ..⟩
  · exact ⟨_, s.slot_onCore _ _ rfl ..⟩

theorem State.slot_putGpr_of_other {c n : Nat} (other : ¬(c = s.ic ∧ n = s.is)) : (s.putGpr d x).slot c n = s.slot c n := by
  unfold State.putGpr State.putGprAt
  split_ifs
  · rfl
  · by_cases core : c = s.ic
    · subst core
      exact s.slot_onSlot_ne (fun same => other ⟨rfl, same⟩) _
    · exact s.slot_onSlot_core core ..
  · exact s.slot_onCore _ _ rfl c n

theorem State.gpr_putGpr_same {d : Gpr} (nonzero : d ≠ 0) (own : d.toNat < 32) : (s.putGpr d x).gpr d = x := by
  rw [State.gpr, State.gprAt, if_neg nonzero, if_pos own, ← State.me, (State.CoresOnly.putGpr s d x).me,
    s.putGpr_own x nonzero own, State.slot_onSlot, SMap.get_set]

/-- No other register changes; and of a shared register nothing is read differently until its write commits (R110, R127). -/
theorem State.gpr_putGpr_of_unchanged {d r : Gpr} (other : r ≠ d ∨ 32 ≤ d.toNat) : (s.putGpr d x).gpr r = s.gpr r := by
  by_cases zero : d = 0
  · rw [zero, State.putGpr_zero]
  obtain ⟨g, slot⟩ := s.slot_putGpr d x
  refine State.gpr_congr (s.putGpr_issue d x) (s.banks_putGpr d x s.ic) (by rw [slot]) fun own => ?_
  by_cases high : 32 ≤ d.toNat
  · rw [s.putGpr_shared x high, State.share, s.slot_onCore _ _ rfl]
    rfl
  · rw [s.putGpr_own x zero (by omega), State.slot_onSlot,
      SMap.get_set_ne _ (BitVec.toNat_injective.ne (other.resolve_right high))]
    rfl

/-- A write to g1 to g31 waits for no commit clock (R127). -/
theorem State.shared_putGpr_own {d : Gpr} (nonzero : d ≠ 0) (own : d.toNat < 32) (c : Nat) :
    ((s.putGpr d x).core c).shared = (s.core c).shared := by
  rw [s.putGpr_own x nonzero own]
  exact State.core_onCore_keep s s.ic (g := Core.shared) (by exact fun _ => rfl) c

theorem registerWrites : Spec.RegisterWrites := by
  intro s d x t
  obtain ⟨g, slot⟩ := s.slot_putGpr d x
  have issue := s.putGpr_issue d x
  refine ⟨rfl, rfl, rfl, fun _ => rfl,
    fun nonzero own => ⟨s.gpr_putGpr_same x nonzero own, s.shared_putGpr_own x nonzero own s.ic⟩,
    fun high => ⟨s.gpr_putGpr_of_unchanged x (.inr high), ?_⟩,
    fun r other => s.gpr_putGpr_of_unchanged x (.inl other),
    State.vec_congr issue (s.banks_putGpr d x s.ic) (by rw [slot]) (by rw [slot]),
    State.pred_congr issue (by rw [slot]), State.cap_congr issue (by rw [slot]),
    fun c n other => s.slot_putGpr_of_other d x other, State.CoresOnly.putGpr s d x⟩
  rw [show t = s.putGpr d x from rfl, s.putGpr_shared x high, State.share, State.core_onCore]

end putGpr

/-! The commit of shared writes. -/

/-- No write is due, and none commits (R127). -/
theorem State.commitShared_of_later {s : State} {c : Nat} (later : ∀ w ∈ (s.core c).shared, s.cycle < w.clock) :
    s.commitShared c = s := by
  have left : (s.core c).shared.filter (fun w => w.clock ≤ s.cycle) = [] :=
    List.filter_eq_nil_iff.2 fun w h => by simpa using later w h
  simp only [State.commitShared, left, List.isEmpty_nil, if_true]

section bank
variable {s : State} {c b : Nat} (resident : (s.group? c b).isSome = true) (strands : b ≠ 16)
include resident strands

/-- A write of a shared register of a resident group changes the groups alone. -/
theorem State.setBankC_resident (r : Nat) (x : Word) :
    ∃ gs, s.setBankC c b r x = s.onCore c fun k => { k with groups := gs } := by
  obtain ⟨g, found⟩ := Option.isSome_iff_exists.1 resident
  refine ⟨SMap.set (s.core c).groups b { g with c := SMap.set g.c r x }, ?_⟩
  rw [State.setBankC, if_neg strands, State.onGroup, found]
  rfl

theorem State.bankC_setBankC (r : Nat) (x : Word) : (s.setBankC c b r x).bankC c b r = x := by
  obtain ⟨g, found⟩ := Option.isSome_iff_exists.1 resident
  rw [State.setBankC, if_neg strands, State.onGroup, found]
  simp [State.bankC, strands, State.group?, SMap.find?_set]

/-- What a commit of one word leaves: the word, an empty queue and the count of the writes that have lost (R127, R128). -/
theorem State.commit_word (r : Nat) (x : Word) (lost : Nat) :
    let u := ((s.onCore c fun k => { k with shared := [] }).setBankC c b r x).countLost c lost
    u.bankC c b r = x ∧ (u.core c).shared = [] ∧ (u.core c).shwloss = min ((s.core c).shwloss + lost) 0xFFFFFFFF := by
  have resident : ((s.onCore c fun k => { k with shared := [] }).group? c b).isSome = true := by
    rwa [State.group?, State.core_onCore]
  obtain ⟨gs, writes⟩ := State.setBankC_resident resident strands r x
  refine ⟨?_, ?_, ?_⟩
  · exact (State.bankC_congr (State.core_onCore_keep _ c (g := Core.banks) (by exact fun _ => rfl) c) b r).trans
      (State.bankC_setBankC resident strands r x)
  · rw [State.countLost, writes, State.core_onCore, State.core_onCore, State.core_onCore]
  · rw [State.countLost, writes, State.core_onCore, State.core_onCore, State.core_onCore]

end bank

/-- A write loses to a lower slot's alone (R128). -/
theorem ShWrite.beats_of_slot_le {v w : ShWrite} (order : w.slot ≤ v.slot) : v.beats w = false := by
  simp [ShWrite.beats, Nat.not_lt.2 order]

/-- A queue of which every write is due is taken whole. -/
theorem State.onCore_takeDue {s : State} {c : Nat} (due : ∀ w ∈ (s.core c).shared, w.clock ≤ s.cycle) :
    s.onCore c (fun k => { k with shared := k.shared.filter fun w => s.cycle < w.clock }) =
      s.onCore c fun k => { k with shared := [] } := by
  have left : (s.core c).shared.filter (fun w => s.cycle < w.clock) = [] :=
    List.filter_eq_nil_iff.2 fun w h => by simpa using due w h
  simp only [State.onCore, left]

/-- A word that is due and meets no other write is written (R127). -/
theorem State.commitShared_one {s : State} {c : Nat} {v : ShWrite} (queue : (s.core c).shared = [v])
    (due : v.clock ≤ s.cycle) (word : v.vec = false) :
    s.commitShared c = ((s.onCore c fun k => { k with shared := [] }).setBankC c v.bank v.reg v.word).countLost c 0 := by
  have takes := State.onCore_takeDue (s := s) (c := c) (by simpa [queue] using due)
  simp [State.commitShared, takes, queue, due, ShWrite.beats_of_slot_le, State.performShared, word]

/-- Of two words that are due and meet, the lower slot's is written, and the other is counted (R128). -/
theorem State.commitShared_two {s : State} {c : Nat} {v w : ShWrite} (queue : (s.core c).shared = [v, w])
    (due : v.clock ≤ s.cycle) (word : v.vec = false) (beats : v.beats w = true) :
    s.commitShared c = ((s.onCore c fun k => { k with shared := [] }).setBankC c v.bank v.reg v.word).countLost c 1 := by
  obtain ⟨clock, vec, order⟩ : v.clock = w.clock ∧ v.vec = w.vec ∧ v.slot < w.slot := by
    simp only [ShWrite.beats, Bool.and_eq_true, beq_iff_eq, decide_eq_true_eq] at beats
    tauto
  have due' := clock ▸ due
  have word' := vec ▸ word
  have takes := State.onCore_takeDue (s := s) (c := c) (by simpa [queue] using ⟨due, due'⟩)
  have loses : w.beats v = false := ShWrite.beats_of_slot_le order.le
  simp [State.commitShared, takes, queue, due, due', beats, loses, ShWrite.beats_of_slot_le, State.performShared, word, word',
    setIns]

theorem sharedWriteCommit : Spec.SharedWriteCommit := by
  intro s c b r m n k x y small resident order w with_ one two later
  have strands : b ≠ 16 := by omega
  have queue : ∀ l, ((with_ l).core c).shared = l := fun l => congrArg Core.shared (s.core_onCore c _)
  have loss : ∀ l, ((with_ l).core c).shwloss = k := fun l => congrArg Core.shwloss (s.core_onCore c _)
  have banks : ∀ l, ((with_ l).core c).banks = (s.core c).banks :=
    fun l => State.core_onCore_keep s c (g := Core.banks) (by exact fun _ => rfl) c
  have group : ∀ l, ((with_ l).group? c b).isSome = true := fun l => by
    rwa [State.group?, show ((with_ l).core c).groups = (s.core c).groups from congrArg Prod.fst (banks l)]
  have beats : (w m x).beats (w n y) = true := by simp [w, ShWrite.beats, order]
  have commits : one = _ := State.commitShared_one (queue [w m x]) (Nat.le_refl _) rfl
  have meets : two = _ := State.commitShared_two (queue [w m x, w n y]) (Nat.le_refl _) rfl beats
  have waits : later = with_ [{ w m x with clock := s.cycle + 1 }] := State.commitShared_of_later (by
    rw [queue]
    exact List.forall_mem_singleton.2 (Nat.lt_succ_self _))
  obtain ⟨stands, empty, uncounted⟩ := State.commit_word (group [w m x]) strands r x 0
  obtain ⟨stands', -, counted⟩ := State.commit_word (group [w m x, w n y]) strands r x 1
  rw [loss] at uncounted counted
  rw [commits, meets, waits]
  exact ⟨stands, empty, uncounted, stands', by rw [counted]; omega, State.bankC_congr (banks _) b r, queue _⟩

/-- Settles O22: a write by where its register lies, and a commit by the writes that meet in it. -/
theorem generalRegisters : Obligations.GeneralRegisters := ⟨registerWrites, sharedWriteCommit⟩

end Sys2Proof.Machine
end

section
/-!
SUPPORT. What a trap of the issuing instruction changes: the slot that stops, the core's queue of pending traps, and the delivery
in the supervisor's slot (R361, R362, R364, R370–R372).
-/
namespace Sys2Proof.Machine

section raiseAt
variable {s : State} {c n : Nat} (ahead : s.pairBehind c n = false) (cause addr value resume : Nat) (noResume : Bool)
include ahead

/-- The entry of a strand that traps goes into its core's queue; the banks stay as they are (R361, R362). -/
theorem State.raiseAt_strand (strand : n ≠ 15) : ∃ v : State, (∀ c', (v.core c').banks = (s.core c').banks) ∧
    s.raiseAt c n cause addr value resume noResume = v.onTrap c fun k =>
      { k with pend := insTrap (v.cycle, strandSlot (s.slot c n) n) k.pend } := by
  unfold State.raiseAt
  simp only [ahead, strand, Bool.false_and, Bool.false_eq_true, if_false]
  refine ⟨_, fun c' => ?_, rfl⟩
  cases (s.slot c n).hold <;> cases pairMate (s.slot c n) n <;>
    simp only [State.banks_dropAwaited, State.banks_onSlot, State.banks_setSlot, State.banks_freeHolder]

/-- Below nesting level 2 the supervisor's slot stops, and its trap is delivered at once (R364). -/
theorem State.raiseAt_nested (sup : n = 15) (level : (s.core c).trap.level < 2) :
    ∃ v : State, s.CoresOnly v ∧ (∀ c', (v.core c').banks = (s.core c').banks) ∧
      s.raiseAt c n cause addr value resume noResume =
        (v.setSlot c n ((s.slot c n).stopFor (s.raised c n cause addr value resume noResume))).now .trapDelivery [c] := by
  subst sup
  unfold State.raiseAt
  simp only [ahead, Bool.false_and, Bool.false_eq_true, if_false, if_true]
  cases (s.slot c 15).hold with
  | none => exact ⟨s, .refl s, fun _ => rfl, if_neg (Nat.not_le.2 level)⟩
  | some h =>
    have kept : ((s.freeHolder c h).core c).trap = (s.core c).trap :=
      State.core_onCore_keep s c (g := Core.trap) (by exact fun _ => rfl) c
    have status := State.statusAt_congr (s.slot_freeHolder c h)
    simp only [kept, status]
    exact ⟨s.freeHolder c h, .onCore .., s.banks_freeHolder c h, if_neg (Nat.not_le.2 level)⟩

end raiseAt

/-! The trap of the issuing slot. -/

/-- A slot that has stopped reads its registers as they were. -/
theorem State.registers_of_stopped {s u : State} {raise : Raise} (issue : u.issue = s.issue)
    (banks : (u.core s.ic).banks = (s.core s.ic).banks) (slot : u.slot s.ic s.is = s.me.stopFor raise) :
    (∀ r, u.gpr r = s.gpr r) ∧ (∀ r, u.vec r = s.vec r) ∧ (∀ r, u.pred r = s.pred r) ∧ ∀ r, u.cap r = s.cap r :=
  ⟨fun _ => State.gpr_congr issue banks (by rw [slot]; rfl) fun _ => by rw [slot]; rfl,
    State.vec_congr issue banks (by rw [slot]; rfl) (by rw [slot]; rfl),
    State.pred_congr issue (by rw [slot]; rfl), State.cap_congr issue (by rw [slot]; rfl)⟩

section taken
variable {s u : State} {cause addr value resume : Nat}

theorem State.taken_of_stopped (issue : u.issue = s.issue) (mem : u.mem = s.mem)
    (banks : (u.core s.ic).banks = (s.core s.ic).banks)
    (slot : u.slot s.ic s.is = s.me.stopFor (s.raised s.ic s.is cause addr value resume false))
    (pends : s.is ≠ 15 → (s.cycle, strandSlot s.me s.is) ∈ (u.core s.ic).trap.pend)
    (delivers : s.is = 15 → u.agenda = ⟨.trapDelivery, [s.ic]⟩ :: s.agenda) : Spec.Taken s u cause addr value resume := by
  have me : u.me = s.me.stopFor (s.raised s.ic s.is cause addr value resume false) := by
    rwa [State.me, State.ic, State.is, issue]
  obtain ⟨gpr, vec, pred, cap⟩ := State.registers_of_stopped issue banks slot
  rw [Spec.Taken, me]
  exact ⟨rfl, rfl, mem, gpr, vec, pred, cap, rfl, pends, delivers⟩

/-- A trap of the issuing slot, below nesting level 2 if it is the supervisor's. -/
theorem State.taken_raiseAt (level : s.is = 15 → (s.core s.ic).trap.level < 2) (ahead : s.pairBehind s.ic s.is = false) :
    Spec.Taken s (s.raiseAt s.ic s.is cause addr value resume false) cause addr value resume := by
  by_cases sup : s.is = 15
  · obtain ⟨v, cores, banks, raises⟩ := State.raiseAt_nested ahead cause addr value resume false sup (level sup)
    rw [raises]
    have agenda : v.agenda = s.agenda := (congrArg State.agenda cores :)
    exact State.taken_of_stopped (congrArg State.issue cores :) cores.mem ((v.banks_setSlot ..).trans (banks _))
      (v.slot_setSlot ..) (fun strand => absurd sup strand) fun _ => by rw [← agenda]; rfl
  · have cores := State.CoresOnly.raiseAt s s.ic sup cause addr value resume false
    have slot := State.slot_raiseAt sup ahead cause addr value resume false
    obtain ⟨v, banks, raises⟩ := State.raiseAt_strand ahead cause addr value resume false sup
    have cycle : v.cycle = s.cycle := (congrArg State.cycle (raises ▸ cores) :)
    refine State.taken_of_stopped (congrArg State.issue cores :) cores.mem ?_ slot (fun _ => ?_) fun super => absurd super sup
    · rw [raises, State.banks_onTrap, banks]
    · rw [raises, State.onTrap, State.core_onCore, cycle]
      exact mem_insTrap ..

/-- A precise trap of a slot that is not ahead of its pair. -/
theorem State.taken_trap (level : s.is = 15 → (s.core s.ic).trap.level < 2) (ahead : s.pairBehind s.ic s.is = false) :
    Spec.Taken s (s.trap cause addr value) cause addr value s.issue.start := by
  rw [State.trap, ahead]
  exact State.taken_raiseAt level ahead

end taken

/-! `STEP` (R372). -/

/-- The write of `STEP` sets the slot's single-step bit when it commits. -/
theorem State.step_applyCsr (w : State) (c clock : Nat) {n : Nat} (strand : n < 15) :
    ((w.applyCsr c ⟨clock, n, 5, 0x40⟩).slot c n).step = true := by
  have sets : w.applyCsr c ⟨clock, n, 5, 0x40⟩ = w.writeSlotReg c n 5 0x40 := rfl
  rw [sets, State.writeSlotReg, if_neg strand.ne, State.slot_onSlot]
  rfl

/-- A strand that is alone completes `STEP`, and its bit waits for the commit clock. -/
theorem State.step_completes {s : State} (alone : Spec.Alone s) (off : s.me.step = false) (f : List CsrWrite → List CsrWrite) :
    let u := s.retire.onCore s.ic fun k => { k with csrs := f k.csrs }
    u.me = s.me.completed s.issue.next ∧ u.mem = s.mem ∧ (u.core s.ic).csrs = f (s.core s.ic).csrs := by
  intro u
  have goesOn : s.retire = s.onSlot s.ic s.is (·.completed s.issue.next) :=
    State.retireAt_goesOn s.issue.start s.issue.next alone (by rw [← State.me, off]; rfl)
  have me : u.me = u.slot s.ic s.is := ((State.CoresOnly.retireAt ..).trans (State.CoresOnly.onCore ..)).me
  refine ⟨?_, (State.CoresOnly.retireAt ..).mem, ?_⟩
  · rw [me, State.slot_onCore _ _ _ rfl, goesOn, State.slot_onSlot]
    rfl
  · rw [State.core_onCore, goesOn]
    exact congrArg f (State.core_onCore_keep s s.ic (g := Core.csrs) (by exact fun _ => rfl) s.ic)

/-- Settles O41: the traps by what a trap of the issuing slot changes, and `STEP` by what completes and what commits. -/
theorem trapsRaised : Obligations.TrapsRaised := by
  intro s i cause addr value level ahead
  refine ⟨⟨_, rfl, State.taken_raiseAt level ahead⟩, ⟨_, rfl, State.taken_raiseAt level ahead⟩,
    ⟨_, rfl, State.taken_trap (s := { s with evt := [cause, value, addr] }) level ahead⟩,
    ⟨_, rfl, State.taken_trap (s := { s with evt := [cause, addr, value] }) level ahead⟩, fun strand off alone => ?_,
    fun sup => congrArg s.guarded (if_pos sup)⟩
  obtain ⟨me, mem, csrs⟩ := State.step_completes alone off (· ++ [⟨s.cycle + 15, s.is, 5, 0x40⟩])
  exact ⟨_, congrArg s.guarded (if_neg strand), me, mem, csrs, fun w below => w.step_applyCsr s.ic _ below⟩

end Sys2Proof.Machine
end

section
/-!
SUPPORT. The machine right after power-on: no core, slot or register has been touched (R125, R136, R186, R386).
-/
namespace Sys2Proof.Machine

/-- Every slot is one that no strand has touched. -/
theorem State.slot_reset (c n : Nat) : State.reset.slot c n = Slot.fresh n := rfl

/-- The registers of the matrix format and epilogue at their reset values. -/
theorem Core.context_default : ({} : Core).context = 0x73 := by decide

/-- No group is resident, so a shared register reads as zero whatever bank it lies in. -/
theorem State.bankC_reset (c b i : Nat) : State.reset.bankC c b i = 0 := ite_self _
theorem State.bankW_reset (c b i : Nat) : State.reset.bankW c b i = 0 := ite_self _

theorem State.gprAt_reset (c n : Nat) (r : Gpr) : State.reset.gprAt c n r = 0 := by
  rw [State.gprAt, State.bankC_reset, State.slot_reset]
  split_ifs <;> rfl

theorem State.vecAt_reset (c n : Nat) (r : Vr) : State.reset.vecAt c n r = 0 := by
  rw [State.vecAt, State.bankW_reset, State.slot_reset]
  exact ite_self _

/-- Settles O59: what has not been touched reads as its default. -/
theorem resetState : Obligations.ResetState := by
  refine ⟨rfl, rfl, rfl, rfl, rfl, fun q => rfl, rfl, fun a => rfl, fun a => rfl, fun c n => ?_,
    fun c => ⟨rfl, rfl, rfl, rfl, rfl, rfl, rfl, rfl, rfl, rfl, Core.context_default, fun i => rfl⟩,
    fun d => ⟨rfl, rfl, fun i => rfl⟩⟩
  exact ⟨rfl, rfl, rfl, rfl, rfl, rfl, rfl, rfl, State.gprAt_reset c n, State.vecAt_reset c n, fun r => rfl, fun p => rfl⟩

end Sys2Proof.Machine
end

section
/-!
SUPPORT. A vector instruction enters its slot's latch: its result is in the slot, or with its shared writes in the latch, and its
events wait for its start (R19, R127, R128, R165, R355).
-/
namespace Sys2Proof.Machine

/-! What an issuing instruction changes of its own core. -/

/-- The issuing slot becomes x, and its core's queue of events and its latch grow; but for the agenda nothing else differs. -/
structure State.Enters (s t : State) (x : Slot) (events : List EvcWrite) (latch : List (Nat × Nat × List ShWrite)) : Prop where
  rest : { t with cores := [], agenda := [] } = { s with cores := [], agenda := [] }
  slot : t.slot s.ic s.is = x
  slots : ∀ n, n ≠ s.is → t.slot s.ic n = s.slot s.ic n
  core : ∀ c, c ≠ s.ic → t.core c = s.core c
  own : { t.core s.ic with slots := [] } =
    { s.core s.ic with slots := [], evcs := (s.core s.ic).evcs ++ events, latch := (s.core s.ic).latch ++ latch }

namespace State.Enters
variable {s t u : State} {x y : Slot} {ev ev' : List EvcWrite} {la la' : List (Nat × Nat × List ShWrite)}

section reads
variable (h : s.Enters t x ev la)
include h

theorem issue : t.issue = s.issue := (congrArg State.issue h.rest :)
theorem cycle : t.cycle = s.cycle := (congrArg State.cycle h.rest :)
theorem ic : t.ic = s.ic := congrArg Issue.core h.issue
theorem is : t.is = s.is := congrArg Issue.slot h.issue
theorem evcs : (t.core s.ic).evcs = (s.core s.ic).evcs ++ ev := (congrArg Core.evcs h.own :)
theorem latch : (t.core s.ic).latch = (s.core s.ic).latch ++ la := (congrArg Core.latch h.own :)
theorem vfree : (t.core s.ic).vfree = (s.core s.ic).vfree := (congrArg Core.vfree h.own :)
theorem banks : (t.core s.ic).banks = (s.core s.ic).banks := (congrArg Core.banks h.own :)
theorem me : t.me = x := by rw [State.me, h.ic, h.is, h.slot]

theorem now (e : Instr) (l : List Nat) : s.Enters (t.now e l) x ev la := ⟨h.rest, h.slot, h.slots, h.core, h.own⟩

/-! The registers that the issuing slot reads. -/

theorem pred (p : x.p = s.me.p) (r : Pr) : t.pred r = s.pred r := State.pred_congr h.issue (by rw [h.slot, p]) r
theorem cap (k : x.k = s.me.k) (r : Kr) : t.cap r = s.cap r := State.cap_congr h.issue (by rw [h.slot, k]) r

theorem gpr (bank : x.bank = s.me.bank) {r : Gpr}
    (g : r.toNat < 32 → SMap.get x.g r.toNat 0 = SMap.get s.me.g r.toNat 0) : t.gpr r = s.gpr r :=
  State.gpr_congr h.issue h.banks (by rw [h.slot, bank]) (by rwa [h.slot])

theorem vec (bank : x.bank = s.me.bank) {r : Vr}
    (v : r.toNat < 32 → SMap.get x.v r.toNat 0 = SMap.get s.me.v r.toNat 0) : t.vec r = s.vec r := by
  rw [State.vec, State.vecAt, h.ic, h.is, h.slot, bank, State.bankW_congr h.banks]
  by_cases own : r.toNat < 32
  · rw [if_pos own, v own]
    exact (if_pos own).symm
  · rw [if_neg own]
    exact (if_neg own).symm

theorem gpr_own {r : Gpr} (nonzero : r ≠ 0) (own : r.toNat < 32) : t.gpr r = SMap.get x.g r.toNat 0 := by
  rw [State.gpr, State.gprAt, if_neg nonzero, if_pos own, ← State.me, h.me]
theorem vec_own {r : Vr} (own : r.toNat < 32) : t.vec r = SMap.get x.v r.toNat 0 := by
  rw [State.vec, State.vecAt, if_pos own, ← State.me, h.me]

end reads

theorem refl (s : State) : s.Enters s s.me [] [] := ⟨rfl, rfl, fun _ _ => rfl, fun _ _ => rfl, by simp⟩

theorem trans (a : s.Enters t x ev la) (b : t.Enters u y ev' la') : s.Enters u y (ev ++ ev') (la ++ la') := by
  obtain ⟨rest, slot, slots, core, own⟩ := b
  rw [a.ic] at slot slots core own
  rw [a.is] at slot slots
  refine ⟨rest.trans a.rest, slot, fun n h => (slots n h).trans (a.slots n h), fun c h => (core c h).trans (a.core c h), ?_⟩
  rw [own, a.evcs, a.latch, List.append_assoc, List.append_assoc]
  exact congrArg (fun k : Core => { k with evcs := (s.core s.ic).evcs ++ (ev ++ ev')
                                           latch := (s.core s.ic).latch ++ (la ++ la') }) a.own

theorem onSlot (s : State) (f : Slot → Slot) : s.Enters (s.onSlot s.ic s.is f) (f s.me) [] [] :=
  ⟨rfl, s.slot_onSlot .., fun _ h => s.slot_onSlot_ne h f, fun _ h => s.core_onSlot_ne h _ f, by
    rw [State.core_onSlot, Core.setSlot, List.append_nil, List.append_nil]⟩

theorem thenOnSlot (h : s.Enters t x ev la) (f : Slot → Slot) : s.Enters (t.onSlot t.ic t.is f) (f x) ev la := by
  have whole := h.trans (onSlot t f)
  rwa [h.me, List.append_nil, List.append_nil] at whole

theorem onCore (s : State) {f : Core → Core} (queues : ∀ k, f k = { k with evcs := k.evcs ++ ev, latch := k.latch ++ la }) :
    s.Enters (s.onCore s.ic f) s.me ev la :=
  ⟨rfl, s.slot_onCore _ _ (by rw [queues]) .., fun n _ => s.slot_onCore _ _ (by rw [queues]) ..,
    fun _ h => s.core_onCore_ne h f, by rw [State.core_onCore, queues]⟩

end State.Enters

/-! The events of an instruction. -/

/-- The events that wait for a commit clock. -/
def Fl.waiting (f : Fl) (clock slot : Nat) : List EvcWrite := if f.counts = [] then [] else [⟨clock, slot, f.counts, 0⟩]

theorem State.Enters.eventsAt (s : State) (clock : Nat) (fl : Fl) :
    s.Enters (s.eventsAt clock fl.counts) s.me (fl.waiting clock s.is) [] := by
  by_cases none_ : fl.counts = []
  · simpa [State.eventsAt, Fl.waiting, none_] using refl s
  · simpa [State.eventsAt, Fl.waiting, none_] using onCore s (la := []) fun k => by rw [List.append_nil]

theorem State.CoresOnly.eventsAt (s : State) (clock : Nat) (l : List (Nat × Nat)) : s.CoresOnly (s.eventsAt clock l) :=
  .ite (.refl s) (.onCore ..)

/-! The latch. -/

/-- The slot whose instruction is in the latch: its results can be read once the vector unit has started it (R19). -/
def Slot.latched (t : Slot) : Slot := { t with vready := 2 ^ 70, before := t.before.map fun b => (2 ^ 70, b.2) }

/-- The instruction of the issuing slot waits in the latch with its shared writes. -/
def State.inLatch (s : State) (ws : List ShWrite) : State :=
  (s.onSlot s.ic s.is Slot.latched).onCore s.ic fun k => { k with latch := k.latch ++ [(s.cycle, s.is, ws)] }

theorem State.startVector_eq (s : State) (ws : List ShWrite) :
    s.startVector ws = if ((s.inLatch ws).core s.ic).vfree ≤ s.cycle then (s.inLatch ws).now .vectorStart [s.ic]
      else s.inLatch ws := rfl

theorem State.Enters.inLatch (s : State) (ws : List ShWrite) :
    s.Enters (s.inLatch ws) s.me.latched [] [(s.cycle, s.is, ws)] := by
  have slot := onSlot s Slot.latched
  have queue := onCore (s.onSlot s.ic s.is Slot.latched) (ev := []) (la := [(s.cycle, s.is, ws)])
    (f := fun k => { k with latch := k.latch ++ [(s.cycle, s.is, ws)] }) fun k => by rw [List.append_nil]
  rw [slot.me] at queue
  exact slot.trans queue

theorem State.Enters.startVector (s : State) (ws : List ShWrite) :
    s.Enters (s.startVector ws) s.me.latched [] [(s.cycle, s.is, ws)] := by
  rw [State.startVector_eq]
  split
  · exact (inLatch s ws).now ..
  · exact inLatch s ws

/-- The instruction starts at once if the vector unit is free (R165). -/
theorem State.agenda_startVector (s : State) (ws : List ShWrite) : (s.startVector ws).agenda =
    (if (s.core s.ic).vfree ≤ s.cycle then [⟨.vectorStart, [s.ic]⟩] else []) ++ s.agenda := by
  rw [State.startVector_eq, (Enters.inLatch s ws).vfree]
  split <;> rfl

/-- An instruction that is in the latch completes: the slot goes on at the next start. -/
theorem State.Enters.retire {s : State} (alone : Spec.Alone s) (off : s.me.step = false) :
    s.Enters s.retire (s.me.completed s.issue.next) [] [] := by
  have goesOn : s.retire = s.onSlot s.ic s.is (·.completed s.issue.next) :=
    State.retireAt_goesOn s.issue.start s.issue.next alone (by rw [← State.me, off]; rfl)
  exact goesOn ▸ onSlot s _

/-- What a vector instruction leaves as it was, whatever its destination, and how its slot waits for the start (R19, R165). -/
def State.LeavesToLatch (s t : State) : Prop :=
  (∀ r, t.pred r = s.pred r) ∧ (∀ r, t.cap r = s.cap r) ∧ t.me.pc = s.issue.next ∧ s.cycle < t.me.vready ∧
  (∀ n, n ≠ s.is → t.slot s.ic n = s.slot s.ic n) ∧ (∀ c, c ≠ s.ic → t.core c = s.core c) ∧
  t.agenda = (if (s.core s.ic).vfree ≤ s.cycle then [⟨.vectorStart, [s.ic]⟩] else []) ++ s.agenda ∧
  { t with cores := [], agenda := [] } = { s with cores := [], agenda := [] }

section issued
variable {s u : State} {x : Slot} {ev : List EvcWrite} (own : s.Enters u x ev []) (cores : s.CoresOnly u)
  (off : x.step = false) (alone : x.lead = true → x.doing = none)
include own off alone

/-- An instruction that has changed its slot enters the latch and completes. -/
theorem State.Enters.issued (ws : List ShWrite) :
    s.Enters (u.startVector ws).retire (x.latched.completed s.issue.next) ev [(s.cycle, s.is, ws)] := by
  have latched := startVector u ws
  rw [own.me] at latched
  have retired := retire (s := u.startVector ws) (by rw [Spec.Alone, latched.me]; exact alone) (by rw [latched.me]; exact off)
  rw [latched.me, latched.issue, own.issue] at retired
  have whole := own.trans (latched.trans retired)
  rwa [List.append_nil, List.append_nil, own.cycle, own.is] at whole

include cores in
theorem State.leavesToLatch (early : s.cycle < 2 ^ 70) (p : x.p = s.me.p) (k : x.k = s.me.k) (ws : List ShWrite) :
    s.LeavesToLatch (u.startVector ws).retire := by
  have whole := own.issued off alone ws
  have agenda : (u.startVector ws).retire.agenda = (u.startVector ws).agenda :=
    (congrArg State.agenda (State.CoresOnly.retireAt ..) :)
  refine ⟨whole.pred p, whole.cap k, by rw [whole.me]; rfl, by rw [whole.me]; exact early, whole.slots, whole.core, ?_,
    whole.rest⟩
  rw [agenda, State.agenda_startVector, own.ic, own.vfree, own.cycle]
  exact congrArg _ (congrArg State.agenda cores :)

end issued

/-! The destinations. -/

section destination
variable (s : State) (fl : Fl)

theorem State.Enters.latchEvents : s.Enters (s.latchEvents fl) s.me (fl.waiting (2 ^ 70) s.is) [] := eventsAt ..
theorem State.CoresOnly.latchEvents : s.CoresOnly (s.latchEvents fl) := eventsAt ..

/-- A write of v[d]: one of the slot's own at once, a shared one through the latch (R127, R128). -/
theorem State.Enters.vecWrite (d : Vr) (x : Vec) (lanes : Pred) :
    let r := (s.latchEvents fl).vecWrite d x lanes
    ∃ v l, s.Enters r.1 { s.me with v := v, lanes := l } (fl.waiting (2 ^ 70) s.is) [] ∧ s.CoresOnly r.1 ∧
      (∀ j, j ≠ d.toNat → SMap.get v j 0 = SMap.get s.me.v j 0) ∧
      (d.toNat < 32 → SMap.get v d.toNat 0 = x ∧ r.2 = []) ∧
      (32 ≤ d.toNat → v = s.me.v ∧ r.2 = [⟨0, s.is, s.me.bank, true, d.toNat - 32, 0, x, lanes⟩]) := by
  intro r
  have counted := latchEvents s fl
  have cores := CoresOnly.latchEvents s fl
  by_cases own : d.toNat < 32
  · have takes : r = (((s.latchEvents fl).putVecAt _ _ d x 0 lanes).onSlot _ _ fun t => { t with lanes := lanes }, []) :=
      if_pos own
    have written := (counted.thenOnSlot fun t => { t with v := SMap.set t.v d.toNat x }).thenOnSlot fun t =>
      { t with lanes := lanes }
    rw [State.putVecAt, if_pos own] at takes
    rw [takes]
    exact ⟨_, _, written, cores.trans ((CoresOnly.onSlot ..).trans (.onSlot ..)), fun _ other => SMap.get_set_ne _ other _ _,
      fun _ => ⟨SMap.get_set .., rfl⟩, fun high => absurd own (Nat.not_lt.2 high)⟩
  · have shared : r = _ := if_neg own
    rw [shared, counted.is, counted.me]
    exact ⟨_, _, counted, cores, fun _ _ => rfl, fun low => absurd low own, fun _ => ⟨rfl, rfl⟩⟩

/-- A write of g[d], the same way; of g0 it is discarded (R110). -/
theorem State.Enters.gprWrite (d : Gpr) (x : Word) :
    let r := (s.latchEvents fl).gprWrite d x
    ∃ g, s.Enters r.1 { s.me with g := g } (fl.waiting (2 ^ 70) s.is) [] ∧ s.CoresOnly r.1 ∧
      (∀ j, j ≠ d.toNat → SMap.get g j 0 = SMap.get s.me.g j 0) ∧
      (d ≠ 0 → d.toNat < 32 → SMap.get g d.toNat 0 = x) ∧
      (32 ≤ d.toNat → g = s.me.g ∧ r.2 = [⟨0, s.is, s.me.bank, false, d.toNat - 32, x, 0, 0⟩]) := by
  intro r
  have counted := latchEvents s fl
  have cores := CoresOnly.latchEvents s fl
  by_cases own : d.toNat < 32
  · have takes : r = ((s.latchEvents fl).putGprAt _ _ d x 0, []) := if_pos own
    rw [State.putGprAt, if_pos own] at takes
    rw [takes]
    by_cases zero : d = 0
    · rw [if_pos zero]
      exact ⟨_, counted, cores, fun _ _ => rfl, fun nonzero => absurd zero nonzero, fun _ => absurd own (by omega)⟩
    · rw [if_neg zero]
      have written := counted.thenOnSlot fun t => { t with g := SMap.set t.g d.toNat x }
      exact ⟨_, written, cores.trans (.onSlot ..), fun _ other => SMap.get_set_ne _ other _ _, fun _ _ => SMap.get_set ..,
        fun high => absurd own (Nat.not_lt.2 high)⟩
  · have shared : r = _ := if_neg own
    rw [shared, counted.is, counted.me]
    exact ⟨_, counted, cores, fun _ _ => rfl, fun _ low => absurd low own, fun _ => ⟨rfl, rfl⟩⟩

end destination

/-- Settles O19: the destination and its register by where it lies, and the rest by what an instruction in the latch leaves. -/
theorem vectorResults : Obligations.VectorResults := by
  intro s d g x y lanes fl off alone v w quiet counted early
  obtain ⟨v', l, own, cores, others, own_reads, shared⟩ := State.Enters.vecWrite s fl d x lanes
  obtain ⟨g', own', cores', others', own_reads', shared'⟩ := State.Enters.gprWrite s fl g y
  have leaves : quiet v := State.leavesToLatch own cores off alone early rfl rfl _
  have leaves' : quiet w := State.leavesToLatch own' cores' off alone early rfl rfl _
  have whole : s.Enters v _ _ _ := own.issued off alone _
  have whole' : s.Enters w _ _ _ := own'.issued off alone _
  refine ⟨leaves, leaves', whole.evcs, whole'.evcs, (State.Enters.eventsAt s _ fl).evcs, fun r => whole.gpr rfl fun _ => rfl,
    fun r other => whole.vec rfl fun _ => others _ (BitVec.toNat_injective.ne other), fun r => whole'.vec rfl fun _ => rfl,
    fun r other => whole'.gpr rfl fun _ => others' _ (BitVec.toNat_injective.ne other), fun low => ?_, fun high => ?_,
    fun nonzero low => (whole'.gpr_own nonzero low).trans (own_reads' nonzero low), fun high => ?_⟩
  · obtain ⟨written, empty⟩ := own_reads low
    rw [whole.latch, empty]
    exact ⟨(whole.vec_own low).trans written, rfl⟩
  · obtain ⟨unwritten, queue⟩ := shared high
    rw [whole.latch, queue]
    exact ⟨whole.vec rfl fun _ => by rw [unwritten]; rfl, rfl⟩
  · obtain ⟨unwritten, queue⟩ := shared' high
    rw [whole'.latch, queue]
    exact ⟨whole'.gpr rfl fun _ => by rw [unwritten]; rfl, rfl⟩

end Sys2Proof.Machine
end

section
/-!
SUPPORT. Control registers: where a number leads, what a read shows and clears, when a write is refused, and the event counters
(R116, R135–R140, R355, R356, R373).
-/
namespace Sys2Proof.Machine
open Spec

/-! Where a number leads (R135). -/

section csrAt
variable {own n m r : Nat}

theorem csrAt_own (reg : r < 12) : csrAt own r = .slot own r := if_pos reg

theorem csrAt_slot (slot : m < 16) (reg : r < 12) : csrAt own (0x100 + 16 * m + r) = .slot m r := by
  have number : (0x100 + 16 * m + r) / 16 % 16 = m := by omega
  have register : (0x100 + 16 * m + r) % 16 = r := by omega
  rw [csrAt, if_neg (by omega), if_pos (by omega), number, register, if_pos reg]

theorem csrAt_core (lo : 0x200 ≤ n) (hi : n < 0x240) : csrAt own n = .core n := by
  rw [csrAt, if_neg (by omega), if_neg (by omega), if_pos ⟨lo, hi⟩]

theorem csrAt_die (lo : 0x300 ≤ n) (hi : n < 0x308) : csrAt own n = .die n := by
  rw [csrAt, if_neg (by omega), if_neg (by omega), if_neg (by omega), if_pos ⟨lo, hi⟩]

theorem csrAt_eq_bad : csrAt own n = .bad ↔ NoCsr n := by
  unfold csrAt
  split_ifs <;> simp <;> omega

theorem csrAt_eq_core (leads : csrAt own n = .core m) : n = m := by
  unfold csrAt at leads
  split_ifs at leads
  exact CsrAt.core.inj leads

theorem supNumber_iff : supNumber n = true ↔ 0x100 ≤ n ∧ n < 0x200 := by
  simp [supNumber]

/-- Of the numbers that name a register, those of another slot are 100H to 1FFH (R135). -/
theorem slotCsr_iff (named : ¬NoCsr n) : SlotCsr n ↔ supNumber n = true := by
  rw [supNumber_iff]
  omega

end csrAt

/-! Reads (R135–R140, R373). -/

section reads
variable {s : State} {d : Gpr} {i : Imm} {at_ : CsrAt} {v : Nat}

/-- `CSRR` of a register that the slot may read. -/
theorem exec_csrr_of_at (leads : csrAt s.is i.val = at_) (named : at_ ≠ .bad) (may : supNumber i.val = true → s.is = 15) :
    exec (.csrr d i) s = guardedNext s ((s.putGpr d (BitVec.ofNat 64 (s.csrValue at_))).readClears at_).retire := by
  rw [exec_csrr, execCsrr, leads, if_neg named, if_neg fun h => h.2 (may h.1)]
  rfl

theorem State.readClears_shwloss (s : State) :
    s.readClears (.core 0x20A) = s.onCore s.ic fun k => { k with shwloss := 0 } := rfl
theorem State.readClears_counters (s : State) :
    s.readClears (.core 0x211) = s.onCore s.ic fun k => { k with arbw := 0, tldw := 0 } := rfl
theorem State.putGpr_ic (s : State) (d : Gpr) (x : Word) : (s.putGpr d x).ic = s.ic := congrArg Issue.core (s.putGpr_issue d x)

theorem State.readClears_of_keeps (shwloss : at_ ≠ .core 0x20A) (counters : at_ ≠ .core 0x211) : s.readClears at_ = s := by
  unfold State.readClears
  split
  · exact absurd rfl shwloss
  · exact absurd rfl counters
  · rfl

/-- `CSRR` of a register that a read leaves as it is. -/
theorem exec_csrr_reads (leads : csrAt s.is i.val = at_) (named : at_ ≠ .bad) (may : supNumber i.val = true → s.is = 15)
    (shwloss : at_ ≠ .core 0x20A) (counters : at_ ≠ .core 0x211) (shows : s.csrValue at_ = v) :
    exec (.csrr d i) s = guardedNext s (put s d (BitVec.ofNat 64 v)) := by
  rw [exec_csrr_of_at leads named may, State.readClears_of_keeps shwloss counters, shows]

theorem exec_csrr_core {n : Nat} (num : i.val = n) (lo : 0x200 ≤ n) (hi : n < 0x240) (shwloss : n ≠ 0x20A)
    (counters : n ≠ 0x211) (shows : s.coreReg s.ic n = v) : exec (.csrr d i) s = guardedNext s (put s d (BitVec.ofNat 64 v)) := by
  subst num
  exact exec_csrr_reads (csrAt_core lo hi) nofun (fun sup => absurd (supNumber_iff.1 sup).2 (by omega))
    (fun same => shwloss (CsrAt.core.inj same)) (fun same => counters (CsrAt.core.inj same)) shows

theorem exec_csrr_die {n : Nat} (num : i.val = n) (lo : 0x300 ≤ n) (hi : n < 0x308) (shows : s.dieReg s.ic n = v) :
    exec (.csrr d i) s = guardedNext s (put s d (BitVec.ofNat 64 v)) := by
  subst num
  exact exec_csrr_reads (csrAt_die lo hi) nofun (fun sup => absurd (supNumber_iff.1 sup).2 (by omega)) nofun nofun shows

/-- A slot's registers by number (R136). -/
theorem State.slotReg_of_mem {c n : Nat} {p : Nat × Nat} (listed : p ∈ slotWords s c n) :
    p.1 < 12 ∧ s.slotReg c n p.1 = p.2 := by
  simp only [slotWords, List.mem_cons, List.not_mem_nil, or_false] at listed
  rcases listed with rfl | rfl | rfl | rfl | rfl | rfl | rfl | rfl | rfl | rfl | rfl | rfl <;> exact ⟨by norm_num, rfl⟩

/-- The reserved numbers of a core and its event counters (R138). -/
theorem State.coreReg_high (c : Nat) {n : Nat} (high : 0x14 ≤ n) :
    s.coreReg c (0x200 + n) = if 0x20 ≤ n ∧ n < 0x30 then SMap.get (s.core c).evcSeen (n - 0x20) 0 else 0 := by
  unfold State.coreReg
  rw [Nat.add_sub_cancel_left]
  dsimp only
  split
  case h_21 => rfl
  all_goals omega

end reads

/-! `ROTMASK` (R42, R250). -/

theorem State.runAt_eq_running {s : State} {c n : Nat} : s.runAt c n = .running ↔ InRotation s c n := by
  by_cases runs : (s.slot c n).run = .running
  · have stands : s.standsFor c n = (pairMate (s.slot c n) n).getD n := if_pos (beq_iff_eq.2 runs)
    rw [State.runAt, stands]
    cases mate : pairMate (s.slot c n) n with
    | none => simp [InRotation, runs, mate]
    | some m => simp [InRotation, runs, mate]
  · have stands : s.standsFor c n = n := if_neg fun h => runs (beq_iff_eq.1 h)
    rw [State.runAt, stands]
    exact iff_of_false runs fun h => runs h.1

/-- The mask of the numbers below k that have a property. -/
theorem testBit_foldl_mask (p : Nat → Prop) [DecidablePred p] (k : Nat) :
    let mask := (below k).foldl (fun m n => if p n then m + 2 ^ n else m) 0
    mask < 2 ^ k ∧ ∀ m, m < k → (mask.testBit m = true ↔ p m) := by
  induction k with
  | zero => exact ⟨Nat.one_pos, fun m h => absurd h (Nat.not_lt_zero m)⟩
  | succ k ih =>
    obtain ⟨small, bits⟩ := ih
    rw [below_eq_range] at small bits ⊢
    rw [List.range_succ, List.foldl_append, List.foldl_cons, List.foldl_nil]
    generalize (List.range k).foldl (fun m n => if p n then m + 2 ^ n else m) 0 = x at small bits
    have top : x.testBit k = false := Nat.testBit_lt_two_pow small
    refine ⟨by split <;> rw [Nat.pow_succ] <;> omega, fun m h => ?_⟩
    rcases Nat.lt_succ_iff_lt_or_eq.1 h with lower | rfl
    · rw [← bits m lower]
      split
      · rw [Nat.add_comm, Nat.testBit_two_pow_add_gt lower]
      · rfl
    · split
      · next yes => rw [Nat.add_comm, Nat.testBit_two_pow_add_eq, top]; exact iff_of_true rfl yes
      · next no => rw [top]; exact iff_of_false Bool.false_ne_true no

/-! What a read clears (R138). -/

section readClears
variable (s : State) (a : CsrAt)

theorem State.CoresOnly.readClears : s.CoresOnly (s.readClears a) := by
  unfold State.readClears
  split
  · exact .onCore ..
  · exact .onCore ..
  · exact .refl s

theorem State.gpr_readClears (r : Gpr) : (s.readClears a).gpr r = s.gpr r := by
  have cleared (f : Core → Core) (banks : ∀ k, (f k).banks = k.banks) (slots : ∀ k, (f k).slots = k.slots) :
      (s.onCore s.ic f).gpr r = s.gpr r := by
    have slot := s.slot_onCore s.ic f (slots _) s.ic s.is
    exact State.gpr_congr (s := s) (u := s.onCore s.ic f) rfl (State.core_onCore_keep s s.ic banks s.ic) (by rw [slot]; rfl)
      fun _ => by rw [slot]; rfl
  unfold State.readClears
  split
  · exact cleared _ (fun _ => rfl) fun _ => rfl
  · exact cleared _ (fun _ => rfl) fun _ => rfl
  · rfl

end readClears

/-! The event counters at a commit clock (R355, R356). -/

theorem SMap.get_filter {α : Type} (q : Nat → Bool) (m : SMap α) (k : Nat) (d : α) :
    SMap.get (m.filter fun p => q p.1) k d = if q k then SMap.get m k d else d := by
  induction m with
  | nil => exact (ite_self d).symm
  | cons p r ih =>
    obtain ⟨j, x⟩ := p
    by_cases here : j = k
    · subst here
      cases keep : q j with
      | true => simp [SMap.get, keep]
      | false => simpa [SMap.get, keep] using ih
    · cases keep : q j with
      | true => simpa [SMap.get, keep, here] using ih
      | false => simpa [SMap.get, keep, here] using ih

theorem bitOf_eq_testBit (x i : Nat) : bitOf x i = x.testBit i := by
  rw [bitOf, Nat.testBit_eq_decide_div_mod_eq]
  rfl

section commitEvcs
variable {s : State} {c : Nat}

theorem State.commitEvcs_of_later (later : ∀ w ∈ (s.core c).evcs, s.cycle < w.clock) : s.commitEvcs c = s := by
  have none_ : (s.core c).evcs.filter (fun w => w.clock ≤ s.cycle) = [] :=
    List.filter_eq_nil_iff.2 fun w h => by simpa using later w h
  simp only [State.commitEvcs, none_, List.isEmpty_nil, if_true]

/-- What one instruction adds or clears when it alone is due. -/
theorem State.commitEvcs_one {w : EvcWrite} (queue : (s.core c).evcs = [w]) (due : w.clock ≤ s.cycle) :
    s.commitEvcs c = (s.onCore c fun k => { k with evcs := [] }).applyEvc c w := by
  have takes : s.onCore c (fun k => { k with evcs := k.evcs.filter fun w => s.cycle < w.clock }) =
      s.onCore c fun k => { k with evcs := [] } := by
    simp [State.onCore, queue, due]
  by_cases clears : w.clear = 0
  · simp [State.commitEvcs, queue, due, takes, clears]
  · simp [State.commitEvcs, queue, due, takes, clears]

/-- `CNTCLR` clears the counters of its mask (R356). -/
theorem State.commitEvcs_clears {q m w : Nat} (queue : (s.core c).evcs = [⟨q, m, [], w⟩]) (due : q ≤ s.cycle)
    (mask : w < 2 ^ 16) :
    ∃ l, s.commitEvcs c = s.onCore c (fun k => { k with evcs := [], evc := l }) ∧
      ∀ j, SMap.get l j 0 = if w.testBit j then 0 else SMap.get (s.core c).evc j 0 := by
  rw [State.commitEvcs_one queue due, State.applyEvc, List.foldl_nil]
  by_cases clears : w = 0
  · rw [if_pos clears, clears]
    exact ⟨(s.core c).evc, rfl, fun j => by simp⟩
  · rw [if_neg clears, State.onCore_onCore]
    refine ⟨(s.core c).evc.filter fun p => !(p.1 < 16 && bitOf w p.1), rfl, fun j => ?_⟩
    rw [SMap.get_filter fun j => !(j < 16 && bitOf w j), bitOf_eq_testBit]
    cases bit : w.testBit j with
    | false => simp
    | true =>
      have low : j < 16 := (Nat.pow_lt_pow_iff_right (by decide)).1 ((Nat.ge_two_pow_of_testBit bit).trans_lt mask)
      simp [low]

/-- The events of an instruction are added to their counter, which sticks at all ones (R354, R355). -/
theorem State.commitEvcs_adds {q m j v : Nat} (queue : (s.core c).evcs = [⟨q, m, [(j, v)], 0⟩]) (due : q ≤ s.cycle) :
    s.commitEvcs c = s.onCore c fun k =>
      { k with evcs := [], evc := SMap.set k.evc j (min (SMap.get k.evc j 0 + v) (2 ^ 64 - 1)) } := by
  rw [State.commitEvcs_one queue due, State.applyEvc, List.foldl_cons, List.foldl_nil, if_pos rfl, State.count,
    State.onCore_onCore]

end commitEvcs

theorem controlRegisterReads : ControlRegisterReads := by
  intro s d a i n c k x reads stops plain
  refine ⟨fun named may => ?_, fun bad => if_pos (csrAt_eq_bad.2 bad), fun strand slot => ?_, fun p listed num => ?_,
    fun m p low sup listed num => ?_, fun p listed num => ?_, fun j low num => ?_, fun range => ?_, fun num => ?_, fun num => ?_,
    fun num => ?_, rfl, fun strand => if_neg strand, fun sup => ?_, fun q m w queue due mask => ?_, fun q m j v queue due => ?_,
    State.commitEvcs_of_later⟩
  · have keeps {m : Nat} (other : i.val ≠ m) : csrAt s.is i.val ≠ .core m := fun leads => other (csrAt_eq_core leads)
    exact ⟨_, _, exec_csrr_of_at rfl (mt csrAt_eq_bad.1 named) fun sup => may ((slotCsr_iff named).2 sup),
      (State.CoresOnly.putGpr ..).trans (.readClears ..),
      fun r other => (State.gpr_readClears ..).trans (s.gpr_putGpr_of_unchanged _ (.inl other)),
      fun nonzero own => (State.gpr_readClears ..).trans (s.gpr_putGpr_same _ nonzero own),
      fun shwloss counters => State.readClears_of_keeps (keeps shwloss) (keeps counters)⟩
  · have named : csrAt s.is i.val ≠ .bad := fun bad => by have := csrAt_eq_bad.1 bad; omega
    exact (if_neg named).trans (if_pos ⟨supNumber_iff.2 ⟨slot.1, slot.2.1⟩, strand⟩)
  · obtain ⟨reg, shows⟩ := State.slotReg_of_mem listed
    have leads : csrAt s.is i.val = .slot s.is p.1 := by rw [num, csrAt_own reg]
    have own : ¬supNumber i.val = true := fun sup => by have := supNumber_iff.1 sup; omega
    exact exec_csrr_reads leads nofun (fun sup => absurd sup own) nofun nofun shows
  · obtain ⟨reg, shows⟩ := State.slotReg_of_mem listed
    have leads : csrAt s.is i.val = .slot m p.1 := by rw [num, csrAt_slot low reg]
    exact exec_csrr_reads leads nofun (fun _ => sup) nofun nofun shows
  · obtain ⟨n, v⟩ := p
    change i.val = n at num
    simp only [plain, List.mem_cons, List.not_mem_nil, or_false, Prod.mk.injEq] at listed
    rcases listed with h | h | h | h | h | h | h | h | h | h | h | h | h | h | h | h | h | h | h | h | h <;>
      obtain ⟨rfl, rfl⟩ := h
    -- fourteen registers of the core, then seven of the die
    iterate 14 exact exec_csrr_core num (by decide) (by decide) (by decide) (by decide) rfl
    iterate 7 exact exec_csrr_die num (by decide) (by decide) rfl
  · refine exec_csrr_core num (by omega) (by omega) (by omega) (by omega) ?_
    rw [show 0x220 + j = 0x200 + (0x20 + j) by omega, State.coreReg_high _ (by omega), if_pos (by omega), Nat.add_sub_cancel_left]
  · refine exec_csrr_core rfl (by omega) (by omega) (by omega) (by omega) ?_
    rw [show i.val = 0x200 + (i.val - 0x200) by omega, State.coreReg_high _ (by omega), if_neg (by omega)]
  · obtain ⟨small, bits⟩ := testBit_foldl_mask (fun n => s.runAt c n = .running) 16
    exact ⟨s.rotmask c, exec_csrr_core num (by decide) (by decide) (by decide) (by decide) rfl, small,
      fun m low => (bits m low).trans State.runAt_eq_running⟩
  · have leads : csrAt s.is i.val = .core 0x20A := by rw [num]; rfl
    have shows : s.csrValue (.core 0x20A) = k.shwloss := rfl
    rw [exec_csrr_of_at leads nofun fun sup => absurd (num ▸ sup) (by decide), shows, State.readClears_shwloss, s.putGpr_ic]
  · have leads : csrAt s.is i.val = .core 0x211 := by rw [num]; rfl
    have shows : s.csrValue (.core 0x211) = k.arbw * 2 ^ 32 + k.tldw := rfl
    rw [exec_csrr_of_at leads nofun fun sup => absurd (num ▸ sup) (by decide), shows, State.readClears_counters, s.putGpr_ic]
  · have mask : bitsOf (s.gpr a).toNat 0 16 = (s.gpr a).toNat % 2 ^ 16 := by simp [bitsOf]
    rw [exec_cntclr, execCntclr, State.supOnly, if_pos sup, mask, sup]
    rfl
  · obtain ⟨l, commits, counters⟩ := State.commitEvcs_clears queue due mask
    rw [commits]
    refine ⟨_, rfl, rfl, ?_, fun j => ?_⟩
    · rw [State.core_onCore]
    · rw [State.core_onCore]
      exact counters j
  · rw [State.commitEvcs_adds queue due]
    refine ⟨_, rfl, ?_⟩
    rw [State.core_onCore]
    exact ⟨rfl, SMap.get_set .., fun j' other => SMap.get_set_ne _ other _ _⟩

end Sys2Proof.Machine
end

section
/-!
SUPPORT. Writes of control registers: when one is accepted, and what it does at its commit clock (R90, R116, R127, R135–R138,
R141, R373).
-/
namespace Sys2Proof.Machine
open Spec

/-! Acceptance (R116, R135, R373). -/

theorem not_noCsr_of_supCsr {n : Nat} (sup : SupCsr n) : ¬NoCsr n := by
  simp only [SupCsr, List.mem_cons, List.not_mem_nil, or_false] at sup
  omega

/-- The registers that only the supervisor writes are those of another slot and those that `supWrite` marks. -/
theorem supCsr_iff {own n : Nat} (named : ¬NoCsr n) : SupCsr n ↔ (supWrite (csrAt own n) || supNumber n) = true := by
  simp only [Bool.or_eq_true, supNumber_iff, SupCsr, List.mem_cons, List.not_mem_nil, or_false]
  by_cases slot : n < 0xC
  · simp only [csrAt_own slot, supWrite, supSlotReg, Bool.or_eq_true, beq_iff_eq]
    omega
  by_cases other : n < 0x200
  · omega
  by_cases core : n < 0x240
  · simp only [csrAt_core (not_lt.1 other) core, supWrite, Bool.or_eq_true, Bool.and_eq_true, beq_iff_eq, decide_eq_true_eq]
    omega
  · simp only [csrAt_die (n := n) (by omega) (by omega), supWrite, decide_eq_true_eq]
    omega

theorem exec_of_mem_csrWriters {a : Gpr} {i : Imm} {e : Instr} (writer : e ∈ csrWriters a i) (s : State) :
    exec e s = s.csrw i.val (s.gpr a) := by
  simp only [csrWriters, List.mem_cons, List.not_mem_nil, or_false] at writer
  rcases writer with rfl | rfl | rfl | rfl | rfl | rfl | rfl | rfl <;> rfl

theorem controlRegisterWrites : ControlRegisterWrites := by
  intro s a i e writer
  rw [exec_of_mem_csrWriters writer]
  refine ⟨fun bad => if_pos (csrAt_eq_bad.2 bad), fun strand sup => ?_, fun named may => ?_⟩
  · have named := not_noCsr_of_supCsr sup
    exact (if_neg (mt csrAt_eq_bad.1 named)).trans (if_pos ⟨strand, (supCsr_iff named).1 sup⟩)
  · exact (if_neg (mt csrAt_eq_bad.1 named)).trans (if_neg fun h => h.1 (may ((supCsr_iff named).2 h.2)))

/-! What one write does (R136–R138, R141). -/

section applyCsr
variable (s : State) (c : Nat) {w : CsrWrite} {m r : Nat}

theorem State.applyCsr_slot (leads : csrAt w.slot w.num = .slot m r) : s.applyCsr c w =
    if r = 0xB then s.writeCtxbase c m w.value.toNat else if r = 6 then s.writeSeed c m w.value
    else s.writeSlotReg c m r w.value.toNat := by
  simp only [State.applyCsr, leads]

/-- The registers of a core but `URGLIM`, `LOGSIZE` and `MIRSIZE`. -/
theorem State.applyCsr_core (leads : csrAt w.slot w.num = .core m) (urglim : m ≠ 0x209) (logsize : m ≠ 0x20F)
    (mirsize : m ≠ 0x210) : s.applyCsr c w =
      if 0x220 ≤ m ∧ m < 0x230 then s.onCore c fun k => k.writeEvc (m - 0x220) w.value.toNat else s := by
  simp only [State.applyCsr, leads]

theorem State.applyCsr_urglim (num : w.num = 0x209) :
    s.applyCsr c w = s.onCore c fun k => k.writeUrglim w.value.toNat := by
  simp only [State.applyCsr, num, csrAt_core (own := w.slot) (n := 0x209) (by decide) (by decide)]
theorem State.applyCsr_logsize (num : w.num = 0x20F) :
    s.applyCsr c w = s.onLog c fun l => l.writeSize w.value.toNat := by
  simp only [State.applyCsr, num, csrAt_core (own := w.slot) (n := 0x20F) (by decide) (by decide)]
theorem State.applyCsr_mirsize (num : w.num = 0x210) :
    s.applyCsr c w = s.onCore c fun k => k.writeMirsize w.value.toNat := by
  simp only [State.applyCsr, num, csrAt_core (own := w.slot) (n := 0x210) (by decide) (by decide)]

theorem State.applyCsr_die (leads : csrAt w.slot w.num = .die m) : s.applyCsr c w =
    if m = 0x307 then s.onDie (posDie c) fun x => x.writeRect w.value.toNat
    else if 0x303 ≤ m ∧ m < 0x307 then s.onDie (posDie c) fun x => x.writeWin (m - 0x303) w.value.toNat
    else s := by
  simp only [State.applyCsr, leads]

theorem State.applyCsr_bad (leads : csrAt w.slot w.num = .bad) : s.applyCsr c w = s := by
  simp only [State.applyCsr, leads]

end applyCsr

/-- The one write that is due takes effect, and the others wait (R127). -/
theorem State.commitCsrs_one {s : State} {c : Nat} {w : CsrWrite} {rest : List CsrWrite} (queue : (s.core c).csrs = w :: rest)
    (due : w.clock ≤ s.cycle) (later : ∀ x ∈ rest, s.cycle < x.clock) :
    s.commitCsrs c = (s.onCore c fun k => { k with csrs := rest }).applyCsr c w := by
  have waits : rest.filter (fun x => x.clock ≤ s.cycle) = [] := List.filter_eq_nil_iff.2 fun x h => by simpa using later x h
  have stays : rest.filter (fun x => s.cycle < x.clock) = rest := List.filter_eq_self.2 fun x h => by simpa using later x h
  have takes : s.onCore c (fun k => { k with csrs := k.csrs.filter fun x => s.cycle < x.clock }) =
      s.onCore c fun k => { k with csrs := rest } := by
    simp [State.onCore, queue, due, stays]
  simp [State.commitCsrs, queue, due, waits, takes]

/-! `CTXBASE` (R131, R136). -/

theorem State.cores_writeCap (s : State) (a : Nat) (x : Cap) : (s.writeCap a x).cores = s.cores := rfl
theorem State.cores_zeroMem (s : State) (a n : Nat) : (s.zeroMem a n).cores = s.cores := rfl

/-- An image goes into memory alone. -/
theorem State.cores_saveImage (s : State) (c n : Nat) (t : Slot) : (s.saveImage c n t).cores = s.cores := by
  have fold {l : List Nat} {g : State → Nat → State} (each : ∀ u i, (g u i).cores = u.cores) (u : State) :
      (l.foldl g u).cores = u.cores :=
    List.foldlRecOn (motive := fun v => v.cores = u.cores) l g rfl fun v h i _ => (each v i).trans h
  unfold State.saveImage
  dsimp only
  rw [State.cores_writeCap, State.cores_zeroMem, fold fun _ _ => State.writeMem_cores .., fold fun _ _ => State.writeMem_cores ..,
    fold fun _ _ => State.cores_writeCap .., fold fun _ _ => State.writeMem_cores .., fold fun _ _ => State.writeMem_cores ..]

section putAway
variable (s : State) (c n : Nat)

theorem State.slot_saveImage (t : Slot) (c' n' : Nat) : (s.saveImage c n t).slot c' n' = s.slot c' n' := by
  rw [State.slot, State.core, State.cores_saveImage]
  rfl

/-- The slot's strand is away, its image written if it has one and was not away before. -/
theorem State.slot_putAway : (s.putAway c n).slot c n = { s.slot c n with away := true } := by
  unfold State.putAway
  dsimp only
  split
  · next away => exact (congrArg (fun b => { s.slot c n with away := b }) away :)
  · split
    · rw [State.slot_onSlot, State.slot_saveImage]
    · rw [State.slot_onSlot]

theorem State.slot_putAway_ne {n' : Nat} (other : n' ≠ n) : (s.putAway c n).slot c n' = s.slot c n' := by
  unfold State.putAway
  dsimp only
  split
  · rfl
  · split
    · rw [State.slot_onSlot_ne _ other, State.slot_saveImage]
    · rw [State.slot_onSlot_ne _ other]

theorem State.mem_putAway (kept : (s.slot c n).away = true ∨ (s.slot c n).based = false) : (s.putAway c n).mem = s.mem := by
  unfold State.putAway
  dsimp only
  split
  · rfl
  · next stays =>
    rw [if_neg (Bool.eq_false_iff.1 (kept.resolve_left stays))]
    rfl

end putAway

/-- An image address that the slot may take (R136). -/
theorem State.writeCtxbase_takes (s : State) {c m v : Nat} (free : (s.slot c m).run = .empty ∨ (s.slot c m).run = .swapped)
    (fits : v / 2 ^ 12 % 2 ^ 19 * 2 ^ 12 + 0xA000 ≤ 2 ^ 31) (moves : v / 2 ^ 12 % 2 ^ 19 * 2 ^ 12 ≠ (s.slot c m).ctxbase) :
    let u := s.writeCtxbase c m v
    u.slot c m = { s.slot c m with ctxbase := v / 2 ^ 12 % 2 ^ 19 * 2 ^ 12, based := true, away := true } ∧
      (∀ n, n ≠ m → u.slot c n = s.slot c n) ∧ ((s.slot c m).away = true ∨ (s.slot c m).based = false → u.mem = s.mem) := by
  intro u
  have takes : u = (s.putAway c m).onSlot c m fun t => { t with ctxbase := v / 2 ^ 12 % 2 ^ 19 * 2 ^ 12, based := true } :=
    if_pos ⟨free, fits, moves⟩
  rw [takes]
  refine ⟨?_, fun n other => ?_, s.mem_putAway c m⟩
  · rw [State.slot_onSlot, State.slot_putAway]
  · rw [State.slot_onSlot_ne _ other, State.slot_putAway_ne s c m other]

theorem State.onLog_congr (s : State) (c : Nat) {f g : Log → Log} (same : f (s.core c).log = g (s.core c).log) :
    s.onLog c f = s.onLog c g := by
  simp only [State.onLog, State.onCore, same]

/-! The tables of a die (R141). -/

theorem Die.writeWin_eq (x : Die) (i v : Nat) :
    x.writeWin i v = if v / 2 ^ 12 % 2 ^ 28 * 2 ^ 12 % 2 ^ (v / 2 ^ 6 % 2 ^ 6) = 0 ∧
        (v % 2 = 1 → 12 ≤ v / 2 ^ 6 % 2 ^ 6 ∧ v / 2 ^ 6 % 2 ^ 6 ≤ 40)
      then { x with win := SMap.set x.win i (v / 64 * 64 + v % 2) } else x := by
  refine if_congr ?_ rfl rfl
  simp only [Bool.and_eq_true, Bool.or_eq_true, beq_iff_eq, Bool.not_eq_true', decide_eq_true_eq, imp_iff_not_or]
  simp only [bitOf, beq_eq_false_iff_ne, Nat.pow_zero, Nat.div_one, ne_eq]
  rfl

theorem controlRegisterCommits : ControlRegisterCommits := by
  intro s c w rest queue due later s1 k v becomes slotOf
  have commits : s.commitCsrs c = s1.applyCsr c w := State.commitCsrs_one queue due later
  have sets {r m : Nat} (reg : r < 12) (names : slotOf r m) : s.commitCsrs c =
      if r = 0xB then s1.writeCtxbase c m v else if r = 6 then s1.writeSeed c m w.value else s1.writeSlotReg c m r v := by
    refine commits.trans (s1.applyCsr_slot c ?_)
    rcases names with ⟨num, own⟩ | ⟨low, num⟩
    · rw [num, own, csrAt_own reg]
    · rw [num, csrAt_slot low reg]
  have core (lo : 0x200 ≤ w.num) (hi : w.num < 0x240) : csrAt w.slot w.num = .core w.num := csrAt_core lo hi
  have die (lo : 0x300 ≤ w.num) (hi : w.num < 0x308) : csrAt w.slot w.num = .die w.num := csrAt_die lo hi
  refine ⟨fun m => ⟨fun r reads names => ?_, fun names => ?_, sets (by decide), sets (by decide), sets (by decide),
    sets (by decide), fun names => ?_⟩, fun j low num => ?_, fun num => commits.trans (s1.applyCsr_urglim c num), fun num => ?_,
    fun num => ?_, fun j low num => ?_, fun num => ?_, fun lo hi plain => ?_⟩
  · simp only [List.mem_cons, List.not_mem_nil, or_false] at reads
    refine (sets (by omega) names).trans ?_
    rcases reads with rfl | rfl | rfl | rfl | rfl | rfl <;> rfl
  · refine (sets (by decide) names).trans ?_
    rw [← bitOf_eq_testBit]
    rfl
  · intro base t may
    have writes : s.commitCsrs c = s1.writeCtxbase c m v := sets (by decide) names
    have slots (n : Nat) : s1.slot c n = s.slot c n := s.slot_onCore c _ rfl c n
    refine ⟨fun allowed moves => ?_, fun refused => ?_⟩
    · obtain ⟨own, others, kept⟩ := State.writeCtxbase_takes (v := v) s1 (by rw [slots]; exact allowed.1) allowed.2
        (by rw [slots]; exact moves)
      rw [slots] at own kept
      exact ⟨_, writes, own, fun n other => (others n other).trans (slots n), kept⟩
    · refine writes.trans (if_neg fun h => ?_)
      rw [slots] at h
      obtain ⟨free, fits, moves⟩ := h
      exact refused.elim (fun not_ => not_ ⟨free, fits⟩) moves
  · refine (commits.trans (s1.applyCsr_core c (core (by omega) (by omega)) (by omega) (by omega) (by omega))).trans ?_
    rw [if_pos (by omega), num, Nat.add_sub_cancel_left]
    rfl
  · have writes : s.commitCsrs c = s1.onLog c fun l => l.writeSize v := commits.trans (s1.applyCsr_logsize c num)
    have log : (s1.core c).log = k.log := by rw [State.core_onCore]
    exact ⟨fun ok => writes.trans (s1.onLog_congr c (by rw [log]; exact if_pos ok)),
      fun bad => writes.trans (s1.onLog_congr c (by rw [log]; exact if_neg bad))⟩
  · refine ⟨_, commits.trans (s1.applyCsr_mirsize c num), ?_⟩
    rw [State.core_onCore]
    exact ⟨rfl, by simp [Core.writeMirsize, Core.dropLines]⟩
  · have writes : s.commitCsrs c = s1.onDie (posDie c) fun x => x.writeWin j v := by
      rw [commits, s1.applyCsr_die c (die (by omega) (by omega)), if_neg (by omega), if_pos (by omega), num,
        Nat.add_sub_cancel_left]
    exact ⟨fun ok => writes.trans (congrArg _ (funext fun x => (x.writeWin_eq j v).trans (if_pos ok))),
      fun bad => writes.trans (congrArg _ (funext fun x => (x.writeWin_eq j v).trans (if_neg bad)))⟩
  · have writes : s.commitCsrs c = s1.onDie (posDie c) fun x => x.writeRect v := by
      rw [commits, s1.applyCsr_die c (die (by omega) (by omega)), if_pos num]
    exact ⟨fun ok => writes.trans (congrArg _ (funext fun x => if_pos ok)),
      fun bad => writes.trans (congrArg _ (funext fun x => if_neg bad))⟩
  · refine commits.trans ?_
    simp only [SupCsr, List.mem_cons, List.not_mem_nil, or_false] at plain
    by_cases ofCore : w.num < 0x240
    · rw [s1.applyCsr_core c (core lo ofCore) (by omega) (by omega) (by omega), if_neg (by omega)]
    by_cases ofDie : 0x300 ≤ w.num
    · rw [s1.applyCsr_die c (die ofDie hi), if_neg (by omega), if_neg (by omega)]
    · exact s1.applyCsr_bad c (csrAt_eq_bad.2 (by omega))

/-- Settles O45: reads and writes by where a number leads, and a commit by what its one write does there. -/
theorem controlRegisters : Obligations.ControlRegisters :=
  ⟨controlRegisterReads, controlRegisterWrites, controlRegisterCommits⟩

end Sys2Proof.Machine
end

section
/-!
SUPPORT. The frame of a scalar instruction: what its events, its write of a general register and its completion leave
unchanged (R142, R157).
-/
namespace Sys2Proof.Machine

/-! What lies outside the slots, counters and queues of one core. -/

/-- A core without its slots, counters, matrix operations, pending traps, and events and shared writes on their way. -/
def Core.settled (k : Core) : Core :=
  { k with slots := [], shared := [], evc := [], evcs := [], board := [], matQ := [], trap := {} }

/-- Of the whole state, only one core's slots, counters, queues and pending traps may differ. -/
structure State.Within (c : Nat) (s u : State) : Prop where
  cores : s.CoresOnly u
  others : ∀ c', c' ≠ c → u.core c' = s.core c'
  settled : (u.core c).settled = (s.core c).settled

namespace State.Within
variable {c : Nat}

theorem refl (s : State) : s.Within c s := ⟨.refl s, fun _ _ => rfl, rfl⟩

theorem trans {s u v : State} (a : s.Within c u) (b : u.Within c v) : s.Within c v :=
  ⟨a.cores.trans b.cores, fun c' other => (b.others c' other).trans (a.others c' other), b.settled.trans a.settled⟩

theorem foldl {α : Type} {g : State → α → State} (each : ∀ (s : State) x, s.Within c (g s x)) (l : List α) (s : State) :
    s.Within c (l.foldl g s) := by
  induction l generalizing s with
  | nil => exact refl s
  | cons x r ih => exact (each s x).trans (ih _)

theorem onCore (s : State) {f : Core → Core} (settled : ∀ k, (f k).settled = k.settled) : s.Within c (s.onCore c f) :=
  ⟨.onCore .., fun _ other => s.core_onCore_ne other f, by rw [State.core_onCore, settled]⟩

theorem setSlot (s : State) (n : Nat) (x : Slot) : s.Within c (s.setSlot c n x) := onCore s fun _ => rfl
theorem onSlot (s : State) (n : Nat) (f : Slot → Slot) : s.Within c (s.onSlot c n f) := setSlot ..
theorem onTrap (s : State) (f : TrapState → TrapState) : s.Within c (s.onTrap c f) := onCore s fun _ => rfl
theorem freeHolder (s : State) (h : Nat) : s.Within c (s.freeHolder c h) := onCore s fun _ => rfl

theorem dropAwaited (s : State) (n : Nat) : s.Within c (s.dropAwaited c n) := by
  unfold State.dropAwaited
  exact (foldl (fun u (o : MatOp) => freeHolder u o.num) _ s).trans (onCore _ fun _ => rfl)

/-- A trap of a strand that is not ahead of its pair. -/
theorem raiseAt {s : State} {n : Nat} (strand : n ≠ 15) (ahead : s.pairBehind c n = false)
    (cause addr value resume : Nat) (noResume : Bool) : s.Within c (s.raiseAt c n cause addr value resume noResume) := by
  have stopped : ∀ (u : State) (r : Raise), u.Within c (match pairMate (s.slot c n) n with
      | some m => ((u.setSlot c n ((s.slot c n).stopFor r)).onSlot c m fun x => x.stopFor r).dropAwaited c
          (strandSlot (s.slot c n) n + 8)
      | none => u.setSlot c n ((s.slot c n).stopFor r)) := by
    intro u r
    cases pairMate (s.slot c n) n with
    | none => exact setSlot ..
    | some m => exact (setSlot ..).trans ((onSlot ..).trans (dropAwaited ..))
  unfold State.raiseAt
  simp only [ahead, strand, Bool.false_and, Bool.false_eq_true, if_false]
  cases (s.slot c n).hold with
  | none => exact (stopped s _).trans (onTrap ..)
  | some h => exact (freeHolder s h).trans ((stopped _ _).trans (onTrap ..))

variable {s u : State} (h : s.Within c u)
include h

theorem issue : u.issue = s.issue := (congrArg State.issue h.cores :)
theorem ic : u.ic = s.ic := congrArg Issue.core h.issue
theorem is : u.is = s.is := congrArg Issue.slot h.issue
theorem banks : (u.core c).banks = (s.core c).banks :=
  (congrArg (fun k : Core => (k.groups, k.supC, k.supW)) h.settled :)
theorem settled_all (c' : Nat) : (u.core c').settled = (s.core c').settled := by
  by_cases here : c' = c
  · rw [here, h.settled]
  · rw [h.others c' here]

end State.Within

/-! What a strand that is in no pair leaves of its core when it traps. -/

section single
variable {s : State} {c n : Nat} (lead : (s.slot c n).lead = false) (trail : (s.slot c n).trail = false) (strand : n ≠ 15)
  (cause addr value resume : Nat) (noResume : Bool)
include lead trail strand

theorem State.raiseAt_single : ∃ (v : State) (r : Raise) (f : TrapState → TrapState),
    (∀ n', v.slot c n' = s.slot c n') ∧ (v.core c).matQ = (s.core c).matQ ∧
    s.raiseAt c n cause addr value resume noResume = (v.setSlot c n ((s.slot c n).stopFor r)).onTrap c f := by
  have ahead := State.pairBehind_of_not_lead lead
  have mate : pairMate (s.slot c n) n = none := by simp [pairMate, lead, trail]
  unfold State.raiseAt
  simp only [ahead, strand, mate, Bool.false_and, Bool.false_eq_true, if_false]
  cases (s.slot c n).hold with
  | none => exact ⟨s, _, _, fun _ => rfl, rfl, rfl⟩
  | some h =>
    exact ⟨s.freeHolder c h, _, _, s.slot_freeHolder c h c,
      State.core_onCore_keep s c (g := Core.matQ) (by exact fun _ => rfl) c, rfl⟩

theorem State.slot_raiseAt_of_single {n' : Nat} (other : n' ≠ n) :
    (s.raiseAt c n cause addr value resume noResume).slot c n' = s.slot c n' := by
  obtain ⟨v, r, f, slots, -, raises⟩ := State.raiseAt_single lead trail strand cause addr value resume noResume
  rw [raises, State.slot_onTrap, State.slot_setSlot_ne v other, slots]

theorem State.matQ_raiseAt_of_single :
    ((s.raiseAt c n cause addr value resume noResume).core c).matQ = (s.core c).matQ := by
  obtain ⟨v, r, f, -, matQ, raises⟩ := State.raiseAt_single lead trail strand cause addr value resume noResume
  rw [raises, State.onTrap, State.core_onCore, State.setSlot, State.core_onCore, ← matQ]
  rfl

end single

/-! The frame. -/

/-- The slot has the same registers but for its general ones, and the same place in a pair. -/
structure Slot.SameFile (x y : Slot) : Prop where
  v : y.v = x.v
  p : y.p = x.p
  k : y.k = x.k
  bank : y.bank = x.bank
  lead : y.lead = x.lead
  trail : y.trail = x.trail

theorem Slot.SameFile.refl (x : Slot) : x.SameFile x := ⟨rfl, rfl, rfl, rfl, rfl, rfl⟩
theorem Slot.SameFile.trans {x y z : Slot} (a : x.SameFile y) (b : y.SameFile z) : x.SameFile z :=
  ⟨b.v.trans a.v, b.p.trans a.p, b.k.trans a.k, b.bank.trans a.bank, b.lead.trans a.lead, b.trail.trans a.trail⟩
theorem Slot.SameFile.completed (x : Slot) (next : Nat) : x.SameFile (x.completed next) := ⟨rfl, rfl, rfl, rfl, rfl, rfl⟩
theorem Slot.SameFile.stopFor (x : Slot) (r : Raise) : x.SameFile (x.stopFor r) := ⟨rfl, rfl, rfl, rfl, rfl, rfl⟩

/-- What an instruction of the issuing slot leaves unchanged that writes the general register d alone. -/
structure State.ScalarFrame (d : Gpr) (s t : State) : Prop where
  within : s.Within s.ic t
  file : s.me.SameFile (t.slot s.ic s.is)
  g : ∀ r, r ≠ d.toNat → SMap.get (t.slot s.ic s.is).g r 0 = SMap.get s.me.g r 0
  slots : s.me.lead = false → s.me.trail = false → ∀ n, n ≠ s.is → t.slot s.ic n = s.slot s.ic n
  matQ : s.me.trail = false → (t.core s.ic).matQ = (s.core s.ic).matQ

namespace State.ScalarFrame
variable {d : Gpr} {s t u : State}

theorem trans (a : s.ScalarFrame d t) (b : t.ScalarFrame d u) : s.ScalarFrame d u := by
  obtain ⟨within, file, g, slots, matQ⟩ := b
  rw [State.me, a.within.ic, a.within.is] at file g slots matQ
  rw [a.within.ic] at within
  rw [a.file.lead, a.file.trail] at slots
  rw [a.file.trail] at matQ
  exact ⟨a.within.trans within, a.file.trans file, fun r other => (g r other).trans (a.g r other),
    fun l t n other => (slots l t n other).trans (a.slots l t n other), fun t => (matQ t).trans (a.matQ t)⟩

theorem refl (s : State) : s.ScalarFrame d s := ⟨.refl s, .refl s.me, fun _ _ => rfl, fun _ _ _ _ => rfl, fun _ => rfl⟩

/-- A change of the core that reaches neither its slots nor its matrix queue. -/
theorem onCore (s : State) {f : Core → Core} (settled : ∀ k, (f k).settled = k.settled) (slots : ∀ k, (f k).slots = k.slots)
    (matQ : ∀ k, (f k).matQ = k.matQ) : s.ScalarFrame d (s.onCore s.ic f) := by
  have same := s.slot_onCore s.ic f (slots _)
  exact ⟨.onCore s settled, by rw [same]; exact .refl s.me, fun r _ => by rw [same, State.me], fun _ _ n _ => same ..,
    fun _ => by rw [State.core_onCore, matQ]⟩

/-- A change of the issuing slot. -/
theorem onSlot (s : State) {f : Slot → Slot} (file : ∀ x : Slot, x.SameFile (f x))
    (g : ∀ x r, r ≠ d.toNat → SMap.get (f x).g r 0 = SMap.get x.g r 0) : s.ScalarFrame d (s.onSlot s.ic s.is f) :=
  ⟨.onSlot .., by rw [State.slot_onSlot]; exact file s.me, fun r other => by rw [State.slot_onSlot, g _ r other, State.me],
    fun _ _ _ other => s.slot_onSlot_ne other f, fun _ => by rw [State.core_onSlot]; rfl⟩

theorem events (s : State) (fl : Fl) : s.ScalarFrame d (s.events fl) := by
  unfold State.events State.eventsAt
  split
  · exact refl s
  · exact onCore s (fun _ => rfl) (fun _ => rfl) fun _ => rfl

/-- Of the issuing slot only g[d] differs, and of a shared one nothing until its write commits (R110, R127). -/
theorem putGpr (s : State) (d : Gpr) (x : Word) : s.ScalarFrame d (s.putGpr d x) := by
  unfold State.putGpr State.putGprAt
  split_ifs
  · exact refl s
  · exact onSlot s (fun _ => ⟨rfl, rfl, rfl, rfl, rfl, rfl⟩) fun _ _ other => SMap.get_set_ne _ other _ _
  · exact onCore s (fun _ => rfl) (fun _ => rfl) fun _ => rfl

/-- The trap of a single step stops the slot, and its pair's other copy with it (R371). -/
theorem raiseAt {s : State} (strand : s.is ≠ 15) (lead : s.me.lead = false) (cause addr value resume : Nat)
    (noResume : Bool) : s.ScalarFrame d (s.raiseAt s.ic s.is cause addr value resume noResume) := by
  have ahead := State.pairBehind_of_not_lead lead
  have slot := State.slot_raiseAt strand ahead cause addr value resume noResume
  refine ⟨.raiseAt strand ahead .., by rw [slot]; exact .stopFor s.me _, fun _ _ => by rw [slot]; rfl,
    fun _ trail n other => ?_, fun trail => ?_⟩
  · exact State.slot_raiseAt_of_single lead trail strand cause addr value resume noResume other
  · exact State.matQ_raiseAt_of_single lead trail strand cause addr value resume noResume

theorem retire {s : State} (alone : Spec.Alone s) : s.ScalarFrame d s.retire := by
  have completes : s.ScalarFrame d (s.onSlot s.ic s.is (·.completed s.issue.next)) :=
    onSlot s (fun x => .completed x s.issue.next) fun _ _ _ => rfl
  cases steps : s.me.step && s.is != 15 && !s.me.lead with
  | false =>
    have goesOn : s.retire = _ := State.retireAt_goesOn s.issue.start s.issue.next alone steps
    exact goesOn ▸ completes
  | true =>
    simp only [Bool.and_eq_true, bne_iff_ne, Bool.not_eq_true'] at steps
    obtain ⟨⟨step, strand⟩, lead⟩ := steps
    have traps : s.retire = _ := State.retireAt_steps s.issue.start s.issue.next step strand lead
    have single : (s.onSlot s.ic s.is (·.completed s.issue.next)).me.lead = false := by
      rw [completes.within.cores.me, State.slot_onSlot]
      exact lead
    exact traps ▸ completes.trans (raiseAt (by exact strand) single ..)

end State.ScalarFrame

/-! The instructions. -/

/-- A write of a general register, after the events of a division, leaves the slot's results with itself. -/
theorem State.alone_write {s : State} (alone : Spec.Alone s) (fl : Fl) (d : Gpr) (x : Word) :
    Spec.Alone ((s.events fl).putGpr d x) := by
  have counted : (s.events fl).me = s.me := (State.Enters.eventsAt s _ fl).me
  obtain ⟨g, slot⟩ := (s.events fl).slot_putGpr d x
  rw [Spec.Alone, (State.CoresOnly.putGpr (s.events fl) d x).me, slot, counted]
  exact alone

/-- A scalar instruction with a general destination writes it and completes, or with a false guard completes alone; a
division has counted its event (R108, R142). -/
theorem exec_of_scalarDest {i : Instr} {d : Gpr} (dest : Spec.scalarDest i d) (s : State) :
    ∃ (b : Bool) (fl : Fl) (x : Word), exec i s = .next (if b then ((s.events fl).putGpr d x).retire else s.retire) := by
  obtain ⟨w, a, b, three⟩ | ⟨w, a, k, imm⟩ | ⟨w, a, one⟩ | ⟨a, b, k, move⟩ := dest
  · fin_cases three
    -- Twenty raise no event; the divisions and remainders come last.
    iterate 20 exact ⟨s.guardOk, {}, _, rfl⟩
    iterate 4 exact ⟨s.guardOk, { idz := if s.src w b = 0 then 1 else 0 }, _, rfl⟩
  · fin_cases imm <;> exact ⟨s.guardOk, {}, _, rfl⟩
  · fin_cases one <;> exact ⟨s.guardOk, {}, _, rfl⟩
  · fin_cases move
    · exact ⟨s.guardOk, {}, _, rfl⟩
    · exact ⟨true, {}, _, rfl⟩
    · exact ⟨s.guardOk, {}, _, rfl⟩
    · exact ⟨s.guardOk, {}, _, rfl⟩

/-- Settles O18: the events, the write and the completion each keep the frame, and an instruction is made of these. -/
theorem scalarFrame : Obligations.ScalarFrame := by
  intro i d s t alone dest runs
  obtain ⟨b, fl, x, does⟩ := exec_of_scalarDest dest s
  have t_eq : t = if b then ((s.events fl).putGpr d x).retire else s.retire :=
    (Host.Outcome.next.inj (does.symm.trans runs)).symm
  have frame : s.ScalarFrame d t := by
    rw [t_eq]
    cases b with
    | false => exact .retire alone
    | true =>
      exact (State.ScalarFrame.events s fl).trans
        ((State.ScalarFrame.putGpr _ d x).trans (.retire (State.alone_write alone fl d x)))
  have issue := frame.within.issue
  have banks := frame.within.banks
  have file := frame.file
  refine ⟨fun r other => State.gpr_congr issue banks file.bank fun _ => frame.g _ (BitVec.toNat_injective.ne other),
    State.vec_congr issue banks file.bank file.v, State.pred_congr issue file.p, State.cap_congr issue file.k, fun a => ?_,
    frame.slots, frame.within.others, frame.within.settled_all, frame.matQ, frame.within.cores⟩
  rw [State.readByte, frame.within.cores.mem, State.readByte]

end Sys2Proof.Machine
end

section
/-!
SUPPORT. Sums, extremes, logic, shifts and rotates of numbers of a width, read as bit vectors (R146–R148).
-/
namespace Sys2Proof.Machine

section
variable {n : Nat} (x y : BitVec n)

theorem ofNat_of_eq_toNat {z : Nat} {x : BitVec n} (h : z = x.toNat) : BitVec.ofNat n z = x := by
  rw [h, BitVec.ofNat_toNat, BitVec.setWidth_eq]

theorem ofNat_sub_toNat : BitVec.ofNat n (x.toNat + 2 ^ n - y.toNat) = x - y := by
  rw [BitVec.sub_def, Nat.add_comm, Nat.sub_add_comm y.isLt.le]

/-- A choice between two numbers by a condition that bit vectors decide. -/
theorem ofNat_ite_toNat {p : Prop} [Decidable p] {b : Bool} (h : p ↔ b = true) :
    BitVec.ofNat n (if p then x.toNat else y.toNat) = if b then x else y := by
  simp only [apply_ite (BitVec.ofNat n), BitVec.ofNat_toNat, BitVec.setWidth_eq, h]

theorem sv_le_sv_iff (pos : 0 < n) : sv n x.toNat ≤ sv n y.toNat ↔ x.sle y = true := by
  rw [sv_toNat pos, sv_toNat pos, BitVec.sle_iff_toInt_le]

theorem sv_lt_sv_iff (pos : 0 < n) : sv n x.toNat < sv n y.toNat ↔ x.slt y = true := by
  rw [sv_toNat pos, sv_toNat pos, BitVec.slt_iff_toInt_lt]

theorem notN_toNat : notN n x.toNat = (~~~x).toNat := by
  rw [notN, BitVec.toNat_not, Nat.mod_eq_of_lt x.isLt]

theorem ofNat_shlN (k : Nat) : BitVec.ofNat n (shlN n x.toNat k) = x <<< k :=
  ofNat_of_eq_toNat (by rw [shlN, BitVec.toNat_shiftLeft, Nat.shiftLeft_eq])

theorem ofNat_shrN (k : Nat) : BitVec.ofNat n (shrN n x.toNat k) = x >>> k :=
  ofNat_of_eq_toNat (by rw [shrN, BitVec.toNat_ushiftRight, Nat.shiftRight_eq_div_pow])

theorem ofNat_sraN (pos : 0 < n) (k : Nat) : BitVec.ofNat n (sraN n x.toNat k) = x.sshiftRight k := by
  rw [sraN, ofNat_toBits, sv_toNat pos, BitVec.sshiftRight, Int.shiftRight_eq_div_pow]
  rfl

theorem ofNat_rolN {k : Nat} (h : k < n) : BitVec.ofNat n (rolN n x.toNat k) = x.rotateLeft k := by
  have left : x.toNat * 2 ^ k % 2 ^ n = (x <<< k).toNat := by rw [BitVec.toNat_shiftLeft, Nat.shiftLeft_eq]
  have right : x.toNat / 2 ^ (n - k) = (x >>> (n - k)).toNat := by
    rw [BitVec.toNat_ushiftRight, Nat.shiftRight_eq_div_pow]
  rw [BitVec.rotateLeft_eq_rotateLeftAux_of_lt h]
  exact ofNat_of_eq_toNat (by rw [rolN, left, right, ← BitVec.toNat_or]; rfl)

theorem ofNat_rorN {k : Nat} (h : k < n) : BitVec.ofNat n (rorN n x.toNat k) = x.rotateRight k := by
  have left : x.toNat * 2 ^ (n - k) % 2 ^ n = (x <<< (n - k)).toNat := by
    rw [BitVec.toNat_shiftLeft, Nat.shiftLeft_eq]
  have right : x.toNat / 2 ^ k = (x >>> k).toNat := by rw [BitVec.toNat_ushiftRight, Nat.shiftRight_eq_div_pow]
  rw [BitVec.rotateRight_eq_rotateRightAux_of_lt h]
  exact ofNat_of_eq_toNat (by rw [rorN, left, right, ← BitVec.toNat_or]; rfl)

end

/-- Settles O1: each meaning is its shape of instruction with the sum, difference or extreme of bit vectors. -/
theorem scalarArithmetic : Obligations.ScalarArithmetic := by
  intro s w d a b i
  have pos := Machine.Width.bits_pos w
  have addi : s.putScalar w false d (s.src w a + immInt w.bits i) = Spec.putS s d (Spec.low s w a + Spec.immBits w i) :=
    s.putScalar_signed w d (by rw [State.src_eq, immInt_eq]; rfl)
  exact ⟨(exec_add s w d a b).trans (s.bin_signed w d a b (g := fun x y => x + y) fun _ _ => rfl),
    (exec_addi s w d a i).trans (congrArg s.guarded addi),
    (exec_sub s w d a b).trans (s.bin_signed w d a b (g := fun x y => x - y) ofNat_sub_toNat),
    (exec_min s w d a b).trans (s.bin_signed w d a b (g := fun x y => if x.sle y then x else y)
      fun x y => ofNat_ite_toNat x y (sv_le_sv_iff x y pos)),
    (exec_max s w d a b).trans (s.bin_signed w d a b (g := fun x y => if y.sle x then x else y)
      fun x y => ofNat_ite_toNat x y (sv_le_sv_iff y x pos)),
    (exec_minn s w d a b).trans (s.bin_natural w d a b (g := fun x y => if x.ule y then x else y)
      fun x y => ofNat_ite_toNat x y BitVec.ule_iff_toNat_le.symm),
    (exec_maxn s w d a b).trans (s.bin_natural w d a b (g := fun x y => if y.ule x then x else y)
      fun x y => ofNat_ite_toNat x y BitVec.ule_iff_toNat_le.symm)⟩

/-- Settles O2: an amount below the width shifts and rotates as bit vectors do, and both amounts are taken modulo it. -/
theorem scalarShifts : Obligations.ScalarShifts := by
  intro s w d a b i
  have pos := Machine.Width.bits_pos w
  exact ⟨(exec_shl s w d a b).trans (s.shift_signed w d a b (g := fun x k => x <<< k) fun x k _ => ofNat_shlN x k),
    (exec_shr s w d a b).trans (s.shift_signed w d a b (g := fun x k => x >>> k) fun x k _ => ofNat_shrN x k),
    (exec_sra s w d a b).trans (s.shift_signed w d a b (g := .sshiftRight) fun x k _ => ofNat_sraN x pos k),
    (exec_rol s w d a b).trans (s.shift_signed w d a b (g := .rotateLeft) fun x _ => ofNat_rolN x),
    (exec_ror s w d a b).trans (s.shift_signed w d a b (g := .rotateRight) fun x _ => ofNat_rorN x),
    (exec_shli s w d a i).trans (s.shiftImm_signed w d a i (g := fun x k => x <<< k) fun x k _ => ofNat_shlN x k),
    (exec_shri s w d a i).trans (s.shiftImm_signed w d a i (g := fun x k => x >>> k) fun x k _ => ofNat_shrN x k),
    (exec_srai s w d a i).trans (s.shiftImm_signed w d a i (g := .sshiftRight) fun x k _ => ofNat_sraN x pos k),
    (exec_roli s w d a i).trans (s.shiftImm_signed w d a i (g := .rotateLeft) fun x _ => ofNat_rolN x),
    (exec_rori s w d a i).trans (s.shiftImm_signed w d a i (g := .rotateRight) fun x _ => ofNat_rorN x)⟩

end Sys2Proof.Machine
end

section
/-!
SUPPORT. The counts of bits and the byte swap of the unary instructions (R151).
-/
namespace Sys2Proof.Machine

/-! Zero bits above the highest one. -/

section clz
variable {n : Nat} (x : BitVec n)

theorem clzN_toNat_le : clzN n x.toNat ≤ n := by
  unfold clzN
  split <;> omega

theorem clzN_toNat_of_ne_zero (nonzero : x.toNat ≠ 0) : clzN n x.toNat = n - 1 - x.toNat.log2 := if_neg nonzero

theorem log2_toNat_lt (nonzero : x.toNat ≠ 0) : x.toNat.log2 < n := (Nat.log2_lt nonzero).2 x.isLt

theorem getMsbD_of_lt_clzN {j : Nat} (above : j < clzN n x.toNat) : x.getMsbD j = false := by
  rw [BitVec.getMsbD_eq_getLsbD, ← BitVec.testBit_toNat]
  by_cases zero : x.toNat = 0
  · rw [zero, Nat.zero_testBit, Bool.and_false]
  · have high : x.toNat.log2 < n - 1 - j := by
      rw [clzN_toNat_of_ne_zero x zero] at above
      omega
    rw [Nat.testBit_lt_two_pow ((Nat.log2_lt zero).1 high), Bool.and_false]

theorem getMsbD_clzN (found : clzN n x.toNat < n) : x.getMsbD (clzN n x.toNat) = true := by
  have nonzero : x.toNat ≠ 0 := fun zero => absurd found (by simp [clzN, zero])
  have small := log2_toNat_lt x nonzero
  rw [BitVec.getMsbD_eq_getLsbD, ← BitVec.testBit_toNat, decide_eq_true found, Bool.true_and,
    clzN_toNat_of_ne_zero x nonzero, show n - 1 - (n - 1 - x.toNat.log2) = x.toNat.log2 by omega, Nat.testBit_log2 nonzero]

end clz

/-! Zero bits below the lowest one. -/

/-- Where the search for a bit from place k ends, n places on at most. -/
theorem ctzFrom_spec (x k n : Nat) : k ≤ ctzFrom x k n ∧ ctzFrom x k n ≤ k + n ∧
    (∀ j, k ≤ j → j < ctzFrom x k n → x.testBit j = false) ∧
    (ctzFrom x k n < k + n → x.testBit (ctzFrom x k n) = true) := by
  induction n generalizing k with
  | zero =>
    exact ⟨Nat.le_refl k, Nat.le_refl k, fun j low high => absurd high (Nat.not_lt.2 low),
      fun found => absurd found (Nat.lt_irrefl k)⟩
  | succ n ih =>
    rw [ctzFrom, bitOf_eq_testBit, show k + (n + 1) = k + 1 + n by omega]
    cases bit : x.testBit k with
    | true => exact ⟨Nat.le_refl k, show k ≤ k + 1 + n by omega, fun j low high => absurd high (Nat.not_lt.2 low),
        fun _ => bit⟩
    | false =>
      obtain ⟨least, most, clear, set⟩ := ih (k + 1)
      refine ⟨Nat.le_of_succ_le least, most, fun j low high => ?_, set⟩
      obtain rfl | later := Nat.eq_or_lt_of_le low
      · exact bit
      · exact clear j later high

/-! One bits. -/

theorem popN_eq_countP (x n : Nat) : popN x n = (List.range n).countP fun j => x.testBit j := by
  induction n generalizing x with
  | zero => rfl
  | succ n ih =>
    have lowest : (if x.testBit 0 then 1 else 0) = x % 2 := by
      rw [Nat.testBit_zero]
      obtain even | odd := Nat.mod_two_eq_zero_or_one x
      · rw [even]; rfl
      · rw [odd]; rfl
    rw [popN, ih, List.range_succ_eq_map, List.countP_cons, List.countP_map, lowest, Nat.add_comm]
    simp only [Function.comp_def, Nat.testBit_succ]

/-! Bytes in reverse order. -/

theorem bswapN_lt (x m : Nat) : bswapN x m < 256 ^ m := by
  induction m generalizing x with
  | zero => exact Nat.one_pos
  | succ m ih =>
    have rest := ih (x / 256)
    have low := Nat.mod_lt x (by decide : 256 > 0)
    calc bswapN x (m + 1) < x % 256 * 256 ^ m + 256 ^ m := Nat.add_lt_add_left rest _
      _ = (x % 256 + 1) * 256 ^ m := (Nat.succ_mul ..).symm
      _ ≤ 256 ^ (m + 1) := by rw [Nat.pow_succ']; exact Nat.mul_le_mul_right _ low

/-- Byte j of the swap is byte j of the other end. -/
theorem bswapN_byte {m j : Nat} (h : j < m) (x : Nat) :
    bswapN x m / 256 ^ j % 256 = x / 256 ^ (m - 1 - j) % 256 := by
  induction m generalizing x with
  | zero => omega
  | succ m ih =>
    rw [bswapN]
    obtain rfl | lower := Nat.eq_or_lt_of_le (Nat.le_of_lt_succ h)
    · rw [Nat.mul_comm, Nat.mul_add_div (by positivity), Nat.div_eq_of_lt (bswapN_lt ..)]
      simp
    · obtain ⟨k, rfl⟩ : ∃ k, m = j + 1 + k := ⟨m - (j + 1), by omega⟩
      have parts : x % 256 * 256 ^ (j + 1 + k) + bswapN (x / 256) (j + 1 + k) =
          256 ^ j * (256 * (x % 256 * 256 ^ k)) + bswapN (x / 256) (j + 1 + k) := by ring
      rw [parts, Nat.mul_add_div (by positivity), Nat.mul_add_mod, ih lower, Nat.div_div_eq_div_mul, ← Nat.pow_succ']
      congr 3
      omega

/-- The swap of a bit vector of m bytes, byte by byte. -/
theorem extractLsb'_bswapN {n m j : Nat} (bytes : n = 8 * m) (x : BitVec n) (h : j < m) :
    (BitVec.ofNat n (bswapN x.toNat m)).extractLsb' (8 * j) 8 = x.extractLsb' (8 * (m - 1 - j)) 8 := by
  have size : 256 ^ m = 2 ^ n := by rw [bytes, Nat.pow_mul]
  have small : bswapN x.toNat m < 2 ^ n := size ▸ bswapN_lt x.toNat m
  apply BitVec.eq_of_toNat_eq
  rw [BitVec.extractLsb'_toNat, BitVec.extractLsb'_toNat, BitVec.toNat_ofNat, Nat.mod_eq_of_lt small,
    Nat.shiftRight_eq_div_pow, Nat.shiftRight_eq_div_pow, Nat.pow_mul, Nat.pow_mul]
  exact bswapN_byte h x.toNat

theorem Width.bits_eq_bytes (w : Width) : w.bits = 8 * (w.bits / 8) := by cases w <;> rfl

/-! The instructions. -/

theorem scalarLogic : Spec.ScalarLogic := by
  intro s w d a b
  exact ⟨(exec_and s w d a b).trans (s.bin_signed w d a b (g := fun x y => x &&& y)
      fun x y => ofNat_of_eq_toNat (BitVec.toNat_and x y).symm),
    (exec_or s w d a b).trans (s.bin_signed w d a b (g := fun x y => x ||| y)
      fun x y => ofNat_of_eq_toNat (BitVec.toNat_or x y).symm),
    (exec_xor s w d a b).trans (s.bin_signed w d a b (g := fun x y => x ^^^ y)
      fun x y => ofNat_of_eq_toNat (BitVec.toNat_xor x y).symm),
    (exec_andn s w d a b).trans (s.bin_signed w d a b (g := fun x y => x &&& ~~~y)
      fun x y => ofNat_of_eq_toNat (by rw [notN_toNat, BitVec.toNat_and])),
    (exec_orn s w d a b).trans (s.bin_signed w d a b (g := fun x y => x ||| ~~~y)
      fun x y => ofNat_of_eq_toNat (by rw [notN_toNat, BitVec.toNat_or])),
    (exec_xnor s w d a b).trans (s.bin_signed w d a b (g := fun x y => ~~~(x ^^^ y))
      fun x y => ofNat_of_eq_toNat (by rw [← notN_toNat, BitVec.toNat_xor]))⟩

theorem scalarUnary : Spec.ScalarUnary := by
  intro s w d a x
  have unary (f : Nat → Nat) : s.un w false d a f = Spec.guardedNext s (Spec.putS s d (BitVec.ofNat w.bits (f x.toNat))) :=
    s.un_signed w d a (g := fun x => BitVec.ofNat w.bits (f x.toNat)) fun _ => rfl
  obtain ⟨-, most, clear, set⟩ := ctzFrom_spec x.toNat 0 w.bits
  rw [Nat.zero_add] at most set
  refine ⟨(exec_neg s w d a).trans (s.un_signed w d a (g := fun x => -x) fun _ => rfl),
    (exec_not s w d a).trans (s.un_signed w d a (g := fun x => ~~~x) fun x => ofNat_of_eq_toNat (notN_toNat x)),
    (exec_sext s w d a).trans (s.un_signed w d a (g := fun x => x) fun x => ofNat_of_eq_toNat rfl),
    (exec_zext s w d a).trans (s.un_natural w d a (g := fun x => x) fun x => ofNat_of_eq_toNat rfl),
    ⟨clzN w.bits x.toNat, (exec_clz s w d a).trans (unary _), clzN_toNat_le x, fun _ => getMsbD_of_lt_clzN x, getMsbD_clzN x⟩,
    ⟨ctzN w.bits x.toNat, (exec_ctz s w d a).trans (unary _), most, fun j below => ?_, fun found => ?_⟩,
    (exec_popc s w d a).trans ((unary _).trans ?_),
    ⟨BitVec.ofNat w.bits (bswapN x.toNat (w.bits / 8)), (exec_bswap s w d a).trans (unary _),
      fun j => extractLsb'_bswapN (Width.bits_eq_bytes w) x⟩⟩
  · rw [← BitVec.testBit_toNat]
    exact clear j (Nat.zero_le j) below
  · rw [← BitVec.testBit_toNat]
    exact set found
  · simp only [popN_eq_countP, BitVec.testBit_toNat]

/-- Settles O4: logic bit by bit, the counts by the bits that end them, and the swap byte by byte. -/
theorem scalarBits : Obligations.ScalarBits := ⟨scalarLogic, scalarUnary⟩

end Sys2Proof.Machine
end

section
/-!
SUPPORT. The compares, moves, select and immediate loads of the scalar page (R106, R150, R152–R154).
-/
namespace Sys2Proof.Machine

section
variable {n : Nat} (x y : BitVec n)

theorem beq_toNat : (x.toNat == y.toNat) = decide (x = y) := by
  rw [beq_eq_decide]
  exact decide_eq_decide.2 BitVec.toNat_inj

theorem bne_toNat : (x.toNat != y.toNat) = decide (x ≠ y) := by
  rw [bne, beq_toNat, decide_not]

theorem decide_sv_lt (pos : 0 < n) : decide (sv n x.toNat < sv n y.toNat) = x.slt y := by
  rw [Bool.eq_iff_iff, decide_eq_true_iff, sv_lt_sv_iff x y pos]

theorem decide_sv_le (pos : 0 < n) : decide (sv n x.toNat ≤ sv n y.toNat) = x.sle y := by
  rw [Bool.eq_iff_iff, decide_eq_true_iff, sv_le_sv_iff x y pos]

end

theorem scalarCompares : Spec.ScalarCompares := by
  intro s w d a b i
  have pos := Machine.Width.bits_pos w
  exact ⟨(exec_cmpeq s w d a b).trans (s.cmp_bits w a b d (g := fun x y => decide (x = y)) beq_toNat),
    (exec_cmpne s w d a b).trans (s.cmp_bits w a b d (g := fun x y => decide (x ≠ y)) bne_toNat),
    (exec_cmplt s w d a b).trans (s.cmp_bits w a b d (g := BitVec.slt) fun x y => decide_sv_lt x y pos),
    (exec_cmple s w d a b).trans (s.cmp_bits w a b d (g := BitVec.sle) fun x y => decide_sv_le x y pos),
    (exec_cmpltn s w d a b).trans (s.cmp_bits w a b d (g := BitVec.ult) fun _ _ => rfl),
    (exec_cmplen s w d a b).trans (s.cmp_bits w a b d (g := BitVec.ule) fun _ _ => rfl),
    (exec_cmpeqi s w d a i).trans (s.cmpImm_bits w a d i (g := fun x y => decide (x = y)) beq_toNat),
    (exec_cmpnei s w d a i).trans (s.cmpImm_bits w a d i (g := fun x y => decide (x ≠ y)) bne_toNat),
    (exec_cmplti s w d a i).trans (s.cmpImm_bits w a d i (g := BitVec.slt) fun x y => decide_sv_lt x y pos),
    (exec_cmplei s w d a i).trans (s.cmpImm_bits w a d i (g := BitVec.sle) fun x y => decide_sv_le x y pos),
    (exec_cmpltni s w d a i).trans (s.cmpImm_bits w a d i (g := BitVec.ult) fun _ _ => rfl),
    (exec_cmpleni s w d a i).trans (s.cmpImm_bits w a d i (g := BitVec.ule) fun _ _ => rfl)⟩

/-- The immediate of `LI` as bits (R106). -/
theorem ofNat_liValue (i : Imm) : BitVec.ofNat 64 (liValue i) = (BitVec.ofNat (8 + 12 * i.ext) i.val).signExtend 64 := by
  rw [liValue, ofNat_toBits, ← BitVec.toNat_ofNat, sv_toNat (by omega)]
  rfl

/-- The upper 16 bits replaced (R154). -/
theorem ofNat_upper (h : BitVec 16) (x : Word) :
    BitVec.ofNat 64 (h.toNat * 2 ^ 48 + x.toNat % 2 ^ 48) = h.setWidth 64 <<< 48 ||| x &&& 0xFFFFFFFFFFFF#64 := by
  apply ofNat_of_eq_toNat
  have low : (x &&& 0xFFFFFFFFFFFF#64).toNat = x.toNat % 2 ^ 48 := Nat.and_two_pow_sub_one_eq_mod x.toNat 48
  have high : (h.setWidth 64 <<< 48).toNat = h.toNat <<< 48 := by
    rw [BitVec.toNat_shiftLeft, BitVec.toNat_setWidth_of_le (by decide), Nat.mod_eq_of_lt]
    rw [Nat.shiftLeft_eq]
    omega
  rw [BitVec.toNat_or, low, high, ← Nat.shiftLeft_add_eq_or_of_lt (Nat.mod_lt _ (Nat.two_pow_pos 48)), Nat.shiftLeft_eq]

theorem scalarMoves : Spec.ScalarMoves := by
  intro s d a b k k' i
  refine ⟨exec_mov s d a, exec_movCap s k k', exec_sel s d a b, (exec_lih s d i).trans ?_, (exec_li s d i).trans ?_⟩
  · rw [execLih, immInt_eq]
    exact congrArg (fun x => s.guarded (Spec.put s d x)) (ofNat_upper ..)
  · rw [execLi, ofNat_liValue]
    rfl

/-- Settles O5: the compares as those of bit vectors, and the moves by what they put. -/
theorem scalarComparesAndMoves : Obligations.ScalarComparesAndMoves := ⟨scalarCompares, scalarMoves⟩

end Sys2Proof.Machine
end

section
/-!
SUPPORT. What the shapes of vector instructions leave in each element and each lane (R163, R164, R171).
-/
namespace Sys2Proof.Machine
open Sys2Proof.Spec

/-! Lists over the places of a register. -/

theorem zip3_map {α : Type} (f : Nat → Nat → Nat → α) (x y z : Nat → Nat) (l : List Nat) :
    zip3 f (l.map x) (l.map y) (l.map z) = l.map fun i => f (x i) (y i) (z i) := by
  induction l with
  | nil => rfl
  | cons i l ih => simp only [List.map_cons, zip3, ih]

theorem zip4_map {α : Type} (f : Nat → Nat → Nat → Nat → α) (x y z u : Nat → Nat) (l : List Nat) :
    zip4 f (l.map x) (l.map y) (l.map z) (l.map u) = l.map fun i => f (x i) (y i) (z i) (u i) := by
  induction l with
  | nil => rfl
  | cons i l ih => simp only [List.map_cons, zip4, ih]

theorem replicate_eq_map_range {α : Type} (n : Nat) (x : α) : List.replicate n x = (List.range n).map fun _ => x := by
  rw [List.map_const', List.length_range]

theorem getD_map_range {α : Type} {n i : Nat} (h : i < n) (x : Nat → α) (y : α) :
    ((List.range n).map x).getD i y = x i := by
  simp [List.getD_eq_getElem?_getD, h]

theorem elemWidth_lane : ElemWidth 32 := .inr (.inr (.inl rfl))

/-! The elements that an outcome leaves. -/

/-- The outcome completes `t` with the bits of `r i` in every active element i of v[d], the old value in every other one
and the events of the active elements. -/
def Delivers (o : Host.Outcome State Fault Refusal) (t s : State) (w : Nat) (d : Vr) (r : Nat → Nat × Fl) : Prop :=
  ∃ x lanes, o = .next (t.vecResult d x lanes (activeEvents s w fun i => (r i).2)) ∧ CoversActive s w lanes ∧
    ∀ i, i < 8192 / w → elt w x i = if active s w i then BitVec.ofNat w (r i).1 else elt w (s.vec d) i

section
variable (s : State) {w : Nat} (hw : ElemWidth w)
include hw

theorem merge_delivers (t : State) (d : Vr) (r : Nat → Nat × Fl) :
    Delivers (.next (t.vecResult d
      (ofElems w (mergeElems (activeList w s.guardMask) (elems w (s.vec d))
        (((List.range (elemCount w)).map r).map (·.1))))
      (activeLanes w s.guardMask) (sumFl (activeList w s.guardMask) ((List.range (elemCount w)).map r)))) t s w d r := by
  have events : sumFl (activeList w s.guardMask) ((List.range (elemCount w)).map r) =
      activeEvents s w fun i => (r i).2 := by rw [activeList_eq hw, sumFl_map]; rfl
  rw [events]
  refine ⟨_, activeLanes w s.guardMask, rfl, fun j => activeLanes_getLsbD s.guardMask, fun i (hi : i < elemCount w) => ?_⟩
  rw [elt, merge_elem hw _ _ _ (by simp) hi, List.map_map, getD_map_range hi]
  rfl

theorem State.eltwise_delivers (d : Vr) (x y : Nat → Nat) (f : Nat → Nat → Nat → Nat × Fl) :
    Delivers (.next (s.eltwise w d ((List.range (elemCount w)).map x) ((List.range (elemCount w)).map y) f)) s s w d
      fun i => f (x i) (y i) (elt w (s.vec d) i).toNat := by
  have merged := merge_delivers s hw s d fun i => f (x i) (y i) (elt w (s.vec d) i).toNat
  rw [← zip3_map, ← elems_eq] at merged
  exact merged

theorem State.eltwise_vec_delivers (d a b : Vr) (f : Nat → Nat → Nat → Nat × Fl) :
    Delivers (.next (s.eltwise w d (elems w (s.vec a)) (elems w (s.vec b)) f)) s s w d
      fun i => f (elt w (s.vec a) i).toNat (elt w (s.vec b) i).toNat (elt w (s.vec d) i).toNat := by
  rw [elems_eq, elems_eq]
  exact s.eltwise_delivers hw d _ _ f

end

theorem activeEvents_none (s : State) (w : Nat) : (activeEvents s w fun _ => .none) = .none := by
  rw [activeEvents, List.foldr_const]
  exact Function.iterate_fixed rfl _

section
variable {e : Instr} {o : Host.Outcome State Fault Refusal} {s : State} {w : Nat} {d : Vr} {r : Nat → Nat × Fl}

theorem Delivers.elements {f : Nat → BitVec w} {fl : Nat → Fl} (h : Delivers o s s w d r) (run : exec e s = o)
    (bits : ∀ i, i < 8192 / w → BitVec.ofNat w (r i).1 = f i) (events : ∀ i, (r i).2 = fl i) :
    Elements e s w d (activeEvents s w fl) f := by
  obtain ⟨x, lanes, next, covers, elements⟩ := h
  simp only [events] at next
  exact ⟨x, lanes, run.trans next, covers, fun i hi => (elements i hi).trans (by rw [bits i hi])⟩

theorem Delivers.elements_none {f : Nat → BitVec w} (h : Delivers o s s w d r) (run : exec e s = o)
    (bits : ∀ i, i < 8192 / w → BitVec.ofNat w (r i).1 = f i) (events : ∀ i, (r i).2 = .none) : Elements e s w d .none f :=
  activeEvents_none s w ▸ h.elements run bits events

end

/-! The lanes that an outcome leaves. -/

theorem State.vecToPred_laneBits (s : State) (d : Pr) (x : Pred) (fl : Fl) {t : Nat → Bool}
    (h : ∀ j, j < 256 → s.guardMask.getLsbD j = true → x.getLsbD j = t j) :
    ∃ y, Host.Outcome.next (s.vecToPred d x fl) =
        (.next ((((s.latchEvents fl).putPred d y).startVector []).retire) : Host.Outcome State Fault Refusal) ∧
      ∀ j, j < 256 → y.getLsbD j = if s.guardMask.getLsbD j then t j else (s.pred d).getLsbD j := by
  refine ⟨_, rfl, fun j hj => ?_⟩
  rw [BitVec.getLsbD_or, BitVec.getLsbD_and, BitVec.getLsbD_and, BitVec.getLsbD_not]
  cases mask : s.guardMask.getLsbD j with
  | false => simp [hj]
  | true => simp [h j hj mask]

/-- A level of pairs over the places of a register. -/
theorem pairsAnd_map_range (t : Nat → Bool) (m : Nat) :
    predOf.pairsAnd ((List.range (2 * m)).map t) = (List.range m).map fun i => t (2 * i) && t (2 * i + 1) := by
  induction m generalizing t with
  | zero => rfl
  | succ m ih =>
    rw [map_range_two_mul_succ, predOf.pairsAnd, ih, List.range_succ_eq_map]
    simp [Function.comp_def, Nat.mul_succ]

theorem predOf_lanes (ts : List Bool) {j : Nat} (hj : j < 256) : (predOf 32 ts).getLsbD j = ts.getD j false :=
  packBits_getLsbD ts 256 j hj
theorem predOf_bytes (ts : List Bool) : predOf 8 ts = predOf 32 (predOf.pairsAnd (predOf.pairsAnd ts)) := rfl
theorem predOf_halves (ts : List Bool) : predOf 16 ts = predOf 32 (predOf.pairsAnd ts) := rfl
theorem predOf_words (ts : List Bool) : predOf 64 ts = predOf 32 (ts.flatMap fun b => [b, b]) := rfl

/-- A lane is true where every element in it is. -/
theorem predOf_map_range {w : Nat} (hw : ElemWidth w) (t : Nat → Bool) {j : Nat} (hj : j < 256) :
    (predOf w ((List.range (elemCount w)).map t)).getLsbD j = laneTruth w t j := by
  obtain rfl | rfl | rfl | rfl := hw
  · rw [show elemCount 8 = 2 * (2 * 256) from rfl, predOf_bytes, pairsAnd_map_range, pairsAnd_map_range,
      predOf_lanes _ hj, getD_map_range hj, show 2 * (2 * j) = j * 4 by omega, show 2 * (2 * j + 1) = j * 4 + 2 by omega]
    simp [laneTruth, List.range_succ, Bool.and_assoc]
  · rw [show elemCount 16 = 2 * 256 from rfl, predOf_halves, pairsAnd_map_range, predOf_lanes _ hj, getD_map_range hj]
    simp [laneTruth, List.range_succ, Nat.mul_comm]
  · rw [show elemCount 32 = 256 from rfl, predOf_lanes _ hj, getD_map_range hj]
    simp [laneTruth]
  · rw [show elemCount 64 = 128 from rfl, predOf_words, predOf_lanes _ hj, flatMap2_getD, getD_map_range (by omega)]
    rfl

end Sys2Proof.Machine
end

section
/-!
SUPPORT. Integer vector instructions read as operations on the bit vectors of their elements (R168–R171).
-/
namespace Sys2Proof.Machine
open Sys2Proof.Spec

section
variable (s : State) (w : Width) (d a b : Vr)

/-- An element-wise operation that agrees with one on bit vectors. -/
theorem State.vop_elements {e : Instr} {f : Nat → Nat → Nat} (next : exec e s = s.vop w d a b f)
    {g : BitVec w.bits → BitVec w.bits → BitVec w.bits}
    (h : ∀ x y : BitVec w.bits, BitVec.ofNat w.bits (f x.toNat y.toNat) = g x y) :
    Elements e s w.bits d .none fun i => g (elt w.bits (s.vec a) i) (elt w.bits (s.vec b) i) := by
  have delivered := s.eltwise_vec_delivers (Machine.Width.elemWidth w) d a b fun x y _ => (f x y % 2 ^ w.bits, .none)
  refine delivered.elements_none next (fun i _ => ?_) fun _ => rfl
  rw [← h]
  exact BitVec.eq_of_toNat_eq (by simp)

/-- A saturating operation clamps to the range of the width and counts what it clamps. -/
theorem State.vsat_elements {e : Instr} {n : Bool} {f : Int → Int → Int} (next : exec e s = s.vsat w n d a b f) :
    let val (v : BitVec w.bits) : Int := if n then v.toNat else v.toInt
    let lo : Int := if n then 0 else -(2 ^ (w.bits - 1))
    let hi : Int := if n then 2 ^ w.bits - 1 else 2 ^ (w.bits - 1) - 1
    let r (i : Nat) : Int := f (val (elt w.bits (s.vec a) i)) (val (elt w.bits (s.vec b) i))
    Elements e s w.bits d (activeEvents s w.bits fun i => { sat := if r i < lo ∨ hi < r i then 1 else 0 })
      fun i => BitVec.ofInt w.bits (max lo (min hi (r i))) := by
  intro val lo hi r
  have range : lo ≤ hi := by cases n <;> cases w <;> decide
  have delivered := s.eltwise_vec_delivers (Machine.Width.elemWidth w) d a b fun x y _ =>
    let rd (x : Nat) : Int := if n then x else sv w.bits x
    let r := clampInt lo hi (f (rd x) (rd y))
    (toBits w.bits r.1, { sat := if r.2 then 1 else 0 })
  refine delivered.elements next (fun i _ => ?_) fun i => ?_
  · simp only [clampInt_eq _ range, ofNat_toBits, sv_toNat (Machine.Width.bits_pos w)]
    rfl
  · simp only [clampInt_eq _ range, sv_toNat (Machine.Width.bits_pos w), decide_eq_true_eq]
    rfl

/-- A compare of elements that agrees with one of bit vectors. -/
theorem State.vcmp_laneBits {e : Instr} {p : Pr} {f : Nat → Nat → Bool} (next : exec e s = s.vcmp w p a b f)
    {g : BitVec w.bits → BitVec w.bits → Bool} (h : ∀ x y : BitVec w.bits, f x.toNat y.toNat = g x y) :
    LaneBits e s p .none (laneTruth w.bits fun i => g (elt w.bits (s.vec a) i) (elt w.bits (s.vec b) i)) := by
  rw [LaneBits, next, State.vcmp, elems_eq, elems_eq, List.zipWith_map, List.zipWith_self]
  simp only [h]
  exact s.vecToPred_laneBits p _ .none fun j hj _ => predOf_map_range (Machine.Width.elemWidth w) _ hj

end

/-- Settles O6: each compare is its shape with the compare of bit vectors, and a lane is true where its elements are. -/
theorem vectorCompares : Obligations.VectorCompares := by
  intro s w d a b
  have pos := Machine.Width.bits_pos w
  exact ⟨s.vcmp_laneBits w a b (exec_vcmpeq s w d a b) (g := fun x y => decide (x = y)) beq_toNat,
    s.vcmp_laneBits w a b (exec_vcmpne s w d a b) (g := fun x y => decide (x ≠ y)) bne_toNat,
    s.vcmp_laneBits w a b (exec_vcmplt s w d a b) fun x y => decide_sv_lt x y pos,
    s.vcmp_laneBits w a b (exec_vcmple s w d a b) fun x y => decide_sv_le x y pos,
    s.vcmp_laneBits w a b (exec_vcmpltn s w d a b) (g := BitVec.ult) fun _ _ => rfl,
    s.vcmp_laneBits w a b (exec_vcmplen s w d a b) (g := BitVec.ule) fun _ _ => rfl⟩

theorem minN_bits {k : Nat} (hk : 0 < k) (n : Bool) (x y : BitVec k) :
    BitVec.ofNat k (minN k n x.toNat y.toNat) = if (if n then x.ule y else x.sle y) then x else y :=
  ofNat_of_eq_toNat (minN_toNat hk n x y)
theorem maxN_bits {k : Nat} (hk : 0 < k) (n : Bool) (x y : BitVec k) :
    BitVec.ofNat k (maxN k n x.toNat y.toNat) = if (if n then y.ule x else y.sle x) then x else y :=
  ofNat_of_eq_toNat (maxN_toNat hk n x y)

/-! Products of bytes. -/

/-- Byte q of lane j. -/
theorem bitsOf_elt (v : Vec) (j : Nat) {q : Nat} (hq : q < 4) :
    bitsOf (elt 32 v j).toNat (8 * q) 8 = (elt 8 v (4 * j + q)).toNat := by
  have byte : (elt 32 v j).extractLsb' (8 * q) 8 = elt 8 v (4 * j + q) := by
    apply BitVec.eq_of_getLsbD_eq
    intro k hk
    simp only [BitVec.getLsbD_extractLsb', hk, decide_true, Bool.true_and, show 8 * q + k < 32 by omega]
    congr 1
    omega
  rw [← byte, BitVec.extractLsb'_toNat (8 * q) 8, Nat.shiftRight_eq_div_pow, bitsOf]

theorem dot4_elt (n : Bool) (u v : Vec) (j : Nat) :
    let byte (v : Vec) (i : Nat) : Int := if n then (elt 8 v i).toNat else (elt 8 v i).toInt
    dot4 n (elt 32 u j).toNat (elt 32 v j).toNat =
      byte u (4 * j) * byte v (4 * j) + byte u (4 * j + 1) * byte v (4 * j + 1) +
        byte u (4 * j + 2) * byte v (4 * j + 2) + byte u (4 * j + 3) * byte v (4 * j + 3) := by
  intro byte
  have term (v : Vec) {q : Nat} (hq : q < 4) :
      (if n then (bitsOf (elt 32 v j).toNat (8 * q) 8 : Int) else sv 8 (bitsOf (elt 32 v j).toNat (8 * q) 8)) =
        byte v (4 * j + q) := by rw [bitsOf_elt v j hq, sv_toNat (by decide)]
  rw [dot4, show below 4 = [0, 1, 2, 3] from rfl]
  simp only [List.foldl_cons, List.foldl_nil, term _ (show 0 < 4 by decide), term _ (show 1 < 4 by decide),
    term _ (show 2 < 4 by decide), term _ (show 3 < 4 by decide), Int.zero_add, Nat.add_zero]

theorem ofNat_mul_add_toNat {n : Nat} (x y z : BitVec n) :
    BitVec.ofNat n ((x.toNat * y.toNat + z.toNat) % 2 ^ n) = x * y + z :=
  BitVec.eq_of_toNat_eq (by simp)

theorem vectorArithmetic : VectorArithmetic := by
  intro s w n d a b x y val lo hi clamp sat byte
  have pos := Machine.Width.bits_pos w
  have wide := Machine.Width.elemWidth w
  have vadds := s.vsat_elements w d a b (exec_vadds s w n d a b)
  have vsubs := s.vsat_elements w d a b (exec_vsubs s w n d a b)
  refine ⟨s.vop_elements w d a b (exec_vadd s w d a b) (g := fun x y => x + y) fun _ _ => rfl,
    s.vop_elements w d a b (exec_vsub s w d a b) ofNat_sub_toNat,
    s.vop_elements w d a b (exec_vmin s w d a b) (minN_bits pos false),
    s.vop_elements w d a b (exec_vmax s w d a b) (maxN_bits pos false),
    s.vop_elements w d a b (exec_vminn s w d a b) (minN_bits pos true),
    s.vop_elements w d a b (exec_vmaxn s w d a b) (maxN_bits pos true), vadds, vsubs,
    s.vop_elements w d a b (exec_vmul s w d a b) ofNat_mul_toNat,
    s.vop_elements w d a b (exec_vmulh s w d a b) fun x y => ofNat_mulh x y pos,
    s.vop_elements w d a b (exec_vmulhn s w d a b) (g := fun x y => BitVec.ofNat w.bits (x.toNat * y.toNat / 2 ^ w.bits))
      fun _ _ => rfl, ?_, ?_⟩
  · have delivered := s.eltwise_vec_delivers wide d a b fun x y z => ((x * y + z) % 2 ^ w.bits, .none)
    exact delivered.elements_none (exec_vmad s w d a b) (fun _ _ => ofNat_mul_add_toNat _ _ _) fun _ => rfl
  · have delivered := s.eltwise_vec_delivers elemWidth_lane d a b fun x y z => (toBits 32 ((z : Int) + dot4 n x y), .none)
    refine delivered.elements_none (exec_vdot4 s n d a b) (fun j _ => ?_) fun _ => rfl
    rw [ofNat_toBits, BitVec.ofInt_add, BitVec.ofInt_natCast, BitVec.ofNat_toNat, BitVec.setWidth_eq, dot4_elt]

theorem vectorLogicShifts : VectorLogicShifts := by
  intro s w d a b x y
  have pos := Machine.Width.bits_pos w
  exact ⟨s.vop_elements w d a b (exec_vand s w d a b) fun x y => ofNat_of_eq_toNat (BitVec.toNat_and x y).symm,
    s.vop_elements w d a b (exec_vor s w d a b) fun x y => ofNat_of_eq_toNat (BitVec.toNat_or x y).symm,
    s.vop_elements w d a b (exec_vxor s w d a b) fun x y => ofNat_of_eq_toNat (BitVec.toNat_xor x y).symm,
    s.vop_elements w d a b (exec_vandn s w d a b) (g := fun x y => x &&& ~~~y) fun x y =>
      ofNat_of_eq_toNat (by rw [BitVec.toNat_and, BitVec.toNat_not]),
    s.vop_elements w d a b (exec_vshl s w d a b) (g := fun x y => x <<< (y.toNat % w.bits)) fun x y =>
      BitVec.eq_of_toNat_eq (by simp [Nat.shiftLeft_eq]),
    s.vop_elements w d a b (exec_vshr s w d a b) (g := fun x y => x >>> (y.toNat % w.bits)) fun x y =>
      ofNat_shrN x _,
    s.vop_elements w d a b (exec_vsra s w d a b) (g := fun x y => x.sshiftRight (y.toNat % w.bits)) fun x y =>
      ofNat_sraN x pos _⟩

/-- Settles O9: each element-wise meaning agrees with an operation on the bit vectors of its elements. -/
theorem vectorIntegers : Obligations.VectorIntegers := ⟨vectorArithmetic, vectorLogicShifts⟩

end Sys2Proof.Machine
end

section
/-!
SUPPORT. Predicate logic lane by lane (R178).
-/
namespace Sys2Proof.Machine
open Sys2Proof.Spec

theorem getLsbD_one_shiftLeft (i : Nat) {j : Nat} (hj : j < 256) : (1#256 <<< i).getLsbD j = decide (j = i) := by
  rw [← BitVec.twoPow_eq, BitVec.getLsbD_twoPow, ← Bool.decide_and, decide_eq_decide]
  omega

/-- The lowest set bit of a predicate, alone. -/
def lowestBit (x : Pred) : Pred := ((List.range 256).find? fun j => x.getLsbD j).elim 0 fun j => 1#256 <<< j

theorem getLsbD_lowestBit (x : Pred) {j : Nat} (hj : j < 256) :
    (lowestBit x).getLsbD j = (x.getLsbD j && (List.range j).all fun i => !x.getLsbD i) := by
  rw [lowestBit]
  cases found : (List.range 256).find? fun j => x.getLsbD j with
  | none =>
    rw [List.find?_range_eq_none] at found
    have clear : x.getLsbD j = false := by simpa using found j hj
    rw [clear]
    simp
  | some k =>
    obtain ⟨set, -, below⟩ := List.find?_range_eq_some.1 found
    rw [Option.elim_some, getLsbD_one_shiftLeft k hj, Bool.eq_iff_iff]
    simp only [decide_eq_true_eq, Bool.and_eq_true, List.all_eq_true, List.mem_range]
    constructor
    · rintro rfl
      exact ⟨set, below⟩
    · rintro ⟨here, least⟩
      obtain lower | same | higher := Nat.lt_trichotomy j k
      · exact absurd here (by simpa using below j lower)
      · exact same
      · exact absurd set (by simpa using least k higher)

theorem execPfirst_eq (s : State) (d a : Pr) : execPfirst d a s = s.pop d (lowestBit (s.pred a &&& s.guardMask)) := by
  rw [execPfirst, lowestBit, below_eq_range]
  cases (List.range 256).find? fun j => (s.pred a &&& s.guardMask).getLsbD j <;> rfl

/-- A predicate operation that agrees with one on truth values. -/
theorem State.pop_laneBits (s : State) {e : Instr} (d : Pr) {x : Pred} (run : exec e s = s.pop d x) {t : Nat → Bool}
    (h : ∀ j, j < 256 → x.getLsbD j = t j) : LaneBits e s d .none t := by
  rw [LaneBits, run]
  exact s.vecToPred_laneBits d x .none fun j hj _ => h j hj

/-- Settles O8: logic bit by bit, the count by the bits it counts, and the first bit by the search that finds it. -/
theorem predicateLogic : Obligations.PredicateLogic := by
  intro s g d a b x y m
  refine ⟨s.pop_laneBits d (exec_pand s d a b) fun j _ => BitVec.getLsbD_and,
    s.pop_laneBits d (exec_por s d a b) fun j _ => BitVec.getLsbD_or,
    s.pop_laneBits d (exec_pxor s d a b) fun j _ => BitVec.getLsbD_xor,
    s.pop_laneBits d (exec_pnot s d a) fun j hj => by rw [BitVec.getLsbD_not, decide_eq_true hj, Bool.true_and],
    (exec_pcnt s g a).trans ?_, s.pop_laneBits d ((exec_pfirst s d a).trans (execPfirst_eq s d a)) fun j hj => ?_⟩
  · rw [execPcnt, below_eq_range, ← List.countP_eq_length_filter]
    simp only [BitVec.getLsbD_and]
    rfl
  · rw [getLsbD_lowestBit _ hj]
    simp only [BitVec.getLsbD_and]
    rfl

end Sys2Proof.Machine
end

section
/-!
SUPPORT. Selects, broadcasts and permutes: the images that the lists of the model form (R172–R175).
-/
namespace Sys2Proof.Machine
open Sys2Proof.Spec

/-! Single elements. -/

theorem toNat_elt (w : Nat) (v : Vec) (i : Nat) : (elt w v i).toNat = elemAt w v.toNat i := by
  rw [BitVec.extractLsb'_toNat, Nat.shiftRight_eq_div_pow, Nat.mul_comm i]; rfl

theorem ElemWidth.elt_ofNat {w : Nat} (hw : ElemWidth w) (x : Nat) {i : Nat} (hi : i < elemCount w) :
    elt w (BitVec.ofNat 8192 x) i = BitVec.ofNat w (elemAt w x i) := by
  have inside : w * i + w ≤ 8192 := by
    rw [← hw.mul, ← Nat.mul_succ]
    exact Nat.mul_le_mul_left w hi
  obtain ⟨k, hk⟩ := Nat.exists_eq_add_of_le inside
  apply BitVec.eq_of_toNat_eq
  rw [toNat_elt, BitVec.toNat_ofNat, BitVec.toNat_ofNat, elemAt, elemAt, hk, Nat.pow_add, Nat.pow_add, Nat.mul_assoc,
    Nat.mod_mul_right_div_self, Nat.mod_mul_right_mod, Nat.mod_mod]

/-! Lanes of a mask. -/

theorem getLsbD_lane_ones (i : Nat) : (0xFFFFFFFF#8192).getLsbD i = decide (i < 32) := by
  rw [BitVec.getLsbD_ofNat, show 0xFFFFFFFF = 2 ^ 32 - 1 from rfl, Nat.testBit_two_pow_sub_one, ← Bool.decide_and,
    decide_eq_decide]
  omega

/-- The lanes from `lo` on of a mask, the first at the bottom. -/
theorem getLsbD_laneMask_from (p : Pred) (lo n : Nat) (hn : n ≤ 256) {i : Nat} (hi : i < 32 * n) :
    ((upFrom lo n).foldr (fun j (acc : Vec) => acc <<< 32 ||| (if p.getLsbD j then 0xFFFFFFFF#8192 else 0)) 0).getLsbD i =
      p.getLsbD (lo + i / 32) := by
  induction n generalizing lo i with
  | zero => omega
  | succ n ih =>
    rw [upFrom, List.foldr_cons, BitVec.getLsbD_or, BitVec.getLsbD_shiftLeft]
    have lane : (if p.getLsbD lo then 0xFFFFFFFF#8192 else 0).getLsbD i = (p.getLsbD lo && decide (i < 32)) := by
      cases p.getLsbD lo
      · exact BitVec.getLsbD_zero
      · exact getLsbD_lane_ones i
    rw [lane]
    by_cases low : i < 32
    · rw [Nat.div_eq_of_lt low, decide_eq_true low, Bool.and_true, Bool.not_true, Bool.and_false, Bool.false_and,
        Bool.false_or, Nat.add_zero]
    · rw [ih (lo + 1) (by omega) (by omega), show lo + 1 + (i - 32) / 32 = lo + i / 32 by omega]
      simp [low, show i < 8192 by omega]

theorem getLsbD_laneMask (p : Pred) {i : Nat} (hi : i < 8192) : (laneMask p).getLsbD i = p.getLsbD (i / 32) := by
  have := getLsbD_laneMask_from p 0 256 le_rfl hi
  rwa [Nat.zero_add] at this

/-- A choice by a lane mask chooses lane by lane. -/
theorem elt_select (p : Pred) (u v : Vec) {j : Nat} (hj : j < 256) :
    elt 32 ((u &&& laneMask p) ||| (v &&& ~~~laneMask p)) j = if p.getLsbD j then elt 32 u j else elt 32 v j := by
  apply BitVec.eq_of_getLsbD_eq
  intro k hk
  have inside : j * 32 + k < 8192 := by omega
  rw [apply_ite fun x : BitVec 32 => x.getLsbD k]
  simp only [BitVec.getLsbD_extractLsb', BitVec.getLsbD_or, BitVec.getLsbD_and, BitVec.getLsbD_not, hk, decide_true,
    Bool.true_and, inside, getLsbD_laneMask p inside, show (j * 32 + k) / 32 = j by omega]
  cases p.getLsbD j <;> simp

theorem select_allOnes (u v : Vec) :
    (u &&& laneMask (BitVec.allOnes 256)) ||| (v &&& ~~~laneMask (BitVec.allOnes 256)) = u := by
  have full : laneMask (BitVec.allOnes 256) = BitVec.allOnes 8192 := by
    apply BitVec.eq_of_getLsbD_eq
    intro i hi
    rw [getLsbD_laneMask _ hi, BitVec.getLsbD_allOnes, BitVec.getLsbD_allOnes, decide_eq_true hi,
      decide_eq_true (show i / 32 < 256 by omega)]
  rw [full, BitVec.not_allOnes, BitVec.and_allOnes, BitVec.and_zero, BitVec.or_zero]

/-! Images. -/

theorem interleave_map_range (x y : Nat → Nat) (m : Nat) :
    interleave ((List.range m).map x) ((List.range m).map y) =
      (List.range (2 * m)).map fun i => if i % 2 = 0 then x (i / 2) else y (i / 2) := by
  induction m generalizing x y with
  | zero => rfl
  | succ m ih =>
    rw [map_range_two_mul_succ, List.range_succ_eq_map]
    simp only [List.map_cons, List.map_map, interleave]
    refine congrArg₂ _ rfl (congrArg₂ _ rfl ((ih _ _).trans ?_))
    simp

theorem evens_map_range (x : Nat → Nat) (m : Nat) :
    evens ((List.range (2 * m)).map x) = (List.range m).map fun i => x (2 * i) := by
  induction m generalizing x with
  | zero => rfl
  | succ m ih =>
    rw [map_range_two_mul_succ, evens, ih, List.range_succ_eq_map]
    simp [Function.comp_def, Nat.mul_succ]

theorem append_map_range (x y : Nat → Nat) (m : Nat) :
    (List.range m).map x ++ (List.range m).map y =
      (List.range (2 * m)).map fun i => if i < m then x i else y (i - m) := by
  rw [Nat.two_mul, List.range_add, List.map_append, List.map_map]
  refine congrArg₂ _ (List.map_congr_left fun i hi => ?_) (List.map_congr_left fun i _ => ?_)
  · rw [if_pos (List.mem_range.1 hi)]
  · simp

theorem rotate_map_range (x : Nat → Nat) (n k : Nat) :
    ((List.range n).map x).drop (k % n) ++ ((List.range n).map x).take (k % n) =
      (List.range n).map fun i => x ((i + k) % n) := by
  have rotated := List.rotate_eq_drop_append_take_mod (l := (List.range n).map x) (n := k)
  rw [List.length_map, List.length_range] at rotated
  rw [← rotated]
  apply List.ext_getElem
  · simp
  · intro i hi hi'
    simp [List.getElem_rotate]

theorem ElemWidth.even_count {w : Nat} (hw : ElemWidth w) : elemCount w = 2 * (elemCount w / 2) := by
  obtain rfl | rfl | rfl | rfl := hw <;> rfl

theorem laneTruth_lane (t : Nat → Bool) (j : Nat) : laneTruth 32 t j = t j := by simp [laneTruth]

section
variable (s : State) (w : Width) (d : Vr)

/-- An image written where active. -/
theorem State.vimage_image {e : Instr} {src : List Nat} (run : exec e s = s.vimage w d src) {r : Nat → Nat}
    (image : src = (List.range (elemCount w.bits)).map r) {f : Nat → BitVec w.bits}
    (h : ∀ i, i < elemCount w.bits → BitVec.ofNat w.bits (r i) = f i) : Elements e s w.bits d .none f := by
  have delivered := s.eltwise_delivers (Machine.Width.elemWidth w) d r r fun x _ _ => (x, .none)
  rw [← image] at delivered
  exact delivered.elements_none run h fun _ => rfl

end

/-- The lanes that an inserted element covers. -/
theorem getLsbD_insertLanes (w : Width) (k : Nat) {j : Nat} (hj : j < 256) :
    (if w.bits = 64 then 3#256 <<< govBit w.bits k else 1#256 <<< govBit w.bits k).getLsbD j =
      decide (j * 32 / w.bits = k ∨ j = k * w.bits / 32) := by
  have two (l : Nat) : (3#256 <<< l).getLsbD j = decide (j = l ∨ j = l + 1) := by
    rw [show 3#256 = 1#256 ||| 1#256 <<< 1 from rfl, BitVec.shiftLeft_or_distrib, ← BitVec.shiftLeft_add,
      BitVec.getLsbD_or, getLsbD_one_shiftLeft _ hj, getLsbD_one_shiftLeft _ hj, Bool.decide_or, Nat.add_comm]
  cases w
  case w64 =>
    rw [show Width.w64.bits = 64 from rfl, if_pos rfl, two, decide_eq_decide, govBit]
    omega
  all_goals
    rw [if_neg (by decide), getLsbD_one_shiftLeft _ hj, decide_eq_decide, govBit]
    simp only [Width.bits]
    omega

/-! The instructions. -/

theorem vectorSelectBroadcast : VectorSelectBroadcast := by
  intro s w d a b g p k
  refine ⟨⟨_, exec_vsel s d a b, fun j => elt_select _ _ _, fun full => ?_⟩, ⟨_, rfl, rfl, rfl⟩,
    s.vimage_image w d (exec_vbcast s w d g) (replicate_eq_map_range _ _) fun i _ => ?_,
    s.vimage_image w d (exec_vbcastImm s w d k) (replicate_eq_map_range _ _) fun i _ => ?_,
    s.vimage_image w d (exec_viota s w d g) (by rw [below_eq_range]) fun i _ => ?_, ?_, ?_⟩
  · rw [full, select_allOnes]
  · exact ofNat_of_eq_toNat (s.src_eq w g)
  · exact ofNat_of_eq_toNat (immInt_eq w.bits k)
  · exact BitVec.eq_of_toNat_eq (by simp)
  · rw [LaneBits, exec_vmovpToPred, execVmovpToPred, elems_eq, List.map_map]
    refine s.vecToPred_laneBits p _ .none fun j hj _ => (predOf_map_range elemWidth_lane _ hj).trans ?_
    rw [laneTruth_lane]
    exact bne_toNat (elt 32 (s.vec a) j) 0
  · have delivered := s.eltwise_delivers elemWidth_lane d id id fun j _ _ =>
      (if (s.pred p).getLsbD j then 0xFFFFFFFF else 0, .none)
    rw [List.map_id, ← below_eq_range] at delivered
    refine delivered.elements_none (exec_vmovpToVec s d p) (fun j _ => ?_) fun _ => rfl
    exact apply_ite (BitVec.ofNat 32) _ _ _

theorem vectorPermutes : VectorPermutes := by
  intro s w n d a b g h e x y k
  have hw := Machine.Width.elemWidth w
  refine ⟨s.vimage_image w d (exec_vperm s w d a b) (by rw [elems_eq, List.map_map]) fun i _ => ?_,
    s.vimage_image w d (exec_vrot s w d a h) (by rw [elems_eq]; exact rotate_map_range _ _ _)
      fun i _ => ofNat_of_eq_toNat rfl,
    s.vimage_image w d (exec_vzip s w d a b) (r := fun i => if i % 2 = 0 then (x (i / 2)).toNat else (y (i / 2)).toNat)
      ?_ fun i _ => ?_,
    s.vimage_image w d (exec_vunzip s w d a b)
      (r := fun i => if i < e / 2 then (x (2 * i)).toNat else (y (2 * (i - e / 2))).toNat) ?_ fun i _ => ?_, ?_, ?_⟩
  · exact ofNat_of_eq_toNat (toNat_elt _ _ _).symm
  · rw [elems_eq, elems_eq, ← List.map_take, ← List.map_take, List.take_range, Nat.min_eq_left (Nat.div_le_self _ _),
      interleave_map_range, ← hw.even_count]
  · exact ofNat_of_eq_toNat (apply_ite BitVec.toNat _ _ _).symm
  · rw [elems_eq, elems_eq, hw.even_count, evens_map_range, evens_map_range, append_map_range]
    rfl
  · exact ofNat_of_eq_toNat (apply_ite BitVec.toNat _ _ _).symm
  · rw [exec_vextr, execVextr, ← toNat_elt]
    refine (apply_ite Host.Outcome.next _ _ _).trans (if_congr Iff.rfl ?_ rfl)
    cases n
    · rw [widen_signed, ofNat_of_eq_toNat rfl]; rfl
    · rw [widen_natural, ofNat_of_eq_toNat rfl]; rfl
  · rw [exec_vins, execVins]
    by_cases act : active s w.bits k = true
    · rw [if_pos act]
      refine ⟨_, _, congrArg _ (if_pos act), fun j => getLsbD_insertLanes w k, fun i hi => ?_⟩
      rw [hw.elt_ofNat _ hi, elemAt_setElem, s.src_eq, ← toNat_elt, Nat.mod_eq_of_lt (BitVec.isLt _)]
      exact ofNat_of_eq_toNat (apply_ite BitVec.toNat _ _ _).symm
    · rw [if_neg act]
      exact congrArg _ (if_neg act)

/-- Settles O10: the masks and images by lane and place, and an inserted element by the lanes that hold it. -/
theorem vectorMoves : Obligations.VectorMoves := ⟨vectorSelectBroadcast, vectorPermutes⟩

end Sys2Proof.Machine
end

section
/-!
SUPPORT. What the shapes of float vector instructions leave in each element and each lane (R90, R171, R179–R181).
-/
namespace Sys2Proof.Machine
open Sys2Proof.Spec

/-! Draws and sources over the places of a register. -/

theorem draws_eq_map (x : Word) (n : Nat) :
    (draws x n).1 = (List.range n).map fun i => (seedAfter x (i + 1)).toNat / 2 ^ 32 := by
  induction n generalizing x with
  | zero => rfl
  | succ n ih =>
    rw [draws, ih, drawOf_eq, List.range_succ_eq_map, List.map_cons, List.map_map]
    simp only [seedAfter_nextSeed]
    rfl

theorem State.drawFor_eq_map (s : State) (r : Rnd) (n : Nat) :
    (s.drawFor r n).1 = (List.range n).map fun i => (modeOf s r i).draw := by
  unfold State.drawFor modeOf
  split
  · exact draws_eq_map _ n
  · exact replicate_eq_map_range n 0

theorem State.fsrc_eq_map (s : State) (f : Fmt) (b : FSrc) :
    ∃ y, s.fsrc f b = (List.range (elemCount f.width)).map y ∧ ∀ i, f.value (y i) = fsrcVal s f b i := by
  cases b with
  | vec v => exact ⟨_, elems_eq _ _, fun _ => rfl⟩
  | imm k => exact ⟨_, replicate_eq_map_range _ _, fun _ => rfl⟩

theorem elemWidth_sty (t : STy) : ElemWidth (styFmt t).width := by
  cases t <;> simp [ElemWidth, styFmt, fmtF32, fmtF16, fmtBf16]

/-! Elements. -/

section
variable {e : Instr} (s : State) (r : Rnd) (d a : Vr)

theorem State.fmapD_elements {f : Fmt} (hw : ElemWidth f.width) (x y : Nat → Nat)
    {op : RMode → Nat → Nat → Nat → Nat × Fl}
    (run : exec e s = s.fmapD f r d ((List.range (elemCount f.width)).map x)
      ((List.range (elemCount f.width)).map y) op) :
    FloatElements e s f.width d r fun md i => op md (x i) (y i) (elt f.width (s.vec d) i).toNat := by
  have merged := merge_delivers s hw (drawn s r (8192 / f.width)) d fun i =>
    op (modeOf s r i) (x i) (y i) (elt f.width (s.vec d) i).toNat
  rw [State.fmapD, s.drawFor_drawn, s.drawFor_eq_map, elems_eq, zip4_map, ← elems_eq] at run
  obtain ⟨v, lanes, next, covers, elements⟩ := merged
  exact ⟨v, lanes, run.trans next, covers, elements⟩

/-- An operation on two sources and the old element, in the type's values. -/
theorem State.farith_elements {t : VTy} {b : FSrc} {op : RMode → Fv → Fv → Fv → Fv × Fl}
    (run : exec e s = s.farith t r d a b op) :
    FloatElements e s (vtyFmt t).width d r fun md i => (vtyFmt t).finish md
      (op md (fval (vtyFmt t) (s.vec a) i) (fsrcVal s (vtyFmt t) b i) (fval (vtyFmt t) (s.vec d) i)) := by
  obtain ⟨y, src, value⟩ := s.fsrc_eq_map (vtyFmt t) b
  simp only [State.farith, src, elems_eq] at run
  have elements := s.fmapD_elements r d (elemWidth_vty t) (fun i => (elt (vtyFmt t).width (s.vec a) i).toNat) y run
  simp only [value] at elements
  exact elements

/-- An operation on the bits of one source. -/
theorem State.funary_elements {f : Fmt} (hw : ElemWidth f.width) {op : RMode → Nat → Nat × Fl}
    (run : exec e s = s.funary f r d a op) :
    FloatElements e s f.width d r fun md i => op md (elt f.width (s.vec a) i).toNat := by
  simp only [State.funary, elems_eq] at run
  have elements := s.fmapD_elements r d hw (fun i => (elt f.width (s.vec a) i).toNat) _ run
  exact elements

end

/-- Settles O11: each meaning is its shape with its operation on values. -/
theorem floatArithmetic : Obligations.FloatArithmetic := by
  intro s t r d a a' b f x y z el
  exact ⟨s.farith_elements r d a (op := fun md x y _ => fvAdd md x y) (exec_vfadd s t r d a b),
    s.farith_elements r d a (op := fun md x y _ => fvAdd md x y.negate) (exec_vfsub s t r d a b),
    s.farith_elements r d a (op := fun _ x y _ => fvMul x y) (exec_vfmul s t r d a b),
    s.farith_elements r d a (op := fvFma) (exec_vfma s t r d a b),
    s.farith_elements r d a (op := fun md x y z => fvFma md x y z.negate) (exec_vfms s t r d a b),
    s.farith_elements r d a (op := fun md x y z => fvFma md x.negate y z) (exec_vfnma s t r d a b),
    s.farith_elements .rne d a (op := fun _ x y _ => fvPick false x y) (exec_vfmin s t d a b),
    s.farith_elements .rne d a (op := fun _ x y _ => fvPick true x y) (exec_vfmax s t d a b),
    s.farith_elements r d a (b := .vec a') (op := fun _ x y _ => fvDiv x y) (exec_vfdiv s t r d a a'),
    s.funary_elements r d a (elemWidth_vty t) (op := fun md x => f.finish md (fvSqrt (f.value x)))
      (exec_vfsqrt s t r d a),
    s.funary_elements .rne d a (elemWidth_vty t) (op := fun _ x => rcpValue f (f.value x)) (exec_vfrcp s t d a),
    s.funary_elements .rne d a (elemWidth_vty t) (op := fun _ x => rsqValue f (f.value x)) (exec_vfrsq s t d a)⟩

end Sys2Proof.Machine
end

section
/-!
SUPPORT. Float compares, sign operations and classes (R171, R181).
-/
namespace Sys2Proof.Machine
open Sys2Proof.Spec

/-! Compares. -/

theorem fvCmp_eq_none (x y : Fv) : (fvCmp x y == none) = (x.isNan || y.isNan) := by
  cases x <;> cases y <;> rfl

/-- A float compare, lane by lane, with the events of its active elements. -/
theorem State.fcmp_laneBits {e : Instr} (s : State) {t : VTy} {p : Pr} {a b : Vr} {quiet : Bool}
    {test : Option Ordering → Bool} (run : exec e s = s.fcmp t p a b quiet test) :
    let x := fval (vtyFmt t) (s.vec a)
    let y := fval (vtyFmt t) (s.vec b)
    LaneBits e s p (activeEvents s (vtyFmt t).width fun i =>
        flInv (if quiet then (x i).isSig || (y i).isSig else (x i).isNan || (y i).isNan))
      (laneTruth (vtyFmt t).width fun i => test (fvCmp (x i) (y i))) := by
  intro x y
  have truth (c : Bool) : ((if c then 1 else 0 : Nat) == 1) = c := by cases c <;> rfl
  have hw := elemWidth_vty t
  simp only [State.fcmp, elems_eq, List.map_map, List.zipWith_map, List.zipWith_self, activeList_eq hw, sumFl_map,
    Function.comp_def, truth] at run
  rw [LaneBits, run]
  exact s.vecToPred_laneBits p _ _ fun j hj _ => predOf_map_range hw _ hj

/-! Sign operations. -/

section
variable {n : Nat} (pos : 0 < n) (x : BitVec n)
include pos

theorem toNat_and_not_top : (x &&& ~~~BitVec.twoPow n (n - 1)).toNat = x.toNat % 2 ^ (n - 1) := by
  obtain ⟨w, rfl⟩ := Nat.exists_eq_succ_of_ne_zero pos.ne'
  rw [Nat.succ_sub_one]
  apply Nat.eq_of_testBit_eq
  intro j
  rw [BitVec.testBit_toNat, Nat.testBit_mod_two_pow, BitVec.testBit_toNat, BitVec.getLsbD_and, BitVec.getLsbD_not,
    BitVec.getLsbD_twoPow]
  obtain low | rfl | high := Nat.lt_trichotomy j w
  · simp [low, low.ne', Nat.lt_succ_of_lt low]
  · simp
  · simp [high.not_gt, BitVec.getLsbD_of_ge x j high]

theorem toNat_xor_top : (x ^^^ BitVec.twoPow n (n - 1)).toNat =
    (if x.getLsbD (n - 1) then 0 else 2 ^ (n - 1)) + x.toNat % 2 ^ (n - 1) := by
  obtain ⟨w, rfl⟩ := Nat.exists_eq_succ_of_ne_zero pos.ne'
  rw [Nat.succ_sub_one]
  have split : (if x.getLsbD w then 0 else 2 ^ w) + x.toNat % 2 ^ w =
      2 ^ w * (!x.getLsbD w).toNat + x.toNat % 2 ^ w := by
    cases x.getLsbD w <;> simp
  rw [split]
  apply Nat.eq_of_testBit_eq
  intro j
  rw [Nat.testBit_two_pow_mul_add _ (Nat.mod_lt _ (Nat.two_pow_pos w)), BitVec.testBit_toNat, BitVec.getLsbD_xor,
    BitVec.getLsbD_twoPow]
  obtain low | rfl | high := Nat.lt_trichotomy j w
  · rw [if_pos low, Nat.testBit_mod_two_pow, decide_eq_true low, BitVec.testBit_toNat]
    simp [low.ne']
  · rw [if_neg (Nat.lt_irrefl j), Nat.sub_self, Nat.testBit_zero]
    cases x.getLsbD j <;> simp
  · obtain ⟨k, rfl⟩ := Nat.exists_eq_add_of_lt high
    rw [if_neg (by omega), BitVec.getLsbD_of_ge x _ high, Nat.add_assoc, Nat.add_sub_cancel_left, Nat.testBit_succ]
    cases x.getLsbD w <;> simp

end

section
variable (f : Fmt) (pos : 0 < f.width) (x : BitVec f.width)
include pos

theorem signOp_clear : signOp f x.toNat false =
    if (f.value x.toNat).isNan then (f.nanBits, flInv (f.value x.toNat).isSig)
    else ((x &&& ~~~BitVec.twoPow f.width (f.width - 1)).toNat, .none) := by
  rw [toNat_and_not_top pos, signOp, Fmt.sign, if_neg Bool.false_ne_true, Nat.zero_add]

theorem signOp_flip : signOp f x.toNat (!bitOf x.toNat (f.width - 1)) =
    if (f.value x.toNat).isNan then (f.nanBits, flInv (f.value x.toNat).isSig)
    else ((x ^^^ BitVec.twoPow f.width (f.width - 1)).toNat, .none) := by
  rw [toNat_xor_top pos, signOp, Fmt.sign, bitOf_eq_testBit, BitVec.testBit_toNat]
  cases x.getLsbD (f.width - 1) <;> rfl

end

/-! Classes. -/

/-- The class of an encoding of an IEEE format, by its fields (R181). -/
theorem classOf_ieee (f : Fmt) (ieee : f.tops = .ieee) (frac : 0 < f.fbits) (x : Nat) :
    let neg := x.testBit (f.width - 1)
    let ef := x / 2 ^ f.fbits % 2 ^ f.ebits
    let fr := x % 2 ^ f.fbits
    classOf f x = 2 ^ (if ef = 2 ^ f.ebits - 1 then
        if fr = 0 then (if neg then 0 else 7) else if fr < 2 ^ (f.fbits - 1) then 8 else 9
      else if ef = 0 then
        if fr = 0 then (if neg then 3 else 4) else (if neg then 2 else 5)
      else if neg then 1 else 6) := by
  intro neg ef fr
  have field : bitsOf x f.fbits f.ebits = ef := rfl
  have sign : bitOf x (f.width - 1) = neg := bitOf_eq_testBit _ _
  have quiet : bitOf fr (f.fbits - 1) = !decide (fr < 2 ^ (f.fbits - 1)) := by
    obtain ⟨k, hk⟩ := Nat.exists_eq_add_of_lt frac
    have bound : fr < 2 ^ f.fbits := Nat.mod_lt _ (Nat.two_pow_pos _)
    rw [Nat.zero_add] at hk
    rw [hk, Nat.pow_succ] at bound
    rw [hk, Nat.add_sub_cancel, bitOf_eq_testBit, Nat.testBit_eq_decide_div_mod_eq, ← decide_not, decide_eq_decide, not_lt,
      ← Nat.one_mul (2 ^ k), ← Nat.le_div_iff_mul_le (Nat.two_pow_pos k), Nat.one_mul]
    have half : fr / 2 ^ k < 2 := Nat.div_lt_of_lt_mul bound
    generalize fr / 2 ^ k = q at half
    omega
  rw [classOf, Fmt.value]
  simp only [ieee, field, sign, show x % 2 ^ f.fbits = fr from rfl, quiet]
  by_cases top : ef = 2 ^ f.ebits - 1
  · rw [if_pos top, if_pos top]
    by_cases zero : fr = 0
    · rw [if_pos zero, if_pos zero]
      cases neg <;> rfl
    · rw [if_neg zero, if_neg zero]
      by_cases low : fr < 2 ^ (f.fbits - 1)
      · simp [low]
      · simp [low]
  · rw [if_neg top, if_neg top]
    by_cases sub : ef = 0
    · rw [if_pos sub, if_pos sub]
      by_cases zero : fr = 0
      · simp only [zero, if_true]
        cases neg <;> rfl
      · simp only [zero, if_false, sub, if_true]
        cases neg <;> rfl
    · have normal : 2 ^ f.fbits + fr ≠ 0 := by positivity
      simp only [sub, normal, if_false]
      cases neg <;> rfl

theorem vtyFmt_ieee (t : VTy) : (vtyFmt t).tops = .ieee ∧ 0 < (vtyFmt t).fbits ∧ 0 < (vtyFmt t).width := by
  cases t <;> decide

/-- Settles O12: the compares lane by lane, the sign operations as changes of the top bit, and the classes by field. -/
theorem floatCompareClass : Obligations.FloatCompareClass := by
  intro s t p d a b f w x y cmp quiet loud bits top canon
  obtain ⟨ieee, frac, pos⟩ := vtyFmt_ieee t
  have unordered := s.fcmp_laneBits (exec_vfcmpun s t p a b)
  have abs := s.funary_elements .rne d a (elemWidth_vty t) (exec_vfabs s t d a)
  have neg := s.funary_elements .rne d a (elemWidth_vty t) (exec_vfneg s t d a)
  have cls := s.funary_elements .rne d a (elemWidth_vty t) (exec_vfclass s t d a)
  simp only [fvCmp_eq_none] at unordered
  simp only [signOp_clear _ pos] at abs
  simp only [signOp_flip _ pos] at neg
  simp only [classOf_ieee _ ieee frac, BitVec.testBit_toNat, ← BitVec.msb_eq_getLsbD_last] at cls
  exact ⟨s.fcmp_laneBits (quiet := true) (test := fun o => o == some .eq) (exec_vfcmpeq s t p a b),
    s.fcmp_laneBits (quiet := true) (test := fun o => o != some .eq) (exec_vfcmpne s t p a b),
    s.fcmp_laneBits (quiet := false) (test := fun o => o == some .lt) (exec_vfcmplt s t p a b),
    s.fcmp_laneBits (quiet := false) (test := fun o => o == some .lt || o == some .eq) (exec_vfcmple s t p a b),
    unordered, abs, neg, cls⟩

end Sys2Proof.Machine
end

section
/-!
SUPPORT. Exact and special values of the transcendental instructions (R184).
-/
namespace Sys2Proof.Machine
open Sys2Proof.Spec

/-! Powers of two. -/

/-- A whole number in fixed point. -/
theorem toFx_whole (m : Nat) : toFx m 0 = m * 2 ^ 256 := rfl

/-- An integer power of two is exact. -/
theorem exp2Value_intValue {i : Int} (small : i.natAbs < 2 ^ 13) : exp2Value (i < 0) i.natAbs 0 = .fin false 1 i := by
  rw [exp2Value]
  by_cases zero : i.natAbs = 0
  · rw [if_pos zero, Int.natAbs_eq_zero.1 zero]
  · have size : Nat.log2 i.natAbs < 13 := (Nat.log2_lt zero).2 small
    have whole : i.natAbs * 2 ^ 256 / fxOne = i.natAbs := Nat.mul_div_cancel _ (Nat.two_pow_pos 256)
    have frac : i.natAbs * 2 ^ 256 % fxOne = 0 := Nat.mul_mod_left _ _
    rw [if_neg zero, if_neg (by omega), if_neg (by omega), toFx_whole]
    simp only [whole, frac, if_true]
    congr 1
    simp only [decide_eq_true_eq]
    split <;> omega

/-- A power of two in the normal range of `f32`. -/
theorem deliver_two_zpow (md : RMode) {k : Nat} (hk : k < 254) :
    fmtF32.deliver md false (.fin false 1 ((k : Int) - 126)) = ((k + 1) * 2 ^ 23, .none) := by
  have quantum : max ((k : Int) - 126 + (Nat.log2 1 : Nat)) fmtF32.emin - fmtF32.fbits = (k : Int) - 149 := by
    simp only [show Nat.log2 1 = 0 from rfl, Fmt.emin, fmtF32]
    omega
  have rounded : roundNat md false 1 ((k : Int) - 149 - ((k : Int) - 126)) = (2 ^ 23, false) := by
    rw [show (k : Int) - 149 - ((k : Int) - 126) = -23 by omega]
    rfl
  rw [Fmt.deliver_of_ne_zero _ md false false one_ne_zero, Fmt.round]
  have fits : ¬(fmtF32.topQuantum < (k : Int) - 149 ∨ (k : Int) - 149 = fmtF32.topQuantum ∧ fmtF32.topSig < 2 ^ 23) := by
    simp only [Fmt.topQuantum, Fmt.topField, Fmt.topSig, fmtF32]
    omega
  have field : ((k : Int) - 149 + fmtF32.bias + fmtF32.fbits).toNat = k + 1 := by
    rw [show (fmtF32.bias : Int) = 127 from rfl, show (fmtF32.fbits : Int) = 23 from rfl]
    omega
  simp only [quantum, rounded, show ¬(2 ^ 23 ≥ 2 ^ (fmtF32.fbits + 1)) by norm_num [fmtF32], if_false]
  rw [Fmt.topQuantum] at fits
  rw [if_neg fits, if_neg (show ¬2 ^ 23 < 2 ^ fmtF32.fbits from Nat.lt_irrefl _), field]
  exact Prod.ext (by simp [Fmt.sign, fmtF32]) rfl

theorem value_two_zpow {k : Nat} (hk : k < 254) :
    fmtF32.value ((k + 1) * 2 ^ 23) = .fin false (2 ^ 23) ((k : Int) - 149) := by
  have sign : bitOf ((k + 1) * 2 ^ 23) 31 = false := by
    rw [bitOf_eq_testBit]
    exact Nat.testBit_lt_two_pow (by omega)
  have field : bitsOf ((k + 1) * 2 ^ 23) 23 8 = k + 1 := by
    rw [bitsOf, Nat.mul_div_cancel _ (Nat.two_pow_pos 23), Nat.mod_eq_of_lt (by omega)]
  have frac : (k + 1) * 2 ^ 23 % 2 ^ 23 = 0 := Nat.mul_mod_left _ _
  rw [Fmt.value]
  simp only [fmtF32, sign, field, frac]
  rw [if_neg (by omega), if_neg (by omega)]
  congr 1
  omega

/-- The logarithm of a power of two is its exponent. -/
theorem log2Value_two_pow (n : Nat) (e : Int) : log2Value (2 ^ n) e = intValue (e + n) := by
  rw [log2Value, Nat.log2_two_pow]
  exact if_pos rfl

theorem transValue_f32 (g : Trans) (v : Fv) : transValue fmtF32 g v = transF32 g v := by
  rw [transValue]
  exact if_pos rfl

theorem exp2_whole {k : Nat} (hk : k < 254) :
    transValue fmtF32 .exp2 (intValue ((k : Int) - 126)) = ((k + 1) * 2 ^ 23, .none) := by
  rw [transValue_f32, intValue, transF32]
  simp only [exp2Value_intValue (show ((k : Int) - 126).natAbs < 2 ^ 13 by omega)]
  exact deliver_two_zpow rneMode hk

theorem log2_two_zpow {k : Nat} (hk : k < 254) : transValue fmtF32 .log2 (fmtF32.value ((k + 1) * 2 ^ 23)) =
    fmtF32.deliver rneMode false (intValue ((k : Int) - 126)) := by
  rw [transValue_f32, value_two_zpow hk, transF32]
  simp only [log2Value_two_pow]
  rw [if_neg (by decide), if_neg (by decide), show (k : Int) - 149 + (23 : Nat) = k - 126 by omega]

/-! Limits. -/

theorem num_halves (n : Nat) : num (.fin false n (-1)) = n / 2 := by
  rw [num, zpow_neg_one, div_eq_mul_inv, if_neg Bool.false_ne_true, one_mul]

theorem atLeastHalves_of_le {n m : Nat} {e : Int} (h : (n : Rat) / 2 ≤ num (.fin false m e)) :
    atLeastHalves m e n = true := by
  rw [atLeastHalves, fvCmp_fin, num_halves]
  obtain less | same := lt_or_eq_of_le h
  · rw [if_pos less]; rfl
  · rw [if_neg (by rw [same]; exact lt_irrefl _), if_pos same]; rfl

theorem abs_num (n : Bool) (m : Nat) (e : Int) : |num (.fin n m e)| = num (.fin false m e) := by
  have magnitude : (0 : Rat) ≤ m * 2 ^ e := mul_nonneg (Nat.cast_nonneg m) (two_zpow_pos e).le
  cases n
  · rw [abs_of_nonneg]
    simpa [num] using magnitude
  · simp [num, abs_mul, abs_of_pos (two_zpow_pos e)]

theorem ne_zero_of_halves_le {n m : Nat} {e : Int} (pos : 0 < n) (h : (n : Rat) / 2 ≤ num (.fin false m e)) : m ≠ 0 := by
  rintro rfl
  rw [num_fin_zero] at h
  have : (0 : Rat) < n / 2 := by positivity
  linarith

theorem tanh_far (n : Bool) {m : Nat} {e : Int} (far : 19 / 2 ≤ |num (.fin n m e)|) :
    transF32 .tanh (.fin n m e) = (if n then 0xBF800000 else 0x3F800000, .none) := by
  rw [abs_num] at far
  have limit := atLeastHalves_of_le (n := 19) (by exact_mod_cast far)
  have nonzero := ne_zero_of_halves_le (n := 19) (by decide) (by exact_mod_cast far)
  rw [transF32]
  simp only [nonzero, limit, if_true, if_false]
  cases n <;> decide

theorem sigm_far {m : Nat} {e : Int} (far : 35 / 2 ≤ num (.fin false m e)) :
    transF32 .sigm (.fin false m e) = (0x3F800000, .none) := by
  have limit := atLeastHalves_of_le (n := 35) (by exact_mod_cast far)
  have nonzero := ne_zero_of_halves_le (n := 35) (by decide) (by exact_mod_cast far)
  rw [transF32]
  simp only [nonzero, limit, if_true, if_false, Bool.not_false, Bool.and_self]
  decide

/-- Settles O14: each member is its shape with its function, powers of two are exact, and a limit is a comparison with a
number of halves. -/
theorem transcendentals : Obligations.Transcendentals := by
  refine ⟨fun s t d a => ?_, fun k hk => ⟨exp2_whole hk, log2_two_zpow hk⟩, fun n q m e g => ?_⟩
  · have wide := elemWidth_sty t
    exact ⟨s.funary_elements .rne d a wide (op := fun _ x => transValue (styFmt t) .exp2 ((styFmt t).value x))
        (exec_vfexp2 s t d a),
      s.funary_elements .rne d a wide (op := fun _ x => transValue (styFmt t) .log2 ((styFmt t).value x))
        (exec_vflog2 s t d a),
      s.funary_elements .rne d a wide (op := fun _ x => transValue (styFmt t) .tanh ((styFmt t).value x))
        (exec_vftanh s t d a),
      s.funary_elements .rne d a wide (op := fun _ x => transValue (styFmt t) .sigm ((styFmt t).value x))
        (exec_vfsigm s t d a)⟩
  · refine ⟨rfl, rfl, rfl, rfl, rfl, fun nonzero => ?_, ?_, ?_, tanh_far n, rfl, rfl, rfl, sigm_far⟩
    · rw [transF32]
      exact if_neg nonzero
    · cases n <;> rfl
    · cases n <;> rfl

end Sys2Proof.Machine
end

section
/-!
SUPPORT. That every operation on the state keeps memory in its one canonical form (R186): one lemma for each operation,
which says so of the state that it answers if it is so of the state that it starts from. Below `Canon` each proof is the path of
the operation's own updates; `same` is for those that an earlier lemma shows to leave memory alone.
-/
namespace Sys2Proof.Machine

/-- Memory is in its canonical form. -/
def State.Canon (s : State) : Prop := Memory.wf s.mem = true

namespace State.Canon

/-- A change of other fields than memory. -/
theorem same {s u : State} (mem : u.mem = s.mem) (ok : s.Canon) : u.Canon := by rwa [Canon, mem]
theorem ite {p : Prop} [Decidable p] {u v : State} (a : u.Canon) (b : v.Canon) : (if p then u else v).Canon := by
  split
  · exact a
  · exact b
/-- A fold keeps the canonical form of the state that its accumulator holds, if each step does. -/
theorem foldl_of {α β : Type} (f : β → State) {g : β → α → β} {l : List α} {b : β}
    (each : ∀ b x, (f b).Canon → (f (g b x)).Canon) (ok : (f b).Canon) : (f (l.foldl g b)).Canon := by
  induction l generalizing b with
  | nil => exact ok
  | cons x r ih => exact ih (each b x ok)
theorem foldl {α : Type} {g : State → α → State} {l : List α} {s : State} (each : ∀ u x, u.Canon → (g u x).Canon)
    (ok : s.Canon) : (l.foldl g s).Canon := foldl_of id each ok
theorem foldl_fst {α β : Type} {g : State × β → α → State × β} {l : List α} {b : State × β}
    (each : ∀ b x, b.1.Canon → (g b x).1.Canon) (ok : b.1.Canon) : (l.foldl g b).1.Canon := foldl_of Prod.fst each ok
theorem ite_fst {β : Type} {p : Prop} [Decidable p] {u v : State × β} (a : u.1.Canon) (b : v.1.Canon) :
    (if p then u else v).1.Canon := by
  split
  · exact a
  · exact b
theorem of_fst {β : Type} {p : State × β} {u : State} {x : β} (h : p = (u, x)) (ok : p.1.Canon) : u.Canon := by
  rwa [h] at ok

variable {s : State}

theorem with_free {x : Nat} (ok : s.Canon) : State.Canon { s with free := x } := ok
theorem with_agenda {l : List Ev} (ok : s.Canon) : State.Canon { s with agenda := l } := ok
theorem with_packets {n : Nat} {p : SMap Packet} (ok : s.Canon) : State.Canon { s with pktNum := n, packets := p } := ok
theorem with_logical {l : List Nat} (ok : s.Canon) : State.Canon { s with logical := l } := ok
theorem with_units {d : SMap Die} {q : SMap Quad} {k : SMap Core} (ok : s.Canon) :
    State.Canon { s with dies := d, quads := q, cores := k } := ok

/-! Updates of one core, slot, die, track or link. -/

theorem setCore {c : Nat} {x : Core} (ok : s.Canon) : (s.setCore c x).Canon := ok
theorem onCore {c : Nat} {f : Core → Core} (ok : s.Canon) : (s.onCore c f).Canon := .setCore ok
theorem setSlot {c n : Nat} {x : Slot} (ok : s.Canon) : (s.setSlot c n x).Canon := .onCore ok
theorem onSlot {c n : Nat} {f : Slot → Slot} (ok : s.Canon) : (s.onSlot c n f).Canon := .setSlot ok
theorem onDie {d : Nat} {f : Die → Die} (ok : s.Canon) : (s.onDie d f).Canon := ok
theorem onQuad {q : Nat} {f : Quad → Quad} (ok : s.Canon) : (s.onQuad q f).Canon := ok
theorem onLink {l : Nat} {f : Link → Link} (ok : s.Canon) : (s.onLink l f).Canon := ok
theorem onTrack {t : Nat} {f : Track → Track} (ok : s.Canon) : (s.onTrack t f).Canon := ok
theorem onMgmt {f : Mgmt → Mgmt} (ok : s.Canon) : (s.onMgmt f).Canon := ok
theorem onVault {c : Nat} {f : Vault → Vault} (ok : s.Canon) : (s.onVault c f).Canon := .onCore ok
theorem onLog {c : Nat} {f : Log → Log} (ok : s.Canon) : (s.onLog c f).Canon := .onCore ok
theorem onTrap {c : Nat} {f : TrapState → TrapState} (ok : s.Canon) : (s.onTrap c f).Canon := .onCore ok
theorem after {n : Nat} {e : Instr} {args : List Nat} (ok : s.Canon) : (s.after n e args).Canon := ok
theorem onGroup {c b : Nat} {f : Group → Group} (ok : s.Canon) : (s.onGroup c b f).Canon := .same (State.onGroup_mem ..) ok
theorem count {c i n : Nat} (ok : s.Canon) : (s.count c i n).Canon := .onCore ok
theorem useLines {c : Nat} {ls ws : List Nat} (ok : s.Canon) : (s.useLines c ls ws).Canon := .onCore ok
theorem charge {a : Option Nat} {pj : Nat} (ok : s.Canon) : (s.charge a pj).Canon := .same (State.charge_mem ..) ok

/-! Bytes, tags and poison. -/

theorem clean {gs : List Nat} (ok : s.Canon) : (s.clean gs).Canon := ok
theorem touch {a n : Nat} (ok : s.Canon) : (s.touch a n).Canon := .clean ok
theorem writeMem {a x n : Nat} (ok : s.Canon) : (s.writeMem a x n).Canon := State.writeMem_wf ok a x n
theorem putCells {cs : List Host.Cell} (ok : s.Canon) : (s.putCells cs).Canon := by
  induction cs generalizing s with
  | nil => exact ok
  | cons x r ih => exact ih (.writeMem ok)
theorem writeCells {cs : List Host.Cell} (ok : s.Canon) : (s.writeCells cs).Canon := .clean (.putCells ok)
theorem zeroMem {a n : Nat} (ok : s.Canon) : (s.zeroMem a n).Canon := State.zeroMem_wf ok a n
theorem markPoison {gs : List Nat} (ok : s.Canon) : (s.markPoison gs).Canon := ok
theorem setTag {a : Nat} {t : Bool} (ok : s.Canon) : (s.setTag a t).Canon := ok
theorem writeCap {a : Nat} {c : Cap} (ok : s.Canon) : (s.writeCap a c).Canon := .setTag (.writeMem ok)
theorem emptyWords {a n : Nat} (ok : s.Canon) : (s.emptyWords a n).Canon := ok
theorem setFull {a : Nat} {b : Bool} (ok : s.Canon) : (s.setFull a b).Canon := ok

/-! Registers and their commits. -/

theorem setBankC {c b i : Nat} {x : Word} (ok : s.Canon) : (s.setBankC c b i x).Canon :=
  .ite (.onCore ok) (.onGroup ok)
theorem setBankW {c b i : Nat} {x : Vec} (ok : s.Canon) : (s.setBankW c b i x).Canon :=
  .ite (.onCore ok) (.onGroup ok)
theorem share {c : Nat} {w : ShWrite} (ok : s.Canon) : (s.share c w).Canon := .onCore ok
theorem putGprAt {c n : Nat} {r : Gpr} {x : Word} {clock : Nat} (ok : s.Canon) : (s.putGprAt c n r x clock).Canon :=
  .ite ok (.ite (.onSlot ok) (.share ok))
theorem putVecAt {c n : Nat} {r : Vr} {x : Vec} {clock : Nat} {lanes : Pred} (ok : s.Canon) :
    (s.putVecAt c n r x clock lanes).Canon := .ite (.onSlot ok) (.share ok)
theorem putPredAt {c n : Nat} {r : Pr} {x : Pred} (ok : s.Canon) : (s.putPredAt c n r x).Canon := .ite ok (.onSlot ok)
theorem putCapAt {c n : Nat} {r : Kr} {x : Cap} (ok : s.Canon) : (s.putCapAt c n r x).Canon := .onSlot ok
theorem putGpr {r : Gpr} {x : Word} (ok : s.Canon) : (s.putGpr r x).Canon := .putGprAt ok
theorem putVec {r : Vr} {x : Vec} (ok : s.Canon) : (s.putVec r x).Canon := .putVecAt ok
theorem putPred {r : Pr} {x : Pred} (ok : s.Canon) : (s.putPred r x).Canon := .putPredAt ok
theorem putCap {r : Kr} {x : Cap} (ok : s.Canon) : (s.putCap r x).Canon := .putCapAt ok
theorem performShared {c : Nat} {w : ShWrite} {ovr : Pred} (ok : s.Canon) : (s.performShared c w ovr).Canon :=
  .ite (.setBankW ok) (.ite (.setBankC ok) ok)
theorem countLost {c n : Nat} (ok : s.Canon) : (s.countLost c n).Canon := .onCore ok
theorem commitShared {c : Nat} (ok : s.Canon) : (s.commitShared c).Canon :=
  .ite ok (.countLost (.foldl (fun _ _ ok' => .performShared ok') (.onCore ok)))

/-! Retiring, parking, traps, packets and the write queue. -/

theorem now {e : Instr} {args : List Nat} (ok : s.Canon) : (s.now e args).Canon := ok
theorem freeHolder {c h : Nat} (ok : s.Canon) : (s.freeHolder c h).Canon := .onCore ok
theorem rejoin {c n : Nat} (ok : s.Canon) : (s.rejoin c n).Canon := .onSlot ok
theorem notIssued (ok : s.Canon) : s.notIssued.Canon := .ite ok (.onCore ok)
theorem dropAwaited {c n : Nat} (ok : s.Canon) : (s.dropAwaited c n).Canon :=
  .onCore (.foldl (fun _ _ ok' => .freeHolder ok') ok)
theorem raiseAt {c n cause addr value resume : Nat} {noResume : Bool} (ok : s.Canon) :
    (s.raiseAt c n cause addr value resume noResume).Canon := .same (State.Keeps.raiseAt (c := c) s ..).mem ok
theorem trap {cause addr value : Nat} (ok : s.Canon) : (s.trap cause addr value).Canon :=
  .raiseAt (.ite (.notIssued ok) ok)
theorem trapField (ok : s.Canon) : s.trapField.Canon := .trap ok
theorem trapPriv (ok : s.Canon) : s.trapPriv.Canon := .trap ok
theorem putFieldVal {c n : Nat} {x : Nat × Nat × Nat} (ok : s.Canon) : (s.putFieldVal c n x).Canon :=
  .same (State.Keeps.putFieldVal (c := c) s ..).mem ok
theorem stepped {c n start next : Nat} (ok : s.Canon) : (s.stepped c n start next).Canon := .ite (.raiseAt ok) ok
theorem takeValue {c n : Nat} {e : PairVal} {x : Chain} {done : Nat} (ok : s.Canon) :
    (s.takeValue c n e x done).Canon := .stepped (.onSlot (.foldl (fun _ _ ok' => .putFieldVal ok') ok))
theorem leadDone {c n : Nat} (ok : s.Canon) : (s.leadDone c n).Canon := .same (State.Keeps.leadDone (c := c) s ..).mem ok
theorem retireAt {c n start next : Nat} (ok : s.Canon) : (s.retireAt c n start next).Canon :=
  .ite (.leadDone (.onSlot ok)) (.stepped (.onSlot ok))
theorem retireTo {next : Nat} (ok : s.Canon) : (s.retireTo next).Canon := .retireAt ok
theorem retire (ok : s.Canon) : s.retire.Canon := .retireTo ok
theorem bubble (ok : s.Canon) : s.bubble.Canon := .notIssued ok
theorem park {why : Why} {w : Wait} (ok : s.Canon) : (s.park why w).Canon := .onSlot ok
theorem parkRef {why : Why} {ref : Nat} {w : Wait} (ok : s.Canon) : (s.parkRef why ref w).Canon := .park ok
theorem onStrand {c ref : Nat} {f : Slot → Slot} (ok : s.Canon) : (s.onStrand c ref f).Canon :=
  .ite (.onSlot ok) (.onCore ok)
theorem onWait {c ref : Nat} {f : Wait → Wait} (ok : s.Canon) : (s.onWait c ref f).Canon := .onStrand ok
theorem giveCredit {via : Option Nat} {cls n : Nat} (ok : s.Canon) : (s.giveCredit via cls n).Canon := by
  unfold State.giveCredit
  split
  · exact ok
  · exact .onTrack ok
theorem agentAdmit {c n : Nat} (ok : s.Canon) : (s.agentAdmit c n).Canon := by
  induction n generalizing s with
  | zero => exact ok
  | succ n ih =>
    unfold State.agentAdmit
    split
    · exact ok
    · exact .ite (ih (.giveCredit (.onCore ok))) ok
theorem toAgent {p : Packet} {via : Option Nat} (ok : s.Canon) : (s.toAgent p via).Canon := .agentAdmit (.onCore ok)
theorem deliverVia {p : Packet} {via : Option Nat} (ok : s.Canon) : (s.deliverVia p via).Canon :=
  .ite (.toAgent ok) (by
    dsimp only
    split
    · exact .onDie (.giveCredit ok)
    · exact .onDie (.giveCredit ok)
    · exact .after (.giveCredit ok)
    · split
      · exact .after (.giveCredit ok)
      · exact .giveCredit ok)
theorem deliver {p : Packet} (ok : s.Canon) : (s.deliver p).Canon := .deliverVia ok
theorem inject {p : Packet} (ok : s.Canon) : (s.inject p).Canon := .ite ok (.onTrack ok)
theorem sendPkt {p : Packet} (ok : s.Canon) : (s.sendPkt p).Canon := .inject ok
theorem send {src dst cls flits : Nat} {launch : Option Nat} {body : Body} (ok : s.Canon) :
    (s.send src dst cls flits launch body).Canon := .sendPkt ok
theorem tell {c : Nat} {body : Body} (ok : s.Canon) : (s.tell c body).Canon := .ite (.deliver ok) ok
theorem dropPacket {id : Nat} (ok : s.Canon) : (s.dropPacket id).Canon := ok
theorem vreq {c addr beats : Nat} {cont : VCont} {launch : Option Nat} (ok : s.Canon) :
    (s.vreq c addr beats cont launch).Canon := .after (.onVault ok)
theorem installWalked {c : Nat} {ts : List Tlb} (ok : s.Canon) : (s.installWalked c ts).Canon := .ite ok (.onCore ok)
theorem walkFor {pages : List (Nat × Nat)} (ok : s.Canon) : (s.walkFor pages).Canon :=
  .foldl (fun _ _ ok' => .now ok') (.park (.notIssued ok))
theorem badChk {cause addr v : Nat} (ok : s.Canon) : (s.badChk cause addr v).Canon := .installWalked (.trap ok)
theorem withChk {r : Chk} {f : Xl → State} (ok : s.Canon) (okf : ∀ a, (f a).Canon) : (s.withChk r f).Canon := by
  unfold State.withChk
  split
  · exact .installWalked (okf _)
  · exact .walkFor ok
  · exact .badChk ok
theorem putVaultByte {c a : Nat} {x : Byte} (ok : s.Canon) : (s.putVaultByte c a x).Canon := by
  unfold State.putVaultByte
  split
  · exact .ite (.setSlot ok) (.ite (.putGprAt ok) (.ite (.setSlot ok) (.ite (.putPredAt ok) (.ite ok (by
      dsimp only
      split
      · exact .setSlot ok
      · exact .setSlot ok
      · exact .setSlot ok
      · exact .setSlot ok
      · exact .setSlot ok
      · exact ok)))))
  · split
    · exact .ite (.setBankW ok) (.ite (.setBankC ok) ok)
    · exact .writeMem ok
theorem putVaultCells {c : Nat} {cs : List Host.Cell} (ok : s.Canon) : (s.putVaultCells c cs).Canon :=
  .clean (.foldl (fun _ _ ok' => .putVaultByte ok') ok)
theorem enterLine {c : Nat} {cs : List Host.Cell} {launch : Option Nat} (ok : s.Canon) :
    (s.enterLine c cs launch).Canon := .onVault (.putVaultCells ok)
theorem putVaultTag {c a : Nat} {k : Cap} (ok : s.Canon) : (s.putVaultTag c a k).Canon := by
  unfold State.putVaultTag
  split
  · exact .ite (.onSlot ok) (.ite (.onSlot ok) ok)
  · exact .ite ok (.setTag ok)
theorem putTag? {c : Nat} {a : Option (Nat × Cap)} (ok : s.Canon) : (s.putTag? c a).Canon := by
  unfold State.putTag?
  split
  · exact .putVaultTag ok
  · exact ok
theorem enterPart {c : Nat} {l : Late} (ok : s.Canon) : (s.enterPart c l).Canon :=
  .markPoison (.putTag? (.enterLine ok))
theorem vaultParts {c : Nat} {cs : List Host.Cell} {launch : Option Nat} {who : Writer} {cap : Option (Nat × Cap)}
    {bad : List Nat} (ok : s.Canon) :
    (s.vaultParts c cs launch who cap bad).Canon := .foldl (fun _ _ ok' => .ite (.enterPart ok') (.onVault ok')) ok
theorem vaultWriteCap {c : Nat} {cs : List Host.Cell} {launch : Option Nat} {who : Writer} {cap : Option (Nat × Cap)}
    (ok : s.Canon) :
    (s.vaultWriteCap c cs launch who cap).Canon := .vaultParts ok
theorem vaultWrite {c : Nat} {cs : List Host.Cell} {launch : Option Nat} {who : Writer} (ok : s.Canon) :
    (s.vaultWrite c cs launch who).Canon := .vaultWriteCap ok
theorem reserve {c taker what num : Nat} (ok : s.Canon) : (s.reserve c taker what num).Canon := .onCore ok
theorem release {c what num : Nat} (ok : s.Canon) : (s.release c what num).Canon := .onCore ok
theorem takeOff {c : Nat} {f : Flying} (ok : s.Canon) : (s.takeOff c f).Canon := .onCore ok
theorem land {c ref : Nat} {of : Option Nat} (ok : s.Canon) : (s.land c ref of).Canon := .ite ok (.onCore ok)
theorem sideTrap (ok : s.Canon) : s.sideTrap.Canon := .trap ok
theorem sideClear {f : State} (ok : s.Canon) (okf : f.Canon) : (s.sideClear f).Canon := .ite okf (.sideTrap ok)

/-! Counted events. -/

theorem countFl {c : Nat} {f : Fl} (ok : s.Canon) : (s.countFl c f).Canon :=
  .count (.count (.count (.count (.count (.count (.count ok))))))
theorem eventsAt {clock : Nat} {add : List (Nat × Nat)} (ok : s.Canon) : (s.eventsAt clock add).Canon :=
  .ite ok (.onCore ok)
theorem events {f : Fl} (ok : s.Canon) : (s.events f).Canon := .eventsAt ok
theorem latchEvents {f : Fl} (ok : s.Canon) : (s.latchEvents f).Canon := .eventsAt ok
theorem applyEvc {c : Nat} {w : EvcWrite} (ok : s.Canon) : (s.applyEvc c w).Canon :=
  .ite (.foldl (fun _ _ ok' => .count ok') ok) (.onCore (.foldl (fun _ _ ok' => .count ok') ok))
theorem commitEvcs {c : Nat} (ok : s.Canon) : (s.commitEvcs c).Canon :=
  .ite ok (.foldl (fun _ _ ok' => .applyEvc ok') (.onCore ok))

/-! Operands and results. -/

theorem putScalar {w : Width} {nat : Bool} {d : Gpr} {r : Nat} (ok : s.Canon) : (s.putScalar w nat d r).Canon :=
  .retire (.putGpr ok)
theorem putTruth {d : Pr} {b : Bool} (ok : s.Canon) : (s.putTruth d b).Canon := .retire (.putPred ok)
theorem setSeed {x : Word} (ok : s.Canon) : (s.setSeed x).Canon := .onSlot ok

/-! Transfers of control. -/

theorem setCode {k : Cap} (ok : s.Canon) : (s.setCode k).Canon := .onSlot ok
theorem transferCap {a : Kr} {target : Nat} {link : Option Gpr} (ok : s.Canon) :
    (s.transferCap a target link).Canon :=
  .withChk ok (fun _ => .retireTo (.setCode (by
    split
    · exact .putCap (.putGpr ok)
    · exact ok)))

/-! How waits end. -/

theorem writeFin {c n : Nat} {w : Wait} {clock : Nat} (ok : s.Canon) : (s.writeFin c n w clock).Canon := by
  unfold State.writeFin
  split
  · exact .putGprAt ok
  · exact .putVecAt ok
  · exact .putCapAt ok
  · exact .putVecAt ok
  · exact .putGprAt ok
  · exact .putGprAt (.putPredAt ok)
  · exact .putPredAt ok
  · exact .putVecAt ok
  · exact .putGprAt ok
  · exact .putGprAt ok
  · exact ok
  · exact ok
  · exact ok
  · exact ok
  · exact ok
  · exact ok
  · exact ok
  · exact ok
  · exact ok
  · exact ok
  · exact .putGprAt ok
theorem noteArrival {c n : Nat} {f : Fin} (ok : s.Canon) : (s.noteArrival c n f).Canon := .onSlot ok
theorem endWait {c n : Nat} {w : Wait} (ok : s.Canon) : (s.endWait c n w).Canon := by
  unfold State.endWait
  dsimp only
  split
  · exact .raiseAt ok
  · split
    · exact .rejoin ok
    · exact .retireAt (.noteArrival (.writeFin (.rejoin ok)))
theorem finishWait {c ref : Nat} (ok : s.Canon) : (s.finishWait c ref).Canon := by
  unfold State.finishWait
  split
  · exact ok
  · split
    · exact ok
    · exact .ite ok (.ite (.onStrand ok) (.endWait ok))
theorem arrived {c ref : Nat} {f : Wait → Wait} (ok : s.Canon) : (s.arrived c ref f).Canon := by
  unfold State.arrived
  dsimp only
  split
  · exact .ite (.finishWait (.onWait ok)) (.onWait ok)
  · exact .onWait ok
theorem arriveWord {c ref : Nat} {x : Word} {err : Option (Nat × Nat × Nat)} (ok : s.Canon) :
    (s.arriveWord c ref x err).Canon := .arrived ok
theorem pokeAgain {c : Nat} {why : Why} (ok : s.Canon) : (s.pokeAgain c why).Canon := by
  unfold State.pokeAgain
  exact .ite (.onCore (.foldl (fun _ _ ok' => .ite (.rejoin ok') ok') ok)) (.foldl (fun _ _ ok' => .ite (.rejoin ok')
      ok') ok)
theorem parkAgain {why : Why} (ok : s.Canon) : (s.parkAgain why).Canon := .park (.notIssued ok)
theorem endHolder {c h : Nat} (ok : s.Canon) : (s.endHolder c h).Canon := .pokeAgain (.freeHolder ok)
theorem takeEntries {h : Nat} {rs : List (Region × Bool)} (ok : s.Canon) : (s.takeEntries h rs).Canon := .onCore ok
theorem withEntries {rs : List (Region × Bool)} {f : Nat → State → State} (ok : s.Canon) (okf : ∀ a u, u.Canon → (f a
    u).Canon) :
    (s.withEntries rs f).Canon :=
  .ite (.bubble ok) (.ite (.parkAgain (.onSlot (.ite (.takeEntries ok) ok))) (okf _ _ (.onSlot (.ite (.takeEntries
      ok) ok))))
theorem unlessHeld {rs : List Region} {write : Bool} {f : State} (ok : s.Canon) (okf : f.Canon) :
    (s.unlessHeld rs write f).Canon := .ite (.parkAgain ok) okf
theorem meetFaults {c loc n : Nat} (ok : s.Canon) : (s.meetFaults c loc n).Canon := .same (State.meetFaults_mem ..) ok
theorem putAt {p : Place} {x n : Nat} {launch : Option Nat} (ok : s.Canon) : (s.putAt p x n launch).Canon := by
  unfold State.putAt
  split
  · exact .writeMem ok
  · exact .enterLine ok
theorem wordStep {p : Place} {op : WordOp} {launch : Option Nat} {r : State × Word × Bool} (ok : s.Canon)
    (step : s.wordStep p op launch = some r) : r.1.Canon := by
  unfold State.wordStep at step
  dsimp only at step
  split at step
  · cases step
    exact .putAt ok
  · cases step
    exact .ite (.putAt ok) ok
  · split at step
    · cases step
      dsimp only
      split
      · exact .setFull ok
      · exact ok
      · exact .setFull (.putAt ok)
      · exact .setFull ok
      · exact .setFull (.putAt ok)
      · exact ok
    · cases step
  · split at step
    · cases step
      exact .putAt ok
    · cases step
      exact .putAt (.ite (.count ok) ok)
    · cases step
      exact ok
    · split at step
      · cases step
      · cases step
        exact ok
theorem replyTo {p : Place} {w : Waiter} {x : Word} (ok : s.Canon) : (s.replyTo p w x).Canon := by
  unfold State.replyTo
  split
  · exact .arriveWord ok
  · exact .send ok
theorem dropWaiter {p : Place} {w : Waiter} (ok : s.Canon) : (s.dropWaiter p w).Canon := .onCore ok
theorem serveWaiters {p : Place} {released : Bool} {n : Nat} (ok : s.Canon) : (s.serveWaiters p released n).Canon := by
  induction n generalizing s with
  | zero => exact ok
  | succ n ih =>
    unfold State.serveWaiters
    dsimp only
    split
    · exact ok
    · split
      · exact ih (.replyTo (.dropWaiter ok))
      · split
        · next step => exact ih (.replyTo (wordStep (.dropWaiter ok) step))
        · exact ih (.dropWaiter ok)
theorem wakeWord {p : Place} {released : Bool} (ok : s.Canon) : (s.wakeWord p released).Canon := .serveWaiters ok
theorem wakeRange {p : Place} {n : Nat} (ok : s.Canon) : (s.wakeRange p n).Canon :=
  .foldl (fun _ _ ok' => by split <;> exact .wakeWord ok') ok
theorem performOwn {c n : Nat} {t : Slot} (ok : s.Canon) : (s.performOwn c n t).Canon := by
  unfold State.performOwn
  split
  · split
    · refine .ite ok (.ite (.finishWait (.onWait ok)) (.ite ok ?_))
      split
      · next step => exact .finishWait (.wakeWord (.onWait (wordStep ok step)))
      · exact ok
    · exact ok
  · exact ok
theorem performRef {c ref : Nat} (ok : s.Canon) : (s.performRef c ref).Canon := by
  unfold State.performRef
  split
  · exact .performOwn ok
  · exact ok
theorem intoSwitch {r : Req} (ok : s.Canon) : (s.intoSwitch r).Canon := .ite ok (.after ok)
theorem sendReq {r : Req} (ok : s.Canon) : (s.sendReq r).Canon := .send ok
theorem leavePosted {t : Slot} {r : Req} (ok : s.Canon) : (s.leavePosted t r).1.Canon := .sendReq ok
theorem releaseStrand {c : Nat} {t : Slot} (ok : s.Canon) : (s.releaseStrand c t).1.Canon := by
  unfold State.releaseStrand
  extract_lets kept go r u t'
  have left : u.Canon := by
    refine foldl_of (fun a : (State × Slot) × List Held × Nat => a.1.1) (fun a h oka => ?_) ok
    dsimp only [go]
    split
    · exact .leavePosted oka
    · exact oka
  split
  · split
    · exact .ite_fst (.sendReq left) left
    · exact left
  · exact left
theorem releaseHeld {c n : Nat} (ok : s.Canon) : (s.releaseHeld c n).Canon := .setSlot (.releaseStrand ok)
theorem releaseAll {c : Nat} (ok : s.Canon) : (s.releaseAll c).Canon := by
  unfold State.releaseAll
  exact .onCore (.foldl_fst (fun _ _ ok' => .releaseStrand ok') (.foldl (fun _ _ ok' => .releaseHeld ok') ok))
theorem post {r : Req} {cap : Cap} {index rkind member type reg : Nat} (ok : s.Canon) :
    (s.post r cap index rkind member type reg).Canon :=
  .ite (.parkAgain ok) (.ite (.retire (.setSlot (.leavePosted (.onLog ok)))) (.retire (.onSlot (.onLog ok))))
theorem ask {r : Req} {w : Wait} (ok : s.Canon) : (s.ask r w).Canon :=
  .ite (.sendReq (.parkRef (.onLog (.ite (.takeOff ok) ok)))) (.parkRef (.onLog (.ite (.takeOff ok) ok)))
theorem chargeScratch {n : Nat} (ok : s.Canon) : (s.chargeScratch n).Canon := .charge ok
theorem wordHere {p : Place} {op : WordOp} {why : Why} {done : State → Word → State} {w : Wait} {o : Nat} (ok : s.Canon)
    (okdone : ∀ u x, u.Canon → (done u x).Canon) : (s.wordHere p op why done w o).Canon := by
  have met := meetFaults (c := s.ic) (loc := p.loc) (n := op.bytes) (chargeScratch ok (n := op.bytes))
  refine .unlessHeld ok (.ite (.trap met) ?_)
  split
  · next step => exact .wakeWord (okdone _ _ (wordStep met step))
  · exact .onCore (.parkRef met)

/-! Loads and stores. -/

theorem endSoon {c ref : Nat} (ok : s.Canon) : (s.endSoon c ref).Canon := .after ok
theorem loadPieces {t : Xl} {ps : List (Nat × Nat × Nat)} {w : Wait} (ok : s.Canon) : (s.loadPieces t ps w).Canon :=
  .unlessHeld ok (.ite (by
    dsimp only
    split
    · exact .trap (.foldl (fun _ _ ok' => .meetFaults ok') (.chargeScratch ok))
    · exact .retire (.writeFin (.foldl (fun _ _ ok' => .meetFaults ok') (.chargeScratch ok)))) (.ite (.foldl (fun _ _
        ok' => .sendReq (.takeOff ok')) (.foldl (fun _ _ ok' => .vreq ok') (.onCore (.parkRef ok)))) (.ite (.retire
        (.writeFin ok)) (.ite (.endSoon (.parkRef ok)) (.foldl (fun _ _ ok' => .vreq ok') (.parkRef ok))))))
theorem load {t : MemTy} {d : Gpr} {k : Kr} {x : Nat} (ok : s.Canon) : (s.load t d k x).Canon :=
  .ite (.sideTrap ok) (.withChk ok (fun _ => .loadPieces ok))
theorem storeCells {cells : List Host.Cell} {cap : Option (Nat × Cap)} (ok : s.Canon) :
    (s.storeCells cells cap).Canon :=
  .ite (.parkRef (.vaultWriteCap (.ite ok (.onCore (.onCore ok))))) (.retire (.vaultWriteCap (.ite ok (.onCore
      (.onCore ok)))))
theorem appendLog {c : Nat} {es : List LogEnt} {acct : Option Nat} {who : Writer} (ok : s.Canon) :
    (s.appendLog c es acct who).Canon := .vaultWrite (.onLog ok)
theorem storeLog {es : List LogEnt} (ok : s.Canon) : (s.storeLog es).Canon :=
  .ite (.ite (.parkRef (.appendLog ok)) (.retire (.appendLog ok))) (.park (.notIssued ok))
theorem storeBytes {t : Xl} {groups : List (List (Nat × Byte))} {knum : Nat} {elem : Nat → Nat} (ok : s.Canon) :
    (s.storeBytes t groups knum elem).Canon :=
  .unlessHeld ok (.ite (.retire (.foldl (fun _ _ ok' => .wakeRange ok') (.writeCells (.chargeScratch ok)))) (.ite
      (.storeLog ok) (.ite (.trap ok) (.storeCells ok))))
theorem store {t : MemTy} {d : Gpr} {k : Kr} {x : Nat} (ok : s.Canon) : (s.store t d k x).Canon :=
  .withChk ok (fun _ => .storeBytes ok)
theorem prewalk {c n obj : Nat} {pages : List Nat} (ok : s.Canon) : (s.prewalk c n obj pages).Canon := .onSlot ok

/-! The matrix queue, tiles and buffers. -/

theorem enqueue {kind : MatKind} {notify : Bool} {rs : List (Region × Bool)} {drain : Nat} {f : Nat → State → State}
    (ok : s.Canon) (okf : ∀ a u, u.Canon → (f a u).Canon) :
    (s.enqueue kind notify rs drain f).Canon :=
  .ite (.bubble ok) (by
    dsimp only
    split
    · exact okf _ _ (.onCore ok)
    · exact okf _ _ (.ite (.reserve (.onCore (.ite (.takeEntries (.takeEntries ok)) (.takeEntries ok)))) (.onCore
        (.ite (.takeEntries (.takeEntries ok)) (.takeEntries ok)))))
theorem mmaIssue {mx ov nt : Bool} {d : Acc} {a b : Ob} (ok : s.Canon) : (s.mmaIssue mx ov nt d a b).Canon :=
  .ite (.trapField ok) (.enqueue ok (fun _ _ ok' => .retire ok'))
theorem tileRequests {c ref : Nat} {ps : List Piece} {launch : Option Nat} (ok : s.Canon) :
    (s.tileRequests c ref ps launch).Canon := .foldl (fun _ _ ok' => .vreq ok') ok
theorem rowCtl {k : Kr} {x : Nat} {cont : VCont} (ok : s.Canon) : (s.rowCtl k x cont).Canon :=
  .withChk ok (fun _ => .retire (.vreq ok))
theorem checkMove {x limit : Nat} {f : State} (ok : s.Canon) (okf : f.Canon) : (s.checkMove x limit f).Canon :=
  .ite (.trap ok) (.ite (.trap ok) okf)
theorem mfence {core : Bool} (ok : s.Canon) : (s.mfence core).Canon := .ite (.retire ok) (.park ok)
theorem performMma {c : Nat} {o : MatOp} {mx ovr : Bool} {d a b : Nat} (ok : s.Canon) :
    (s.performMma c o mx ovr d a b).Canon :=
  .countFl (.markPoison (.writeMem (.meetFaults (.meetFaults (.meetFaults ok)))))

/-! Ordering, atomics and words. -/

theorem release' {x : Nat} (ok : s.Canon) : (s.release' x).Canon := .onLog ok
theorem queryWriter {c ref w : Nat} {acct : Option Nat} (ok : s.Canon) : (s.queryWriter c ref w acct).Canon :=
  .send ok
theorem amoVault {t : Xl} {op : WordOp} {n : Nat} {d : Gpr} {knum : Nat} (ok : s.Canon) :
    (s.amoVault t op n d knum).Canon :=
  .unlessHeld ok (.ite (.endSoon (.parkRef ok)) (.foldl (fun _ _ ok' => .vreq ok') (.parkRef ok)))
theorem scratchCas {t : Xl} {op : WordOp} {d : Gpr} {k : Kr} (ok : s.Canon) : (s.scratchCas t op d k).Canon := by
  have met := meetFaults (c := s.ic) (loc := (s.placeOf t).loc) (n := op.bytes) (chargeScratch ok (n := op.bytes))
  refine .unlessHeld ok (.ite (.trap met) ?_)
  split
  · exact .retire met
  · next step => exact .wakeWord (.after (.parkRef (.same rfl (wordStep met step))))
theorem atomic {t : AmoTy} {d : Gpr} {k : Kr} {x : Nat} {op : WordOp} {postAs : Option (Nat × Nat)} (ok : s.Canon) :
    (s.atomic t d k x op postAs).Canon :=
  .ite (.sideTrap ok) (.withChk ok (fun _ => .ite (by
    split
    · exact .wordHere ok (fun _ _ ok' => .retire (.putGpr ok'))
    · exact .scratchCas ok) (.ite (by
    split
    · exact .ite (.post ok) (.ask ok)
    · exact .ask ok) (.amoVault ok))))
theorem fullEmpty {m : Fe} {d : Gpr} {k : Kr} {x need : Nat} {dst : Bool} {posted : Option Nat} (ok : s.Canon) :
    (s.fullEmpty m d k x need dst posted).Canon :=
  .withChk ok (fun _ => .ite (.wordHere ok (fun _ _ ok' => .retire (.ite (.putGpr ok') ok'))) (by
    split
    · exact .post ok
    · exact .ask ok))
theorem syncWord {m : Sw} {scope : Nat} {d : Gpr} {k : Kr} {i need : Nat} {dst : Bool} {why : Why} (ok : s.Canon) :
    (s.syncWord m scope d k i need dst why).Canon :=
  .ite (.withChk ok (fun _ => .ite (.wordHere (.ite ok (.release' ok)) (fun _ _ ok' => .retire (.ite (.putGpr ok')
      ok'))) (.ite (.post (.ite ok (.release' ok))) (.ask (.ite ok (.release' ok)))))) (.sideClear ok (.withChk ok
      (fun _ => .ite (.wordHere (.ite ok (.release' ok)) (fun _ _ ok' => .retire (.ite (.putGpr ok') ok'))) (.ite
      (.post (.ite ok (.release' ok))) (.ask (.ite ok (.release' ok)))))))

/-! Copies and collectives at issue. -/

theorem inBuffer {off n k elem : Nat} {f : State} (ok : s.Canon) (okf : f.Canon) :
    (s.inBuffer off n k elem f).Canon := .ite (.trap ok) okf
theorem withSync {b : Nat} {dst : Option Xl} {f : State} (ok : s.Canon) (okf : f.Canon) :
    (s.withSync b dst f).Canon :=
  .ite okf (by
    split
    · exact .ite (.trap ok) (.ite (.trap ok) (.ite (.trap ok) okf))
    · exact .ite (.trap ok) (.withChk ok (fun _ => okf)))
theorem withRanges {b : Nat} {fill : Bool} {f : Option Xl → Option Xl → State} (ok : s.Canon) (okf : ∀ a b, (f a
    b).Canon) :
    (s.withRanges b fill f).Canon :=
  .ite (.ite (.inBuffer ok (.withSync ok (okf _ _))) (.withChk ok (fun _ => .ite (.trap ok) (.withSync ok (okf _
      _))))) (.ite (.inBuffer ok (.ite (.inBuffer ok (.withSync ok (okf _ _))) (.withChk ok (fun _ => .ite (.trap ok)
      (.withSync ok (okf _ _)))))) (.withChk ok (fun _ => .ite (.inBuffer ok (.withSync ok (okf _ _))) (.withChk ok
      (fun _ => .ite (.trap ok) (.withSync ok (okf _ _)))))))
theorem acceptCopy {b : Nat} {fill : Bool} {src dst : Option Xl} (ok : s.Canon) : (s.acceptCopy b fill src dst).Canon := by
  unfold State.acceptCopy
  extract_lets k h bufReg reads writes paired follow notice entries s₁ s₂ s₃ s₄
  have ok₁ : s₁.Canon := .takeEntries ok
  have ok₂ : s₂.Canon := .ite ok₁ (.takeEntries ok₁)
  have ok₃ : s₃.Canon := .ite ok₂ (.takeEntries ok₂)
  have ok₄ : s₄.Canon := .ite (.reserve ok₃) ok₃
  exact .ite (.bubble ok) (.retire (.reserve (.onCore ok₄)))
theorem copyIssue {a : Vr} {k : Nat} (ok : s.Canon) : (s.copyIssue a k).Canon := by
  unfold State.copyIssue
  dsimp only
  split
  · exact .trap ok
  · exact .withRanges ok (fun _ _ => .acceptCopy ok)
theorem collIssue {scope : Nat} {a : Vr} {k : Nat} (ok : s.Canon) : (s.collIssue scope a k).Canon := by
  unfold State.collIssue
  dsimp only
  split
  · exact .trap ok
  · split
    · exact .trap ok
    · exact .withChk ok (fun _ => .withChk ok (fun _ => .ite (.bubble ok) (.send (.onDie (.retire (.reserve (.onCore
        (.takeEntries ok))))))))
theorem rcall {n : Nat} {k : Kr} {x : Idx} {need : Nat} {op : HomeOp} {fin : Fin} (ok : s.Canon) :
    (s.rcall n k x need op fin).Canon :=
  .sideClear ok (.withChk ok (fun _ => .foldl (fun _ _ ok' => .sendReq ok') (.parkRef ok)))

/-! Register lines and fetching. -/

theorem fillLines {c n : Nat} {needs ls : List Nat} (ok : s.Canon) : (s.fillLines c n needs ls).Canon :=
  .foldl (fun _ _ ok' => .vreq ok') (.onSlot ok)

/-! The vault controller and the vector latch. -/

theorem vaultLook {c : Nat} (ok : s.Canon) : (s.vaultLook c).Canon := .onVault ok
theorem agentGo {c pkt : Nat} (ok : s.Canon) : (s.agentGo c pkt).Canon := by
  unfold State.agentGo
  split
  · split
    · exact by split <;> exact .now ok
    · exact .now ok
    · exact ok
  · exact ok
theorem supEvent {c cause addr value : Nat} (ok : s.Canon) : (s.supEvent c cause addr value).Canon := .onTrap ok
theorem landBytes {c n : Nat} {w : Wait} {lo hi : Nat} (ok : s.Canon) : (s.landBytes c n w lo hi).Canon := by
  unfold State.landBytes
  split
  · exact .foldl (fun _ _ ok' => .markPoison ok') (.foldl (fun _ _ ok' => .foldl (fun _ _ ok₂ => .writeMem ok₂) ok')
      ok)
  · exact ok
theorem tileBeat {c ref addr done : Nat} (ok : s.Canon) : (s.tileBeat c ref addr done).Canon := by
  unfold State.tileBeat
  split
  · exact ok
  · split
    · exact ok
    · exact .onStrand (.landBytes ok)
theorem tileClean {c : Nat} {w : Wait} (ok : s.Canon) : (s.tileClean c w).Canon := by
  unfold State.tileClean
  split
  · exact .ite ok (.clean ok)
  · exact ok
theorem dropMat {c ref : Nat} (ok : s.Canon) : (s.dropMat c ref).Canon := by
  unfold State.dropMat
  dsimp only
  split
  · exact .endHolder (.onCore ok)
  · exact ok
theorem tileDone {c ref : Nat} (ok : s.Canon) : (s.tileDone c ref).Canon := by
  unfold State.tileDone
  split
  · exact .arrived (.ite (by
      split
      · exact .ite (.dropMat ok) ok
      · exact .endHolder (.tileClean ok)) ok)
  · exact ok
theorem tileStop {c ref cause : Nat} (ok : s.Canon) : (s.tileStop c ref cause).Canon := by
  unfold State.tileStop
  split
  · exact ok
  · split
    · exact ok
    · extract_lets mine quiet dropped e told
      have okdropped : dropped.Canon := by
        unfold dropped
        split
        · exact .dropMat (.onVault ok)
        · exact .endHolder (.onVault ok)
      have oktold : told.Canon := by
        unfold told
        split
        · exact .onSlot okdropped
        · exact okdropped
      exact .ite (.onStrand okdropped) (.raiseAt oktold)
theorem wakeLine {c line : Nat} (ok : s.Canon) : (s.wakeLine c line).Canon := .wakeRange ok
theorem enterLate {c n : Nat} (ok : s.Canon) : (s.enterLate c n).Canon := by
  induction n generalizing s with
  | zero => exact ok
  | succ n ih =>
    unfold State.enterLate
    split
    · exact ok
    · exact .ite (ih (.wakeLine (.enterPart (.onVault ok)))) ok
theorem wqFreed {c : Nat} (ok : s.Canon) : (s.wqFreed c).Canon :=
  .foldl (fun _ _ ok' => .wakeWord ok') (.enterLate ok)
theorem agentRead {c pkt : Nat} (ok : s.Canon) : (s.agentRead c pkt).Canon :=
  .ite (.agentGo (.onCore ok)) (.onCore ok)
theorem copyRead {c num : Nat} (ok : s.Canon) : (s.copyRead c num).Canon := .onCore ok
theorem vaultEnd {c : Nat} {r : VReq} (ok : s.Canon) : (s.vaultEnd c r).Canon := by
  unfold State.vaultEnd
  dsimp only
  split
  · exact .performRef (.arrived (.onVault ok))
  · exact .tileDone (.onVault ok)
  · exact .wqFreed (.onVault (.onVault ok))
  · exact .now (.onVault ok)
  · exact .agentRead (.onVault ok)
  · exact .copyRead (.onVault ok)
  · exact .now (.onVault ok)
  · exact .now (.onVault ok)
  · exact .onVault ok
  · exact .onVault ok
theorem repairRow {c : Nat} {r : VReq} (ok : s.Canon) : (s.repairRow c r).Canon :=
  .ite (.supEvent ok) (.foldl (fun _ _ ok' => .tileStop ok') (.after (.onVault ok)))
theorem beatFaults {c : Nat} {r : VReq} (ok : s.Canon) : (s.beatFaults c r).1.Canon :=
  .ite_fst ok (.onVault (.count (.markPoison ok)))
theorem bankFree {c b : Nat} {again : Instr} (ok : s.Canon) : (s.bankFree c b again).Canon :=
  .ite ok (.ite (.after (.onVault ok)) (.onVault (.vaultLook (.onVault ok))))
theorem fallToHalf {c : Nat} (ok : s.Canon) : (s.fallToHalf c).Canon :=
  .supEvent (.foldl (fun _ _ ok' => .tileStop ok') (.onVault ok))
theorem rcInstall {c n a : Nat} {victim : Option RcLine} (ok : s.Canon) : (s.rcInstall c n a victim).Canon := by
  unfold State.rcInstall
  dsimp only
  split
  · exact .ite (.onVault (.onCore ok)) (.onCore ok)
  · exact .onCore ok

/-! The agents and the homes. -/

theorem putMig {m : Mig} (ok : s.Canon) : (s.putMig m).Canon := ok
theorem onMig {id : Nat} {f : Mig → Mig} (ok : s.Canon) : (s.onMig id f).Canon := ok
theorem startWrite {line clear : Nat} {waiter : Option (Nat × Nat × Word)} {posted : Option (Nat × Nat × Nat)} {group
    : Option (Nat × Nat)} {migs : List (Nat × Nat)} (ok : s.Canon) :
    (s.startWrite line clear waiter posted group migs).Canon :=
  .foldl (fun _ _ ok' => .send ok') (.ite ok (.after ok))
theorem blank {loc n : Nat} (ok : s.Canon) : (s.blank loc n).Canon := ok
theorem createObject {obj : Nat} (ok : s.Canon) : (s.createObject obj).Canon := .foldl (fun _ _ ok' => .blank ok') ok
theorem tableApply {off : Nat} {device : Bool} {write : State → State} {waiter : Option (Nat × Nat × Word)} {posted :
    Option (Nat × Nat × Nat)} {group : Option (Nat × Nat)} (ok : s.Canon) (okwrite : ∀ u, u.Canon → (write u).Canon) :
    (s.tableApply off device write waiter posted group).Canon :=
  .ite ok (.startWrite (.foldl_fst (fun _ _ ok' => by
    split
    · exact .putMig ok'
    · exact ok') (.ite (.createObject (okwrite _ ok)) (okwrite _ ok))))
theorem tablePut {x v n : Nat} (ok : s.Canon) : (s.tablePut x v n).Canon := .writeMem ok
theorem sendPut {c off v n : Nat} {host : Bool} {group : Option (Nat × Nat)} (ok : s.Canon) :
    (s.sendPut c off v n host group).Canon := .sendReq ok
theorem answer {c : Nat} {r : Req} {w : Word} {v : Vec} {n : Nat} (ok : s.Canon) : (s.answer c r w v n).Canon :=
  .send ok
theorem answerErr {c : Nat} {r : Req} {cause value : Nat} (ok : s.Canon) : (s.answerErr c r cause value).Canon :=
  .send ok
theorem answerDone {c : Nat} {r : Req} {num : Nat} {refused : Bool} (ok : s.Canon) :
    (s.answerDone c r num refused).Canon := .send ok
theorem ackEntry {c : Nat} {r : Req} {pos : Nat} {again : Bool} (ok : s.Canon) : (s.ackEntry c r pos again).Canon :=
  .send (.onCore ok)
theorem refuse {c : Nat} {r : Req} {cause value : Nat} (ok : s.Canon) : (s.refuse c r cause value).Canon := by
  unfold State.refuse
  split
  · exact .ackEntry ok
  · exact ok
  · split
    · exact .answerDone ok
    · exact .answerErr ok
theorem agentFree {c : Nat} (ok : s.Canon) : (s.agentFree c).Canon := .onCore ok
theorem forward {c : Nat} {m : Mig} {p : Packet} (ok : s.Canon) : (s.forward c m p).Canon :=
  .ite (.onMig ok) (.sendPkt (.dropPacket ok))
theorem turnAway {c : Nat} {p : Packet} (ok : s.Canon) : (s.turnAway c p).Canon := by
  unfold State.turnAway
  dsimp only
  split
  · exact .refuse (.dropPacket ok)
  · exact .send (.dropPacket ok)
  · exact .send (.dropPacket ok)
  · exact .dropPacket ok
theorem agentServe {c : Nat} {p : Packet} (ok : s.Canon) : (s.agentServe c p).Canon := by
  unfold State.agentServe
  dsimp only
  split
  · exact .ite (.after (.onCore ok)) (.foldl (fun _ _ ok' => .vreq ok') (.onCore (.onCore ok)))
  · exact .after (.onCore ok)
  · exact .ite (.after (.onCore ok)) (.foldl (fun _ _ ok' => .vreq ok') (.onCore (.onCore ok)))
  · exact .after (.onCore ok)
  · exact .after (.onCore ok)
  · exact .after (.onCore ok)
  · exact .onCore ok
theorem agentStart {c : Nat} (ok : s.Canon) : (s.agentStart c).Canon := by
  unfold State.agentStart
  dsimp only
  split
  · exact ok
  · refine .ite ok ?_
    have admitted (f : Core → Core) (n : Nat) : ((s.onCore c f).agentAdmit c n).Canon := .agentAdmit (.onCore ok)
    split
    · exact admitted ..
    · refine .ite (.turnAway (admitted ..)) ?_
      split
      · exact .forward (admitted ..)
      · split
        · exact .ite (.agentServe (admitted ..)) (.onMig (admitted ..))
        · exact .agentServe (admitted ..)
theorem perform {pkt : Nat} {f : State → Nat → Req → State} (ok : s.Canon) (okf : ∀ u a b, u.Canon → (f u a b).Canon)
    :
    (s.perform pkt f).Canon := by
  unfold State.perform
  split
  · dsimp only
    split
    · exact .ite (.refuse (.dropPacket (.agentFree ok))) (.forward (.agentFree ok))
    · exact .ite (.after ok) (.ite (.refuse (.agentFree (.dropPacket ok))) (.ite (.refuse (.agentFree (.dropPacket
        ok))) (okf _ _ _ (.agentFree (.dropPacket ok)))))
  · exact ok
theorem rcWritten {c pkt : Nat} {r : Req} (ok : s.Canon) : (s.rcWritten c pkt r).Canon :=
  .ite (.after ok) (.answer (.agentFree (.dropPacket ok)))
theorem rcPut {c pkt x n : Nat} {r : Req} (ok : s.Canon) : (s.rcPut c pkt x n r).Canon := .wakeRange (.vaultWrite ok)
theorem rcallAt {c : Nat} {r : Req} {pkt : Nat} {p : Packet} (ok : s.Canon) : (s.rcallAt c r pkt p).Canon := by
  unfold State.rcallAt
  dsimp only
  split
  · exact .ite (.answerErr ok) (.answer ok)
  · exact .rcWritten (.rcPut (.onCore ok))
  · exact .ite (.answerErr ok) (.answer (.rcPut ok))
  · exact .ite (.answerErr ok) (.answer (.rcPut ok))
  · exact .ite (.answerErr ok) (.answer (.rcPut ok))
  · exact ok
theorem readSettle {c : Nat} {f : Fetch} (ok : s.Canon) : (s.readSettle c f).Canon := by
  unfold State.readSettle
  dsimp only
  split
  · exact .ite (.pokeAgain (.onCore ok)) ok
  · exact ok
theorem fetchAt {c : Nat} {p : Packet} {f : Fetch} (ok : s.Canon) : (s.fetchAt c p f).Canon :=
  .ite (.send (.agentFree (.dropPacket (.ite ok (.readSettle ok))))) (by
    split
    · exact .forward (.agentFree (.ite ok (.readSettle ok)))
    · exact .send (.agentFree (.dropPacket (.ite (.foldl (fun _ _ ok' => .meetFaults ok') (.ite ok (.readSettle ok)))
        (.ite ok (.readSettle ok))))))
theorem migCheck {id : Nat} (ok : s.Canon) : (s.migCheck id).Canon := by
  unfold State.migCheck
  split
  · exact .ite (.send ok) ok
  · exact ok
theorem pageAsk {m : Mig} (ok : s.Canon) : (s.pageAsk m).Canon := .ite (.after ok) (.vreq ok)
theorem pageRead {m : Mig} (ok : s.Canon) : (s.pageRead m).Canon :=
  .ite (.pageAsk (.onMig (.send ok))) (.migCheck (.foldl (fun _ _ ok' => by
    split
    · exact .forward ok'
    · exact ok') (.onMig (.onMig (.send ok)))))
theorem pageArrive {c : Nat} {p : Packet} (ok : s.Canon) : (s.pageArrive c p).Canon := by
  unfold State.pageArrive
  split
  · split
    · exact .agentFree (.dropPacket ok)
    · refine .ite (.after ok) ?_
      have written (a n l : Nat) (cs : List Host.Cell) :
          Memory.wf (Memory.writeAt ((s.zeroMem a n).emptyWords a n).mem l cs) = true :=
        Memory.writeAt_wf (emptyWords (zeroMem ok)) ..
      refine .ite (.agentFree (.dropPacket (.onVault (written ..)))) ?_
      exact .foldl (fun _ _ ok' => .wakeWord ok') (.onCore (.onMig (.agentFree (.dropPacket (.onVault (written ..))))))
  · exact ok
theorem entryPutAt {c : Nat} {r : Req} {n v : Nat} {host : Bool} {group : Option (Nat × Nat)} (ok : s.Canon) :
    (s.entryPutAt c r n v host group).Canon := .ite ok (.tableApply ok (fun _ ok' => .enterLine ok'))
theorem wordAt {c : Nat} {r : Req} {op : WordOp} {u : State} (ok : s.Canon) (step : s.wordAt c r op = some u) :
    u.Canon := by
  unfold State.wordAt at step
  dsimp only at step
  split at step
  · cases step
  · next x h =>
    have onward := wordStep ok h
    have answered {v : State} (okv : v.Canon) : (match r.posted with
        | some num => v.answerDone c r num false
        | none => v.answer c r x.2.1 0 8).Canon := by
      split
      · exact .answerDone okv
      · exact .answer okv
    split_ifs at step <;> obtain rfl := Option.some.inj step
    · exact answered ok
    · exact .tableApply ok fun _ _ => .wakeWord onward
    · exact .tableApply ok fun _ _ => .wakeWord onward
    · exact .tableApply ok fun _ _ => .wakeWord (answered onward)
    · exact .wakeWord (answered onward)
theorem homeWord {c : Nat} {r : Req} {op : WordOp} (ok : s.Canon) : (s.homeWord c r op).Canon := by
  refine .ite (.answerErr ok) ?_
  split
  · next step => exact wordAt ok step
  · exact .ite (.onCore ok) (.send ok)
theorem performWord {pkt : Nat} (ok : s.Canon) : (s.performWord pkt).Canon :=
  .perform ok (fun _ _ _ ok' => by
    split
    · exact .homeWord ok'
    · exact ok')
theorem applyEntry {c addr : Nat} {e : LogEnt} (ok : s.Canon) : (s.applyEntry c addr e).Canon :=
  .ite ok (.enterPart ok)
theorem checkFails {c : Nat} {r : Req} {e : LogEnt} {kind : Nat} (ok : s.Canon) : (s.checkFails c r e kind).Canon :=
  .ite (.ackEntry ok) (.ackEntry (.markPoison ok))
theorem installLine {c : Nat} {m : MirLine} {acct : Option Nat} (ok : s.Canon) : (s.installLine c m acct).Canon :=
  .vaultWrite (.onCore ok)
theorem fetched {f : Fetch} {bytes : List Host.Cell} {bad : List Nat} {status : Nat} (ok : s.Canon) :
    (s.fetched f bytes bad status).Canon := .ite (.now ok) (.ite (.now ok) (.ite (.onCore ok) (.onDie ok)))
theorem performedAt {c num : Nat} {refused : Bool} (ok : s.Canon) : (s.performedAt c num refused).Canon := by
  unfold State.performedAt
  exact .pokeAgain (.releaseAll (.ite (.count (.onCore (.onCore ok))) (.onCore (.onCore ok))))

/-! The log and table writes. -/

theorem shipReady {c n : Nat} (ok : s.Canon) : (s.shipReady c n).Canon := by
  induction n generalizing s with
  | zero => exact ok
  | succ n ih =>
    unfold State.shipReady
    split
    · exact ok
    · exact .ite ok (ih (.send (.onLog ok)))
theorem answerQueries {c : Nat} (ok : s.Canon) : (s.answerQueries c).Canon :=
  .foldl (fun _ _ ok' => .send ok') (.onCore ok)
theorem walkLog {c w lo hi : Nat} (ok : s.Canon) : (s.walkLog c w lo hi).Canon :=
  .ite (.onCore ok) (.ite (.onCore ok) (.onCore ok))
theorem beginAcquire {c ref scope : Nat} {writers : List Nat} (ok : s.Canon) :
    (s.beginAcquire c ref scope writers).Canon := .foldl (fun _ _ ok' => .queryWriter ok') (.onCore ok)
theorem nextAcquire {c w : Nat} (ok : s.Canon) : (s.nextAcquire c w).Canon := by
  unfold State.nextAcquire
  split
  · exact .queryWriter ok
  · exact ok
theorem walkGo {w : Walk} (ok : s.Canon) : (s.walkGo w).Canon := by
  unfold State.walkGo
  split
  · exact .after ok
  · exact .send ok
theorem walkerStart {c n obj page : Nat} (ok : s.Canon) : (s.walkerStart c n obj page).Canon := .walkGo (.onDie ok)
theorem askWalk {c n obj page : Nat} (ok : s.Canon) : (s.askWalk c n obj page).Canon :=
  .ite (.walkerStart ok) (.ite (.onDie ok) (.after ok))
theorem cacheLine {d line : Nat} (ok : s.Canon) : (s.cacheLine d line).Canon := .onDie ok
theorem walkRead {w : Walk} (ok : s.Canon) : (s.walkRead w).Canon :=
  .walkGo (.onDie (by
    split
    · exact .cacheLine ok
    · exact ok))
theorem walkEnd {w : Walk} (ok : s.Canon) : (s.walkEnd w).Canon :=
  .ite (.arrived (.onStrand (by
    split
    · exact .walkerStart (.onDie (.onDie (.ite (.count ok) ok)))
    · exact .onDie (.ite (.count ok) ok)))) (by
    split
    · exact .walkerStart (.onDie (.onDie (.ite (.count ok) ok)))
    · exact .onDie (.ite (.count ok) ok))
theorem migBegin {id : Nat} (ok : s.Canon) : (s.migBegin id).Canon := by
  unfold State.migBegin
  split
  · exact ok
  · exact .ite (.onMig ok) (.foldl (fun _ _ ok' => .foldl (fun _ _ ok₂ => .foldl (fun _ _ ok₃ => .send ok₃) ok₂) ok')
      (.pageAsk (.onMig (.onCore ok))))
theorem settleStep {id : Nat} (ok : s.Canon) : (s.settleStep id).Canon := by
  unfold State.settleStep
  split
  · exact ok
  · refine .ite ok ?_
    extract_lets rest home answered told opened
    have okanswered : answered.Canon := by
      unfold answered
      split
      · exact .send ok
      · exact ok
    have oktold : told.Canon := by
      unfold told
      split
      · exact .send okanswered
      · exact okanswered
    have okopened : opened.Canon := by
      unfold opened
      split
      · exact .onGroup oktold
      · exact oktold
    exact .foldl (fun _ _ ok' => .migBegin ok') okopened
theorem agentHeld {m : Mig} {pkt : Nat} (ok : s.Canon) : (s.agentHeld m pkt).Canon := .onCore (.onMig ok)
theorem migEnd {m : Mig} (ok : s.Canon) : (s.migEnd m).Canon := by
  unfold State.migEnd
  dsimp only
  split
  · exact .ite (.migBegin ok) ok
  · exact .sendReq ok

/-! The inbox. -/

theorem unpark {c : Nat} (ok : s.Canon) : (s.unpark c).Canon :=
  .foldl (fun _ _ ok' => .ite ok' (.onCore (.onGroup ok'))) ok
theorem takeEntry {c : Nat} {e : Entry} (ok : s.Canon) : (s.takeEntry c e).Canon :=
  .unpark (.ite (.reserve (.onCore ok)) (.onCore ok))
theorem afterTake {c n : Nat} {e : Entry} {start next : Nat} (ok : s.Canon) : (s.afterTake c n e start next).Canon :=
  .same (State.Keeps.afterTake (c := c) s ..).mem ok
theorem recvTake {c n : Nat} {d : Gpr} {a : Option Vr} {e : Entry} {start next clock : Nat} (ok : s.Canon) :
    (s.recvTake c n d a e start next clock).Canon :=
  .afterTake (by
    split
    · exact .putGprAt (.takeEntry ok)
    · exact .putVecAt (.putGprAt (.takeEntry ok)))
theorem joinTake {c n : Nat} {d : Gpr} {e : Entry} {start next clock : Nat} (ok : s.Canon) :
    (s.joinTake c n d e start next clock).Canon := .afterTake (.putGprAt (.takeEntry ok))
theorem parkEnd {c n start next : Nat} (ok : s.Canon) : (s.parkEnd c n start next).Canon := .retireAt (.onSlot ok)
theorem serveInbox {c n : Nat} (ok : s.Canon) : (s.serveInbox c n).Canon :=
  .same (State.Keeps.serveInbox (c := c) s ..).mem ok
theorem pokeInbox {c : Nat} (ok : s.Canon) : (s.pokeInbox c).Canon := .serveInbox ok
theorem releaseFree {c what num : Nat} (ok : s.Canon) : (s.releaseFree c what num).Canon :=
  .pokeInbox (.unpark (.release ok))
theorem fillInbox {c : Nat} {e : Entry} (ok : s.Canon) : (s.fillInbox c e).Canon := .pokeInbox (.onCore ok)
theorem fillReserved {c what num : Nat} {e : Entry} (ok : s.Canon) : (s.fillReserved c what num e).Canon :=
  .ite (.fillInbox (.release ok)) ok

/-! The quad arrays. -/

theorem countWait {c : Nat} (ok : s.Canon) : (s.countWait c).Canon := .onCore ok
theorem matDone {c : Nat} {o : MatOp} (ok : s.Canon) : (s.matDone c o).Canon :=
  .ite (.fillReserved (.endHolder (.onCore ok))) (.endHolder (.onCore ok))
theorem matAnswer {c : Nat} {o : MatOp} {f : Wait → Wait} (ok : s.Canon) : (s.matAnswer c o f).Canon :=
  .arrived (.matDone ok)
theorem matPerform {c : Nat} {o : MatOp} (ok : s.Canon) : (s.matPerform c o).Canon := by
  unfold State.matPerform
  split
  · exact .matDone (.performMma ok)
  · exact .matDone (.zeroMem ok)
  · exact .matAnswer (.writeMem ok)
  · exact .ite (.matAnswer (.meetFaults ok)) (.matAnswer (.meetFaults ok))
  · exact .ite (.onCore ok) (.matDone ok)
  · exact .ite (.matAnswer (.ite (.meetFaults (.meetFaults ok)) (.meetFaults ok))) (.after (.onCore (.countFl (.ite
      (.meetFaults (.meetFaults ok)) (.meetFaults ok)))))
theorem writeChunk {c : Nat} {o : MatOp} {place obj gen : Nat} {ps : List Piece} {out : List Host.Cell} {poison :
    Bool} (ok : s.Canon) :
    (s.writeChunk c o place obj gen ps out poison).1.Canon := by
  unfold State.writeChunk
  dsimp only
  split
  · exact .vaultParts ok
  · exact .foldl (fun _ _ ok' => .wakeRange (.ite (.markPoison (.charge (.writeMem ok'))) (.charge (.writeMem ok'))))
      ok
  · exact .foldl (fun _ _ ok' => .sendPkt ok') ok
theorem tstFinish {c : Nat} {o : MatOp} {place obj gen off z : Nat} (ok : s.Canon) :
    (s.tstFinish c o place obj gen off z).Canon :=
  .ite (.after ok) (.matAnswer (.onCore (.ite (.onCore (.onLog (.appendLog ok))) ok)))

/-! Vector results. -/

theorem startVector {ws : List ShWrite} (ok : s.Canon) : (s.startVector ws).Canon :=
  .ite (.now (.onCore (.onSlot ok))) (.onCore (.onSlot ok))
theorem vecWrite {d : Vr} {x : Vec} {lanes : Pred} (ok : s.Canon) : (s.vecWrite d x lanes).1.Canon :=
  .ite_fst (.onSlot (.putVecAt ok)) ok
theorem gprWrite {d : Gpr} {x : Word} (ok : s.Canon) : (s.gprWrite d x).1.Canon := .ite_fst (.putGprAt ok) ok
theorem vecResult {d : Vr} {x : Vec} {lanes : Pred} {fl : Fl} (ok : s.Canon) : (s.vecResult d x lanes fl).Canon :=
  .retire (.startVector (.vecWrite (.latchEvents ok)))
theorem vecToGpr {d : Gpr} {x : Word} {fl : Fl} (ok : s.Canon) : (s.vecToGpr d x fl).Canon :=
  .retire (.startVector (.gprWrite (.latchEvents ok)))
theorem vecToPred {d : Pr} {x : Pred} {fl : Fl} (ok : s.Canon) : (s.vecToPred d x fl).Canon :=
  .retire (.startVector (.putPred (.latchEvents ok)))
theorem eltwise {w : Nat} {d : Vr} {xs ys : List Nat} {f : Nat → Nat → Nat → Nat × Fl} (ok : s.Canon) :
    (s.eltwise w d xs ys f).Canon := .vecResult ok

/-! Copies and collectives at work. -/

theorem onCopy {c num : Nat} {f : CopyCmd → CopyCmd} (ok : s.Canon) : (s.onCopy c num f).Canon := .onCore ok
theorem putSegment {c place : Nat} {bytes : List Host.Cell} {poison : List Nat} {launch : Option Nat} {who : Writer}
    (ok : s.Canon) :
    (s.putSegment c place bytes poison launch who).Canon := by
  unfold State.putSegment
  dsimp only
  split
  · exact .foldl (fun _ _ ok' => .wakeRange ok') (.markPoison (.writeCells ok))
  · exact .markPoison (.writeCells ok)
  · exact .foldl (fun _ _ ok' => .wakeLine ok') (.vaultParts ok)
theorem applyTable {c done : Nat} {bytes : List Host.Cell} {poison : List Nat} {launch : Option Nat} {who : Writer}
    (ok : s.Canon) : (s.applyTable c done bytes poison launch who).1.Canon := by
  unfold State.applyTable
  refine foldl_fst (fun b l ok' => ?_) ok
  dsimp only
  split
  · exact ok'
  · dsimp only
    generalize (l.headD (0, 0)).1 - 0x6B600000 = x
    exact .tableApply ok' fun _ oku => .putSegment oku
theorem copyArrive {c : Nat} {m : CopyCmd} {at_ n : Nat} (ok : s.Canon) : (s.copyArrive c m at_ n).Canon :=
  .ite ok (.ite (.onCopy ok) (.ite (.tableApply ok (fun _ ok' => .wakeWord (.putAt (.ite (.count ok') ok'))))
      (.wakeWord (.putAt (.ite (.count ok) ok)))))
theorem copySettle {c num : Nat} (ok : s.Canon) : (s.copySettle c num).Canon := .same (State.copySettle_mem ..) ok
theorem pieceDone {c num key at_ : Nat} (ok : s.Canon) : (s.pieceDone c num key at_).Canon := by
  unfold State.pieceDone
  split
  · exact ok
  · split
    · exact ok
    · exact .ite (.ite (.after ok) (.copySettle (.copyArrive (.onCopy ok)))) (.onCopy ok)
theorem ownPiece {c num key at_ : Nat} (ok : s.Canon) : (s.ownPiece c num key at_).Canon :=
  .ite (.after ok) (.pieceDone ok)
theorem sendPiece {c to_ lo : Nat} {m : CopyCmd} {key place : Nat} {bytes : List Host.Cell} {poison : List Nat} {obj
    gen : Nat} (ok : s.Canon) :
    (s.sendPiece c to_ lo m key place bytes poison obj gen).Canon :=
  .ite (.onCopy ok) (.ite (.ownPiece (.onCopy (.putSegment ok))) (.sendPkt (.onCopy ok)))
theorem castSegment {c lo : Nat} {m : CopyCmd} {place : Nat} {bytes : List Host.Cell} {poison : List Nat} {gen : Nat}
    (ok : s.Canon) :
    (s.castSegment c lo m place bytes poison gen).Canon := by
  unfold State.castSegment
  dsimp only
  split
  · exact .foldl (fun _ _ ok' => .sendPiece ok') (.onCopy ok)
  · exact .sendPkt (.foldl (fun _ _ ok' => .sendPiece ok') (.onCopy ok))
theorem hostWrite {l : Nat} {bytes : List Host.Cell} (ok : s.Canon) : (s.hostWrite l bytes).Canon := .writeCells ok
theorem askReads {c : Nat} {m : CopyCmd} {bs : List Nat} {fs : List (Nat × List Piece)} (ok : s.Canon) :
    (s.askReads c m bs fs).Canon := .foldl (fun _ _ ok' => .send ok') (.foldl (fun _ _ ok' => .vreq ok') (.onCopy ok))
theorem meetSource {c : Nat} {m : CopyCmd} {lo n : Nat} (ok : s.Canon) : (s.meetSource c m lo n).Canon := by
  unfold State.meetSource
  dsimp only
  split
  · exact .ite ok (.meetFaults ok)
  · exact .ite (.meetFaults ok) ok
theorem formSegment {c : Nat} {m : CopyCmd} {lo n : Nat} (ok : s.Canon) : (s.formSegment c m lo n).Canon := by
  unfold State.formSegment
  extract_lets last met r v v' bad pace u ps obj gen w sent
  have oku : u.Canon := .onCopy (.with_free (.countFl (.meetSource ok)))
  have oksent : sent.Canon :=
    .ite oku (.ite (.foldl (fun _ _ ok' => .castSegment ok') oku) (.foldl (fun _ _ ok' => .sendPiece ok') (.onCopy oku)))
  exact .ite (.copySettle (.pokeAgain (.onCore oksent))) oksent
theorem writeSettle {h c num key : Nat} (ok : s.Canon) : (s.writeSettle h c num key).Canon :=
  .same (State.writeSettle_mem ..) ok
theorem agentSegment {p : Packet} {c num key place : Nat} {bytes : List Host.Cell} {poison : List Nat}
    {obj gen done : Nat} (ok : s.Canon) : (s.agentSegment p c num key place bytes poison obj gen done).Canon := by
  unfold State.agentSegment
  extract_lets h stale ack applied r put
  have okack {u : State} (n status : Nat) (oku : u.Canon) : (ack u n status).Canon := .send (.agentFree (.dropPacket oku))
  have okapplied {u : State} (oku : u.Canon) : (applied u).Canon :=
    okack _ _ (.ite (.pieceDone oku) (.ite (.writeSettle oku) oku))
  have okr : r.1.Canon := .applyTable ok
  have okput : put.Canon := .ite (.putSegment ok) ok
  refine .ite (okack _ _ ok) ?_
  split
  · exact .forward (.agentFree ok)
  · exact .ite (okack _ _ (.ite (.onCopy ok) ok))
      (.ite (.ite (.after okr) (okapplied okr)) (.ite (.after okput) (okapplied okput)))
theorem hostSegment {p : Packet} {c num key : Nat} {bytes : List Host.Cell} (ok : s.Canon) :
    (s.hostSegment p c num key bytes).Canon :=
  .ite (.send (.dropPacket ok)) (.send (.pieceDone (.hostWrite (.dropPacket ok))))
theorem collEnd {m : Coll} {status wrote : Nat} (ok : s.Canon) : (s.collEnd m status wrote).Canon :=
  .fillReserved (.endHolder (.onDie (.ite (.onLog (.appendLog ok)) ok)))
theorem onInst {die id : Nat} {f : Inst → Inst} (ok : s.Canon) : (s.onInst die id f).Canon := .onDie ok
theorem collTell {die status : Nat} {ms : List (Coll × Nat)} (ok : s.Canon) : (s.collTell die status ms).Canon :=
  .foldl (fun _ _ ok' => .send ok') ok
theorem collAsk {die id : Nat} {ms : List Coll} (ok : s.Canon) : (s.collAsk die id ms).Canon :=
  .foldl (fun _ _ ok' => .send ok') (.onInst ok)
theorem collSend {die id rank : Nat} {m : Coll} {bs : List (Byte × Bool)} (ok : s.Canon) :
    (s.collSend die id rank m bs).Canon := .foldl (fun _ _ ok' => .sendPkt ok') (.onInst ok)
theorem collBegin {die : Nat} {x : Coll} (ok : s.Canon) : (s.collBegin die x).Canon :=
  .ite (.collTell (.onDie ok)) (.ite (.collTell (.onDie ok)) (.collAsk (.onDie ok)))
theorem collMove {die : Nat} {x : Inst} (ok : s.Canon) : (s.collMove die x).Canon :=
  .foldl (fun _ _ ok' => .collSend ok') (.onInst (by
    split
    · exact .ite (.countFl ok) ok
    · exact ok))
theorem collStage {die : Nat} {x : Inst} (ok : s.Canon) : (s.collStage die x).Canon :=
  .ite (.ite (.collMove ok) (.collTell (.onDie ok))) (.collTell (.onDie ok))

/-! Groups and launches on a core. -/

theorem onLaunch {id : Nat} {f : LRec → LRec} (ok : s.Canon) : (s.onLaunch id f).Canon := by
  unfold State.onLaunch
  split <;> exact ok
theorem settleBarrier {b : Barrier} (ok : s.Canon) : (s.settleBarrier b).Canon :=
  .ite ok (.ite (.ite (.foldl (fun _ _ ok' => .send ok') ok) ok) (.foldl (fun _ _ ok' => .arriveWord ok') (.ite
      (.foldl (fun _ _ ok' => .send ok') ok) ok)))
theorem settleBarriers {launch : Nat} (ok : s.Canon) : (s.settleBarriers launch).Canon :=
  .foldl (fun _ _ ok' => .settleBarrier ok') ok
theorem emptySlot {c n : Nat} (ok : s.Canon) : (s.emptySlot c n).Canon := .onCore (.setSlot ok)
theorem dropTaker {c n : Nat} (ok : s.Canon) : (s.dropTaker c n).Canon := .pokeInbox (.unpark (.onCore ok))
theorem dieCount {d id n status : Nat} (ok : s.Canon) : (s.dieCount d id n status).Canon := by
  unfold State.dieCount
  split
  · exact ok
  · exact .ite (.send (.onDie ok)) (.onDie ok)
theorem lastGroup {c id : Nat} (ok : s.Canon) : (s.lastGroup c id).Canon :=
  .ite ok (by
    split
    · exact ok
    · exact .onLaunch (.onDie (.onCore ok)))
theorem freeBank {c b : Nat} (ok : s.Canon) : (s.freeBank c b).Canon := .onCore ok
theorem groupEnd {c b status : Nat} (ok : s.Canon) : (s.groupEnd c b status).Canon := by
  unfold State.groupEnd
  split
  · exact ok
  · exact .pokeInbox (.unpark (.settleBarriers (.dieCount (.lastGroup (.sendPut (.freeBank (.onCore (.foldl (fun _ _
      ok' => .emptySlot (.dropTaker ok')) (.onLog ok)))))))))
theorem retireStrand {c n : Nat} (ok : s.Canon) : (s.retireStrand c n).Canon :=
  .ite (.emptySlot (.dropTaker ok)) (.ite (.groupEnd (.onCore (by
    split
    · exact .onSlot (.onSlot (.dropTaker ok))
    · exact .onSlot (.dropTaker ok)))) (.settleBarriers (.onCore (by
    split
    · exact .onSlot (.onSlot (.dropTaker ok))
    · exact .onSlot (.dropTaker ok)))))
theorem endLaunchHere {c id status : Nat} (ok : s.Canon) : (s.endLaunchHere c id status).Canon :=
  .ite (.foldl (fun _ _ ok' => .groupEnd (.foldl (fun _ _ ok₂ => .emptySlot (.dropTaker ok₂)) ok')) (.onCore ok))
      (.settleBarriers (.dieCount (.lastGroup (.foldl (fun _ _ ok' => .groupEnd (.foldl (fun _ _ ok₂ => .emptySlot
      (.dropTaker ok₂)) ok')) (.onCore ok)))))
theorem unpause {c : Nat} (ok : s.Canon) : (s.unpause c).Canon := .pokeInbox (.onCore ok)
theorem supIdle {c : Nat} (ok : s.Canon) : (s.supIdle c).Canon := .onTrap (.onSlot ok)

/-! Launches, barriers and slots. -/

theorem postMail {num dst : Nat} (ok : s.Canon) : (s.postMail num dst).Canon := .onSlot ok
theorem submit {indirect : Bool} {d : Gpr} {a : Vr} {b : Kr} (ok : s.Canon) : (s.submit indirect d a b).Canon :=
  .ite (.bubble ok) (.send (.parkRef (.reserve ok)))
theorem barrier {sc : Scope} {sum : Bool} {fin : Fin} {w : Word} {alone : State} (ok : s.Canon) (okalone :
    alone.Canon) :
    (s.barrier sc sum fin w alone).Canon := .ite okalone (.send (.parkRef ok))
theorem haltSup (ok : s.Canon) : s.haltSup.Canon :=
  .ite (.onMgmt (.unpause (.onCore (.supIdle (.retire ok))))) (.retire ok)

/-! Traps, frames and images. -/

theorem putWords {loc : Nat} {l : List Nat} (ok : s.Canon) : (s.putWords loc l).Canon := State.putWords_wf ok loc l
theorem putReplay {loc : Nat} {h : Held} (ok : s.Canon) : (s.putReplay loc h).Canon := .writeCap (.putWords ok)
theorem putReplays {loc : Nat} {l : List Held} (ok : s.Canon) : (s.putReplays loc l).Canon := by
  induction l generalizing s loc with
  | nil => exact ok
  | cons x r ih =>
    unfold State.putReplays
    exact ih (.putReplay ok)
theorem putFrame {c at_ : Nat} {r : Raise} {nested : Bool} {code : Cap} {g1 g2 : Word} {hs : List Held} (ok :
    s.Canon) :
    (s.putFrame c at_ r nested code g1 g2 hs).Canon := .putReplays (.putWords (.writeCap (.putWords (.zeroMem ok))))
theorem startSup {c off : Nat} {g1 g2 : Word} {readyAt : Nat} (ok : s.Canon) :
    (s.startSup c off g1 g2 readyAt).Canon := .onTrap (.onSlot ok)
theorem frameLines {c at_ : Nat} (ok : s.Canon) : (s.frameLines c at_).Canon :=
  .foldl (fun _ _ ok' => .vreq ok') (.onTrap (.useLines ok))
theorem putCause {c n cause addr value : Nat} (ok : s.Canon) : (s.putCause c n cause addr value).Canon := .onSlot ok
theorem deliverNested {c : Nat} {r : Raise} (ok : s.Canon) : (s.deliverNested c r).Canon :=
  .startSup (.onTrap (.putCause (.onSlot (.frameLines (.putFrame ok)))))
theorem deliverSlot {c n : Nat} {r : Raise} (ok : s.Canon) : (s.deliverSlot c n r).Canon :=
  .startSup (.onTrap (.putCause (.onSlot (.frameLines (.putFrame ok)))))
theorem deliverEvent {c cause addr value : Nat} (ok : s.Canon) : (s.deliverEvent c cause addr value).Canon :=
  .startSup (.onTrap (.putCause ok))
theorem deliverNext {c : Nat} (ok : s.Canon) : (s.deliverNext c).Canon := by
  unfold State.deliverNext
  dsimp only
  split
  · exact ok
  · exact .ite ok (.ite (by
      split
      · exact .onTrap ok
      · exact .deliverEvent (.onTrap (.onTrap ok))) (by
      split
      · exact .deliverSlot (.onTrap ok)
      · exact .onTrap ok))
theorem putSide {c n : Nat} {es : List SideEnt} (ok : s.Canon) : (s.putSide c n es).Canon :=
  .foldl (fun _ _ ok' => .writeMem (.writeMem ok')) (.zeroMem ok)
theorem clearSide {c base : Nat} (ok : s.Canon) : (s.clearSide c base).Canon := .zeroMem ok
theorem clearReplay {c base : Nat} (ok : s.Canon) : (s.clearReplay c base).Canon := .writeMem ok
theorem applySide {c ref : Nat} {e : SideEnt} {u : State} (ok : s.Canon) (step : s.applySide c ref e = some u) : u.Canon := by
  unfold State.applySide at step
  dsimp only at step
  split at step
  · cases step
    exact ok
  · split at step
    · cases step
    · cases step
      exact .foldl (fun _ _ ok' => .vaultWrite ok') ok
theorem applySideLog {c ref : Nat} (ok : s.Canon) : (s.applySideLog c ref).1.Canon := by
  unfold State.applySideLog
  dsimp only
  split
  · exact ok
  · refine .putSide (.foldl_fst (fun _ _ ok' => ?_) ok)
    split
    · next step => exact applySide ok' step
    · exact ok'
theorem reissue {c n : Nat} {h : Held} {op : WordOp} {t : Xl} (ok : s.Canon) : (s.reissue c n h op t).Canon := by
  refine .ite (.onSlot (.onLog ok)) ?_
  split
  · next step => exact .wakeWord (wordStep ok step)
  · exact ok
theorem replay {c n at_ j k : Nat} (ok : s.Canon) : (s.replay c n at_ j k).1.Canon := by
  induction k generalizing s j with
  | zero => exact ok
  | succ k ih =>
    unfold State.replay
    dsimp only
    split
    · exact ih ok
    · split
      · exact ih (.releaseHeld (.reissue ok))
      · exact ok
      · exact ih ok
theorem onPair {c n : Nat} {f : Slot → Slot} (ok : s.Canon) : (s.onPair c n f).Canon := by
  unfold State.onPair
  dsimp only
  split
  · exact .onSlot (.onSlot ok)
  · exact .onSlot ok
theorem goOn {c n : Nat} (ok : s.Canon) : (s.goOn c n).Canon := .onPair ok
theorem resume {c n at_ : Nat} (ok : s.Canon) : (s.resume c n at_).Canon := by
  unfold State.resume
  dsimp only
  refine .ite (.raiseAt (.onSlot (.applySideLog (.onPair ok)))) ?_
  split
  · next step =>
    exact .raiseAt (.onSlot (.of_fst step (.replay (.applySideLog (.onPair ok)))))
  · next u step =>
    have done := of_fst step (.replay (.applySideLog (.onPair ok)))
    have freed {f : Slot → Slot} {a : Nat} : ((((u.clearReplay c a).onSlot c n f).goOn c n).releaseHeld c n).Canon :=
      .releaseHeld (.goOn (.onSlot (.clearReplay done)))
    exact .ite (.onSlot freed) freed
theorem saveImage {c n : Nat} {t : Slot} (ok : s.Canon) : (s.saveImage c n t).Canon :=
  .writeCap (.zeroMem (.foldl (fun _ _ ok' => .writeMem ok') (.foldl (fun _ _ ok' => .writeMem ok') (.foldl (fun _ _
      ok' => .writeCap ok') (.foldl (fun _ _ ok' => .writeMem ok') (.foldl (fun _ _ ok' => .writeMem ok') ok))))))

/-! Control registers and the supervisor. -/

theorem readClears {a : CsrAt} (ok : s.Canon) : (s.readClears a).Canon := by
  unfold State.readClears
  split
  · exact .onCore ok
  · exact .onCore ok
  · exact ok
theorem writeSlotReg {c n i v : Nat} (ok : s.Canon) : (s.writeSlotReg c n i v).Canon := by
  unfold State.writeSlotReg
  split
  · exact .ite ok (.onSlot ok)
  · exact .onSlot ok
  · exact .onSlot ok
  · exact .onSlot ok
  · exact ok
theorem putAway {c n : Nat} (ok : s.Canon) : (s.putAway c n).Canon := .ite ok (.onSlot (.ite (.saveImage ok) ok))
theorem writeCtxbase {c n v : Nat} (ok : s.Canon) : (s.writeCtxbase c n v).Canon := .ite (.onSlot (.putAway ok)) ok
theorem writeSeed {c n : Nat} {v : Word} (ok : s.Canon) : (s.writeSeed c n v).Canon := .onSlot ok
theorem applyCsr {c : Nat} {w : CsrWrite} (ok : s.Canon) : (s.applyCsr c w).Canon := by
  unfold State.applyCsr
  dsimp only
  split
  · exact .ite (.writeCtxbase ok) (.ite (.writeSeed ok) (.writeSlotReg ok))
  · split
    · exact .onCore ok
    · exact .onLog ok
    · exact .onCore ok
    · exact .ite (.onCore ok) ok
  · exact .ite (.onDie ok) (.ite (.onDie ok) ok)
  · exact ok
theorem commitCsrs {c : Nat} (ok : s.Canon) : (s.commitCsrs c).Canon :=
  .ite ok (.foldl (fun _ _ ok' => .applyCsr ok') (.onCore ok))
theorem trapNext {cause value : Nat} (ok : s.Canon) : (s.trapNext cause value).Canon := .raiseAt ok
theorem badTret {reason : Nat} (ok : s.Canon) : (s.badTret reason).Canon := .trap ok
theorem tret {mod : Nat} (ok : s.Canon) : (s.tret mod).Canon :=
  .ite (.badTret ok) (.ite (.badTret ok) (.ite (.ite (.badTret ok) (.onTrap (.onSlot ok))) (by
    split
    · exact .ite (.supIdle ok) (.badTret ok)
    · exact .ite (.ite (.supIdle ok) (.badTret ok)) (by
        split
        · exact .ite (.badTret ok) (.resume (.supIdle ok))
        · exact .retireStrand (.clearReplay (.clearSide (.supIdle ok)))
        · exact .endLaunchHere (.supIdle ok)))))
theorem finishLatch {c n : Nat} (ok : s.Canon) : (s.finishLatch c n).Canon := by
  unfold State.finishLatch
  split
  · exact ok
  · exact .onSlot (.foldl (fun _ _ ok' => .share ok') (.onCore ok))
theorem ownCsrs {c n : Nat} (ok : s.Canon) : (s.ownCsrs c n).Canon :=
  .foldl (fun _ _ ok' => .applyCsr ok') (.onCore ok)
theorem evict {c n : Nat} (ok : s.Canon) : (s.evict c n).Canon :=
  .onCore (.setSlot (.onTrap (.saveImage (.finishLatch (.ownCsrs ok)))))
theorem reload {c n : Nat} (ok : s.Canon) : (s.reload c n).Canon :=
  .pokeInbox (.unpark (.releaseHeld (by
    split
    · exact .resume (.onSlot (.setSlot (.onCore ok)))
    · split
      · exact .ite (.onSlot (.setSlot (.onCore ok))) (by
          split
          · exact .retireStrand (.onSlot (.setSlot (.onCore ok)))
          · exact .endWait (.onSlot (.setSlot (.onCore ok))))
      · exact .onSlot (.setSlot (.onCore ok))
    · exact .goOn (.setSlot (.onCore ok)))))

/-! Stream tables. -/

theorem onStream {die idx : Nat} {f : Stream → Stream} (ok : s.Canon) : (s.onStream die idx f).Canon := .onDie ok
theorem streamEvents {die idx : Nat} {close : Bool} (ok : s.Canon) : (s.streamEvents die idx close).Canon :=
  .foldl (fun _ _ ok' => .send ok') ok
theorem frameFault {die idx cause pf seq count : Nat} (ok : s.Canon) :
    (s.frameFault die idx cause pf seq count).Canon := by
  unfold State.frameFault
  dsimp only
  split
  · exact .ite (.fillInbox (.release ok)) (.count ok)
  · exact .count ok
theorem streamReply {die c ref : Nat} {w : Word} {v : Vec} {err : Option (Nat × Nat)} (ok : s.Canon) :
    (s.streamReply die c ref w v err).Canon := .send ok
theorem applyItem {die idx : Nat} {x : Queued} (ok : s.Canon) : (s.applyItem die idx x).1.Canon := by
  unfold State.applyItem
  dsimp only
  split
  · exact .ite_fst (.streamReply ok) (.streamReply (.onStream ok))
  · exact .ite_fst (.frameFault ok) (.onStream ok)
theorem applyQueue {die idx : Nat} (ok : s.Canon) : (s.applyQueue die idx).Canon :=
  .ite ok (.ite (.streamEvents (.foldl_fst (fun _ _ ok' => .applyItem ok') (.onStream ok))) (.foldl_fst (fun _ _ ok'
      => .applyItem ok') (.onStream ok)))
theorem closeStream {die idx : Nat} (ok : s.Canon) : (s.closeStream die idx).Canon := by
  unfold State.closeStream
  exact .onStream (.releaseFree (.streamEvents (.foldl (fun _ _ ok' => .streamReply ok') ok)))
theorem reserveOn {what num : Nat} {l : List (Nat × Nat)} {u : State} (ok : s.Canon) (step : s.reserveOn what num l = some u) :
    u.Canon := by
  induction l generalizing s with
  | nil =>
    cases step
    exact ok
  | cons x r ih =>
    unfold State.reserveOn at step
    split at step
    · exact ih (.reserve ok) step
    · cases step
theorem openStream {die c : Nat} {world : Bool} {d : Nat} {kv sn : Cap} {opener : Option (Nat × Nat)} (ok : s.Canon) :
    (s.openStream die c world d kv sn opener).1.Canon := by
  unfold State.openStream
  dsimp only
  split
  · exact ok
  · split
    · exact ok
    · split
      · exact ok
      · split
        · exact ok
        · split
          · exact ok
          · split
            · exact ok
            · next step =>
              obtain ⟨v, owners, home⟩ := Option.bind_eq_some_iff.1 step
              exact .onStream (reserveOn (reserveOn ok owners) home)
theorem nextStep {die c slot want : Nat} {world : Bool} (ok : s.Canon) :
    (s.nextStep die c slot want world).1.Canon := by
  unfold State.nextStep
  split
  · exact ok
  · exact .onDie (.onStream ok)
theorem endStep {die idx : Nat} {abandon : Bool} (ok : s.Canon) : (s.endStep die idx abandon).1.Canon := by
  unfold State.endStep
  dsimp only
  split
  · exact ok
  · exact .ite_fst (.applyQueue (.onStream ok)) (.applyQueue (.onStream ok))
theorem streamOn {die idx : Nat} {r : StreamReq} (ok : s.Canon) : (s.streamOn die idx r).Canon := by
  unfold State.streamOn
  dsimp only
  split
  · exact .streamReply (.closeStream ok)
  · exact .ite (.streamReply (.endStep ok)) (.streamReply ok)
  · exact .ite (.streamReply (.onStream ok)) (.streamReply ok)
  · exact .ite (.streamReply (.onStream ok)) (.streamReply ok)
  · exact .ite (.onStream ok) (.applyQueue (.onStream ok))
  · exact .ite (.streamReply ok) (.streamReply ok)
  · exact .ite (.streamReply ok) (.streamReply ok)
  · exact .streamReply ok
  · exact ok
  · exact ok
  · exact ok
theorem streamStep {die : Nat} {r : StreamReq} (ok : s.Canon) : (s.streamStep die r).Canon := by
  unfold State.streamStep
  split
  · exact .streamReply (.openStream ok)
  · exact .streamReply (.nextStep ok)
  · exact .ite (.streamReply ok) (.ite (.streamReply ok) (.streamOn ok))
theorem askTable {die : Nat} {op : StreamOp} {handle : Word} {fin : Fin} {flits : Nat} (ok : s.Canon) :
    (s.askTable die op handle fin flits).Canon := .send (.parkRef ok)
theorem askStream {a : Gpr} {op : StreamOp} {fin : Fin} (ok : s.Canon) : (s.askStream a op fin).Canon :=
  .ite (.askTable ok) (.trap ok)

/-! Submissions, messages and handlers. -/

theorem tellSender {c : Nat} {m : Mail} {code : Nat} {wake : Bool} (ok : s.Canon) :
    (s.tellSender c m code wake).Canon := .send ok
theorem clearFrame {c n : Nat} (ok : s.Canon) : (s.clearFrame c n).Canon := .zeroMem ok
theorem answerLaunch {core ref : Nat} {host : Option Nat} {q : Nat} {w : Word} (ok : s.Canon) :
    (s.answerLaunch core ref host q w).Canon := by
  unfold State.answerLaunch
  split
  · exact .send ok
  · exact .onLink ok
theorem launchEnds {id : Nat} (ok : s.Canon) : (s.launchEnds id).Canon := by
  unfold State.launchEnds
  split
  · exact ok
  · split
    · exact .settleBarriers (.send (.onLaunch ok))
    · exact .now (.onLaunch ok)
theorem dealOut {id g : Nat} (ok : s.Canon) : (s.dealOut id g).Canon := by
  unfold State.dealOut
  dsimp only
  split
  · exact .onLaunch ok
  · exact .ite (.launchEnds (.onLaunch ok)) (.foldl (fun _ _ ok' => .foldl (fun _ _ ok₂ => .send ok₂) ok') (.onLaunch
      ok))
theorem askCount {r : LRec} (ok : s.Canon) : (s.askCount r).Canon := .send (.onLaunch ok)
theorem countCame {id g status : Nat} (ok : s.Canon) : (s.countCame id g status).Canon :=
  .ite (.ite (.dealOut ok) (.launchEnds (.onLaunch ok))) ok
theorem startStrand {c b n j : Nat} {l : Launch} {index : Nat} {lead trail : Bool} (ok : s.Canon) :
    (s.startStrand c b n j l index lead trail).Canon := .clearFrame (.setSlot (.putAway ok))

/-! Links and packets that are lost. -/

theorem loseWait {c ref : Nat} (ok : s.Canon) : (s.loseWait c ref).Canon := .arriveWord ok
theorem loseMail {m : Mail} (ok : s.Canon) : (s.loseMail m).Canon := by
  unfold State.loseMail
  split
  · exact .tell ok
  · exact .loseWait ok
theorem loseAcquire {c ref w : Nat} (ok : s.Canon) : (s.loseAcquire c ref w).Canon :=
  .nextAcquire (.loseWait (.onCore ok))
theorem loseWrite {id : Nat} (ok : s.Canon) : (s.loseWrite id).Canon := by
  unfold State.loseWrite
  split
  · exact ok
  · dsimp only
    split
    · exact .tell (by
        split
        · exact .loseWait ok
        · exact ok)
    · split
      · exact .loseWait ok
      · exact ok
theorem loseLaunch {id : Nat} (ok : s.Canon) : (s.loseLaunch id).Canon := by
  unfold State.loseLaunch
  split
  · exact ok
  · exact .ite ok (.foldl (fun _ _ ok' => by
      split
      · split
        · exact .ite (.loseWait ok') ok'
        · exact ok'
      · exact ok') ok)
theorem loseOne {p : Packet} (ok : s.Canon) : (s.loseOne p).Canon := by
  unfold State.loseOne
  split
  · exact .refuse ok
  · exact .refuse ok
  · exact .refuse ok
  · exact .loseWait ok
  · exact .tell ok
  · exact .tell ok
  · exact .loseAcquire ok
  · exact .loseAcquire ok
  · exact .loseWait ok
  · exact .loseMail ok
  · exact .loseMail ok
  · exact .loseMail ok
  · exact .loseWait ok
  · exact .ite ok (.loseWait (.releaseFree ok))
  · exact .loseLaunch ok
  · exact .loseLaunch ok
  · exact .loseLaunch ok
  · exact .loseWait ok
  · exact ok
  · exact ok
  · exact .ite (.tell ok) (.foldl (fun _ _ ok' => .tell ok') ok)
  · exact .tell ok
  · exact .collEnd ok
  · exact .tell ok
  · exact .tell ok
  · exact .tell ok
  · exact ok
  · exact .loseWrite ok
  · exact .loseWrite ok
  · exact ok
  · exact ok
  · exact ok
  · exact .ite ok (.loseWait ok)
  · exact .ite ok (.loseWait ok)
  · exact .loseWait ok
  · exact ok
  · exact ok
  · exact ok
theorem loseMig {id : Nat} (ok : s.Canon) : (s.loseMig id).Canon := by
  unfold State.loseMig
  split
  · exact ok
  · exact .foldl (fun _ _ ok' => by
      split
      · exact .loseOne (.dropPacket ok')
      · exact ok') ok
theorem lose {p : Packet} (ok : s.Canon) : (s.lose p).Canon := by
  unfold State.lose
  dsimp only
  split
  · split
    · exact .loseOne (.dropPacket (.loseOne (.dropPacket ok)))
    · exact .loseOne (.dropPacket ok)
  · exact .loseMig (.loseOne (.dropPacket ok))
  · exact .loseMig (.loseOne (.dropPacket ok))
  · exact .loseMig (.loseOne (.dropPacket ok))
  · exact .loseOne (.dropPacket ok)
theorem repoint {x : TxPkt} {t : Nat} (ok : s.Canon) : (s.repoint x t).Canon := by
  unfold State.repoint
  split
  · exact ok
  · exact .onTrack ok
theorem requeue {t : Nat} {x : TxPkt} (ok : s.Canon) : (s.requeue t x).Canon := by
  unfold State.requeue
  split
  · exact .giveCredit ok
  · split
    · exact .repoint (.onTrack ok)
    · exact .lose (.giveCredit ok)
theorem moveOn {t : Nat} (ok : s.Canon) : (s.moveOn t).Canon := .foldl (fun _ _ ok' => .requeue ok') (.onTrack ok)
theorem goOut {p : Packet} (ok : s.Canon) : (s.goOut p).Canon := .requeue ok
theorem chargeFlit {t : Nat} {x : TxPkt} (ok : s.Canon) : (s.chargeFlit t x).Canon := by
  unfold State.chargeFlit
  split
  · exact .ite (.charge ok) ok
  · exact ok
theorem markCut {t : Nat} {x : TxPkt} (ok : s.Canon) : (s.markCut t x).Canon := .ite (by split <;> exact ok) ok
theorem transmit {t : Nat} (ok : s.Canon) : (s.transmit t).Canon :=
  .ite (.moveOn ok) (.ite ok (.ite (by split <;> exact .onTrack ok) (.ite ok (by
    split
    · exact ok
    · exact .giveCredit (.onTrack (.chargeFlit (.markCut ok)))))))
theorem leave {p : Packet} (ok : s.Canon) : (s.leave p).Canon := by
  unfold State.leave
  dsimp only
  split
  · exact .ite (.intoSwitch (.dropPacket ok)) ok
  · exact ok
theorem passOn {t : Nat} {f : Flit} {p : Packet} {dir : Nat} {copy : Bool} (ok : s.Canon) :
    (s.passOn t f p dir copy).Canon := .ite (.onTrack ok) (.onTrack (.onTrack ok))
theorem part {t : Nat} {f : Flit} {p : Packet} (ok : s.Canon) : (s.part t f p).Canon := by
  unfold State.part
  dsimp only
  split
  · exact .dropPacket (.giveCredit (.ite ok (.loseOne ok)))
  · exact .foldl (fun _ _ ok' => .passOn ok') (.passOn (.ite ok (.loseOne ok)))
theorem feedCopies {t : Nat} {f : Flit} (ok : s.Canon) : (s.feedCopies t f).Canon :=
  .ite (.onTrack (.foldl (fun _ _ ok' => .onTrack ok') ok)) (.foldl (fun _ _ ok' => .onTrack ok') ok)
theorem arriveFlit {t : Nat} {f : Flit} {p : Packet} (ok : s.Canon) : (s.arriveFlit t f p).Canon :=
  .ite (.onTrack (.giveCredit ok)) (.ite (.leave (.giveCredit (.onTrack ok))) (.ite (.deliverVia (.onTrack ok))
      (.deliverVia ok)))
theorem receive {t : Nat} {f : Flit} (ok : s.Canon) : (s.receive t f).Canon := by
  unfold State.receive
  dsimp only
  split
  · exact .onTrack (.giveCredit (.ite (.onTrack ok) (.feedCopies (.onTrack ok))))
  · exact .ite (.arriveFlit (.ite (.onTrack ok) (.feedCopies (.onTrack ok)))) (.ite (.ite (.part (.ite (.onTrack ok)
      (.feedCopies (.onTrack ok)))) (by
      split
      · exact .lose (.giveCredit (.ite (.onTrack ok) (.feedCopies (.onTrack ok))))
      · exact .passOn (.ite (.onTrack ok) (.feedCopies (.onTrack ok))))) (.ite (.onTrack (.onTrack (.ite (.onTrack
          ok) (.feedCopies (.onTrack ok))))) (.onTrack (.ite (.onTrack ok) (.feedCopies (.onTrack ok))))))
theorem takeFlit {x : Nat × Packet × Nat} (ok : s.Canon) : (s.takeFlit x).Canon := .ite (.onTrack ok) ok
theorem takeFabric (ok : s.Canon) : s.takeFabric.Canon :=
  .ite (.ite ok (.foldl (fun _ _ ok' => ok') ok)) (.foldl (fun _ _ ok' => .takeFlit ok') (.ite ok (.foldl (fun _ _
      ok' => ok') ok)))
theorem withdraw {pkt : Nat} (ok : s.Canon) : (s.withdraw pkt).1.Canon := by
  unfold State.withdraw
  split
  · exact ok
  · exact .foldl (fun _ _ ok' => .dropPacket ok') (.foldl (fun _ _ ok' => .giveCredit ok') (.dropPacket ok))
theorem restart {at_ pkt : Nat} (ok : s.Canon) : (s.restart at_ pkt).Canon := by
  unfold State.restart
  split
  · next step => exact of_fst step (.withdraw ok)
  · next step =>
    have left := of_fst step (.withdraw ok)
    exact .ite left (.ite (.send left) (.ite (.dropPacket left) (.goOut left)))
theorem trackDies {t : Nat} (ok : s.Canon) : (s.trackDies t).Canon :=
  .ite ok (.moveOn (.foldl (fun _ _ ok' => .restart ok') (.ite (.now ok) (.onTrack ok))))

/-! Trap delivery, urgent work and containment. -/

theorem fire {v : Nat} (ok : s.Canon) : (s.fire v).Canon := .foldl (fun _ _ ok' => .onLink ok') ok
theorem beginUrgent {c off : Nat} {g1 g2 : Word} (ok : s.Canon) : (s.beginUrgent c off g1 g2).Canon :=
  .startSup (.onTrap ok)
theorem containGroups {c : Nat} (ok : s.Canon) : (s.containGroups c).Canon :=
  .foldl (fun _ _ ok' => .dieCount (.lastGroup ok')) (.foldl (fun _ _ ok' => .sendPut ok') (.onCore ok))
theorem containStreams {c : Nat} (ok : s.Canon) : (s.containStreams c).Canon :=
  .foldl (fun _ _ ok' => .foldl (fun _ _ ok₂ => .ite (.endStep (.ite (.closeStream ok₂) ok₂)) (.ite (.closeStream
      ok₂) ok₂)) ok') ok
theorem containCore {c : Nat} (ok : s.Canon) : (s.containCore c).Canon := by
  unfold State.containCore
  extract_lets away images u v groups stop stopped drop w told dies gone streams
  have okv : v.Canon := .onCore (.foldl (fun _ _ ok' => .clearReplay (.clearSide ok')) ok)
  have okStopped : stopped.Canon := .onCore (.containGroups okv)
  have okTold : told.Canon := .foldl (fun _ _ ok' => .send ok') (with_units okStopped)
  exact .onMgmt (.answerQueries (.containStreams (.foldl (fun _ _ ok' => .send ok') (.onDie okTold))))

/-! Start-up, management and the host. -/

theorem verifyImage (ok : s.Canon) : s.verifyImage.1.Canon := .ite_fst (.onMgmt ok) ok
theorem putBytes {loc : Nat} {l : List Nat} (ok : s.Canon) : (s.putBytes loc l).Canon := by
  induction l generalizing s loc with
  | nil => exact ok
  | cons x r ih => exact ih (.writeMem ok)
theorem buildTables (ok : s.Canon) : s.buildTables.Canon := .foldl (fun _ _ ok' => .putBytes ok') ok
theorem deviceEntries (ok : s.Canon) : s.deviceEntries.Canon :=
  .foldl (fun _ _ ok' => .tablePut ok') (.foldl (fun _ _ ok' => .tablePut ok') (.tablePut ok))
theorem rebase (ok : s.Canon) : s.rebase.Canon := ok
theorem fullFunction (ok : s.Canon) : s.fullFunction.Canon := by
  unfold State.fullFunction
  extract_lets u v map die cores enter w clear x y
  have oku : u.Canon := .buildTables (.with_logical ok)
  have okv : v.Canon := .ite oku (.buildTables oku)
  have okx : x.Canon := .foldl (fun _ _ ok' => .clearFrame (.zeroMem ok')) (with_units (s := v) okv)
  exact .ite (.onMgmt okv) (.with_agenda (.onMgmt (.rebase (.deviceEntries okx))))
theorem askContain {c : Nat} (ok : s.Canon) : (s.askContain c).Canon := .ite (.onMgmt ok) (.now ok)
theorem settleCredits {q : Nat} (ok : s.Canon) : (s.settleCredits q).Canon := .onQuad ok
theorem takeQres {q : Nat} (ok : s.Canon) : (s.takeQres q).Canon := .ite ok (.onMgmt (.settleCredits ok))
theorem stallBus {c : Nat} (ok : s.Canon) : (s.stallBus c).Canon := .after (.onVault ok)
theorem doorbell {k q : Nat} {indirect : Bool} (ok : s.Canon) : (s.doorbell k q indirect).Canon :=
  .ite ok (.ite (.onLink ok) (.send (.onLink ok)))

/-! Frames and truncations. -/

theorem frameStep {die : Nat} {f : Frame} (ok : s.Canon) : (s.frameStep die f).1.Canon :=
  .ite_fst ok (.ite_fst ok (.ite_fst ok (.ite_fst (.frameFault (.ite (.onStream ok) ok)) (.ite_fst ok (.applyQueue
      (.onStream ok))))))

/-! Turns. -/

theorem withIssue {c n : Nat} {x : Chain} (ok : s.Canon) : (s.withIssue c n x).Canon := ok
theorem countIssue {c n : Nat} {i : Instr} (ok : s.Canon) : (s.countIssue c n i).Canon :=
  .ite (.charge (.ite ok (.charge (.count ok)))) (.ite ok (.charge (.count ok)))
theorem noteUrgent {c n : Nat} (ok : s.Canon) : (s.noteUrgent c n).Canon := .ite (.onTrap (.onCore ok)) ok
theorem useTlb {c n : Nat} {x : Chain} (ok : s.Canon) : (s.useTlb c n x).Canon := .onCore ok
theorem touchRegs {c n : Nat} {x : Chain} (ok : s.Canon) : (s.touchRegs c n x).Canon :=
  .onSlot (.useTlb (.useLines ok))
theorem fillFor {c n : Nat} {x : Chain} {ls : List Nat} (ok : s.Canon) : (s.fillFor c n x ls).Canon := .fillLines ok
theorem giveOutput {c n k : Nat} {x : Chain} (ok : s.Canon) : (s.giveOutput c n k x).Canon :=
  .ite (.onSlot (.onSlot (.touchRegs ok))) (.onSlot (.touchRegs ok))
theorem mismatch {c lead pc kind : Nat} {r : RegFile} (ok : s.Canon) : (s.mismatch c lead pc kind r).Canon :=
  .raiseAt (.onSlot ok)
theorem meet {c n : Nat} (ok : s.Canon) : (s.meet c n).Canon := .onSlot ok
theorem joinLead {c n : Nat} {x : Chain} {doing : Instr} (ok : s.Canon) : (s.joinLead c n x doing).Canon := by
  unfold State.joinLead
  dsimp only
  split
  · exact .onCore (.onSlot (.countIssue (.touchRegs ok)))
  · exact .onSlot (.countIssue (.touchRegs ok))

/-! The end of a clock. -/

theorem endWaitAt {c n : Nat} (ok : s.Canon) : (s.endWaitAt c n).Canon := by
  unfold State.endWaitAt
  dsimp only
  split
  · exact .ite (.performOwn ok) (.ite ok (by
      split
      · exact .ite (.onSlot ok) (.retireStrand (.onSlot ok))
      · exact .endWait ok))
  · exact ok
theorem endWaits {c : Nat} (ok : s.Canon) : (s.endWaits c).Canon := by
  unfold State.endWaits
  exact .ite (.foldl (fun _ _ ok' => .endWaitAt ok') ok) (.onCore (.foldl (fun _ _ ok' => .ite (.performOwn ok') ok')
      (.foldl (fun _ _ ok' => .endWaitAt ok') ok)))
theorem countParked {c : Nat} (ok : s.Canon) : (s.countParked c).Canon := .ite (.count ok) ok
theorem countStall {c : Nat} (ok : s.Canon) : (s.countStall c).Canon := .ite (.onCore ok) ok
theorem askLeases {c : Nat} (ok : s.Canon) : (s.askLeases c).Canon := .foldl (fun _ _ ok' => .send (.onCore ok')) ok
theorem streamStart {d : Nat} (ok : s.Canon) : (s.streamStart d).Canon := by
  unfold State.streamStart
  dsimp only
  split
  · exact ok
  · split
    · exact .after (.onDie ok)
    · exact .after (.onDie ok)
theorem arrayEvents (ok : s.Canon) : s.arrayEvents.1.Canon :=
  .foldl (fun _ _ ok' => .ite (.foldl (fun _ _ ok₂ => .countWait ok₂) ok') ok') ok
theorem watchQuiet (ok : s.Canon) : s.watchQuiet.1.Canon :=
  .ite_fst ok (.ite (.onMgmt (.ite (.onMgmt ok) ok)) (.ite (.onMgmt ok) ok))
theorem standing (ok : s.Canon) : s.standing.1.Canon := by
  unfold State.standing
  exact .watchQuiet (.arrayEvents (.foldl (fun _ _ ok' => .streamStart ok') (.foldl (fun _ _ ok' => .askLeases
      (.countParked (.endWaits ok'))) (.takeFabric ok))))
theorem commitImg {c : Nat} {w : ImgWrite} (ok : s.Canon) : (s.commitImg c w).Canon :=
  .countLost (.foldl (fun _ _ ok' => .onSlot ok') (.putTag? (.putVaultCells ok)))
theorem commitImgs {c : Nat} (ok : s.Canon) : (s.commitImgs c).Canon :=
  .ite ok (.foldl (fun _ _ ok' => .commitImg ok') (.onCore ok))
theorem commitObs {c : Nat} (ok : s.Canon) : (s.commitObs c).Canon :=
  .ite ok (.foldl (fun _ _ ok' => .endHolder (.writeMem ok')) (.onCore ok))
theorem commitCore {c : Nat} (ok : s.Canon) : (s.commitCore c).Canon := by
  unfold State.commitCore
  exact .ite (.commitCsrs (.commitEvcs (.commitObs (.commitShared (.commitImgs (.countStall ok)))))) (.onCore
      (.commitCsrs (.commitEvcs (.commitObs (.commitShared (.commitImgs (.countStall ok)))))))
theorem tick (ok : s.Canon) : s.tick.Canon := by
  unfold State.tick
  exact .standing (.foldl (fun _ _ ok' => .commitCore ok') ok)

end State.Canon

end Sys2Proof.Machine
end

section
/-!
SUPPORT. That the turn of a slot and every instruction and event keep memory in its canonical form (R186).
-/
namespace Sys2Proof.Machine

/-- Memory is canonical in the state that a turn answers. -/
def Turn.Canon : Turn → Prop
  | .idle s => s.Canon
  | .issue _ s => s.Canon

namespace Turn.Canon
variable {s : State}

theorem idle (ok : s.Canon) : (Turn.idle s).Canon := ok
theorem issue {i : Instr} (ok : s.Canon) : (Turn.issue i s).Canon := ok
theorem ite {p : Prop} [Decidable p] {t u : Turn} (a : t.Canon) (b : u.Canon) : (if p then t else u).Canon := by
  split
  · exact a
  · exact b

theorem issueOne {c n : Nat} {x : Chain} {doing : Option Instr} (ok : s.Canon) : (s.issueOne c n x doing).Canon := by
  unfold State.issueOne
  split
  · exact .issue (.countIssue (.noteUrgent (.withIssue (.onSlot (.touchRegs ok)))))
  · exact .idle (.fillFor ok)
theorem turnLead {c n : Nat} {x : Chain} (ok : s.Canon) : (s.turnLead c n x).Canon :=
  .ite (.issueOne ok) (.ite (.idle ok) (by
    split
    · exact .ite (.idle ok) (.issueOne ok)
    · exact .ite (.idle ok) (.issueOne ok)
    · split
      · exact .ite (.idle ok) (.idle (.giveOutput ok))
      · exact .idle (.fillFor ok)))
theorem performOutput {c lead : Nat} {o : PairOut} {rest : List PairOut} (ok : s.Canon) :
    (s.performOutput c lead o rest).Canon := by
  unfold State.performOutput
  dsimp only
  split
  · exact .issue (.countIssue (.withIssue (.touchRegs (.onSlot ok))))
  · exact .idle (.fillFor (.onSlot ok))
theorem turnTrail {c n : Nat} {x : Chain} (ok : s.Canon) : (s.turnTrail c n x).Canon :=
  .ite (.idle ok) (by
    split
    · exact .idle (.fillFor ok)
    · split
      · exact .ite (.idle ok) (by
          split
          · exact .issueOne (.onSlot (.onSlot ok))
          · exact .issueOne ok)
      · split
        · exact .idle (.takeValue (.countIssue (.touchRegs (.onSlot ok))))
        · split
          · exact .idle (.joinLead ok)
          · exact .idle (.meet ok)
          · exact .idle (.mismatch ok)
      · split
        · split
          · exact .idle (.joinLead ok)
          · exact .idle (.meet ok)
        · exact .ite (.performOutput (.onSlot (.countIssue (.touchRegs ok)))) (.idle (.mismatch (.onSlot (.countIssue
            (.touchRegs ok))))))
theorem turnFetch {c n : Nat} (ok : s.Canon) : (s.turnFetch c n).Canon := by
  unfold State.turnFetch
  dsimp only
  split
  · exact .idle (.foldl (fun _ _ ok' => .now ok') (.onSlot ok))
  · exact .ite (.idle ok) (.issue (.noteUrgent (.withIssue ok)))
  · split
    · exact .idle ok
    · exact .ite (.idle ok) (.issue (.countIssue (.noteUrgent (.withIssue ok))))
    · exact .ite (.turnLead ok) (.ite (.turnTrail ok) (.issueOne ok))
theorem turn {c n : Nat} (ok : s.Canon) : (s.turn c n).Canon :=
  .ite (.idle ok) (.ite (.idle ok) (.ite (.idle ok) (by
    split
    · exact .ite (.idle ok) (.idle (.raiseAt (.setSlot ok)))
    · exact .ite (.idle ok) (.ite (.idle (.count ok)) (.turnFetch ok)))))

end Turn.Canon

/-- Memory is canonical in the state that an outcome answers, if it answers one. -/
def NextCanon (o : Host.Outcome State Fault Refusal) : Prop := ∀ t, o = .next t → t.Canon

namespace NextCanon
variable {s : State}

theorem next (ok : s.Canon) : NextCanon (.next s) := fun _ h => by cases h; exact ok
theorem ite {p : Prop} [Decidable p] {o r : Host.Outcome State Fault Refusal} (a : NextCanon o) (b : NextCanon r) :
    NextCanon (if p then o else r) := by
  split
  · exact a
  · exact b

/-! Retiring, parking, traps, packets and the write queue. -/

theorem guarded {body : State} (ok : s.Canon) (okbody : body.Canon) : NextCanon (s.guarded body) :=
  .next (.ite okbody (.retire ok))

/-! Transfers of control. -/

theorem execJmp {t : Target} (ok : s.Canon) : NextCanon (execJmp t s) :=
  .guarded ok (by
    split
    · exact .retireTo ok
    · exact .retireTo ok
    · exact .transferCap ok)
theorem execCall {d : Gpr} {t : Target} (ok : s.Canon) : NextCanon (execCall d t s) :=
  .guarded ok (by
    split
    · exact .retireTo (.putGpr ok)
    · exact .retireTo (.putGpr ok)
    · exact .transferCap ok)
theorem execRet {t : RetTarget} (ok : s.Canon) : NextCanon (execRet t s) :=
  .guarded ok (by
    split
    · exact .retireTo ok
    · exact .transferCap ok)

/-! Loads and stores. -/

theorem execVld {w : Width} {d : Vr} {k : Kr} {x : VIdx} (ok : s.Canon) : NextCanon (execVld w d k x s) :=
  .next (.ite (.retire ok) (.ite (.sideTrap ok) (by
    split
    · exact .walkFor ok
    · exact .badChk ok
    · exact .installWalked (.loadPieces ok))))
theorem execVst {w : Width} {d : Vr} {k : Kr} {x : VIdx} (ok : s.Canon) : NextCanon (execVst w d k x s) :=
  .next (.ite (.retire ok) (by
    split
    · exact .walkFor ok
    · exact .badChk ok
    · exact .installWalked (.storeBytes ok)))
theorem execCapst {d k : Kr} {b : Gpr} (ok : s.Canon) : NextCanon (execCapst d k b s) :=
  .guarded ok (.withChk ok (fun _ => .ite (.trap ok) (.ite (.unlessHeld ok (.retire (.wakeRange (.writeCap
      (.chargeScratch ok))))) (.ite (.storeLog ok) (.ite (.ite (.retire ok) (.unlessHeld ok (.storeCells ok)))
      (.storeBytes ok))))))

/-! The matrix queue, tiles and buffers. -/

theorem execTld {e : TElem} {s' : BitVec 4} {tr : BitVec 2} {d : Ob} {k : Kr} {x : Idx} (ok : s.Canon) :
    NextCanon (execTld e s' tr d k x s) :=
  .guarded ok (.ite (.sideTrap ok) (.withChk ok (fun _ => .ite (.trap ok) (.ite (.bubble ok) (.tileRequests (.parkRef
      (.onSlot (.takeEntries ok))))))))
theorem execTldacc {d : Acc} {k : Kr} {x : Idx} (ok : s.Canon) : NextCanon (execTldacc d k x s) :=
  .guarded ok (.ite (.sideTrap ok) (.withChk ok (fun _ => .ite (.trap ok) (.enqueue ok (fun _ _ ok' => .tileRequests
      (.parkRef (.onSlot ok')))))))
theorem execTst {d : Acc} {k : Kr} {x : Idx} (ok : s.Canon) : NextCanon (execTst d k x s) :=
  .guarded ok (.withChk ok (fun _ => .ite (.trap ok) (.enqueue ok (fun _ _ ok' => .parkRef (.ite (.onLog ok') ok')))))
theorem execObput {d : ObAcc} {a : Vr} {b : Gpr} (ok : s.Canon) : NextCanon (execObput d a b s) :=
  .guarded ok (by
    split
    · exact .checkMove ok (.withEntries ok (fun _ _ ok' => .retire (.onCore ok')))
    · exact .checkMove ok (.enqueue ok (fun _ _ ok' => .parkRef ok')))
theorem execObget {d : Vr} {a : ObAcc} {b : Gpr} (ok : s.Canon) : NextCanon (execObget d a b s) :=
  .guarded ok (by
    split
    · exact .checkMove ok (.withEntries ok (fun _ _ ok' => .ite (.trap (.endHolder (.meetFaults ok'))) (.retire
        (.endHolder (.putVec (.meetFaults ok'))))))
    · exact .checkMove ok (.enqueue ok (fun _ _ ok' => .parkRef ok')))

/-! Ordering, atomics and words. -/

theorem execAcq {sc : Scope} {d : Pr} {a : Gpr} (ok : s.Canon) : NextCanon (execAcq sc d a s) :=
  .guarded ok (.sideClear ok (by
    split
    · exact .trap ok
    · exact .ite (.retire (.putPred ok)) (.foldl (fun _ _ ok' => .queryWriter ok') (.onCore (.parkRef ok)))))
theorem execLogq {d a : Gpr} {s' : BitVec 4} (ok : s.Canon) : NextCanon (execLogq d a s' s) :=
  .guarded ok (by
    split
    · exact .retire (.putGpr ok)
    · exact .ite (.retire (.putGpr ok)) (.ite (.retire (.putGpr ok)) (.send (.parkRef ok))))

/-! Copies and collectives at issue. -/

theorem execCpyf {a : Vr} (ok : s.Canon) : NextCanon (execCpyf a s) :=
  .guarded ok (.sideClear ok (by
    split
    · exact .trap ok
    · exact .withRanges ok (fun _ _ => .acceptCopy ok)))

/-! The vault controller and the vector latch. -/

theorem execVaultBeat (ok : s.Canon) : NextCanon (execVaultBeat s) := by
  unfold Machine.execVaultBeat
  extract_lets c v
  split
  · exact .next ok
  · extract_lets f u counted tiled repaired
    have okcounted : counted.Canon := .onVault (.charge (.beatFaults ok))
    have oktiled : tiled.Canon := by
      unfold tiled
      split
      · exact .tileBeat okcounted
      · exact okcounted
    have okrepaired : repaired.Canon := .ite (.repairRow oktiled) oktiled
    exact .next (.vaultLook (.ite (.vaultEnd okrepaired) okrepaired))
theorem execWriteQueueSend (ok : s.Canon) : NextCanon (execWriteQueueSend s) := by
  unfold Machine.execWriteQueueSend
  dsimp only
  split
  · exact .next ok
  · exact .next (.vaultLook (.onVault ok))
theorem execRegisterLineFill (ok : s.Canon) : NextCanon (execRegisterLineFill s) :=
  .next (.ite (.after ok) (.ite (.arrived (.ite (.onTrap (.rcInstall ok)) (.rcInstall ok))) (.ite (.onTrap
      (.rcInstall ok)) (.rcInstall ok))))
theorem execVectorStart (ok : s.Canon) : NextCanon (execVectorStart s) := by
  unfold Machine.execVectorStart
  dsimp only
  split
  · exact .next ok
  · exact .ite (.next ok) (.next (.foldl (fun _ _ ok' => .share ok') (.onCore (.onSlot (.onCore ok)))))

/-! The agents and the homes. -/

theorem execVaultAgentRequest (ok : s.Canon) : NextCanon (execVaultAgentRequest s) :=
  .next (.ite (.agentStart ok) (.ite (by
    split
    · exact .ite (.pageRead ok) (.pageAsk ok)
    · exact ok) (by
    split
    · split
      · exact .fetchAt ok
      · exact .pageArrive ok
      · exact .ite (.rcWritten ok) (.perform ok (fun _ _ _ ok' => by
          split
          · exact .entryPutAt ok'
          · exact .rcallAt ok'))
      · exact ok
    · exact ok)))
theorem execHomeWaitRetry (ok : s.Canon) : NextCanon (execHomeWaitRetry s) :=
  .next (by
    split
    · split
      · exact .ite (.after ok) (.sendReq (.dropPacket ok))
      · exact ok
    · exact ok)
theorem execLogEntryApply (ok : s.Canon) : NextCanon (execLogEntryApply s) :=
  .next (.perform ok (fun _ _ _ ok' => by
    split
    · exact .ite (.ackEntry ok') (.ite (.checkFails ok') (by
        split
        · exact .checkFails ok'
        · exact .ite (.ackEntry (.tableApply ok' (fun _ ok₂ => .applyEntry ok₂))) (.ackEntry (.wakeRange (.applyEntry
            ok')))))
    · exact ok'))
theorem execHomeReadReply (ok : s.Canon) : NextCanon (execHomeReadReply s) :=
  .next (by
    split
    · split
      · exact .arrived (.ite (.land (.dropPacket ok)) (.installLine (.land (.dropPacket ok))))
      · exact ok
    · exact ok)
theorem execRemoteReply (ok : s.Canon) : NextCanon (execRemoteReply s) :=
  .next (by
    split
    · split
      · dsimp only
        split
        · exact .arriveWord (.land (.dropPacket ok))
        · exact .performRef (.arrived (.land (.dropPacket ok)))
      · exact .fetched (.dropPacket ok)
      · exact .ite (.onLink (.dropPacket ok)) (.arriveWord (.dropPacket ok))
      · exact ok
    · exact ok)
theorem execPostedPerformed (ok : s.Canon) : NextCanon (execPostedPerformed s) :=
  .next (by
    split
    · split
      · exact .foldl (fun _ _ ok' => .performedAt ok') ok
      · exact ok
    · exact ok)

/-! The log and table writes. -/

theorem execLogShip (ok : s.Canon) : NextCanon (execLogShip s) :=
  .next (.ite (by
    split
    · exact ok
    · exact .foldl (fun _ _ ok' => .vreq ok') (.onLog ok)) (.ite ok (.shipReady (.onLog ok))))
theorem execLogAck (ok : s.Canon) : NextCanon (execLogAck s) :=
  .next (by
    split
    · split
      · exact .onLog (.dropPacket ok)
      · exact .pokeAgain (.releaseAll (.answerQueries (by
          split
          · exact .onCore (.onLog (.dropPacket ok))
          · exact .onLog (.dropPacket ok))))
      · exact ok
    · exact ok)
theorem execAcqQuery (ok : s.Canon) : NextCanon (execAcqQuery s) :=
  .next (by
    split
    · split
      · exact .answerQueries (.onCore (.dropPacket ok))
      · exact ok
    · exact ok)
theorem execAcqWriterDone (ok : s.Canon) : NextCanon (execAcqWriterDone s) :=
  .next (by
    split
    · split
      · dsimp only
        split
        · exact .arrived (.onCore (.nextAcquire (.onCore (.ite (.vaultWrite (.walkLog (.dropPacket ok))) (.dropPacket
            ok)))))
        · exact .nextAcquire (.onCore (.ite (.vaultWrite (.walkLog (.dropPacket ok))) (.dropPacket ok)))
      · exact ok
    · exact ok)
theorem execLogqQuery (ok : s.Canon) : NextCanon (execLogqQuery s) :=
  .next (by
    split
    · split
      · exact .send (.dropPacket ok)
      · exact ok
    · exact ok)
theorem execWalkComplete (ok : s.Canon) : NextCanon (execWalkComplete s) :=
  .next (by
    split
    · exact .ite (.walkRead ok) (.walkEnd ok)
    · exact ok)
theorem execShootdown (ok : s.Canon) : NextCanon (execShootdown s) :=
  .next (by
    split
    · split
      · exact .send ok
      · exact ok
    · exact ok)
theorem execTableWriteSettled (ok : s.Canon) : NextCanon (execTableWriteSettled s) :=
  .next (.ite (.settleStep ok) (by
    split
    · split
      · exact .settleStep (.dropPacket ok)
      · exact ok
    · exact ok))
theorem execFenceMarker (ok : s.Canon) : NextCanon (execFenceMarker s) :=
  .next (by
    split
    · split
      · exact .migCheck (.onMig (.agentFree (.dropPacket ok)))
      · exact ok
    · exact ok)
theorem execDrainedPacket (ok : s.Canon) : NextCanon (execDrainedPacket s) :=
  .next (by
    split
    · split
      · dsimp only
        split
        · exact .dropPacket (.agentFree ok)
        · exact .ite (.migEnd (.dropPacket (.agentFree ok))) (.agentHeld (.agentFree ok))
      · exact ok
    · exact ok)

/-! The quad arrays. -/

theorem execMatrixGrant (ok : s.Canon) : NextCanon (execMatrixGrant s) :=
  .ite (.next ok) (by
    split
    · exact .next ok
    · exact .ite (.next (.onQuad (.count (.countWait (.foldl (fun _ _ ok' => .countWait ok') ok))))) (.next (.after
        (.charge (.onQuad (.foldl (fun _ _ ok' => .countWait ok') ok))))))
theorem execMatrixPerform (ok : s.Canon) : NextCanon (execMatrixPerform s) := by
  unfold Machine.execMatrixPerform
  dsimp only
  split
  · exact .next ok
  · split
    · exact .next (.ite (.onQuad ok) (.matPerform (.onQuad ok)))
    · exact .next (.onQuad ok)
theorem execTstChunkWrite (ok : s.Canon) : NextCanon (execTstChunkWrite s) := by
  unfold Machine.execTstChunkWrite
  dsimp only
  split
  · split
    · exact .ite (.next (.after ok)) (.ite (.ite (.next (.tstFinish ok)) (.next (.after ok))) (.ite (.next (.after
        (.onCore (.writeChunk ok)))) (.next (.matAnswer (.onCore (.writeChunk ok))))))
    · exact .next ok
  · exact .next ok

/-! Vector results. -/

theorem vop {w : Width} {d a b : Vr} {f : Nat → Nat → Nat} (ok : s.Canon) : NextCanon (s.vop w d a b f) :=
  .next (.eltwise ok)
theorem vsat {w : Width} {n : Bool} {d a b : Vr} {f : Int → Int → Int} (ok : s.Canon) :
    NextCanon (s.vsat w n d a b f) := .next (.eltwise ok)
theorem vcmp {w : Width} {d : Pr} {a b : Vr} {f : Nat → Nat → Bool} (ok : s.Canon) : NextCanon (s.vcmp w d a b f) :=
  .next (.vecToPred ok)
theorem vimage {w : Width} {d : Vr} {src : List Nat} (ok : s.Canon) : NextCanon (s.vimage w d src) :=
  .next (.eltwise ok)
theorem vred {w : Width} {nat : Bool} {d : Gpr} {a : Vr} {ident : Nat} {f : Nat → Nat → Nat} (ok : s.Canon) :
    NextCanon (s.vred w nat d a ident f) := .next (.vecToGpr ok)
theorem vscan {w : Width} {d a : Vr} {f : Nat → Nat → Nat} (ok : s.Canon) : NextCanon (s.vscan w d a f) := .vimage ok
theorem pop {d : Pr} {x : Pred} (ok : s.Canon) : NextCanon (s.pop d x) := .next (.vecToPred ok)

/-! Float results. -/

theorem fmapD {f : Fmt} {r : Rnd} {d : Vr} {xs ys : List Nat} {op : RMode → Nat → Nat → Nat → Nat × Fl} (ok :
    s.Canon) :
    NextCanon (s.fmapD f r d xs ys op) := .next (.vecResult (.setSeed ok))
theorem farith {t : VTy} {r : Rnd} {d a : Vr} {b : FSrc} {op : RMode → Fv → Fv → Fv → Fv × Fl} (ok : s.Canon) :
    NextCanon (s.farith t r d a b op) := by
  unfold State.farith
  exact .fmapD ok
theorem funary {f : Fmt} {r : Rnd} {d a : Vr} {op : RMode → Nat → Nat × Fl} (ok : s.Canon) :
    NextCanon (s.funary f r d a op) := by
  unfold State.funary
  exact .fmapD ok
theorem fcmp {t : VTy} {d : Pr} {a b : Vr} {quiet : Bool} {test : Option Ordering → Bool} (ok : s.Canon) :
    NextCanon (s.fcmp t d a b quiet test) := .next (.vecToPred ok)
theorem fred {t : VTy} {r : Rnd} {d : Gpr} {a : Vr} {ident : Nat} {op : RMode → Fv → Fv → Fv × Fl} (ok : s.Canon) :
    NextCanon (s.fred t r d a ident op) := .next (.vecToGpr (.setSeed ok))

/-! Copies and collectives at work. -/

theorem execCopyCommandStart (ok : s.Canon) : NextCanon (execCopyCommandStart s) :=
  .next (by
    split
    · exact ok
    · exact .onCopy ok)
theorem execCopySegment (ok : s.Canon) : NextCanon (execCopySegment s) :=
  .next (by
    split
    · exact ok
    · exact .ite (.onCopy ok) (.ite (.formSegment ok) (.askReads ok)))
theorem execSegmentApply (ok : s.Canon) : NextCanon (execSegmentApply s) :=
  .next (.ite (.ownPiece ok) (by
    split
    · split
      · exact .ite (.hostSegment ok) (.agentSegment ok)
      · exact ok
    · exact ok))
theorem execEndToEndAck (ok : s.Canon) : NextCanon (execEndToEndAck s) :=
  .next (by
    split
    · split
      · exact .ite (.onDie (.dropPacket ok)) (.ite (.onCore (.dropPacket ok)) (.onCopy (.dropPacket ok)))
      · exact .onDie (.dropPacket ok)
      · exact .dropPacket ok
    · exact ok)
theorem execHostFlushRead (ok : s.Canon) : NextCanon (execHostFlushRead s) :=
  .next (.ite (by
    split
    · split
      · exact .send (.dropPacket ok)
      · exact ok
    · exact ok) (by
    split
    · exact ok
    · split
      · exact ok
      · exact .send (.onCopy ok)))
theorem execFollowOnIssue (ok : s.Canon) : NextCanon (execFollowOnIssue s) := by
  refine .next ?_
  split
  · exact ok
  · extract_lets k done freed skip enter
    have okskip (status : Nat) : (skip status).Canon :=
      .onCopy (.ite (.releaseFree (.endHolder (.endHolder ok))) (.endHolder (.endHolder ok)))
    have okenter (mx ov nt : Bool) (d : Acc) (a b : Ob) : (enter mx ov nt d a b).Canon :=
      .ite (okskip _) (.ite (okskip _) (.ite ok (.onCopy (.onCore ok))))
    split
    · exact okenter ..
    · exact okenter ..
    · exact .onCopy ok
theorem execCopyCompletion (ok : s.Canon) : NextCanon (execCopyCompletion s) :=
  .next (.ite (by
    split
    · exact .collEnd ok
    · exact ok) (by
    split
    · exact ok
    · exact .ite ok (.fillReserved (.endHolder (.onCore (by
        split
        · exact .onLog (.appendLog ok)
        · exact ok))))))
theorem execCollDescriptorArrival (ok : s.Canon) : NextCanon (execCollDescriptorArrival s) :=
  .next (by
    split
    · split
      · exact .onDie (.dropPacket ok)
      · exact ok
      · exact ok
    · exact ok)
theorem execCollInstanceRun (ok : s.Canon) : NextCanon (execCollInstanceRun s) :=
  .next (.ite (by
    split
    · exact .ite (.collStage ok) ok
    · exact ok) (by
    split
    · exact .ite (.collBegin ok) ok
    · exact ok))

/-! Launches, barriers and slots. -/

theorem execSend {u : Bool} {d : Pr} {a : Vr} {b : Gpr} (ok : s.Canon) : NextCanon (execSend u d a b s) :=
  .guarded ok (.sideClear ok (by
    split
    · exact .ite (.retire (.eventsAt ok)) (.retire (.putGpr (.putPred ok)))
    · exact .ite (.ite (.parkAgain ok) (.retire (.send (.postMail ok)))) (.send (.parkRef ok))))
theorem execRecv {d : Gpr} {a : Option Vr} (ok : s.Canon) : NextCanon (execRecv d a s) :=
  .guarded ok (.sideClear ok (by
    split
    · exact .pokeInbox (.recvTake ok)
    · exact .park ok))
theorem execJoin {d a : Gpr} (ok : s.Canon) : NextCanon (execJoin d a s) :=
  .guarded ok (.sideClear ok (by
    split
    · exact .pokeInbox (.joinTake ok)
    · exact .ite (.park ok) (.retire (.putGpr ok))))
theorem execEpoll {d : Gpr} {sel : BitVec 2} (ok : s.Canon) : NextCanon (execEpoll d sel s) :=
  .guarded ok (.sideClear ok (by
    split
    · exact .retire (.putGpr ok)
    · exact .retire (.putGpr ok)
    · exact .retire (.putGpr ok)
    · exact .trapField ok))
theorem execWake {a : Gpr} (ok : s.Canon) : NextCanon (execWake a s) := by
  refine .guarded ok ?_
  split
  · exact .retire (.eventsAt ok)
  · have posted {num dst : Nat} : (State.postMail { s with pktNum := s.pktNum + 1 } num dst).Canon := .postMail ok
    exact .ite (.parkAgain ok) (.ite (.retire (.after (.with_packets posted))) (.retire (.send posted)))
theorem execHalt (ok : s.Canon) : NextCanon (execHalt s) :=
  .guarded ok (.ite (.sideClear ok (.haltSup ok)) (.sideClear ok (.ite (.retireStrand ok) (.park ok))))

/-! Control registers and the supervisor. -/

theorem execCsrr {d : Gpr} {i : Imm} (ok : s.Canon) : NextCanon (execCsrr d i s) :=
  .ite (.next (.trapField ok)) (.ite (.next (.trapPriv ok)) (.guarded ok (.retire (.readClears (.putGpr ok)))))
theorem csrw {num : Nat} {v : Word} (ok : s.Canon) : NextCanon (s.csrw num v) :=
  .ite (.next (.trapField ok)) (.ite (.next (.trapPriv ok)) (.guarded ok (.retire (.onCore ok))))
theorem execUrg {e : BitVec 4} {d : Pr} {a b : Gpr} (ok : s.Canon) : NextCanon (execUrg e d a b s) :=
  .guarded ok (by
    split
    · exact .retire (.putPred ok)
    · exact .send (.parkRef ok))
theorem supOnly {body : State} (ok : s.Canon) (okbody : body.Canon) : NextCanon (s.supOnly body) :=
  .ite (.guarded ok okbody) (.next (.trapPriv ok))

/-! Submissions, messages and handlers. -/

theorem execMessageArrival (ok : s.Canon) : NextCanon (execMessageArrival s) :=
  .next (by
    split
    · split
      · dsimp only
        split
        · exact .tellSender (.dropPacket ok)
        · exact .ite (.tellSender (.dropPacket ok)) (.tellSender (.fillInbox (.dropPacket ok)))
        · exact .ite (.tellSender (.dropPacket ok)) (.tellSender (.onGroup (.dropPacket ok)))
      · exact .fillReserved (.dropPacket ok)
      · exact ok
    · exact ok)
theorem execWakeArrival (ok : s.Canon) : NextCanon (execWakeArrival s) :=
  .next (by
    split
    · split
      · dsimp only
        split
        · exact .tellSender (.dropPacket ok)
        · exact .tellSender (.pokeInbox (.onCore (.foldl (fun _ _ ok' => .ite (.writeMem ok') ok') (.dropPacket ok))))
        · exact .tellSender (.pokeInbox (.onCore (.foldl (fun _ _ ok' => .ite (.writeMem ok') ok') (.dropPacket ok))))
      · exact ok
    · exact ok)
theorem execNakArrival (ok : s.Canon) : NextCanon (execNakArrival s) :=
  .next (by
    split
    · split
      · dsimp only
        split
        · exact .arriveWord (.dropPacket ok)
        · exact .pokeAgain (.releaseHeld (.ite (.count (.onCore (.dropPacket ok))) (.onCore (.dropPacket ok))))
      · exact ok
    · exact ok)
theorem execHandlerDispatch (ok : s.Canon) : NextCanon (execHandlerDispatch s) := by
  refine .next ?_
  split
  · exact ok
  · dsimp only
    have away {c n : Nat} {f : Core → Core} {p : Prop} [Decidable p] {taker what num : Nat} :
        ((((if p then (s.onCore c f).reserve c taker what num else s.onCore c f).unpark c).pokeInbox c).putAway c n).Canon :=
      .putAway (.pokeInbox (.unpark (.ite (.reserve (.onCore ok)) (.onCore ok))))
    split
    · exact away
    · split
      · exact .onCore (.clearFrame (.setSlot away))
      · exact .raiseAt (.onCore (.clearFrame (.setSlot away)))
theorem execSubmissionArrival (ok : s.Canon) : NextCanon (execSubmissionArrival s) :=
  .next (by
    split
    · split
      · dsimp only
        split
        · exact .answerLaunch (.ite (.releaseFree (.dropPacket ok)) (.dropPacket ok))
        · exact .now ok
      · exact ok
    · exact ok)
theorem execLaunchAccept (ok : s.Canon) : NextCanon (execLaunchAccept s) :=
  .next (.ite ok (by
    split
    · exact ok
    · dsimp only
      split
      · exact .answerLaunch (.ite (.onCore ok) ok)
      · exact ok))
theorem execLaunchCounted (ok : s.Canon) : NextCanon (execLaunchCounted s) :=
  .next (.ite (.countCame ok) (by
    split
    · exact ok
    · exact .ite (.ite ok (.ite (.dealOut (.onLaunch ok)) (.ite (.onLaunch ok) (.askCount (.onLaunch ok))))) (.ite ok
        (.ite (.dealOut ok) (.ite ok (.askCount ok))))))
theorem execLaunchPacketArrival (ok : s.Canon) : NextCanon (execLaunchPacketArrival s) :=
  .next (by
    split
    · split
      · exact .ite (.after (.onDie (.dropPacket ok))) (.onDie (.dropPacket ok))
      · exact ok
    · exact ok)
theorem execGroupsPending (ok : s.Canon) : NextCanon (execGroupsPending s) :=
  .next (by
    split
    · exact ok
    · exact .ite ok (.settleBarriers (.ite (.send (.foldl (fun _ _ ok' => .ite (.dieCount ok') (.onCore ok')) (.onDie
        ok))) (.foldl (fun _ _ ok' => .ite (.dieCount ok') (.onCore ok')) (.onDie ok)))))
theorem execGroupStart (ok : s.Canon) : NextCanon (execGroupStart s) :=
  .next (by
    split
    · exact ok
    · exact .sendPut (.onCore (.foldl (fun _ _ ok' => .ite (.startStrand (.startStrand ok')) (.startStrand ok'))
        (.onCore (.zeroMem (.zeroMem (.onCore ok)))))))
theorem execDieReport (ok : s.Canon) : NextCanon (execDieReport s) :=
  .next (by
    split
    · split
      · dsimp only
        split
        · exact .onLaunch (.dropPacket ok)
        · exact .ite (.launchEnds (.onLaunch (.dropPacket ok))) (.onLaunch (.dropPacket ok))
      · exact ok
    · exact ok)
theorem execCompletionRingWrite (ok : s.Canon) : NextCanon (execCompletionRingWrite s) :=
  .next (by
    split
    · exact ok
    · exact .ite ok (.settleBarriers (.onLaunch (.onLink ok))))
theorem execBarrierArrival (ok : s.Canon) : NextCanon (execBarrierArrival s) :=
  .next (by
    split
    · split
      · dsimp only
        split
        · exact .settleBarrier ok
        · exact ok
      · exact ok
    · exact ok)
theorem execEnergyLeaseRequest (ok : s.Canon) : NextCanon (execEnergyLeaseRequest s) :=
  .next (by
    split
    · split
      · exact .send (.onLaunch (.dropPacket ok))
      · exact ok
    · exact ok)
theorem execEnergyLeaseGrant (ok : s.Canon) : NextCanon (execEnergyLeaseGrant s) :=
  .next (by
    split
    · split
      · exact .ite (.ite (.onCore (.dropPacket ok)) (.onLaunch (.dropPacket ok))) (.onCore (.ite (.onCore
          (.dropPacket ok)) (.onLaunch (.dropPacket ok))))
      · exact ok
    · exact ok)

/-! Links and packets that are lost. -/

theorem execFlitReceive (ok : s.Canon) : NextCanon (execFlitReceive s) :=
  .next (by
    split
    · exact ok
    · exact .ite ok (.ite (.after (.onTrack ok)) (.ite (.onTrack ok) (.receive (.onTrack ok)))))
theorem execUrgentNakResend (ok : s.Canon) : NextCanon (execUrgentNakResend s) :=
  .next (by
    split
    · split
      · dsimp only
        split
        · exact .foldl (fun _ _ ok' => .goOut ok') (.dropPacket ok)
        · exact .dropPacket ok
      · exact ok
    · exact ok)
theorem execLinkDeath (ok : s.Canon) : NextCanon (execLinkDeath s) :=
  .next (.onMgmt (.foldl (fun _ _ ok' => .trackDies ok') (.foldl (fun _ _ ok' => .trackDies ok') ok)))

/-! Trap delivery, urgent work and containment. -/

theorem execTrapDelivery (ok : s.Canon) : NextCanon (execTrapDelivery s) :=
  .next (.ite ok (.ite ok (.ite (.now ok) (.ite (by
    split
    · exact .ite (.after ok) (.deliverNested ok)
    · exact ok) (.deliverNext ok)))))
theorem execUrgRequestArrival (ok : s.Canon) : NextCanon (execUrgRequestArrival s) :=
  .next (by
    split
    · split
      · exact .send (.ite (.onTrap (.dropPacket ok)) (.dropPacket ok))
      · exact ok
    · exact ok)
theorem execUrgentEpisodeStart (ok : s.Canon) : NextCanon (execUrgentEpisodeStart s) :=
  .next (by
    split
    · exact ok
    · exact .ite ok (.beginUrgent (.onTrap ok)))
theorem execContainment (ok : s.Canon) : NextCanon (execContainment s) :=
  .next (.ite ok (.foldl (fun _ _ ok' => .settleBarriers ok') (.fire (.foldl (fun _ _ ok' => .containCore ok') ok))))

/-! Start-up, management and the host. -/

theorem execStagedStart (ok : s.Canon) : NextCanon (execStagedStart s) :=
  .next (.ite (.ite ok (.ite (.after (.after (.onMgmt (.verifyImage ok)))) (.onMgmt ok))) (.ite (.fullFunction ok)
      ok))
theorem execPhaekusHeartbeat (ok : s.Canon) : NextCanon (execPhaekusHeartbeat s) :=
  .next (.ite (.onMgmt ok) (.ite (.onMgmt (.after ok)) (.ite (.now (.onMgmt (.after ok))) (.onMgmt (.after ok)))))
theorem execFailover (ok : s.Canon) : NextCanon (execFailover s) := by
  unfold Machine.execFailover
  refine .next (.ite (.after (.onMgmt ok)) (.ite ok ?_))
  have okr := State.Canon.verifyImage ok
  generalize s.verifyImage = r at okr
  exact .ite (.onMgmt okr) (.with_agenda (.onMgmt (.foldl (fun _ _ ok' => .takeQres ok') okr)))
theorem execClockStepChange (ok : s.Canon) : NextCanon (execClockStepChange s) :=
  .next (.ite (.ite ok (.onMgmt ok)) (.ite (.ite (.ite ok (.onMgmt ok)) (.after (.ite ok (.onMgmt ok)))) (.ite
      (.after (.ite ok (.onMgmt ok))) (.ite (.after (.ite ok (.onMgmt ok))) (.foldl (fun _ _ ok' => .stallBus ok')
      (.foldl (fun _ _ ok' => .onDie ok') (.onMgmt (.ite ok (.onMgmt ok)))))))))
theorem execQuadReservationUpdate (ok : s.Canon) : NextCanon (execQuadReservationUpdate s) :=
  .next (.ite (.ite ok (.after ok)) (.ite ok (.ite ok (.onMgmt (.foldl (fun _ _ ok' => .settleCredits ok') ok)))))
theorem execThermalSample (ok : s.Canon) : NextCanon (execThermalSample s) :=
  .next (.ite (.askContain (.ite (.stallBus (.onVault (.ite (.settleCredits ok) ok))) (.onVault (.ite (.settleCredits
      ok) ok)))) (.ite (.stallBus (.onVault (.ite (.settleCredits ok) ok))) (.onVault (.ite (.settleCredits ok) ok))))
theorem execHostBarWrite (ok : s.Canon) : NextCanon (execHostBarWrite s) :=
  .next (.ite (.ite (.onMgmt ok) (.ite (.now (.onMgmt ok)) ok)) (.ite (.ite (.onLink ok) (.onLink ok)) ok))

/-! Frames and truncations. -/

theorem execStreamOpPerform (ok : s.Canon) : NextCanon (execStreamOpPerform s) :=
  .next (by
    split
    · exact .streamStep (.onDie ok)
    · exact ok)
theorem execFrameArrival (ok : s.Canon) : NextCanon (execFrameArrival s) :=
  .next (by
    split
    · split
      · exact .send (.frameStep (.dropPacket (.onDie ok)))
      · exact ok
    · exact ok)
theorem execTruncationEvent (ok : s.Canon) : NextCanon (execTruncationEvent s) :=
  .next (by
    split
    · split
      · exact .ite (.fillReserved (.dropPacket ok)) (.ite (.onCore (.dropPacket ok)) (.count (.dropPacket ok)))
      · exact ok
    · exact ok)

/-! Scalar results. -/

theorem bin {w : Width} {nat : Bool} {d a b : Gpr} {f : Nat → Nat → Nat} (ok : s.Canon) :
    NextCanon (s.bin w nat d a b f) := .guarded ok (.putScalar ok)
theorem shift {w : Width} {d a b : Gpr} {f : Nat → Nat → Nat → Nat} (ok : s.Canon) : NextCanon (s.shift w d a b f) :=
  .guarded ok (.putScalar ok)
theorem shiftImm {w : Width} {d a : Gpr} {i : Imm} {f : Nat → Nat → Nat → Nat} (ok : s.Canon) :
    NextCanon (s.shiftImm w d a i f) := .guarded ok (.putScalar ok)
theorem cmp {w : Width} {d : Pr} {a b : Gpr} {f : Nat → Nat → Bool} (ok : s.Canon) : NextCanon (s.cmp w d a b f) :=
  .guarded ok (.putTruth ok)
theorem cmpImm {w : Width} {d : Pr} {a : Gpr} {i : Imm} {f : Nat → Nat → Bool} (ok : s.Canon) :
    NextCanon (s.cmpImm w d a i f) := .guarded ok (.putTruth ok)
theorem un {w : Width} {nat : Bool} {d a : Gpr} {f : Nat → Nat} (ok : s.Canon) : NextCanon (s.un w nat d a f) :=
  .guarded ok (.putScalar ok)
theorem division {w : Width} {nat : Bool} {d a b : Gpr} {f : Nat → Nat → Nat} (ok : s.Canon) :
    NextCanon (s.division w nat d a b f) := .guarded ok (.putScalar (.events ok))

/-! Every instruction and event. -/

theorem exec (i : Instr) (ok : s.Canon) : NextCanon (exec i s) := by
  unfold Machine.exec
  cases i with
  | add | min | max | minn | maxn | sub | and | or | xor | andn | orn | xnor | mul | mulh | mulhn =>
    exact .bin ok
  | addi =>
    exact .guarded ok (.putScalar ok)
  | shl | shr | sra | rol | ror =>
    exact .shift ok
  | shli | shri | srai | roli | rori =>
    exact .shiftImm ok
  | div | divn | rem | remn =>
    exact .division ok
  | cmpeq | cmpne | cmplt | cmple | cmpltn | cmplen =>
    exact .cmp ok
  | cmpeqi | cmpnei | cmplti | cmplei | cmpltni | cmpleni =>
    exact .cmpImm ok
  | mov | lih | li | capoff | mstat | cntrd =>
    exact .guarded ok (.retire (.putGpr ok))
  | movCap =>
    exact .guarded ok (.retire (.putCap ok))
  | neg | not | clz | ctz | popc | sext | zext | bswap =>
    exact .un ok
  | sel =>
    exact .next (.retire (.putGpr ok))
  | br =>
    exact .guarded ok (.retireTo ok)
  | jmp =>
    exact .execJmp ok
  | call =>
    exact .execCall ok
  | ret =>
    exact .execRet ok
  | vadd | vsub | vmin | vmax | vminn | vmaxn | vmul | vmulh | vmulhn | vand | vor | vxor | vandn | vshl | vshr |
      vsra =>
    exact .vop ok
  | vadds | vsubs =>
    exact .vsat ok
  | vmad | vdot4 | vmovpToVec =>
    exact .next (.eltwise ok)
  | vcmpeq | vcmpne | vcmplt | vcmple | vcmpltn | vcmplen =>
    exact .vcmp ok
  | vsel | vqmx | vdqmx =>
    exact .next (.vecResult ok)
  | vbcast | vbcastImm | viota | vperm | vrot | vzip | vunzip =>
    exact .vimage ok
  | vmovpToPred =>
    exact .next (.vecToPred ok)
  | vredadd | vredmin | vredmax | vredand | vredor =>
    exact .vred ok
  | vscanadd | vscanmax =>
    exact .vscan ok
  | vextr =>
    exact .next (.ite (.vecToGpr ok) (.retire (.startVector ok)))
  | vins =>
    exact .next (.ite (.vecResult ok) (.retire (.startVector ok)))
  | pand | por | pxor | pnot | pfirst =>
    exact .pop ok
  | pcnt =>
    exact .next (.vecToGpr ok)
  | vfadd | vfsub | vfmul | vfmin | vfmax | vfma | vfms | vfnma | vfdiv =>
    exact .farith ok
  | vfsqrt | vfrcp | vfrsq | vfexp2 | vflog2 | vftanh | vfsigm | vfabs | vfneg | vfclass =>
    exact .funary ok
  | vfcmpeq | vfcmpne | vfcmplt | vfcmple | vfcmpun =>
    exact .fcmp ok
  | vcvt =>
    exact .next (.vecResult (.setSeed ok))
  | vsmx =>
    exact .next (.retire (.startVector (.vecWrite (.vecWrite (.latchEvents ok)))))
  | vfredadd | vfredmax | vfredmin =>
    exact .fred ok
  | ld | ldi =>
    exact .guarded ok (.load ok)
  | st | sti =>
    exact .guarded ok (.store ok)
  | vld =>
    exact .execVld ok
  | vst =>
    exact .execVst ok
  | tld =>
    exact .execTld ok
  | rowact | rowpre =>
    exact .guarded ok (.rowCtl ok)
  | capld =>
    exact .guarded ok (.ite (.sideTrap ok) (.withChk ok (fun _ => .loadPieces ok)))
  | capst =>
    exact .execCapst ok
  | capnarrow =>
    exact .guarded ok (.ite (.trap ok) (.ite (.trap ok) (.ite (.trap ok) (.retire (.putCap ok)))))
  | mma | mmas =>
    exact .guarded ok (.mmaIssue ok)
  | mzero =>
    exact .guarded ok (.enqueue ok (fun _ _ ok' => .retire ok'))
  | mfmt | mepi | mirflAll =>
    exact .guarded ok (.retire (.onCore ok))
  | tst =>
    exact .execTst ok
  | tldacc =>
    exact .execTldacc ok
  | obput =>
    exact .execObput ok
  | obget =>
    exact .execObget ok
  | mfence | mfenceCore =>
    exact .guarded ok (.mfence ok)
  | rel =>
    exact .guarded ok (.sideClear ok (.retire (.release' ok)))
  | acq =>
    exact .execAcq ok
  | fence =>
    exact .guarded ok (.sideClear ok (.ite (.retire ok) (.park ok)))
  | amoadd | amomin | amomax | amoand | amoor | amoxor | amoswap | cas =>
    exact .guarded ok (.atomic ok)
  | ldc | ldf | stp | sete | setf | feq =>
    exact .guarded ok (.fullEmpty ok)
  | swarm | swwait | swadd | swrd =>
    exact .guarded ok (.syncWord ok)
  | bar =>
    exact .ite (.next (.trapField ok)) (.guarded ok (.barrier ok (.retire ok)))
  | logq =>
    exact .execLogq ok
  | mirfl =>
    exact .guarded ok (.withChk ok (fun _ => .ite (.retire (.onCore ok)) (.retire ok)))
  | cpy | cpyMulticast | cpyConvert =>
    exact .guarded ok (.sideClear ok (.copyIssue ok))
  | cpyf =>
    exact .execCpyf ok
  | collAllreduce | collReduceScatter | collAllGather | collXorParity =>
    exact .guarded ok (.sideClear ok (.collIssue ok))
  | send =>
    exact .execSend ok
  | recv =>
    exact .execRecv ok
  | rcallRd | rcallWr | rcallAdd | rcallSwap | rcallCas =>
    exact .guarded ok (.rcall ok)
  | launch | launchi =>
    exact .ite (.next (.trapField ok)) (.guarded ok (.sideClear ok (.submit ok)))
  | join =>
    exact .execJoin ok
  | epoll =>
    exact .execEpoll ok
  | sopen | snext =>
    exact .guarded ok (.askTable ok)
  | sclose | sgen | sgenAbandon | splay | strunc | ssnap | skvaddr | sstat | scommit =>
    exact .guarded ok (.askStream ok)
  | sframe =>
    exact .guarded ok (.ite (.send (.parkRef ok)) (.retire (.putGpr (.putPred ok))))
  | trap | brk =>
    exact .guarded ok (.trapNext ok)
  | tret | tretHalt | tretAbort =>
    exact .guarded ok (.tret ok)
  | csrr =>
    exact .execCsrr ok
  | csrw | csrwCtxbase | csrwLogsize | csrwMirsize | csrwUrglim | csrwSeed | csrwWinbase | csrwRectdef =>
    exact .csrw ok
  | yield =>
    exact .guarded ok (.ite (.retire ok) (.retire (.after (.onSlot ok))))
  | park =>
    exact .guarded ok (.ite (.retire (.onSlot ok)) (.ite (.retire ok) (.park ok)))
  | wake =>
    exact .execWake ok
  | urg =>
    exact .execUrg ok
  | halt =>
    exact .execHalt ok
  | regevict =>
    exact .supOnly ok (.retire (.putGpr (.ite (.evict ok) ok)))
  | regload =>
    exact .supOnly ok (.ite (.fillLines ok) (.retire (.putGpr (.ite (.reload ok) ok))))
  | cntclr =>
    exact .supOnly ok (.retire (.onCore ok))
  | cntsum =>
    exact .ite (.next (.trapField ok)) (.guarded ok (.barrier ok (.retire (.putGpr ok))))
  | step =>
    exact .guarded ok (.ite (.retire ok) (.onCore (.retire ok)))
  | stagedStart =>
    exact .execStagedStart ok
  | startEpisode =>
    exact .next (.ite (.beginUrgent ok) ok)
  | phaekusHeartbeat =>
    exact .execPhaekusHeartbeat ok
  | failover =>
    exact .execFailover ok
  | clockStepChange =>
    exact .execClockStepChange ok
  | quadReservationUpdate =>
    exact .execQuadReservationUpdate ok
  | thermalSample =>
    exact .execThermalSample ok
  | vaultRequestArrival =>
    exact .next (.vaultLook (.onVault ok))
  | vaultBeat =>
    exact .execVaultBeat ok
  | rowRepairEnd | refreshEnd =>
    exact .next (.bankFree ok)
  | refreshStart =>
    exact .next (.ite (.after (.onVault ok)) ok)
  | laneFailure =>
    exact .ite (.next (.now ok)) (.next (.after (.onVault (.onVault ok))))
  | laneRepairEnd =>
    exact .next (.ite ok (.vaultLook (.ite (.fallToHalf ok) ok)))
  | vaultBusStallEnd =>
    exact .next (.vaultLook ok)
  | writeQueueSend =>
    exact .execWriteQueueSend ok
  | registerLineFill =>
    exact .execRegisterLineFill ok
  | vectorStart =>
    exact .execVectorStart ok
  | yieldEnd =>
    exact .next (.onSlot ok)
  | walkStart | walkRetry =>
    exact .next (.askWalk ok)
  | walkComplete =>
    exact .execWalkComplete ok
  | shootdown =>
    exact .execShootdown ok
  | tableWriteSettled =>
    exact .execTableWriteSettled ok
  | fenceMarker =>
    exact .execFenceMarker ok
  | drainedPacket =>
    exact .execDrainedPacket ok
  | logShip =>
    exact .execLogShip ok
  | logEntryApply =>
    exact .execLogEntryApply ok
  | logAck =>
    exact .execLogAck ok
  | homeRead =>
    exact .next (.perform ok (fun _ _ _ ok' => .send ok'))
  | homeReadReply =>
    exact .execHomeReadReply ok
  | vaultAgentRequest =>
    exact .execVaultAgentRequest ok
  | homeAtomic | homeFullEmpty | homeSyncWord =>
    exact .next (.performWord ok)
  | homeWaitRetry =>
    exact .execHomeWaitRetry ok
  | remoteReply =>
    exact .execRemoteReply ok
  | postedPerformed =>
    exact .execPostedPerformed ok
  | switchMergeForward =>
    exact .next (by split <;> exact ok)
  | acqQuery =>
    exact .execAcqQuery ok
  | acqWriterDone =>
    exact .execAcqWriterDone ok
  | logqQuery =>
    exact .execLogqQuery ok
  | messageArrival =>
    exact .execMessageArrival ok
  | wakeArrival =>
    exact .execWakeArrival ok
  | nakArrival =>
    exact .execNakArrival ok
  | handlerDispatch =>
    exact .execHandlerDispatch ok
  | submissionArrival =>
    exact .execSubmissionArrival ok
  | launchAccept =>
    exact .execLaunchAccept ok
  | launchCounted =>
    exact .execLaunchCounted ok
  | launchPacketArrival =>
    exact .execLaunchPacketArrival ok
  | groupsPending =>
    exact .execGroupsPending ok
  | groupStart =>
    exact .execGroupStart ok
  | dieReport =>
    exact .execDieReport ok
  | completionRingWrite =>
    exact .execCompletionRingWrite ok
  | barrierArrival =>
    exact .execBarrierArrival ok
  | energyLeaseRequest =>
    exact .execEnergyLeaseRequest ok
  | energyLeaseGrant =>
    exact .execEnergyLeaseGrant ok
  | copyCommandStart =>
    exact .execCopyCommandStart ok
  | copySegment =>
    exact .execCopySegment ok
  | segmentApply =>
    exact .execSegmentApply ok
  | copyCompletion =>
    exact .execCopyCompletion ok
  | followOnIssue =>
    exact .execFollowOnIssue ok
  | hostFlushRead =>
    exact .execHostFlushRead ok
  | collDescriptorArrival =>
    exact .execCollDescriptorArrival ok
  | collInstanceRun =>
    exact .execCollInstanceRun ok
  | matrixGrant =>
    exact .execMatrixGrant ok
  | matrixPerform =>
    exact .execMatrixPerform ok
  | tstChunkWrite =>
    exact .execTstChunkWrite ok
  | flitTransmit =>
    exact .next (.transmit ok)
  | flitReceive =>
    exact .execFlitReceive ok
  | retryRequest =>
    exact .next (.ite ok (.ite (.trackDies ok) (.onTrack ok)))
  | trackDeath =>
    exact .next (.trackDies ok)
  | linkDeath =>
    exact .execLinkDeath ok
  | urgentNakResend =>
    exact .execUrgentNakResend ok
  | endToEndAck =>
    exact .execEndToEndAck ok
  | frameArrival =>
    exact .execFrameArrival ok
  | streamOpPerform =>
    exact .execStreamOpPerform ok
  | truncationEvent =>
    exact .execTruncationEvent ok
  | trapDelivery =>
    exact .execTrapDelivery ok
  | urgRequestArrival =>
    exact .execUrgRequestArrival ok
  | urgentEpisodeStart =>
    exact .execUrgentEpisodeStart ok
  | urgLimit =>
    exact .next (.ite ok (.unpause (.raiseAt (.onTrap ok))))
  | deadlock =>
    exact .next (.ite (.onMgmt (.foldl (fun _ _ ok' => .supEvent ok') ok)) ok)
  | quietPeriod =>
    exact .next (.ite (.onMgmt (.fire ok)) ok)
  | containment =>
    exact .execContainment ok
  | hostBarWrite =>
    exact .execHostBarWrite ok
  | qresWrite =>
    exact .next (.ite ok (.ite (.onMgmt ok) (.takeQres (.onMgmt ok))))
  | contreqWrite =>
    exact .next (.ite (.askContain ok) ok)
  | bar2TableWrite =>
    exact .next (.ite (.sendPut ok) ok)
  | launchDoorbellDirect | launchDoorbellIndirect =>
    exact .next (.doorbell ok)
  | launchResultRead | frameResultRead =>
    exact .next (.onLink ok)
  | frameDoorbell =>
    exact .next (.ite ok (.ite (.send (.onLink ok)) (.onLink ok)))
  | illegalEncoding | instructionFetchFault =>
    exact .next (.trap ok)
  | pcieError =>
    exact .next (.ite (.onLink ok) (.ite (.onLink ok) ok))

end NextCanon

/-- A step keeps memory in its canonical form: it performs an event, a slot's instruction or an engine's access, or it ends the
clock. -/
theorem State.Canon.step {s t : State} (ok : s.Canon) (next : step s = .next t) : t.Canon := by
  unfold Machine.step at next
  split at next
  · next e rest _ =>
    have begun : State.Canon { s with agenda := rest, evt := e.args } := ok
    exact NextCanon.exec e.ev begun t next
  · split at next
    · next c rest _ =>
      have turned : (State.turn { s with turns := rest } c (s.cycle % 16)).Canon := .turn ok
      split at next
      · next h =>
        cases next
        rwa [h] at turned
      · next h =>
        rw [h] at turned
        exact NextCanon.exec _ turned t next
    · split at next
      · next e rest _ =>
        have begun : State.Canon { s with tail := rest, evt := e.args } := ok
        exact NextCanon.exec e.ev begun t next
      · cases next
        exact .tick ok

/-- Settles O60: every step of the machine is made of operations that keep memory canonical. -/
theorem memoryInvariant : Obligations.MemoryInvariant := fun _ _ ok next => State.Canon.step ok next

end Sys2Proof.Machine
end

section
/-!
SUPPORT. Accesses of the scratchpad: what they are charged and the faults that they meet (R191, R357), and when an earlier
holder on the scoreboard stands in their way (R284).
-/
namespace Sys2Proof.Machine
open Sys2Proof.Spec

/-! Event counters. -/

theorem State.evc_count (s : State) (c i n : Nat) :
    SMap.get ((s.count c i n).core c).evc i 0 = min (SMap.get (s.core c).evc i 0 + n) (2 ^ 64 - 1) := by
  rw [State.count, State.core_onCore, SMap.get_set]

theorem mem_foldl_setIns {l : List Nat} {x : Nat} (ks : List Nat) : x ∈ ks.foldl setIns l ↔ x ∈ l ∨ x ∈ ks := by
  induction ks generalizing l with
  | nil => simp
  | cons k r ih => rw [List.foldl_cons, ih, mem_setIns, List.mem_cons, or_assoc, or_left_comm]

/-! Faults met once (R191). -/

section meetFaults
variable (s : State) (c a n : Nat)

/-- The faults of the granules that bytes touch. -/
def State.faultsIn : List (Nat × Nat) := s.badGranules.filter fun p => (granules a n).contains p.1
/-- The faults are gone, and the granules of the uncorrectable ones are poisoned. -/
def State.poisonMet : State :=
  State.markPoison { s with badGranules := s.badGranules.filter fun p => !(granules a n).contains p.1 }
    (((s.faultsIn a n).filter fun p => p.2 == 1).map (·.1))

theorem State.meetFaults_of_none {s : State} {a n : Nat} (none_ : s.faultsIn a n = []) : s.meetFaults c a n = s :=
  if_pos (List.isEmpty_iff.2 none_)
theorem State.meetFaults_of_some {s : State} {a n : Nat} (some_ : s.faultsIn a n ≠ []) : s.meetFaults c a n =
    (s.poisonMet a n).count c 8 ((s.faultsIn a n).filter fun p => p.2 != 1).length :=
  if_neg (mt List.isEmpty_iff.1 some_)

theorem State.poison_meetFaults : (s.meetFaults c a n).poison =
    (((s.faultsIn a n).filter fun p => p.2 == 1).map (·.1)).foldl setIns s.poison := by
  by_cases none_ : s.faultsIn a n = []
  · rw [State.meetFaults_of_none c none_, none_]
    rfl
  · rw [State.meetFaults_of_some c none_]
    rfl

theorem State.badGranules_meetFaults : (s.meetFaults c a n).badGranules =
    s.badGranules.filter fun p => !(granules a n).contains p.1 := by
  by_cases none_ : s.faultsIn a n = []
  · rw [State.meetFaults_of_none c none_]
    refine (List.filter_eq_self.2 fun p listed => ?_).symm
    have apart := List.filter_eq_nil_iff.1 none_ p listed
    simpa using apart
  · rw [State.meetFaults_of_some c none_]
    rfl

theorem State.evc_meetFaults (small : SMap.get (s.core c).evc 8 0 < 2 ^ 64) : SMap.get ((s.meetFaults c a n).core c).evc 8 0 =
    min (SMap.get (s.core c).evc 8 0 + ((s.faultsIn a n).filter fun p => p.2 != 1).length) (2 ^ 64 - 1) := by
  by_cases none_ : s.faultsIn a n = []
  · rw [State.meetFaults_of_none c none_, none_]
    exact (Nat.min_eq_left (Nat.le_pred_of_lt small)).symm
  · rw [State.meetFaults_of_some c none_]
    exact State.evc_count (s.poisonMet a n) ..

theorem State.core_meetFaults_ne {c' : Nat} (other : c' ≠ c) : (s.meetFaults c a n).core c' = s.core c' := by
  by_cases none_ : s.faultsIn a n = []
  · rw [State.meetFaults_of_none c none_]
  · rw [State.meetFaults_of_some c none_]
    exact State.core_onCore_ne _ other _

theorem State.core_meetFaults : ∃ l, (s.meetFaults c a n).core c = { s.core c with evc := l } := by
  by_cases none_ : s.faultsIn a n = []
  · rw [State.meetFaults_of_none c none_]
    exact ⟨_, rfl⟩
  · rw [State.meetFaults_of_some c none_, State.count, State.core_onCore]
    exact ⟨_, rfl⟩

theorem State.meetFaults_frame : { s.meetFaults c a n with cores := [], poison := [], badGranules := [] } =
    { s with cores := [], poison := [], badGranules := [] } := by
  by_cases none_ : s.faultsIn a n = []
  · rw [State.meetFaults_of_none c none_]
  · rw [State.meetFaults_of_some c none_]
    rfl

end meetFaults

/-- R191. -/
theorem faultsMet : FaultsMet := by
  intro s c a n u corrected
  have counted : ((s.faultsIn a n).filter fun p => p.2 != 1) = corrected := by
    rw [State.faultsIn, List.filter_filter]
    exact List.filter_congr fun p _ => Bool.and_comm ..
  obtain ⟨evc, own⟩ := s.core_meetFaults c a n
  refine ⟨fun g => ?poison, fun p => ?faults, fun small => ?count, s.meetFaults_frame c a n,
    fun x other => s.core_meetFaults_ne c a n other, congrArg (fun k : Core => { k with evc := [] }) own⟩
  case poison =>
    rw [State.poison_meetFaults, mem_foldl_setIns]
    simp only [State.faultsIn, List.mem_map, List.mem_filter, List.contains_iff_mem, beq_iff_eq]
    refine or_congr_right ⟨?_, fun ⟨near, bad⟩ => ⟨(g, 1), ⟨⟨bad, near⟩, rfl⟩, rfl⟩⟩
    rintro ⟨⟨_, kind⟩, ⟨⟨bad, near⟩, rfl⟩, rfl⟩
    exact ⟨near, bad⟩
  case faults =>
    rw [State.badGranules_meetFaults, List.mem_filter, Bool.not_eq_true', List.contains_eq_mem, decide_eq_false_iff_not]
  case count =>
    rw [← counted]
    exact s.evc_meetFaults c a n small

/-! What a charge and a fault that is met leave alone. -/

/-- A core without what a charge and a counted event change. -/
def Core.uncharged (k : Core) : Core := { k with evc := [], leases := [] }

/-- Nothing differs but the counters, the accounts, the poison and the faults; of the cores, those of a and of the account of a
position have been charged or have counted. -/
structure State.Charged (a : Nat) (s u : State) : Prop where
  rest : { u with cores := [], launches := [], poison := [], badGranules := [] } =
    { s with cores := [], launches := [], poison := [], badGranules := [] }
  core : ∀ c, (u.core c).uncharged = (s.core c).uncharged
  others : ∀ c, c ≠ a → c ≠ a % 1024 → u.core c = s.core c

namespace State.Charged
variable {a : Nat}

theorem refl (s : State) : s.Charged a s := ⟨rfl, fun _ => rfl, fun _ _ _ => rfl⟩
theorem trans {s u v : State} (x : s.Charged a u) (y : u.Charged a v) : s.Charged a v :=
  ⟨y.rest.trans x.rest, fun c => (y.core c).trans (x.core c),
    fun c here account => (y.others c here account).trans (x.others c here account)⟩
theorem foldl {α : Type} {g : State → α → State} (each : ∀ (s : State) x, s.Charged a (g s x)) (l : List α) (s : State) :
    s.Charged a (l.foldl g s) := by
  induction l generalizing s with
  | nil => exact refl s
  | cons x r ih => exact (each s x).trans (ih _)

/-- A change of the counters and leases of a core that is charged. -/
theorem onCore (s : State) {c : Nat} {f : Core → Core} (here : c = a ∨ c = a % 1024)
    (kept : ∀ k, (f k).uncharged = k.uncharged) : s.Charged a (s.onCore c f) := by
  refine ⟨rfl, fun c' => ?_, fun c' notHere notAccount => ?_⟩
  · exact s.core_onCore_keep c kept c'
  · refine s.core_onCore_ne (fun same => ?_) f
    rcases here with rfl | rfl
    · exact notHere same
    · exact notAccount same

theorem count (s : State) {c : Nat} (here : c = a ∨ c = a % 1024) (i n : Nat) : s.Charged a (s.count c i n) :=
  onCore s here fun _ => rfl

theorem withLaunches (s : State) (l : SMap LRec) : s.Charged a { s with launches := l } :=
  ⟨rfl, fun _ => rfl, fun _ _ _ => rfl⟩

/-- A charge to the account of a slot of the core. -/
theorem charge (s : State) (n pj : Nat) : s.Charged a (s.charge (s.acctOf a n) pj) := by
  unfold State.charge State.acctOf Slot.acct
  split
  · exact refl s
  · next account eq =>
    have position : account % 1024 = a % 1024 := by
      split at eq
      · cases eq
        exact Nat.mul_add_mod_self_right ..
      · cases eq
    rw [position]
    dsimp only
    split
    · exact (count s (.inr rfl) 15 pj).trans (onCore _ (.inr rfl) fun _ => rfl)
    · exact (count s (.inr rfl) 15 pj).trans (withLaunches ..)

/-- Faults that the core's reads have met. -/
theorem meetFaults (s : State) (loc n : Nat) : s.Charged a (s.meetFaults a loc n) := by
  by_cases none_ : s.faultsIn loc n = []
  · rw [State.meetFaults_of_none a none_]
    exact refl s
  · have poisoned : s.Charged a (s.poisonMet loc n) := ⟨rfl, fun _ => rfl, fun _ _ _ => rfl⟩
    rw [State.meetFaults_of_some a none_]
    exact poisoned.trans (count _ (.inl rfl) ..)

/-- An access of the issuing slot. -/
theorem padRead (s : State) (n : Nat) (ps : List (Nat × Nat)) : s.Charged s.ic (Spec.padRead s n ps) :=
  (charge s s.is _).trans (foldl (fun u p => meetFaults u p.1 p.2) ps _)

variable {s u : State} (h : s.Charged a u)
include h

theorem mem : u.mem = s.mem := (congrArg State.mem h.rest :)
theorem tags : u.tags = s.tags := (congrArg State.tags h.rest :)
theorem full : u.full = s.full := (congrArg State.full h.rest :)
theorem cycle : u.cycle = s.cycle := (congrArg State.cycle h.rest :)
theorem issue : u.issue = s.issue := (congrArg State.issue h.rest :)
theorem pktNum : u.pktNum = s.pktNum := (congrArg State.pktNum h.rest :)
theorem ic : u.ic = s.ic := congrArg Issue.core h.issue
theorem is : u.is = s.is := congrArg Issue.slot h.issue
theorem readMem (x n : Nat) : u.readMem x n = s.readMem x n := by rw [State.readMem, h.mem, State.readMem]
theorem readByte (x : Nat) : u.readByte x = s.readByte x := by rw [State.readByte, h.mem, State.readByte]

/-- What does not depend on the counters and leases of a core. -/
theorem field {α : Type} (g : Core → α) (c : Nat) (keep : ∀ k : Core, g k.uncharged = g k := by exact fun _ => rfl) :
    g (u.core c) = g (s.core c) := by rw [← keep, h.core, keep]

theorem slot (c n : Nat) : u.slot c n = s.slot c n := h.field (Core.slot · n) c
theorem me : u.me = s.me := by rw [State.me, h.ic, h.is, h.slot, State.me]
theorem waiters (c : Nat) : (u.core c).waiters = (s.core c).waiters := h.field Core.waiters c

end State.Charged

/-! An earlier holder in the way (R284). -/

/-- The conflicts of an access of the scratchpad, in the words of the statements. -/
theorem State.conflicts_iff_held (s : State) (lo n : Nat) (write : Bool) :
    (s.core s.ic).conflicts ((s.core s.ic).order + 1) (.scratch lo (lo + n)) write = true ↔ Spec.Held s lo n write := by
  rw [Core.conflicts, List.any_eq_true]
  refine exists_congr fun e => and_congr_right fun _ => ?_
  rw [Bool.and_eq_true, Bool.and_eq_true, decide_eq_true_eq, Nat.lt_succ_iff, and_assoc]
  refine and_congr_right fun _ => and_congr_right fun _ => ?_
  cases e.region with
  | scratch l h => simp [Region.meets, and_comm]
  | vault obj l h => simp [Region.meets]
  | buf k l h => simp [Region.meets]

theorem State.unlessHeld_of_held {s : State} {rs : List Region} {lo n : Nat} {write : Bool} (f : State)
    (listed : .scratch lo (lo + n) ∈ rs) (held : Spec.Held s lo n write) : s.unlessHeld rs write f = parksAgain s := by
  have conflict := (s.conflicts_iff_held lo n write).2 held
  have busy : (s.core s.ic).board ≠ [] := by
    obtain ⟨e, on, -⟩ := held
    exact List.ne_nil_of_mem on
  refine if_pos ?_
  rw [Bool.and_eq_true, List.any_eq_true]
  exact ⟨by simpa using busy, _, listed, conflict⟩

theorem State.unlessHeld_of_free {s : State} {rs : List Region} {write : Bool} (f : State)
    (free : ∀ r ∈ rs, ∃ lo n, r = .scratch lo (lo + n) ∧ ¬ Spec.Held s lo n write) : s.unlessHeld rs write f = f := by
  refine if_neg ?_
  rw [Bool.and_eq_true, List.any_eq_true]
  rintro ⟨-, r, listed, conflict⟩
  obtain ⟨lo, n, rfl, notHeld⟩ := free r listed
  exact notHeld ((s.conflicts_iff_held lo n write).1 conflict)

theorem State.unlessHeld_one {s : State} {lo n : Nat} {write : Bool} (f : State) (free : ¬ Spec.Held s lo n write) :
    s.unlessHeld [.scratch lo (lo + n)] write f = f :=
  State.unlessHeld_of_free f fun _ listed => ⟨_, _, List.mem_singleton.1 listed, free⟩

end Sys2Proof.Machine
end

section
/-!
SUPPORT. Loads of the scratchpad: the bytes that are gathered, and the registers that they fill (R191, R208, R211, R212, R215).
-/
namespace Sys2Proof.Machine
open Sys2Proof.Spec

/-! A load in place. -/

section loadPieces
variable {s : State} {t : Xl} (ps : List (Nat × Nat × Nat)) (w : Wait)

/-- The state once a load's bytes, given as (key, object offset, length), have been charged and have met their faults. -/
abbrev State.loadRead (s : State) (t : Xl) (ps : List (Nat × Nat × Nat)) : State :=
  padRead s (sumList (ps.map (·.2.2))) (ps.map fun p => (padByte s t p.2.1, p.2.2))

/-- The wait of a load whose bytes are there. -/
def State.loaded (s : State) (t : Xl) (ps : List (Nat × Nat × Nat)) (w : Wait) : Wait :=
  { w with reads := [], bytes := ps.flatMap fun p => s.readCells (padByte s t p.2.1) p.1 p.2.2
           tag := (ps.head?.map fun p => s.tagAt (padByte s t p.2.1)).getD false }

theorem State.readCells_congr {s u : State} (mem : u.mem = s.mem) (a k n : Nat) : u.readCells a k n = s.readCells a k n := by
  induction n generalizing a k with
  | zero => rfl
  | succ n ih => rw [State.readCells, State.readCells, ih, State.readByte, mem, State.readByte]

theorem State.loadPieces_free (pad : t.ent.kind = kScratch) (free : ∀ p ∈ ps, ¬ Spec.Held s (s.home t p.2.1).2 p.2.2 false) :
    s.loadPieces t ps w = match ps.find? fun p => (s.loadRead t ps).poisoned (padByte s t p.2.1) p.2.2 with
      | some p => (s.loadRead t ps).trap causePoison p.2.1 (memValue w.knum (elemOfKey w p.1))
      | none => ((s.loadRead t ps).writeFin s.ic s.is (s.loaded t ps w) (s.cycle + 15)).retire := by
  have apart : ¬ (kScratch = kShared ∨ kScratch = kCode) := by decide
  have charged := State.Charged.padRead s (sumList (ps.map (·.2.2))) (ps.map fun p => (padByte s t p.2.1, p.2.2))
  have first : (s.chargeScratch (sumList (ps.map (·.2.2)))).ic = s.ic := (State.Charged.charge s s.is _).ic
  have regions : ∀ r ∈ ps.map fun p => regionOf kScratch t.obj p.2.1 (s.home t p.2.1).2 p.2.2,
      ∃ lo n, r = .scratch lo (lo + n) ∧ ¬ Spec.Held s lo n false := fun r listed => by
    obtain ⟨p, on, rfl⟩ := List.mem_map.1 listed
    exact ⟨_, _, rfl, free p on⟩
  have cells : ∀ a k n, (s.loadRead t ps).readCells a k n = s.readCells a k n := State.readCells_congr charged.mem
  have tags : ∀ a, (s.loadRead t ps).tagAt a = s.tagAt a := fun a => by rw [State.tagAt, charged.tags, State.tagAt]
  unfold State.loadPieces
  simp only [pad, if_neg apart, if_true, List.map_map, Function.comp_def]
  rw [State.unlessHeld_of_free _ regions]
  simp only [List.foldl_map, List.find?_map, List.flatMap_map, List.head?_map, Option.map_map, Function.comp_def, first]
  simp only [State.loadRead, padRead, List.foldl_map] at charged cells tags ⊢
  cases ps.find? fun p => State.poisoned _ _ _ with
  | some p => rfl
  | none =>
    simp only [Option.map_none, charged.ic, charged.is, charged.cycle, cells, tags]
    rfl

theorem State.loadPieces_held {p : Nat × Nat × Nat} (pad : t.ent.kind = kScratch) (listed : p ∈ ps)
    (held : Spec.Held s (s.home t p.2.1).2 p.2.2 false) : s.loadPieces t ps w = parksAgain s := by
  have apart : ¬ (kScratch = kShared ∨ kScratch = kCode) := by decide
  unfold State.loadPieces
  simp only [pad, if_neg apart, List.map_map, Function.comp_def]
  exact State.unlessHeld_of_held _ (List.mem_map.2 ⟨p, listed, rfl⟩) held

end loadPieces

/-! Bytes as they are gathered. -/

theorem Memory.readNat_lt (m : List Host.Cell) (a n : Nat) : Memory.readNat m a n < 256 ^ n := by
  induction n generalizing a with
  | zero => exact Nat.one_pos
  | succ n ih =>
    have byte := (Memory.read m a).isLt
    have rest := ih (a + 1)
    rw [Memory.readNat, Nat.pow_succ]
    omega
theorem State.readMem_lt (s : State) (a n : Nat) : s.readMem a n < 2 ^ (8 * n) := by
  rw [Nat.pow_mul]
  exact Memory.readNat_lt ..

theorem State.find?_readCells (s : State) (a k n i : Nat) :
    (s.readCells a k n).find? (fun p => p.1 == k + i) = if i < n then some (k + i, s.readByte (a + i)) else none := by
  induction n generalizing a k i with
  | zero => rfl
  | succ n ih =>
    cases i with
    | zero => simp [State.readCells]
    | succ i =>
      have later := ih (a + 1) (k + 1) i
      rw [Nat.add_right_comm k, Nat.add_assoc k, Nat.add_right_comm a, Nat.add_assoc a] at later
      have notFirst : (k == k + (i + 1)) = false := by simp
      rw [State.readCells, List.find?_cons_of_neg (by simp), later]
      simp

/-- Bytes that are all among the cells make the number that memory holds. -/
theorem State.pickBytes_eq (s : State) {cs : List Host.Cell} {k a n : Nat}
    (all : ∀ i, i < n → cs.find? (fun p => p.1 == k + i) = some (k + i, s.readByte (a + i))) :
    pickBytes cs k n = s.readMem a n := by
  have from_ : ∀ m j, j + m = n → (upFrom j m).foldr (fun i acc =>
      acc * 256 + ((cs.find? fun p => p.1 == k + i).map fun p => p.2.toNat).getD 0) 0 = Memory.readNat s.mem (a + j) m := by
    intro m
    induction m with
    | zero => exact fun _ _ => rfl
    | succ m ih =>
      intro j here
      rw [upFrom, List.foldr_cons, ih (j + 1) (by omega), all j (by omega), Memory.readNat, Nat.add_comm, Nat.mul_comm]
      rfl
  exact from_ n 0 (Nat.zero_add n)

/-! Scalar loads (R211). -/

theorem State.sideCovers_of_empty {s : State} (empty : s.sideUsed s.ic s.is = 0) (k : Cap) (e n : Nat) :
    s.sideCovers k e n = false := by
  rw [State.sideCovers, empty]
  rfl

/-- A number of n bytes as a load widens it. -/
theorem ofNat_sextTo {n x : Nat} (some_ : 0 < n) (small : x < 2 ^ n) :
    BitVec.ofNat 64 (sextTo n 64 x) = (BitVec.ofNat n x).signExtend 64 := by
  have bits : x = (BitVec.ofNat n x).toNat := by rw [BitVec.toNat_ofNat, Nat.mod_eq_of_lt small]
  rw [sextTo, ofNat_toBits, BitVec.signExtend]
  conv_lhs => rw [bits, sv_toNat some_]

/-- The value of a scalar load. -/
theorem State.loadValue (s : State) (ty : MemTy) (a : Nat) :
    BitVec.ofNat 64 (if ty.isNat then s.readMem a ty.bytes else sextTo (8 * ty.bytes) 64 (s.readMem a ty.bytes)) =
      if ty.isNat then (BitVec.ofNat (8 * ty.bytes) (s.readMem a ty.bytes)).setWidth 64
      else (BitVec.ofNat (8 * ty.bytes) (s.readMem a ty.bytes)).signExtend 64 := by
  have small := s.readMem_lt a ty.bytes
  obtain ⟨some_, -⟩ := MemTy.within_word ty (Nat.zero_mod _)
  split
  · rw [← BitVec.ofNat_toNat, BitVec.toNat_ofNat, Nat.mod_eq_of_lt small]
  · exact ofNat_sextTo (by omega) small

/-- One run of bytes. -/
theorem State.pickBytes_readCells (s : State) (a n : Nat) : pickBytes (s.readCells a 0 n) 0 n = s.readMem a n :=
  s.pickBytes_eq fun i hi => by rw [State.find?_readCells, if_pos hi]

/-- A load of one run of bytes from the scratchpad. -/
theorem State.loadPieces_one {s : State} {t : Xl} {n : Nat} (w : Wait) (pad : t.ent.kind = kScratch)
    (free : ¬ Spec.Held s (s.home t t.off).2 n false) (single : elemOfKey w 0 = 0) :
    let a := padByte s t t.off
    let c := padRead s n [(a, n)]
    s.loadPieces t [(0, t.off, n)] w = if c.poisoned a n then c.trap causePoison t.off w.knum
      else (c.writeFin s.ic s.is { w with reads := [], bytes := s.readCells a 0 n, tag := s.tagAt a } (s.cycle + 15)).retire := by
  intro a c
  have knum : memValue w.knum (elemOfKey w 0) = w.knum := by rw [single, memValue, Nat.zero_mul, Nat.zero_add]
  have read : s.loadRead t [(0, t.off, n)] = c := by
    simp only [State.loadRead, List.map_cons, List.map_nil, sumList, Nat.add_zero, c, a]
  rw [State.loadPieces_free _ w pad (by simpa using free), read]
  clear_value c
  cases bad : c.poisoned (padByte s t t.off) n with
  | true => simp only [List.find?_cons, bad, if_true, knum, a]
  | false =>
    simp only [List.find?_cons, List.find?_nil, bad, Bool.false_eq_true, if_false, State.loaded, List.flatMap_cons,
      List.flatMap_nil, List.append_nil, List.head?_cons, Option.map_some, Option.getD_some, a]

section scalar
variable {s : State} {ty : MemTy} {d : Gpr} {k : Kr} {x : Nat} {t : Xl} (pad : t.ent.kind = kScratch)
  (side : s.sideUsed s.ic s.is = 0) (ok : s.chk k x ty.bytes rR ty.bytes 0 false s.mayLoad = .ok t)
include side ok

theorem State.load_eq : s.load ty d k x = After s t.obj
    (s.loadPieces t [(0, t.off, ty.bytes)] { fin := .load d ty.bytes ty.isNat, knum := k.toNat }) := by
  simp only [State.load, State.sideCovers_of_empty side, Bool.false_eq_true, if_false, ok, State.withChk]

include pad

theorem State.load_held (held : Spec.Held s (s.home t t.off).2 ty.bytes false) :
    s.load ty d k x = After s t.obj (parksAgain s) := by
  rw [State.load_eq side ok, State.loadPieces_held (p := (0, t.off, ty.bytes)) _ _ pad (List.mem_singleton_self _) held]

theorem State.load_free (free : ¬ Spec.Held s (s.home t t.off).2 ty.bytes false) :
    let a := padByte s t t.off
    let c := padRead s ty.bytes [(a, ty.bytes)]
    s.load ty d k x = After s t.obj (if c.poisoned a ty.bytes then c.trap causePoison t.off k.toNat
      else put c d (let y := BitVec.ofNat (8 * ty.bytes) (s.readMem a ty.bytes)
        if ty.isNat then y.setWidth 64 else y.signExtend 64)) := by
  intro a c
  have charged : s.Charged s.ic c := .padRead ..
  rw [State.load_eq side ok, State.loadPieces_one _ pad free rfl, ← s.loadValue, ← s.pickBytes_readCells]
  simp only [State.writeFin, put, State.putGpr, charged.ic, charged.is, charged.cycle]
  rfl

end scalar

/-- A capability is loaded with its tag. -/
theorem State.execCapld_free {s : State} {q k : Kr} {b : Gpr} {t : Xl} (pad : t.ent.kind = kScratch)
    (side : s.sideUsed s.ic s.is = 0) (ok : s.chk k (s.gpr b).toNat 16 (rR + rK) 16 0 false s.mayLoad = .ok t)
    (free : ¬ Spec.Held s (s.home t t.off).2 16 false) :
    let a := padByte s t t.off
    let u := padRead s 16 [(a, 16)]
    execCapld q k b s = guardedNext s (After s t.obj (
      if u.poisoned a 16 then u.trap causePoison t.off k.toNat else (u.putCap q (s.readCap a)).retire)) := by
  intro a u
  have charged : s.Charged s.ic u := .padRead ..
  simp only [execCapld, State.guarded, State.sideCovers_of_empty side, Bool.false_eq_true, if_false, ok, State.withChk]
  rw [State.loadPieces_one _ pad free rfl]
  simp only [State.writeFin, State.putCap, State.readCap, charged.ic, charged.is, s.pickBytes_readCells]
  rfl

end Sys2Proof.Machine
end

section
/-!
SUPPORT. Vector loads of the scratchpad: the active elements are apart, and each fills its own element (R208, R212).
-/
namespace Sys2Proof.Machine
open Sys2Proof.Spec

/-! The elements of a checked access. -/

theorem map_fst_zip_sublist {α β : Type} (l : List α) (m : List β) : ((l.zip m).map Prod.fst).Sublist l := by
  induction l generalizing m with
  | nil => exact .slnil
  | cons x r ih =>
    cases m with
    | nil => exact List.nil_sublist _
    | cons y q => exact (ih q).cons_cons x
theorem map_snd_zip_sublist {α β : Type} (l : List α) (m : List β) : ((l.zip m).map Prod.snd).Sublist m := by
  induction m generalizing l with
  | nil => rw [List.zip_nil_right]; exact .slnil
  | cons y q ih =>
    cases l with
    | nil => exact List.nil_sublist _
    | cons x r => exact (ih r).cons_cons y

theorem filterMap_good_sublist {α : Type} (f : Nat × α → ElemChk) (xs : List (Nat × α)) :
    (((xs.map fun p => (p.1, f p)).filterMap fun r => match r.2 with
      | .good e => some (r.1, e)
      | .fail _ _ => none).map (·.1)).Sublist (xs.map (·.1)) := by
  induction xs with
  | nil => exact .slnil
  | cons x r ih =>
    rw [List.map_cons, List.map_cons, List.filterMap_cons]
    cases f x with
    | good e => exact ih.cons_cons _
    | fail c e => exact ih.cons _

/-- The elements that a check lets through are in the order of the active ones. -/
theorem State.chkVec_sublist {s : State} {k : Kr} {need n : Nat} {side : Bool} {kind : ObjEnt → Nat → Bool}
    {xs : List (Nat × Int)} {t : Xl} {els : List (Nat × Nat)} (ok : s.chkVec k need n side kind xs = .ok t els) :
    (els.map (·.1)).Sublist (xs.map (·.1)) := by
  unfold State.chkVec at ok
  extract_lets cap v at ok
  iterate 2
    split at ok
    · cases ok
  split at ok
  · cases ok
  · cases ok
  · next entry _ _ =>
    extract_lets ent home rs good ps tl at ok
    iterate 3
      split at ok
      · cases ok
    split at ok
    · cases ok
    · injection ok with _ els_eq
      exact els_eq ▸ filterMap_good_sublist (fun p => s.chkElem cap entry p.2 n side) xs

/-- Each active element is listed once. -/
theorem State.activeIdx_nodup (s : State) (w : Nat) (x : VIdx) : ((s.activeIdx w x).map (·.1)).Nodup := by
  have listed : ((List.zip (below (elemCount w)) (s.vindex w x)).map Prod.fst).Sublist (below (elemCount w)) :=
    map_fst_zip_sublist ..
  have active : (s.activeIdx w x).Sublist (List.zip (below (elemCount w)) (s.vindex w x)) := by
    have pairs : ((List.zip (activeList w s.guardMask) (List.zip (below (elemCount w)) (s.vindex w x))).map Prod.snd).Sublist
        (List.zip (below (elemCount w)) (s.vindex w x)) :=
      map_snd_zip_sublist ..
    exact (List.filter_sublist.map _).trans pairs
  refine ((active.map _).trans listed).nodup ?_
  rw [below, upFrom_eq_range']
  exact List.nodup_range' ..

/-! The bytes of the elements. -/

theorem State.mem_readCells {s : State} {a k n : Nat} {p : Host.Cell} (listed : p ∈ s.readCells a k n) :
    k ≤ p.1 ∧ p.1 < k + n := by
  induction n generalizing a k with
  | zero => cases listed
  | succ n ih =>
    rcases List.mem_cons.1 listed with rfl | later
    · simp
    · have place := ih later
      omega

theorem find?_of_nodup {els : List (Nat × Nat)} (apart : (els.map (·.1)).Nodup) {p : Nat × Nat} (listed : p ∈ els) :
    els.find? (fun q => q.1 == p.1) = some p := by
  obtain ⟨q, found⟩ := Option.isSome_iff_exists.1 (List.find?_isSome (p := fun q => q.1 == p.1).2
    ⟨p, listed, beq_self_eq_true p.1⟩)
  have same : q.1 = p.1 := by simpa using List.find?_some found
  rw [found, List.inj_on_of_nodup_map apart (List.mem_of_find?_eq_some found) listed same]

/-- The keys of an element's bytes are no other element's. -/
theorem elem_of_key {a b n i : Nat} (small : i < n) (lo : b * n ≤ a * n + i) (hi : a * n + i < b * n + n) : b = a := by
  have above : (a * n + i) / n = b := Nat.div_eq_of_lt_le lo (by rwa [Nat.succ_mul])
  have own : (a * n + i) / n = a := Nat.div_eq_of_lt_le (Nat.le_add_right ..) (by rw [Nat.succ_mul]; omega)
  exact above.symm.trans own

section padCells
variable (s : State) (loc : Nat → Nat) (n : Nat) (els : List (Nat × Nat))

/-- The bytes of the elements, given as (element, offset), by their keys. -/
def State.padCells : List Host.Cell := els.flatMap fun p => s.readCells (loc p.2) (p.1 * n) n

theorem State.find?_padCells {els : List (Nat × Nat)} {p : Nat × Nat} {i : Nat} (small : i < n)
    (found : els.find? (fun q => q.1 == p.1) = some p) :
    (s.padCells loc n els).find? (fun q => q.1 == p.1 * n + i) = some (p.1 * n + i, s.readByte (loc p.2 + i)) := by
  induction els with
  | nil => cases found
  | cons q r ih =>
    rw [State.padCells, List.flatMap_cons, List.find?_append]
    by_cases same : q.1 = p.1
    · rw [List.find?_cons_of_pos (by simpa using same)] at found
      cases found
      rw [State.find?_readCells, if_pos small]
      rfl
    · rw [List.find?_cons_of_neg (by simpa using same)] at found
      have none_ : (s.readCells (loc q.2) (q.1 * n) n).find? (fun x => x.1 == p.1 * n + i) = none := by
        rw [List.find?_eq_none]
        intro x listed equal
        obtain ⟨lo, hi⟩ := State.mem_readCells listed
        rw [beq_iff_eq] at equal
        rw [equal] at lo hi
        exact same (elem_of_key small lo hi)
      rw [none_, Option.none_or]
      exact ih found

/-- An element's bytes make its number. -/
theorem State.pickBytes_padCells {els : List (Nat × Nat)} (apart : (els.map (·.1)).Nodup) {p : Nat × Nat}
    (listed : p ∈ els) : pickBytes (s.padCells loc n els) (p.1 * n) n = s.readMem (loc p.2) n :=
  s.pickBytes_eq fun _ hi => s.find?_padCells loc n hi (find?_of_nodup apart listed)

end padCells

/-! Elements that are written one after another. -/

theorem elemAt_foldl_setElem (w : Nat) (f : Nat × Nat → Nat) (els : List (Nat × Nat)) (x j : Nat) :
    elemAt w (els.foldl (fun acc p => setElem w acc p.1 (f p)) x) j =
      match els.reverse.find? fun p => p.1 == j with
      | some p => f p % 2 ^ w
      | none => elemAt w x j := by
  induction els generalizing x with
  | nil => rfl
  | cons p r ih =>
    rw [List.foldl_cons, ih, List.reverse_cons, List.find?_append]
    cases r.reverse.find? fun p => p.1 == j with
    | some q => rfl
    | none =>
      rw [Option.none_or, List.find?_singleton, elemAt_setElem]
      by_cases here : j = p.1
      · simp [here]
      · simp [here, Ne.symm here]

end Sys2Proof.Machine
end

section
/-!
SUPPORT. Vector loads of the scratchpad as a whole, and the loads together (R191, R208, R211, R212, R215, R284).
-/
namespace Sys2Proof.Machine
open Sys2Proof.Spec

theorem State.Charged.vec {a : Nat} {s u : State} (h : s.Charged a u) (r : Vr) : u.vec r = s.vec r :=
  State.vec_congr h.issue (h.field Core.banks _) (by rw [h.slot]; rfl) (by rw [h.slot]; rfl) r

section vector
variable {s : State} {w : Width} {v : Vr} {k : Kr} {x : VIdx} {t : Xl} {els : List (Nat × Nat)}

theorem sumList_map_const {α : Type} (n : Nat) (l : List α) : sumList (l.map fun _ => n) = l.length * n := by
  induction l with
  | nil => rw [List.length_nil, Nat.zero_mul]; rfl
  | cons x r ih => rw [List.map_cons, sumList, ih, List.length_cons, Nat.succ_mul, Nat.add_comm]

theorem Width.bytes_pos (w : Width) : 0 < w.bits / 8 := by cases w <;> decide
theorem Width.bits_bytes (w : Width) : 8 * (w.bits / 8) = w.bits := by cases w <;> decide

/-- The wait of a vector load. -/
def vloadWait (w : Width) (v : Vr) (k : Kr) (els : List (Nat × Nat)) : Wait :=
  { fin := .vload v (w.bits / 8) (els.map fun p => (p.1, p.1 * (w.bits / 8))), knum := k.toNat }

/-- A poisoned byte names the element that it belongs to. -/
theorem elemOfKey_vload {p : Nat × Nat} (listed : p ∈ els) :
    elemOfKey (vloadWait w v k els) (p.1 * (w.bits / 8)) = p.1 := by
  have some_ := Width.bytes_pos w
  let covers (q : Nat × Nat) : Bool := q.2 ≤ p.1 * (w.bits / 8) && p.1 * (w.bits / 8) < q.2 + w.bits / 8
  have own : ((els.map fun p => (p.1, p.1 * (w.bits / 8))).find? covers).isSome :=
    List.find?_isSome.2 ⟨_, List.mem_map.2 ⟨p, listed, rfl⟩, by simp [covers, some_]⟩
  obtain ⟨q, found⟩ := Option.isSome_iff_exists.1 own
  obtain ⟨q', -, rfl⟩ := List.mem_map.1 (List.mem_of_find?_eq_some found)
  have near := List.find?_some found
  simp only [covers, Bool.and_eq_true, decide_eq_true_eq] at near
  have key : elemOfKey (vloadWait w v k els) (p.1 * (w.bits / 8)) =
      (((els.map fun p => (p.1, p.1 * (w.bits / 8))).find? covers).map (·.1)).getD 0 := rfl
  rw [key, found]
  exact elem_of_key some_ (by simpa using near.1) near.2

/-- The register of a vector load: the bytes of each active element in its place. -/
def State.vloadValue (s : State) (w : Width) (v : Vr) (t : Xl) (els : List (Nat × Nat)) : Vec :=
  BitVec.ofNat 8192 (els.foldl (fun acc p => setElem w.bits acc p.1
    (pickBytes (s.padCells (padByte s t) (w.bits / 8) els) (p.1 * (w.bits / 8)) (w.bits / 8))) (s.vec v).toNat)

theorem State.elt_vloadValue (apart : (els.map (·.1)).Nodup) {j : Nat} (small : j < 8192 / w.bits) :
    elt w.bits (s.vloadValue w v t els) j = match els.reverse.find? fun p => p.1 == j with
      | some p => BitVec.ofNat w.bits (s.readMem (padByte s t p.2) (w.bits / 8))
      | none => elt w.bits (s.vec v) j := by
  have width := Width.elemWidth w
  rw [State.vloadValue, width.elt_ofNat _ small, elemAt_foldl_setElem]
  cases found : els.reverse.find? fun p => p.1 == j with
  | none => rw [← toNat_elt, BitVec.ofNat_toNat, BitVec.setWidth_eq]
  | some p =>
    have listed := List.mem_reverse.1 (List.mem_of_find?_eq_some found)
    have bytes := s.pickBytes_padCells (padByte s t) (w.bits / 8) apart listed
    dsimp only
    rw [bytes]
    exact BitVec.eq_of_toNat_eq (by simp)

/-- The lanes that a vector load commits. -/
def vloadLanes (w : Width) (els : List (Nat × Nat)) : Pred :=
  elemLanes (w.bits / 8) (els.map fun p => (p.1, p.1 * (w.bits / 8)))

theorem State.writeFin_vload {z : State} (charged : s.Charged s.ic z) (clock : Nat) :
    z.writeFin s.ic s.is (s.loaded t (els.map fun p => (p.1 * (w.bits / 8), p.2, w.bits / 8)) (vloadWait w v k els)) clock =
      z.putVecAt s.ic s.is v (s.vloadValue w v t els) clock (vloadLanes w els) := by
  have old : z.vecAt s.ic s.is v = s.vec v := by rw [← charged.vec v, State.vec, charged.ic, charged.is]
  simp only [State.writeFin, State.loaded, vloadWait, List.foldl_map, List.flatMap_map, old, Width.bits_bytes]
  rfl

theorem State.loadRead_vector (s : State) (t : Xl) (n : Nat) (els : List (Nat × Nat)) :
    s.loadRead t (els.map fun p => (p.1 * n, p.2, n)) =
      padRead s (els.length * n) (els.map fun p => (padByte s t p.2, n)) := by
  simp only [State.loadRead, List.map_map, Function.comp_def, sumList_map_const]

variable (pad : t.ent.kind = kScratch) (side : s.sideUsed s.ic s.is = 0)
  (ok : s.chkVec k rR (w.bits / 8) false s.mayLoad (s.activeIdx w.bits x) = .ok t els) (some_ : els ≠ [])
include side ok some_

theorem State.execVld_eq : execVld w v k x s = .next (After s t.obj
    (s.loadPieces t (els.map fun p => (p.1 * (w.bits / 8), p.2, w.bits / 8)) (vloadWait w v k els))) := by
  have active : s.activeIdx w.bits x ≠ [] := fun none_ => by
    have listed := State.chkVec_sublist ok
    rw [none_, List.map_nil, List.sublist_nil, List.map_eq_nil_iff] at listed
    exact some_ listed
  have notSide : ((s.activeIdx w.bits x).any fun p => 0 ≤ p.2 &&
      s.sideCovers (s.cap k) ((s.cap k).base + p.2.toNat) (w.bits / 8)) = false := by
    simp only [State.sideCovers_of_empty side, Bool.and_false, List.any_eq_false, Bool.false_eq_true, not_false_eq_true,
      implies_true]
  simp only [execVld, List.isEmpty_iff, active, if_false, notSide, Bool.false_eq_true, ok]
  rfl

include pad
theorem State.execVld_free (free : ∀ p ∈ els, ¬ Spec.Held s (s.home t p.2).2 (w.bits / 8) false) :
    let z := padRead s (els.length * (w.bits / 8)) (els.map fun p => (padByte s t p.2, w.bits / 8))
    match els.find? fun p => z.poisoned (padByte s t p.2) (w.bits / 8) with
    | some p => execVld w v k x s = .next (After s t.obj (z.trap causePoison p.2 (p.1 * 16 + k.toNat)))
    | none => ∃ lanes, execVld w v k x s =
        .next (After s t.obj (z.putVecAt s.ic s.is v (s.vloadValue w v t els) (s.cycle + 15) lanes).retire) := by
  intro z
  have charged : s.Charged s.ic z := .padRead ..
  have read : s.loadRead t (els.map fun p => (p.1 * (w.bits / 8), p.2, w.bits / 8)) = z := s.loadRead_vector t _ els
  rw [State.execVld_eq side ok some_, State.loadPieces_free _ _ pad, read, List.find?_map]
  · clear_value z
    cases found : els.find? fun p => z.poisoned (padByte s t p.2) (w.bits / 8) with
    | some p =>
      simp only [Function.comp_def, found, Option.map_some, elemOfKey_vload (List.mem_of_find?_eq_some found)]
      rfl
    | none =>
      refine ⟨vloadLanes w els, ?_⟩
      simp only [Function.comp_def, found, Option.map_none, State.writeFin_vload charged]
  · intro p listed
    obtain ⟨q, on, rfl⟩ := List.mem_map.1 listed
    exact free q on

end vector
/-- R191, R208, R211, R212, R215 and R284 for loads of the scratchpad. -/
theorem scratchpadLoads : Spec.ScratchpadLoads := by
  intro s ty w d b v k q i x t els pad side m at_ a c value scalar u n z
  have charged : s.Charged s.ic c := .padRead ..
  have scalarLoad : ∀ (e : Instr) (y : Nat), exec e s = guardedNext s (s.load ty d k y) →
      s.chk k y m rR m 0 false s.mayLoad = .ok t → scalar e := fun e y loads ok =>
    ⟨fun free => loads.trans (congrArg (guardedNext s) (State.load_free pad side ok free)),
      fun held => loads.trans (congrArg (guardedNext s) (State.load_held pad side ok held))⟩
  refine ⟨⟨charged.rest, charged.others, charged.core s.ic⟩, scalarLoad _ _ rfl, scalarLoad _ _ rfl,
    fun ok free => State.execCapld_free pad side ok free, fun ok some_ inside => ?_⟩
  have loads := State.execVld_free (v := v) pad side ok some_ fun p listed => (inside p listed).2
  split
  · next p found =>
    simp only [n, z] at *
    rw [found] at loads
    exact loads
  · next found =>
    simp only [n, z] at *
    rw [found] at loads
    obtain ⟨lanes, does⟩ := loads
    have apart := (State.chkVec_sublist ok).nodup (s.activeIdx_nodup w.bits x)
    exact ⟨s.vloadValue w v t els, lanes, does, fun j small => State.elt_vloadValue apart small⟩

end Sys2Proof.Machine
end

section
/-!
SUPPORT. Stores to the scratchpad: the bytes that a store gathers, what stands in memory afterwards, and the stores together
(R49, R208, R211, R212, R215, R284).
-/
namespace Sys2Proof.Machine
open Sys2Proof.Spec

/-! The last write to each place. -/

theorem SMap.set_above {α : Type} {m : SMap α} {k : Nat} (above : ∀ p ∈ m, p.1 < k) (v : α) : SMap.set m k v = m ++ [(k, v)] := by
  induction m with
  | nil => rfl
  | cons p r ih =>
    obtain ⟨first, later⟩ := List.forall_mem_cons.1 above
    rw [SMap.set, if_neg (Nat.ne_of_lt first), if_neg (Nat.lt_asymm first), ih later]
    rfl

/-- Bytes at rising places are what is written. -/
theorem lastWins_rising {ws : List (Nat × Byte)} (rising : ws.Pairwise fun p q => p.1 < q.1) : lastWins ws = ws := by
  have onto : ∀ m : SMap Byte, (∀ p ∈ m, ∀ q ∈ ws, p.1 < q.1) → ws.foldl (fun m p => SMap.set m p.1 p.2) m = m ++ ws := by
    induction ws with
    | nil => exact fun m _ => (List.append_nil m).symm
    | cons p r ih =>
      intro m below_
      obtain ⟨first, later⟩ := List.pairwise_cons.1 rising
      rw [List.foldl_cons, SMap.set_above fun q hq => below_ q hq p List.mem_cons_self, ih later]
      · rw [List.append_assoc]
        rfl
      · intro q listed y hy
        rcases List.mem_append.1 listed with before | last
        · exact below_ q before y (List.mem_cons_of_mem p hy)
        · rw [List.mem_singleton.1 last]
          exact first y hy
  exact onto [] fun p listed => absurd listed List.not_mem_nil

theorem SMap.set_rising {α : Type} {m : SMap α} (rising : m.Pairwise fun p q => p.1 < q.1) (k : Nat) (v : α) :
    (SMap.set m k v).Pairwise fun p q => p.1 < q.1 := by
  induction m with
  | nil => exact List.pairwise_singleton ..
  | cons q r ih =>
    obtain ⟨first, later⟩ := List.pairwise_cons.1 rising
    unfold SMap.set
    split_ifs with same before
    · exact List.pairwise_cons.2 ⟨fun p hp => same ▸ first p hp, later⟩
    · exact List.pairwise_cons.2 ⟨List.forall_mem_cons.2 ⟨before, fun p hp => before.trans (first p hp)⟩, rising⟩
    · refine List.pairwise_cons.2 ⟨fun p hp => ?_, ih later⟩
      rcases SMap.mem_of_mem_set hp with rfl | old
      · exact Nat.lt_of_le_of_ne (Nat.le_of_not_lt before) same
      · exact first p old

theorem lastWins_concat (ws : List (Nat × Byte)) (p : Nat × Byte) : lastWins (ws ++ [p]) = SMap.set (lastWins ws) p.1 p.2 := by
  rw [lastWins, List.foldl_append]
  rfl

theorem rising_lastWins (ws : List (Nat × Byte)) : (lastWins ws).Pairwise fun p q => p.1 < q.1 := by
  induction ws using List.reverseRecOn with
  | nil => exact .nil
  | append_singleton r p ih => exact lastWins_concat r p ▸ SMap.set_rising ih ..

theorem mem_of_mem_lastWins {ws : List (Nat × Byte)} {p : Nat × Byte} (listed : p ∈ lastWins ws) : p ∈ ws := by
  induction ws using List.reverseRecOn with
  | nil => cases listed
  | append_singleton r q ih =>
    rw [lastWins_concat] at listed
    rcases SMap.mem_of_mem_set listed with rfl | old
    · exact List.mem_append_right _ (List.mem_singleton_self _)
    · exact List.mem_append_left _ (ih old)

/-- A byte that no other write of its place contradicts is written. -/
theorem mem_lastWins {ws : List (Nat × Byte)} {p : Nat × Byte} (listed : p ∈ ws) (agree : ∀ q ∈ ws, q.1 = p.1 → q = p) :
    p ∈ lastWins ws := by
  induction ws using List.reverseRecOn with
  | nil => cases listed
  | append_singleton r q ih =>
    rw [lastWins_concat]
    by_cases same : q.1 = p.1
    · rw [agree q (List.mem_append_right _ (List.mem_singleton_self q)) same]
      exact List.mem_of_find?_eq_some (SMap.find?_set _ p.1 p.2)
    · have before : p ∈ r := (List.mem_append.1 listed).resolve_right fun last => same (List.mem_singleton.1 last ▸ rfl)
      exact SMap.mem_set_of_ne (ih before fun x hx => agree x (List.mem_append_left _ hx)) (Ne.symm same) _

/-- Grouping the bytes beforehand changes nothing. -/
theorem lastWins_lastWins (ws : List (Nat × Byte)) : lastWins (lastWins ws) = lastWins ws :=
  lastWins_rising (rising_lastWins ws)

theorem rising_runBytes (q n : Nat) (f : Nat → Byte) : (runBytes q n f).Pairwise fun p q => p.1 < q.1 := by
  rw [runBytes, List.pairwise_map]
  exact List.pairwise_lt_range.imp fun h => Nat.add_lt_add_left h q

/-! What stands in memory. -/

theorem State.putCells_append (s : State) (l r : List Host.Cell) : s.putCells (l ++ r) = (s.putCells l).putCells r := by
  induction l generalizing s with
  | nil => rfl
  | cons x l ih => exact ih _

theorem State.putCells_wf {s : State} (w : Memory.wf s.mem = true) (cs : List Host.Cell) : Memory.wf (s.putCells cs).mem = true :=
  State.writeCells_wf w cs

/-- Where the cells of a place agree, memory holds what they say. -/
theorem State.readByte_putCells_of_agree {cs : List Host.Cell} {x : Host.Cell} (listed : x ∈ cs)
    (agree : ∀ y ∈ cs, y.1 = x.1 → y.2 = x.2) {s : State} (w : Memory.wf s.mem = true) : (s.putCells cs).readByte x.1 = x.2 := by
  induction cs using List.reverseRecOn with
  | nil => cases listed
  | append_singleton r y ih =>
    have wf := State.putCells_wf w r
    rw [State.putCells_append, State.putCells, State.putCells, State.readByte_writeCell wf]
    split
    · next same => exact agree y (List.mem_append_right _ (List.mem_singleton_self y)) same.symm
    · next other =>
      have before : x ∈ r := (List.mem_append.1 listed).resolve_right fun last => other (List.mem_singleton.1 last ▸ rfl)
      exact ih before fun z hz => agree z (List.mem_append_left _ hz)

/-- Of bytes that are written one after another, the last on a place stands. -/
theorem State.readByte_putCells_last {s : State} (w : Memory.wf s.mem = true) (a : Nat → Nat) (b : Nat → Byte) {n j : Nat}
    (here : j < n) (last : ∀ j', j < j' → j' < n → a j' ≠ a j) :
    (s.putCells ((List.range n).map fun i => (a i, b i))).readByte (a j) = b j := by
  induction n with
  | zero => cases here
  | succ n ih =>
    have wf := State.putCells_wf w ((List.range n).map fun i => (a i, b i))
    rw [List.range_succ, List.map_append, State.putCells_append, List.map_singleton, State.putCells, State.putCells,
      State.readByte_writeCell wf]
    rcases Nat.lt_or_eq_of_le (Nat.le_of_lt_succ here) with before | rfl
    · rw [if_neg (last n before (Nat.lt_succ_self n)).symm]
      exact ih before fun j' after small => last j' after (Nat.lt_succ_of_lt small)
    · rw [if_pos rfl]

/-! A store in place. -/

theorem State.Charged.home {a : Nat} {s u : State} (h : s.Charged a u) (t : Xl) (x : Nat) : u.home t x = s.home t x :=
  (congrArg (State.home · t x) h.rest :)

/-- A charged access writes cells of memory; beside memory and what it is charged nothing changes. -/
def State.padStored (s : State) (t : Xl) (all : SMap Byte) : State :=
  (s.chargeScratch all.length).writeCells (all.map fun p => (padByte s t p.1, p.2))

theorem State.putCells_frame (cs : List Host.Cell) (s : State) :
    { s.putCells cs with mem := [], tags := [], poison := [], badGranules := [] } =
      { s with mem := [], tags := [], poison := [], badGranules := [] } := by
  induction cs generalizing s with
  | nil => rfl
  | cons x r ih => exact ih _

section padStored
variable (s : State) (t : Xl) (all : SMap Byte)

theorem State.charged_chargeScratch (n : Nat) : s.Charged s.ic (s.chargeScratch n) := .charge ..

theorem State.core_padStored (c : Nat) : (s.padStored t all).core c = (s.chargeScratch all.length).core c :=
  State.core_writeCells ..

theorem State.issue_padStored : (s.padStored t all).issue = s.issue :=
  (congrArg State.issue (State.putCells_frame ..) :).trans (s.charged_chargeScratch _).issue

theorem State.padStored_frame :
    { s.padStored t all with cores := [], launches := [], mem := [], tags := [], poison := [], badGranules := [] } =
        { s with cores := [], launches := [], mem := [], tags := [], poison := [], badGranules := [] } ∧
      (∀ c, c ≠ s.ic → c ≠ s.ic % 1024 → (s.padStored t all).core c = s.core c) ∧
      { (s.padStored t all).core s.ic with evc := [], leases := [] } = { s.core s.ic with evc := [], leases := [] } := by
  have charged := s.charged_chargeScratch all.length
  refine ⟨?_, fun c here account => (s.core_padStored t all c).trans (charged.others c here account), ?_⟩
  · have written := State.putCells_frame (all.map fun p => (padByte s t p.1, p.2)) (s.chargeScratch all.length)
    exact (congrArg (fun u : State => { u with cores := [], launches := [] }) written).trans
      (congrArg (fun u : State => { u with mem := [], tags := [] }) charged.rest)
  · rw [s.core_padStored]
    exact charged.core s.ic

theorem State.readByte_padStored (a : Nat) : (s.padStored t all).readByte a =
    ((s.chargeScratch all.length).putCells (all.map fun p => (padByte s t p.1, p.2))).readByte a := rfl

end padStored

section storeBytes
variable {s : State} {t : Xl} (groups : List (List (Nat × Byte))) (knum : Nat) (elem : Nat → Nat)
  (pad : t.ent.kind = kScratch)
include pad

theorem State.storeBytes_free (none_ : (s.core s.ic).waiters = [])
    (free : ∀ p ∈ lastWins (groups.flatMap id), ¬ Spec.Held s (s.home t p.1).2 1 true) :
    s.storeBytes t groups knum elem = (s.padStored t (lastWins (groups.flatMap id))).retire := by
  have apart : ¬ kScratch = kShared := by decide
  generalize all_eq : lastWins (groups.flatMap id) = all at free
  have charged := s.charged_chargeScratch all.length
  have regions : ∀ r ∈ all.map fun p => regionOf kScratch t.obj p.1 (s.home t p.1).2 1,
      ∃ lo n, r = .scratch lo (lo + n) ∧ ¬ Spec.Held s lo n true := fun r listed => by
    obtain ⟨p, on, rfl⟩ := List.mem_map.1 listed
    exact ⟨_, _, rfl, free p on⟩
  have waiters : ((s.padStored t all).core s.ic).waiters = [] := by
    rw [s.core_padStored, charged.waiters, none_]
  have wakes : ∀ l : SMap Byte, l.foldl (fun u p => u.wakeRange (.scratch u.ic (u.home t p.1).2) 1) (s.padStored t all) =
      s.padStored t all := fun l => foldl_of_forall_mem fun p _ => by
    rw [State.ic, s.issue_padStored]
    exact State.wakeRange_scratch waiters ..
  unfold State.storeBytes
  simp only [all_eq, pad, if_neg apart, if_true]
  rw [State.unlessHeld_of_free _ regions]
  simp only [charged.ic, charged.home]
  exact congrArg State.retire (wakes all)

theorem State.storeBytes_held {p : Nat × Byte} (listed : p ∈ lastWins (groups.flatMap id))
    (held : Spec.Held s (s.home t p.1).2 1 true) : s.storeBytes t groups knum elem = parksAgain s := by
  have apart : ¬ kScratch = kShared := by decide
  unfold State.storeBytes
  simp only [pad, if_neg apart]
  exact State.unlessHeld_of_held _ (List.mem_map.2 ⟨p, listed, rfl⟩) held

end storeBytes

end Sys2Proof.Machine
end

section
/-!
SUPPORT. The stores to the scratchpad together (R49, R208, R211, R212, R215, R284).
-/
namespace Sys2Proof.Machine
open Sys2Proof.Spec

/-! Scalar stores (R211). -/

theorem byte_of_toNat {n : Nat} (x : BitVec n) (j : Nat) : BitVec.ofNat 8 (x.toNat / 256 ^ j) = x.extractLsb' (8 * j) 8 := by
  apply BitVec.eq_of_toNat_eq
  rw [BitVec.extractLsb'_toNat, BitVec.toNat_ofNat, Nat.shiftRight_eq_div_pow, Nat.pow_mul]

section scalar
variable {s : State} {t : Xl} (off x n : Nat)

/-- The bytes of a number are at rising places. -/
theorem lastWins_bytesAt : lastWins ([bytesAt off x n].flatMap id) = runBytes off n fun i => BitVec.ofNat 8 (x / 256 ^ i) := by
  rw [List.flatMap_singleton, id, bytesAt_eq_runBytes]
  exact lastWins_rising (rising_runBytes ..)

theorem State.padStored_run (f : Nat → Byte) (wf : Memory.wf s.mem = true) (a : Nat) :
    (∀ j, j < n → a ≠ padByte s t (off + j)) → (s.padStored t (runBytes off n f)).readByte a = s.readByte a := by
  intro apart
  have charged := s.charged_chargeScratch (runBytes off n f).length
  rw [s.readByte_padStored, State.readByte_putCells_of_ne (charged.mem ▸ wf), charged.readByte]
  intro y hy
  obtain ⟨p, listed, rfl⟩ := List.mem_map.1 hy
  obtain ⟨j, small, rfl⟩ := List.mem_map.1 listed
  exact apart j (List.mem_range.1 small)

theorem State.padStored_run_last (f : Nat → Byte) (wf : Memory.wf s.mem = true) {j : Nat} (here : j < n)
    (last : ∀ j', j < j' → j' < n → padByte s t (off + j') ≠ padByte s t (off + j)) :
    (s.padStored t (runBytes off n f)).readByte (padByte s t (off + j)) = f j := by
  have charged := s.charged_chargeScratch (runBytes off n f).length
  rw [s.readByte_padStored, runBytes, List.map_map]
  exact State.readByte_putCells_last (charged.mem ▸ wf) (fun i => padByte s t (off + i)) f here last

end scalar

section store
variable {s : State} {ty : MemTy} {d : Gpr} {k : Kr} {x : Nat} {t : Xl}
  (pad : t.ent.kind = kScratch) (ok : s.chkStore k x ty.bytes rW ty.bytes 0 s.mayStore = .ok t)
include pad ok

/-- The bytes of a scalar store. -/
def State.storedBytes (s : State) (ty : MemTy) (d : Gpr) (t : Xl) : SMap Byte :=
  runBytes t.off ty.bytes fun i => BitVec.ofNat 8 ((s.gpr d).toNat / 256 ^ i)

theorem State.store_free (none_ : (s.core s.ic).waiters = [])
    (free : ∀ j, j < ty.bytes → ¬ Spec.Held s (s.home t (t.off + j)).2 1 true) :
    s.store ty d k x = After s t.obj (s.padStored t (s.storedBytes ty d t)).retire := by
  have bytes : lastWins ([bytesAt t.off (s.gpr d).toNat ty.bytes].flatMap id) = s.storedBytes ty d t := lastWins_bytesAt ..
  have each : ∀ p ∈ s.storedBytes ty d t, ¬ Spec.Held s (s.home t p.1).2 1 true := fun p listed => by
    obtain ⟨j, small, rfl⟩ := List.mem_map.1 listed
    exact free j (List.mem_range.1 small)
  simp only [State.store, ok, State.withChk]
  rw [State.storeBytes_free _ _ _ pad none_ (bytes ▸ each), bytes]

theorem State.store_held {j : Nat} (small : j < ty.bytes) (held : Spec.Held s (s.home t (t.off + j)).2 1 true) :
    s.store ty d k x = After s t.obj (parksAgain s) := by
  simp only [State.store, ok, State.withChk]
  have listed : (t.off + j, BitVec.ofNat 8 ((s.gpr d).toNat / 256 ^ j)) ∈
      lastWins ([bytesAt t.off (s.gpr d).toNat ty.bytes].flatMap id) := by
    rw [lastWins_bytesAt]
    exact List.mem_map.2 ⟨j, List.mem_range.2 small, rfl⟩
  exact congrArg (After s t.obj) (State.storeBytes_held _ _ _ pad listed held)

end store

/-! Stores of capabilities (R215). -/

theorem Cap.holds_rG (k : Cap) : k.holds rG = k.rights.testBit 7 := by
  rw [Cap.holds, show rG = 2 ^ 7 from rfl, Nat.and_two_pow]
  cases k.rights.testBit 7 <;> rfl

/-- A core's own slot may store any capability in the group's own allocation. -/
theorem State.ownTarget_scratch {s : State} {t : Xl} (pad : t.ent.kind = kScratch) : s.ownTarget t =
    (t.obj == aliasObj || (s.me.bank < 16 && t.obj == s.scratchObj s.ic s.me.bank)) := by
  have notPrivate : (kScratch == kPrivate) = false := by decide
  rw [State.ownTarget, pad, notPrivate, Bool.false_and, Bool.or_false]

theorem State.core_writeCap (s : State) (a : Nat) (x : Cap) (c : Nat) : (s.writeCap a x).core c = s.core c := by
  have cores : (s.writeCap a x).cores = s.cores := by rw [State.writeCap, State.setTag, State.writeMem, State.touch, State.clean]
  rw [State.core, cores, State.core]

theorem execCapst_free {s : State} {q k : Kr} {b : Gpr} {t : Xl} (pad : t.ent.kind = kScratch)
    (none_ : (s.core s.ic).waiters = []) (ok : s.chkStore k (s.gpr b).toNat 16 (rW + rK) 16 0 s.mayStore = .ok t)
    (here : (s.home t t.off).1 = s.ic) (free : ¬ Spec.Held s (s.home t t.off).2 16 true) :
    execCapst q k b s = guardedNext s (After s t.obj (
      if (s.cap q).tag = false ∨ (s.cap q).rights.testBit 7 = true ∨ t.obj = aliasObj ∨
          (s.me.bank < 16 ∧ t.obj = s.scratchObj s.ic s.me.bank)
      then ((s.chargeScratch 16).writeCap (padByte s t t.off) (s.cap q)).retire
      else s.trap causeRights (s.cap k).base k.toNat)) := by
  have place : s.placeOf t = .scratch s.ic (s.home t t.off).2 := by rw [State.placeOf, if_pos pad, here]
  have refused : ((s.cap q).tag && !(s.cap q).holds rG && !s.ownTarget t) = true ↔
      ¬ ((s.cap q).tag = false ∨ (s.cap q).rights.testBit 7 = true ∨ t.obj = aliasObj ∨
        (s.me.bank < 16 ∧ t.obj = s.scratchObj s.ic s.me.bank)) := by
    rw [State.ownTarget_scratch pad, Cap.holds_rG]
    simp only [Bool.and_eq_true, Bool.not_eq_true', Bool.or_eq_false_iff, Bool.and_eq_false_iff, beq_eq_false_iff_ne, ne_eq,
      decide_eq_false_iff_not, not_or, not_and_or, Bool.not_eq_false, Bool.not_eq_true, and_assoc]
  have waiters : (((s.chargeScratch 16).writeCap (padByte s t t.off) (s.cap q)).core s.ic).waiters = [] :=
    (congrArg Core.waiters ((s.chargeScratch 16).core_writeCap ..)).trans
      (((s.charged_chargeScratch 16).waiters s.ic).trans none_)
  have through : ∀ f, s.unlessHeld [regionOf kScratch t.obj t.off (s.home t t.off).2 16] true f = f := fun f =>
    State.unlessHeld_one f free
  simp only [execCapst, State.guarded, ok, State.withChk, refused, place, pad, if_true, through, memValue, Nat.zero_mul, Nat.zero_add,
    ite_not, Place.loc, State.wakeRange_scratch waiters]

/-! Vector stores (R212). -/

/-- A byte of an element of a vector. -/
theorem Width.byte_of_elt (w : Width) (v : Vec) (i : Nat) {j : Nat} (small : j < w.bits / 8) :
    BitVec.ofNat 8 (v.toNat / 2 ^ (w.bits * i) / 256 ^ j) = (elt w.bits v i).extractLsb' (8 * j) 8 := by
  obtain ⟨r, size⟩ := Nat.exists_eq_add_of_lt small
  have bits : 2 ^ w.bits = 256 ^ j * (256 * 256 ^ r) := by
    rw [← Width.bits_bytes w, size, Nat.pow_mul]
    ring
  rw [← byte_of_toNat, toNat_elt, elemAt, bits, Nat.mod_mul_right_div_self]
  apply BitVec.eq_of_toNat_eq
  rw [BitVec.toNat_ofNat, BitVec.toNat_ofNat]
  exact (Nat.mod_mul_right_mod ..).symm

section vector
variable {s : State} {w : Width} {v : Vr} {k : Kr} {x : VIdx} {t : Xl} {els : List (Nat × Nat)}

/-- The bytes of the elements, in the order of the elements. -/
def State.vstBytes (s : State) (w : Width) (v : Vr) (els : List (Nat × Nat)) : List (Nat × Byte) :=
  els.flatMap fun p => bytesAt p.2 ((s.vec v).toNat / 2 ^ (w.bits * p.1)) (w.bits / 8)

theorem State.mem_vstBytes {q : Nat × Byte} : q ∈ s.vstBytes w v els ↔ ∃ p ∈ els, ∃ j, j < w.bits / 8 ∧
    q = (p.2 + j, (elt w.bits (s.vec v) p.1).extractLsb' (8 * j) 8) := by
  rw [State.vstBytes, List.mem_flatMap]
  refine exists_congr fun p => and_congr_right fun _ => ?_
  rw [bytesAt_eq_runBytes, runBytes, List.mem_map]
  refine exists_congr fun j => ?_
  rw [List.mem_range]
  exact and_congr_right fun small => by rw [Width.byte_of_elt w _ _ small, eq_comm]

variable (pad : t.ent.kind = kScratch) (none_ : (s.core s.ic).waiters = [])
  (ok : s.chkVec k rW (w.bits / 8) true s.mayStore (s.activeIdx w.bits x) = .ok t els) (some_ : els ≠ [])
  (free : ∀ p ∈ els, ∀ j, j < w.bits / 8 → ¬ Spec.Held s (s.home t (p.2 + j)).2 1 true)

include pad none_ ok some_ free in
theorem execVst_free : execVst w v k x s = .next (After s t.obj (s.padStored t (lastWins (s.vstBytes w v els))).retire) := by
  have active : s.activeIdx w.bits x ≠ [] := fun empty => by
    have listed := State.chkVec_sublist ok
    rw [empty, List.map_nil, List.sublist_nil, List.map_eq_nil_iff] at listed
    exact some_ listed
  have inOrder : (els.map fun p => bytesAt p.2 ((s.vec v).toNat / 2 ^ (w.bits * p.1)) (w.bits / 8)).flatMap id =
      s.vstBytes w v els := by
    rw [List.flatMap_map]
    rfl
  have each : ∀ p ∈ lastWins (s.vstBytes w v els), ¬ Spec.Held s (s.home t p.1).2 1 true := fun q listed => by
    obtain ⟨p, on, j, small, rfl⟩ := State.mem_vstBytes.1 (mem_of_mem_lastWins listed)
    exact free p on j small
  have stores : ∀ (scatter : Bool) knum elem,
      s.storeBytes t (if scatter then els.map fun p => bytesAt p.2 ((s.vec v).toNat / 2 ^ (w.bits * p.1)) (w.bits / 8)
        else [lastWins (s.vstBytes w v els)]) knum elem = (s.padStored t (lastWins (s.vstBytes w v els))).retire := by
    intro scatter knum elem
    cases scatter with
    | true =>
      rw [if_pos rfl, State.storeBytes_free _ _ _ pad none_ (inOrder.symm ▸ each), inOrder]
    | false =>
      have one : [lastWins (s.vstBytes w v els)].flatMap id = lastWins (s.vstBytes w v els) := List.append_nil _
      have once : lastWins ([lastWins (s.vstBytes w v els)].flatMap id) = lastWins (s.vstBytes w v els) := by
        rw [one, lastWins_lastWins]
      rw [if_neg Bool.false_ne_true, State.storeBytes_free _ _ _ pad none_ (once.symm ▸ each), once]
  simp only [execVst, List.isEmpty_iff, active, if_false, ok, inOrder]
  exact congrArg (fun u => Host.Outcome.next (After s t.obj u)) (stores ..)

/-- Every other byte stands. -/
theorem State.readByte_vst_of_ne (wf : Memory.wf s.mem = true) {a : Nat}
    (apart : ∀ p ∈ els, ∀ j, j < w.bits / 8 → a ≠ padByte s t (p.2 + j)) :
    (s.padStored t (lastWins (s.vstBytes w v els))).readByte a = s.readByte a := by
  have charged := s.charged_chargeScratch (lastWins (s.vstBytes w v els)).length
  rw [s.readByte_padStored, State.readByte_putCells_of_ne (charged.mem ▸ wf), charged.readByte]
  intro y hy
  obtain ⟨q, listed, rfl⟩ := List.mem_map.1 hy
  obtain ⟨p, on, j, small, rfl⟩ := State.mem_vstBytes.1 (mem_of_mem_lastWins listed)
  exact apart p on j small

/-- A byte of an element that no other byte falls on stands. -/
theorem State.readByte_vst (wf : Memory.wf s.mem = true) {p : Nat × Nat} (on : p ∈ els) {j : Nat} (small : j < w.bits / 8)
    (alone : ∀ p' ∈ els, ∀ j', j' < w.bits / 8 → padByte s t (p'.2 + j') = padByte s t (p.2 + j) → p' = p ∧ j' = j) :
    (s.padStored t (lastWins (s.vstBytes w v els))).readByte (padByte s t (p.2 + j)) =
      (elt w.bits (s.vec v) p.1).extractLsb' (8 * j) 8 := by
  have charged := s.charged_chargeScratch (lastWins (s.vstBytes w v els)).length
  have same : ∀ q ∈ s.vstBytes w v els, padByte s t q.1 = padByte s t (p.2 + j) →
      q = (p.2 + j, (elt w.bits (s.vec v) p.1).extractLsb' (8 * j) 8) := fun q listed place => by
    obtain ⟨p', on', j', small', rfl⟩ := State.mem_vstBytes.1 listed
    obtain ⟨rfl, rfl⟩ := alone p' on' j' small' place
    rfl
  have written := mem_lastWins (State.mem_vstBytes.2 ⟨p, on, j, small, rfl⟩) fun q listed place =>
    same q listed (congrArg (padByte s t) place)
  refine State.readByte_putCells_of_agree (List.mem_map.2 ⟨_, written, rfl⟩) (fun y hy place => ?_) (charged.mem ▸ wf)
  obtain ⟨q, listed, rfl⟩ := List.mem_map.1 hy
  rw [same q (mem_of_mem_lastWins listed) place]

end vector

/-- R49, R208, R211, R212, R215 and R284 for stores to the scratchpad. -/
theorem scratchpadStores : Spec.ScratchpadStores := by
  intro s ty w d b v k q i x t els pad none_ wf n place held frame stores
  have scalarStore : ∀ (e : Instr) (y : Nat), exec e s = guardedNext s (s.store ty d k y) →
      s.chkStore k y ty.bytes rW ty.bytes 0 s.mayStore = .ok t → stores e := fun e y does ok => by
    refine ⟨fun free => ⟨s.padStored t (s.storedBytes ty d t), ?_, s.padStored_frame t _, fun a apart => ?_,
      fun j small last => ?_⟩, fun ⟨j, small, inWay⟩ => ?_⟩
    · rw [does, State.store_free pad ok none_ free]
    · exact State.padStored_run _ _ _ wf a apart
    · rw [← byte_of_toNat]
      exact State.padStored_run_last t.off ty.bytes _ wf small last
    · rw [does, State.store_held pad ok small inWay]
  refine ⟨scalarStore _ _ rfl, scalarStore _ _ rfl, fun ok here free => execCapst_free pad none_ ok here free,
    fun ok some_ free => ⟨_, execVst_free pad none_ ok some_ free, s.padStored_frame t _,
      fun a apart => State.readByte_vst_of_ne wf apart, fun p on j small alone => State.readByte_vst wf on small alone⟩⟩

/-- Settles O25: the faults, the loads and the stores apart. -/
theorem scratchpadAccesses : Obligations.ScratchpadAccesses := ⟨faultsMet, scratchpadLoads, scratchpadStores⟩

end Sys2Proof.Machine
end

section
/-!
SUPPORT. Operations at words of the scratchpad where nobody waits: what stops them, what they do and how they wait (R191, R219–R222,
R284, R348–R352).
-/
namespace Sys2Proof.Machine
open Sys2Proof.Spec

/-! Completing an instruction, for every core. -/

/-- The cores keep everything but their slots, counters, matrix operations, pending traps, and events and shared writes on their
way. -/
structure State.Settles (s u : State) : Prop where
  settled : ∀ c, (u.core c).settled = (s.core c).settled

namespace State.Settles

theorem refl (s : State) : s.Settles s := ⟨fun _ => rfl⟩
theorem trans {s u v : State} (a : s.Settles u) (b : u.Settles v) : s.Settles v :=
  ⟨fun c => (b.settled c).trans (a.settled c)⟩
theorem foldl {α : Type} {g : State → α → State} (each : ∀ (s : State) x, s.Settles (g s x)) (l : List α) (s : State) :
    s.Settles (l.foldl g s) := by
  induction l generalizing s with
  | nil => exact refl s
  | cons x r ih => exact (each s x).trans (ih _)
theorem ite {p : Prop} [Decidable p] {s u v : State} (a : s.Settles u) (b : s.Settles v) : s.Settles (if p then u else v) := by
  split
  · exact a
  · exact b

theorem onCore (s : State) (c : Nat) {f : Core → Core} (kept : ∀ k, (f k).settled = k.settled := by exact fun _ => rfl) :
    s.Settles (s.onCore c f) := ⟨s.core_onCore_keep c kept⟩
theorem setSlot (s : State) (c n : Nat) (x : Slot) : s.Settles (s.setSlot c n x) := onCore s c
theorem onSlot (s : State) (c n : Nat) (f : Slot → Slot) : s.Settles (s.onSlot c n f) := setSlot ..
theorem onTrap (s : State) (c : Nat) (f : TrapState → TrapState) : s.Settles (s.onTrap c f) := onCore s c
theorem now (s : State) (e : Instr) (l : List Nat) : s.Settles (s.now e l) := ⟨fun _ => rfl⟩
theorem freeHolder (s : State) (c h : Nat) : s.Settles (s.freeHolder c h) := onCore s c
theorem rejoin (s : State) (c n : Nat) : s.Settles (s.rejoin c n) := by
  unfold State.rejoin
  exact onSlot ..
theorem dropAwaited (s : State) (c n : Nat) : s.Settles (s.dropAwaited c n) := by
  unfold State.dropAwaited
  exact (foldl (fun u (o : MatOp) => freeHolder u c o.num) _ s).trans (onCore _ c)

theorem raiseAt (s : State) (c n cause addr value resume : Nat) (noResume : Bool) :
    s.Settles (s.raiseAt c n cause addr value resume noResume) := by
  have stopped : ∀ (u : State) (x : Slot) (r : Raise) (k : Nat) (mate : Option Nat), u.Settles (match mate with
      | some m => ((u.setSlot c n x).onSlot c m fun y => y.stopFor r).dropAwaited c k
      | none => u.setSlot c n x) := by
    intro u x r k mate
    cases mate with
    | none => exact setSlot ..
    | some m => exact ((setSlot ..).trans (onSlot ..)).trans (dropAwaited ..)
  unfold State.raiseAt
  dsimp only
  refine ite ((rejoin s c n).trans (onSlot ..)) ?_
  cases (s.slot c n).hold with
  | none => exact ite (ite (now ..) ((setSlot ..).trans (now ..))) ((stopped ..).trans (onTrap ..))
  | some h =>
    exact (freeHolder s c h).trans (ite (ite (now ..) ((setSlot ..).trans (now ..))) ((stopped ..).trans (onTrap ..)))

theorem stepped (s : State) (c n start next : Nat) : s.Settles (s.stepped c n start next) := ite (raiseAt ..) (refl s)

theorem putGprAt (s : State) (c n : Nat) (r : Gpr) (x : Word) (clock : Nat) : s.Settles (s.putGprAt c n r x clock) :=
  ite (refl s) (ite (onSlot ..) (onCore s c))
theorem putFieldVal (s : State) (c n : Nat) (x : Nat × Nat × Nat) : s.Settles (s.putFieldVal c n x) := by
  unfold State.putFieldVal
  split
  · exact putGprAt ..
  · exact onSlot ..
  · exact ite (refl s) (onSlot ..)
  · exact onSlot ..
theorem takeValue (s : State) (c n : Nat) (e : PairVal) (x : Chain) (done : Nat) : s.Settles (s.takeValue c n e x done) :=
  ((foldl (fun u y => putFieldVal u c n y) _ s).trans (onSlot ..)).trans (stepped ..)
theorem leadDone (s : State) (c n : Nat) : s.Settles (s.leadDone c n) := by
  cases doing : (s.slot c n).doing with
  | none => simpa only [State.leadDone, doing] using refl s
  | some i =>
    cases joined : (s.slot c (n + 8)).joined with
    | none =>
      obtain ⟨e, -, done⟩ := State.leadDone_queues doing joined
      exact done ▸ (setSlot ..).trans (onSlot ..)
    | some x =>
      obtain ⟨e, -, done⟩ := State.leadDone_hands doing joined
      exact done ▸ (setSlot ..).trans (takeValue ..)
theorem retire (s : State) : s.Settles s.retire := (onSlot ..).trans (ite (leadDone ..) (stepped ..))
theorem put (s : State) (d : Gpr) (x : Word) : s.Settles (Spec.put s d x) := (putGprAt ..).trans (retire _)

theorem waiters {s u : State} (h : s.Settles u) (c : Nat) : (u.core c).waiters = (s.core c).waiters :=
  (congrArg Core.waiters (h.settled c) :)

end State.Settles

/-! The word an operation acts on. -/

theorem State.wakeWord_scratch {s : State} {c : Nat} (none_ : (s.core c).waiters = []) (a : Nat) (released : Bool) :
    s.wakeWord (.scratch c a) released = s := by
  have waiters : s.waitersAt (.scratch c a) = [] := none_
  rw [State.wakeWord, waiters]
  rfl

theorem scratchLoc_sub (c a : Nat) : scratchLoc c a - scratchLoc c 0 = a := by
  rw [scratchLoc, scratchLoc]
  omega

section wordHere
variable {s : State} {a n : Nat} {write reads : Bool} {op : WordOp} (size : op.bytes = n) (alters : op.alters = write)
  (why : Why) (done : State → Word → State) (w : Wait) (o : Nat)
include size alters

theorem State.wordHere_held (held : Spec.Held s a n write) :
    s.wordHere (.scratch s.ic a) op why done w o = parksAgain s := by
  subst size alters
  unfold State.wordHere
  simp only [Place.loc, scratchLoc_sub]
  exact State.unlessHeld_of_held _ (List.mem_singleton_self _) held

omit size alters in
/-- The state in which an operation has reached its word. -/
abbrev State.atWord (s : State) (a n : Nat) : State := padRead s n [(scratchLoc s.ic a, n)]

omit size alters in
theorem State.atWord_eq (s : State) (a n : Nat) :
    (s.chargeScratch n).meetFaults s.ic (scratchLoc s.ic a) n = s.atWord a n := rfl

section free
variable (reading : op.reads = reads) (free : ¬ Spec.Held s a n write)
include reading free

theorem State.wordHere_poison (bad : (reads && (s.atWord a n).poisoned (scratchLoc s.ic a) n) = true) :
    s.wordHere (.scratch s.ic a) op why done w o = (s.atWord a n).trap causePoison o w.knum := by
  subst size alters reading
  unfold State.wordHere
  simp only [Place.loc, scratchLoc_sub, State.unlessHeld_one _ free, State.atWord_eq, bad, if_true, memValue, Nat.zero_mul, Nat.zero_add]

variable (good : (reads && (s.atWord a n).poisoned (scratchLoc s.ic a) n) = false)
include good

/-- What an operation does that need not wait. -/
theorem State.wordHere_done {u : State} {x : Word} {released : Bool}
    (step : ∀ acct, (s.atWord a n).wordStep (.scratch s.ic a) op acct = some (u, x, released))
    (none_ : ((done u x).core s.ic).waiters = []) :
    s.wordHere (.scratch s.ic a) op why done w o = done u x := by
  subst size alters reading
  unfold State.wordHere
  simp only [Place.loc, scratchLoc_sub, State.unlessHeld_one _ free, State.atWord_eq, good, Bool.false_eq_true, if_false, step,
    State.wakeWord_scratch none_]

omit size alters reading free good in
/-- The slot parks under a number of its own, and is the last waiter of its core. -/
def State.waitsFor (s : State) (loc : Nat) (op : WordOp) (why : Why) (w : Wait) : State :=
  (s.numberUsed.parkRef why s.myRef { w with left := 1 }).onCore s.ic fun k =>
    { k with waiters := k.waiters ++ [⟨loc, op, s.ic, s.myRef, s.acctOf s.ic s.is⟩] }

theorem State.wordHere_waits (step : ∀ acct, (s.atWord a n).wordStep (.scratch s.ic a) op acct = none) :
    s.wordHere (.scratch s.ic a) op why done w o = (s.atWord a n).waitsFor (scratchLoc s.ic a) op why w := by
  subst size alters reading
  unfold State.wordHere
  simp only [Place.loc, scratchLoc_sub, State.unlessHeld_one _ free, State.atWord_eq, good, Bool.false_eq_true, if_false, step]
  rfl

end free
end wordHere

end Sys2Proof.Machine
end

section
/-!
SUPPORT. Atomics of the scratchpad: their new and old values as bit vectors, and the wait of `CAS` (R191, R219, R220, R284).
-/
namespace Sys2Proof.Machine
open Sys2Proof.Spec

/-! Values (R219). -/

/-- The order in which an atomic's type compares. -/
def amoLe (ty : AmoTy) (x y : BitVec (8 * amoBytes ty)) : Bool := if ty = .n32 then x.ule y else x.sle y
/-- The new value of an atomic. -/
def amoResult (m : Amo) (ty : AmoTy) (old v : BitVec (8 * amoBytes ty)) : BitVec (8 * amoBytes ty) :=
  match m with
  | .add => old + v
  | .min => if amoLe ty old v then old else v
  | .max => if amoLe ty old v then v else old
  | .and => old &&& v
  | .or => old ||| v
  | .xor => old ^^^ v
  | .swap => v

theorem amoBits_pos (ty : AmoTy) : 0 < 8 * amoBytes ty := by cases ty <;> decide

theorem amoNew_toNat (m : Amo) (ty : AmoTy) (old v : BitVec (8 * amoBytes ty)) :
    amoNew m ty old.toNat v.toNat = (amoResult m ty old v).toNat := by
  have signed := sv_toNat (amoBits_pos ty)
  have picks : ∀ (b : Bool) (x y : BitVec (8 * amoBytes ty)), (if b then x.toNat else y.toNat) = (if b then x else y).toNat :=
    fun b x y => (apply_ite BitVec.toNat (b = true) x y).symm
  cases m with
  | add => exact (BitVec.toNat_add ..).symm
  | min =>
    cases ty with
    | n32 => exact picks (old.ule v) old v
    | i64 =>
      simp only [amoNew, signed]
      exact picks (old.sle v) old v
    | i32 =>
      simp only [amoNew, signed]
      exact picks (old.sle v) old v
  | max =>
    cases ty with
    | n32 => exact picks (old.ule v) v old
    | i64 =>
      simp only [amoNew, signed]
      exact picks (old.sle v) v old
    | i32 =>
      simp only [amoNew, signed]
      exact picks (old.sle v) v old
  | and => exact (BitVec.toNat_and ..).symm
  | or => exact (BitVec.toNat_or ..).symm
  | xor => exact (BitVec.toNat_xor ..).symm
  | swap => rfl

/-- The old value as it is returned: signed for `i32`, natural for `n32`. -/
theorem amoReturn_eq (ty : AmoTy) {x : Nat} (small : x < 2 ^ (8 * amoBytes ty)) :
    amoReturn ty x = if ty = .n32 then (BitVec.ofNat (8 * amoBytes ty) x).setWidth 64
      else (BitVec.ofNat (8 * amoBytes ty) x).signExtend 64 := by
  cases ty with
  | i64 => exact (BitVec.signExtend_eq _).symm
  | i32 => exact ofNat_sextTo (by decide) small
  | n32 =>
    rw [if_pos rfl, ← BitVec.ofNat_toNat, BitVec.toNat_ofNat, Nat.mod_eq_of_lt small]
    rfl

/-! An atomic at its word. -/

section here
variable {s : State} {t : Xl} (here : WordHere s t)
include here

theorem Spec.WordHere.placeOf : s.placeOf t = .scratch s.ic (s.home t t.off).2 := by
  obtain ⟨pad, core, -, -⟩ := here
  rw [State.placeOf, if_pos pad, core]

variable {ty : AmoTy} {d : Gpr} {k : Kr} {x : Nat}
  (ok : s.chk k x (amoBytes ty) (rR + rW + rA) (amoBytes ty) 0 false s.mayAmo = .ok t)
include ok

theorem State.atomic_eq (op : WordOp) (m : Nat × Nat) : s.atomic ty d k x op (some m) = After s t.obj
    (s.wordHere (.scratch s.ic (s.home t t.off).2) op .remote (fun s x => Spec.put s d x) { fin := .word d, knum := k.toNat } t.off) := by
  have place := Spec.WordHere.placeOf here
  obtain ⟨pad, -, -, side⟩ := here
  simp only [State.atomic, State.sideCovers_of_empty side, Bool.false_eq_true, if_false, ok, State.withChk, pad, if_true, place]

theorem State.atomic_none (op : WordOp) : s.atomic ty d k x op none = After s t.obj (s.scratchCas t op d k) := by
  obtain ⟨pad, -, -, side⟩ := here
  simp only [State.atomic, State.sideCovers_of_empty side, Bool.false_eq_true, if_false, ok, State.withChk, pad, if_true]

end here

theorem State.core_writeMem (s : State) (a x n c : Nat) : (s.writeMem a x n).core c = s.core c := by
  have cores : (s.writeMem a x n).cores = s.cores := by rw [State.writeMem, State.touch, State.clean]
  rw [State.core, cores, State.core]

theorem State.wordStep_amo (s : State) (c a : Nat) (m : Amo) (ty : AmoTy) (v : Word) (acct : Option Nat) :
    let n := amoBytes ty
    let old := s.readMem (scratchLoc c a) n
    s.wordStep (.scratch c a) (.amo m ty v) acct =
      some (s.writeMem (scratchLoc c a) (amoNew m ty old (v.toNat % 2 ^ (8 * n))) n, amoReturn ty old, false) := rfl

/-- The word of an atomic, as bits. -/
abbrev State.amoOld (s : State) (ty : AmoTy) (loc : Nat) : BitVec (8 * amoBytes ty) :=
  BitVec.ofNat (8 * amoBytes ty) (s.readMem loc (amoBytes ty))
theorem State.toNat_amoOld (s : State) (ty : AmoTy) (loc : Nat) : (s.amoOld ty loc).toNat = s.readMem loc (amoBytes ty) := by
  rw [BitVec.toNat_ofNat, Nat.mod_eq_of_lt (s.readMem_lt loc (amoBytes ty))]
/-- What an atomic returns. -/
abbrev State.amoBack (s : State) (ty : AmoTy) (loc : Nat) : Word :=
  if ty = .n32 then (s.amoOld ty loc).setWidth 64 else (s.amoOld ty loc).signExtend 64

/-- An atomic writes its new value and returns the old one. -/
theorem State.wordStep_amoResult {s u : State} (mem : u.mem = s.mem) (c a : Nat) (m : Amo) (ty : AmoTy) (v : Word)
    (acct : Option Nat) : u.wordStep (.scratch c a) (.amo m ty v) acct =
      some (u.writeMem (scratchLoc c a) (amoResult m ty (s.amoOld ty (scratchLoc c a)) (v.setWidth _)).toNat (amoBytes ty),
        s.amoBack ty (scratchLoc c a), false) := by
  have read : u.readMem (scratchLoc c a) (amoBytes ty) = s.readMem (scratchLoc c a) (amoBytes ty) := by
    rw [State.readMem, mem, State.readMem]
  rw [State.wordStep_amo, read, State.amoBack, ← amoReturn_eq ty (s.readMem_lt ..), ← amoNew_toNat, State.toNat_amoOld,
    BitVec.toNat_setWidth]

theorem State.wordHere_amo {s : State} {a : Nat} (m : Amo) (ty : AmoTy) (v : Word) (d : Gpr) (w : Wait) (o : Nat)
    (none_ : (s.core s.ic).waiters = []) (free : ¬ Spec.Held s a (amoBytes ty) true)
    (good : (s.atWord a (amoBytes ty)).poisoned (scratchLoc s.ic a) (amoBytes ty) = false) :
    s.wordHere (.scratch s.ic a) (.amo m ty v) .remote (fun s x => Spec.put s d x) w o =
      Spec.put ((s.atWord a (amoBytes ty)).writeMem (scratchLoc s.ic a)
        (amoResult m ty (s.amoOld ty (scratchLoc s.ic a)) (v.setWidth _)).toNat (amoBytes ty)) d
        (s.amoBack ty (scratchLoc s.ic a)) := by
  have charged : s.Charged s.ic (s.atWord a (amoBytes ty)) := .padRead ..
  refine State.wordHere_done (op := .amo m ty v) (n := amoBytes ty) (write := true) (reads := true) rfl rfl .remote
    (fun s x => Spec.put s d x) w o rfl free ((Bool.true_and _).trans good)
    (State.wordStep_amoResult charged.mem s.ic a m ty v) ?_
  rw [(State.Settles.put _ d _).waiters, State.core_writeMem, charged.waiters, none_]

/-! Translations that an access installs. -/

/-- Nothing differs but the translations that the cores hold. -/
structure State.TlbOnly (s u : State) : Prop where
  cores : s.CoresOnly u
  core : ∀ c, { u.core c with tlb := [] } = { s.core c with tlb := [] }

namespace State.TlbOnly

theorem after (s : State) (obj : Nat) (u : State) : u.TlbOnly (After s obj u) := by
  rcases State.installWalked_eq u s.ic (s.walkedFor obj) with same | ⟨l, one⟩
  · rw [After, same]
    exact ⟨.refl u, fun _ => rfl⟩
  · rw [After, one]
    exact ⟨.onCore .., u.core_onCore_keep s.ic (f := fun k => { k with tlb := l }) (g := fun k => { k with tlb := [] })
      fun _ => rfl⟩

variable {s u : State} (h : s.TlbOnly u)
include h

theorem issue : u.issue = s.issue := (congrArg State.issue h.cores :)
theorem full : u.full = s.full := (congrArg State.full h.cores :)
theorem pending : u.pending = s.pending := (congrArg State.pending h.cores :)
theorem packet? (id : Nat) : u.packet? id = s.packet? id := (congrArg (State.packet? · id) h.cores :)
theorem ic : u.ic = s.ic := congrArg Issue.core h.issue
theorem is : u.is = s.is := congrArg Issue.slot h.issue
theorem slot (c n : Nat) : u.slot c n = s.slot c n := (congrArg (Core.slot · n) (h.core c) :)
theorem me : u.me = s.me := by rw [State.me, h.ic, h.is, h.slot, State.me]
theorem waiters (c : Nat) : (u.core c).waiters = (s.core c).waiters := (congrArg Core.waiters (h.core c) :)
theorem gpr (r : Gpr) : u.gpr r = s.gpr r :=
  State.gpr_congr h.issue (congrArg Core.banks (h.core s.ic) :) (by rw [h.slot]; rfl) fun _ => by rw [h.slot]; rfl

end State.TlbOnly

/-! Parking (R37). -/

theorem State.me_parkRef (s : State) (why : Why) (ref : Nat) (w : Wait) : (s.parkRef why ref w).me =
    s.me.parks why { w with ticket := ref / 16, next := s.issue.next, start := s.issue.start } :=
  State.slot_onSlot ..

theorem State.waiters_parkRef (s : State) (why : Why) (ref : Nat) (w : Wait) (c : Nat) :
    ((s.parkRef why ref w).core c).waiters = (s.core c).waiters := (State.Settles.onSlot ..).waiters c

/-! `CAS` (R220). -/

section scratchCas
variable {s : State} {t : Xl} {ty : AmoTy} (cmp new : Word) (d : Gpr) (k : Kr)
  (place : s.placeOf t = .scratch s.ic (s.home t t.off).2)
include place

theorem State.scratchCas_held (held : Spec.Held s (s.home t t.off).2 (amoBytes ty) true) :
    s.scratchCas t (.cas ty cmp new) d k = parksAgain s := by
  unfold State.scratchCas
  simp only [place, Place.loc, scratchLoc_sub]
  exact State.unlessHeld_of_held _ (List.mem_singleton_self _) held

variable (free : ¬ Spec.Held s (s.home t t.off).2 (amoBytes ty) true)
include free

theorem State.scratchCas_poison (bad : (s.atWord (s.home t t.off).2 (amoBytes ty)).poisoned (padByte s t t.off) (amoBytes ty) = true) :
    s.scratchCas t (.cas ty cmp new) d k =
      (s.atWord (s.home t t.off).2 (amoBytes ty)).trap causePoison t.off k.toNat := by
  unfold State.scratchCas
  simp only [place, Place.loc, scratchLoc_sub, WordOp.bytes, State.unlessHeld_one _ free, State.atWord_eq, bad, if_true,
    memValue, Nat.zero_mul, Nat.zero_add]

omit place free
/-- The word, where it equals the expected one, has its new value. -/
def State.casWritten (s : State) (loc : Nat) (ty : AmoTy) (cmp new : Word) : State :=
  if s.readMem loc (amoBytes ty) = cmp.toNat % 2 ^ (8 * amoBytes ty) then
    s.writeMem loc (new.toNat % 2 ^ (8 * amoBytes ty)) (amoBytes ty) else s
/-- The reply that ends a `CAS` when its access has been served. -/
def State.casReply (s : State) (x : Word) : Packet :=
  { id := s.pktNum + 1, src := s.ic, dst := s.ic, cls := urgentClass, flits := 0, body := .reply s.ic s.myRef x 0 none }
/-- The reply is there, and its number and the wait's are given out. -/
def State.casReplies (s : State) (x : Word) : State :=
  { s with pktNum := s.pktNum + 2, packets := SMap.set s.packets (s.casReply x).id (s.casReply x) }
/-- The slot of a `CAS` waits for its reply. -/
def State.casParked (s : State) (d : Gpr) (k : Kr) (x : Word) : State :=
  ((s.casReplies x).parkRef .remote s.myRef { fin := .word d, left := 1, knum := k.toNat }).after 1 .remoteReply [(s.casReply x).id]

theorem State.wordStep_cas (s : State) (c a : Nat) (ty : AmoTy) (cmp new : Word) (acct : Option Nat) :
    s.wordStep (.scratch c a) (.cas ty cmp new) acct =
      some (s.casWritten (scratchLoc c a) ty cmp new, amoReturn ty (s.readMem (scratchLoc c a) (amoBytes ty)), false) := rfl

theorem State.waiters_casParked (s : State) (d : Gpr) (k : Kr) (x : Word) (c : Nat) :
    ((s.casParked d k x).core c).waiters = (s.core c).waiters :=
  State.waiters_parkRef (s.casReplies x) ..
theorem State.core_casWritten (s : State) (loc : Nat) (ty : AmoTy) (cmp new : Word) (c : Nat) :
    (s.casWritten loc ty cmp new).core c = s.core c := by
  unfold State.casWritten
  split
  · exact State.core_writeMem ..
  · rfl

include place free in
theorem State.scratchCas_done (none_ : (s.core s.ic).waiters = [])
    (good : (s.atWord (s.home t t.off).2 (amoBytes ty)).poisoned (padByte s t t.off) (amoBytes ty) = false) :
    s.scratchCas t (.cas ty cmp new) d k =
      ((s.atWord (s.home t t.off).2 (amoBytes ty)).casWritten (padByte s t t.off) ty cmp new).casParked d k
        (s.amoBack ty (padByte s t t.off)) := by
  have charged : s.Charged s.ic (s.atWord (s.home t t.off).2 (amoBytes ty)) := .padRead ..
  have waiters : (((((s.atWord (s.home t t.off).2 (amoBytes ty)).casWritten (padByte s t t.off) ty cmp new).casParked d k
      (s.amoBack ty (padByte s t t.off))).core s.ic)).waiters = [] := by
    rw [State.waiters_casParked, State.core_casWritten, charged.waiters, none_]
  unfold State.scratchCas
  simp only [place, Place.loc, scratchLoc_sub, WordOp.bytes, State.unlessHeld_one _ free, State.atWord_eq, good,
    Bool.false_eq_true, if_false, State.wordStep_cas, charged.readMem, amoReturn_eq ty (s.readMem_lt ..)]
  exact State.wakeWord_scratch waiters ..

end scratchCas

/-- What the slot, the memory and the packets are once a `CAS` has been issued. -/
theorem State.casParked_spec (s : State) (d : Gpr) (k : Kr) (x : Word) :
    let u := s.casParked d k x
    u.mem = s.mem ∧ ⟨s.cycle + 1, .remoteReply, [(s.casReply x).id]⟩ ∈ u.pending ∧
      u.packet? (s.casReply x).id = some (s.casReply x) ∧ ∃ w, w.fin = .word d ∧ w.ticket = s.myRef / 16 ∧
      u.me = s.me.parks .remote w :=
  ⟨rfl, State.mem_pending_after .., State.packet?_set s (s.casReply x), _, rfl, rfl, State.me_parkRef (s.casReplies x) ..⟩

theorem State.casWritten_keeps (s : State) (loc : Nat) (ty : AmoTy) (cmp new : Word) : (s.casWritten loc ty cmp new).issue = s.issue ∧
    (s.casWritten loc ty cmp new).cycle = s.cycle ∧ (s.casWritten loc ty cmp new).me = s.me := by
  have issue : (s.casWritten loc ty cmp new).issue = s.issue := by
    unfold State.casWritten
    split
    · exact State.writeMem_issue ..
    · rfl
  refine ⟨issue, ?_, by rw [State.me, State.slot, State.core_casWritten, State.ic, State.is, issue]; rfl⟩
  unfold State.casWritten
  split
  · exact State.writeMem_cycle ..
  · rfl

theorem State.casWritten_cases (s : State) (loc : Nat) (ty : AmoTy) (cmp new : Word) :
    s.casWritten loc ty cmp new = s ∨ ∃ x, s.casWritten loc ty cmp new = s.writeMem loc x (amoBytes ty) := by
  unfold State.casWritten
  split
  · exact .inr ⟨_, rfl⟩
  · exact .inl rfl

/-- The word after a `CAS`. -/
theorem State.readMem_casWritten {s : State} (wf : Memory.wf s.mem = true) (loc : Nat) (ty : AmoTy) (cmp new : Word) :
    (s.casWritten loc ty cmp new).readMem loc (amoBytes ty) =
      if s.amoOld ty loc = cmp.setWidth (8 * amoBytes ty) then (new.setWidth (8 * amoBytes ty)).toNat
      else (s.amoOld ty loc).toNat := by
  have equal : s.readMem loc (amoBytes ty) = cmp.toNat % 2 ^ (8 * amoBytes ty) ↔
      s.amoOld ty loc = cmp.setWidth (8 * amoBytes ty) := by
    rw [← BitVec.toNat_inj, State.toNat_amoOld, BitVec.toNat_setWidth]
  rw [State.casWritten, State.toNat_amoOld]
  by_cases same : s.amoOld ty loc = cmp.setWidth (8 * amoBytes ty)
  · rw [if_pos (equal.2 same), if_pos same, BitVec.toNat_setWidth]
    refine (Memory.readNat_writeNat wf ..).trans ?_
    rw [Nat.pow_mul, Nat.mod_mod]
  · rw [if_neg (mt equal.1 same), if_neg same]

theorem State.readByte_casWritten {s : State} (wf : Memory.wf s.mem = true) (ty : AmoTy) (cmp new : Word) {loc b : Nat}
    (outside : b < loc ∨ loc + amoBytes ty ≤ b) : (s.casWritten loc ty cmp new).readByte b = s.readByte b := by
  rcases s.casWritten_cases loc ty cmp new with same | ⟨x, writes⟩
  · rw [same]
  · rw [writes]
    exact Memory.read_writeNat_of_ne wf x outside

/-- Settles O30: the seven atomics differ in their new value alone, and `CAS` parks for its reply. -/
theorem scratchpadAtomics : Obligations.ScratchpadAtomics := by
  intro s ty d k x q t ok here n loc c old v le back stops does
  have place := Spec.WordHere.placeOf here
  have charged : s.Charged s.ic c := .padRead ..
  have none_ : (s.core s.ic).waiters = [] := here.2.2.1
  have amo : ∀ (e : Instr) (m : Amo) (p : Nat × Nat), exec e s = guardedNext s (s.atomic ty d k (s.index x)
      (.amo m ty (s.gpr (BitVec.ofNat 6 q.toNat))) (some p)) → does e (amoResult m ty old v) := fun e m p runs => by
    rw [State.atomic_eq here ok] at runs
    refine ⟨⟨fun held => ?_, fun free bad => ?_⟩, fun free good => ?_⟩
    · rw [runs, State.wordHere_held (n := n) (write := true) rfl rfl _ _ _ _ held]
    · rw [runs, State.wordHere_poison (n := n) (write := true) (reads := true) rfl rfl _ _ _ _ rfl free ((Bool.true_and _).trans bad)]
    · rw [runs, State.wordHere_amo m ty _ d _ _ none_ free good, BitVec.ofNat_toNat]
  have cas : exec (.cas ty d k x) s = guardedNext s (After s t.obj
      (s.scratchCas t (.cas ty (s.gpr d) (s.gpr (nextGpr d))) d k)) :=
    congrArg (guardedNext s) (State.atomic_none here ok _)
  refine ⟨amo _ .add _ rfl, amo _ .min _ rfl, amo _ .max _ rfl, amo _ .and _ rfl, amo _ .or _ rfl, amo _ .xor _ rfl,
    amo _ .swap _ rfl, ⟨fun held => ?held, fun free bad => ?poison⟩, fun free good guard wf => ?parks⟩
  case held => rw [cas, State.scratchCas_held _ _ d k place held]
  case poison => rw [cas, State.scratchCas_poison _ _ d k place free bad]
  case parks =>
    rw [State.scratchCas_done _ _ d k place free none_ good] at cas
    have wf' : Memory.wf c.mem = true := charged.mem ▸ wf
    have same : c.amoOld ty loc = old := congrArg (BitVec.ofNat _) (charged.readMem ..)
    obtain ⟨issue, cycle, me⟩ := c.casWritten_keeps loc ty (s.gpr d) (s.gpr (nextGpr d))
    obtain ⟨mem, event, packet, w, fin, ticket, parked⟩ :=
      State.casParked_spec (c.casWritten loc ty (s.gpr d) (s.gpr (nextGpr d))) d k back
    have readMem := State.readMem_casWritten wf' loc ty (s.gpr d) (s.gpr (nextGpr d))
    have readByte := fun b => State.readByte_casWritten wf' ty (s.gpr d) (s.gpr (nextGpr d)) (loc := loc) (b := b)
    generalize c.casWritten loc ty (s.gpr d) (s.gpr (nextGpr d)) = r at cas issue cycle me mem event packet ticket parked readMem readByte
    have tlb := State.TlbOnly.after s t.obj (r.casParked d k back)
    have slot : (After s t.obj (r.casParked d k back)).me = s.me.parks .remote w := by
      rw [tlb.me, parked, me, charged.me]
    have memory : (After s t.obj (r.casParked d k back)).mem = r.mem := tlb.cores.mem.trans mem
    have ic : r.ic = s.ic := congrArg Issue.core (issue.trans charged.issue)
    have is : r.is = s.is := congrArg Issue.slot (issue.trans charged.issue)
    refine ⟨_, cas.trans (congrArg Host.Outcome.next (if_pos guard)), by rw [slot]; rfl, by rw [slot]; rfl, by rw [slot]; rfl,
      ?_, fun b outside => ?_, r.casReply back, w, r.myRef, ?_, (tlb.packet? _).trans packet, by rw [slot]; rfl, fin, ?_, ?_, ticket⟩
    · rw [State.readMem, memory, ← State.readMem, readMem, same]
      rfl
    · rw [State.readByte, memory, ← State.readByte, readByte b outside, charged.readByte]
    · rw [tlb.pending, ← charged.cycle, ← cycle]
      exact event
    · rw [State.casReply, ic]
    · rw [State.myRef, strandRef_slot, is]

end Sys2Proof.Machine
end

section
/-!
SUPPORT. Full/empty words and sync words of the scratchpad (R221, R222, R348, R349, R351, R352).
-/
namespace Sys2Proof.Machine
open Sys2Proof.Spec

/-! Waiting at a word. -/

theorem State.Charged.gpr {a : Nat} {s u : State} (h : s.Charged a u) (r : Gpr) : u.gpr r = s.gpr r :=
  State.gpr_congr h.issue (h.field Core.banks s.ic) (by rw [h.slot]; rfl) fun _ => by rw [h.slot]; rfl

section waitsFor
variable (s : State) (loc : Nat) (op : WordOp) (why : Why) (w : Wait)

/-- The slot while it waits. -/
def State.waitingFor : Slot :=
  s.me.parks why { w with left := 1, ticket := s.myRef / 16, next := s.issue.next, start := s.issue.start }

theorem State.slot_waitsFor : (s.waitsFor loc op why w).slot s.ic s.is = s.waitingFor why w :=
  (State.slot_onCore _ s.ic _ rfl _ _).trans (State.me_parkRef s.numberUsed ..)

theorem State.waiters_waitsFor : ((s.waitsFor loc op why w).core s.ic).waiters =
    (s.core s.ic).waiters ++ [⟨loc, op, s.ic, s.myRef, s.acctOf s.ic s.is⟩] := by
  rw [State.waitsFor, State.core_onCore]
  exact congrArg (· ++ _) (State.waiters_parkRef s.numberUsed ..)

theorem State.banks_waitsFor : ((s.waitsFor loc op why w).core s.ic).banks = (s.core s.ic).banks := by
  rw [State.waitsFor, State.core_onCore]
  exact (congrArg Core.banks ((State.Settles.onSlot s.numberUsed ..).settled s.ic) :)

theorem State.gpr_waitsFor (r : Gpr) : (s.waitsFor loc op why w).gpr r = s.gpr r :=
  State.gpr_congr (s := s) (u := s.waitsFor loc op why w) rfl (s.banks_waitsFor ..) (by rw [s.slot_waitsFor]; rfl) fun _ => by rw [s.slot_waitsFor]; rfl

end waitsFor

/-- What a strand has done that waits at a word of the scratchpad. -/
structure State.WaitsAt (s : State) (loc : Nat) (why : Why) (u : State) : Prop where
  run : u.me.run = .parked
  reason : u.me.why = why
  pc : u.me.pc = s.me.pc
  mem : u.mem = s.mem
  full : u.full = s.full
  gpr : ∀ r, u.gpr r = s.gpr r
  waiters : ∃ w, (u.core s.ic).waiters = (s.core s.ic).waiters ++ [w] ∧ w.key = loc ∧ w.slot % 16 = s.is % 16

theorem State.WaitsAt.ofCharged {s c : State} (h : s.Charged s.ic c) (obj loc : Nat) (op : WordOp) (why : Why) (w : Wait) :
    s.WaitsAt loc why (After s obj (c.waitsFor loc op why w)) := by
  have tlb := State.TlbOnly.after s obj (c.waitsFor loc op why w)
  have me : (After s obj (c.waitsFor loc op why w)).me = c.waitingFor why w := tlb.me.trans (c.slot_waitsFor ..)
  refine ⟨by rw [me]; rfl, by rw [me]; rfl, by rw [me, State.waitingFor, h.me]; rfl, tlb.cores.mem.trans h.mem, tlb.full.trans h.full,
    fun r => (tlb.gpr r).trans ((c.gpr_waitsFor ..).trans (h.gpr r)),
    ⟨loc, op, c.ic, c.myRef, c.acctOf c.ic c.is⟩, ?_, rfl, ?_⟩
  · rw [tlb.waiters, ← h.ic, c.waiters_waitsFor, h.waiters]
  · rw [State.myRef, strandRef_slot, h.is]

/-! What an operation at a word does. -/

section atWord
variable {s p : State} {k : Kr} {t : Xl} {e : Instr} {write reads ready : Bool} {done : State} {waits : Prop} {op : WordOp}
  {why : Why} {fin : State → Word → State} {w : Wait}
  (runs : exec e s = guardedNext s (After s t.obj (p.wordHere (.scratch s.ic (s.home t t.off).2) op why fin w t.off)))
  (knum : w.knum = k.toNat) (ic : p.ic = s.ic) (held : Spec.Held p (s.home t t.off).2 8 write ↔ Spec.Held s (s.home t t.off).2 8 write)
  (size : op.bytes = 8) (alters : op.alters = write) (reading : op.reads = reads)
include runs knum ic held size alters reading

theorem State.atWord_of_step
    (does : ready = true → ∃ u x released, done = fin u x ∧ (done.core s.ic).waiters = [] ∧
      ∀ acct, (p.atWord (s.home t t.off).2 8).wordStep (.scratch s.ic (s.home t t.off).2) op acct = some (u, x, released))
    (halts : ready = false → (∀ acct, (p.atWord (s.home t t.off).2 8).wordStep (.scratch s.ic (s.home t t.off).2) op acct = none) ∧
      (exec e s = guardedNext s (After s t.obj ((p.atWord (s.home t t.off).2 8).waitsFor (padByte s t t.off) op why w)) →
        s.guardOk = true → waits)) :
    Spec.AtWord s p (p.atWord (s.home t t.off).2 8) k t e write reads ready done waits := by
  rw [← ic] at runs does halts
  have loc : padByte s t t.off = scratchLoc p.ic (s.home t t.off).2 := by rw [ic]
  unfold Spec.AtWord
  rw [← knum]
  simp only [loc] at halts ⊢
  refine ⟨fun inWay => ?_, fun free bad => ?_, fun free good => ⟨fun isReady => ?_, fun notReady guard => ?_⟩⟩
  · rw [runs, State.wordHere_held size alters _ _ _ _ (held.2 inWay)]
  · rw [runs, State.wordHere_poison size alters _ _ _ _ reading (mt held.1 free) bad]
  · obtain ⟨u, x, released, rfl, none_, step⟩ := does isReady
    rw [runs, State.wordHere_done size alters _ _ _ _ reading (mt held.1 free) good step none_]
  · obtain ⟨step, waiting⟩ := halts notReady
    rw [State.wordHere_waits size alters _ _ _ _ reading (mt held.1 free) good step] at runs
    exact waiting runs guard

end atWord

end Sys2Proof.Machine
end

section
/-!
SUPPORT. Full/empty words of the scratchpad (R221).
-/
namespace Sys2Proof.Machine
open Sys2Proof.Spec

/-- What a full/empty operation leaves of its word. -/
def State.feDone (s : State) (m : Fe) (loc : Nat) (v : Word) : State :=
  match m with
  | .ldc => s.setFull loc false
  | .ldf => s
  | .stp => (s.writeMem loc v.toNat 8).setFull loc true
  | .sete => s.setFull loc false
  | .setf => (s.writeMem loc v.toNat 8).setFull loc true
  | .feq => s

theorem State.wordStep_fe (s : State) (c a : Nat) (m : Fe) (v : Word) (acct : Option Nat) :
    s.wordStep (.scratch c a) (.fe m v) acct =
      if feReady m (s.full.contains (scratchLoc c a)) (s.readMem (scratchLoc c a) 8) v.toNat then
        some (s.feDone m (scratchLoc c a) v, BitVec.ofNat 64 (s.readMem (scratchLoc c a) 8), false) else none := by
  cases m <;> rfl

theorem State.core_feDone (s : State) (m : Fe) (loc : Nat) (v : Word) (c : Nat) : (s.feDone m loc v).core c = s.core c := by
  cases m with
  | stp => exact s.core_writeMem loc v.toNat 8 c
  | setf => exact s.core_writeMem loc v.toNat 8 c
  | ldc => rfl
  | ldf => rfl
  | sete => rfl
  | feq => rfl

/-- What an instruction does when its operation at the word is done. -/
abbrev State.wordDone (dst : Bool) (d : Gpr) (s : State) (x : Word) : State := (if dst then s.putGpr d x else s).retire

theorem State.Settles.wordDone (dst : Bool) (d : Gpr) (s : State) (x : Word) : s.Settles (s.wordDone dst d x) := by
  cases dst with
  | true => exact .put ..
  | false => exact .retire ..

section fullEmpty
variable {s : State} {d : Gpr} {k : Kr} {x : Idx} {t : Xl} (here : WordHere s t) {need : Nat} (m : Fe)
  (ok : s.chk k (s.index x) 8 need 8 0 false s.mayWord = .ok t) (dst : Bool) (posted : Option Nat)
include here ok

theorem State.fullEmpty_eq : s.fullEmpty m d k (s.index x) need dst posted = After s t.obj
    (s.wordHere (.scratch s.ic (s.home t t.off).2) (.fe m (if m = .sete then 0 else s.gpr d)) .word (fun u y => u.wordDone dst d y)
      { fin := if dst then .word d else .none, knum := k.toNat } t.off) := by
  have place := Spec.WordHere.placeOf here
  obtain ⟨pad, -, -, -⟩ := here
  simp only [State.fullEmpty, ok, State.withChk, pad, if_true, place]

theorem State.atWord_fe {e : Instr} {v : Word} (value : (if m = .sete then 0 else s.gpr d) = v)
    (runs : exec e s = guardedNext s (s.fullEmpty m d k (s.index x) need dst posted)) :
    let loc := padByte s t t.off
    let c := s.atWord (s.home t t.off).2 8
    Spec.AtWord s s c k t e (WordOp.fe m v).alters (WordOp.fe m v).reads (feReady m (s.full.contains loc) (s.readMem loc 8) v.toNat)
      ((c.feDone m loc v).wordDone dst d (BitVec.ofNat 64 (s.readMem loc 8)))
      (∃ u : State, exec e s = .next u ∧ u.me.run = .parked ∧ u.me.why = .word ∧ u.me.pc = s.me.pc ∧ u.mem = s.mem ∧
        u.full = s.full ∧ (∀ r, u.gpr r = s.gpr r) ∧ ∃ w, (u.core s.ic).waiters = [w] ∧ w.key = loc ∧ w.slot % 16 = s.is % 16) := by
  intro loc c
  have charged : s.Charged s.ic c := .padRead ..
  have none_ : (s.core s.ic).waiters = [] := here.2.2.1
  have step := fun acct => c.wordStep_fe s.ic (s.home t t.off).2 m v acct
  simp only [charged.readMem, charged.full] at step
  rw [State.fullEmpty_eq here m ok, value] at runs
  refine State.atWord_of_step (op := .fe m v) runs rfl rfl .rfl rfl rfl rfl (fun ready => ?_) (fun busy => ⟨fun acct => ?_, fun parks guard => ?_⟩)
  · refine ⟨c.feDone m loc v, _, false, rfl, ?_, fun acct => (step acct).trans (if_pos ready)⟩
    rw [(State.Settles.wordDone ..).waiters, State.core_feDone, charged.waiters, none_]
  · exact (step acct).trans (if_neg (Bool.not_eq_true _ ▸ busy))
  · obtain ⟨run, why, pc, mem, full, gpr, waiters⟩ := State.WaitsAt.ofCharged charged t.obj loc (.fe m v) .word
      { fin := if dst then .word d else .none, knum := k.toNat }
    rw [none_] at waiters
    exact ⟨_, parks.trans (congrArg Host.Outcome.next (if_pos guard)), run, why, pc, mem, full, gpr, waiters⟩

end fullEmpty

/-- Comparing a word as a number or as bits. -/
theorem beq_toNat_ofNat {n : Nat} (small : n < 2 ^ 64) (v : Word) : (n == v.toNat) = (BitVec.ofNat 64 n == v) := by
  rw [Bool.eq_iff_iff, beq_iff_eq, beq_iff_eq, ← BitVec.toNat_inj, BitVec.toNat_ofNat, Nat.mod_eq_of_lt small]

/-- R221. -/
theorem scratchpadFullEmpty : ScratchpadFullEmpty := by
  intro s d k x t here loc c isFull word waits on filled
  refine ⟨fun ok => State.atWord_fe here .ldc ok true none rfl rfl, fun ok => State.atWord_fe here .ldf ok true none rfl rfl, fun ok => ?_,
    fun ok => State.atWord_fe here .stp ok false none rfl rfl, fun ok => State.atWord_fe here .setf ok false (some 4) rfl rfl,
    fun ok => State.atWord_fe here .sete ok false (some 3) (d := 0) rfl rfl⟩
  have same := beq_toNat_ofNat (s.readMem_lt loc 8) (s.gpr d)
  exact same ▸ State.atWord_fe here .feq ok false none rfl rfl

end Sys2Proof.Machine
end

section
/-!
SUPPORT. Sync words of the scratchpad (R348, R349, R351, R352).
-/
namespace Sys2Proof.Machine
open Sys2Proof.Spec

/-! The fields of a sync word (R348). -/

/-- A word in which the count has reached its target starts a new generation (R349). -/
def swSettled (gen target count : Nat) : Nat :=
  if target = 0 ∨ count < target then gen * 2 ^ 56 + target * 2 ^ 28 + count
  else (gen + count / target) % 256 * 2 ^ 56 + target * 2 ^ 28 + count % target

section fields
variable {gen target count : Nat} (g : gen < 256) (t : target < 2 ^ 28) (c : count < 2 ^ 28)
include g t c

theorem swMake_of_lt : swMake gen target count = gen * 2 ^ 56 + target * 2 ^ 28 + count := by
  rw [swMake, Nat.mod_eq_of_lt g, Nat.mod_eq_of_lt t, Nat.mod_eq_of_lt c]
theorem swGen_swMake : swGen (swMake gen target count) = gen := by
  rw [swMake_of_lt g t c, swGen, bitsOf]
  omega
theorem swTarget_swMake : swTarget (swMake gen target count) = target := by
  rw [swMake_of_lt g t c, swTarget, bitsOf]
  omega
theorem swCount_swMake : swCount (swMake gen target count) = count := by
  rw [swMake_of_lt g t c, swCount]
  omega

theorem swSettle_swMake : (swSettle (swMake gen target count)).1 = swSettled gen target count := by
  unfold swSettle swSettled
  simp only [swTarget_swMake g t c, swCount_swMake g t c, swGen_swMake g t c]
  split
  · exact swMake_of_lt g t c
  · have rest : count % target < 2 ^ 28 := (Nat.mod_le ..).trans_lt c
    rw [swMake, Nat.mod_eq_of_lt t, Nat.mod_eq_of_lt rest]

end fields

theorem swGen_of_lt {w : Nat} (small : w < 2 ^ 64) : swGen w = w / 2 ^ 56 := by
  rw [swGen, bitsOf]
  omega
theorem swGen_lt (w : Nat) : swGen w < 256 := Nat.mod_lt _ (by decide)
theorem swTarget_lt (w : Nat) : swTarget w < 2 ^ 28 := Nat.mod_lt _ (by decide)
theorem swCount_lt (w : Nat) : swCount w < 2 ^ 28 := Nat.mod_lt _ (by decide)

/-! An operation at a sync word. -/

/-- The strand's writes are published at a scope that reaches beyond the core. -/
def State.releasedAt (s : State) (scope : Nat) : State := if scope < 2 then s else s.onLog s.ic fun l => l.publish scope

theorem State.releasedAt_cases (s : State) (scope : Nat) :
    s.releasedAt scope = s ∨ s.releasedAt scope = s.onLog s.ic fun l => l.publish scope := by
  unfold State.releasedAt
  split
  · exact .inl rfl
  · exact .inr rfl

/-- What publishing leaves alone. -/
theorem State.releasedAt_keeps (s : State) (scope : Nat) : (s.releasedAt scope).issue = s.issue ∧
    (s.releasedAt scope).mem = s.mem ∧ (∀ t, (s.releasedAt scope).placeOf t = s.placeOf t) ∧
    { (s.releasedAt scope).core s.ic with log := {} } = { s.core s.ic with log := {} } := by
  rcases s.releasedAt_cases scope with same | publishes
  · rw [same]
    exact ⟨rfl, rfl, fun _ => rfl, rfl⟩
  · rw [publishes]
    refine ⟨rfl, rfl, fun _ => rfl, ?_⟩
    rw [State.onLog, State.core_onCore]

section syncWord
variable {s : State} {d : Gpr} {k : Kr} {x : Idx} {t : Xl} (here : WordHere s t) {need : Nat} (m : Sw) (scope : Nat)
  (ok : s.chk k (s.index x) 8 need 8 0 false s.mayWord = .ok t) (dst : Bool) (why : Why)
include here ok

theorem State.syncWord_eq : s.syncWord m scope d k (s.index x) need dst why = After s t.obj
    ((s.releasedAt scope).wordHere (.scratch s.ic (s.home t t.off).2) (.sw m (s.gpr d)) why (fun u y => u.wordDone dst d y)
      { fin := if dst then .word d else .none, knum := k.toNat } t.off) := by
  have place := Spec.WordHere.placeOf here
  obtain ⟨-, -, keeps, -⟩ := s.releasedAt_keeps scope
  obtain ⟨pad, -, -, side⟩ := here
  unfold State.syncWord
  simp only [State.sideClear_of_empty side, ite_self, ok, State.withChk, pad, if_true]
  rw [← place, ← keeps]
  rfl

theorem State.atWord_sw {e : Instr} {ready write : Bool} {done : State} {waits : Prop}
    (runs : exec e s = guardedNext s (s.syncWord m scope d k (s.index x) need dst why)) (alters : (WordOp.sw m (s.gpr d)).alters = write)
    (does : ready = true → ∃ u y released, done = u.wordDone dst d y ∧ (u.core s.ic).waiters = [] ∧ ∀ acct,
      (padRead (s.releasedAt scope) 8 [(padByte s t t.off, 8)]).wordStep (.scratch s.ic (s.home t t.off).2) (.sw m (s.gpr d)) acct =
        some (u, y, released))
    (halts : ready = false → s.releasedAt scope = s ∧ (∀ acct, (s.atWord (s.home t t.off).2 8).wordStep
        (.scratch s.ic (s.home t t.off).2) (.sw m (s.gpr d)) acct = none) ∧
      ((∃ u : State, exec e s = .next u ∧ s.WaitsAt (padByte s t t.off) why u) → waits)) :
    Spec.AtWord s (s.releasedAt scope) (padRead (s.releasedAt scope) 8 [(padByte s t t.off, 8)]) k t e write true ready done waits := by
  obtain ⟨issue, -, -, core⟩ := s.releasedAt_keeps scope
  have ic : (s.releasedAt scope).ic = s.ic := congrArg Issue.core issue
  have board : ((s.releasedAt scope).core s.ic).board = (s.core s.ic).board := (congrArg Core.board core :)
  have order : ((s.releasedAt scope).core s.ic).order = (s.core s.ic).order := (congrArg Core.order core :)
  have here' : padRead (s.releasedAt scope) 8 [(padByte s t t.off, 8)] = (s.releasedAt scope).atWord (s.home t t.off).2 8 := by
    rw [State.atWord, ic]
  rw [State.syncWord_eq here m scope ok] at runs
  rw [here'] at does ⊢
  refine State.atWord_of_step (op := .sw m (s.gpr d)) runs rfl ic (by rw [Spec.Held, ic, board, order]) rfl alters rfl
    (fun isReady => ?_) (fun notReady => ?_)
  · obtain ⟨u, y, released, rfl, none_, step⟩ := does isReady
    exact ⟨u, y, released, rfl, ((State.Settles.wordDone ..).waiters _).trans none_, step⟩
  · obtain ⟨same, step, waiting⟩ := halts notReady
    rw [same]
    exact ⟨step, fun parks guard => waiting ⟨_, parks.trans (congrArg Host.Outcome.next (if_pos guard)), .ofCharged (.padRead ..) ..⟩⟩

end syncWord

/-- Arming a word: the word, and whether it releases (R352). -/
def swArm (w : Nat) (v : Word) : Nat × Bool :=
  swSettle (swMake (swGen w) (v.toNat % 2 ^ 28) (if v.getLsbD 63 then 0 else swCount w))

section
variable {w : Nat} (small : w < 2 ^ 64) (v : Word)
include small

theorem swArm_fst :
    (swArm w v).1 = swSettled (w / 2 ^ 56) (v.toNat % 2 ^ 28) (if v.getLsbD 63 then 0 else w % 2 ^ 28) := by
  have kept : (if v.getLsbD 63 then 0 else swCount w) < 2 ^ 28 := by
    split
    · decide
    · exact swCount_lt w
  rw [swArm, swSettle_swMake (swGen_lt w) (Nat.mod_lt v.toNat (by decide)) kept, swGen_of_lt small, swCount]

theorem swArrive_fst : (swArrive w (v.toNat % 2 ^ 28)).1 =
    swSettled (w / 2 ^ 56) (w / 2 ^ 28 % 2 ^ 28) (min (w % 2 ^ 28 + v.toNat % 2 ^ 28) (2 ^ 28 - 1)) := by
  have most : min (swCount w + v.toNat % 2 ^ 28) (2 ^ 28 - 1) < 2 ^ 28 := by omega
  have settles := swSettle_swMake (swGen_lt w) (swTarget_lt w) most
  rw [swGen_of_lt small] at settles
  simp only [swArrive, Nat.mod_mod, swGen_of_lt small, settles]
  rw [swTarget, bitsOf, swCount]

end

theorem swArrive_saturates (w : Nat) (v : Word) :
    (swArrive w (v.toNat % 2 ^ 28)).2.2 = true ↔ 2 ^ 28 - 1 < w % 2 ^ 28 + v.toNat % 2 ^ 28 := by
  rw [swArrive, Nat.mod_mod]
  exact decide_eq_true_iff

section step
variable {s : State} {c a w : Nat} (read : s.readMem (scratchLoc c a) 8 = w) (v : Word)
include read

theorem State.wordStep_swarm (acct : Option Nat) : s.wordStep (.scratch c a) (.sw .swarm v) acct =
    some (s.writeMem (scratchLoc c a) (swSettled (w / 2 ^ 56) (v.toNat % 2 ^ 28) (if v.getLsbD 63 then 0 else w % 2 ^ 28)) 8,
      BitVec.ofNat 64 (swArm w v).1, (swArm w v).2) := by
  have small : w < 2 ^ 64 := read ▸ s.readMem_lt (scratchLoc c a) 8
  rw [← swArm_fst small v, ← read]
  rfl

theorem State.wordStep_swadd (acct : Option Nat) : s.wordStep (.scratch c a) (.sw .swadd v) acct =
    some ((if 2 ^ 28 - 1 < w % 2 ^ 28 + v.toNat % 2 ^ 28 then s.count c 12 1 else s).writeMem (scratchLoc c a)
        (swSettled (w / 2 ^ 56) (w / 2 ^ 28 % 2 ^ 28) (min (w % 2 ^ 28 + v.toNat % 2 ^ 28) (2 ^ 28 - 1))) 8,
      BitVec.ofNat 64 (swArrive w (v.toNat % 2 ^ 28)).1, (swArrive w (v.toNat % 2 ^ 28)).2.1) := by
  have small : w < 2 ^ 64 := read ▸ s.readMem_lt (scratchLoc c a) 8
  rw [← swArrive_fst small v, ← if_congr (swArrive_saturates w v) rfl rfl, ← read]
  rfl

end step

theorem State.wordStep_swrd (s : State) (c a : Nat) (v : Word) (acct : Option Nat) :
    s.wordStep (.scratch c a) (.sw .swrd v) acct = some (s, BitVec.ofNat 64 (s.readMem (scratchLoc c a) 8), false) := rfl
theorem State.wordStep_swwait (s : State) (c a : Nat) (v : Word) (acct : Option Nat) :
    s.wordStep (.scratch c a) (.sw .swwait v) acct =
      if swGen (s.readMem (scratchLoc c a) 8) = v.toNat % 256 then none
      else some (s, BitVec.ofNat 64 (s.readMem (scratchLoc c a) 8), false) := rfl

/-- R348, R349, R351 and R352. -/
theorem scratchpadSyncWords : ScratchpadSyncWords := by
  intro s sc d k x t here loc word gen target count settled v pre c r sum sat on
  have genOf : swGen word = gen := swGen_of_lt (s.readMem_lt loc 8)
  obtain ⟨issue, mem, -, core⟩ := s.releasedAt_keeps sc.code
  have charged : pre.Charged pre.ic c := .padRead ..
  have ic : pre.ic = s.ic := congrArg Issue.core issue
  have none_ : (c.core s.ic).waiters = [] := (charged.waiters s.ic).trans ((congrArg Core.waiters core :).trans here.2.2.1)
  have read : c.readMem loc 8 = word := (charged.readMem ..).trans (congrArg (Memory.readNat · loc 8) mem)
  have charged' : s.Charged s.ic r := .padRead ..
  have none' : (r.core s.ic).waiters = [] := (charged'.waiters s.ic).trans here.2.2.1
  have read' : r.readMem loc 8 = word := charged'.readMem ..
  refine ⟨fun ok => ?arm, fun ok => ?add, fun ok => ?read, fun ok => ?wait⟩
  case arm =>
    refine State.atWord_sw here .swarm sc.code ok false .remote rfl rfl (fun _ => ?_) (fun never => Bool.noConfusion never)
    exact ⟨c.writeMem loc (settled (v.toNat % 2 ^ 28) (if v.getLsbD 63 then 0 else count)) 8, _, _, rfl,
      by rw [State.core_writeMem, none_], State.wordStep_swarm read v⟩
  case add =>
    refine State.atWord_sw here .swadd sc.code ok false .remote rfl rfl (fun _ => ?_) (fun never => Bool.noConfusion never)
    have counts : (sat.core s.ic).waiters = [] := by
      by_cases beyond : 2 ^ 28 - 1 < sum
      · rw [show sat = c.count s.ic 12 1 from if_pos beyond]
        exact ((State.Charged.count (a := s.ic) c (.inl rfl) ..).waiters s.ic).trans none_
      · rw [show sat = c from if_neg beyond, none_]
    exact ⟨sat.writeMem loc (settled target (min sum (2 ^ 28 - 1))) 8, _, _, rfl,
      by rw [State.core_writeMem, counts], State.wordStep_swadd read v⟩
  case read =>
    refine State.atWord_sw here .swrd 1 ok true .remote rfl rfl (fun _ => ?_) (fun never => Bool.noConfusion never)
    have step := fun acct => r.wordStep_swrd s.ic (s.home t t.off).2 v acct
    rw [read'] at step
    exact ⟨_, _, _, rfl, none', step⟩
  case wait =>
    have step := fun acct => r.wordStep_swwait s.ic (s.home t t.off).2 v acct
    rw [read', genOf] at step
    refine State.atWord_sw here .swwait 1 ok true .sync rfl rfl (fun differs => ?_) (fun same => ⟨rfl, fun acct => ?_, ?_⟩)
    · exact ⟨_, _, _, rfl, none', fun acct => (step acct).trans (if_neg (bne_iff_ne.1 differs))⟩
    · exact (step acct).trans (if_pos (bne_eq_false_iff_eq.1 same))
    · rintro ⟨u, parks, waits⟩
      exact ⟨u, parks, waits.run, waits.reason, waits.mem, waits.pc⟩

/-- Settles O31: an operation at a word of the scratchpad is one step at the word, or the wait for it. -/
theorem scratchpadWords : Obligations.ScratchpadWords := ⟨scratchpadFullEmpty, scratchpadSyncWords⟩

end Sys2Proof.Machine
end

section
/-!
SUPPORT. O46 leaves free which bytes the overlay or the mirror gives to the wait that a filled register line ends (`near`). Where
such a byte is poisoned in the vault, the wait ends in `POISON` (R191, R211) and the slot does not issue again.
-/
namespace Sys2Proof.Machine

/-- Core 0 has slot 0 parked for a register line, and the granule of its wait's byte is poisoned. -/
def lastFill : State :=
  { State.reset with
    poison := [0]
    cores := [(0, { slots := [(0, { run := .parked, why := .line, wait := some (nearWait .again) })] })] }

/-- The line arrives, and the slot traps. -/
theorem lastFill_traps : ∃ v, exec .registerLineFill { lastFill with evt := [0, 0, 0] } = .next v ∧ (v.slot 0 0).run = .trapped :=
  ⟨_, rfl, by decide⟩

/-- Refutes O46: a wait for a register line may carry bytes of the overlay or the mirror, of which its clause says nothing. In
`lastFill` one of them is poisoned, so the fill ends the wait in a trap, while the clause has the slot run again. -/
theorem not_vaultEvents : ¬ Obligations.VaultEvents := by
  unfold Obligations.VaultEvents
  intro h
  obtain ⟨-, -, -, -, -, -, -, -, -, -, -, fill, -⟩ := h lastFill 0 0 { id := 0, addr := 0, beats := 1, cont := .close }
  obtain ⟨fills, -⟩ := fill 0 0 (nearWait .again) (by decide) rfl rfl rfl rfl rfl rfl rfl rfl rfl
  obtain ⟨u, run, running, -, -⟩ := fills (.inl (by decide))
  obtain ⟨v, ends, trapped⟩ := lastFill_traps
  have same : u = v := Host.Outcome.next.inj (run.symm.trans ends)
  rw [same] at running
  exact absurd (trapped.symm.trans running) (by decide)

end Sys2Proof.Machine
end
